-- ==== Sys2Proof/Word.lean ====
section
/-! DEFINITION. The word types of the block and their plainest readings. Registers are 32 bits wide
and little-endian (R3); memory is byte addressed (R26). -/

namespace Sys2Proof

/-- One register or bus word (R3). -/
abbrev Word := BitVec 32

/-- One byte of a memory (R26). -/
abbrev Byte := BitVec 8

/-- A 64-bit value, as two registers `_L` and `_H` hold it. -/
abbrev Wide := BitVec 64

end Sys2Proof
end

