-- ==== Sys2Proof/Syntax.lean ====
section
/-! DEFINITION. The commands: who sends them and what they carry, and the one inductive `Instr` with
one constructor per row of spec/opcode_table.json. -/

namespace Sys2Proof

/-- A bus master (R35): host software, an engine 0 to 15 (PLN0-PLN3, SDSP0-SDSP7, NSEQ, CSEQ, SVC,
SAFC, in the order of R2), the door controller, or the backbone switch. -/
inductive Master
  | host
  | eng (e : Fin 16)
  | door
  | bbone
  deriving DecidableEq, Repr

/-- A memory of R26; `prog`, `data` and `ydata` are an engine's own. -/
inductive MemId
  | shared
  | ddr
  | factor
  | capture
  | mram
  | nor
  | prog (e : Fin 16)
  | data (e : Fin 16)
  | ydata (e : Fin 16)
  deriving DecidableEq, Repr

/-- What a time protocol message means to the servo (R42, R44): a Sync with the offset it yields and
the Sync interval in ns; the selection of a grandmaster (`self`: this module) with the Sync interval of the port in use;
the best clock that is announced, with its priority1 and whether this module's clock is the better one at equal
priority1; or any other. -/
inductive PtpBody
  | sync (offset : Int) (interval : Nat)
  | grandmaster (self : Bool) (interval : Nat)
  | announce (prio1 : BitVec 8) (better : Bool) (interval : Nat)
  | other
  deriving DecidableEq, Repr

/-- How a time protocol message travels (R42): layer 2, or UDP over IPv4 or IPv6. -/
inductive PtpTransport
  | l2
  | udp4
  | udp6
  deriving DecidableEq, Repr

/-- The header of a time protocol message: domain and transport (R42). -/
structure PtpHdr where
  domain : BitVec 8
  transport : PtpTransport
  deriving DecidableEq, Repr

/-- A time protocol message that has arrived: its header and what it means. -/
structure PtpMsg where
  hdr : PtpHdr
  body : PtpBody
  deriving DecidableEq, Repr

/-- A trip source with an input (R76): a port's FLT_N, a group's DC-link comparator, TRIP_N, Saffron's
STO command for a group, loss of PLL lock, or the module state. -/
inductive TripInput
  | flt (p : Fin 96)
  | dcv (g : Fin 12)
  | tripN
  | sto (g : Fin 12)
  | pws
  | modState
  deriving DecidableEq, Repr

/-- What can trigger the Capture Engine (R304): a comparator or a trigger compare with CAP = 1, a first
trip of a port, an edge of a field input (0 to 31) or of 1PPS_IN (32), or software. -/
inductive CapEvent
  | tcmp (c : Fin 128)
  | trgc (p : Fin 96)
  | trip (p : Fin 96)
  | ext (i : Fin 33) (rising : Bool)
  | force
  deriving DecidableEq, Repr

/-- What a serial transfer delivered (R119, R120): the BITS data bits as clocked in, MSB first and right
aligned; the BiSS C bits nE and nW and the CRC as received. -/
structure SerFrame where
  raw : BitVec 32
  nE : Bool
  nW : Bool
  crc : BitVec 6
  deriving DecidableEq, Repr

/-- The 64-bit registers of a profile generator (R175). -/
inductive PgWide
  | tgt
  | plo
  | phi
  | pos
  | gofs
  | mchg
  deriving DecidableEq, Repr


/-- Where LOOP takes its count from (R375, R386): a register or an 11-bit immediate. -/
inductive LoopCount
  | reg (ra : Fin 32)
  | imm (count : BitVec 11)
  deriving DecidableEq, Repr

/-- Who submitted a command and where its completions go (R185, R396, R402): no ring, a host ring, or the ring of
another module; `n` is the number of the command in its ring, as CMD_CNT counted it when it was taken (R395). It tells
two commands in flight with one CID apart. -/
inductive Via
  | none
  | ring (r : Fin 16) (n : BitVec 16)
  | rcd (src : Fin 64) (r : Fin 16) (n : BitVec 16)
  deriving DecidableEq, Repr

/-- A diagnostic of Saffron with what it is about (R242): codes 0x01 to 0x09 of scope ALL (`cell c`: code c + 1); PLAUS and
FEEDBACK of a joint; SWITCH and OVERCURRENT of a pair; and of class B SWITCH_ONE of a switch, EST_LOST of a joint, TP of
a test output. -/
inductive SafDiag
  | cell (c : Fin 9)
  | plaus (p : Fin 96)
  | feedback (p : Fin 96)
  | switch (g : Fin 12)
  | overcurrent (g : Fin 12)
  | switchOne (g : Fin 12) (hs : Bool)
  | estLost (p : Fin 96)
  | tp (k : Fin 4)
  deriving DecidableEq, Repr

/-- Where an ECC error of Nutmeg stands (R207): uncorrectable in a slot or in the iterates, or
corrected. -/
inductive NmgEcc
  | slot (k : Fin 2)
  | iterate
  | corrected
  deriving DecidableEq, Repr

/-- A joint block of a CYCLE frame or a checkpoint (R225): cell joint, port, knots of eight words each
in the layout of R156. -/
structure JointBlock where
  j : Nat
  port : Nat
  knots : List (List Word)
  deriving DecidableEq, Repr

/-- A checkpoint (R426): plan number, STAG of the ACTIVE slot, MISS_RUN, SLS_REQ and the joint blocks. -/
structure Ckpt where
  plan : Word
  stag : Word
  missRun : Nat
  slsReq : Bool
  joints : List JointBlock
  deriving DecidableEq, Repr

/-- What an RCD frame carries (R402): a submission entry of a ring of its sender, in format 2, or a
completion that goes back to it; each with the number of the command in that ring. -/
inductive RcdMsg
  | sqe (r : Fin 16) (n : BitVec 16) (raw : List Byte)
  | cqe (r : Fin 16) (n : BitVec 16) (res : Byte) (val : Wide)
  deriving DecidableEq, Repr

/-- The payload of a cell frame: bytes where the spec gives the layout, else what the frame says. -/
inductive Payload
  | bytes (l : List Byte)
  | rcd (m : RcdMsg)
  | ckpt (frag nfrag : Nat) (c : Ckpt)
  deriving DecidableEq, Repr

/-- A frame with the EtherType and the 802.1Q tag of R404: a cell frame (R405) has the header fields, the source
address, the payload bytes on the wire, the payload; then destination address, EtherType, priority code point, VLAN
identifier. -/
structure CellFrame where
  ver : Byte
  cls : Byte
  len : BitVec 16
  src : Byte
  dst : Byte
  cell : BitVec 16
  tx : Word
  hseq : Word
  mac : BitVec 48
  n : Nat
  body : Payload
  dest : BitVec 48
  etype : BitVec 16
  pcp : BitVec 3
  vid : BitVec 12
  deriving DecidableEq, Repr

/-- What leaves a port (R43): the first cell frame of its queue of a class, a Sync message of this module's own, or a time
protocol message that the switch relays, with its ingress time on its base and its correctionField, both in 125 ps. -/
inductive TxFrame
  | queued (tc : Fin 8)
  | sync (b : Fin 2) (transport : PtpTransport) (oneStep : Bool)
  | relay (b : Fin 2) (transport : PtpTransport) (arrived : Nat) (correction : Int)
  deriving DecidableEq, Repr

/-- The commands the module takes: one constructor per row of spec/opcode_table.json. Rows with operands
stand first, those of the instruction set of the engines behind the others, rows without operands last. -/
inductive Instr
  /-- REGISTER_WRITE (R11) -/
  | registerWrite (m : Master) (off : Nat) (size : Nat) (v : Word) (hw : Word)
  /-- INPUT_GOOD (R21) -/
  | inputGood (inp : Fin 2) (mv : Nat)
  /-- INPUT_LOST (R459) -/
  | inputLost (inp : Fin 2)
  /-- HOLDUP_INPUT_RETURN (R464) -/
  | holdupInputReturn (inp : Fin 2)
  /-- STORE_CHARGED (R461) -/
  | storeCharged (mj : BitVec 16)
  /-- RAIL_FAULT (R460) -/
  | railFault (rail : Fin 7)
  /-- RAIL_FAULT_PERSIST (R460) -/
  | railFaultPersist (rail : Fin 8)
  /-- PLL_LOCK_LOSS (R28) -/
  | pllLockLoss (frac : Fin 32)
  /-- WDT_KICK (R472) -/
  | wdtKick (m : Master) (key : Word)
  /-- ENGINE_WDT_EXPIRY (R473) -/
  | engineWdtExpiry (e : Fin 16)
  /-- ONCHIP_WIPE_DONE (R469) -/
  | onchipWipeDone (good : Bool)
  /-- SLEEP_COUNT_READ (R476) -/
  | sleepCountRead (m : Master)
  /-- TB_WRAP (R33) -/
  | tbWrap (b : Fin 4)
  /-- TB_STEP (R32) -/
  | tbStep (m : Master) (b : Fin 4)
  /-- TB_RATE_WRITE (R31) -/
  | tbRateWrite (m : Master) (b : Fin 4) (v : Word)
  /-- TB_NS_READ (R35) -/
  | tbNsRead (m : Master) (b : Fin 4)
  /-- TIMEEXT_UPDATE (R34) -/
  | timeextUpdate (b : Fin 4) (hi : Word) (wc : Byte)
  /-- TCMP_FIRE (R37) -/
  | tcmpFire (c : Fin 128) (sw : Option Word) (dis : Bool)
  /-- PPS_IN_EDGE (R45) -/
  | ppsInEdge (frac : Fin 32)
  /-- PTP_MESSAGE_RECEIVE (R42) -/
  | ptpMessageReceive (port : Fin 6) (b : Fin 2) (msg : PtpMsg)
  /-- HOLDOVER_ENTER (R44) -/
  | holdoverEnter (b : Fin 2)
  /-- HOLDOVER_SYNC_LOSS (R44) -/
  | holdoverSyncLoss (b : Fin 2)
  /-- FRAME_TRANSMIT (R43) -/
  | frameTransmit (p : Fin 7) (what : TxFrame)
  /-- DPW_PERIOD_START (R61) -/
  | dpwPeriodStart (p : Fin 96) (lead : Fin 33) (coin : Bool)
  /-- STANDALONE_PERIOD_END (R57) -/
  | standalonePeriodEnd (p : Fin 96)
  /-- DEADTIME_TURN_ON (R59) -/
  | deadtimeTurnOn (p : Fin 96) (leg : Fin 4)
  /-- TRGC_FIRE (R68) -/
  | trgcFire (p : Fin 96) (n : Fin 4) (lead : Fin 32) (dest : BitVec 4)
  /-- TRG_PULSE_END (R68) -/
  | trgPulseEnd (p : Fin 96)
  /-- DPW_COMMIT (R62) -/
  | dpwCommit (m : Master) (p : Fin 96)
  /-- DPW_CMP_WRITE (R63) -/
  | dpwCmpWrite (m : Master) (p : Fin 96) (leg : Fin 4) (v : Word)
  /-- DPW_CFG_WRITE (R51) -/
  | dpwCfgWrite (m : Master) (p : Fin 96) (v : Word)
  /-- DPW_PERIOD_WRITE (R56) -/
  | dpwPeriodWrite (m : Master) (p : Fin 96) (v : Word)
  /-- DPW_BRIDGE_WRITE (R72) -/
  | dpwBridgeWrite (m : Master) (p : Fin 96) (v : Word)
  /-- BRIDGE_DELAYED_TRANSITION (R72) -/
  | bridgeDelayedTransition (p : Fin 96) (leg : Fin 4)
  /-- TRIP_SOURCE_ASSERT (R77) -/
  | tripSourceAssert (src : TripInput) (frac : Fin 32)
  /-- SW_TRIP (R76) -/
  | swTrip (m : Master) (n : Fin 3) (v : Word)
  /-- TRIP_LATCH_CLEAR (R81) -/
  | tripLatchClear (m : Master) (p : Fin 96) (v : Word) (hw : Word)
  /-- TRF_SAFE_WRITE (R79) -/
  | trfSafeWrite (m : Master) (p : Fin 96) (v : Word)
  /-- TRF_CFG_WRITE (R80) -/
  | trfCfgWrite (m : Master) (p : Fin 96) (v : Word)
  /-- CAQ_FILTER_OUTPUT (R90) -/
  | caqFilterOutput (ch : Fin 204) (bit : Bool)
  /-- CAQ_CHANNEL_VALID (R91) -/
  | caqChannelValid (ch : Fin 204)
  /-- CAQ_COMPARATOR_EVENT (R93) -/
  | caqComparatorEvent (ch : Fin 204) (low : Bool)
  /-- CAQ_STUCK (R98) -/
  | caqStuck (ch : Fin 204)
  /-- CAQ_LAT_READ (R97) -/
  | caqLatRead (m : Master) (p : Fin 96)
  /-- CAQ_GROUP_CFG_WRITE (R89) -/
  | caqGroupCfgWrite (m : Master) (g : Fin 12) (v : Word)
  /-- CAQ_PORT_CFG_WRITE (R89) -/
  | caqPortCfgWrite (m : Master) (p : Fin 96) (v : Word)
  /-- PFB_EDGE (R104) -/
  | pfbEdge (p : Fin 96) (fa : Bool) (fb : Bool) (fz : Bool) (frac : Fin 32)
  /-- PFB_STANDSTILL (R114) -/
  | pfbStandstill (p : Fin 96)
  /-- PFB_LOAD (R107) -/
  | pfbLoad (m : Master) (p : Fin 96)
  /-- PFB_ABSORB (R107) -/
  | pfbAbsorb (m : Master) (p : Fin 96)
  /-- PFB_HOME (R107) -/
  | pfbHome (m : Master) (p : Fin 96)
  /-- PFB_CFG_WRITE (R101) -/
  | pfbCfgWrite (m : Master) (p : Fin 96) (ser : Bool) (v : Word)
  /-- PFB_SNAPSHOT_READ (R116) -/
  | pfbSnapshotRead (m : Master) (p : Fin 96) (pos : Bool)
  /-- SERIAL_TRANSFER_END (R121) -/
  | serialTransferEnd (p : Fin 96) (r : SerFrame)
  /-- SERIAL_ACK_TIMEOUT (R120) -/
  | serialAckTimeout (p : Fin 96)
  /-- LPE_SLOT_START (R128) -/
  | lpeSlotStart (k : Fin 96)
  /-- LPE_HOOK_READ (R141) -/
  | lpeHookRead (k : Fin 96) (n : Fin 3)
  /-- LPE_SLOT_END (R127) -/
  | lpeSlotEnd (k : Fin 96)
  /-- LPE_HOOK_COMMIT (R141) -/
  | lpeHookCommit (m : Master) (k : Fin 96) (n : Fin 3) (v : Word)
  /-- LPE_SWAP (R138) -/
  | lpeSwap (m : Master) (k : Fin 96)
  /-- LPE_RESET_INT (R139) -/
  | lpeResetInt (m : Master) (k : Fin 96)
  /-- LPE_BANK_WRITE (R137) -/
  | lpeBankWrite (m : Master) (k : Fin 96) (bank : Fin 2) (word : Fin 22) (v : Word) (coin : Bool)
  /-- PG_EVALUATE (R150) -/
  | pgEvaluate (n : Fin 128)
  /-- PG_RETARGET (R152) -/
  | pgRetarget (m : Master) (n : Fin 128)
  /-- PG_FLUSH (R157) -/
  | pgFlush (m : Master) (n : Fin 128)
  /-- PG_GEAR_ARM (R166) -/
  | pgGearArm (m : Master) (n : Fin 128)
  /-- PG_LEARN (R172) -/
  | pgLearn (m : Master) (n : Fin 128)
  /-- PG_LEARN_END (R172) -/
  | pgLearnEnd (m : Master) (n : Fin 128)
  /-- PG_KNOT_PUSH (R157) -/
  | pgKnotPush (m : Master) (n : Fin 128) (w7 : Word)
  /-- PG_CFG_WRITE (R148) -/
  | pgCfgWrite (m : Master) (n : Fin 128) (v : Word)
  /-- PG_WIDE_WRITE (R175) -/
  | pgWideWrite (m : Master) (n : Fin 128) (reg : PgWide) (hi : Bool) (v : Word)
  /-- PG_WIDE_READ (R175) -/
  | pgWideRead (m : Master) (n : Fin 128) (reg : PgWide)
  /-- CHOPPER_COMPARE (R168) -/
  | chopperCompare (p : Fin 96) (b : Fin 2)
  /-- CHOPPER_TIMER_END (R168) -/
  | chopperTimerEnd (p : Fin 96) (b : Fin 2)
  /-- STEPPER_STANDSTILL (R169) -/
  | stepperStandstill (n : Fin 96)
  /-- NMG_SUBMIT_WRITE (R180) -/
  | nmgSubmitWrite (m : Master) (v : Word)
  /-- NMG_ECC_ERROR (R207) -/
  | nmgEccError (w : NmgEcc)
  /-- STATE_FRAME_RECEIVE (R216) -/
  | stateFrameReceive (src : Fin 64) (p : List Byte)
  /-- PLAN_SOLVE_SUBMIT (R220) -/
  | planSolveSubmit (ofs : Word)
  /-- PLAN_OUTPUT (R223) -/
  | planOutput (parts : Nat)
  /-- CYCLE_FRAME_RECEIVE (R226) -/
  | cycleFrameReceive (src : Fin 64) (p : List Byte)
  /-- SAFETY_CYCLE_START (R232) -/
  | safetyCycleStart (ppm : Int) (contra : BitVec 12)
  /-- SAFFRON_START (R239) -/
  | saffronStart (no : BitVec 12) (nc : BitVec 12) (cover : Bool) (bGood : Bool)
  /-- SAF_PARAM_WRITE (R238) -/
  | safParamWrite (via : Via) (idx : Byte) (ofs : Word)
  /-- SEAL_SAMPLE (R240) -/
  | sealSample (no : BitVec 12) (nc : BitVec 12) (cover : Bool)
  /-- SAFC_DIAGNOSTIC (R242) -/
  | safcDiagnostic (d : SafDiag) (pass : Bool)
  /-- SI_SAMPLE (R247) -/
  | siSample (a : BitVec 16) (b : BitVec 16)
  /-- SI_DISCREPANCY (R248) -/
  | siDiscrepancy (si : Fin 16)
  /-- TEST_PULSE (R249) -/
  | testPulse (k : Fin 4) (rb : Bool) (lowA : BitVec 16) (lowB : BitVec 16)
  /-- STO_RELEASE_CHECK (R253) -/
  | stoReleaseCheck (g : Fin 12) (good : Bool)
  /-- STOG_SWITCH_TEST (R254) -/
  | stogSwitchTest (g : Fin 12) (hs : Bool) (good : Bool)
  /-- STOG_OVERCURRENT (R242) -/
  | stogOvercurrent (g : Fin 12)
  /-- SAFE_FRAME_RECEIVE (R267) -/
  | safeFrameReceive (p : List Byte)
  /-- CONN_TIMEOUT (R267) -/
  | connTimeout (c : Fin 32)
  /-- SAF_REQUEST_WRITE (R269) -/
  | safRequestWrite (m : Master) (v : Word)
  /-- SAF_EST_COMMIT (R269) -/
  | safEstCommit (m : Master) (p : Fin 96) (tag : Word)
  /-- DOOR_CFG_WRITE (R278) -/
  | doorCfgWrite (m : Master) (d : Fin 8) (v : Word)
  /-- DOOR_OPEN (R282) -/
  | doorOpen (m : Master) (d : Fin 8) (seq : BitVec 16)
  /-- DOOR_CLOSE (R282) -/
  | doorClose (m : Master) (d : Fin 8) (seq : BitVec 16)
  /-- DOOR_STOP (R282) -/
  | doorStop (m : Master) (d : Fin 8) (seq : BitVec 16)
  /-- DOOR_LEARN (R286) -/
  | doorLearn (m : Master) (d : Fin 8) (seq : BitVec 16)
  /-- DOOR_RESET (R282) -/
  | doorReset (m : Master) (d : Fin 8) (seq : BitVec 16)
  /-- DOOR_GRANT_TIMEOUT (R283) -/
  | doorGrantTimeout (d : Fin 8)
  /-- DOOR_LOCK_TIMEOUT (R284) -/
  | doorLockTimeout (d : Fin 8)
  /-- FIO_CHCFG_WRITE (R290) -/
  | fioChcfgWrite (m : Master) (ch : Fin 32) (v : Word)
  /-- FIO_INPUT_SAMPLE (R291) -/
  | fioInputSample (raw : Word)
  /-- FIO_OUT_WRITE (R292) -/
  | fioOutWrite (m : Master) (v : Word)
  /-- FIO_OUTSET (R292) -/
  | fioOutset (m : Master) (v : Word)
  /-- FIO_OUTCLR (R292) -/
  | fioOutclr (m : Master) (v : Word)
  /-- FIO_CHANNEL_FAULT (R293) -/
  | fioChannelFault (ch : Fin 32) (code : Fin 4)
  /-- FIO_SUPPLY_SAG (R294) -/
  | fioSupplySag (b : Fin 2) (mv : BitVec 16)
  /-- FIO_SUPPLY_RESTORE (R294) -/
  | fioSupplyRestore (b : Fin 2) (mv : BitVec 16)
  /-- OUT_REARM (R295) -/
  | outRearm (m : Master) (b : Fin 2)
  /-- DLK_OVERCURRENT (R494) -/
  | dlkOvercurrent (d : Fin 8)
  /-- CAP_START (R303) -/
  | capStart (m : Master)
  /-- CAP_STOP (R305) -/
  | capStop (m : Master)
  /-- CAP_FORCE (R304) -/
  | capForce (m : Master)
  /-- CAP_TRIGGER (R304) -/
  | capTrigger (ev : CapEvent) (ns : Word) (frac : Fin 32) (wc : Byte)
  /-- CAP_RDPTR_WRITE (R310) -/
  | capRdptrWrite (m : Master) (v : Word)
  /-- TOKEN_ARRIVE (R318) -/
  | tokenArrive (tag : BitVec 16) (v : Word) (tb : Bool)
  /-- CLV_POST (R318) -/
  | clvPost (m : Master) (tag : Word)
  /-- THREAD_START (R317) -/
  | threadStart (m : Master) (t : Fin 1024)
  /-- THREAD_HALT (R317) -/
  | threadHalt (m : Master) (t : Fin 1024)
  /-- THREAD_FREE (R317) -/
  | threadFree (m : Master) (t : Fin 1024)
  /-- CONTEXT_FETCH_DONE (R323) -/
  | contextFetchDone (e : Fin 15)
  /-- BUDGET_EXPIRY (R325) -/
  | budgetExpiry (t : Fin 1024)
  /-- GRAPH_NODE_LIMIT (R333) -/
  | graphNodeLimit (e : Fin 15)
  /-- GRAPH_END (R334) -/
  | graphEnd (m : Master) (v : Word)
  /-- INTERRUPT_ENTRY (R381) -/
  | interruptEntry (k : Fin 8)
  /-- SDS_IRQ_SET (R381) -/
  | sdsIrqSet (m : Master) (k : Fin 8) (v : Word)
  /-- SQ_DOORBELL (R394) -/
  | sqDoorbell (m : Master) (r : Fin 16) (v : Word)
  /-- CQ_DOORBELL (R394) -/
  | cqDoorbell (m : Master) (r : Fin 16) (v : Word)
  /-- RING_ENABLE (R398) -/
  | ringEnable (m : Master) (r : Fin 16) (v : Word)
  /-- SQE_FETCH (R395) -/
  | sqeFetch (r : Fin 16) (raw : Option (List Byte))
  /-- CQE_WRITE (R397) -/
  | cqeWrite (r : Fin 16) (good : Bool)
  /-- MSIX_COAL_TIMEOUT (R400) -/
  | msixCoalTimeout (r : Fin 16)
  /-- NOP (R401) -/
  | nop (via : Via)
  /-- REG_READ (R401) -/
  | regRead (via : Via) (off : Word) (cnt : Byte)
  /-- REG_WRITE (R401) -/
  | regWrite (via : Via) (off : Word) (v : Word)
  /-- TOKEN_POST (R401) -/
  | tokenPost (via : Via) (tag : BitVec 16) (v : Word)
  /-- MODULE_RUN (R21) -/
  | moduleRun (via : Via)
  /-- MODULE_STOP (R21) -/
  | moduleStop (via : Via)
  /-- MODULE_SLEEP (R465) -/
  | moduleSleep (via : Via)
  /-- MODULE_RESET_SAFE (R21) -/
  | moduleResetSafe (via : Via)
  /-- MODULE_RESTART (R467) -/
  | moduleRestart (via : Via)
  /-- NMG_SUBMIT (R401) -/
  | nmgSubmit (via : Via) (ofs : Word)
  /-- ID_READ (R445) -/
  | idRead (via : Via) (ofs : Word)
  /-- ID_LOGIN (R446) -/
  | idLogin (via : Via) (ofs : Word)
  /-- ID_LOGOUT (R445) -/
  | idLogout (via : Via)
  /-- ID_ATTEST (R445) -/
  | idAttest (via : Via) (ofs : Word) (chal : List Byte)
  /-- LC_CHANGE (R454) -/
  | lcChange (via : Via) (target : Byte) (ofs : Word)
  /-- RCD_EXPORT (R437) -/
  | rcdExport (via : Via) (start : Wide) (cnt : Word) (ofs : Word)
  /-- RCD_NONCE (R438) -/
  | rcdNonce (via : Via)
  /-- RCD_CLEAR (R438) -/
  | rcdClear (via : Via) (ofs : Word)
  /-- IMG_ERASE (R449) -/
  | imgErase (via : Via) (slot : Byte) (ofs : Word)
  /-- IMG_WRITE (R449) -/
  | imgWrite (via : Via) (slot : Byte) (ofs : Word) (src : Word) (len : Word)
  /-- IMG_COMMIT (R449) -/
  | imgCommit (via : Via) (slot : Byte) (len : Word)
  /-- CFG_WRITE (R417) -/
  | cfgWrite (via : Via) (ofs : Word)
  /-- CFG_READ (R417) -/
  | cfgRead (via : Via) (ofs : Word)
  /-- RCD_FRAME_RECEIVE (R402) -/
  | rcdFrameReceive (src : Fin 64) (msg : RcdMsg)
  /-- RCD_TIMEOUT (R402) -/
  | rcdTimeout (r : Fin 16) (n : BitVec 16)
  /-- BBS_FRAME_RECEIVE (R406) -/
  | bbsFrameReceive (p : Fin 6) (f : CellFrame) (rtag : Option (BitVec 16)) (size : Nat)
  /-- BBS_LINK_DOWN (R407) -/
  | bbsLinkDown (p : Fin 6)
  /-- BBS_LINK_UP (R412) -/
  | bbsLinkUp (p : Fin 6) (speed : Fin 5) (preempt : Bool) (tx : Word) (rx : Word)
  /-- GCL_COMMIT (R410) -/
  | gclCommit (m : Master) (p : Fin 7) (v : Word)
  /-- GCL_ACTIVATE (R410) -/
  | gclActivate (p : Fin 7)
  /-- GATE_INTERVAL_END (R409) -/
  | gateIntervalEnd (p : Fin 7)
  /-- HB_RECEIVE (R422) -/
  | hbReceive (src : Fin 64) (pathB : Bool) (p : List Byte)
  /-- CKPT_FETCH_DONE (R427) -/
  | ckptFetchDone (l : List Ckpt) (ofs : Word)
  /-- CKPT_RECEIVE (R426) -/
  | ckptReceive (src : Fin 64) (frag : Nat) (nfrag : Nat) (ck : Ckpt)
  /-- STARVE_SS1_TIMEOUT (R420) -/
  | starveSs1Timeout (n : Fin 128)
  /-- ANS_POST (R439) -/
  | ansPost (m : Master) (v : Word)
  /-- ANS_FLUSH (R436) -/
  | ansFlush (good : Bool)
  /-- ANS_PTR_READ (R440) -/
  | ansPtrRead (m : Master) (tail : Bool)
  /-- PLAN_FRAGMENT_DEADLINE (R226) -/
  | planFragmentDeadline (plan : Word)
  /-- TRIP_INPUT_RELEASE (R81) -/
  | tripInputRelease (src : TripInput)
  /-- INPUT_RESTORED (R459) -/
  | inputRestored (inp : Fin 2) (mv : Nat)
  /-- PCIE_LINK_UP (R389) -/
  | pcieLinkUp (rate : Fin 3) (width : Fin 3) (sris : Bool)
  /-- SFP_MODULE_INSERT (R487) -/
  | sfpModuleInsert (p : Fin 4) (hot : Bool)
  /-- FRER_RECOVERY_RESET (R407) -/
  | frerRecoveryReset (src : Fin 64) (cls : Fin 8)
  /-- ADDRESS_TABLE_AGEING (R403) -/
  | addressTableAgeing (mac : BitVec 48)
  /-- SESSION_EXPIRY (R446) -/
  | sessionExpiry (src : Option (Fin 64)) (r : Fin 16)
  /-- ADD (R346) -/
  | add (e : Fin 16) (rd : Fin 32) (ra : Fin 32) (rb : Fin 32)
  /-- SUB (R346) -/
  | sub (e : Fin 16) (rd : Fin 32) (ra : Fin 32) (rb : Fin 32)
  /-- AND (R346) -/
  | band (e : Fin 16) (rd : Fin 32) (ra : Fin 32) (rb : Fin 32)
  /-- OR (R346) -/
  | bor (e : Fin 16) (rd : Fin 32) (ra : Fin 32) (rb : Fin 32)
  /-- XOR (R346) -/
  | xor (e : Fin 16) (rd : Fin 32) (ra : Fin 32) (rb : Fin 32)
  /-- NOR (R346) -/
  | nor (e : Fin 16) (rd : Fin 32) (ra : Fin 32) (rb : Fin 32)
  /-- SLL (R346) -/
  | sll (e : Fin 16) (rd : Fin 32) (ra : Fin 32) (rb : Fin 32)
  /-- SRL (R346) -/
  | srl (e : Fin 16) (rd : Fin 32) (ra : Fin 32) (rb : Fin 32)
  /-- SRA (R346) -/
  | sra (e : Fin 16) (rd : Fin 32) (ra : Fin 32) (rb : Fin 32)
  /-- SLLI (R346) -/
  | slli (e : Fin 16) (rd : Fin 32) (ra : Fin 32) (sh : Fin 32)
  /-- SRLI (R346) -/
  | srli (e : Fin 16) (rd : Fin 32) (ra : Fin 32) (sh : Fin 32)
  /-- SRAI (R346) -/
  | srai (e : Fin 16) (rd : Fin 32) (ra : Fin 32) (sh : Fin 32)
  /-- MUL (R346) -/
  | mul (e : Fin 16) (rd : Fin 32) (ra : Fin 32) (rb : Fin 32)
  /-- MULH (R346) -/
  | mulh (e : Fin 16) (rd : Fin 32) (ra : Fin 32) (rb : Fin 32)
  /-- MULHU (R346) -/
  | mulhu (e : Fin 16) (rd : Fin 32) (ra : Fin 32) (rb : Fin 32)
  /-- DIV (R347) -/
  | div (e : Fin 16) (rd : Fin 32) (ra : Fin 32) (rb : Fin 32)
  /-- DIVU (R347) -/
  | divu (e : Fin 16) (rd : Fin 32) (ra : Fin 32) (rb : Fin 32)
  /-- REM (R347) -/
  | rem (e : Fin 16) (rd : Fin 32) (ra : Fin 32) (rb : Fin 32)
  /-- REMU (R347) -/
  | remu (e : Fin 16) (rd : Fin 32) (ra : Fin 32) (rb : Fin 32)
  /-- SLT (R346) -/
  | slt (e : Fin 16) (rd : Fin 32) (ra : Fin 32) (rb : Fin 32)
  /-- SLTU (R346) -/
  | sltu (e : Fin 16) (rd : Fin 32) (ra : Fin 32) (rb : Fin 32)
  /-- MIN (R346) -/
  | min (e : Fin 16) (rd : Fin 32) (ra : Fin 32) (rb : Fin 32)
  /-- MAX (R346) -/
  | max (e : Fin 16) (rd : Fin 32) (ra : Fin 32) (rb : Fin 32)
  /-- MINU (R346) -/
  | minu (e : Fin 16) (rd : Fin 32) (ra : Fin 32) (rb : Fin 32)
  /-- MAXU (R346) -/
  | maxu (e : Fin 16) (rd : Fin 32) (ra : Fin 32) (rb : Fin 32)
  /-- SEL (R346) -/
  | sel (e : Fin 16) (q : Fin 4) (rd : Fin 32) (ra : Fin 32) (rb : Fin 32)
  /-- CMPP (R349) -/
  | cmpp (e : Fin 16) (pd : Fin 4) (cond : Fin 8) (ra : Fin 32) (rb : Fin 32)
  /-- PAND (R346) -/
  | pand (e : Fin 16) (pd : Fin 4) (pa : Fin 4) (pb : Fin 4)
  /-- POR (R346) -/
  | por (e : Fin 16) (pd : Fin 4) (pa : Fin 4) (pb : Fin 4)
  /-- PXOR (R346) -/
  | pxor (e : Fin 16) (pd : Fin 4) (pa : Fin 4) (pb : Fin 4)
  /-- PANDN (R346) -/
  | pandn (e : Fin 16) (pd : Fin 4) (pa : Fin 4) (pb : Fin 4)
  /-- PNOT (R346) -/
  | pnot (e : Fin 16) (pd : Fin 4) (pa : Fin 4)
  /-- MFP (R346) -/
  | mfp (e : Fin 16) (rd : Fin 32)
  /-- MTP (R346) -/
  | mtp (e : Fin 16) (ra : Fin 32)
  /-- CLZ (R346) -/
  | clz (e : Fin 16) (rd : Fin 32) (ra : Fin 32)
  /-- CTZ (R346) -/
  | ctz (e : Fin 16) (rd : Fin 32) (ra : Fin 32)
  /-- POPC (R346) -/
  | popc (e : Fin 16) (rd : Fin 32) (ra : Fin 32)
  /-- ADDI (R348) -/
  | addi (e : Fin 16) (rd : Fin 32) (ra : Fin 32) (imm : BitVec 16)
  /-- ANDI (R348) -/
  | andi (e : Fin 16) (rd : Fin 32) (ra : Fin 32) (imm : BitVec 16)
  /-- ORI (R348) -/
  | ori (e : Fin 16) (rd : Fin 32) (ra : Fin 32) (imm : BitVec 16)
  /-- XORI (R348) -/
  | xori (e : Fin 16) (rd : Fin 32) (ra : Fin 32) (imm : BitVec 16)
  /-- LUI (R348) -/
  | lui (e : Fin 16) (rd : Fin 32) (imm : BitVec 16)
  /-- SLTI (R348) -/
  | slti (e : Fin 16) (rd : Fin 32) (ra : Fin 32) (imm : BitVec 16)
  /-- CMPPI (R349) -/
  | cmppi (e : Fin 16) (pd : Fin 4) (cond : Fin 8) (ra : Fin 32) (imm : BitVec 16)
  /-- MFS (R340) -/
  | mfs (e : Fin 16) (rd : Fin 32) (imm : BitVec 16)
  /-- MTS (R340) -/
  | mts (e : Fin 16) (ra : Fin 32) (imm : BitVec 16)
  /-- TRAP (R348) -/
  | trap (e : Fin 16) (imm : BitVec 16)
  /-- ERET (R363) -/
  | eret (e : Fin 16)
  /-- BREAK (R362) -/
  | brk (e : Fin 16)
  /-- FENCE (R361) -/
  | fence (e : Fin 16)
  /-- LD (R350) -/
  | ld (e : Fin 16) (rd : Fin 32) (ra : Fin 32) (sz : Fin 4) (disp : BitVec 14)
  /-- LDU (R350) -/
  | ldu (e : Fin 16) (rd : Fin 32) (ra : Fin 32) (sz : Fin 4) (disp : BitVec 14)
  /-- ST (R350) -/
  | st (e : Fin 16) (rs : Fin 32) (ra : Fin 32) (sz : Fin 4) (disp : BitVec 14)
  /-- LDF (R350) -/
  | ldf (e : Fin 16) (rd : Fin 32) (ra : Fin 32) (sz : Fin 4) (disp : BitVec 14)
  /-- STF (R350) -/
  | stf (e : Fin 16) (rs : Fin 32) (ra : Fin 32) (sz : Fin 4) (disp : BitVec 14)
  /-- AMO_SWAP (R351) -/
  | amoSwap (e : Fin 16) (rd : Fin 32) (ra : Fin 32) (rb : Fin 32)
  /-- AMO_ADD (R351) -/
  | amoAdd (e : Fin 16) (rd : Fin 32) (ra : Fin 32) (rb : Fin 32)
  /-- AMO_AND (R351) -/
  | amoAnd (e : Fin 16) (rd : Fin 32) (ra : Fin 32) (rb : Fin 32)
  /-- AMO_OR (R351) -/
  | amoOr (e : Fin 16) (rd : Fin 32) (ra : Fin 32) (rb : Fin 32)
  /-- AMO_CAS (R351) -/
  | amoCas (e : Fin 16) (rd : Fin 32) (ra : Fin 32) (rb : Fin 32)
  /-- CACHE_WRITE_BACK (R352) -/
  | cacheWriteBack (e : Fin 16) (ra : Fin 32) (disp : BitVec 14)
  /-- CACHE_INVALIDATE (R352) -/
  | cacheInvalidate (e : Fin 16) (ra : Fin 32) (disp : BitVec 14)
  /-- CACHE_WB_INVALIDATE (R352) -/
  | cacheWbInvalidate (e : Fin 16) (ra : Fin 32) (disp : BitVec 14)
  /-- BP (R353) -/
  | bp (e : Fin 16) (q : Fin 4) (ofs : BitVec 16)
  /-- BNP (R353) -/
  | bnp (e : Fin 16) (q : Fin 4) (ofs : BitVec 16)
  /-- BZ (R353) -/
  | bz (e : Fin 16) (ra : Fin 32) (ofs : BitVec 16)
  /-- BNZ (R353) -/
  | bnz (e : Fin 16) (ra : Fin 32) (ofs : BitVec 16)
  /-- BLTZ (R353) -/
  | bltz (e : Fin 16) (ra : Fin 32) (ofs : BitVec 16)
  /-- BGEZ (R353) -/
  | bgez (e : Fin 16) (ra : Fin 32) (ofs : BitVec 16)
  /-- BLEZ (R353) -/
  | blez (e : Fin 16) (ra : Fin 32) (ofs : BitVec 16)
  /-- BGTZ (R353) -/
  | bgtz (e : Fin 16) (ra : Fin 32) (ofs : BitVec 16)
  /-- BA (R353) -/
  | ba (e : Fin 16) (ofs : BitVec 16)
  /-- J (R353) -/
  | j (e : Fin 16) (ofs : BitVec 26)
  /-- JL (R353) -/
  | jl (e : Fin 16) (ofs : BitVec 26)
  /-- JALR (R353) -/
  | jalr (e : Fin 16) (rd : Fin 32) (ra : Fin 32) (imm : BitVec 16)
  /-- FADD (R355) -/
  | fadd (e : Fin 16) (dbl : Bool) (rd : Fin 32) (ra : Fin 32) (rb : Fin 32)
  /-- FSUB (R355) -/
  | fsub (e : Fin 16) (dbl : Bool) (rd : Fin 32) (ra : Fin 32) (rb : Fin 32)
  /-- FMUL (R355) -/
  | fmul (e : Fin 16) (dbl : Bool) (rd : Fin 32) (ra : Fin 32) (rb : Fin 32)
  /-- FDIV (R355) -/
  | fdiv (e : Fin 16) (dbl : Bool) (rd : Fin 32) (ra : Fin 32) (rb : Fin 32)
  /-- FSQRT (R355) -/
  | fsqrt (e : Fin 16) (dbl : Bool) (rd : Fin 32) (ra : Fin 32)
  /-- FMIN (R355) -/
  | fmin (e : Fin 16) (dbl : Bool) (rd : Fin 32) (ra : Fin 32) (rb : Fin 32)
  /-- FMAX (R355) -/
  | fmax (e : Fin 16) (dbl : Bool) (rd : Fin 32) (ra : Fin 32) (rb : Fin 32)
  /-- FMAC (R355) -/
  | fmac (e : Fin 16) (dbl : Bool) (rd : Fin 32) (ra : Fin 32) (rb : Fin 32)
  /-- FNMAC (R355) -/
  | fnmac (e : Fin 16) (dbl : Bool) (rd : Fin 32) (ra : Fin 32) (rb : Fin 32)
  /-- FABS (R355) -/
  | fabs (e : Fin 16) (dbl : Bool) (rd : Fin 32) (ra : Fin 32)
  /-- FNEG (R355) -/
  | fneg (e : Fin 16) (dbl : Bool) (rd : Fin 32) (ra : Fin 32)
  /-- FMOV (R355) -/
  | fmov (e : Fin 16) (dbl : Bool) (rd : Fin 32) (ra : Fin 32)
  /-- FCVTP (R355) -/
  | fcvtp (e : Fin 16) (dbl : Bool) (rd : Fin 32) (ra : Fin 32)
  /-- FCVTW (R355) -/
  | fcvtw (e : Fin 16) (dbl : Bool) (rd : Fin 32) (ra : Fin 32)
  /-- FCVTF (R355) -/
  | fcvtf (e : Fin 16) (dbl : Bool) (rd : Fin 32) (ra : Fin 32)
  /-- FMVL (R355) -/
  | fmvl (e : Fin 16) (rd : Fin 32) (ra : Fin 32)
  /-- FMVH (R355) -/
  | fmvh (e : Fin 16) (rd : Fin 32) (ra : Fin 32)
  /-- FMTL (R355) -/
  | fmtl (e : Fin 16) (rd : Fin 32) (ra : Fin 32)
  /-- FMTH (R355) -/
  | fmth (e : Fin 16) (rd : Fin 32) (ra : Fin 32)
  /-- FCMPP (R356) -/
  | fcmpp (e : Fin 16) (dbl : Bool) (pd : Fin 4) (cond : Fin 8) (ra : Fin 32) (rb : Fin 32)
  /-- TWAIT (R319) -/
  | twait (e : Fin 16) (ra : Fin 32) (rb : Fin 32)
  /-- TPOST (R358) -/
  | tpost (e : Fin 16) (ra : Fin 32) (rb : Fin 32)
  /-- TPOSTI (R358) -/
  | tposti (e : Fin 16) (ra : Fin 32) (imm : BitVec 16)
  /-- TREAD (R359) -/
  | tread (e : Fin 16) (rd : Fin 32) (b : Fin 32) (rw : Fin 32)
  /-- MPY (R372) -/
  | mpy (e : Fin 16) (acc : Fin 4) (ra : Fin 32) (rb : Fin 32)
  /-- MAC (R372) -/
  | mac (e : Fin 16) (acc : Fin 4) (ra : Fin 32) (rb : Fin 32)
  /-- MSU (R372) -/
  | msu (e : Fin 16) (acc : Fin 4) (ra : Fin 32) (rb : Fin 32)
  /-- CLRA (R372) -/
  | clra (e : Fin 16) (acd : Fin 4)
  /-- NEGA (R372) -/
  | nega (e : Fin 16) (acd : Fin 4)
  /-- ADDA (R372) -/
  | adda (e : Fin 16) (acd : Fin 4) (acs : Fin 4)
  /-- SUBA (R372) -/
  | suba (e : Fin 16) (acd : Fin 4) (acs : Fin 4)
  /-- SHA (R372) -/
  | sha (e : Fin 16) (acd : Fin 4) (k : BitVec 6)
  /-- MVA (R372) -/
  | mva (e : Fin 16) (rd : Fin 32) (acd : Fin 4) (scl : BitVec 3) (rnd : Bool)
  /-- MVTA (R372) -/
  | mvta (e : Fin 16) (acd : Fin 4) (ra : Fin 32)
  /-- MVAL (R372) -/
  | mval (e : Fin 16) (rd : Fin 32) (acd : Fin 4)
  /-- MVAH (R372) -/
  | mvah (e : Fin 16) (rd : Fin 32) (acd : Fin 4)
  /-- MTAL (R372) -/
  | mtal (e : Fin 16) (acd : Fin 4) (ra : Fin 32)
  /-- MTAH (R372) -/
  | mtah (e : Fin 16) (acd : Fin 4) (ra : Fin 32)
  /-- TSTA (R372) -/
  | tsta (e : Fin 16) (pd : Fin 4) (cond : Fin 8) (acd : Fin 4)
  /-- MACD (R374) -/
  | macd (e : Fin 16) (acc : Fin 4) (op : Fin 4) (mx : Fin 8) (my : Fin 8) (lx : Fin 8) (ly : Fin 8) (ax : Fin 8) (ay : Fin 8) (nl : Bool)
  /-- LDP (R373) -/
  | ldp (e : Fin 16) (rd : Fin 32) (n : Fin 8) (sm : Fin 8) (sz : Fin 4) (u : Bool)
  /-- STP (R373) -/
  | stp (e : Fin 16) (rs : Fin 32) (n : Fin 8) (sm : Fin 8) (sz : Fin 4)
  /-- MVTP (R386) -/
  | mvtp (e : Fin 16) (g : Fin 32) (n : Fin 8)
  /-- MVTS (R386) -/
  | mvts (e : Fin 16) (g : Fin 32) (n : Fin 8)
  /-- MVFP (R386) -/
  | mvfp (e : Fin 16) (g : Fin 32) (n : Fin 8)
  /-- MVFS (R386) -/
  | mvfs (e : Fin 16) (g : Fin 32) (n : Fin 8)
  /-- ADDPS (R386) -/
  | addps (e : Fin 16) (n : Fin 8)
  /-- ADDPI (R386) -/
  | addpi (e : Fin 16) (n : Fin 8) (imm : BitVec 15)
  /-- LOOP (R375) -/
  | loop (e : Fin 16) (cnt : LoopCount) (len : BitVec 14)
  /-- MFL (R376) -/
  | mfl (e : Fin 16) (g : Fin 32) (sel : Fin 8)
  /-- MTL (R376) -/
  | mtl (e : Fin 16) (g : Fin 32) (sel : Fin 8)
  /-- LPOP (R376) -/
  | lpop (e : Fin 16)
  /-- RETI (R382) -/
  | reti (e : Fin 16)
  /-- BOTH_INPUTS_LOST (R462) -/
  | bothInputsLost
  /-- STORE_EXHAUSTED (R463) -/
  | storeExhausted
  /-- RAILS_UP (R468) -/
  | railsUp
  /-- DIE_OVERTEMP (R480) -/
  | dieOvertemp
  /-- DIE_COOLED (R480) -/
  | dieCooled
  /-- PLL_RELOCK (R28) -/
  | pllRelock
  /-- PLL_LOCK_TIMEOUT (R28) -/
  | pllLockTimeout
  /-- MODULE_WDT_EXPIRY (R472) -/
  | moduleWdtExpiry
  /-- WAKE (R465) -/
  | wake
  /-- SLEEP_STORE_EXHAUSTED (R466) -/
  | sleepStoreExhausted
  /-- IMAGE_LOAD (R369) -/
  | imageLoad
  /-- RECOVERY_SYNC_WAIT_END (R474) -/
  | recoverySyncWaitEnd
  /-- RECOVERY_TIMEOUT (R474) -/
  | recoveryTimeout
  /-- PPS_OUT_FALL (R45) -/
  | ppsOutFall
  /-- TEN_SRC_CHANGE (R46) -/
  | tenSrcChange
  /-- LOAD_STRUCT (R187) -/
  | loadStruct
  /-- SOLVE (R183) -/
  | solve
  /-- REFACTOR (R204) -/
  | refactor
  /-- ABORT (R184) -/
  | abort
  /-- NMG_ITERATION_END (R197) -/
  | nmgIterationEnd
  /-- NMG_BUILD_END (R187) -/
  | nmgBuildEnd
  /-- NMG_AUTO_REFACTOR (R203) -/
  | nmgAutoRefactor
  /-- PLAN_CYCLE_START (R213) -/
  | planCycleStart
  /-- SNAPSHOT_END (R215) -/
  | snapshotEnd
  /-- PLAN_SOLUTION_RECEIVED (R221) -/
  | planSolutionReceived
  /-- PLAN_DEADLINE (R223) -/
  | planDeadline
  /-- SAFETY_OUTPUT_POINT (R232) -/
  | safetyOutputPoint
  /-- SAFETY_CYCLE_OVERRUN (R233) -/
  | safetyCycleOverrun
  /-- SAFETY_SUPPLY_FAULT (R233) -/
  | safetySupplyFault
  /-- COVER_OPEN (R241) -/
  | coverOpen
  /-- DEGRADED_END (R245) -/
  | degradedEnd
  /-- CAP_RECORD_COMMIT (R310) -/
  | capRecordCommit
  /-- CAP_REARM (R306) -/
  | capRearm
  /-- OVERFLOW_DRAIN (R328) -/
  | overflowDrain
  /-- OVERFLOW_TIMEOUT (R329) -/
  | overflowTimeout
  /-- PCIE_LINK_LOSS (R399) -/
  | pcieLinkLoss
  /-- PCIE_PERST (R489) -/
  | pciePerst
  /-- STATE_FRAME_SEND (R418) -/
  | stateFrameSend
  /-- WITNESS_LOST (R424) -/
  | witnessLost
  /-- RECORD_ADMIT (R434) -/
  | recordAdmit
  /-- ANS_FLUSH_TIMER (R436) -/
  | ansFlushTimer
  deriving DecidableEq, Repr

end Sys2Proof
end

