-- ==== Sys2Proof/Decode.lean ====
section
/-! DEFINITION. Reading a command from a word. The commands of this block reach it as accesses and events, and
no row of the opcode table has bits, so no word spells one. The words of the instructions that the engines fetch
from their program memories are in Machine/Code.lean and are read in Machine/Kfetch.lean. -/

namespace Sys2Proof

/-- The command that the word `w` of `nbits` bits spells by the table: none. -/
def decodeTableWord (_nbits _w : Nat) : Option Instr := none

end Sys2Proof
end

