-- ==== Sys2Proof/Config.lean ====
section
/-! DEFINITION. The free values: what the spec leaves open where the module goes on. Each is an
opaque constant with no body, applied to a counter of the state or to the operands it depends on, so
nothing can be proved about its value. Log entry 2 names every use. -/

namespace Sys2Proof.Config

/-- An open natural number, applied to the counter `State.free`. -/
opaque freeNat : Nat → Nat

/-- An open 32-bit word, applied to the counter `State.free`. -/
opaque freeWord : Nat → BitVec 32

/-- An open yes or no, applied to the counter `State.free`. -/
opaque freeBool : Nat → Bool

/-- An ECC error (R26): its place (0 a memory, 1 a word of a coefficient bank of the Loop Engine, 2 the state of a
slot, 3 the recorder's buffer, 4 Clove's matching store, 5 a thread control block), its address there, and whether
both bits of it stand, so that it cannot be corrected. A memory byte has
its address in the model's one address list, word `w` of bank `b` of slot `k` has 64 (2 k + b) + w, a record its
index, a stored token its place in the store, a control block its thread. -/
structure EccErr where
  place : Nat
  addr : Nat
  double : Bool
  deriving DecidableEq, Repr

/-- The ECC errors that arise in a tick: nothing says when one does. -/
opaque eccErrors : Nat → List EccErr

/-- How Nutmeg orders a sum (R196): a number for each term of a sum of a piece of work, which the manual does
not fix. -/
opaque sumKey : Nat → Nat → Nat → Nat

/-- The private keys of the Dunyar root (0), of its manufacturing key (1) and of the device (2), before they are
brought into the range of the curve (R441, R444): the die holds the public key of the first, the OTP a certificate of
the second and the third itself. -/
opaque privateKey : Nat → Nat

/-- RIGHTS, NOT_BEFORE and NOT_AFTER of the manufacturing certificate (1) and the device certificate (2) (R442). -/
opaque certTerms : Nat → Nat × Nat × Nat

/-- The owner anchor digest burnt in the OTP before the model starts (R441). -/
opaque anchorDigest : Nat

/-- The random numbers that ECDSA takes for a signature (R442): of the manufacturing and the device certificate (1, 2),
and of the attestation that draws free value `i` (3 + i). -/
opaque signNonce : Nat → Nat

/-- Byte `i` of what the die ROM holds for a place of graph `k` (R469; 0 boot, 1 recovery): the place is
the node table (0) or the node code of an engine (1 + its number). -/
opaque graphRom : Nat → Nat → Nat → BitVec 8

/-- The domain number that SVC firmware configures for time base `b` (R42): any of 0 to 127. -/
opaque ptpDomain : Nat → Nat

/-- How many bits, beyond one frame of the largest size, a stream may run ahead of its class rate (R408). -/
opaque meterBurst : Nat

/-- The register, as a BAR0 offset, that SAFC reaches at an address of its own map: its ports have no address in
the manual (R341). -/
opaque safcPort : Nat → Option Nat

/-- The period, in ns, and one firing of the planning comparator of the cell's manager, as a worker's time
base counts them (R418); they lie in another module. -/
opaque managerPeriod : Nat
opaque managerT0 : Nat

/-- What the planner image fixes and the manual does not give (R218 to R224): the number of horizon steps N_H, the
separation rows reserved for each step, the word of the parameter block that takes a quantity of the planner
(0 the initial state of joint `a`, its position, velocity or acceleration `b`; 1 the lower bound of row `b` of step
`a`; 2 its coefficient of joint `c`; 3 the coefficient and 4 the quadratic cost of its slack; 5 quantity `b` of the
dynamics at step `a`; 6 the deviation of joint `a` between measurement and plan, its position or velocity `b`; 7 the
velocity bound of joint `a` at step N_H), the quadratic cost of a slack, how many quantities the dynamics of a step
have and what they are for the positions, velocities and accelerations of the mapped joints, the variable that holds
the position, velocity or acceleration `k` of joint `j` at horizon step `i`, and from where variable or row `i` takes
its value when an iterate is shifted by one step. -/
opaque planHorizon : Nat
opaque planSepRows : Nat
opaque planSlackCost : Rat
opaque planDynWords : Nat
opaque planDyn : List (Rat × Rat × Rat) → Nat → Rat
opaque planWord : (kind a b c : Nat) → Nat
opaque planVar : (j i k : Nat) → Nat
opaque planShiftVar : Nat → Nat
opaque planShiftRow : Nat → Nat

/-- The planning model (R215, R222): deceleration and jerk of a joint in counts/s² and counts/s³, and for the arms
of another module `m` the parameter set that its Saffron has in force, in the layout of R235. -/
opaque planDecel : Nat → Rat
opaque planJerk : Nat → Rat
opaque planSet : Nat → Nat

/-- The state of joint `j` in a plan `n` that the planner no longer keeps (R218): position, velocity,
acceleration `k`. -/
opaque planLost : (n j k : Nat) → Rat

end Sys2Proof.Config
end

