-- ==== Sys2Proof/Machine/State.lean ====
section
/-! DEFINITION. The state of the block as plain data, the reasons a command can stop, and the state
after reset. Every register lives in the register file `regs` under its BAR0 offset; what the spec
gives the machine beside its registers stands in the structures below. -/

namespace Sys2Proof.Machine

/-- A finite map with a default: the listed cells, keys strictly rising, none equal to the default. -/
structure FMap (α : Type) where
  cells : List (Nat × α)
  deriving DecidableEq, Repr

/-- A byte memory (R26): what is not listed reads as the default of its region. -/
abbrev Memory := FMap Byte

/-- A field of a register: the register's BAR0 offset, the lowest bit and the width. -/
structure Field where
  off : Nat
  lo : Nat
  w : Nat
  deriving DecidableEq, Repr

/-- One row of a register table: the offset in its unit, how many registers stand in a row and their
distance, the masks of its RW, W1C, W1S and WO bits (R4) and its reset value. -/
structure RegRow where
  off : Nat
  cnt : Nat
  stride : Nat
  rw : Nat
  w1c : Nat
  w1s : Nat
  wo : Nat
  reset : Nat
  deriving DecidableEq, Repr

/-- A register block of R24: its base, the distance of its units, its length and its rows. -/
structure RegBlock where
  base : Nat
  stride : Nat
  span : Nat
  rows : List RegRow
  deriving DecidableEq, Repr

/-- Why the block stops with a fault. There is no reason: the spec gives the module an effect for
every command it takes (an error response, a refused write, an exception of an engine), so no
command faults. -/
inductive Fault
  deriving DecidableEq, Repr

/-- Why the block refuses a command. -/
inductive Refusal
  /-- The command has no meaning in the model. Raised by no arm once every row has its meaning;
  safe, because nothing is claimed of the command. -/
  | notModelled (mnemonic : String)
  deriving DecidableEq, Repr

/-- How the last register access ended (R3, R24). -/
inductive Resp
  | idle
  | data (v : Word)
  | done
  | error
  deriving DecidableEq, Repr

/-- A token on its way to Clove (R318): tag, value and the rank of its source (R321). -/
structure Token where
  tag : BitVec 16
  val : Word
  rank : Nat
  deriving DecidableEq, Repr

/-- An event record (R431): bytes 0 to 31, the payload as one number (byte 16 lowest), and the module number of
SOURCE. -/
structure Rec where
  time : Wide
  code : BitVec 16
  unit : Nat
  sev : Nat
  sup : Nat
  payload : BitVec 128
  mod : Nat
  deriving DecidableEq, Repr

/-- What falls due at a tick: a command of the table, or an inner event that has no row of its own. -/
inductive Ev
  /-- A command of the table that the module itself raises. -/
  | cmd (c : Instr)
  /-- The commanded level of leg `k` of port `p` changes at the exact time `x` (R58). -/
  | legEdge (p k : Nat) (high : Bool) (x : Nat)
  /-- Engine `e` has its incoming context and starts to run it (R323, R335). -/
  | engineGo (e : Nat)
  /-- The graph has ended and no node runs any more (R334). -/
  | graphDone
  /-- STAT.FAULT of field bank `b` is set again while its cause stands (R293). -/
  | fioFault (b : Nat)
  /-- Saffron reports an STO to PWS (R255). -/
  | safReport
  /-- The running IMG command completes (R449). -/
  | imgDone
  /-- PWS resets the module, with the flush before it complete (R454, R467). -/
  | resetModule
  /-- Slot `k` writes its read hooks: HKOUT0 to HKOUT4, or with `late` HKOUT5 to HKOUT7 (R127, R140). -/
  | lpeOut (k : Nat) (late : Bool)
  /-- The port frame of port `p` starts (R68). -/
  | portFrame (p : Nat) (x : Nat)
  /-- No completion token has arrived by t0 + P − LATE_MARGIN − TPOST (R221). -/
  | planCut
  /-- The first frame of receive queue `k` is taken from it (R406). -/
  | rxTake (k : Nat)
  /-- The pulse of test output `k` ends (R249). -/
  | tpEnd (k : Nat)
  /-- Every T_SWT Saffron tests the switches of the released pairs (R254). -/
  | switchTests
  /-- The switch of pair `g` that a test has opened closes again: HS, or LS (R254). -/
  | switchClose (g : Nat) (hs : Bool)
  deriving DecidableEq, Repr

/-- An event and the tick at which it falls due. -/
structure Due where
  t : Nat
  ev : Ev
  deriving DecidableEq, Repr

/-- What a time base holds beside its registers (R31, R37, R41): the fraction of a nanosecond, the value at
the previous tick and its fraction in 2^-32 ns as a comparator sees them, WC there, NS and WC a tick earlier still; the
tick of the entry to HOLDOVER; the tick at which a step takes effect (R47); an estimate of the offset exists, and the
protocol domain (R42, R44); NS at the previous tick as it was, a step or none. -/
structure TimeBase where
  frac : Nat
  prevNs : Word
  prevFrac : Nat
  prevWc : Nat
  prev2Ns : Word
  prev2Wc : Nat
  heldAt : Nat
  stepAt : Option Nat
  est : Bool
  domain : Nat
  oldNs : Word
  deriving DecidableEq, Repr

def TimeBase.reset : TimeBase := ⟨0, 0#32, 0, 0, 0#32, 0, 0, none, false, 0, 0#32⟩

/-- The TBU outside its registers: the pulse output and the exact time of its last rise, the 10 MHz source in
force, the exact time of the last 10 MHz edge on J12, Saffron's oscillator behind the mirror of TB_SAFE (R45,
R46, R504), the ingress stamp of the last protocol message (R43), the event time of each comparator's last
firing (R37); whether the 10 MHz source has just changed and the first edge of the new one is still to come (R46);
priority1 and GM_CAPABLE of the boot configuration record (R42, R415). Exact times and stamps are in 125 ps. -/
structure Tbu where
  pps : Bool
  ppsX : Nat
  tenSrc : Nat
  tenX : Nat
  safNs : Nat
  safPend : Option Nat
  ptpNs : Nat
  event : FMap Word
  tenNew : Bool
  prio1 : Nat
  gmCap : Bool
  deriving DecidableEq, Repr

/-- The commanded level of a leg: none on, high side, low side (R59, R72). -/
inductive Lvl
  | off
  | high
  | low
  deriving DecidableEq, Repr

/-- A leg of a drive port behind the forcing (R59, R66, R72): the commanded level, what is on, a
pending turn-on and its exact time in 125 ps units, the carry, the requested on-time last loaded,
the time of the last transition and a delayed transition. `hOff` and `lOff` are the times at which
each pad last turned off. -/
structure Leg where
  lvl : Lvl
  hOn : Bool
  lOn : Bool
  pend : Option Nat
  carry : Int
  req : Nat
  trAt : Nat
  delayed : Option Lvl
  hOff : Nat
  lOff : Nat
  deriving DecidableEq, Repr

def Leg.reset : Leg := ⟨.off, false, false, none, 0, 0, 0, none, 0, 0⟩

/-- What a period start found before it loaded a set, for a MODE = OFF that takes effect in the same tick
(R65): the tick, the words of CTRL, STAT, PERACT and ACTA to ACTD, the requests and the mark. -/
structure DpwUndo where
  tick : Nat
  ctrl : Word
  stat : Word
  peract : Word
  act : List Word
  req : List Nat
  marked : Bool
  markAt : Nat
  perReq : Nat
  deriving DecidableEq, Repr

/-- A drive port outside its registers: whether a set is marked and the tick in which it was (R64), the period start, whether a
stand-alone period has ended early (R57), the levels kept after the last latch cleared (R73), the
frames since MODE left OFF (R54), the period last loaded (R61), and what the last period start replaced (R65). -/
structure DpwPort where
  marked : Bool
  markAt : Nat
  start : Nat
  ended : Bool
  held : BitVec 16
  frames : Nat
  perReq : Nat
  undo : Option DpwUndo
  deriving DecidableEq, Repr

def DpwPort.reset : DpwPort := ⟨false, 0, 0, false, 0#16, 0, 2000000, none⟩

/-- A filtered trip input (R81): asserted now, and the tick at which it was last released. -/
structure TripIn where
  on : Bool
  relAt : Option Nat
  deriving DecidableEq, Repr

def TripIn.reset : TripIn := ⟨false, none⟩

/-- What a calibration or threshold register of CAQ held before a write (R97): the tick of the write, the
register, the old word. -/
structure CaqOld where
  tick : Nat
  off : Nat
  old : Word
  deriving DecidableEq, Repr

/-- A ΔΣ channel (R90 to R98): the last bits, newest first, how many entered since the restart, the
length of the run of equal bits, the latest data value and whether it saturated, the comparator
outputs, whether the stream is stuck; in channel DSA of a port the tick of the port's last strobe; the last sample,
kept over a restart that leaves the sampling alone, and the rise of DSCK it belongs to; and, in channel DSA, STAT.SAT
as the first strobe of that tick found it. -/
structure CaqCh where
  bits : List Bool
  n : Nat
  run : Nat
  val : Int
  sat : Bool
  hi : Bool
  lo : Bool
  stuck : Bool
  strobed : Option Nat
  last : Option Bool
  rise : Nat
  satBefore : Bool
  deriving DecidableEq, Repr

def CaqCh.reset : CaqCh := ⟨[], 0, 0, 0, false, false, false, false, none, none, 0, false⟩

/-- The position commands of a tick, in order: LOAD with SETPOS, or ABSORB; and POS, OVR and STAT as the first one
found them (R107). -/
structure PosCmds where
  tick : Nat
  pos : Word
  ovr : Word
  stat : Word
  cmds : List (Option Word)
  deriving DecidableEq, Repr

/-- A feedback unit outside its registers: the filtered pin levels, the remembered direction and the
last commanded sign (R104), counted edges since restart, standstill or reversal and the edge time
and interval of R108 (times in 125 ps units, the interval times 12), the reference memory of R110,
the serial readings of R119 to R121: the tick of the last bit, the reading before, valid readings in a row, the
time stamp of the transfer and its place in its tick, the tick of the strobe that started it, the tick at which the encoder's
acknowledge fell and that of the start bit, whether standstill asks for two steps; what a
strobe set took before the latest transfer ended; the tick of the last strobe; the tick at which each filtered pin last
changed (R102); the position commands of the tick; and whether FZ was high at the start of the transfer. -/
structure PfbUnit where
  fa : Bool
  fb : Bool
  fz : Bool
  dir : Option Bool
  cmdNeg : Bool
  n : Nat
  tEdge : Nat
  per12 : Nat
  counted : Bool
  zPrev : Bool
  lastBit : Option Nat
  rPrev : Option Nat
  good : Nat
  xferTs : Nat
  xferFrac : Nat
  xferAt : Nat
  ackAt : Option Nat
  startAt : Option Nat
  stood : Bool
  before : List Word
  strobed : Option Nat
  faAt : Option Nat
  fbAt : Option Nat
  fzAt : Option Nat
  posCmds : Option PosCmds
  fzStart : Bool
  deriving DecidableEq, Repr

def PfbUnit.reset : PfbUnit :=
  { fa := false, fb := false, fz := false, dir := none, cmdNeg := false, n := 0, tEdge := 0, per12 := 0,
    counted := false, zPrev := false, lastBit := none, rPrev := none, good := 0, xferTs := 0, xferFrac := 0,
    xferAt := 0, ackAt := none, startAt := none, stood := false, before := [], strobed := none,
    faAt := none, fbAt := none, fzAt := none, posCmds := none, fzStart := false }

/-- A PI stage of a slot (R130, R139): the integrator in Q30, the limit sign and final output of its
last run, the error of that run, and whether it has run since the slot started running. -/
structure PiState where
  i : Int
  lim : Int
  uLast : Int
  eLast : Int
  ran : Bool
  deriving DecidableEq, Repr

/-- The states of a biquad (R132): x1, x2 in Q15, y1, y2 in Q30. -/
structure Biquad where
  x1 : Int
  x2 : Int
  y1 : Int
  y2 : Int
  deriving DecidableEq, Repr

/-- What an injection hook gives to this frame (R141). -/
inductive HookRes
  | off
  | val (v : Word)
  | zero
  | bypass
  deriving DecidableEq, Repr

/-- The inputs a slot takes in its start tick (R128): currents, DC link, validity, position in
2^-16 count, speed, set-points, the configuration words that hold for the frame, the topology FOC3 (R126), and
the words of HKOUT0 to HKOUT4 (R140). -/
structure SlotIn where
  ia : Int
  ib : Int
  ic : Int
  u : Nat
  vu : Bool
  pos : Int
  speed : Int
  posSp : Int
  velSp : Int
  accSp : Int
  cfg : Word
  ref : Word
  emul : Word
  eofs : Word
  hook : Word
  foc : Bool
  outs : List Word
  deriving DecidableEq, Repr

def SlotIn.reset : SlotIn := ⟨0, 0, 0, 0, false, 0, 0, 0, 0, 0, 0#32, 0#32, 0#32, 0#32, 0#32, false, []⟩

/-- A Loop Engine slot outside its registers (R125 to R145). `res` is what the stages gave in this frame, u_d, u_q
and θ (R140), `cfgRec` that the mismatch of this run has its record (R126). -/
structure LpeSlot where
  running : Bool
  mism : Bool
  fc : Nat
  posDue : Bool
  velDue : Bool
  inp : SlotIn
  d : PiState
  q : PiState
  v : PiState
  bq1 : Biquad
  bq2 : Biquad
  pPrev : Option Int
  vRef : Int
  iq0 : Int
  theta : Nat
  h1 : HookRes
  h2 : HookRes
  h3 : HookRes
  last1 : Option Word
  last2 : Option Word
  last3 : Option Word
  com1 : Word
  com2 : Word
  com3 : Word
  ep : Int
  ecc : Bool
  badWords : List Nat
  issued : Bool
  ended : Bool
  res : Option (Int × Int × Nat)
  cfgRec : Bool
  deriving DecidableEq, Repr

def PiState.reset : PiState := ⟨0, 0, 0, 0, false⟩
def Biquad.reset : Biquad := ⟨0, 0, 0, 0⟩
def LpeSlot.reset : LpeSlot :=
  ⟨false, false, 0, false, false, SlotIn.reset, PiState.reset, PiState.reset, PiState.reset,
    Biquad.reset, Biquad.reset, none, 0, 0, 0, .off, .off, .off, none, none, none, 0#32, 0#32, 0#32,
    0, false, [], false, false, none, false⟩

/-- The Loop Engine as a whole (R144): a frame has started since reset; slots are held with cause
FRAME. -/
structure Lpe where
  started : Bool
  frameBad : Bool
  deriving DecidableEq, Repr

/-- A segment of constant jerk: its length in seconds, its jerk in counts/s³, and an acceleration step
at its start where it has one (R153, R155). -/
structure Seg where
  dur : Rat
  j : Rat
  step : Option Rat
  deriving DecidableEq, Repr

/-- A queued knot (R156): T, position, velocity and acceleration in counts and seconds, and the tick
of its push (R151). -/
structure Knot where
  t : Nat
  at_ : Nat
  p : Rat
  v : Rat
  a : Rat
  deriving DecidableEq, Repr

/-- A RETARGET commit (R151, R152): its tick, the target in 2^-16 count and the move registers. -/
structure Move where
  at_ : Nat
  tgt : Int
  v : Nat
  a : Nat
  d : Nat
  deriving DecidableEq, Repr

/-- An armed ratio change (R166): the sign of m − MCHG at arming (0 while unknown), whether an update
has passed since, the crossing sign once triggered, S_c in counts, MCHG in 2^-16 count, LRAMP in
counts, and the new ratio. -/
structure GearArm where
  sign0 : Int
  fresh : Bool
  sigma : Option Int
  sc : Rat
  mchg : Int
  lramp : Nat
  gn : Int
  gd : Nat
  deriving DecidableEq, Repr

/-- A chopper state (R168): `idle` before the first reference, `off` after a stall with STALL_ACT = OFF until
VEL_SP is 0, then `parked` until it is not (R171), `rest` in the standstill modes OFF and SHORT (R169). -/
inductive ChopState
  | idle
  | off
  | parked
  | zero
  | on
  | fast
  | slow
  | rest
  deriving DecidableEq, Repr

/-- One bridge of a stepper port (R167, R168): the chopper state, its entry tick, the reference. -/
structure Chop where
  st : ChopState
  since : Nat
  ref : Int
  deriving DecidableEq, Repr

/-- The spline stream as it stood before the pushes of one tick (R151). -/
structure Stream where
  queue : List Knot
  knot0 : Option Knot
  tau : Rat
  rate : Rat
  plan : List Seg
  deriving DecidableEq, Repr

/-- What a push that was judged changes in the stream: its T, its REPLACE, and the knot where one is queued
(R157). -/
structure Push where
  t : Nat
  replace : Bool
  knot : Option Knot
  deriving DecidableEq, Repr

/-- What an evaluation left of the things that other subsystems may change before the next one (R14): the eight
limits it used, the stream and the armed ratio change. -/
structure PgPrior where
  lims : List Nat
  stream : Stream
  arm : Option GearArm
  deriving DecidableEq, Repr

/-- The motion that the latest evaluation followed, for the period starts before its time (R167): none, a plan
from a state with the seconds it was in, or knots with the stream time and its rate. -/
inductive Track
  | rest
  | plan (p v a at_ : Rat) (l : List Seg)
  | knots (tau rate : Rat) (l : List Knot)
  deriving DecidableEq, Repr

/-- A profile generator outside its registers (R147 to R173). `p`, `v`, `a` and `u` are the state of
its latest evaluation and its time; `outP`, `outV` and `outA` wait for the next TCMP0 firing; `src` is
the source in effect; `plan` runs from `k0p`, `k0v`, `k0a` and stands `planAt` seconds in. `limOld`
holds the limits as they stood before the writes of one tick (R151), `lims` those last planned with.
`doorStop` asks for a stop by the door
controller (`true`: the door stop of R285), `doorNext` for a move by a distance from rest, within two
positions, at a speed. `queue`, `knot0`, `tau` and `rate` are the spline stream, `pushed` what it was before the
pushes of a tick with those pushes (R151), `gofs`, `arm`, `lastM` and `glag` the gearing, `safAt` the tick in which
Saffron acted on the generator last, until an evaluation has seen it, `prior` what the latest evaluation left
(R14), `back` the motion that the latest evaluation followed (R167). -/
structure PgUnit where
  p : Rat
  v : Rat
  a : Rat
  u : Option Nat
  outP : Int
  outV : Int
  outA : Int
  src : Nat
  plan : List Seg
  planAt : Rat
  k0p : Rat
  k0v : Rat
  k0a : Rat
  target : Option Int
  move : Move
  lims : List Nat
  limOld : Option (Nat × List Nat)
  pend : List Move
  queue : List Knot
  knot0 : Option Knot
  tau : Rat
  rate : Rat
  gofs : Int
  arm : Option GearArm
  lastM : Rat
  glag : Rat
  ss1 : Option (Rat × Rat)
  stopping : Bool
  doorStop : Option Bool
  doorNext : Option (Int × Int × Int × Nat)
  stallRun : Nat
  bins : List (Nat × Nat)
  chopA : Chop
  chopB : Chop
  pushed : Option (Nat × Stream × List Push)
  safAt : Option Nat
  prior : Option PgPrior
  back : Track
  deriving DecidableEq, Repr

def Chop.reset : Chop := ⟨.idle, 0, 0⟩

def PgUnit.reset : PgUnit :=
  { p := 0, v := 0, a := 0, u := none, outP := 0, outV := 0, outA := 0, src := 0, plan := [],
    planAt := 0, k0p := 0, k0v := 0, k0a := 0, target := none, move := ⟨0, 0, 0, 0, 0⟩, lims := [],
    limOld := none, pend := [], queue := [], knot0 := none, tau := 0, rate := 1, gofs := 0,
    arm := none, lastM := 0, glag := 0, ss1 := none, stopping := false, doorStop := none, doorNext := none, stallRun := 0, bins := [],
    chopA := Chop.reset, chopB := Chop.reset, pushed := none, safAt := none, prior := none, back := .rest }


/-- A stored sample row of the Capture Engine: its time and its words (R302). -/
structure CapRow where
  ns : Word
  wc : Byte
  vals : List Word
  deriving DecidableEq, Repr

/-- An accepted trigger: its source (R304) and its time. -/
structure CapTrig where
  src : Nat
  ns : Word
  frac : Nat
  wc : Nat
  deriving DecidableEq, Repr

/-- A capture record that is complete and waits for its commit (R308, R310). -/
structure CapDone where
  seq : Nat
  trig : CapTrig
  dec : Nat
  mask : Nat
  flags : Nat
  npre : Nat
  rows : List CapRow
  ofs : Nat
  step : Nat
  missed : Nat
  due : Nat
  deriving DecidableEq, Repr

/-- The Capture Engine outside its registers (R301 to R312): the number of the next record, the frames
since arming, the rows of the record in progress (newest first), the accepted trigger with NPRE and
TRIG_OFS, the previous base sample of the trigger probe, triggers missed and a wait for room since the
previous record, the ticks of the last row, trigger and STOP, what is left of the hold-off (a tick, or
triggers), whether a record is in progress, the records that wait for their commit; the ticks of the last accepted
trigger, of the record it completed, of the last base sample that was not stored, and of the end of a hold-off. -/
structure Cap where
  seq : Nat
  frames : Nat
  rows : List CapRow
  trig : Option CapTrig
  npre : Nat
  ofs : Nat
  short : Bool
  prev : Option Int
  missed : Nat
  noRoom : Bool
  rowAt : Option Nat
  trigAt : Option Nat
  stopAt : Option Nat
  hold : Nat
  live : Bool
  dones : List CapDone
  accAt : Option Nat
  madeAt : Option Nat
  baseAt : Option Nat
  rearmAt : Option Nat
  deriving DecidableEq, Repr

def Cap.reset : Cap :=
  ⟨0, 0, [], none, 0, 0, false, none, 0, false, none, none, none, 0, false, [], none, none, none, none⟩

/-- A door cycle in progress (R289): TB_CELL NS and tick of its start, obstacles, peak f − c_k. -/
structure DoorCycle where
  ns : Word
  at_ : Nat
  obst : Nat
  peak : Option Int
  deriving DecidableEq, Repr

/-- A door outside its registers (R278 to R289): the command in progress with its SEQ, runs above the threshold, the EDGE bit and FORCED of the last run,
a stop that ends in STOPPED, an F_ABS yield, a granted unlock, the unlock asked for again in LOCKING,
the cycle, and learning: the samples of the pass in progress and of the complete passes per bin
(count and sum; 32 opening bins, then 32 closing bins) and which passes are complete. -/
structure Door where
  cmd : Option (Nat × Nat)
  run : Nat
  edge : Bool
  forced : Bool
  stopping : Bool
  yield : Bool
  granted : Bool
  regrant : Bool
  cyc : Option DoorCycle
  pass : List (Nat × Nat)
  bins : List (Nat × Nat)
  didO : Bool
  didC : Bool
  deriving DecidableEq, Repr

def Door.reset : Door :=
  ⟨none, 0, false, false, false, false, false, false, none, [], [], false, false⟩

/-- The field channels outside their registers (R290 to R296): per channel the level of the last
samples and how many were equal, the accepted levels, the channels switched off by a fault and not yet
rearmed, and the channels that start off since they entered OUTPUT; and what their timers on TB_LOCAL count from
(R12, log entry 128): the tick of the last sample, per channel the tick since which a fault of it may last, per bank
the tick of the last change of SAG. -/
structure Fio where
  cand : Word
  cnt : FMap Nat
  level : Word
  tripped : Word
  fresh : Word
  sampleAt : Option Nat
  since : FMap Nat
  vfAt : FMap Nat
  deriving DecidableEq, Repr

def Fio.reset : Fio := ⟨0#32, ⟨[]⟩, 0#32, 0#32, 0#32, none, ⟨[]⟩, ⟨[]⟩⟩

/-- A completion on its way to its ring (R397, R402): VALUE, whether it is the final one, and the module
that completed the command where it is another one. -/
structure Cqe where
  via : Via
  res : Nat
  val : Wide
  final : Bool
  rem : Option Nat
  deriving DecidableEq, Repr

/-- A Nutmeg command (R180, R181): its descriptor's offset, the descriptor as it stood at submission
(one number, byte 0 lowest), and where its completions go. -/
structure NmgCmd where
  ofs : Nat
  desc : Nat
  via : Via
  deriving DecidableEq, Repr

/-- A slot outside its registers (R178, R194, R195): the structure block, the value buffer of the latest
assembly (none: no solve since the build) and of the build, ρ, the scalings as powers of 2 of the
variables, the rows and the cost, and ρ_i of every row. -/
structure NmgSlot where
  blk : Nat
  last : Option Nat
  src : Nat
  rho : Nat
  dx : List Int
  er : List Int
  cx : Int
  rhos : List Nat
  deriving DecidableEq, Repr

def NmgSlot.reset : NmgSlot := ⟨0, none, 0, 0, [], [], 0, []⟩

/-- A build (R179, R187, R204): its slot, whether it is a load, a commanded or an automatic
refactorisation (0, 1, 2), the commands that wait for it, ρ, block and pinned buffer. -/
structure NmgBuild where
  slot : Nat
  kind : Nat
  cmds : List NmgCmd
  rho : Nat
  blk : Nat
  buf : Nat
  deriving DecidableEq, Repr

/-- What a check gives (R197): r_p, r_d, N_p, N_d. -/
structure NmgCheck where
  rp : Rat
  rd : Rat
  np : Rat
  nd : Rat
  deriving DecidableEq, Repr

/-- A running solve (R195 to R201): vectors as binary32 words on scaled data, the iterates of the last
check, the report so far. -/
structure NmgSolve where
  cmd : NmgCmd
  slot : Nat
  buf : Nat
  at_ : Nat
  ns : Word
  wc : Nat
  asm : Nat
  iter : Nat
  maxIter : Nat
  cap : Nat
  x : List Nat
  z : List Nat
  y : List Nat
  w : List Nat
  xc : List Nat
  yc : List Nat
  warm : Nat
  vm : Nat
  rm : Nat
  swapped : Bool
  clipped : Bool
  stale : Bool
  abort : Bool
  nfWhere : Nat
  nfIdx : Nat
  feas : Bool
  chk : Option NmgCheck
  viol : List Nat
  cross : Bool
  deriving DecidableEq, Repr

/-- The stored iterate (R201), unscaled, with its tags. -/
structure NmgIter where
  stag : Nat
  vtag : List Nat
  rtag : List Nat
  x : List Nat
  z : List Nat
  y : List Nat
  deriving DecidableEq, Repr

/-- Nutmeg outside its registers (R176 to R208): the queue, ABORTs on arrival, the running solve, the
build, the slots, the stored iterate, whether the previous solve was invalid, completed solves since the
last refactorisation started (none: none has), a requested ρ, commanded refactorisations that wait
for their count, and the slot with an uncorrectable error whose rebuilding waits for the running build (R207). -/
structure Nmg where
  queue : List NmgCmd
  aborts : List NmgCmd
  run : Option NmgSolve
  build : Option NmgBuild
  s0 : NmgSlot
  s1 : NmgSlot
  warm : Option NmgIter
  invalid : Bool
  since : Option Nat
  wantRho : Option Nat
  pend : List NmgCmd
  started : Bool
  eccPend : Option Nat
  deriving DecidableEq, Repr

def Nmg.reset : Nmg :=
  ⟨[], [], none, none, NmgSlot.reset, NmgSlot.reset, none, false, none, none, [], false, none⟩

/-- A joint in a snapshot (R216): cell joint, position in 2^-16 count, speed in 1/16 count/s. -/
structure SnapJoint where
  j : Nat
  pos : Int
  vel : Int
  deriving DecidableEq, Repr

/-- A line of a PLN's data cache (R337, R352): its address (a multiple of 64 in the LPDDR5X), whether
it is dirty, its 64 bytes as one number, and which of them came with an error that ECC cannot correct (R26). -/
structure CacheLine where
  addr : Nat
  dirty : Bool
  data : Nat
  bad : List Nat
  deriving DecidableEq, Repr

/-- The hardware-loop registers (R370). -/
structure Loops where
  lc0 : Word
  lc1 : Word
  ls0 : Word
  le0 : Word
  ls1 : Word
  le1 : Word
  deriving DecidableEq, Repr

def Loops.reset : Loops := ⟨0#32, 0#32, 0#32, 0#32, 0#32, 0#32⟩

/-- An engine (R338 to R341, R370, R385): its registers, the tick at which CYCLE was 0 and the latched
CYCLEH; on an SDSP, values that the next instruction still reads in place of the present ones (R379:
general registers after a load, pt0 to pt7 and st0 to st7 as 0 to 15, loop registers) with those the
instruction in progress leaves behind, and the delay slots that remain with the address that follows
them (R378); the data cache; instructions executed by the node in graph mode (R333); a halt that waits
for a boundary (R317, R326), a REQUEUE that waits for ERET or RETI (R365, R383); whether SAFC
runs; and whether an instruction is in progress. -/
structure Eng where
  g : FMap Word
  e : FMap Wide
  ac : FMap Wide
  pt : FMap Word
  st : FMap Word
  p : BitVec 4
  pc : Word
  status : Word
  epc : Word
  estatus : Word
  ecause : Word
  eval : Word
  evec : Word
  ipc : Word
  istatus : Word
  icause : Word
  ivec : Word
  lp : Loops
  cyc0 : Nat
  cycH : Word
  staleG : List (Nat × Word)
  nextG : List (Nat × Word)
  staleP : List (Nat × Word)
  nextP : List (Nat × Word)
  staleL : Option Loops
  nextL : Option Loops
  slot : Option (Nat × Word)
  cache : List CacheLine
  node : Nat
  halt : Bool
  requeue : Bool
  run : Bool
  busy : Bool
  deriving DecidableEq, Repr

def Eng.reset : Eng :=
  { g := ⟨[]⟩, e := ⟨[]⟩, ac := ⟨[]⟩, pt := ⟨[]⟩, st := ⟨[]⟩, p := 0#4, pc := 0#32, status := 0#32,
    epc := 0#32, estatus := 0#32, ecause := 0#32, eval := 0#32, evec := 0#32, ipc := 0#32,
    istatus := 0#32, icause := 0#32, ivec := 0#32, lp := Loops.reset, cyc0 := 0, cycH := 0#32,
    staleG := [], nextG := [], staleP := [], nextP := [], staleL := none, nextL := none, slot := none,
    cache := [], node := 0, halt := false, requeue := false, run := false, busy := false }

/-- Clove outside its registers (R314 to R335): the matching store and the overflow queues, oldest first
(a parked token's queue is its tag modulo 8), the input FIFO, waiting threads in the order of their
TWAIT, READY threads in the order in which they became so, the values of wait positions (thread × 4 +
position), threads whose values are still to be delivered, engine cycles used in the present activation,
per engine the thread whose context it holds, the thread that comes in next and whether its context is
in the slot, the tick at which the running thread last started to run, nodes that have fired with ONCE,
the result with which the graph ends, and per engine the thread whose context is fetched ahead into the slot (R323). -/
structure Clv where
  store : List Token
  park : List Token
  fifo : List Token
  waiters : List Nat
  ready : List Nat
  vals : FMap Word
  deliver : List Nat
  used : FMap Nat
  resident : FMap (Option Nat)
  incoming : FMap (Option Nat)
  fetched : FMap Bool
  runAt : FMap Nat
  once : List Nat
  gend : Option Nat
  fetching : FMap (Option Nat)
  deriving DecidableEq, Repr

def Clv.reset : Clv :=
  ⟨[], [], [], [], [], ⟨[]⟩, [], ⟨[]⟩, ⟨[]⟩, ⟨[]⟩, ⟨[]⟩, ⟨[]⟩, [], none, ⟨[]⟩⟩

/-! ## Saffron (R231 to R269) -/

/-- A safe input (R247, R248): the last sample and the level of each channel, the input fault, the
demand, the tick at which a RESET operation began, and whether the time T_DISC of a disagreement runs. -/
structure SiIn where
  sa : Bool
  sb : Bool
  a : Bool
  b : Bool
  flt : Bool
  dem : Bool
  press : Option Nat
  disc : Bool
  deriving DecidableEq, Repr

def SiIn.reset : SiIn := ⟨false, false, false, false, false, true, none, false⟩

/-- A feedback unit as Saffron sees it: the values taken at the cycle start (position, speed, a bad reading,
estimate, fresh estimate), the last tag, cycles without a fresh estimate, misses in a row (R243), the speed v0 at
the SS1 command (R256), the position at the entry of a standstill hold (R264), and STAT, NS and FRAC of the edge as
taken through its port (R118). -/
structure SafJoint where
  pos : Int
  spd : Int
  bad : Bool
  est : Int
  tag : Nat
  stale : Nat
  miss : Nat
  v0 : Nat
  hold : Int
  stat : Word
  edge : Word
  frac : Word
  deriving DecidableEq, Repr

def SafJoint.reset : SafJoint := ⟨0, 0, false, 0, 0, 0, 0, 0, 0, 0#32, 0#32, 0#32⟩

/-- An arm (R252, R256, R259, R261, R264): its state as R277 codes it without the SLS (0 released, 2 SS1,
3 hold, 4 STO), the tick t_c of SS1, the limit in force with the tick at which it was applied or lowered
and the speeds of the capsules then, standstill holds for a door and for SAFE, whether the zone of the door hold has
been seen open, a reset acknowledgement
since which the conditions of R252 have held, the SSM source and since when the distance suffices. -/
structure SafArm where
  st : Nat
  ss1 : Option Nat
  lim : Option Rat
  limAt : Nat
  caps : List Rat
  doorHold : Bool
  doorSeen : Bool
  safeHold : Bool
  ack : Bool
  ssm : Bool
  ssmOk : Option Nat
  deriving DecidableEq, Repr

def SafArm.reset : SafArm := ⟨4, none, none, 0, [], false, false, false, false, false, none⟩

/-- A capsule record of a SAFE frame (R266), in mm and mm/s. -/
structure SafCap where
  valid : Bool
  p1 : Int × Int × Int
  p2 : Int × Int × Int
  r : Nat
  vb : Nat
  deriving DecidableEq, Repr

/-- A used SAFE frame (R266, R267) and the tick of its arrival. -/
structure SafFrame where
  kind : Nat
  seq : Word
  ts : Word
  info : List Nat
  caps : List SafCap
  at_ : Nat
  deriving DecidableEq, Repr

/-- A fault of R242: its code, its arm (16: scope ALL; 17: class B), the unit of a class B fault (switch, test output or
joint), whether its cause stands in this cycle, and the cycles since it last did (R244). -/
structure SafFault where
  code : Nat
  arm : Nat
  unit : Nat
  here : Bool
  gone : Nat
  deriving DecidableEq, Repr

/-- Saffron outside its registers: whether it has started; the admitted set as one number (byte 0 lowest,
R235); the reading of S1 at start, differing samples in a row, a seal change, the cover contact (true:
open); inputs, the start of the last pulse of each test output; joints, arms, the latest used frame of
each connection and that taken at the cycle start; the faults, first raised first; SS1 commanded on all
arms and on a mask of arms; what the cycle start took: demands, acknowledged zones, requests, the tick;
acknowledgements since; STO held by the hardware; DLK outputs cut (R494); the stage of a release per
group (R253); acknowledged DOORS groups; the module state at the last output point; failed switches per
group (bit 0 HS, bit 1 LS); the sequence numbers of the frames sent; the end of degraded mode; the public
key that each set written was signed with, kept with it; SS1 that came up after the cycle start, for the next cycle;
the input faults, the live connections, the seal change and the cover that the cycle start took; the test outputs that
are low (R249) and the switches of each pair that are closed (bit 0 HS, bit 1 LS; R231); whether the module has stood
outside RUN and SAFE since the last output point (R234), and Saffron's count at its start (R504). -/
structure Saf where
  started : Bool
  set : Nat
  s1 : Nat
  s1Diff : Nat
  sealBad : Bool
  cover : Bool
  si : FMap SiIn
  tpAt : FMap (Option Nat)
  joint : FMap SafJoint
  arm : FMap SafArm
  conn : FMap (Option SafFrame)
  taken : FMap (Option SafFrame)
  faults : List SafFault
  ss1All : Bool
  ss1Mask : Nat
  dem : Nat
  ackIn : Nat
  ack : Nat
  req : Word
  takenAt : Nat
  takenNs : Word
  hard : Bool
  dlkCut : Nat
  rel : FMap Nat
  grpAck : FMap Bool
  lastMod : Nat
  swBad : FMap Nat
  txSeq : FMap Word
  degEnd : Option Nat
  keys : FMap (List Byte)
  ss1Next : Bool
  maskNext : Nat
  flts : Nat
  alive : Nat
  sealCut : Bool
  lid : Bool
  tpLow : Nat
  sw : FMap Nat
  left : Bool
  startNs : Nat
  deriving DecidableEq, Repr

def Saf.reset : Saf :=
  { started := false, set := 0, s1 := 0, s1Diff := 0, sealBad := false, cover := false, si := ⟨[]⟩, tpAt := ⟨[]⟩,
    joint := ⟨[]⟩, arm := ⟨[]⟩, conn := ⟨[]⟩, taken := ⟨[]⟩, faults := [], ss1All := false, ss1Mask := 0,
    dem := 0xFFFF, ackIn := 0, ack := 0, req := 0#32, takenAt := 0, takenNs := 0#32, hard := false, dlkCut := 0,
    rel := ⟨[]⟩, grpAck := ⟨[]⟩, lastMod := 2, swBad := ⟨[]⟩, txSeq := ⟨[]⟩, degEnd := none, keys := ⟨[]⟩,
    ss1Next := false, maskNext := 0, flts := 0, alive := 0, sealCut := false, lid := false, tpLow := 0, sw := ⟨[]⟩,
    left := false, startNs := 0 }

/-! ## Planning cycle (R213 to R228) -/

/-- A joint in a STATE frame (R418). -/
structure StJoint where
  port : Nat
  valid : Bool
  spv : Bool
  pos : Int
  spd : Int
  deriving DecidableEq, Repr

/-- The STATE frame set of a worker: T0, APPLIED, the joints, and whether every fragment is in. -/
structure StFrame where
  t0 : Word
  applied : Word
  nfrag : Nat
  got : List Nat
  joints : List StJoint
  deriving DecidableEq, Repr

/-- A plan that is kept for R218, with the status of its solution (R221). -/
structure PlanRec where
  num : Word
  joints : List JointBlock
  status : Nat
  deriving DecidableEq, Repr

/-- A human capsule of the snapshot (R217): the ends of its axis in mm and its radius, enlarged by age. -/
structure PlanHuman where
  p1 : Int × Int × Int
  p2 : Int × Int × Int
  r : Rat
  deriving DecidableEq, Repr

/-- An assigned separation row (R219): its horizon step and place, the distance d̄ of its pair, S_goal, its gradient by
cell joint, and the lower bound S_goal − d̄ + ∇d · q̄. -/
structure SepRow where
  step : Nat
  row : Nat
  dist : Rat
  goal : Rat
  grad : List (Nat × Rat)
  low : Rat
  deriving DecidableEq, Repr

/-- A part of the output of a plan (R215, R223): the pushes of a local arm, a CYCLE frame. -/
inductive PlanPart
  | arm (a : Nat)
  | frame (w i : Nat)
  deriving DecidableEq, Repr

/-- The fragments of a plan that a worker collects (R226); NFRAG 0 marks a plan that has been applied or
discarded. -/
structure PlanFrags where
  plan : Word
  base : Word
  t0 : Word
  nfrag : Nat
  got : List (Nat × List JointBlock)
  deriving DecidableEq, Repr

/-- The planner outside its registers: the phase of the cycle (0 none, 1 snapshot, 2 model, 3 solve,
4 knots, 5 output), t0 and its tick, the descriptor of its SOLVE, per worker the newest complete STATE
frame set and the one that is coming in, the APPLIED that the snapshot took, the last 16 plans (newest
first), the plan that each local arm follows, used cycles in a row, the fragments of a worker, and the
number that the next plan takes; of the cycle that runs: the sets that local ports have latched since t0 (port,
position, velocity), the human capsules, the assigned separation rows, the status of its solution, the number and the
knots of its plan, what of its output is still to do, and the arms pushed; the iterate of its solution, that of the
last used one, shifted by every cycle missed since, and whether the next SOLVE starts from that one (R224). -/
structure Plc where
  phase : Nat
  t0 : Word
  at_ : Nat
  desc : Nat
  frames : FMap (Option StFrame)
  coming : FMap (Option StFrame)
  applied : FMap Word
  plans : List PlanRec
  follows : FMap Word
  used : Nat
  frags : List PlanFrags
  next : Word
  strobes : List (Nat × Int × Int)
  humans : List PlanHuman
  sep : List SepRow
  status : Nat
  num : Word
  blocks : List JointBlock
  todo : List PlanPart
  pushed : List Nat
  cand : Option NmgIter
  sol : Option NmgIter
  carry : Bool
  deriving DecidableEq, Repr

def Plc.reset : Plc :=
  { phase := 0, t0 := 0#32, at_ := 0, desc := 0, frames := ⟨[]⟩, coming := ⟨[]⟩, applied := ⟨[]⟩, plans := [],
    follows := ⟨[]⟩, used := 0, frags := [], next := 1#32, strobes := [], humans := [], sep := [], status := 0,
    num := 0#32, blocks := [], todo := [], pushed := [], cand := none, sol := none, carry := false }

/-! ## Identity (R441 to R457) -/

/-- A session (R446): the leaf certificate, which holds KEYID and RIGHTS, and the earliest NOT_AFTER of
the chain. -/
structure Session where
  leaf : List Byte
  notAfter : Nat
  deriving DecidableEq, Repr

/-- A running IMG command (R449): its function, slot, offset, source, length and completion. -/
structure ImgOp where
  fn : Nat
  slot : Nat
  ofs : Nat
  src : Nat
  len : Nat
  via : Via
  deriving DecidableEq, Repr

/-- The identity block outside its registers: the digest of an owner anchor burnt since the model started
(none: the one that the OTP held already, `Config.anchorDigest`), the valid
identity nonce and clear nonce, sessions per (module or own 64) × 16 + ring pair, the running IMG
command, what waits for a flush (the CAUSE of an accepted reset; 256: SLEEP), and the SVC entry point of
the loaded image (R330). -/
structure Ident where
  anchor : Option Nat
  nonce : Option Nat
  rcdNonce : Option Nat
  sess : FMap (Option Session)
  img : Option ImgOp
  restart : Option Nat
  entry : Word
  deriving DecidableEq, Repr

def Ident.reset : Ident := ⟨none, none, none, ⟨[]⟩, none, none, 0#32⟩

/-! ## Host rings (R392 to R400) -/

/-- A command in flight: its identifier, the SQ head after it was taken, the CQ places still reserved. -/
structure InFlight where
  n : BitVec 16
  cid : BitVec 16
  head : Nat
  left : Nat
  deriving DecidableEq, Repr

/-- A ring pair outside its registers: SQ tail, CQ head, commands in flight (oldest first), an entry that
has been taken and waits for its FENCE, CQEs written since the last signal. -/
structure Ring where
  tail : Nat
  cqHead : Nat
  flight : List InFlight
  held : Option (List Byte)
  unsig : Nat
  deriving DecidableEq, Repr

def Ring.reset : Ring := ⟨0, 0, [], none, 0⟩

/-! ## Backbone (R403 to R412) -/

/-- A gate list in operation or pending (R409, R410): cycle start in TB_CELL NS, cycle time, entries
(gates, interval). The start counts TB_CELL ns with the wrap count, modulo 2^40. -/
structure Gcl where
  start : Nat
  ct : Nat
  list : List (Nat × Nat)
  deriving DecidableEq, Repr

/-- Vector recovery of one stream (R407): the newest sequence number, which numbers of the history have arrived (bit i:
the one i before the newest), and how many of the history lie behind the first number since the reset. -/
structure Frer where
  last : BitVec 16
  hist : BitVec 32
  span : Nat
  deriving DecidableEq, Repr

/-- A frame as it left a port (R43): a cell frame; a fragment of one, so many bytes from byte `first` (R411); an own
Sync message of a base with its egress time as NS, WC and the eighths of a ns behind them, which stands in
originTimestamp where it is a one-step message; a relayed message with its correctionField in 125 ps. `udp`: it went
over UDP, with its checksum set to zero. -/
inductive WireFrame
  | cell (f : CellFrame)
  | fragment (f : CellFrame) (first bytes : Nat)
  | sync (b : Fin 2) (udp oneStep : Bool) (ns : Word) (wc eighths : Nat)
  | relay (b : Fin 2) (udp : Bool) (correction : Int)
  deriving DecidableEq, Repr

/-- A frame in a transmit queue: its sequence number as a stream, the ports named for it (none: its class decides), and
how many bytes of it have left as fragments (R407, R411). -/
structure TxItem where
  frame : CellFrame
  rtag : Option (BitVec 16)
  ports : List Nat
  sent : Nat
  deriving DecidableEq, Repr

/-- The backbone outside its registers: HSEQ per class, the sequence numbers of the streams sent, frames
queued per port × 8 + traffic class (those of BBI, port 6, are Q48 to Q55), the receive queues Q40 to Q47 by their
number, the last frame that left each port, the ingress time on TB_CELL of the last
frame that came in at each port in 125 ps, recovery per source × 8 + class, the meter of each stream (port × 512 +
source × 8 + class): tenths of a bit and the tick they stood at,
the address table (address, port), gate lists pending and in operation per port, forwarded commands that
wait for their completion (own ring, number, module), and the ports whose SFP+ module is left powered down, as a mask (R487). -/
structure Bbs where
  hseq : FMap Word
  rtag : FMap (BitVec 16)
  txq : FMap (List TxItem)
  rxq : FMap (List CellFrame)
  wire : FMap (Option WireFrame)
  ingress : FMap Nat
  frer : FMap (Option Frer)
  meter : FMap (Nat × Nat)
  fdb : List (BitVec 48 × Nat)
  pend : FMap (Option Gcl)
  oper : FMap (Option Gcl)
  fwd : List (Nat × BitVec 16 × Nat)
  sfpOff : Nat
  deriving DecidableEq, Repr

def Bbs.reset : Bbs := ⟨⟨[]⟩, ⟨[]⟩, ⟨[]⟩, ⟨[]⟩, ⟨[]⟩, ⟨[]⟩, ⟨[]⟩, ⟨[]⟩, [], ⟨[]⟩, ⟨[]⟩, [], 0⟩

/-! ## Fail-over (R415 to R429) -/

/-- The last heartbeat of a module: the tick of the last HB per path, its EPOCH, ACTIVE, PART, FLAGS and
CKPT; and whether the witness has declared the unit failed since (R423). -/
structure HbRec where
  atA : Option Nat
  atB : Option Nat
  epoch : Word
  active : Nat
  part : Nat
  flags : Nat
  ckpt : Word
  failed : Bool
  deriving DecidableEq, Repr

def HbRec.reset : HbRec := ⟨none, none, 0#32, 0xFF, 0, 0, 0#32, false⟩

/-- The fail-over unit outside its registers: the record in force as one number (byte 0 lowest), HBSEQ,
the heartbeats heard, a promotion in progress, checkpoints (newest first) with the one coming in and its
fragments, whether a promoted unit waits for its build and the descriptor of its LOAD_STRUCT (R427), whether the module
has been in RUN, and whether the record has been read since the reset (R15). -/
structure Fov where
  bcr : Nat
  hbSeq : Word
  hb : FMap HbRec
  promote : Bool
  ckpts : List Ckpt
  coming : Option (Ckpt × Nat × List Nat)
  takeover : Bool
  load : Option Nat
  ran : Bool
  read : Bool
  deriving DecidableEq, Repr

def Fov.reset : Fov := ⟨0, 0#32, ⟨[]⟩, false, [], none, false, none, false, false⟩

/-! ## Recorder (R431 to R439) -/

/-- A token bucket (R434): its level in 1/2,500,000,000 of a token, the tick of the last fill, dropped
records. -/
structure Bucket where
  level : Nat
  at_ : Nat
  drops : Nat
  deriving DecidableEq, Repr

/-- The recorder outside its registers: the volatile buffer (oldest first), the buckets (none: full),
a flush under way up to an index, and the tick of the last request of it, whose records it still takes. -/
structure Ans where
  buf : List Rec
  buckets : FMap (Option Bucket)
  flushTo : Option Nat
  asked : Option Nat
  deriving DecidableEq, Repr

def Ans.reset : Ans := ⟨[], ⟨[]⟩, none, none⟩

/-! ## Power and supervision (R459 to R475) -/

/-- PWS outside its registers: the state from which HOLDUP was entered and its tick; the first watchdog
key and its tick; the step of a recovery; READY has been entered since reset (R391); die
overtemperature, an unlocked PLL; the tick of the last entry to SLEEP and the ticks of
earlier sleeps; the tick of the first good
input; units stopped in HOLDUP; the rails outside their window, each with the tick of its RAIL_FAULT. -/
structure Pws where
  holdFrom : Nat
  holdAt : Nat
  key : Option Nat
  recStep : Nat
  readyOnce : Bool
  hot : Bool
  unlocked : Bool
  sleepAt : Nat
  slept : Nat
  inputAt : Nat
  stopped : Bool
  rails : List (Nat × Nat)
  deriving DecidableEq, Repr

def Pws.reset : Pws := ⟨2, 0, none, 0, false, false, false, 0, 0, 0, false, []⟩
/-- What a transition of the module can change: the state but for the queue, the answers, time, and messages that are
out. -/
structure Body where
  regs : FMap Word
  bank : FMap Word
  mem : Memory
  agenda : List Due
  clvIn : List Token
  ansIn : List Rec
  tbase : FMap TimeBase
  tbu : Tbu
  dpw : FMap DpwPort
  leg : FMap Leg
  tripIn : FMap TripIn
  caq : FMap CaqCh
  caqOld : List CaqOld
  ecc : List Config.EccErr
  dsck : FMap Nat
  pfb : FMap PfbUnit
  hbDue : Bool
  slot : FMap LpeSlot
  lpe : Lpe
  pg : FMap PgUnit
  cap : Cap
  door : FMap Door
  fio : Fio
  cqes : List Cqe
  nmg : Nmg
  snap : List SnapJoint
  eng : FMap Eng
  clv : Clv
  saf : Saf
  plc : Plc
  ident : Ident
  ring : FMap Ring
  hqNext : Nat
  bbs : Bbs
  fov : Fov
  ans : Ans
  pws : Pws
  deriving DecidableEq, Repr

/-- A transition of the module in the CLK_IO cycle `cycle`, with the rank of its cause: what it found and what it
made of it (R22). -/
structure ModMove where
  cycle : Nat
  rank : Nat
  was : Body
  became : Body
  deriving DecidableEq, Repr

/-- The state of the block; `was`: the register file as the present tick found it (R6); `moves`: the transitions of
this CLK_IO cycle, the last one first (R22). -/
structure State where
  pending : List Instr
  now : Nat
  free : Nat
  lastResp : Resp
  regs : FMap Word
  was : FMap Word
  bank : FMap Word
  mem : Memory
  agenda : List Due
  clvIn : List Token
  ansIn : List Rec
  tbase : FMap TimeBase
  tbu : Tbu
  dpw : FMap DpwPort
  leg : FMap Leg
  tripIn : FMap TripIn
  caq : FMap CaqCh
  caqOld : List CaqOld
  ecc : List Config.EccErr
  dsck : FMap Nat
  pfb : FMap PfbUnit
  hbDue : Bool
  slot : FMap LpeSlot
  lpe : Lpe
  pg : FMap PgUnit
  cap : Cap
  msixSent : FMap Nat
  door : FMap Door
  fio : Fio
  cqes : List Cqe
  nmg : Nmg
  snap : List SnapJoint
  eng : FMap Eng
  clv : Clv
  saf : Saf
  plc : Plc
  ident : Ident
  ring : FMap Ring
  hqNext : Nat
  turn : Nat
  host : FMap Nat
  bbs : Bbs
  fov : Fov
  ans : Ans
  pws : Pws
  moves : List ModMove
  deriving DecidableEq, Repr

/-- The machine right after reset: every register reads its table's reset value, nothing is listed
in any memory, no command waits, and the module watchdog (50 ms, R472) and the flush timer (10 s, R436) run. -/
def State.reset : State :=
  { pending := [], now := 0, free := 0, lastResp := .idle, regs := ⟨[]⟩, was := ⟨[]⟩, bank := ⟨[]⟩, mem := ⟨[]⟩,
    agenda := [⟨12500000, .cmd .moduleWdtExpiry⟩, ⟨2500000000, .cmd .ansFlushTimer⟩], clvIn := [], ansIn := [],
    tbase := ⟨[]⟩, tbu := ⟨false, 0, 0, 0, 0, none, 0, ⟨[]⟩, false, 0, false⟩, dpw := ⟨[]⟩, leg := ⟨[]⟩, tripIn := ⟨[]⟩,
    caq := ⟨[]⟩, caqOld := [], ecc := [], dsck := ⟨[]⟩, pfb := ⟨[]⟩, hbDue := false,
    slot := ⟨[]⟩, lpe := ⟨false, false⟩, pg := ⟨[]⟩, cap := Cap.reset, msixSent := ⟨[]⟩,
    door := ⟨[]⟩, fio := Fio.reset,
    cqes := [], nmg := Nmg.reset, snap := [],
    eng := ⟨[]⟩, clv := Clv.reset, saf := Saf.reset, plc := Plc.reset,
    ident := Ident.reset, ring := ⟨[]⟩, hqNext := 0, turn := 0, host := ⟨[]⟩,
    bbs := Bbs.reset, fov := Fov.reset, ans := Ans.reset, pws := Pws.reset, moves := [] }

end Sys2Proof.Machine
end

