-- ==== Sys2Proof/Machine/Regs.lean ====
section
/-! DEFINITION. The register map: the byte offset in BAR0 of every register (R3, R24), the place of
every field, and one row per register with its access masks and reset value. Each block's docstring
names the spec's register table it follows. -/

namespace Sys2Proof.Machine

/-! TBU_TB registers: R48 of spec/02_cell_time.md. -/

def TB.NS (n : Nat) : Nat := 0x00100000 + 0x40 * n
def TB.WCS (n : Nat) : Nat := 0x00100004 + 0x40 * n
def TB.WCS_WC (n : Nat) : Field := ⟨TB.WCS n, 0, 8⟩
def TB.RATE (n : Nat) : Nat := 0x00100008 + 0x40 * n
def TB.CTRL (n : Nat) : Nat := 0x0010000C + 0x40 * n
def TB.CTRL_STEP (n : Nat) : Field := ⟨TB.CTRL n, 0, 1⟩
def TB.STAT (n : Nat) : Nat := 0x00100010 + 0x40 * n
def TB.STAT_WRAPPED (n : Nat) : Field := ⟨TB.STAT n, 0, 1⟩
def TB.STAT_STEPPED (n : Nat) : Field := ⟨TB.STAT n, 1, 1⟩
def TB.STAT_SLEW_CLAMP (n : Nat) : Field := ⟨TB.STAT n, 2, 1⟩
def TB.STAT_STEP_REFUSED (n : Nat) : Field := ⟨TB.STAT n, 3, 1⟩
def TB.STAT_PPS (n : Nat) : Field := ⟨TB.STAT n, 4, 1⟩
def TB.STAT_WC (n : Nat) : Field := ⟨TB.STAT n, 5, 8⟩
def TB.STEPV (n : Nat) : Nat := 0x00100014 + 0x40 * n
def TB.PPSNS (n : Nat) : Nat := 0x00100018 + 0x40 * n
def TB.PPSFR (n : Nat) : Nat := 0x0010001C + 0x40 * n
def TB.PPSFR_FRAC (n : Nat) : Field := ⟨TB.PPSFR n, 0, 5⟩
def TB.PPSFR_WC (n : Nat) : Field := ⟨TB.PPSFR n, 5, 8⟩

def TB.rows : List RegRow :=
  [⟨0x0, 1, 4, 0x0, 0x0, 0x0, 0x0, 0x0⟩,
   ⟨0x4, 1, 4, 0x0, 0x0, 0x0, 0x0, 0x0⟩,
   ⟨0x8, 1, 4, 0xFFFFFFFF, 0x0, 0x0, 0x0, 0x0⟩,
   ⟨0xC, 1, 4, 0x0, 0x0, 0x1, 0x0, 0x0⟩,
   ⟨0x10, 1, 4, 0x0, 0x1F, 0x0, 0x0, 0x0⟩,
   ⟨0x14, 1, 4, 0xFFFFFFFF, 0x0, 0x0, 0x0, 0x0⟩,
   ⟨0x18, 1, 4, 0x0, 0x0, 0x0, 0x0, 0x0⟩,
   ⟨0x1C, 1, 4, 0x0, 0x0, 0x0, 0x0, 0x0⟩]

def TB.block : RegBlock := ⟨0x00100000, 0x40, 0x100, TB.rows⟩

/-! TBU_REFOUT registers: R48 of spec/02_cell_time.md. -/

def REFOUT.REG : Nat := 0x00100100
def REFOUT.REG_PPS_EN : Field := ⟨REFOUT.REG, 0, 1⟩
def REFOUT.REG_PPS_WIDTH : Field := ⟨REFOUT.REG, 1, 16⟩
def REFOUT.REG_TEN_EN : Field := ⟨REFOUT.REG, 17, 1⟩
def REFOUT.REG_TEN_SRC : Field := ⟨REFOUT.REG, 18, 1⟩

def REFOUT.rows : List RegRow :=
  [⟨0x0, 1, 4, 0x7FFFF, 0x0, 0x0, 0x0, 0xC8⟩]

def REFOUT.block : RegBlock := ⟨0x00100100, 0x4, 0x4, REFOUT.rows⟩

/-! TBU_TCMP registers: R48 of spec/02_cell_time.md. -/

def TCMP.VALUE (n : Nat) : Nat := 0x00100800 + 0x10 * n
def TCMP.PERIOD (n : Nat) : Nat := 0x00100804 + 0x10 * n
def TCMP.CTRL (n : Nat) : Nat := 0x00100808 + 0x10 * n
def TCMP.CTRL_EN (n : Nat) : Field := ⟨TCMP.CTRL n, 0, 1⟩
def TCMP.CTRL_BASE (n : Nat) : Field := ⟨TCMP.CTRL n, 1, 2⟩
def TCMP.CTRL_TOKEN (n : Nat) : Field := ⟨TCMP.CTRL n, 3, 1⟩
def TCMP.CTRL_DPW (n : Nat) : Field := ⟨TCMP.CTRL n, 4, 1⟩
def TCMP.CTRL_CAP (n : Nat) : Field := ⟨TCMP.CTRL n, 5, 1⟩
def TCMP.CTRL_FOV (n : Nat) : Field := ⟨TCMP.CTRL n, 6, 1⟩
def TCMP.CTRL_PPS (n : Nat) : Field := ⟨TCMP.CTRL n, 7, 1⟩
def TCMP.CTRL_TAG (n : Nat) : Field := ⟨TCMP.CTRL n, 16, 16⟩
def TCMP.STAT (n : Nat) : Nat := 0x0010080C + 0x10 * n
def TCMP.STAT_LATE (n : Nat) : Field := ⟨TCMP.STAT n, 0, 1⟩
def TCMP.STAT_ERR_ARG (n : Nat) : Field := ⟨TCMP.STAT n, 1, 1⟩
def TCMP.STAT_SKIP (n : Nat) : Field := ⟨TCMP.STAT n, 8, 8⟩
def TCMP.STAT_FIRE_CNT (n : Nat) : Field := ⟨TCMP.STAT n, 16, 16⟩

def TCMP.rows : List RegRow :=
  [⟨0x0, 1, 4, 0xFFFFFFFF, 0x0, 0x0, 0x0, 0x0⟩,
   ⟨0x4, 1, 4, 0xFFFFFFFF, 0x0, 0x0, 0x0, 0x0⟩,
   ⟨0x8, 1, 4, 0xFFFF00FF, 0x0, 0x0, 0x0, 0x0⟩,
   ⟨0xC, 1, 4, 0x0, 0x3, 0x0, 0x0, 0x0⟩]

def TCMP.block : RegBlock := ⟨0x00100800, 0x10, 0x800, TCMP.rows⟩

/-! TBU_TIMEEXT registers: R48 of spec/02_cell_time.md. -/

def TIMEEXT.SEQ (n : Nat) : Nat := 0x00101000 + 0x20 * n
def TIMEEXT.HI_BASE (n : Nat) : Nat := 0x00101004 + 0x20 * n
def TIMEEXT.WC_BASE (n : Nat) : Nat := 0x00101008 + 0x20 * n
def TIMEEXT.WC_BASE_V (n : Nat) : Field := ⟨TIMEEXT.WC_BASE n, 0, 8⟩
def TIMEEXT.STATUS (n : Nat) : Nat := 0x0010100C + 0x20 * n
def TIMEEXT.STATUS_SYNC (n : Nat) : Field := ⟨TIMEEXT.STATUS n, 0, 1⟩
def TIMEEXT.STATUS_GRANDMASTER (n : Nat) : Field := ⟨TIMEEXT.STATUS n, 1, 1⟩
def TIMEEXT.STATUS_HOLDOVER (n : Nat) : Field := ⟨TIMEEXT.STATUS n, 2, 1⟩
def TIMEEXT.OFFSET (n : Nat) : Nat := 0x00101010 + 0x20 * n
def TIMEEXT.SYNC_WIN (n : Nat) : Nat := 0x00101014 + 0x20 * n

def TIMEEXT.rows : List RegRow :=
  [⟨0x0, 1, 4, 0xFFFFFFFF, 0x0, 0x0, 0x0, 0x0⟩,
   ⟨0x4, 1, 4, 0xFFFFFFFF, 0x0, 0x0, 0x0, 0x0⟩,
   ⟨0x8, 1, 4, 0xFF, 0x0, 0x0, 0x0, 0x0⟩,
   ⟨0xC, 1, 4, 0x7, 0x0, 0x0, 0x0, 0x0⟩,
   ⟨0x10, 1, 4, 0xFFFFFFFF, 0x0, 0x0, 0x0, 0x0⟩,
   ⟨0x14, 1, 4, 0xFFFFFFFF, 0x0, 0x0, 0x0, 0x3E8⟩]

def TIMEEXT.block : RegBlock := ⟨0x00101000, 0x20, 0x80, TIMEEXT.rows⟩

/-! DPW_P registers: R75 of spec/03_drive_ports.md. -/

def DPW.CFG (n : Nat) : Nat := 0x00800000 + 0x400 * n
def DPW.CFG_MODE (n : Nat) : Field := ⟨DPW.CFG n, 0, 3⟩
def DPW.CFG_ALIGNMENT (n : Nat) : Field := ⟨DPW.CFG n, 3, 1⟩
def DPW.CFG_SYNC (n : Nat) : Field := ⟨DPW.CFG n, 4, 1⟩
def DPW.CFG_K (n : Nat) : Field := ⟨DPW.CFG n, 5, 2⟩
def DPW.CFG_PHASE (n : Nat) : Field := ⟨DPW.CFG n, 7, 1⟩
def DPW.CFG_OWNER (n : Nat) : Field := ⟨DPW.CFG n, 8, 2⟩
def DPW.CFG_TSEL (n : Nat) : Field := ⟨DPW.CFG n, 10, 7⟩
def DPW.CFG_POLH (n : Nat) : Field := ⟨DPW.CFG n, 17, 1⟩
def DPW.CFG_POLL (n : Nat) : Field := ⟨DPW.CFG n, 18, 1⟩
def DPW.CFG_DMODE (n : Nat) : Field := ⟨DPW.CFG n, 19, 2⟩
def DPW.CTRL (n : Nat) : Nat := 0x00800004 + 0x400 * n
def DPW.CTRL_COMMIT (n : Nat) : Field := ⟨DPW.CTRL n, 0, 1⟩
def DPW.STAT (n : Nat) : Nat := 0x00800008 + 0x400 * n
def DPW.STAT_ERR_ARG (n : Nat) : Field := ⟨DPW.STAT n, 0, 1⟩
def DPW.STAT_SHORT (n : Nat) : Field := ⟨DPW.STAT n, 1, 1⟩
def DPW.STAT_CMP_CLAMP (n : Nat) : Field := ⟨DPW.STAT n, 2, 1⟩
def DPW.STAT_PER_MISMATCH (n : Nat) : Field := ⟨DPW.STAT n, 3, 1⟩
def DPW.STAT_OWN_ERR (n : Nat) : Field := ⟨DPW.STAT n, 4, 1⟩
def DPW.STAT_TRG_SKIP (n : Nat) : Field := ⟨DPW.STAT n, 5, 1⟩
def DPW.STAT_FORCED (n : Nat) : Field := ⟨DPW.STAT n, 6, 1⟩
def DPW.STAT_ACTIVE_VALID (n : Nat) : Field := ⟨DPW.STAT n, 7, 1⟩
def DPW.STAT_SHORT_CNT (n : Nat) : Field := ⟨DPW.STAT n, 16, 16⟩
def DPW.PERIOD (n : Nat) : Nat := 0x0080000C + 0x400 * n
def DPW.PERIOD_PER (n : Nat) : Field := ⟨DPW.PERIOD n, 0, 25⟩
def DPW.PERACT (n : Nat) : Nat := 0x00800010 + 0x400 * n
def DPW.PERACT_PER (n : Nat) : Field := ⟨DPW.PERACT n, 0, 25⟩
def DPW.PULSE (n : Nat) : Nat := 0x00800018 + 0x400 * n
def DPW.PULSE_MINPW (n : Nat) : Field := ⟨DPW.PULSE n, 0, 10⟩
def DPW.PULSE_SHORTPW (n : Nat) : Field := ⟨DPW.PULSE n, 10, 2⟩
def DPW.PULSE_TRGW (n : Nat) : Field := ⟨DPW.PULSE n, 12, 8⟩
def DPW.DT (n k : Nat) : Nat := 0x00800020 + 0x400 * n + 0x4 * k
def DPW.DT_DT (n k : Nat) : Field := ⟨DPW.DT n k, 0, 17⟩
def DPW.CMP (n k : Nat) : Nat := 0x00800030 + 0x400 * n + 0x4 * k
def DPW.CMP_TON (n k : Nat) : Field := ⟨DPW.CMP n k, 0, 25⟩
def DPW.ACT (n k : Nat) : Nat := 0x00800040 + 0x400 * n + 0x4 * k
def DPW.ACT_TON (n k : Nat) : Field := ⟨DPW.ACT n k, 0, 25⟩
def DPW.TRGC0 (n : Nat) : Nat := 0x00800050 + 0x400 * n
def DPW.TRGC0_POS (n : Nat) : Field := ⟨DPW.TRGC0 n, 0, 25⟩
def DPW.TRGC0_EN (n : Nat) : Field := ⟨DPW.TRGC0 n, 25, 1⟩
def DPW.TRGC0_CAQ (n : Nat) : Field := ⟨DPW.TRGC0 n, 26, 1⟩
def DPW.TRGC0_PFB (n : Nat) : Field := ⟨DPW.TRGC0 n, 27, 1⟩
def DPW.TRGC0_CAP (n : Nat) : Field := ⟨DPW.TRGC0 n, 28, 1⟩
def DPW.TRGC0_PAD (n : Nat) : Field := ⟨DPW.TRGC0 n, 29, 1⟩
def DPW.TRGC0_REF (n : Nat) : Field := ⟨DPW.TRGC0 n, 30, 1⟩
def DPW.TRGCN (n k : Nat) : Nat := 0x00800054 + 0x400 * n + 0x4 * k
def DPW.TRGCN_POS (n k : Nat) : Field := ⟨DPW.TRGCN n k, 0, 25⟩
def DPW.TRGCN_EN (n k : Nat) : Field := ⟨DPW.TRGCN n k, 25, 1⟩
def DPW.TRGCN_CAQ (n k : Nat) : Field := ⟨DPW.TRGCN n k, 26, 1⟩
def DPW.TRGCN_PFB (n k : Nat) : Field := ⟨DPW.TRGCN n k, 27, 1⟩
def DPW.TRGCN_CAP (n k : Nat) : Field := ⟨DPW.TRGCN n k, 28, 1⟩
def DPW.TRGCN_PAD (n k : Nat) : Field := ⟨DPW.TRGCN n k, 29, 1⟩
def DPW.TRGCN_REF (n k : Nat) : Field := ⟨DPW.TRGCN n k, 30, 1⟩
def DPW.PINS (n : Nat) : Nat := 0x00800060 + 0x400 * n
def DPW.PINS_PAD (n : Nat) : Field := ⟨DPW.PINS n, 0, 8⟩
def DPW.PINS_TRG (n : Nat) : Field := ⟨DPW.PINS n, 8, 1⟩
def DPW.PINS_FLT (n : Nat) : Field := ⟨DPW.PINS n, 9, 1⟩
def DPW.BRKTH (n : Nat) : Nat := 0x00800064 + 0x400 * n
def DPW.BRKTH_ON (n : Nat) : Field := ⟨DPW.BRKTH n, 0, 16⟩
def DPW.BRKTH_OFF (n : Nat) : Field := ⟨DPW.BRKTH n, 16, 16⟩
def DPW.BRIDGE (n : Nat) : Nat := 0x00800068 + 0x400 * n
def DPW.BRIDGE_B1 (n : Nat) : Field := ⟨DPW.BRIDGE n, 0, 2⟩
def DPW.BRIDGE_B2 (n : Nat) : Field := ⟨DPW.BRIDGE n, 2, 2⟩

def DPW.rows : List RegRow :=
  [⟨0x0, 1, 4, 0x1FFFFF, 0x0, 0x0, 0x0, 0x0⟩,
   ⟨0x4, 1, 4, 0x0, 0x0, 0x1, 0x0, 0x0⟩,
   ⟨0x8, 1, 4, 0x0, 0x3F, 0x0, 0x0, 0x0⟩,
   ⟨0xC, 1, 4, 0x1FFFFFF, 0x0, 0x0, 0x0, 0x1E8480⟩,
   ⟨0x10, 1, 4, 0x0, 0x0, 0x0, 0x0, 0x1E8480⟩,
   ⟨0x18, 1, 4, 0xFFFFF, 0x0, 0x0, 0x0, 0x1000⟩,
   ⟨0x20, 4, 4, 0x1FFFF, 0x0, 0x0, 0x0, 0x0⟩,
   ⟨0x30, 4, 4, 0x1FFFFFF, 0x0, 0x0, 0x0, 0x0⟩,
   ⟨0x40, 4, 4, 0x0, 0x0, 0x0, 0x0, 0x0⟩,
   ⟨0x50, 1, 4, 0x7FFFFFFF, 0x0, 0x0, 0x0, 0x4E000000⟩,
   ⟨0x54, 3, 4, 0x7FFFFFFF, 0x0, 0x0, 0x0, 0x0⟩,
   ⟨0x60, 1, 4, 0x0, 0x0, 0x0, 0x0, 0x0⟩,
   ⟨0x64, 1, 4, 0xFFFFFFFF, 0x0, 0x0, 0x0, 0xFFFEFFFF⟩,
   ⟨0x68, 1, 4, 0xF, 0x0, 0x0, 0x0, 0x0⟩]

def DPW.block : RegBlock := ⟨0x00800000, 0x400, 0x18000, DPW.rows⟩

/-! TRF_ registers: R86 of spec/04_trip_fabric.md. -/

def TRFG.GCFG : Nat := 0x00900000
def TRFG.GCFG_TRIPN_FILT : Field := ⟨TRFG.GCFG, 0, 2⟩
def TRFG.GSTAT : Nat := 0x00900004
def TRFG.GSTAT_TRIPN : Field := ⟨TRFG.GSTAT, 0, 1⟩
def TRFG.GSTAT_PLL_UNLOCK : Field := ⟨TRFG.GSTAT, 1, 1⟩
def TRFG.GSTAT_STATE : Field := ⟨TRFG.GSTAT, 2, 1⟩
def TRFG.GSTAT_STO : Field := ⟨TRFG.GSTAT, 16, 12⟩
def TRFG.ERR : Nat := 0x00900008
def TRFG.ERR_BAD_ARG : Field := ⟨TRFG.ERR, 0, 1⟩
def TRFG.ERR_PORT : Field := ⟨TRFG.ERR, 8, 7⟩
def TRFG.SWTRIP (k : Nat) : Nat := 0x00900010 + 0x4 * k
def TRFG.FORCED (k : Nat) : Nat := 0x00900020 + 0x4 * k

def TRFG.rows : List RegRow :=
  [⟨0x0, 1, 4, 0x3, 0x0, 0x0, 0x0, 0x0⟩,
   ⟨0x4, 1, 4, 0x0, 0x0, 0x0, 0x0, 0xFFF0004⟩,
   ⟨0x8, 1, 4, 0x0, 0x1, 0x0, 0x0, 0x0⟩,
   ⟨0x10, 3, 4, 0x0, 0x0, 0xFFFFFFFF, 0x0, 0x0⟩,
   ⟨0x20, 3, 4, 0x0, 0x0, 0x0, 0x0, 0xFFFFFFFF⟩]

def TRFG.block : RegBlock := ⟨0x00900000, 0x2C, 0x2C, TRFG.rows⟩

/-! TRF_P registers: R86 of spec/04_trip_fabric.md. -/

def TRF.CFG (n : Nat) : Nat := 0x00901000 + 0x20 * n
def TRF.CFG_FLT_FILT (n : Nat) : Field := ⟨TRF.CFG n, 0, 2⟩
def TRF.CFG_EN_FLT (n : Nat) : Field := ⟨TRF.CFG n, 2, 1⟩
def TRF.CFG_EN_DCV (n : Nat) : Field := ⟨TRF.CFG n, 3, 1⟩
def TRF.CFG_EN_TRIPN (n : Nat) : Field := ⟨TRF.CFG n, 4, 1⟩
def TRF.SAFE (n : Nat) : Nat := 0x00901004 + 0x20 * n
def TRF.SAFE_DL (n : Nat) : Field := ⟨TRF.SAFE n, 0, 2⟩
def TRF.SAFE_DH (n : Nat) : Field := ⟨TRF.SAFE n, 2, 2⟩
def TRF.SAFE_CL (n : Nat) : Field := ⟨TRF.SAFE n, 4, 2⟩
def TRF.SAFE_CH (n : Nat) : Field := ⟨TRF.SAFE n, 6, 2⟩
def TRF.SAFE_BL (n : Nat) : Field := ⟨TRF.SAFE n, 8, 2⟩
def TRF.SAFE_BH (n : Nat) : Field := ⟨TRF.SAFE n, 10, 2⟩
def TRF.SAFE_AL (n : Nat) : Field := ⟨TRF.SAFE n, 12, 2⟩
def TRF.SAFE_AH (n : Nat) : Field := ⟨TRF.SAFE n, 14, 2⟩
def TRF.LATCH (n : Nat) : Nat := 0x00901008 + 0x20 * n
def TRF.LATCH_FLT (n : Nat) : Field := ⟨TRF.LATCH n, 0, 1⟩
def TRF.LATCH_DCV (n : Nat) : Field := ⟨TRF.LATCH n, 1, 1⟩
def TRF.LATCH_TRIPN (n : Nat) : Field := ⟨TRF.LATCH n, 2, 1⟩
def TRF.LATCH_SW (n : Nat) : Field := ⟨TRF.LATCH n, 3, 1⟩
def TRF.LATCH_STO (n : Nat) : Field := ⟨TRF.LATCH n, 4, 1⟩
def TRF.LATCH_PWS (n : Nat) : Field := ⟨TRF.LATCH n, 5, 1⟩
def TRF.LATCH_STATE (n : Nat) : Field := ⟨TRF.LATCH n, 6, 1⟩
def TRF.LATCH_CLR_REFUSED (n : Nat) : Field := ⟨TRF.LATCH n, 8, 1⟩
def TRF.FIRST (n : Nat) : Nat := 0x0090100C + 0x20 * n
def TRF.FIRST_SRC (n : Nat) : Field := ⟨TRF.FIRST n, 0, 3⟩
def TRF.FIRST_VALID (n : Nat) : Field := ⟨TRF.FIRST n, 3, 1⟩
def TRF.FIRST_FRAC (n : Nat) : Field := ⟨TRF.FIRST n, 4, 5⟩
def TRF.FIRST_WC (n : Nat) : Field := ⟨TRF.FIRST n, 16, 8⟩
def TRF.FTIME (n : Nat) : Nat := 0x00901010 + 0x20 * n
def TRF.CNT (n : Nat) : Nat := 0x00901014 + 0x20 * n
def TRF.CNT_TRIPS (n : Nat) : Field := ⟨TRF.CNT n, 0, 16⟩

def TRF.rows : List RegRow :=
  [⟨0x0, 1, 4, 0x1F, 0x0, 0x0, 0x0, 0x1C⟩,
   ⟨0x4, 1, 4, 0xFFFF, 0x0, 0x0, 0x0, 0x0⟩,
   ⟨0x8, 1, 4, 0x0, 0x17F, 0x0, 0x0, 0x50⟩,
   ⟨0xC, 1, 4, 0x0, 0x0, 0x0, 0x0, 0x6⟩,
   ⟨0x10, 1, 4, 0x0, 0x0, 0x0, 0x0, 0x0⟩,
   ⟨0x14, 1, 4, 0x0, 0x0, 0x0, 0x0, 0x0⟩]

def TRF.block : RegBlock := ⟨0x00901000, 0x20, 0xC00, TRF.rows⟩

/-! CAQ_G registers: R99 of spec/05_current_sensing.md. -/

def CAQG.CFG (n : Nat) : Nat := 0x00A00000 + 0x40 * n
def CAQG.CFG_EN (n : Nat) : Field := ⟨CAQG.CFG n, 0, 1⟩
def CAQG.CFG_DIV (n : Nat) : Field := ⟨CAQG.CFG n, 1, 6⟩
def CAQG.CFG_SPT (n : Nat) : Field := ⟨CAQG.CFG n, 7, 6⟩
def CAQG.CFG_DOSR (n : Nat) : Field := ⟨CAQG.CFG n, 13, 3⟩
def CAQG.CFG_COSR (n : Nat) : Field := ⟨CAQG.CFG n, 16, 2⟩
def CAQG.CFG_STUCK (n : Nat) : Field := ⟨CAQG.CFG n, 18, 8⟩
def CAQG.DSVTH (n : Nat) : Nat := 0x00A00004 + 0x40 * n
def CAQG.DSVTH_HI (n : Nat) : Field := ⟨CAQG.DSVTH n, 0, 16⟩
def CAQG.DSVTH_LO (n : Nat) : Field := ⟨CAQG.DSVTH n, 16, 16⟩
def CAQG.DSV (n : Nat) : Nat := 0x00A00008 + 0x40 * n
def CAQG.DSV_U (n : Nat) : Field := ⟨CAQG.DSV n, 0, 16⟩
def CAQG.DSV_VALID (n : Nat) : Field := ⟨CAQG.DSV n, 16, 1⟩
def CAQG.DSV_HI (n : Nat) : Field := ⟨CAQG.DSV n, 17, 1⟩
def CAQG.DSV_LO (n : Nat) : Field := ⟨CAQG.DSV n, 18, 1⟩
def CAQG.STAT (n : Nat) : Nat := 0x00A0000C + 0x40 * n
def CAQG.STAT_ERR_ARG (n : Nat) : Field := ⟨CAQG.STAT n, 0, 1⟩
def CAQG.STAT_STUCK (n : Nat) : Field := ⟨CAQG.STAT n, 1, 1⟩
def CAQG.STAT_OV (n : Nat) : Field := ⟨CAQG.STAT n, 2, 1⟩
def CAQG.STAT_UV (n : Nat) : Field := ⟨CAQG.STAT n, 3, 1⟩

def CAQG.rows : List RegRow :=
  [⟨0x0, 1, 4, 0x3FFFFFF, 0x0, 0x0, 0x0, 0x1014318⟩,
   ⟨0x4, 1, 4, 0xFFFFFFFF, 0x0, 0x0, 0x0, 0xFFFF⟩,
   ⟨0x8, 1, 4, 0x0, 0x0, 0x0, 0x0, 0x0⟩,
   ⟨0xC, 1, 4, 0x0, 0xF, 0x0, 0x0, 0x0⟩]

def CAQG.block : RegBlock := ⟨0x00A00000, 0x40, 0x300, CAQG.rows⟩

/-! CAQ_P registers: R99 of spec/05_current_sensing.md. -/

def CAQ.CFG (n : Nat) : Nat := 0x00A01000 + 0x40 * n
def CAQ.CFG_EN_A (n : Nat) : Field := ⟨CAQ.CFG n, 0, 1⟩
def CAQ.CFG_EN_B (n : Nat) : Field := ⟨CAQ.CFG n, 1, 1⟩
def CAQ.CFG_PAIR (n : Nat) : Field := ⟨CAQ.CFG n, 2, 2⟩
def CAQ.CFG_OSR (n : Nat) : Field := ⟨CAQ.CFG n, 4, 3⟩
def CAQ.CFG_COSR (n : Nat) : Field := ⟨CAQ.CFG n, 7, 2⟩
def CAQ.CFG_TRIP (n : Nat) : Field := ⟨CAQ.CFG n, 9, 1⟩
def CAQ.CAL (n k : Nat) : Nat := 0x00A01004 + 0x40 * n + 0x4 * k
def CAQ.CAL_OFS (n k : Nat) : Field := ⟨CAQ.CAL n k, 0, 16⟩
def CAQ.CAL_GAIN (n k : Nat) : Field := ⟨CAQ.CAL n k, 16, 16⟩
def CAQ.TH (n k : Nat) : Nat := 0x00A0100C + 0x40 * n + 0x4 * k
def CAQ.TH_HI (n k : Nat) : Field := ⟨CAQ.TH n k, 0, 16⟩
def CAQ.TH_LO (n k : Nat) : Field := ⟨CAQ.TH n k, 16, 16⟩
def CAQ.STAT (n : Nat) : Nat := 0x00A01014 + 0x40 * n
def CAQ.STAT_ERR_ARG (n : Nat) : Field := ⟨CAQ.STAT n, 0, 1⟩
def CAQ.STAT_STUCK_A (n : Nat) : Field := ⟨CAQ.STAT n, 1, 1⟩
def CAQ.STAT_STUCK_B (n : Nat) : Field := ⟨CAQ.STAT n, 2, 1⟩
def CAQ.STAT_HI_A (n : Nat) : Field := ⟨CAQ.STAT n, 3, 1⟩
def CAQ.STAT_LO_A (n : Nat) : Field := ⟨CAQ.STAT n, 4, 1⟩
def CAQ.STAT_HI_B (n : Nat) : Field := ⟨CAQ.STAT n, 5, 1⟩
def CAQ.STAT_LO_B (n : Nat) : Field := ⟨CAQ.STAT n, 6, 1⟩
def CAQ.STAT_SAT (n : Nat) : Field := ⟨CAQ.STAT n, 7, 1⟩
def CAQ.STAT_VALID_A (n : Nat) : Field := ⟨CAQ.STAT n, 8, 1⟩
def CAQ.STAT_VALID_B (n : Nat) : Field := ⟨CAQ.STAT n, 9, 1⟩
def CAQ.LAT0 (n : Nat) : Nat := 0x00A01018 + 0x40 * n
def CAQ.LAT0_I_A (n : Nat) : Field := ⟨CAQ.LAT0 n, 0, 16⟩
def CAQ.LAT0_I_B (n : Nat) : Field := ⟨CAQ.LAT0 n, 16, 16⟩
def CAQ.LAT1 (n : Nat) : Nat := 0x00A0101C + 0x40 * n
def CAQ.LAT1_I_C (n : Nat) : Field := ⟨CAQ.LAT1 n, 0, 16⟩
def CAQ.LAT1_U (n : Nat) : Field := ⟨CAQ.LAT1 n, 16, 16⟩
def CAQ.LAT2 (n : Nat) : Nat := 0x00A01020 + 0x40 * n
def CAQ.LAT3 (n : Nat) : Nat := 0x00A01024 + 0x40 * n
def CAQ.LAT3_WC (n : Nat) : Field := ⟨CAQ.LAT3 n, 0, 8⟩
def CAQ.LAT3_VA (n : Nat) : Field := ⟨CAQ.LAT3 n, 8, 1⟩
def CAQ.LAT3_VB (n : Nat) : Field := ⟨CAQ.LAT3 n, 9, 1⟩
def CAQ.LAT3_VC (n : Nat) : Field := ⟨CAQ.LAT3 n, 10, 1⟩
def CAQ.LAT3_VU (n : Nat) : Field := ⟨CAQ.LAT3 n, 11, 1⟩
def CAQ.LAT3_SAT (n : Nat) : Field := ⟨CAQ.LAT3 n, 12, 1⟩

def CAQ.rows : List RegRow :=
  [⟨0x0, 1, 4, 0x3FF, 0x0, 0x0, 0x0, 0xA0⟩,
   ⟨0x4, 2, 4, 0xFFFFFFFF, 0x0, 0x0, 0x0, 0x40000000⟩,
   ⟨0xC, 2, 4, 0xFFFFFFFF, 0x0, 0x0, 0x0, 0x80007FFF⟩,
   ⟨0x14, 1, 4, 0x0, 0xFF, 0x0, 0x0, 0x0⟩,
   ⟨0x18, 1, 4, 0x0, 0x0, 0x0, 0x0, 0x0⟩,
   ⟨0x1C, 1, 4, 0x0, 0x0, 0x0, 0x0, 0x0⟩,
   ⟨0x20, 1, 4, 0x0, 0x0, 0x0, 0x0, 0x0⟩,
   ⟨0x24, 1, 4, 0x0, 0x0, 0x0, 0x0, 0x0⟩]

def CAQ.block : RegBlock := ⟨0x00A01000, 0x40, 0x1800, CAQ.rows⟩

/-! PFB_P registers: R124 of spec/06_position_feedback.md. -/

def PFB.CFG (n : Nat) : Nat := 0x00B00000 + 0x100 * n
def PFB.CFG_MODE (n : Nat) : Field := ⟨PFB.CFG n, 0, 3⟩
def PFB.CFG_DIRINV (n : Nat) : Field := ⟨PFB.CFG n, 3, 1⟩
def PFB.CFG_IDX_POL (n : Nat) : Field := ⟨PFB.CFG n, 4, 2⟩
def PFB.CFG_REF (n : Nat) : Field := ⟨PFB.CFG n, 6, 2⟩
def PFB.CFG_GAP_N (n : Nat) : Field := ⟨PFB.CFG n, 8, 2⟩
def PFB.CFG_TEDGE (n : Nat) : Field := ⟨PFB.CFG n, 10, 1⟩
def PFB.CFG_DIRSRC (n : Nat) : Field := ⟨PFB.CFG n, 11, 1⟩
def PFB.CFG_DIR_POL (n : Nat) : Field := ⟨PFB.CFG n, 12, 1⟩
def PFB.CFG_QERR_FAULT (n : Nat) : Field := ⟨PFB.CFG n, 13, 1⟩
def PFB.CFG_ZPOL (n : Nat) : Field := ⟨PFB.CFG n, 14, 1⟩
def PFB.CFG_IDX_TOL (n : Nat) : Field := ⟨PFB.CFG n, 16, 8⟩
def PFB.CFG_NEGOFS (n : Nat) : Field := ⟨PFB.CFG n, 24, 8⟩
def PFB.CTRL (n : Nat) : Nat := 0x00B00004 + 0x100 * n
def PFB.CTRL_LOAD (n : Nat) : Field := ⟨PFB.CTRL n, 0, 1⟩
def PFB.CTRL_ABSORB (n : Nat) : Field := ⟨PFB.CTRL n, 1, 1⟩
def PFB.CTRL_HOME (n : Nat) : Field := ⟨PFB.CTRL n, 2, 1⟩
def PFB.STAT (n : Nat) : Nat := 0x00B00008 + 0x100 * n
def PFB.STAT_ERR_ARG (n : Nat) : Field := ⟨PFB.STAT n, 0, 1⟩
def PFB.STAT_LIMIT (n : Nat) : Field := ⟨PFB.STAT n, 1, 1⟩
def PFB.STAT_AT_HI (n : Nat) : Field := ⟨PFB.STAT n, 2, 1⟩
def PFB.STAT_AT_LO (n : Nat) : Field := ⟨PFB.STAT n, 3, 1⟩
def PFB.STAT_OVR_SAT (n : Nat) : Field := ⟨PFB.STAT n, 4, 1⟩
def PFB.STAT_IDX_MISMATCH (n : Nat) : Field := ⟨PFB.STAT n, 5, 1⟩
def PFB.STAT_REF_SEEN (n : Nat) : Field := ⟨PFB.STAT n, 6, 1⟩
def PFB.STAT_HOMED (n : Nat) : Field := ⟨PFB.STAT n, 7, 1⟩
def PFB.STAT_FAULT (n : Nat) : Field := ⟨PFB.STAT n, 8, 1⟩
def PFB.STAT_QERR (n : Nat) : Field := ⟨PFB.STAT n, 9, 1⟩
def PFB.STAT_TOOTH_ERR (n : Nat) : Field := ⟨PFB.STAT n, 10, 1⟩
def PFB.STAT_STILL (n : Nat) : Field := ⟨PFB.STAT n, 11, 1⟩
def PFB.STAT_SPEED_VALID (n : Nat) : Field := ⟨PFB.STAT n, 12, 1⟩
def PFB.STAT_REV_SETTLE (n : Nat) : Field := ⟨PFB.STAT n, 13, 1⟩
def PFB.STAT_DIR (n : Nat) : Field := ⟨PFB.STAT n, 14, 1⟩
def PFB.STAT_VALID (n : Nat) : Field := ⟨PFB.STAT n, 15, 1⟩
def PFB.STAT_FAULT_SRC (n : Nat) : Field := ⟨PFB.STAT n, 16, 3⟩
def PFB.POS (n : Nat) : Nat := 0x00B0000C + 0x100 * n
def PFB.OVR (n : Nat) : Nat := 0x00B00010 + 0x100 * n
def PFB.OVR_V (n : Nat) : Field := ⟨PFB.OVR n, 0, 16⟩
def PFB.SETPOS (n : Nat) : Nat := 0x00B00014 + 0x100 * n
def PFB.SL_LO (n : Nat) : Nat := 0x00B00018 + 0x100 * n
def PFB.SL_HI (n : Nat) : Nat := 0x00B0001C + 0x100 * n
def PFB.IDXEXP (n : Nat) : Nat := 0x00B00020 + 0x100 * n
def PFB.CPR (n : Nat) : Nat := 0x00B00024 + 0x100 * n
def PFB.IDXDIFF (n : Nat) : Nat := 0x00B00028 + 0x100 * n
def PFB.TCFG (n : Nat) : Nat := 0x00B0002C + 0x100 * n
def PFB.TCFG_TSTILL (n : Nat) : Field := ⟨PFB.TCFG n, 0, 10⟩
def PFB.TCFG_GAP_RATIO (n : Nat) : Field := ⟨PFB.TCFG n, 10, 8⟩
def PFB.TCFG_EXTLIM (n : Nat) : Field := ⟨PFB.TCFG n, 18, 14⟩
def PFB.SPEED (n : Nat) : Nat := 0x00B00030 + 0x100 * n
def PFB.EDGENS (n : Nat) : Nat := 0x00B00034 + 0x100 * n
def PFB.EDGEFR (n : Nat) : Nat := 0x00B00038 + 0x100 * n
def PFB.EDGEFR_FRAC (n : Nat) : Field := ⟨PFB.EDGEFR n, 0, 5⟩
def PFB.EDGEFR_WC (n : Nat) : Field := ⟨PFB.EDGEFR n, 5, 8⟩
def PFB.CNT (n : Nat) : Nat := 0x00B0003C + 0x100 * n
def PFB.CNT_ERR_CNT (n : Nat) : Field := ⟨PFB.CNT n, 0, 16⟩
def PFB.CNT_IDX_CNT (n : Nat) : Field := ⟨PFB.CNT n, 16, 16⟩
def PFB.LAT0 (n : Nat) : Nat := 0x00B00040 + 0x100 * n
def PFB.LAT1 (n : Nat) : Nat := 0x00B00044 + 0x100 * n
def PFB.LAT1_OVR (n : Nat) : Field := ⟨PFB.LAT1 n, 0, 16⟩
def PFB.LAT1_VALID (n : Nat) : Field := ⟨PFB.LAT1 n, 16, 1⟩
def PFB.LAT1_SPEED_VALID (n : Nat) : Field := ⟨PFB.LAT1 n, 17, 1⟩
def PFB.LAT1_STILL (n : Nat) : Field := ⟨PFB.LAT1 n, 18, 1⟩
def PFB.LAT1_REV_SETTLE (n : Nat) : Field := ⟨PFB.LAT1 n, 19, 1⟩
def PFB.LAT1_AT_HI (n : Nat) : Field := ⟨PFB.LAT1 n, 20, 1⟩
def PFB.LAT1_AT_LO (n : Nat) : Field := ⟨PFB.LAT1 n, 21, 1⟩
def PFB.LAT1_FAULT (n : Nat) : Field := ⟨PFB.LAT1 n, 22, 1⟩
def PFB.LAT1_HOMED (n : Nat) : Field := ⟨PFB.LAT1 n, 23, 1⟩
def PFB.LAT1_DIR (n : Nat) : Field := ⟨PFB.LAT1 n, 24, 1⟩
def PFB.LAT2 (n : Nat) : Nat := 0x00B00048 + 0x100 * n
def PFB.LAT3 (n : Nat) : Nat := 0x00B0004C + 0x100 * n
def PFB.LAT3_FRAC (n : Nat) : Field := ⟨PFB.LAT3 n, 0, 5⟩
def PFB.LAT3_WC (n : Nat) : Field := ⟨PFB.LAT3 n, 5, 8⟩
def PFB.LAT4 (n : Nat) : Nat := 0x00B00050 + 0x100 * n
def PFB.LAT5 (n : Nat) : Nat := 0x00B00054 + 0x100 * n
def PFB.SERCFG (n : Nat) : Nat := 0x00B00058 + 0x100 * n
def PFB.SERCFG_CKDIV (n : Nat) : Field := ⟨PFB.SERCFG n, 0, 10⟩
def PFB.SERCFG_BITS (n : Nat) : Field := ⟨PFB.SERCFG n, 10, 6⟩
def PFB.SERCFG_GRAY (n : Nat) : Field := ⟨PFB.SERCFG n, 16, 1⟩
def PFB.SERCFG_SERFAIL_N (n : Nat) : Field := ⟨PFB.SERCFG n, 17, 4⟩
def PFB.SERTM (n : Nat) : Nat := 0x00B0005C + 0x100 * n
def PFB.SERTM_SDLY (n : Nat) : Field := ⟨PFB.SERTM n, 0, 8⟩
def PFB.SERTM_MONO (n : Nat) : Field := ⟨PFB.SERTM n, 8, 8⟩
def PFB.SERTM_LATDLY (n : Nat) : Field := ⟨PFB.SERTM n, 16, 16⟩
def PFB.SERSTAT (n : Nat) : Nat := 0x00B00060 + 0x100 * n
def PFB.SERSTAT_BUSY (n : Nat) : Field := ⟨PFB.SERSTAT n, 0, 1⟩
def PFB.SERSTAT_CRC_ERR (n : Nat) : Field := ⟨PFB.SERSTAT n, 1, 1⟩
def PFB.SERSTAT_LINE_ERR (n : Nat) : Field := ⟨PFB.SERSTAT n, 2, 1⟩
def PFB.SERSTAT_NE (n : Nat) : Field := ⟨PFB.SERSTAT n, 3, 1⟩
def PFB.SERSTAT_NW (n : Nat) : Field := ⟨PFB.SERSTAT n, 4, 1⟩
def PFB.SERSTAT_ACK_TO (n : Nat) : Field := ⟨PFB.SERSTAT n, 5, 1⟩
def PFB.SERSTAT_OVERLAP (n : Nat) : Field := ⟨PFB.SERSTAT n, 6, 1⟩
def PFB.SERSTAT_LINE_DLY (n : Nat) : Field := ⟨PFB.SERSTAT n, 16, 8⟩
def PFB.SERSTAT_FAILS (n : Nat) : Field := ⟨PFB.SERSTAT n, 24, 8⟩
def PFB.SERRAW (n : Nat) : Nat := 0x00B00064 + 0x100 * n

def PFB.rows : List RegRow :=
  [⟨0x0, 1, 4, 0xFFFF7FFF, 0x0, 0x0, 0x0, 0x200⟩,
   ⟨0x4, 1, 4, 0x0, 0x0, 0x7, 0x0, 0x0⟩,
   ⟨0x8, 1, 4, 0x0, 0x773, 0x0, 0x0, 0x800⟩,
   ⟨0xC, 1, 4, 0x0, 0x0, 0x0, 0x0, 0x0⟩,
   ⟨0x10, 1, 4, 0x0, 0x0, 0x0, 0x0, 0x0⟩,
   ⟨0x14, 1, 4, 0xFFFFFFFF, 0x0, 0x0, 0x0, 0x0⟩,
   ⟨0x18, 1, 4, 0xFFFFFFFF, 0x0, 0x0, 0x0, 0x80000000⟩,
   ⟨0x1C, 1, 4, 0xFFFFFFFF, 0x0, 0x0, 0x0, 0x7FFFFFFF⟩,
   ⟨0x20, 1, 4, 0xFFFFFFFF, 0x0, 0x0, 0x0, 0x0⟩,
   ⟨0x24, 1, 4, 0xFFFFFFFF, 0x0, 0x0, 0x0, 0x0⟩,
   ⟨0x28, 1, 4, 0x0, 0x0, 0x0, 0x0, 0x0⟩,
   ⟨0x2C, 1, 4, 0xFFFFFFFF, 0x0, 0x0, 0x0, 0x10006064⟩,
   ⟨0x30, 1, 4, 0x0, 0x0, 0x0, 0x0, 0x0⟩,
   ⟨0x34, 1, 4, 0x0, 0x0, 0x0, 0x0, 0x0⟩,
   ⟨0x38, 1, 4, 0x0, 0x0, 0x0, 0x0, 0x0⟩,
   ⟨0x3C, 1, 4, 0x0, 0x0, 0x0, 0x0, 0x0⟩,
   ⟨0x40, 1, 4, 0x0, 0x0, 0x0, 0x0, 0x0⟩,
   ⟨0x44, 1, 4, 0x0, 0x0, 0x0, 0x0, 0x40000⟩,
   ⟨0x48, 1, 4, 0x0, 0x0, 0x0, 0x0, 0x0⟩,
   ⟨0x4C, 1, 4, 0x0, 0x0, 0x0, 0x0, 0x0⟩,
   ⟨0x50, 1, 4, 0x0, 0x0, 0x0, 0x0, 0x0⟩,
   ⟨0x54, 1, 4, 0x0, 0x0, 0x0, 0x0, 0x0⟩,
   ⟨0x58, 1, 4, 0x1FFFFF, 0x0, 0x0, 0x0, 0x66064⟩,
   ⟨0x5C, 1, 4, 0xFFFFFFFF, 0x0, 0x0, 0x0, 0x500⟩,
   ⟨0x60, 1, 4, 0x0, 0x7E, 0x0, 0x0, 0x0⟩,
   ⟨0x64, 1, 4, 0x0, 0x0, 0x0, 0x0, 0x0⟩]

def PFB.block : RegBlock := ⟨0x00B00000, 0x100, 0x6000, PFB.rows⟩

/-! LPE_ registers: R146 of spec/07_loop_engine.md. -/

def LPEG.GCFG : Nat := 0x00CF0000
def LPEG.GCFG_FLE : Field := ⟨LPEG.GCFG, 0, 2⟩
def LPEG.GSTAT : Nat := 0x00CF0004
def LPEG.GSTAT_FC : Field := ⟨LPEG.GSTAT, 0, 16⟩
def LPEG.GSTAT_FRAME_ERR : Field := ⟨LPEG.GSTAT, 16, 1⟩
def LPEG.GSTAT_ECC_UNC : Field := ⟨LPEG.GSTAT, 17, 1⟩
def LPEG.GHELD (k : Nat) : Nat := 0x00CF0008 + 0x4 * k

def LPEG.rows : List RegRow :=
  [⟨0x0, 1, 4, 0x3, 0x0, 0x0, 0x0, 0x3⟩,
   ⟨0x4, 1, 4, 0x0, 0x30000, 0x0, 0x0, 0x0⟩,
   ⟨0x8, 3, 4, 0x0, 0x0, 0x0, 0x0, 0x0⟩]

def LPEG.block : RegBlock := ⟨0x00CF0000, 0x14, 0x14, LPEG.rows⟩

/-! LPE_S registers: R146 of spec/07_loop_engine.md. -/

def LPE.CFG (n : Nat) : Nat := 0x00C00000 + 0x200 * n
def LPE.CFG_EN (n : Nat) : Field := ⟨LPE.CFG n, 0, 1⟩
def LPE.CFG_NP (n : Nat) : Field := ⟨LPE.CFG n, 1, 3⟩
def LPE.CFG_NV (n : Nat) : Field := ⟨LPE.CFG n, 4, 3⟩
def LPE.CFG_CASC (n : Nat) : Field := ⟨LPE.CFG n, 7, 2⟩
def LPE.CFG_VSRC (n : Nat) : Field := ⟨LPE.CFG n, 9, 1⟩
def LPE.CFG_PSH (n : Nat) : Field := ⟨LPE.CFG n, 10, 5⟩
def LPE.CFG_VSH (n : Nat) : Field := ⟨LPE.CFG n, 15, 5⟩
def LPE.CFG_ASH (n : Nat) : Field := ⟨LPE.CFG n, 20, 5⟩
def LPE.CFG_DCCOMP (n : Nat) : Field := ⟨LPE.CFG n, 25, 1⟩
def LPE.CFG_RESUME_ZERO (n : Nat) : Field := ⟨LPE.CFG n, 26, 1⟩
def LPE.CTRL (n : Nat) : Nat := 0x00C00004 + 0x200 * n
def LPE.CTRL_SWAP (n : Nat) : Field := ⟨LPE.CTRL n, 0, 1⟩
def LPE.CTRL_RESET_INT (n : Nat) : Field := ⟨LPE.CTRL n, 1, 1⟩
def LPE.STAT (n : Nat) : Nat := 0x00C00008 + 0x200 * n
def LPE.STAT_ERR_ARG (n : Nat) : Field := ⟨LPE.STAT n, 0, 1⟩
def LPE.STAT_BANK_ERR (n : Nat) : Field := ⟨LPE.STAT n, 1, 1⟩
def LPE.STAT_SAT_AT_SWAP (n : Nat) : Field := ⟨LPE.STAT n, 2, 1⟩
def LPE.STAT_HK_STALE (n : Nat) : Field := ⟨LPE.STAT n, 3, 1⟩
def LPE.STAT_CLAMP_I (n : Nat) : Field := ⟨LPE.STAT n, 4, 1⟩
def LPE.STAT_CLAMP_U (n : Nat) : Field := ⟨LPE.STAT n, 5, 1⟩
def LPE.STAT_IN_SAT (n : Nat) : Field := ⟨LPE.STAT n, 6, 1⟩
def LPE.STAT_ECC_CORR (n : Nat) : Field := ⟨LPE.STAT n, 7, 1⟩
def LPE.STAT_CFG_ERR (n : Nat) : Field := ⟨LPE.STAT n, 8, 1⟩
def LPE.STAT_HELD (n : Nat) : Field := ⟨LPE.STAT n, 9, 1⟩
def LPE.STAT_HOLD_SRC (n : Nat) : Field := ⟨LPE.STAT n, 10, 3⟩
def LPE.STAT_ACT_BANK (n : Nat) : Field := ⟨LPE.STAT n, 13, 1⟩
def LPE.STAT_RUNNING (n : Nat) : Field := ⟨LPE.STAT n, 14, 1⟩
def LPE.REF (n : Nat) : Nat := 0x00C0000C + 0x200 * n
def LPE.REF_ID_REF (n : Nat) : Field := ⟨LPE.REF n, 0, 16⟩
def LPE.REF_IQ_REF (n : Nat) : Field := ⟨LPE.REF n, 16, 16⟩
def LPE.EMUL (n : Nat) : Nat := 0x00C00010 + 0x200 * n
def LPE.EOFS (n : Nat) : Nat := 0x00C00014 + 0x200 * n
def LPE.EOFS_EOFS (n : Nat) : Field := ⟨LPE.EOFS n, 0, 16⟩
def LPE.EOFS_UNOM (n : Nat) : Field := ⟨LPE.EOFS n, 16, 16⟩
def LPE.HOOK (n : Nat) : Nat := 0x00C00018 + 0x200 * n
def LPE.HOOK_HK0 (n : Nat) : Field := ⟨LPE.HOOK n, 0, 1⟩
def LPE.HOOK_HK4 (n : Nat) : Field := ⟨LPE.HOOK n, 1, 1⟩
def LPE.HOOK_HK1 (n : Nat) : Field := ⟨LPE.HOOK n, 2, 1⟩
def LPE.HOOK_HK2 (n : Nat) : Field := ⟨LPE.HOOK n, 3, 1⟩
def LPE.HOOK_HK3 (n : Nat) : Field := ⟨LPE.HOOK n, 4, 1⟩
def LPE.HOOK_ANG (n : Nat) : Field := ⟨LPE.HOOK n, 5, 1⟩
def LPE.HOOK_SP1 (n : Nat) : Field := ⟨LPE.HOOK n, 6, 2⟩
def LPE.HOOK_SP2 (n : Nat) : Field := ⟨LPE.HOOK n, 8, 2⟩
def LPE.HOOK_SP3 (n : Nat) : Field := ⟨LPE.HOOK n, 10, 2⟩
def LPE.HOOK_TAG (n : Nat) : Field := ⟨LPE.HOOK n, 16, 16⟩
def LPE.HKIN_VAL (n k : Nat) : Nat := 0x00C00020 + 0x200 * n + 0x8 * k
def LPE.HKIN_TAG (n k : Nat) : Nat := 0x00C00024 + 0x200 * n + 0x8 * k
def LPE.HKIN_TAG_V (n k : Nat) : Field := ⟨LPE.HKIN_TAG n k, 0, 8⟩
def LPE.HKOUT (n k : Nat) : Nat := 0x00C00040 + 0x200 * n + 0x4 * k
def LPE.INTC (n : Nat) : Nat := 0x00C00070 + 0x200 * n
def LPE.INTC_D (n : Nat) : Field := ⟨LPE.INTC n, 0, 16⟩
def LPE.INTC_Q (n : Nat) : Field := ⟨LPE.INTC n, 16, 16⟩
def LPE.INTV (n : Nat) : Nat := 0x00C00074 + 0x200 * n
def LPE.INTV_V (n : Nat) : Field := ⟨LPE.INTV n, 0, 16⟩
def LPE.INTV_VREF (n : Nat) : Field := ⟨LPE.INTV n, 16, 16⟩
def LPE.CNT (n : Nat) : Nat := 0x00C00078 + 0x200 * n
def LPE.CNT_STALE_CNT (n : Nat) : Field := ⟨LPE.CNT n, 0, 16⟩
def LPE.CNT_ECC_CNT (n : Nat) : Field := ⟨LPE.CNT n, 16, 16⟩
def LPE.CD_KP (n k : Nat) : Nat := 0x00C00100 + 0x200 * n + 0x80 * k
def LPE.CD_KP_K (n k : Nat) : Field := ⟨LPE.CD_KP n k, 0, 16⟩
def LPE.CD_KP_S (n k : Nat) : Field := ⟨LPE.CD_KP n k, 16, 4⟩
def LPE.CD_KI (n k : Nat) : Nat := 0x00C00104 + 0x200 * n + 0x80 * k
def LPE.CD_KI_K (n k : Nat) : Field := ⟨LPE.CD_KI n k, 0, 16⟩
def LPE.CD_KI_S (n k : Nat) : Field := ⟨LPE.CD_KI n k, 16, 4⟩
def LPE.CD_ILIM (n k : Nat) : Nat := 0x00C00108 + 0x200 * n + 0x80 * k
def LPE.CD_ILIM_MIN (n k : Nat) : Field := ⟨LPE.CD_ILIM n k, 0, 16⟩
def LPE.CD_ILIM_MAX (n k : Nat) : Field := ⟨LPE.CD_ILIM n k, 16, 16⟩
def LPE.CD_ULIM (n k : Nat) : Nat := 0x00C0010C + 0x200 * n + 0x80 * k
def LPE.CD_ULIM_MIN (n k : Nat) : Field := ⟨LPE.CD_ULIM n k, 0, 16⟩
def LPE.CD_ULIM_MAX (n k : Nat) : Field := ⟨LPE.CD_ULIM n k, 16, 16⟩
def LPE.CQ_KP (n k : Nat) : Nat := 0x00C00110 + 0x200 * n + 0x80 * k
def LPE.CQ_KP_K (n k : Nat) : Field := ⟨LPE.CQ_KP n k, 0, 16⟩
def LPE.CQ_KP_S (n k : Nat) : Field := ⟨LPE.CQ_KP n k, 16, 4⟩
def LPE.CQ_KI (n k : Nat) : Nat := 0x00C00114 + 0x200 * n + 0x80 * k
def LPE.CQ_KI_K (n k : Nat) : Field := ⟨LPE.CQ_KI n k, 0, 16⟩
def LPE.CQ_KI_S (n k : Nat) : Field := ⟨LPE.CQ_KI n k, 16, 4⟩
def LPE.CQ_ILIM (n k : Nat) : Nat := 0x00C00118 + 0x200 * n + 0x80 * k
def LPE.CQ_ILIM_MIN (n k : Nat) : Field := ⟨LPE.CQ_ILIM n k, 0, 16⟩
def LPE.CQ_ILIM_MAX (n k : Nat) : Field := ⟨LPE.CQ_ILIM n k, 16, 16⟩
def LPE.CQ_ULIM (n k : Nat) : Nat := 0x00C0011C + 0x200 * n + 0x80 * k
def LPE.CQ_ULIM_MIN (n k : Nat) : Field := ⟨LPE.CQ_ULIM n k, 0, 16⟩
def LPE.CQ_ULIM_MAX (n k : Nat) : Field := ⟨LPE.CQ_ULIM n k, 16, 16⟩
def LPE.V_KP (n k : Nat) : Nat := 0x00C00120 + 0x200 * n + 0x80 * k
def LPE.V_KP_K (n k : Nat) : Field := ⟨LPE.V_KP n k, 0, 16⟩
def LPE.V_KP_S (n k : Nat) : Field := ⟨LPE.V_KP n k, 16, 4⟩
def LPE.V_KI (n k : Nat) : Nat := 0x00C00124 + 0x200 * n + 0x80 * k
def LPE.V_KI_K (n k : Nat) : Field := ⟨LPE.V_KI n k, 0, 16⟩
def LPE.V_KI_S (n k : Nat) : Field := ⟨LPE.V_KI n k, 16, 4⟩
def LPE.V_ILIM (n k : Nat) : Nat := 0x00C00128 + 0x200 * n + 0x80 * k
def LPE.V_ILIM_MIN (n k : Nat) : Field := ⟨LPE.V_ILIM n k, 0, 16⟩
def LPE.V_ILIM_MAX (n k : Nat) : Field := ⟨LPE.V_ILIM n k, 16, 16⟩
def LPE.V_ULIM (n k : Nat) : Nat := 0x00C0012C + 0x200 * n + 0x80 * k
def LPE.V_ULIM_MIN (n k : Nat) : Field := ⟨LPE.V_ULIM n k, 0, 16⟩
def LPE.V_ULIM_MAX (n k : Nat) : Field := ⟨LPE.V_ULIM n k, 16, 16⟩
def LPE.P_KP (n k : Nat) : Nat := 0x00C00130 + 0x200 * n + 0x80 * k
def LPE.P_KP_K (n k : Nat) : Field := ⟨LPE.P_KP n k, 0, 16⟩
def LPE.P_KP_S (n k : Nat) : Field := ⟨LPE.P_KP n k, 16, 4⟩
def LPE.P_ULIM (n k : Nat) : Nat := 0x00C00134 + 0x200 * n + 0x80 * k
def LPE.P_ULIM_MIN (n k : Nat) : Field := ⟨LPE.P_ULIM n k, 0, 16⟩
def LPE.P_ULIM_MAX (n k : Nat) : Field := ⟨LPE.P_ULIM n k, 16, 16⟩
def LPE.FF (n k : Nat) : Nat := 0x00C00138 + 0x200 * n + 0x80 * k
def LPE.FF_KVF (n k : Nat) : Field := ⟨LPE.FF n k, 0, 16⟩
def LPE.FF_KAF (n k : Nat) : Field := ⟨LPE.FF n k, 16, 16⟩
def LPE.BQ1_0 (n k : Nat) : Nat := 0x00C0013C + 0x200 * n + 0x80 * k
def LPE.BQ1_0_B0 (n k : Nat) : Field := ⟨LPE.BQ1_0 n k, 0, 16⟩
def LPE.BQ1_0_B1 (n k : Nat) : Field := ⟨LPE.BQ1_0 n k, 16, 16⟩
def LPE.BQ1_1 (n k : Nat) : Nat := 0x00C00140 + 0x200 * n + 0x80 * k
def LPE.BQ1_1_B2 (n k : Nat) : Field := ⟨LPE.BQ1_1 n k, 0, 16⟩
def LPE.BQ1_1_A1 (n k : Nat) : Field := ⟨LPE.BQ1_1 n k, 16, 16⟩
def LPE.BQ1_2 (n k : Nat) : Nat := 0x00C00144 + 0x200 * n + 0x80 * k
def LPE.BQ1_2_A2 (n k : Nat) : Field := ⟨LPE.BQ1_2 n k, 0, 16⟩
def LPE.BQ2_0 (n k : Nat) : Nat := 0x00C00148 + 0x200 * n + 0x80 * k
def LPE.BQ2_0_B0 (n k : Nat) : Field := ⟨LPE.BQ2_0 n k, 0, 16⟩
def LPE.BQ2_0_B1 (n k : Nat) : Field := ⟨LPE.BQ2_0 n k, 16, 16⟩
def LPE.BQ2_1 (n k : Nat) : Nat := 0x00C0014C + 0x200 * n + 0x80 * k
def LPE.BQ2_1_B2 (n k : Nat) : Field := ⟨LPE.BQ2_1 n k, 0, 16⟩
def LPE.BQ2_1_A1 (n k : Nat) : Field := ⟨LPE.BQ2_1 n k, 16, 16⟩
def LPE.BQ2_2 (n k : Nat) : Nat := 0x00C00150 + 0x200 * n + 0x80 * k
def LPE.BQ2_2_A2 (n k : Nat) : Field := ⟨LPE.BQ2_2 n k, 0, 16⟩
def LPE.BCFG (n k : Nat) : Nat := 0x00C00154 + 0x200 * n + 0x80 * k
def LPE.BCFG_VMAX (n k : Nat) : Field := ⟨LPE.BCFG n k, 0, 16⟩
def LPE.BCFG_SWAP_INT (n k : Nat) : Field := ⟨LPE.BCFG n k, 16, 2⟩
def LPE.BCFG_AW (n k : Nat) : Field := ⟨LPE.BCFG n k, 18, 1⟩
def LPE.BCFG_BQ1_EN (n k : Nat) : Field := ⟨LPE.BCFG n k, 19, 1⟩
def LPE.BCFG_BQ2_EN (n k : Nat) : Field := ⟨LPE.BCFG n k, 20, 1⟩

def LPE.rows0 : List RegRow :=
  [⟨0x0, 1, 4, 0x7FFFFFF, 0x0, 0x0, 0x0, 0x1084000⟩,
   ⟨0x4, 1, 4, 0x0, 0x0, 0x3, 0x0, 0x0⟩,
   ⟨0x8, 1, 4, 0x0, 0x1FF, 0x0, 0x0, 0x0⟩,
   ⟨0xC, 1, 4, 0xFFFFFFFF, 0x0, 0x0, 0x0, 0x0⟩,
   ⟨0x10, 1, 4, 0xFFFFFFFF, 0x0, 0x0, 0x0, 0x0⟩,
   ⟨0x14, 1, 4, 0xFFFFFFFF, 0x0, 0x0, 0x0, 0x0⟩,
   ⟨0x18, 1, 4, 0xFFFF0FFF, 0x0, 0x0, 0x0, 0x0⟩,
   ⟨0x20, 3, 8, 0xFFFFFFFF, 0x0, 0x0, 0x0, 0x0⟩,
   ⟨0x24, 3, 8, 0xFF, 0x0, 0x0, 0x0, 0x0⟩,
   ⟨0x40, 8, 4, 0x0, 0x0, 0x0, 0x0, 0x0⟩,
   ⟨0x70, 1, 4, 0x0, 0x0, 0x0, 0x0, 0x0⟩,
   ⟨0x74, 1, 4, 0x0, 0x0, 0x0, 0x0, 0x0⟩,
   ⟨0x78, 1, 4, 0x0, 0x0, 0x0, 0x0, 0x0⟩,
   ⟨0x100, 2, 128, 0xFFFFF, 0x0, 0x0, 0x0, 0x0⟩,
   ⟨0x104, 2, 128, 0xFFFFF, 0x0, 0x0, 0x0, 0x0⟩,
   ⟨0x108, 2, 128, 0xFFFFFFFF, 0x0, 0x0, 0x0, 0x0⟩,
   ⟨0x10C, 2, 128, 0xFFFFFFFF, 0x0, 0x0, 0x0, 0x0⟩,
   ⟨0x110, 2, 128, 0xFFFFF, 0x0, 0x0, 0x0, 0x0⟩,
   ⟨0x114, 2, 128, 0xFFFFF, 0x0, 0x0, 0x0, 0x0⟩,
   ⟨0x118, 2, 128, 0xFFFFFFFF, 0x0, 0x0, 0x0, 0x0⟩,
   ⟨0x11C, 2, 128, 0xFFFFFFFF, 0x0, 0x0, 0x0, 0x0⟩,
   ⟨0x120, 2, 128, 0xFFFFF, 0x0, 0x0, 0x0, 0x0⟩,
   ⟨0x124, 2, 128, 0xFFFFF, 0x0, 0x0, 0x0, 0x0⟩,
   ⟨0x128, 2, 128, 0xFFFFFFFF, 0x0, 0x0, 0x0, 0x0⟩,
   ⟨0x12C, 2, 128, 0xFFFFFFFF, 0x0, 0x0, 0x0, 0x0⟩,
   ⟨0x130, 2, 128, 0xFFFFF, 0x0, 0x0, 0x0, 0x0⟩,
   ⟨0x134, 2, 128, 0xFFFFFFFF, 0x0, 0x0, 0x0, 0x0⟩,
   ⟨0x138, 2, 128, 0xFFFFFFFF, 0x0, 0x0, 0x0, 0x0⟩,
   ⟨0x13C, 2, 128, 0xFFFFFFFF, 0x0, 0x0, 0x0, 0x2000⟩,
   ⟨0x140, 2, 128, 0xFFFFFFFF, 0x0, 0x0, 0x0, 0x0⟩]

def LPE.rows1 : List RegRow :=
  [⟨0x144, 2, 128, 0xFFFF, 0x0, 0x0, 0x0, 0x0⟩,
   ⟨0x148, 2, 128, 0xFFFFFFFF, 0x0, 0x0, 0x0, 0x2000⟩,
   ⟨0x14C, 2, 128, 0xFFFFFFFF, 0x0, 0x0, 0x0, 0x0⟩,
   ⟨0x150, 2, 128, 0xFFFF, 0x0, 0x0, 0x0, 0x0⟩,
   ⟨0x154, 2, 128, 0x1FFFFF, 0x0, 0x0, 0x0, 0x0⟩]

def LPE.rows : List RegRow := LPE.rows0 ++ LPE.rows1

def LPE.block : RegBlock := ⟨0x00C00000, 0x200, 0xC000, LPE.rows⟩

/-! PRG_PG registers: R175 of spec/08_profiles_and_stepping.md. -/

def PRG.CFG (n : Nat) : Nat := 0x00D00000 + 0x100 * n
def PRG.CFG_SRC (n : Nat) : Field := ⟨PRG.CFG n, 0, 2⟩
def PRG.CFG_OUT (n : Nat) : Field := ⟨PRG.CFG n, 2, 2⟩
def PRG.CFG_MSRES (n : Nat) : Field := ⟨PRG.CFG n, 4, 4⟩
def PRG.CFG_STANDMODE (n : Nat) : Field := ⟨PRG.CFG n, 8, 2⟩
def PRG.CFG_STALL_ACT (n : Nat) : Field := ⟨PRG.CFG n, 10, 2⟩
def PRG.CFG_GMSRC (n : Nat) : Field := ⟨PRG.CFG n, 12, 1⟩
def PRG.CFG_GMIDX (n : Nat) : Field := ⟨PRG.CFG n, 13, 7⟩
def PRG.CTRL (n : Nat) : Nat := 0x00D00004 + 0x100 * n
def PRG.CTRL_RETARGET (n : Nat) : Field := ⟨PRG.CTRL n, 0, 1⟩
def PRG.CTRL_FLUSH (n : Nat) : Field := ⟨PRG.CTRL n, 1, 1⟩
def PRG.CTRL_GEAR_ARM (n : Nat) : Field := ⟨PRG.CTRL n, 2, 1⟩
def PRG.CTRL_LEARN (n : Nat) : Field := ⟨PRG.CTRL n, 3, 1⟩
def PRG.CTRL_LEARN_END (n : Nat) : Field := ⟨PRG.CTRL n, 4, 1⟩
def PRG.STAT (n : Nat) : Nat := 0x00D00008 + 0x100 * n
def PRG.STAT_ERR_ARG (n : Nat) : Field := ⟨PRG.STAT n, 0, 1⟩
def PRG.STAT_OWN_ERR (n : Nat) : Field := ⟨PRG.STAT n, 1, 1⟩
def PRG.STAT_CFG_ERR (n : Nat) : Field := ⟨PRG.STAT n, 2, 1⟩
def PRG.STAT_TGT_CLAMP (n : Nat) : Field := ⟨PRG.STAT n, 3, 1⟩
def PRG.STAT_LIMIT_STOP (n : Nat) : Field := ⟨PRG.STAT n, 4, 1⟩
def PRG.STAT_LIMIT_RISK (n : Nat) : Field := ⟨PRG.STAT n, 5, 1⟩
def PRG.STAT_AT_TARGET (n : Nat) : Field := ⟨PRG.STAT n, 6, 1⟩
def PRG.STAT_TRACK (n : Nat) : Field := ⟨PRG.STAT n, 7, 1⟩
def PRG.STAT_SS1 (n : Nat) : Field := ⟨PRG.STAT n, 8, 1⟩
def PRG.STAT_SLS_LIMIT (n : Nat) : Field := ⟨PRG.STAT n, 9, 1⟩
def PRG.STAT_STARVED (n : Nat) : Field := ⟨PRG.STAT n, 10, 1⟩
def PRG.STAT_KNOT_ERR (n : Nat) : Field := ⟨PRG.STAT n, 11, 1⟩
def PRG.STAT_KNOT_OVF (n : Nat) : Field := ⟨PRG.STAT n, 12, 1⟩
def PRG.STAT_KNOT_LATE (n : Nat) : Field := ⟨PRG.STAT n, 13, 1⟩
def PRG.STAT_GEAR_ARMED (n : Nat) : Field := ⟨PRG.STAT n, 14, 1⟩
def PRG.STAT_GEAR_RAMP (n : Nat) : Field := ⟨PRG.STAT n, 15, 1⟩
def PRG.STAT_GEAR_SLIP (n : Nat) : Field := ⟨PRG.STAT n, 16, 1⟩
def PRG.STAT_STALL (n : Nat) : Field := ⟨PRG.STAT n, 17, 1⟩
def PRG.STAT_CAL_STALE (n : Nat) : Field := ⟨PRG.STAT n, 18, 1⟩
def PRG.STAT_LEARNING (n : Nat) : Field := ⟨PRG.STAT n, 19, 1⟩
def PRG.STAT_LEARN_INC (n : Nat) : Field := ⟨PRG.STAT n, 20, 1⟩
def PRG.STAT_LA_STALE (n : Nat) : Field := ⟨PRG.STAT n, 21, 1⟩
def PRG.STAT_STANDSTILL (n : Nat) : Field := ⟨PRG.STAT n, 22, 1⟩
def PRG.CNT (n : Nat) : Nat := 0x00D0000C + 0x100 * n
def PRG.CNT_STALL_CNT (n : Nat) : Field := ⟨PRG.CNT n, 0, 16⟩
def PRG.CNT_KNOT_ERR_CNT (n : Nat) : Field := ⟨PRG.CNT n, 16, 16⟩
def PRG.VMAX (n : Nat) : Nat := 0x00D00010 + 0x100 * n
def PRG.AMAX (n : Nat) : Nat := 0x00D00014 + 0x100 * n
def PRG.DMAX (n : Nat) : Nat := 0x00D00018 + 0x100 * n
def PRG.JMAX (n : Nat) : Nat := 0x00D0001C + 0x100 * n
def PRG.EDEC (n : Nat) : Nat := 0x00D00020 + 0x100 * n
def PRG.VMOVE (n : Nat) : Nat := 0x00D00024 + 0x100 * n
def PRG.AMOVE (n : Nat) : Nat := 0x00D00028 + 0x100 * n
def PRG.DMOVE (n : Nat) : Nat := 0x00D0002C + 0x100 * n
def PRG.TGT_L (n : Nat) : Nat := 0x00D00030 + 0x100 * n
def PRG.TGT_H (n : Nat) : Nat := 0x00D00034 + 0x100 * n
def PRG.PLO_L (n : Nat) : Nat := 0x00D00038 + 0x100 * n
def PRG.PLO_H (n : Nat) : Nat := 0x00D0003C + 0x100 * n
def PRG.PHI_L (n : Nat) : Nat := 0x00D00040 + 0x100 * n
def PRG.PHI_H (n : Nat) : Nat := 0x00D00044 + 0x100 * n
def PRG.POS_L (n : Nat) : Nat := 0x00D00048 + 0x100 * n
def PRG.POS_H (n : Nat) : Nat := 0x00D0004C + 0x100 * n
def PRG.VEL (n : Nat) : Nat := 0x00D00050 + 0x100 * n
def PRG.ACC (n : Nat) : Nat := 0x00D00054 + 0x100 * n
def PRG.VSLS (n : Nat) : Nat := 0x00D00058 + 0x100 * n
def PRG.LOOK (n : Nat) : Nat := 0x00D0005C + 0x100 * n
def PRG.LOOK_LOOK (n : Nat) : Field := ⟨PRG.LOOK n, 0, 16⟩
def PRG.LOOK_QLEN (n : Nat) : Field := ⟨PRG.LOOK n, 16, 6⟩
def PRG.GN (n : Nat) : Nat := 0x00D00060 + 0x100 * n
def PRG.GD (n : Nat) : Nat := 0x00D00064 + 0x100 * n
def PRG.GOFS_L (n : Nat) : Nat := 0x00D00068 + 0x100 * n
def PRG.GOFS_H (n : Nat) : Nat := 0x00D0006C + 0x100 * n
def PRG.MCHG_L (n : Nat) : Nat := 0x00D00070 + 0x100 * n
def PRG.MCHG_H (n : Nat) : Nat := 0x00D00074 + 0x100 * n
def PRG.LRAMP (n : Nat) : Nat := 0x00D00078 + 0x100 * n
def PRG.GN_NEW (n : Nat) : Nat := 0x00D0007C + 0x100 * n
def PRG.GD_NEW (n : Nat) : Nat := 0x00D00080 + 0x100 * n
def PRG.GLAG (n : Nat) : Nat := 0x00D00084 + 0x100 * n
def PRG.COIL (n : Nat) : Nat := 0x00D00088 + 0x100 * n
def PRG.COIL_I_RUN (n : Nat) : Field := ⟨PRG.COIL n, 0, 16⟩
def PRG.COIL_I_HOLD (n : Nat) : Field := ⟨PRG.COIL n, 16, 16⟩
def PRG.CHOP (n : Nat) : Nat := 0x00D0008C + 0x100 * n
def PRG.CHOP_TOFF (n : Nat) : Field := ⟨PRG.CHOP n, 0, 14⟩
def PRG.CHOP_TBLANK (n : Nat) : Field := ⟨PRG.CHOP n, 14, 9⟩
def PRG.CHOP_FAST (n : Nat) : Field := ⟨PRG.CHOP n, 23, 7⟩
def PRG.STAND (n : Nat) : Nat := 0x00D00090 + 0x100 * n
def PRG.STAND_TSTAND (n : Nat) : Field := ⟨PRG.STAND n, 0, 14⟩
def PRG.LA (n : Nat) : Nat := 0x00D00094 + 0x100 * n
def PRG.LA_LA (n : Nat) : Field := ⟨PRG.LA n, 0, 16⟩
def PRG.LA_TAG (n : Nat) : Field := ⟨PRG.LA n, 16, 8⟩
def PRG.STALLTH (n : Nat) : Nat := 0x00D00098 + 0x100 * n
def PRG.STALLTH_LA_ABS (n : Nat) : Field := ⟨PRG.STALLTH n, 0, 16⟩
def PRG.STALLTH_MARGIN (n : Nat) : Field := ⟨PRG.STALLTH n, 16, 16⟩
def PRG.CALTH (n : Nat) : Nat := 0x00D0009C + 0x100 * n
def PRG.CALTH_CAL_WIDEN (n : Nat) : Field := ⟨PRG.CALTH n, 0, 16⟩
def PRG.CALTH_CAL_BAND (n : Nat) : Field := ⟨PRG.CALTH n, 16, 16⟩
def PRG.CALV (n : Nat) : Nat := 0x00D000A0 + 0x100 * n
def PRG.CALV_CAL_VSTEP (n : Nat) : Field := ⟨PRG.CALV n, 0, 24⟩
def PRG.CALV_STALL_N (n : Nat) : Field := ⟨PRG.CALV n, 24, 8⟩
def PRG.CAL (n k : Nat) : Nat := 0x00D000A4 + 0x100 * n + 0x4 * k
def PRG.CAL_LOW (n k : Nat) : Field := ⟨PRG.CAL n k, 0, 16⟩
def PRG.CAL_HIGH (n k : Nat) : Field := ⟨PRG.CAL n k, 16, 16⟩
def PRG.RESID (n : Nat) : Nat := 0x00D000B4 + 0x100 * n
def PRG.RESID_RESID (n : Nat) : Field := ⟨PRG.RESID n, 0, 16⟩
def PRG.SPLAG (n : Nat) : Nat := 0x00D000B8 + 0x100 * n
def PRG.KNOT (n k : Nat) : Nat := 0x00D000C0 + 0x100 * n + 0x4 * k

def PRG.rows0 : List RegRow :=
  [⟨0x0, 1, 4, 0xFFFFF, 0x0, 0x0, 0x0, 0x80⟩,
   ⟨0x4, 1, 4, 0x0, 0x0, 0x1F, 0x0, 0x0⟩,
   ⟨0x8, 1, 4, 0x0, 0x333E3F, 0x0, 0x0, 0x80⟩,
   ⟨0xC, 1, 4, 0x0, 0x0, 0x0, 0x0, 0x0⟩,
   ⟨0x10, 1, 4, 0xFFFFFFFF, 0x0, 0x0, 0x0, 0x0⟩,
   ⟨0x14, 1, 4, 0xFFFFFFFF, 0x0, 0x0, 0x0, 0x0⟩,
   ⟨0x18, 1, 4, 0xFFFFFFFF, 0x0, 0x0, 0x0, 0x0⟩,
   ⟨0x1C, 1, 4, 0xFFFFFFFF, 0x0, 0x0, 0x0, 0x0⟩,
   ⟨0x20, 1, 4, 0xFFFFFFFF, 0x0, 0x0, 0x0, 0x0⟩,
   ⟨0x24, 1, 4, 0xFFFFFFFF, 0x0, 0x0, 0x0, 0x0⟩,
   ⟨0x28, 1, 4, 0xFFFFFFFF, 0x0, 0x0, 0x0, 0x0⟩,
   ⟨0x2C, 1, 4, 0xFFFFFFFF, 0x0, 0x0, 0x0, 0x0⟩,
   ⟨0x30, 1, 4, 0xFFFFFFFF, 0x0, 0x0, 0x0, 0x0⟩,
   ⟨0x34, 1, 4, 0xFFFFFFFF, 0x0, 0x0, 0x0, 0x0⟩,
   ⟨0x38, 1, 4, 0xFFFFFFFF, 0x0, 0x0, 0x0, 0x0⟩,
   ⟨0x3C, 1, 4, 0xFFFFFFFF, 0x0, 0x0, 0x0, 0x80000000⟩,
   ⟨0x40, 1, 4, 0xFFFFFFFF, 0x0, 0x0, 0x0, 0xFFFFFFFF⟩,
   ⟨0x44, 1, 4, 0xFFFFFFFF, 0x0, 0x0, 0x0, 0x7FFFFFFF⟩,
   ⟨0x48, 1, 4, 0x0, 0x0, 0x0, 0x0, 0x0⟩,
   ⟨0x4C, 1, 4, 0x0, 0x0, 0x0, 0x0, 0x0⟩,
   ⟨0x50, 1, 4, 0x0, 0x0, 0x0, 0x0, 0x0⟩,
   ⟨0x54, 1, 4, 0x0, 0x0, 0x0, 0x0, 0x0⟩,
   ⟨0x58, 1, 4, 0x0, 0x0, 0x0, 0x0, 0xFFFFFFFF⟩,
   ⟨0x5C, 1, 4, 0x0, 0x0, 0x0, 0x0, 0x0⟩,
   ⟨0x60, 1, 4, 0xFFFFFFFF, 0x0, 0x0, 0x0, 0x1⟩,
   ⟨0x64, 1, 4, 0xFFFFFFFF, 0x0, 0x0, 0x0, 0x1⟩,
   ⟨0x68, 1, 4, 0x0, 0x0, 0x0, 0x0, 0x0⟩,
   ⟨0x6C, 1, 4, 0x0, 0x0, 0x0, 0x0, 0x0⟩,
   ⟨0x70, 1, 4, 0xFFFFFFFF, 0x0, 0x0, 0x0, 0x0⟩,
   ⟨0x74, 1, 4, 0xFFFFFFFF, 0x0, 0x0, 0x0, 0x0⟩]

def PRG.rows1 : List RegRow :=
  [⟨0x78, 1, 4, 0xFFFFFFFF, 0x0, 0x0, 0x0, 0x0⟩,
   ⟨0x7C, 1, 4, 0xFFFFFFFF, 0x0, 0x0, 0x0, 0x1⟩,
   ⟨0x80, 1, 4, 0xFFFFFFFF, 0x0, 0x0, 0x0, 0x1⟩,
   ⟨0x84, 1, 4, 0x0, 0x0, 0x0, 0x0, 0x0⟩,
   ⟨0x88, 1, 4, 0xFFFFFFFF, 0x0, 0x0, 0x0, 0x0⟩,
   ⟨0x8C, 1, 4, 0x3FFFFFFF, 0x0, 0x0, 0x0, 0xF1F49C4⟩,
   ⟨0x90, 1, 4, 0x3FFF, 0x0, 0x0, 0x0, 0x1F4⟩,
   ⟨0x94, 1, 4, 0xFFFFFF, 0x0, 0x0, 0x0, 0x0⟩,
   ⟨0x98, 1, 4, 0xFFFFFFFF, 0x0, 0x0, 0x0, 0x8004000⟩,
   ⟨0x9C, 1, 4, 0xFFFFFFFF, 0x0, 0x0, 0x0, 0x8000400⟩,
   ⟨0xA0, 1, 4, 0xFFFFFFFF, 0x0, 0x0, 0x0, 0x4000000⟩,
   ⟨0xA4, 4, 4, 0xFFFFFFFF, 0x0, 0x0, 0x0, 0x0⟩,
   ⟨0xB4, 1, 4, 0x0, 0x0, 0x0, 0x0, 0x0⟩,
   ⟨0xB8, 1, 4, 0x0, 0x0, 0x0, 0x0, 0x0⟩,
   ⟨0xC0, 8, 4, 0x0, 0x0, 0x0, 0xFFFFFFFF, 0x0⟩]

def PRG.rows : List RegRow := PRG.rows0 ++ PRG.rows1

def PRG.block : RegBlock := ⟨0x00D00000, 0x100, 0x8000, PRG.rows⟩

/-! NMG_ registers: R212 of spec/09_nutmeg_solver.md. -/

def NMG.CFG : Nat := 0x01000000
def NMG.CFG_AUTO_REFAC : Field := ⟨NMG.CFG, 0, 1⟩
def NMG.CFG_ADAPT_RHO : Field := ⟨NMG.CFG, 1, 1⟩
def NMG.CFG_REFINE_N : Field := ⟨NMG.CFG, 2, 2⟩
def NMG.CFG_CHECK_N : Field := ⟨NMG.CFG, 4, 4⟩
def NMG.CFG_REG_EXP : Field := ⟨NMG.CFG, 8, 5⟩
def NMG.CFG_REFAC_MIN : Field := ⟨NMG.CFG, 13, 5⟩
def NMG.TAGS : Nat := 0x01000004
def NMG.TAGS_CMD_TAG : Field := ⟨NMG.TAGS, 0, 16⟩
def NMG.TAGS_BUILD_TAG : Field := ⟨NMG.TAGS, 16, 16⟩
def NMG.CAP : Nat := 0x01000008
def NMG.CAP_MAX_ITER : Field := ⟨NMG.CAP, 0, 16⟩
def NMG.CAP_TIME_CAP : Field := ⟨NMG.CAP, 16, 16⟩
def NMG.SIGMA : Nat := 0x0100000C
def NMG.RELAX : Nat := 0x01000010
def NMG.RHO : Nat := 0x01000014
def NMG.RHOEQ : Nat := 0x01000018
def NMG.EPSABS : Nat := 0x0100001C
def NMG.EPSREL : Nat := 0x01000020
def NMG.EPSPI : Nat := 0x01000024
def NMG.EPSDI : Nat := 0x01000028
def NMG.STALE : Nat := 0x0100002C
def NMG.SUBMIT : Nat := 0x01000030
def NMG.SUBMIT_OFS : Field := ⟨NMG.SUBMIT, 0, 24⟩
def NMG.STAT : Nat := 0x01000034
def NMG.STAT_ERR_ARG : Field := ⟨NMG.STAT, 0, 1⟩
def NMG.STAT_QFULL : Field := ⟨NMG.STAT, 1, 1⟩
def NMG.STAT_BUSY : Field := ⟨NMG.STAT, 2, 1⟩
def NMG.STAT_BUILD : Field := ⟨NMG.STAT, 3, 1⟩
def NMG.STAT_REFAC_PEND : Field := ⟨NMG.STAT, 4, 1⟩
def NMG.STAT_FACTOR_STALE : Field := ⟨NMG.STAT, 5, 1⟩
def NMG.STAT_ECC_UNC : Field := ⟨NMG.STAT, 6, 1⟩
def NMG.STAT_ECC_CORR : Field := ⟨NMG.STAT, 7, 1⟩
def NMG.STAT_NONFINITE : Field := ⟨NMG.STAT, 8, 1⟩
def NMG.STAT_QLEN : Field := ⟨NMG.STAT, 9, 5⟩
def NMG.STAT_ACT_SLOT : Field := ⟨NMG.STAT, 14, 1⟩
def NMG.STAT_WARM_HELD : Field := ⟨NMG.STAT, 15, 1⟩
def NMG.CNT : Nat := 0x01000038
def NMG.CNT_SOLVES : Field := ⟨NMG.CNT, 0, 16⟩
def NMG.CNT_BUILDS : Field := ⟨NMG.CNT, 16, 16⟩
def NMG.LAST : Nat := 0x0100003C
def NMG.LAST_STATUS : Field := ⟨NMG.LAST, 0, 8⟩
def NMG.LAST_RESULT : Field := ⟨NMG.LAST, 8, 8⟩
def NMG.LAST_ITER : Field := ⟨NMG.LAST, 16, 16⟩
def NMG.SLOT_STAT (k : Nat) : Nat := 0x01000040 + 0x10 * k
def NMG.SLOT_STAT_STATE (k : Nat) : Field := ⟨NMG.SLOT_STAT k, 0, 2⟩
def NMG.SLOT_STAT_PIVOT_REG (k : Nat) : Field := ⟨NMG.SLOT_STAT k, 2, 1⟩
def NMG.SLOT_STAT_NONFINITE (k : Nat) : Field := ⟨NMG.SLOT_STAT k, 3, 1⟩
def NMG.SLOT_STAT_ECC_BAD (k : Nat) : Field := ⟨NMG.SLOT_STAT k, 4, 1⟩
def NMG.SLOT_STAT_KIND (k : Nat) : Field := ⟨NMG.SLOT_STAT k, 5, 1⟩
def NMG.SLOT_STAT_GEN (k : Nat) : Field := ⟨NMG.SLOT_STAT k, 16, 16⟩
def NMG.SLOT_TAG (k : Nat) : Nat := 0x01000044 + 0x10 * k
def NMG.SLOT_PIV (k : Nat) : Nat := 0x01000048 + 0x10 * k
def NMG.SLOT_PIV_PIVOT_CNT (k : Nat) : Field := ⟨NMG.SLOT_PIV k, 0, 16⟩
def NMG.SLOT_PIV_PIVOT_FIRST (k : Nat) : Field := ⟨NMG.SLOT_PIV k, 16, 14⟩
def NMG.SLOT_NNZL (k : Nat) : Nat := 0x0100004C + 0x10 * k
def NMG.SLOT_NNZL_NNZL (k : Nat) : Field := ⟨NMG.SLOT_NNZL k, 0, 21⟩

def NMG.rows : List RegRow :=
  [⟨0x0, 1, 4, 0x3FFFF, 0x0, 0x0, 0x0, 0x10A57⟩,
   ⟨0x4, 1, 4, 0xFFFFFFFF, 0x0, 0x0, 0x0, 0x0⟩,
   ⟨0x8, 1, 4, 0xFFFFFFFF, 0x0, 0x0, 0x0, 0xC8⟩,
   ⟨0xC, 1, 4, 0xFFFFFFFF, 0x0, 0x0, 0x0, 0x33D6BF95⟩,
   ⟨0x10, 1, 4, 0xFFFFFFFF, 0x0, 0x0, 0x0, 0x3FC00000⟩,
   ⟨0x14, 1, 4, 0xFFFFFFFF, 0x0, 0x0, 0x0, 0x3E800000⟩,
   ⟨0x18, 1, 4, 0xFFFFFFFF, 0x0, 0x0, 0x0, 0x43800000⟩,
   ⟨0x1C, 1, 4, 0xFFFFFFFF, 0x0, 0x0, 0x0, 0x38D1B717⟩,
   ⟨0x20, 1, 4, 0xFFFFFFFF, 0x0, 0x0, 0x0, 0x3B03126F⟩,
   ⟨0x24, 1, 4, 0xFFFFFFFF, 0x0, 0x0, 0x0, 0x3851B717⟩,
   ⟨0x28, 1, 4, 0xFFFFFFFF, 0x0, 0x0, 0x0, 0x3851B717⟩,
   ⟨0x2C, 1, 4, 0xFFFFFFFF, 0x0, 0x0, 0x0, 0x3E800000⟩,
   ⟨0x30, 1, 4, 0x0, 0x0, 0x0, 0xFFFFFF, 0x0⟩,
   ⟨0x34, 1, 4, 0x0, 0x1E3, 0x0, 0x0, 0x0⟩,
   ⟨0x38, 1, 4, 0x0, 0x0, 0x0, 0x0, 0x0⟩,
   ⟨0x3C, 1, 4, 0x0, 0x0, 0x0, 0x0, 0xF⟩,
   ⟨0x40, 2, 16, 0x0, 0x0, 0x0, 0x0, 0x0⟩,
   ⟨0x44, 2, 16, 0x0, 0x0, 0x0, 0x0, 0x0⟩,
   ⟨0x48, 2, 16, 0x0, 0x0, 0x0, 0x0, 0x0⟩,
   ⟨0x4C, 2, 16, 0x0, 0x0, 0x0, 0x0, 0x0⟩]

def NMG.block : RegBlock := ⟨0x01000000, 0x6C, 0x6C, NMG.rows⟩

/-! PLC_ registers: R230 of spec/10_planning_cycle.md. -/

def PLC.CFG : Nat := 0x01800000
def PLC.CFG_EN : Field := ⟨PLC.CFG, 0, 1⟩
def PLC.CFG_PERIOD : Field := ⟨PLC.CFG, 1, 2⟩
def PLC.CFG_TSEL : Field := ⟨PLC.CFG, 3, 7⟩
def PLC.CFG_LATE_MARGIN : Field := ⟨PLC.CFG, 10, 10⟩
def PLC.CFG_TPOST : Field := ⟨PLC.CFG, 20, 10⟩
def PLC.SNAP : Nat := 0x01800004
def PLC.SNAP_SNAPW : Field := ⟨PLC.SNAP, 0, 10⟩
def PLC.SNAP_HUMAN_AGE : Field := ⟨PLC.SNAP, 10, 12⟩
def PLC.TAGS : Nat := 0x01800008
def PLC.TAGS_PTAG : Field := ⟨PLC.TAGS, 0, 16⟩
def PLC.TAGS_DTAG : Field := ⟨PLC.TAGS, 16, 16⟩
def PLC.SEP : Nat := 0x0180000C
def PLC.SEP_M_HUM : Field := ⟨PLC.SEP, 0, 8⟩
def PLC.SEP_M_RR : Field := ⟨PLC.SEP, 8, 8⟩
def PLC.SEP_D_CONS : Field := ⟨PLC.SEP, 16, 12⟩
def PLC.REL : Nat := 0x01800010
def PLC.REL_REL_N : Field := ⟨PLC.REL, 0, 8⟩
def PLC.STAT : Nat := 0x01800014
def PLC.STAT_SOLVE_LATE : Field := ⟨PLC.STAT, 0, 1⟩
def PLC.STAT_PLAN_INVALID : Field := ⟨PLC.STAT, 1, 1⟩
def PLC.STAT_STATE_OLD : Field := ⟨PLC.STAT, 2, 1⟩
def PLC.STAT_HUMAN_OLD : Field := ⟨PLC.STAT, 3, 1⟩
def PLC.STAT_MAP_ERR : Field := ⟨PLC.STAT, 4, 1⟩
def PLC.STAT_PLAN_DROP : Field := ⟨PLC.STAT, 5, 1⟩
def PLC.STAT_ERR_ARG : Field := ⟨PLC.STAT, 6, 1⟩
def PLC.STAT_SLS_REQ : Field := ⟨PLC.STAT, 7, 1⟩
def PLC.STAT_MISS_RUN : Field := ⟨PLC.STAT, 8, 5⟩
def PLC.CNT : Nat := 0x01800018
def PLC.CNT_MISSES : Field := ⟨PLC.CNT, 0, 16⟩
def PLC.CNT_DROPS : Field := ⟨PLC.CNT, 16, 16⟩
def PLC.PLAN : Nat := 0x0180001C
def PLC.LAST : Nat := 0x01800020
def PLC.LAST_T_OUT : Field := ⟨PLC.LAST, 0, 16⟩
def PLC.LAST_T_SOLVE : Field := ⟨PLC.LAST, 16, 16⟩

def PLC.rows : List RegRow :=
  [⟨0x0, 1, 4, 0x3FFFFFFF, 0x0, 0x0, 0x0, 0x501900A⟩,
   ⟨0x4, 1, 4, 0x3FFFFF, 0x0, 0x0, 0x0, 0x2EE028⟩,
   ⟨0x8, 1, 4, 0xFFFFFFFF, 0x0, 0x0, 0x0, 0x0⟩,
   ⟨0xC, 1, 4, 0xFFFFFFF, 0x0, 0x0, 0x0, 0x5DC1419⟩,
   ⟨0x10, 1, 4, 0xFF, 0x0, 0x0, 0x0, 0x40⟩,
   ⟨0x14, 1, 4, 0x0, 0x7F, 0x0, 0x0, 0x0⟩,
   ⟨0x18, 1, 4, 0x0, 0x0, 0x0, 0x0, 0x0⟩,
   ⟨0x1C, 1, 4, 0x0, 0x0, 0x0, 0x0, 0x0⟩,
   ⟨0x20, 1, 4, 0x0, 0x0, 0x0, 0x0, 0x0⟩]

def PLC.block : RegBlock := ⟨0x01800000, 0x24, 0x24, PLC.rows⟩

/-! PLC_J registers: R230 of spec/10_planning_cycle.md. -/

def PLCJ.JMAP (n : Nat) : Nat := 0x01801000 + 0x10 * n
def PLCJ.JMAP_EN (n : Nat) : Field := ⟨PLCJ.JMAP n, 0, 1⟩
def PLCJ.JMAP_MOD (n : Nat) : Field := ⟨PLCJ.JMAP n, 1, 6⟩
def PLCJ.JMAP_PORT (n : Nat) : Field := ⟨PLCJ.JMAP n, 7, 7⟩
def PLCJ.JMAP_ARM (n : Nat) : Field := ⟨PLCJ.JMAP n, 14, 4⟩
def PLCJ.JMAP_IDX (n : Nat) : Field := ⟨PLCJ.JMAP n, 18, 4⟩
def PLCJ.JMAP_LIN (n : Nat) : Field := ⟨PLCJ.JMAP n, 22, 1⟩
def PLCJ.JSCL (n : Nat) : Nat := 0x01801004 + 0x10 * n
def PLCJ.JOFS (n : Nat) : Nat := 0x01801008 + 0x10 * n

def PLCJ.rows : List RegRow :=
  [⟨0x0, 1, 4, 0x7FFFFF, 0x0, 0x0, 0x0, 0x0⟩,
   ⟨0x4, 1, 4, 0xFFFFFFFF, 0x0, 0x0, 0x0, 0x3F800000⟩,
   ⟨0x8, 1, 4, 0xFFFFFFFF, 0x0, 0x0, 0x0, 0x0⟩]

def PLCJ.block : RegBlock := ⟨0x01801000, 0x10, 0x1000, PLCJ.rows⟩

/-! SAF_ registers: R277 of spec/11_saffron_safety.md. -/

def SAF.STAT : Nat := 0x01C00000
def SAF.STAT_PSET : Field := ⟨SAF.STAT, 0, 4⟩
def SAF.STAT_PSET_OK : Field := ⟨SAF.STAT, 4, 1⟩
def SAF.STAT_SEAL_OK : Field := ⟨SAF.STAT, 5, 1⟩
def SAF.STAT_COVER_OPEN : Field := ⟨SAF.STAT, 6, 1⟩
def SAF.STAT_DEGRADED : Field := ⟨SAF.STAT, 7, 1⟩
def SAF.STAT_DEG_USED : Field := ⟨SAF.STAT, 8, 1⟩
def SAF.STAT_REPORT : Field := ⟨SAF.STAT, 9, 1⟩
def SAF.STAT_CYCLE : Field := ⟨SAF.STAT, 16, 16⟩
def SAF.FAULT : Nat := 0x01C00004
def SAF.FAULT_CODE : Field := ⟨SAF.FAULT, 0, 8⟩
def SAF.FAULT_CLASS : Field := ⟨SAF.FAULT, 8, 2⟩
def SAF.FAULT_ARM : Field := ⟨SAF.FAULT, 10, 4⟩
def SAF.FAULT_ALL : Field := ⟨SAF.FAULT, 14, 1⟩
def SAF.FAULT_COUNT : Field := ⟨SAF.FAULT, 16, 16⟩
def SAF.PSET : Nat := 0x01C00008
def SAF.GSTO : Nat := 0x01C0000C
def SAF.GSTO_STO : Field := ⟨SAF.GSTO, 0, 12⟩
def SAF.GSTO_SWFAIL : Field := ⟨SAF.GSTO, 16, 12⟩
def SAF.SI : Nat := 0x01C00010
def SAF.SI_DEMAND : Field := ⟨SAF.SI, 0, 16⟩
def SAF.SI_TPOK : Field := ⟨SAF.SI, 16, 4⟩
def SAF.SIFLT : Nat := 0x01C00014
def SAF.SIFLT_FAULT : Field := ⟨SAF.SIFLT, 0, 16⟩
def SAF.DOOR : Nat := 0x01C00018
def SAF.DOOR_DLK : Field := ⟨SAF.DOOR, 0, 8⟩
def SAF.DOOR_CLOSED_LOCKED : Field := ⟨SAF.DOOR, 8, 8⟩
def SAF.DOOR_EDGE : Field := ⟨SAF.DOOR, 16, 8⟩
def SAF.CONN : Nat := 0x01C0001C
def SAF.DEG : Nat := 0x01C00020
def SAF.DEG_REMAIN : Field := ⟨SAF.DEG, 0, 16⟩
def SAF.CONNC (k : Nat) : Nat := 0x01C00400 + 0x4 * k
def SAF.CONNC_REJECTED (k : Nat) : Field := ⟨SAF.CONNC k, 0, 16⟩
def SAF.CONNC_LOST (k : Nat) : Field := ⟨SAF.CONNC k, 16, 16⟩
def SAF.REQ : Nat := 0x01C10000
def SAF.REQ_PLAN_SLS : Field := ⟨SAF.REQ, 0, 1⟩
def SAF.REQ_FOV_SS1 : Field := ⟨SAF.REQ, 1, 1⟩
def SAF.REQ_UNLOCK : Field := ⟨SAF.REQ, 8, 8⟩
def SAF.EST (k : Nat) : Nat := 0x01C11000 + 0x8 * k
def SAF.EST_TAG (k : Nat) : Nat := 0x01C11004 + 0x8 * k
def SAF.EST_TAG_V (k : Nat) : Field := ⟨SAF.EST_TAG k, 0, 8⟩

def SAF.rows : List RegRow :=
  [⟨0x0, 1, 4, 0x0, 0x0, 0x0, 0x0, 0x0⟩,
   ⟨0x4, 1, 4, 0x0, 0x0, 0x0, 0x0, 0x0⟩,
   ⟨0x8, 1, 4, 0x0, 0x0, 0x0, 0x0, 0x0⟩,
   ⟨0xC, 1, 4, 0x0, 0x0, 0x0, 0x0, 0xFFF⟩,
   ⟨0x10, 1, 4, 0x0, 0x0, 0x0, 0x0, 0xFFFF⟩,
   ⟨0x14, 1, 4, 0x0, 0x0, 0x0, 0x0, 0x0⟩,
   ⟨0x18, 1, 4, 0x0, 0x0, 0x0, 0x0, 0x0⟩,
   ⟨0x1C, 1, 4, 0x0, 0x0, 0x0, 0x0, 0x0⟩,
   ⟨0x20, 1, 4, 0x0, 0x0, 0x0, 0x0, 0x0⟩,
   ⟨0x400, 32, 4, 0x0, 0x0, 0x0, 0x0, 0x0⟩,
   ⟨0x10000, 1, 4, 0xFF03, 0x0, 0x0, 0x0, 0x0⟩,
   ⟨0x11000, 96, 8, 0xFFFFFFFF, 0x0, 0x0, 0x0, 0x0⟩,
   ⟨0x11004, 96, 8, 0xFF, 0x0, 0x0, 0x0, 0x0⟩]

def SAF.block : RegBlock := ⟨0x01C00000, 0x11304, 0x11304, SAF.rows⟩

/-! SAF_ARM registers: R277 of spec/11_saffron_safety.md. -/

def SAFA.STAT (n : Nat) : Nat := 0x01C00100 + 0x10 * n
def SAFA.STAT_STATE (n : Nat) : Field := ⟨SAFA.STAT n, 0, 3⟩
def SAFA.STAT_SLS_SRC (n : Nat) : Field := ⟨SAFA.STAT n, 3, 4⟩
def SAFA.STAT_STILL (n : Nat) : Field := ⟨SAFA.STAT n, 7, 1⟩
def SAFA.STAT_STO_CAUSE (n : Nat) : Field := ⟨SAFA.STAT n, 8, 8⟩
def SAFA.VLIM (n : Nat) : Nat := 0x01C00104 + 0x10 * n
def SAFA.DMIN (n : Nat) : Nat := 0x01C00108 + 0x10 * n
def SAFA.SPMIN (n : Nat) : Nat := 0x01C0010C + 0x10 * n

def SAFA.rows : List RegRow :=
  [⟨0x0, 1, 4, 0x0, 0x0, 0x0, 0x0, 0x4⟩,
   ⟨0x4, 1, 4, 0x0, 0x0, 0x0, 0x0, 0x0⟩,
   ⟨0x8, 1, 4, 0x0, 0x0, 0x0, 0x0, 0x0⟩,
   ⟨0xC, 1, 4, 0x0, 0x0, 0x0, 0x0, 0x0⟩]

def SAFA.block : RegBlock := ⟨0x01C00100, 0x10, 0x100, SAFA.rows⟩

/-! FIO_ registers: R299 of spec/12_doors_and_field_io.md. -/

def FIO.CHCFG (k : Nat) : Nat := 0x01E00000 + 0x4 * k
def FIO.CHCFG_MODE (k : Nat) : Field := ⟨FIO.CHCFG k, 0, 2⟩
def FIO.CHCFG_FILT (k : Nat) : Field := ⟨FIO.CHCFG k, 2, 4⟩
def FIO.CHCFG_WB_EN (k : Nat) : Field := ⟨FIO.CHCFG k, 6, 1⟩
def FIO.CHCFG_FS (k : Nat) : Field := ⟨FIO.CHCFG k, 7, 1⟩
def FIO.CHCFG_INV (k : Nat) : Field := ⟨FIO.CHCFG k, 8, 1⟩
def FIO.IN : Nat := 0x01E00080
def FIO.OUT : Nat := 0x01E00088
def FIO.OUTSET : Nat := 0x01E0008C
def FIO.OUTCLR : Nat := 0x01E00090
def FIO.CHFLT : Nat := 0x01E00094
def FIO.OUTACT : Nat := 0x01E00098
def FIO.CAUSE (k : Nat) : Nat := 0x01E000A0 + 0x4 * k

def FIO.rows : List RegRow :=
  [⟨0x0, 32, 4, 0x1FF, 0x0, 0x0, 0x0, 0xC⟩,
   ⟨0x80, 1, 4, 0x0, 0x0, 0x0, 0x0, 0x0⟩,
   ⟨0x88, 1, 4, 0xFFFFFFFF, 0x0, 0x0, 0x0, 0x0⟩,
   ⟨0x8C, 1, 4, 0x0, 0x0, 0x0, 0xFFFFFFFF, 0x0⟩,
   ⟨0x90, 1, 4, 0x0, 0x0, 0x0, 0xFFFFFFFF, 0x0⟩,
   ⟨0x94, 1, 4, 0x0, 0xFFFFFFFF, 0x0, 0x0, 0x0⟩,
   ⟨0x98, 1, 4, 0x0, 0x0, 0x0, 0x0, 0x0⟩,
   ⟨0xA0, 2, 4, 0x0, 0x0, 0x0, 0x0, 0x0⟩]

def FIO.block : RegBlock := ⟨0x01E00000, 0xA8, 0xA8, FIO.rows⟩

/-! FIO_B registers: R299 of spec/12_doors_and_field_io.md. -/

def FIOB.STAT (n : Nat) : Nat := 0x01E00100 + 0x10 * n
def FIOB.STAT_FAULT (n : Nat) : Field := ⟨FIOB.STAT n, 0, 1⟩
def FIOB.STAT_SAG (n : Nat) : Field := ⟨FIOB.STAT n, 1, 1⟩
def FIOB.STAT_VALID (n : Nat) : Field := ⟨FIOB.STAT n, 2, 1⟩
def FIOB.STAT_OUTOFF (n : Nat) : Field := ⟨FIOB.STAT n, 3, 1⟩
def FIOB.STAT_REARM_REFUSED (n : Nat) : Field := ⟨FIOB.STAT n, 4, 1⟩
def FIOB.STAT_CHFAULT (n : Nat) : Field := ⟨FIOB.STAT n, 5, 1⟩
def FIOB.CTRL (n : Nat) : Nat := 0x01E00104 + 0x10 * n
def FIOB.CTRL_OUT_REARM (n : Nat) : Field := ⟨FIOB.CTRL n, 0, 1⟩
def FIOB.VF (n : Nat) : Nat := 0x01E00108 + 0x10 * n
def FIOB.VF_V (n : Nat) : Field := ⟨FIOB.VF n, 0, 16⟩

def FIOB.rows : List RegRow :=
  [⟨0x0, 1, 4, 0x0, 0x11, 0x0, 0x0, 0x8⟩,
   ⟨0x4, 1, 4, 0x0, 0x0, 0x1, 0x0, 0x0⟩,
   ⟨0x8, 1, 4, 0x0, 0x0, 0x0, 0x0, 0x0⟩]

def FIOB.block : RegBlock := ⟨0x01E00100, 0x10, 0x20, FIOB.rows⟩

/-! DOR_D registers: R300 of spec/12_doors_and_field_io.md. -/

def DOR.CFG (n : Nat) : Nat := 0x01E10000 + 0x100 * n
def DOR.CFG_EN (n : Nat) : Field := ⟨DOR.CFG n, 0, 1⟩
def DOR.CFG_PORT (n : Nat) : Field := ⟨DOR.CFG n, 1, 7⟩
def DOR.CFG_OBS_N (n : Nat) : Field := ⟨DOR.CFG n, 8, 4⟩
def DOR.CMD (n : Nat) : Nat := 0x01E10004 + 0x100 * n
def DOR.CMD_CMD (n : Nat) : Field := ⟨DOR.CMD n, 0, 4⟩
def DOR.CMD_SEQ (n : Nat) : Field := ⟨DOR.CMD n, 16, 16⟩
def DOR.RES (n : Nat) : Nat := 0x01E10008 + 0x100 * n
def DOR.RES_RESULT (n : Nat) : Field := ⟨DOR.RES n, 0, 8⟩
def DOR.RES_SEQ (n : Nat) : Field := ⟨DOR.RES n, 16, 16⟩
def DOR.STAT (n : Nat) : Nat := 0x01E1000C + 0x100 * n
def DOR.STAT_STATE (n : Nat) : Field := ⟨DOR.STAT n, 0, 4⟩
def DOR.STAT_OBSTACLE (n : Nat) : Field := ⟨DOR.STAT n, 4, 1⟩
def DOR.STAT_CAL_STALE (n : Nat) : Field := ⟨DOR.STAT n, 5, 1⟩
def DOR.STAT_LEARNING (n : Nat) : Field := ⟨DOR.STAT n, 6, 1⟩
def DOR.STAT_LEARN_INC (n : Nat) : Field := ⟨DOR.STAT n, 7, 1⟩
def DOR.STAT_LOCK_TO (n : Nat) : Field := ⟨DOR.STAT n, 8, 1⟩
def DOR.STAT_FB_ERR (n : Nat) : Field := ⟨DOR.STAT n, 9, 1⟩
def DOR.STAT_ERR_ARG (n : Nat) : Field := ⟨DOR.STAT n, 10, 1⟩
def DOR.STAT_STOP_CAUSE (n : Nat) : Field := ⟨DOR.STAT n, 12, 4⟩
def DOR.POSCL (n : Nat) : Nat := 0x01E10010 + 0x100 * n
def DOR.POSOP (n : Nat) : Nat := 0x01E10014 + 0x100 * n
def DOR.REV (n : Nat) : Nat := 0x01E10018 + 0x100 * n
def DOR.VRUN (n : Nat) : Nat := 0x01E1001C + 0x100 * n
def DOR.VREV (n : Nat) : Nat := 0x01E10020 + 0x100 * n
def DOR.KP (n : Nat) : Nat := 0x01E10024 + 0x100 * n
def DOR.KF (n : Nat) : Nat := 0x01E10028 + 0x100 * n
def DOR.UMAX (n : Nat) : Nat := 0x01E1002C + 0x100 * n
def DOR.UMAX_V (n : Nat) : Field := ⟨DOR.UMAX n, 0, 16⟩
def DOR.FTH (n : Nat) : Nat := 0x01E10030 + 0x100 * n
def DOR.FTH_F_ABS (n : Nat) : Field := ⟨DOR.FTH n, 0, 16⟩
def DOR.FTH_MARGIN (n : Nat) : Field := ⟨DOR.FTH n, 16, 16⟩
def DOR.CALTH (n : Nat) : Nat := 0x01E10034 + 0x100 * n
def DOR.CALTH_CAL_WIDEN (n : Nat) : Field := ⟨DOR.CALTH n, 0, 16⟩
def DOR.CALTH_CAL_BAND (n : Nat) : Field := ⟨DOR.CALTH n, 16, 16⟩
def DOR.TIME (n : Nat) : Nat := 0x01E10038 + 0x100 * n
def DOR.TIME_T_LOCK (n : Nat) : Field := ⟨DOR.TIME n, 0, 8⟩
def DOR.TIME_T_GRANT (n : Nat) : Field := ⟨DOR.TIME n, 8, 8⟩
def DOR.FORCE (n : Nat) : Nat := 0x01E1003C + 0x100 * n
def DOR.FORCE_F (n : Nat) : Field := ⟨DOR.FORCE n, 0, 16⟩
def DOR.FORCE_TH (n : Nat) : Field := ⟨DOR.FORCE n, 16, 16⟩
def DOR.RESID (n : Nat) : Nat := 0x01E10040 + 0x100 * n
def DOR.RESID_RESID (n : Nat) : Field := ⟨DOR.RESID n, 0, 16⟩
def DOR.RESID_LOADCAL (n : Nat) : Field := ⟨DOR.RESID n, 16, 16⟩
def DOR.CYC (n : Nat) : Nat := 0x01E10044 + 0x100 * n
def DOR.LEARNED (n : Nat) : Nat := 0x01E10048 + 0x100 * n
def DOR.LEARNED2 (n : Nat) : Nat := 0x01E1004C + 0x100 * n
def DOR.PROFO (n k : Nat) : Nat := 0x01E10080 + 0x100 * n + 0x4 * k
def DOR.PROFO_LOW (n k : Nat) : Field := ⟨DOR.PROFO n k, 0, 16⟩
def DOR.PROFO_HIGH (n k : Nat) : Field := ⟨DOR.PROFO n k, 16, 16⟩
def DOR.PROFC (n k : Nat) : Nat := 0x01E100C0 + 0x100 * n + 0x4 * k
def DOR.PROFC_LOW (n k : Nat) : Field := ⟨DOR.PROFC n k, 0, 16⟩
def DOR.PROFC_HIGH (n k : Nat) : Field := ⟨DOR.PROFC n k, 16, 16⟩

def DOR.rows : List RegRow :=
  [⟨0x0, 1, 4, 0xFFF, 0x0, 0x0, 0x0, 0x400⟩,
   ⟨0x4, 1, 4, 0x0, 0x0, 0x0, 0xFFFF000F, 0x0⟩,
   ⟨0x8, 1, 4, 0x0, 0x0, 0x0, 0x0, 0x0⟩,
   ⟨0xC, 1, 4, 0x0, 0x790, 0x0, 0x0, 0x0⟩,
   ⟨0x10, 1, 4, 0xFFFFFFFF, 0x0, 0x0, 0x0, 0x0⟩,
   ⟨0x14, 1, 4, 0xFFFFFFFF, 0x0, 0x0, 0x0, 0x0⟩,
   ⟨0x18, 1, 4, 0xFFFFFFFF, 0x0, 0x0, 0x0, 0x0⟩,
   ⟨0x1C, 1, 4, 0xFFFFFFFF, 0x0, 0x0, 0x0, 0x0⟩,
   ⟨0x20, 1, 4, 0xFFFFFFFF, 0x0, 0x0, 0x0, 0x0⟩,
   ⟨0x24, 1, 4, 0xFFFFFFFF, 0x0, 0x0, 0x0, 0x0⟩,
   ⟨0x28, 1, 4, 0xFFFFFFFF, 0x0, 0x0, 0x0, 0x0⟩,
   ⟨0x2C, 1, 4, 0xFFFF, 0x0, 0x0, 0x0, 0x0⟩,
   ⟨0x30, 1, 4, 0xFFFFFFFF, 0x0, 0x0, 0x0, 0x8004000⟩,
   ⟨0x34, 1, 4, 0xFFFFFFFF, 0x0, 0x0, 0x0, 0x8000400⟩,
   ⟨0x38, 1, 4, 0xFFFF, 0x0, 0x0, 0x0, 0x6432⟩,
   ⟨0x3C, 1, 4, 0x0, 0x0, 0x0, 0x0, 0x0⟩,
   ⟨0x40, 1, 4, 0x0, 0x0, 0x0, 0x0, 0x0⟩,
   ⟨0x44, 1, 4, 0x0, 0x0, 0x0, 0x0, 0x0⟩,
   ⟨0x48, 1, 4, 0x0, 0x0, 0x0, 0x0, 0x0⟩,
   ⟨0x4C, 1, 4, 0x0, 0x0, 0x0, 0x0, 0x0⟩,
   ⟨0x80, 16, 4, 0xFFFFFFFF, 0x0, 0x0, 0x0, 0x0⟩,
   ⟨0xC0, 16, 4, 0xFFFFFFFF, 0x0, 0x0, 0x0, 0x0⟩]

def DOR.block : RegBlock := ⟨0x01E10000, 0x100, 0x800, DOR.rows⟩

/-! CAP_ registers: R313 of spec/13_capture_engine.md. -/

def CAP.CFG : Nat := 0x00E00000
def CAP.CFG_MODE : Field := ⟨CAP.CFG, 0, 2⟩
def CAP.CFG_DIV : Field := ⟨CAP.CFG, 2, 12⟩
def CAP.CFG_DEC_MIN : Field := ⟨CAP.CFG, 14, 4⟩
def CAP.CFG_HOLDMODE : Field := ⟨CAP.CFG, 18, 1⟩
def CAP.LEN : Nat := 0x00E00004
def CAP.LEN_PRE : Field := ⟨CAP.LEN, 0, 14⟩
def CAP.LEN_POST : Field := ⟨CAP.LEN, 14, 16⟩
def CAP.TRIG : Nat := 0x00E00008
def CAP.TRIG_SRC : Field := ⟨CAP.TRIG, 0, 3⟩
def CAP.TRIG_KIND : Field := ⟨CAP.TRIG, 3, 2⟩
def CAP.TRIG_POL : Field := ⟨CAP.TRIG, 5, 1⟩
def CAP.TRIG_PROBE : Field := ⟨CAP.TRIG, 6, 9⟩
def CAP.TRIG_IDX : Field := ⟨CAP.TRIG, 15, 7⟩
def CAP.THHI : Nat := 0x00E0000C
def CAP.THLO : Nat := 0x00E00010
def CAP.HOLD : Nat := 0x00E00014
def CAP.HOLD_V : Field := ⟨CAP.HOLD, 0, 24⟩
def CAP.TOKEN : Nat := 0x00E00018
def CAP.TOKEN_TAG : Field := ⟨CAP.TOKEN, 0, 16⟩
def CAP.SPBASE : Nat := 0x00E0001C
def CAP.SPBASE_V : Field := ⟨CAP.SPBASE, 0, 24⟩
def CAP.CTRL : Nat := 0x00E00020
def CAP.CTRL_START : Field := ⟨CAP.CTRL, 0, 1⟩
def CAP.CTRL_STOP : Field := ⟨CAP.CTRL, 1, 1⟩
def CAP.CTRL_FORCE : Field := ⟨CAP.CTRL, 2, 1⟩
def CAP.STAT : Nat := 0x00E00024
def CAP.STAT_STATE : Field := ⟨CAP.STAT, 0, 3⟩
def CAP.STAT_REC : Field := ⟨CAP.STAT, 3, 1⟩
def CAP.STAT_DEC_UP : Field := ⟨CAP.STAT, 4, 1⟩
def CAP.STAT_NO_ROOM : Field := ⟨CAP.STAT, 5, 1⟩
def CAP.STAT_ERR_ARG : Field := ⟨CAP.STAT, 6, 1⟩
def CAP.STAT_TRUNC : Field := ⟨CAP.STAT, 7, 1⟩
def CAP.STAT_DEC : Field := ⟨CAP.STAT, 8, 4⟩
def CAP.WRPTR : Nat := 0x00E00028
def CAP.RDPTR : Nat := 0x00E0002C
def CAP.CNT : Nat := 0x00E00030
def CAP.CNT_RECORDS : Field := ⟨CAP.CNT, 0, 16⟩
def CAP.CNT_MISSED : Field := ⟨CAP.CNT, 16, 16⟩
def CAP.CH (k : Nat) : Nat := 0x00E00040 + 0x4 * k
def CAP.CH_PROBE (k : Nat) : Field := ⟨CAP.CH k, 0, 9⟩
def CAP.CH_EN (k : Nat) : Field := ⟨CAP.CH k, 9, 1⟩

def CAP.rows : List RegRow :=
  [⟨0x0, 1, 4, 0x7FFFF, 0x0, 0x0, 0x0, 0x4⟩,
   ⟨0x4, 1, 4, 0x3FFFFFFF, 0x0, 0x0, 0x0, 0x4000⟩,
   ⟨0x8, 1, 4, 0x3FFFFF, 0x0, 0x0, 0x0, 0x5⟩,
   ⟨0xC, 1, 4, 0xFFFFFFFF, 0x0, 0x0, 0x0, 0x0⟩,
   ⟨0x10, 1, 4, 0xFFFFFFFF, 0x0, 0x0, 0x0, 0x0⟩,
   ⟨0x14, 1, 4, 0xFFFFFF, 0x0, 0x0, 0x0, 0x0⟩,
   ⟨0x18, 1, 4, 0xFFFF, 0x0, 0x0, 0x0, 0x0⟩,
   ⟨0x1C, 1, 4, 0xFFFFFF, 0x0, 0x0, 0x0, 0x0⟩,
   ⟨0x20, 1, 4, 0x0, 0x0, 0x7, 0x0, 0x0⟩,
   ⟨0x24, 1, 4, 0x0, 0xF8, 0x0, 0x0, 0x0⟩,
   ⟨0x28, 1, 4, 0x0, 0x0, 0x0, 0x0, 0x0⟩,
   ⟨0x2C, 1, 4, 0xFFFFFFFF, 0x0, 0x0, 0x0, 0x0⟩,
   ⟨0x30, 1, 4, 0x0, 0x0, 0x0, 0x0, 0x0⟩,
   ⟨0x40, 16, 4, 0x3FF, 0x0, 0x0, 0x0, 0x0⟩]

def CAP.block : RegBlock := ⟨0x00E00000, 0x80, 0x80, CAP.rows⟩

/-! CLV_ registers: R336 of spec/14_clove_dispatcher.md. -/

def CLV.CTXBASE : Nat := 0x00200000
def CLV.CTXBASE_V : Field := ⟨CLV.CTXBASE, 0, 24⟩
def CLV.GBASE : Nat := 0x00200004
def CLV.GBASE_V : Field := ⟨CLV.GBASE, 0, 24⟩
def CLV.STAT : Nat := 0x00200008
def CLV.STAT_MODE : Field := ⟨CLV.STAT, 0, 1⟩
def CLV.STAT_STORE_FULL : Field := ⟨CLV.STAT, 1, 1⟩
def CLV.STAT_PARKED : Field := ⟨CLV.STAT, 2, 1⟩
def CLV.STAT_POST_ERR : Field := ⟨CLV.STAT, 3, 1⟩
def CLV.STAT_BUDGET : Field := ⟨CLV.STAT, 4, 1⟩
def CLV.STAT_OVF_FULL : Field := ⟨CLV.STAT, 5, 1⟩
def CLV.STAT_GRAPH_ERR : Field := ⟨CLV.STAT, 6, 1⟩
def CLV.STAT_ERR_ARG : Field := ⟨CLV.STAT, 7, 1⟩
def CLV.STAT_GRESULT : Field := ⟨CLV.STAT, 8, 8⟩
def CLV.STORE : Nat := 0x0020000C
def CLV.STORE_V : Field := ⟨CLV.STORE, 0, 13⟩
def CLV.POST_VAL : Nat := 0x00200010
def CLV.POST_TAG : Nat := 0x00200014
def CLV.POST_TAG_TAG : Field := ⟨CLV.POST_TAG, 0, 16⟩
def CLV.GEND : Nat := 0x00200018
def CLV.GEND_RESULT : Field := ⟨CLV.GEND, 0, 8⟩
def CLV.CNT : Nat := 0x0020001C
def CLV.CNT_POST_ERR_CNT : Field := ⟨CLV.CNT, 0, 16⟩
def CLV.CNT_DISCARD : Field := ⟨CLV.CNT, 16, 16⟩
def CLV.PARK (k : Nat) : Nat := 0x00200020 + 0x4 * k
def CLV.PARK_V (k : Nat) : Field := ⟨CLV.PARK k, 0, 18⟩
def CLV.ENG (k : Nat) : Nat := 0x00200040 + 0x4 * k
def CLV.ENG_RUN_T (k : Nat) : Field := ⟨CLV.ENG k, 0, 10⟩
def CLV.ENG_RUN_V (k : Nat) : Field := ⟨CLV.ENG k, 10, 1⟩
def CLV.ENG_SLOT_T (k : Nat) : Field := ⟨CLV.ENG k, 11, 10⟩
def CLV.ENG_SLOT_V (k : Nat) : Field := ⟨CLV.ENG k, 21, 1⟩
def CLV.ENG_KEEP_V (k : Nat) : Field := ⟨CLV.ENG k, 22, 1⟩

def CLV.rows : List RegRow :=
  [⟨0x0, 1, 4, 0xFFFFFF, 0x0, 0x0, 0x0, 0x0⟩,
   ⟨0x4, 1, 4, 0xFFFFFF, 0x0, 0x0, 0x0, 0x0⟩,
   ⟨0x8, 1, 4, 0x0, 0xFA, 0x0, 0x0, 0x1⟩,
   ⟨0xC, 1, 4, 0x0, 0x0, 0x0, 0x0, 0x0⟩,
   ⟨0x10, 1, 4, 0xFFFFFFFF, 0x0, 0x0, 0x0, 0x0⟩,
   ⟨0x14, 1, 4, 0x0, 0x0, 0x0, 0xFFFF, 0x0⟩,
   ⟨0x18, 1, 4, 0x0, 0x0, 0x0, 0xFF, 0x0⟩,
   ⟨0x1C, 1, 4, 0x0, 0x0, 0x0, 0x0, 0x0⟩,
   ⟨0x20, 8, 4, 0x0, 0x0, 0x0, 0x0, 0x0⟩,
   ⟨0x40, 15, 4, 0x0, 0x0, 0x0, 0x0, 0x0⟩]

def CLV.block : RegBlock := ⟨0x00200000, 0x7C, 0x7C, CLV.rows⟩

/-! CLV_T registers: R336 of spec/14_clove_dispatcher.md. -/

def CLVT.CFG (n : Nat) : Nat := 0x00201000 + 0x20 * n
def CLVT.CFG_PRIO (n : Nat) : Field := ⟨CLVT.CFG n, 0, 5⟩
def CLVT.CFG_AFF (n : Nat) : Field := ⟨CLVT.CFG n, 5, 15⟩
def CLVT.CFG_KEEP (n : Nat) : Field := ⟨CLVT.CFG n, 20, 1⟩
def CLVT.CFG_BUDGET_ACT (n : Nat) : Field := ⟨CLVT.CFG n, 21, 1⟩
def CLVT.ENTRY (n : Nat) : Nat := 0x00201004 + 0x20 * n
def CLVT.BUDGET (n : Nat) : Nat := 0x00201008 + 0x20 * n
def CLVT.BUDGET_V (n : Nat) : Field := ⟨CLVT.BUDGET n, 0, 24⟩
def CLVT.CTRL (n : Nat) : Nat := 0x0020100C + 0x20 * n
def CLVT.CTRL_START (n : Nat) : Field := ⟨CLVT.CTRL n, 0, 1⟩
def CLVT.CTRL_HALT (n : Nat) : Field := ⟨CLVT.CTRL n, 1, 1⟩
def CLVT.CTRL_FREE (n : Nat) : Field := ⟨CLVT.CTRL n, 2, 1⟩
def CLVT.STAT (n : Nat) : Nat := 0x00201010 + 0x20 * n
def CLVT.STAT_STATE (n : Nat) : Field := ⟨CLVT.STAT n, 0, 3⟩
def CLVT.STAT_BUDGET_OVR (n : Nat) : Field := ⟨CLVT.STAT n, 3, 1⟩
def CLVT.STAT_FILLED (n : Nat) : Field := ⟨CLVT.STAT n, 4, 4⟩
def CLVT.STAT_ENGINE (n : Nat) : Field := ⟨CLVT.STAT n, 8, 4⟩
def CLVT.STAT_ACT (n : Nat) : Field := ⟨CLVT.STAT n, 16, 16⟩
def CLVT.WAIT01 (n : Nat) : Nat := 0x00201014 + 0x20 * n
def CLVT.WAIT01_T0 (n : Nat) : Field := ⟨CLVT.WAIT01 n, 0, 16⟩
def CLVT.WAIT01_T1 (n : Nat) : Field := ⟨CLVT.WAIT01 n, 16, 16⟩
def CLVT.WAIT23 (n : Nat) : Nat := 0x00201018 + 0x20 * n
def CLVT.WAIT23_T2 (n : Nat) : Field := ⟨CLVT.WAIT23 n, 0, 16⟩
def CLVT.WAIT23_T3 (n : Nat) : Field := ⟨CLVT.WAIT23 n, 16, 16⟩
def CLVT.RUN (n : Nat) : Nat := 0x0020101C + 0x20 * n
def CLVT.RUN_V (n : Nat) : Field := ⟨CLVT.RUN n, 0, 24⟩

def CLVT.rows : List RegRow :=
  [⟨0x0, 1, 4, 0x3FFFFF, 0x0, 0x0, 0x0, 0x1F⟩,
   ⟨0x4, 1, 4, 0xFFFFFFFF, 0x0, 0x0, 0x0, 0x0⟩,
   ⟨0x8, 1, 4, 0xFFFFFF, 0x0, 0x0, 0x0, 0x0⟩,
   ⟨0xC, 1, 4, 0x0, 0x0, 0x7, 0x0, 0x0⟩,
   ⟨0x10, 1, 4, 0x0, 0x8, 0x0, 0x0, 0xF00⟩,
   ⟨0x14, 1, 4, 0x0, 0x0, 0x0, 0x0, 0x0⟩,
   ⟨0x18, 1, 4, 0x0, 0x0, 0x0, 0x0, 0x0⟩,
   ⟨0x1C, 1, 4, 0x0, 0x0, 0x0, 0x0, 0x0⟩]

def CLVT.block : RegBlock := ⟨0x00201000, 0x20, 0x8000, CLVT.rows⟩

/-! SDS_SD registers: R388 of spec/16_signal_profile.md. -/

def SDS.STAT (n : Nat) : Nat := 0x01400000 + 0x100 * n
def SDS.STAT_ASAT (n : Nat) : Field := ⟨SDS.STAT n, 0, 1⟩
def SDS.STAT_MSAT (n : Nat) : Field := ⟨SDS.STAT n, 1, 1⟩
def SDS.STAT_W (n : Nat) : Field := ⟨SDS.STAT n, 2, 1⟩
def SDS.STAT_INTDEPTH (n : Nat) : Field := ⟨SDS.STAT n, 4, 4⟩
def SDS.CNT (n : Nat) : Nat := 0x01400004 + 0x100 * n
def SDS.CNT_ASAT_CNT (n : Nat) : Field := ⟨SDS.CNT n, 0, 16⟩
def SDS.CNT_MSAT_CNT (n : Nat) : Field := ⟨SDS.CNT n, 16, 16⟩
def SDS.IRQ (n : Nat) : Nat := 0x01400008 + 0x100 * n
def SDS.IRQ_PEND (n : Nat) : Field := ⟨SDS.IRQ n, 0, 8⟩
def SDS.IRQSET (n : Nat) : Nat := 0x0140000C + 0x100 * n
def SDS.IRQSET_SET (n : Nat) : Field := ⟨SDS.IRQSET n, 0, 8⟩
def SDS.IMASK (n : Nat) : Nat := 0x01400010 + 0x100 * n
def SDS.IMASK_MASK (n : Nat) : Field := ⟨SDS.IMASK n, 0, 8⟩

def SDS.rows : List RegRow :=
  [⟨0x0, 1, 4, 0x0, 0x3, 0x0, 0x0, 0x0⟩,
   ⟨0x4, 1, 4, 0x0, 0x0, 0x0, 0x0, 0x0⟩,
   ⟨0x8, 1, 4, 0x0, 0xFF, 0x0, 0x0, 0x0⟩,
   ⟨0xC, 1, 4, 0x0, 0x0, 0xFF, 0x0, 0x0⟩,
   ⟨0x10, 1, 4, 0xFF, 0x0, 0x0, 0x0, 0x0⟩]

def SDS.block : RegBlock := ⟨0x01400000, 0x100, 0x800, SDS.rows⟩

/-! HQ_ registers: R413 of spec/17_host_and_backbone.md. -/

def HQ.GSTAT : Nat := 0x00300000
def HQ.GSTAT_RATE : Field := ⟨HQ.GSTAT, 0, 2⟩
def HQ.GSTAT_WIDTH : Field := ⟨HQ.GSTAT, 2, 3⟩
def HQ.GSTAT_LINK_UP : Field := ⟨HQ.GSTAT, 5, 1⟩
def HQ.GSTAT_RINGS_UP : Field := ⟨HQ.GSTAT, 6, 1⟩
def HQ.GSTAT_SRIS : Field := ⟨HQ.GSTAT, 7, 1⟩
def HQ.GSTAT_DMA_ERR : Field := ⟨HQ.GSTAT, 8, 1⟩
def HQ.GSTAT_LINK_LOST : Field := ⟨HQ.GSTAT, 9, 1⟩
def HQ.GSTAT_BAR4_WR : Field := ⟨HQ.GSTAT, 10, 1⟩
def HQ.EVCFG : Nat := 0x00300004
def HQ.EVCFG_VEC : Field := ⟨HQ.EVCFG, 0, 6⟩
def HQ.EVCFG_STATE : Field := ⟨HQ.EVCFG, 6, 1⟩
def HQ.EVCFG_CAP : Field := ⟨HQ.EVCFG, 7, 1⟩
def HQ.EVSTAT : Nat := 0x00300008
def HQ.EVSTAT_STATE : Field := ⟨HQ.EVSTAT, 0, 1⟩
def HQ.EVSTAT_CAP : Field := ⟨HQ.EVSTAT, 1, 1⟩
def HQ.BAR2BASE : Nat := 0x0030000C
def HQ.BAR2BASE_V : Field := ⟨HQ.BAR2BASE, 0, 5⟩

def HQ.rows : List RegRow :=
  [⟨0x0, 1, 4, 0x0, 0x700, 0x0, 0x0, 0x0⟩,
   ⟨0x4, 1, 4, 0xFF, 0x0, 0x0, 0x0, 0x0⟩,
   ⟨0x8, 1, 4, 0x0, 0x3, 0x0, 0x0, 0x0⟩,
   ⟨0xC, 1, 4, 0x1F, 0x0, 0x0, 0x0, 0x0⟩]

def HQ.block : RegBlock := ⟨0x00300000, 0x10, 0x10, HQ.rows⟩

/-! HQ_RP registers: R413 of spec/17_host_and_backbone.md. -/

def RP.SQBASE_L (n : Nat) : Nat := 0x00301000 + 0x40 * n
def RP.SQBASE_L_V (n : Nat) : Field := ⟨RP.SQBASE_L n, 12, 20⟩
def RP.SQBASE_H (n : Nat) : Nat := 0x00301004 + 0x40 * n
def RP.CQBASE_L (n : Nat) : Nat := 0x00301008 + 0x40 * n
def RP.CQBASE_L_V (n : Nat) : Field := ⟨RP.CQBASE_L n, 12, 20⟩
def RP.CQBASE_H (n : Nat) : Nat := 0x0030100C + 0x40 * n
def RP.CFG (n : Nat) : Nat := 0x00301010 + 0x40 * n
def RP.CFG_EN (n : Nat) : Field := ⟨RP.CFG n, 0, 1⟩
def RP.CFG_FORMAT (n : Nat) : Field := ⟨RP.CFG n, 1, 1⟩
def RP.CFG_TARGET (n : Nat) : Field := ⟨RP.CFG n, 2, 1⟩
def RP.CFG_LOG2SIZE (n : Nat) : Field := ⟨RP.CFG n, 3, 4⟩
def RP.CFG_VEC (n : Nat) : Field := ⟨RP.CFG n, 7, 6⟩
def RP.CFG_IEN (n : Nat) : Field := ⟨RP.CFG n, 13, 1⟩
def RP.CFG_COAL_N (n : Nat) : Field := ⟨RP.CFG n, 14, 8⟩
def RP.CFG_COAL_T (n : Nat) : Field := ⟨RP.CFG n, 22, 10⟩
def RP.SQDB (n : Nat) : Nat := 0x00301014 + 0x40 * n
def RP.SQDB_TAIL (n : Nat) : Field := ⟨RP.SQDB n, 0, 12⟩
def RP.CQDB (n : Nat) : Nat := 0x00301018 + 0x40 * n
def RP.CQDB_HEAD (n : Nat) : Field := ⟨RP.CQDB n, 0, 12⟩
def RP.SQHEAD (n : Nat) : Nat := 0x0030101C + 0x40 * n
def RP.SQHEAD_V (n : Nat) : Field := ⟨RP.SQHEAD n, 0, 12⟩
def RP.CQTAIL (n : Nat) : Nat := 0x00301020 + 0x40 * n
def RP.CQTAIL_TAIL (n : Nat) : Field := ⟨RP.CQTAIL n, 0, 12⟩
def RP.CQTAIL_PHASE (n : Nat) : Field := ⟨RP.CQTAIL n, 16, 1⟩
def RP.STAT (n : Nat) : Nat := 0x00301024 + 0x40 * n
def RP.STAT_DB_ERR (n : Nat) : Field := ⟨RP.STAT n, 0, 1⟩
def RP.STAT_CQ_FULL (n : Nat) : Field := ⟨RP.STAT n, 1, 1⟩
def RP.STAT_DMA_ERR (n : Nat) : Field := ⟨RP.STAT n, 2, 1⟩
def RP.STAT_ERR_ARG (n : Nat) : Field := ⟨RP.STAT n, 3, 1⟩
def RP.STAT_INFLIGHT (n : Nat) : Field := ⟨RP.STAT n, 8, 7⟩
def RP.STAT_CMD_CNT (n : Nat) : Field := ⟨RP.STAT n, 16, 16⟩

def RP.rows : List RegRow :=
  [⟨0x0, 1, 4, 0xFFFFF000, 0x0, 0x0, 0x0, 0x0⟩,
   ⟨0x4, 1, 4, 0xFFFFFFFF, 0x0, 0x0, 0x0, 0x0⟩,
   ⟨0x8, 1, 4, 0xFFFFF000, 0x0, 0x0, 0x0, 0x0⟩,
   ⟨0xC, 1, 4, 0xFFFFFFFF, 0x0, 0x0, 0x0, 0x0⟩,
   ⟨0x10, 1, 4, 0xFFFFFFFF, 0x0, 0x0, 0x0, 0x20⟩,
   ⟨0x14, 1, 4, 0x0, 0x0, 0x0, 0xFFF, 0x0⟩,
   ⟨0x18, 1, 4, 0x0, 0x0, 0x0, 0xFFF, 0x0⟩,
   ⟨0x1C, 1, 4, 0x0, 0x0, 0x0, 0x0, 0x0⟩,
   ⟨0x20, 1, 4, 0x0, 0x0, 0x0, 0x0, 0x0⟩,
   ⟨0x24, 1, 4, 0x0, 0xD, 0x0, 0x0, 0x0⟩]

def RP.block : RegBlock := ⟨0x00301000, 0x40, 0x400, RP.rows⟩

/-! BBS_ registers: R414 of spec/17_host_and_backbone.md. -/

def BBS.GCFG : Nat := 0x00400000
def BBS.GCFG_CELL_ID : Field := ⟨BBS.GCFG, 0, 16⟩
def BBS.GCFG_MOD : Field := ⟨BBS.GCFG, 16, 6⟩
def BBS.RCDTO : Nat := 0x00400004
def BBS.RCDTO_V : Field := ⟨BBS.RCDTO, 0, 10⟩
def BBS.DROP : Nat := 0x00400008
def BBS.DROP_HDR : Field := ⟨BBS.DROP, 0, 12⟩
def BBS.DROP_METER : Field := ⟨BBS.DROP, 12, 10⟩
def BBS.DROP_LATE : Field := ⟨BBS.DROP, 22, 10⟩
def BBS.CLASS1 : Nat := 0x00400104
def BBS.CLASS1_PCP : Field := ⟨BBS.CLASS1, 0, 3⟩
def BBS.CLASS1_TC : Field := ⟨BBS.CLASS1, 3, 3⟩
def BBS.CLASS1_EXPRESS : Field := ⟨BBS.CLASS1, 6, 1⟩
def BBS.CLASS1_FRER : Field := ⟨BBS.CLASS1, 7, 1⟩
def BBS.CLASS1_VID : Field := ⟨BBS.CLASS1, 8, 12⟩
def BBS.CLASS2 : Nat := 0x00400108
def BBS.CLASS2_PCP : Field := ⟨BBS.CLASS2, 0, 3⟩
def BBS.CLASS2_TC : Field := ⟨BBS.CLASS2, 3, 3⟩
def BBS.CLASS2_EXPRESS : Field := ⟨BBS.CLASS2, 6, 1⟩
def BBS.CLASS2_FRER : Field := ⟨BBS.CLASS2, 7, 1⟩
def BBS.CLASS2_VID : Field := ⟨BBS.CLASS2, 8, 12⟩
def BBS.CLASS3 : Nat := 0x0040010C
def BBS.CLASS3_PCP : Field := ⟨BBS.CLASS3, 0, 3⟩
def BBS.CLASS3_TC : Field := ⟨BBS.CLASS3, 3, 3⟩
def BBS.CLASS3_EXPRESS : Field := ⟨BBS.CLASS3, 6, 1⟩
def BBS.CLASS3_FRER : Field := ⟨BBS.CLASS3, 7, 1⟩
def BBS.CLASS3_VID : Field := ⟨BBS.CLASS3, 8, 12⟩
def BBS.CLASS4 : Nat := 0x00400110
def BBS.CLASS4_PCP : Field := ⟨BBS.CLASS4, 0, 3⟩
def BBS.CLASS4_TC : Field := ⟨BBS.CLASS4, 3, 3⟩
def BBS.CLASS4_EXPRESS : Field := ⟨BBS.CLASS4, 6, 1⟩
def BBS.CLASS4_FRER : Field := ⟨BBS.CLASS4, 7, 1⟩
def BBS.CLASS4_VID : Field := ⟨BBS.CLASS4, 8, 12⟩
def BBS.CLASS5 : Nat := 0x00400114
def BBS.CLASS5_PCP : Field := ⟨BBS.CLASS5, 0, 3⟩
def BBS.CLASS5_TC : Field := ⟨BBS.CLASS5, 3, 3⟩
def BBS.CLASS5_EXPRESS : Field := ⟨BBS.CLASS5, 6, 1⟩
def BBS.CLASS5_FRER : Field := ⟨BBS.CLASS5, 7, 1⟩
def BBS.CLASS5_VID : Field := ⟨BBS.CLASS5, 8, 12⟩
def BBS.CLASS6 : Nat := 0x00400118
def BBS.CLASS6_PCP : Field := ⟨BBS.CLASS6, 0, 3⟩
def BBS.CLASS6_TC : Field := ⟨BBS.CLASS6, 3, 3⟩
def BBS.CLASS6_EXPRESS : Field := ⟨BBS.CLASS6, 6, 1⟩
def BBS.CLASS6_FRER : Field := ⟨BBS.CLASS6, 7, 1⟩
def BBS.CLASS6_VID : Field := ⟨BBS.CLASS6, 8, 12⟩

def BBS.rows : List RegRow :=
  [⟨0x0, 1, 4, 0xFFFF, 0x0, 0x0, 0x0, 0x0⟩,
   ⟨0x4, 1, 4, 0x3FF, 0x0, 0x0, 0x0, 0x14⟩,
   ⟨0x8, 1, 4, 0x0, 0x0, 0x0, 0x0, 0x0⟩,
   ⟨0x104, 1, 4, 0xFFFFF, 0x0, 0x0, 0x0, 0x1F6⟩,
   ⟨0x108, 1, 4, 0xFFFFF, 0x0, 0x0, 0x0, 0x1F6⟩,
   ⟨0x10C, 1, 4, 0xFFFFF, 0x0, 0x0, 0x0, 0x1FF⟩,
   ⟨0x110, 1, 4, 0xFFFFF, 0x0, 0x0, 0x0, 0x1ED⟩,
   ⟨0x114, 1, 4, 0xFFFFF, 0x0, 0x0, 0x0, 0x17F⟩,
   ⟨0x118, 1, 4, 0xFFFFF, 0x0, 0x0, 0x0, 0x19B⟩]

def BBS.block : RegBlock := ⟨0x00400000, 0x11C, 0x11C, BBS.rows⟩

/-! BBS_P registers: R414 of spec/17_host_and_backbone.md. -/

def BBP.CFG (n : Nat) : Nat := 0x00401000 + 0x1000 * n
def BBP.CFG_SPEED (n : Nat) : Field := ⟨BBP.CFG n, 0, 3⟩
def BBP.CFG_EN (n : Nat) : Field := ⟨BBP.CFG n, 3, 1⟩
def BBP.CFG_PREEMPT (n : Nat) : Field := ⟨BBP.CFG n, 4, 1⟩
def BBP.CFG_GCL_EN (n : Nat) : Field := ⟨BBP.CFG n, 5, 1⟩
def BBP.STAT (n : Nat) : Nat := 0x00401004 + 0x1000 * n
def BBP.STAT_LINK (n : Nat) : Field := ⟨BBP.STAT n, 0, 1⟩
def BBP.STAT_SPEED_ACT (n : Nat) : Field := ⟨BBP.STAT n, 1, 3⟩
def BBP.STAT_PREEMPT_ACT (n : Nat) : Field := ⟨BBP.STAT n, 4, 1⟩
def BBP.STAT_ERR_ARG (n : Nat) : Field := ⟨BBP.STAT n, 5, 1⟩
def BBP.STAT_GCL_PEND (n : Nat) : Field := ⟨BBP.STAT n, 6, 1⟩
def BBP.STAT_GCL_ERR (n : Nat) : Field := ⟨BBP.STAT n, 7, 1⟩
def BBP.TXLAT (n : Nat) : Nat := 0x00401008 + 0x1000 * n
def BBP.TXLAT_V (n : Nat) : Field := ⟨BBP.TXLAT n, 0, 24⟩
def BBP.RXLAT (n : Nat) : Nat := 0x0040100C + 0x1000 * n
def BBP.RXLAT_V (n : Nat) : Field := ⟨BBP.RXLAT n, 0, 24⟩
def BBP.GCLBASE (n : Nat) : Nat := 0x00401010 + 0x1000 * n
def BBP.GCLCYC (n : Nat) : Nat := 0x00401014 + 0x1000 * n
def BBP.GCLCYC_V (n : Nat) : Field := ⟨BBP.GCLCYC n, 0, 22⟩
def BBP.GCLCTRL (n : Nat) : Nat := 0x00401018 + 0x1000 * n
def BBP.GCLCTRL_LEN (n : Nat) : Field := ⟨BBP.GCLCTRL n, 0, 9⟩
def BBP.GCLCTRL_COMMIT (n : Nat) : Field := ⟨BBP.GCLCTRL n, 9, 1⟩
def BBP.GCLOPER (n : Nat) : Nat := 0x0040101C + 0x1000 * n
def BBP.GCLOPER_ENTRY (n : Nat) : Field := ⟨BBP.GCLOPER n, 0, 9⟩
def BBP.GCLOPER_OPER_VALID (n : Nat) : Field := ⟨BBP.GCLOPER n, 16, 1⟩
def BBP.FRER (n : Nat) : Nat := 0x00401020 + 0x1000 * n
def BBP.FRER_DISC (n : Nat) : Field := ⟨BBP.FRER n, 0, 16⟩
def BBP.FRER_LOST (n : Nat) : Field := ⟨BBP.FRER n, 16, 16⟩
def BBP.GCL (n k : Nat) : Nat := 0x00401800 + 0x1000 * n + 0x4 * k
def BBP.GCL_GATES (n k : Nat) : Field := ⟨BBP.GCL n k, 0, 8⟩
def BBP.GCL_INTERVAL (n k : Nat) : Field := ⟨BBP.GCL n k, 8, 24⟩

def BBP.rows : List RegRow :=
  [⟨0x0, 1, 4, 0x3F, 0x0, 0x0, 0x0, 0x8⟩,
   ⟨0x4, 1, 4, 0x0, 0xA0, 0x0, 0x0, 0x0⟩,
   ⟨0x8, 1, 4, 0xFFFFFF, 0x0, 0x0, 0x0, 0x0⟩,
   ⟨0xC, 1, 4, 0xFFFFFF, 0x0, 0x0, 0x0, 0x0⟩,
   ⟨0x10, 1, 4, 0xFFFFFFFF, 0x0, 0x0, 0x0, 0x0⟩,
   ⟨0x14, 1, 4, 0x3FFFFF, 0x0, 0x0, 0x0, 0x0⟩,
   ⟨0x18, 1, 4, 0x1FF, 0x0, 0x200, 0x0, 0x0⟩,
   ⟨0x1C, 1, 4, 0x0, 0x0, 0x0, 0x0, 0x0⟩,
   ⟨0x20, 1, 4, 0x0, 0x0, 0x0, 0x0, 0x0⟩,
   ⟨0x800, 256, 4, 0xFFFFFFFF, 0x0, 0x0, 0x0, 0x0⟩]

def BBP.block : RegBlock := ⟨0x00401000, 0x1000, 0x7000, BBP.rows⟩

/-! FOV_ registers: R430 of spec/18_manager_workers_failover.md. -/

def FOV.CFG : Nat := 0x02100000
def FOV.CFG_TSEL : Field := ⟨FOV.CFG, 0, 7⟩
def FOV.CFG_SSEL : Field := ⟨FOV.CFG, 7, 7⟩
def FOV.STAT : Nat := 0x02100004
def FOV.STAT_ROLE : Field := ⟨FOV.STAT, 0, 3⟩
def FOV.STAT_WITNESS : Field := ⟨FOV.STAT, 3, 1⟩
def FOV.STAT_PART : Field := ⟨FOV.STAT, 4, 3⟩
def FOV.STAT_REDUNDANT : Field := ⟨FOV.STAT, 7, 1⟩
def FOV.STAT_WIT_LOST : Field := ⟨FOV.STAT, 8, 1⟩
def FOV.STAT_SS1_REQ : Field := ⟨FOV.STAT, 9, 1⟩
def FOV.STAT_PROMOTED : Field := ⟨FOV.STAT, 10, 1⟩
def FOV.STAT_FENCED : Field := ⟨FOV.STAT, 11, 1⟩
def FOV.STAT_CFG_BAD : Field := ⟨FOV.STAT, 12, 1⟩
def FOV.STAT_ERR_ARG : Field := ⟨FOV.STAT, 13, 1⟩
def FOV.EPOCH : Nat := 0x02100008
def FOV.ACTIVE : Nat := 0x0210000C
def FOV.ACTIVE_MOD : Field := ⟨FOV.ACTIVE, 0, 6⟩
def FOV.ACTIVE_VALID : Field := ⟨FOV.ACTIVE, 6, 1⟩
def FOV.CKPT : Nat := 0x02100010
def FOV.CNT : Nat := 0x02100014
def FOV.CNT_FOREIGN : Field := ⟨FOV.CNT, 0, 16⟩
def FOV.CNT_PROMOTIONS : Field := ⟨FOV.CNT, 16, 16⟩
def FOV.MISS : Nat := 0x02100018
def FOV.MISS_MISS_A : Field := ⟨FOV.MISS, 0, 16⟩
def FOV.MISS_MISS_B : Field := ⟨FOV.MISS, 16, 16⟩

def FOV.rows : List RegRow :=
  [⟨0x0, 1, 4, 0x3FFF, 0x0, 0x0, 0x0, 0x182⟩,
   ⟨0x4, 1, 4, 0x0, 0x2C00, 0x0, 0x0, 0x0⟩,
   ⟨0x8, 1, 4, 0x0, 0x0, 0x0, 0x0, 0x0⟩,
   ⟨0xC, 1, 4, 0x0, 0x0, 0x0, 0x0, 0x0⟩,
   ⟨0x10, 1, 4, 0x0, 0x0, 0x0, 0x0, 0x0⟩,
   ⟨0x14, 1, 4, 0x0, 0x0, 0x0, 0x0, 0x0⟩,
   ⟨0x18, 1, 4, 0x0, 0x0, 0x0, 0x0, 0x0⟩]

def FOV.block : RegBlock := ⟨0x02100000, 0x1C, 0x1C, FOV.rows⟩

/-! ANS_ registers: R440 of spec/19_anise_recorder.md. -/

def ANS.STAT : Nat := 0x02000000
def ANS.STAT_FLUSH_ERR : Field := ⟨ANS.STAT, 0, 1⟩
def ANS.STAT_LOST : Field := ⟨ANS.STAT, 1, 1⟩
def ANS.STAT_ERR_ARG : Field := ⟨ANS.STAT, 2, 1⟩
def ANS.STAT_FLUSHING : Field := ⟨ANS.STAT, 3, 1⟩
def ANS.STAT_FILL : Field := ⟨ANS.STAT, 4, 15⟩
def ANS.CNT : Nat := 0x02000004
def ANS.CNT_LOST : Field := ⟨ANS.CNT, 0, 16⟩
def ANS.CNT_FLUSHES : Field := ⟨ANS.CNT, 16, 16⟩
def ANS.HEAD_L : Nat := 0x02000008
def ANS.HEAD_H : Nat := 0x0200000C
def ANS.HEAD_H_V : Field := ⟨ANS.HEAD_H, 0, 16⟩
def ANS.TAIL_L : Nat := 0x02000010
def ANS.TAIL_H : Nat := 0x02000014
def ANS.TAIL_H_V : Field := ⟨ANS.TAIL_H, 0, 16⟩
def ANS.POSTP (k : Nat) : Nat := 0x02000020 + 0x4 * k
def ANS.POSTSRC : Nat := 0x02000030
def ANS.POSTSRC_UNIT : Field := ⟨ANS.POSTSRC, 0, 10⟩
def ANS.POSTSRC_SEV : Field := ⟨ANS.POSTSRC, 16, 4⟩
def ANS.POSTCODE : Nat := 0x02000034
def ANS.POSTCODE_CODE : Field := ⟨ANS.POSTCODE, 0, 16⟩
def ANS.CLASS (k : Nat) : Nat := 0x02000400 + 0x4 * k
def ANS.CLASS_RATE (k : Nat) : Field := ⟨ANS.CLASS k, 0, 14⟩
def ANS.CLASS_BURST (k : Nat) : Field := ⟨ANS.CLASS k, 14, 7⟩
def ANS.OVR_CODE (k : Nat) : Nat := 0x02000800 + 0x8 * k
def ANS.OVR_CODE_CODE (k : Nat) : Field := ⟨ANS.OVR_CODE k, 0, 16⟩
def ANS.OVR_CODE_EN (k : Nat) : Field := ⟨ANS.OVR_CODE k, 16, 1⟩
def ANS.OVR_RATE (k : Nat) : Nat := 0x02000804 + 0x8 * k
def ANS.OVR_RATE_RATE (k : Nat) : Field := ⟨ANS.OVR_RATE k, 0, 14⟩
def ANS.OVR_RATE_BURST (k : Nat) : Field := ⟨ANS.OVR_RATE k, 14, 7⟩

def ANS.rows : List RegRow :=
  [⟨0x0, 1, 4, 0x0, 0x7, 0x0, 0x0, 0x0⟩,
   ⟨0x4, 1, 4, 0x0, 0x0, 0x0, 0x0, 0x0⟩,
   ⟨0x8, 1, 4, 0x0, 0x0, 0x0, 0x0, 0x0⟩,
   ⟨0xC, 1, 4, 0x0, 0x0, 0x0, 0x0, 0x0⟩,
   ⟨0x10, 1, 4, 0x0, 0x0, 0x0, 0x0, 0x0⟩,
   ⟨0x14, 1, 4, 0x0, 0x0, 0x0, 0x0, 0x0⟩,
   ⟨0x20, 4, 4, 0xFFFFFFFF, 0x0, 0x0, 0x0, 0x0⟩,
   ⟨0x30, 1, 4, 0xF03FF, 0x0, 0x0, 0x0, 0x0⟩,
   ⟨0x34, 1, 4, 0x0, 0x0, 0x0, 0xFFFF, 0x0⟩,
   ⟨0x400, 256, 4, 0x1FFFFF, 0x0, 0x0, 0x0, 0x40064⟩,
   ⟨0x800, 256, 8, 0x1FFFF, 0x0, 0x0, 0x0, 0x0⟩,
   ⟨0x804, 256, 8, 0x1FFFFF, 0x0, 0x0, 0x0, 0x40064⟩]

def ANS.block : RegBlock := ⟨0x02000000, 0x1004, 0x1004, ANS.rows⟩

/-! SYS_ registers: R458 of spec/20_identity_lifecycle.md. -/

def SYS.LC : Nat := 0x00000000
def SYS.LC_STATE : Field := ⟨SYS.LC, 0, 3⟩
def SYS.LC_WIPE_PEND : Field := ⟨SYS.LC, 3, 1⟩
def SYS.LC_ANCHOR : Field := ⟨SYS.LC, 4, 1⟩
def SYS.LC_TOGGLES_LEFT : Field := ⟨SYS.LC, 16, 13⟩
def SYS.BOOT : Nat := 0x00000004
def SYS.BOOT_SLOT : Field := ⟨SYS.BOOT, 0, 1⟩
def SYS.BOOT_FALLBACK : Field := ⟨SYS.BOOT, 1, 1⟩
def SYS.BOOT_ALT_VALID : Field := ⟨SYS.BOOT, 2, 1⟩
def SYS.BOOT_GEN : Field := ⟨SYS.BOOT, 16, 16⟩
def SYS.SESS : Nat := 0x00000008
def SYS.SESS_SESSION : Field := ⟨SYS.SESS, 0, 16⟩
def SYS.IMGVER : Nat := 0x0000000C
def SYS.KEYID (k : Nat) : Nat := 0x00000010 + 0x4 * k

def SYS.rows : List RegRow :=
  [⟨0x0, 1, 4, 0x0, 0x0, 0x0, 0x0, 0x10000012⟩,
   ⟨0x4, 1, 4, 0x0, 0x0, 0x0, 0x0, 0x0⟩,
   ⟨0x8, 1, 4, 0x0, 0x0, 0x0, 0x0, 0x0⟩,
   ⟨0xC, 1, 4, 0x0, 0x0, 0x0, 0x0, 0x0⟩,
   ⟨0x10, 5, 4, 0x0, 0x0, 0x0, 0x0, 0x0⟩]

def SYS.block : RegBlock := ⟨0x00000000, 0x24, 0x24, SYS.rows⟩

/-! PWS_ registers: R476 of spec/21_power_startup_recovery.md. -/

def PWS.MODSTATE : Nat := 0x02200000
def PWS.MODSTATE_STATE : Field := ⟨PWS.MODSTATE, 0, 4⟩
def PWS.MODSTATE_PREV : Field := ⟨PWS.MODSTATE, 4, 4⟩
def PWS.MODSTATE_CAUSE : Field := ⟨PWS.MODSTATE, 8, 8⟩
def PWS.MODSTATE_GRAPH : Field := ⟨PWS.MODSTATE, 16, 1⟩
def PWS.MODSTATE_CHANGED : Field := ⟨PWS.MODSTATE, 17, 1⟩
def PWS.STAT : Nat := 0x02200004
def PWS.STAT_A_OK : Field := ⟨PWS.STAT, 0, 1⟩
def PWS.STAT_B_OK : Field := ⟨PWS.STAT, 1, 1⟩
def PWS.STAT_STORE_OK : Field := ⟨PWS.STAT, 2, 1⟩
def PWS.STAT_INPUT_LOST : Field := ⟨PWS.STAT, 3, 1⟩
def PWS.STAT_RAIL_FLT : Field := ⟨PWS.STAT, 4, 1⟩
def PWS.STAT_EWDT : Field := ⟨PWS.STAT, 5, 1⟩
def PWS.STAT_MWDT : Field := ⟨PWS.STAT, 6, 1⟩
def PWS.STAT_KICK_ERR : Field := ⟨PWS.STAT, 7, 1⟩
def PWS.STAT_REC_FAIL : Field := ⟨PWS.STAT, 8, 1⟩
def PWS.STAT_NO_IMAGE : Field := ⟨PWS.STAT, 9, 1⟩
def PWS.STAT_WAKE_SRC : Field := ⟨PWS.STAT, 10, 2⟩
def PWS.STAT_REC_RUN : Field := ⟨PWS.STAT, 12, 2⟩
def PWS.VIN : Nat := 0x02200008
def PWS.VIN_VA : Field := ⟨PWS.VIN, 0, 16⟩
def PWS.VIN_VB : Field := ⟨PWS.VIN, 16, 16⟩
def PWS.HOLD : Nat := 0x0220000C
def PWS.HOLD_E_STORE : Field := ⟨PWS.HOLD, 0, 16⟩
def PWS.HOLD_T_LAST : Field := ⟨PWS.HOLD, 16, 16⟩
def PWS.WDKICK : Nat := 0x02200010
def PWS.WDKICK_KEY : Field := ⟨PWS.WDKICK, 0, 16⟩
def PWS.WDSTAT : Nat := 0x02200014
def PWS.WDSTAT_LEFT : Field := ⟨PWS.WDSTAT, 0, 16⟩
def PWS.CNT : Nat := 0x02200018
def PWS.CNT_RECOVERIES : Field := ⟨PWS.CNT, 0, 16⟩
def PWS.CNT_HOLDUPS : Field := ⟨PWS.CNT, 16, 16⟩
def PWS.BOOTT : Nat := 0x0220001C
def PWS.BOOTT_MS : Field := ⟨PWS.BOOTT, 0, 16⟩
def PWS.SLEEP_L : Nat := 0x02200020
def PWS.SLEEP_H : Nat := 0x02200024
def PWS.SLEEP_H_V : Field := ⟨PWS.SLEEP_H, 0, 16⟩
def PWS.SLPDUR : Nat := 0x02200028
def PWS.EWD (k : Nat) : Nat := 0x02200040 + 0x4 * k
def PWS.EWD_LIMIT (k : Nat) : Field := ⟨PWS.EWD k, 0, 16⟩
def PWS.EWD_EXP (k : Nat) : Field := ⟨PWS.EWD k, 16, 1⟩

def PWS.rows : List RegRow :=
  [⟨0x0, 1, 4, 0x0, 0x20000, 0x0, 0x0, 0x10002⟩,
   ⟨0x4, 1, 4, 0x0, 0xF8, 0x0, 0x0, 0x0⟩,
   ⟨0x8, 1, 4, 0x0, 0x0, 0x0, 0x0, 0x0⟩,
   ⟨0xC, 1, 4, 0x0, 0x0, 0x0, 0x0, 0x0⟩,
   ⟨0x10, 1, 4, 0x0, 0x0, 0x0, 0xFFFF, 0x0⟩,
   ⟨0x14, 1, 4, 0x0, 0x0, 0x0, 0x0, 0xC350⟩,
   ⟨0x18, 1, 4, 0x0, 0x0, 0x0, 0x0, 0x0⟩,
   ⟨0x1C, 1, 4, 0x0, 0x0, 0x0, 0x0, 0x0⟩,
   ⟨0x20, 1, 4, 0x0, 0x0, 0x0, 0x0, 0x0⟩,
   ⟨0x24, 1, 4, 0x0, 0x0, 0x0, 0x0, 0x0⟩,
   ⟨0x28, 1, 4, 0x0, 0x0, 0x0, 0x0, 0x0⟩,
   ⟨0x40, 15, 4, 0xFFFF, 0x10000, 0x0, 0x0, 0x3E8⟩]

def PWS.block : RegBlock := ⟨0x02200000, 0x7C, 0x7C, PWS.rows⟩

/-! MSIX_V registers: R400 of spec/17_host_and_backbone.md. -/

def MSIX.ADDR_L (n : Nat) : Nat := 0x00308000 + 0x10 * n
def MSIX.ADDR_H (n : Nat) : Nat := 0x00308004 + 0x10 * n
def MSIX.DATA (n : Nat) : Nat := 0x00308008 + 0x10 * n
def MSIX.CTRL (n : Nat) : Nat := 0x0030800C + 0x10 * n
def MSIX.CTRL_MASK (n : Nat) : Field := ⟨MSIX.CTRL n, 0, 1⟩

def MSIX.rows : List RegRow :=
  [⟨0x0, 1, 4, 0xFFFFFFFF, 0x0, 0x0, 0x0, 0x0⟩,
   ⟨0x4, 1, 4, 0xFFFFFFFF, 0x0, 0x0, 0x0, 0x0⟩,
   ⟨0x8, 1, 4, 0xFFFFFFFF, 0x0, 0x0, 0x0, 0x0⟩,
   ⟨0xC, 1, 4, 0x1, 0x0, 0x0, 0x0, 0x1⟩]

def MSIX.block : RegBlock := ⟨0x00308000, 0x10, 0x400, MSIX.rows⟩

/-! MSIX_ registers: R400 of spec/17_host_and_backbone.md. -/

def MSIXP.PBA (k : Nat) : Nat := 0x00309000 + 0x4 * k

def MSIXP.rows : List RegRow :=
  [⟨0x0, 2, 4, 0x0, 0x0, 0x0, 0x0, 0x0⟩]

def MSIXP.block : RegBlock := ⟨0x00309000, 0x8, 0x8, MSIXP.rows⟩

/-- Every register block of BAR0 (R24). -/
def regBlocks : List RegBlock :=
  [TB.block, REFOUT.block, TCMP.block, TIMEEXT.block, DPW.block, TRFG.block, TRF.block, CAQG.block, CAQ.block, PFB.block, LPEG.block, LPE.block, PRG.block, NMG.block, PLC.block, PLCJ.block]
  ++ [SAF.block, SAFA.block, FIO.block, FIOB.block, DOR.block, CAP.block, CLV.block, CLVT.block, SDS.block, HQ.block, RP.block, BBS.block, BBP.block, FOV.block, ANS.block, SYS.block, PWS.block, MSIX.block, MSIXP.block]

/-- The row of a block that covers the offset `rel` inside one unit. -/
def findRow (rel : Nat) : List RegRow → Option RegRow
  | [] => none
  | r :: rs =>
    if r.off ≤ rel ∧ (rel - r.off) % r.stride = 0 ∧ (rel - r.off) / r.stride < r.cnt then some r
    else findRow rel rs

/-- The register row at a BAR0 offset, where the map has one. -/
def findReg (off : Nat) : List RegBlock → Option RegRow
  | [] => none
  | b :: bs =>
    if b.base ≤ off ∧ off < b.base + b.span then
      match findRow ((off - b.base) % b.stride) b.rows with
      | some r => some r
      | none => findReg off bs
    else findReg off bs

/-- The register row at `off`. -/
def regRow (off : Nat) : Option RegRow := findReg off regBlocks

/-- What the register at `off` reads as after reset: the value of its table (R48, R75, …). Two
registers differ by unit: `PRG_PGn_CFG.OUT` is NONE for PG96 to PG127 (R175), and
`TBU_TCMP0_PERIOD` is the frame length at the reset F_LE (R40). -/
def regReset (off : Nat) : Word :=
  if off = TCMP.PERIOD 0 then 15625#32
  else
    match regRow off with
    | none => 0#32
    | some r =>
      if PRG.CFG 96 ≤ off ∧ off < PRG.CFG 128 ∧ (off - PRG.CFG 96) % 0x100 = 0 then
        BitVec.ofNat 32 (r.reset + 8)
      else BitVec.ofNat 32 r.reset

end Sys2Proof.Machine
end

