-- ==== Sys2Proof/Machine/Ops.lean ====
section
/-! DEFINITION. The named operations over the state: finite maps, registers and their fields, banked
words, memories, free values, the agenda, records and tokens. -/

namespace Sys2Proof

/-- The number of a master: host, engines 0 to 15, door controller, backbone. -/
def Master.idx : Master → Nat
  | .host => 0
  | .eng e => e.val + 1
  | .door => 17
  | .bbone => 18

/-- Where a memory stands in the one address list of the model. -/
def MemId.base : MemId → Nat
  | .shared => 0
  | .ddr => 0x1_0000_0000_0
  | .factor => 0x2_0000_0000_0
  | .capture => 0x3_0000_0000_0
  | .mram => 0x4_0000_0000_0
  | .nor => 0x5_0000_0000_0
  | .prog e => 0x6_0000_0000_0 + e.val * 0x10000000
  | .data e => 0x7_0000_0000_0 + e.val * 0x10000000
  | .ydata e => 0x8_0000_0000_0 + e.val * 0x10000000

/-- The size of each memory in bytes (R26). -/
def MemId.size : MemId → Nat
  | .shared => 0x1000000
  | .ddr => 0x200000000
  | .factor => 0x1000000
  | .capture => 0x400000
  | .mram => 0x2000000
  | .nor => 0x20000000
  | .prog e =>
    if e.val < 4 then 0x20000 else if e.val < 12 then 0x10000 else if e.val = 12 then 0x10000
    else if e.val = 13 then 0x8000 else if e.val = 14 then 0x20000 else 0x40000
  | .data e =>
    if e.val < 4 then 0x40000 else if e.val < 12 then 0x10000 else if e.val = 12 then 0x20000
    else if e.val = 13 then 0x10000 else if e.val = 14 then 0x40000 else 0x20000
  | .ydata e => if 4 ≤ e.val ∧ e.val < 12 then 0x10000 else 0

end Sys2Proof

namespace Sys2Proof.Machine

/-- The outcome of a command on this block. -/
abbrev Out := Host.Outcome State Fault Refusal

/-- A command that completes in state `s`. -/
def ok (s : State) : Out := .next s

/-! ## Finite maps -/

/-- The value listed at `k`, else the default. -/
def FMap.get {α : Type} (d : Nat → α) (m : FMap α) (k : Nat) : α :=
  match m.cells.find? (fun c => c.1 == k) with
  | some c => c.2
  | none => d k

/-- Insert a cell before the first larger key. -/
def insertCell {α : Type} (k : Nat) (v : α) : List (Nat × α) → List (Nat × α)
  | [] => [(k, v)]
  | c :: cs => if k < c.1 then (k, v) :: c :: cs else c :: insertCell k v cs

/-- Write at `k`: the old cell goes; a value equal to the default is not listed. -/
def FMap.set {α : Type} [DecidableEq α] (d : Nat → α) (m : FMap α) (k : Nat) (v : α) : FMap α :=
  let rest := m.cells.filter (fun c => !(c.1 == k))
  if v = d k then ⟨rest⟩ else ⟨insertCell k v rest⟩

/-- The canonical form: keys strictly rising and no listed value equal to the default. -/
def FMap.wf {α : Type} [DecidableEq α] (d : Nat → α) (m : FMap α) : Bool :=
  decide (m.cells.Pairwise (fun a b => a.1 < b.1)) && m.cells.all (fun c => !decide (c.2 = d c.1))

/-! ## Numbers -/

/-- Clamp to `lo … hi`. -/
def clampInt (lo hi x : Int) : Int := if x < lo then lo else if hi < x then hi else x

/-- Saturate to `n` bits, signed. -/
def satS (n : Nat) (x : Int) : Int := clampInt (-(2 ^ (n - 1) : Nat)) ((2 ^ (n - 1) : Nat) - 1) x

/-- Saturate to `n` bits, unsigned. -/
def satU (n : Nat) (x : Nat) : Nat := min x (2 ^ n - 1)

/-- A quotient rounded to the nearest integer, halves away from zero; `den` is positive. -/
def roundHalfAway (num : Int) (den : Nat) : Int :=
  if num < 0 then -(((2 * num.natAbs + den) / (2 * den) : Nat) : Int)
  else (((2 * num.natAbs + den) / (2 * den) : Nat) : Int)

/-- The two's complement reading of the low `n` bits of `x`. -/
def signedOf (n : Nat) (x : Nat) : Int := (BitVec.ofNat n x).toInt

/-- The low `n` bits that carry the signed number `x`. -/
def bitsOf (n : Nat) (x : Int) : Nat := (BitVec.ofInt n x).toNat

/-! ## Registers -/

/-- The bits `lo … lo+w−1` of a word. -/
def getBits (lo w : Nat) (x : Word) : Nat := x.toNat / 2 ^ lo % 2 ^ w

/-- The word with the bits `lo … lo+w−1` replaced. -/
def putBits (lo w : Nat) (x : Word) (v : Nat) : Word :=
  BitVec.ofNat 32 (x.toNat - getBits lo w x * 2 ^ lo + v % 2 ^ w * 2 ^ lo)

/-- The register at BAR0 offset `off`. -/
def State.rd (s : State) (off : Nat) : Word := s.regs.get regReset off

/-- Write the register at BAR0 offset `off`. -/
def State.wr (s : State) (off : Nat) (v : Word) : State :=
  { s with regs := s.regs.set regReset off v }

/-- A field of a register, as a number. -/
def State.f (s : State) (F : Field) : Nat := getBits F.lo F.w (s.rd F.off)

/-- A field of a register, as a signed number. -/
def State.fi (s : State) (F : Field) : Int := signedOf F.w (s.f F)

/-- Is the flag set. -/
def State.on (s : State) (F : Field) : Bool := decide (s.f F ≠ 0)

/-- Write a field of a register. -/
def State.setF (s : State) (F : Field) (v : Nat) : State :=
  s.wr F.off (putBits F.lo F.w (s.rd F.off) v)

/-- Write a field with a signed number. -/
def State.setFi (s : State) (F : Field) (v : Int) : State := s.setF F (bitsOf F.w v)

/-- Write a flag. -/
def State.flag (s : State) (F : Field) (b : Bool) : State := s.setF F b.toNat

/-- Set a flag. -/
def State.raise (s : State) (F : Field) : State := s.setF F 1

/-- Raise a flag where `b` holds. -/
def State.raiseIf (s : State) (b : Bool) (F : Field) : State := if b then s.raise F else s

/-- Count up a field that saturates (R7). -/
def State.bump (s : State) (F : Field) (n : Nat := 1) : State := s.setF F (satU F.w (s.f F + n))

/-- Count up a field that wraps. -/
def State.bumpMod (s : State) (F : Field) (n : Nat := 1) : State := s.setF F (s.f F + n)

/-- The register at `off` as a signed number. -/
def State.rdI (s : State) (off : Nat) : Int := (s.rd off).toInt

/-- Write the register at `off` with a signed number. -/
def State.wrI (s : State) (off : Nat) (v : Int) : State := s.wr off (BitVec.ofInt 32 v)

/-- Write the register at `off` with a number. -/
def State.wrN (s : State) (off : Nat) (v : Nat) : State := s.wr off (BitVec.ofNat 32 v)

/-- The effect of a register write on its stored bits by the access codes of R4: RW bits take the
value, a 1 clears a W1C bit unless the hardware sets it in the same clock (R6, `hw`), a 1 sets a W1S
bit; every other bit keeps its value. -/
def regWrite (r : RegRow) (old v hw : Word) : Word :=
  let rw := BitVec.ofNat 32 r.rw
  let w1c := BitVec.ofNat 32 r.w1c
  let w1s := BitVec.ofNat 32 r.w1s
  ((old &&& ~~~rw) ||| (v &&& rw)) &&& ~~~(v &&& w1c &&& ~~~hw) ||| (v &&& w1s) ||| (hw &&& w1c)

/-- Store a write in the register at `off` by its access codes (R4 to R6). -/
def State.store (s : State) (off : Nat) (v : Word) (hw : Word := 0#32) : State :=
  match regRow off with
  | some r => s.wr off (regWrite r (s.rd off) v hw)
  | none => s

/-- The bits of a register that have come up in this tick: what an engine or a ring writes in the tick does not clear a
flag among them (R6; log entry 125). -/
def State.risen (s : State) (off : Nat) : Word := s.rd off &&& ~~~(s.was.get regReset off)

/-! ## Banked words: one copy per master (R35) -/

def bankReset (k : Nat) : Word := regReset (k % 0x4000000)

/-- The banked copy of the register at `off` that master `m` sees. -/
def State.bankRd (s : State) (m : Master) (off : Nat) : Word :=
  s.bank.get bankReset (m.idx * 0x4000000 + off)

/-- Write the banked copy of master `m`. -/
def State.bankWr (s : State) (m : Master) (off : Nat) (v : Word) : State :=
  { s with bank := s.bank.set bankReset (m.idx * 0x4000000 + off) v }

/-- Take the live registers into the copies of master `m` (R35). -/
def State.snapshot (s : State) (m : Master) (offs : List Nat) : State :=
  offs.foldl (fun t o => t.bankWr m o (t.rd o)) s

/-! ## Memories (R26, R341) -/

/-- What a byte that nothing has written reads as: 0xFF in the NOR flash, 0 elsewhere (the wiped
value of R456; log entry 4, DESIGN CHOICE). -/
def memReset (k : Nat) : Byte :=
  if 0x5_0000_0000_0 ≤ k ∧ k < 0x6_0000_0000_0 then 0xFF#8 else 0#8

/-- The canonical form of memory: addresses strictly rising, no byte listed that an unlisted address reads. -/
def Memory.wf (m : Memory) : Bool := FMap.wf memReset m

/-- One byte of a memory. -/
def State.byte (s : State) (m : MemId) (a : Nat) : Byte := s.mem.get memReset (m.base + a)

/-- Write one byte of a memory: an ECC error that stood in it goes with what it held (R26). -/
def State.setByte (s : State) (m : MemId) (a : Nat) (v : Byte) : State :=
  { s with mem := s.mem.set memReset (m.base + a) v,
           ecc := s.ecc.filter (fun e => !(decide (e.place = 0) && decide (e.addr = m.base + a))) }

/-- Does an ECC error stand in the `n` bytes from address `a` of a memory: one that cannot be corrected
(`double`), or one that is corrected (R26)? -/
def State.eccIn (s : State) (m : MemId) (a n : Nat) (double : Bool) : Bool :=
  s.ecc.any (fun e => decide (e.place = 0) && decide (m.base + a ≤ e.addr) && decide (e.addr < m.base + a + n)
    && decide (e.double = double))

/-- Does an error that ECC cannot correct stand at address `a` of the place `p`? -/
def State.eccAt (s : State) (p a : Nat) : Bool :=
  s.ecc.any (fun e => decide (e.place = p) && decide (e.addr = a) && e.double)

/-- What stood at addresses `lo` to `hi − 1` of the place `p` is replaced or gone, with its ECC errors. -/
def State.eccGone (s : State) (p lo hi : Nat) : State :=
  { s with ecc := s.ecc.filter (fun e => !(decide (e.place = p) && decide (lo ≤ e.addr) && decide (e.addr < hi))) }

/-- `n` bytes from address `a`, little-endian, as a number. -/
def State.load (s : State) (m : MemId) (a : Nat) : Nat → Nat
  | 0 => 0
  | n + 1 => (s.byte m a).toNat + 256 * s.load m (a + 1) n

/-- Store the `n` low bytes of `v` from address `a`, little-endian. -/
def State.put (s : State) (m : MemId) (a : Nat) : Nat → Nat → State
  | 0, _ => s
  | n + 1, v => (s.setByte m a (BitVec.ofNat 8 v)).put m (a + 1) n (v / 256)

/-- Store a list of bytes from address `a`. -/
def State.putBytes (s : State) (m : MemId) (a : Nat) : List Byte → State
  | [] => s
  | b :: bs => (s.setByte m a b).putBytes m (a + 1) bs

/-- `n` bytes from address `a` as a list. -/
def State.getBytes (s : State) (m : MemId) (a n : Nat) : List Byte :=
  (List.range n).map (fun i => s.byte m (a + i))

/-- Set `n` bytes from address `a` to `v`, by dropping what is listed there. -/
def State.fillRange (s : State) (lo hi : Nat) (keep : Nat → Bool) : State :=
  { s with mem := ⟨s.mem.cells.filter (fun c => !(decide (lo ≤ c.1) && decide (c.1 < hi)) || keep c.1)⟩,
           ecc := s.ecc.filter (fun e => !(decide (e.place = 0) && decide (lo ≤ e.addr) && decide (e.addr < hi))
             || keep e.addr) }

/-- Wipe the memory `m`: every byte reads as after reset again (R456). -/
def State.wipe (s : State) (m : MemId) : State :=
  s.fillRange m.base (m.base + m.size) (fun _ => false)

/-! ## Free values -/

/-- The next free value is a fresh one. -/
def State.tickFree (s : State) : State := { s with free := s.free + 1 }

/-- A free number. -/
def State.freeNat (s : State) : Nat := Config.freeNat s.free

/-- A free word. -/
def State.freeWord (s : State) : Word := Config.freeWord s.free

/-- A free yes or no. -/
def State.freeBool (s : State) : Bool := Config.freeBool s.free

/-! ## The agenda: what falls due later -/

/-- Insert behind everything due no later. -/
def insertDue (d : Due) : List Due → List Due
  | [] => [d]
  | x :: xs => if d.t < x.t then d :: x :: xs else x :: insertDue d xs

/-- Let event `e` fall due `dt` ticks from now. -/
def State.due (s : State) (dt : Nat) (e : Ev) : State :=
  { s with agenda := insertDue ⟨s.now + dt, e⟩ s.agenda }

/-- Let command `c` fall due `dt` ticks from now. -/
def State.sched (s : State) (dt : Nat) (c : Instr) : State := s.due dt (.cmd c)

/-- Take the events that satisfy `p` off the agenda. -/
def State.undue (s : State) (p : Ev → Bool) : State :=
  { s with agenda := s.agenda.filter (fun d => !p d.ev) }

/-- Take command `c` off the agenda. -/
def State.cancel (s : State) (c : Instr) : State := s.undue (fun e => decide (e = .cmd c))

/-- Let command `c` fall due `dt` ticks from now, and no earlier arming of it. -/
def State.resched (s : State) (dt : Nat) (c : Instr) : State := (s.cancel c).sched dt c

/-! ## Module state (R20) -/

/-- The present module state, coded as R20 codes it. -/
def State.mstate (s : State) : Nat := s.f PWS.MODSTATE_STATE

def stOFF : Nat := 0
def stSLEEP : Nat := 1
def stBOOT : Nat := 2
def stTEST : Nat := 3
def stREADY : Nat := 4
def stRUN : Nat := 5
def stSAFE : Nat := 6
def stHOLDUP : Nat := 7
def stRECOVERY : Nat := 8

/-- Is the module in one of the states listed. -/
def State.isIn (s : State) (l : List Nat) : Bool := l.contains s.mstate

/-! ## Time stamps -/

/-- NS of a base. -/
def State.ns (s : State) (b : Nat) : Word := s.rd (TB.NS b)

/-- The wrap count of a base (R33). -/
def State.wc (s : State) (b : Nat) : Nat := s.f (TB.STAT_WC b)

/-- The 64-bit time of a base, formed as R36 forms it. -/
def State.time64 (s : State) (b : Nat) : Wide :=
  BitVec.ofNat 64
    (((s.rd (TIMEEXT.HI_BASE b)).toNat
        + (s.wc b + 256 - s.f (TIMEEXT.WC_BASE_V b)) % 256) * 2 ^ 32
      + (s.ns b).toNat)

/-- The captured edge time of R41 on a base, in 125 ps units within 2^43: the edge lies
4 ns − FRAC × 125 ps before the tick. -/
def edgeTime (wc ns frac : Nat) : Nat := ((wc * 2 ^ 32 + ns) * 8 + frac + 2 ^ 43 - 32) % 2 ^ 43

def State.tb (s : State) (b : Nat) : TimeBase := s.tbase.get (fun _ => TimeBase.reset) b

def State.setTb (s : State) (b : Nat) (u : TimeBase) : State :=
  { s with tbase := s.tbase.set (fun _ => TimeBase.reset) b u }

/-- The event time of the last firing of comparator `c` (R37). -/
def State.lastEvent (s : State) (c : Nat) : Word := s.tbu.event.get (fun _ => 0#32) c

/-- What base `b` below 3 counts to at the next CLK_PWM tick, in 2^-32 ns, a wrap included (R31): 4 ns and, on
bases 0 and 1, ADJ × 2^-32 ns. -/
def State.baseNext (s : State) (b : Nat) : Nat :=
  let adj : Int := if b < 2 then s.rdI (TB.RATE b) else 0
  (((s.ns b).toNat * (2 ^ 32 : Nat) + (s.tb b).frac + 4 * (2 ^ 32 : Nat) : Int) + adj).toNat

/-- A step of base `b` takes effect by tick `t` (R47). -/
def State.stepsBy (s : State) (b t : Nat) : Bool := (s.tb b).stepAt.any (fun x => decide (x ≤ t))

/-- The NS that stamps an event which falls on a tick itself (R41, with FRAC 0): that of the tick which
follows it. -/
def State.stampNs (s : State) (b : Nat) : Word :=
  if s.stepsBy b (s.now + 1) then s.rd (TB.STEPV b) else BitVec.ofNat 32 (s.baseNext b / 2 ^ 32)

/-- The wrap count beside `stampNs`. -/
def State.stampWc (s : State) (b : Nat) : Nat :=
  (s.wc b + (s.stepsBy b (s.now + 1) || decide (2 ^ 64 ≤ s.baseNext b)).toNat) % 256

/-! ## Records (R431 to R433) and tokens (R318) -/

/-- A subsystem makes a record of class `cls` and code `code`; Anise judges it at its admission. -/
def State.record (s : State) (cls code unit sev : Nat) (payload : BitVec 128) : State :=
  { s with ansIn := s.ansIn ++
      [⟨s.time64 0, BitVec.ofNat 16 (cls * 256 + code), unit, sev, 0, payload, s.f BBS.GCFG_MOD⟩] }

/-- A record whose rule states no payload: bytes 16 to 19 carry the unit's STAT register (R431). -/
def State.recordStat (s : State) (cls code unit sev stat : Nat) : State :=
  s.record cls code unit sev ((s.rd stat).setWidth 128)

/-- Pack a payload from (value, bytes) pairs, byte 16 first. -/
def packPayload : List (Nat × Nat) → Nat
  | [] => 0
  | (v, n) :: r => v % 256 ^ n + 256 ^ n * packPayload r

def payloadOf (l : List (Nat × Nat)) : BitVec 128 := BitVec.ofNat 128 (packPayload l)

/-- The record of R10 and R11 for a command or a write that the present state does not allow. -/
def State.sysIllegal (s : State) : State := s.record 0x15 0x01 0 2 0#128

/-- A source posts a token towards Clove. -/
def State.token (s : State) (tag : Nat) (val : Word) (rank : Nat) : State :=
  { s with clvIn := s.clvIn ++ [⟨BitVec.ofNat 16 tag, val, rank⟩] }

/-! ## The judgement of a register write (R11) -/

/-- R11: a refused value sets the block's error flag; an acceptable value in a state that locks the
register leaves a record; otherwise the write acts. -/
def State.judge (s : State) (bad : Bool) (err : Field) (locked : Bool) (good : State → State) :
    State :=
  if bad then s.raise err else if locked then s.sysIllegal else good s

/-- Signal MSI-X vector `v` (R400): the message goes out, or its pending bit waits while the vector
is masked, as the PCIe specification says. -/
def State.msix (s : State) (v : Nat) : State :=
  if s.on (MSIX.CTRL_MASK v) then s.setF ⟨MSIXP.PBA (v / 32), v % 32, 1⟩ 1
  else { s with msixSent := s.msixSent.set (fun _ => 0) v (s.msixSent.get (fun _ => 0) v + 1) }

/-- A module event of HQ_EVCFG (R413): bit 6 and 0 for a state change, 7 and 1 for a capture record. -/
def State.hqEvent (s : State) (en stat : Field) : State :=
  if s.on en then (s.raise stat).msix (s.f HQ.EVCFG_VEC) else s

/-- A command gives a completion (R185, R396): to its ring, or to the module that forwarded it. -/
def State.complete (s : State) (via : Via) (res : Nat) (val : Nat := 0) (final : Bool := true)
    (rem : Option Nat := none) : State :=
  let t := { s with cqes := s.cqes ++ [(⟨via, res, BitVec.ofNat 64 val, final, rem⟩ : Cqe)] }
  match via with
  | .none => s
  | .ring r _ => t.sched 0 (.cqeWrite r true)
  | .rcd _ r _ => t.sched 0 (.cqeWrite r true)

/-- An access got its answer. -/
def State.answer (s : State) (r : Resp) : State := { s with lastResp := r }

end Sys2Proof.Machine
end

