-- ==== Sys2Proof/Machine/Trf.lean ====
section
/-! DEFINITION. The trip fabric: sources, latches, forced levels (spec/04_trip_fabric.md, R76 to R86)
and the pads of a drive port behind it (R60, R78). -/

namespace Sys2Proof.Machine

/-! ## Drive-port parts the trip fabric reads -/

def State.dpwU (s : State) (p : Nat) : DpwPort := s.dpw.get (fun _ => DpwPort.reset) p

def State.setDpw (s : State) (p : Nat) (u : DpwPort) : State :=
  { s with dpw := s.dpw.set (fun _ => DpwPort.reset) p u }

def State.legU (s : State) (p k : Nat) : Leg := s.leg.get (fun _ => Leg.reset) (4 * p + k)

def State.setLeg (s : State) (p k : Nat) (l : Leg) : State :=
  { s with leg := s.leg.set (fun _ => Leg.reset) (4 * p + k) l }

def State.pgU (s : State) (n : Nat) : PgUnit := s.pg.get (fun _ => PgUnit.reset) n

def State.setPg (s : State) (n : Nat) (u : PgUnit) : State :=
  { s with pg := s.pg.set (fun _ => PgUnit.reset) n u }

/-- The exact time of the present tick, in 125 ps units (R49). -/
def State.x (s : State) : Nat := s.now * 32

/-! ## Forced levels (R77, R78) -/

/-- The latch bits FLT, DCV, TRIPN, SW, STO, PWS, STATE of port `p`. -/
def State.latches (s : State) (p : Nat) : Nat := (s.rd (TRF.LATCH p)).toNat % 128

/-- Is port `p` forced: a latch is set, or the forced levels still stand (R77, R83). -/
def State.forced (s : State) (p : Nat) : Bool :=
  decide (s.latches p ≠ 0) || s.on (DPW.STAT_FORCED p)

/-- The forced state of the outputs in the code of `TRF_Pp_SAFE` (R78): a fixed latch makes all
INACTIVE, else a programmed latch gives the SAFE word, else the levels that still stand. -/
def State.forcedWord (s : State) (p : Nat) : BitVec 16 :=
  if s.latches p / 16 ≠ 0 then 0#16
  else if s.latches p ≠ 0 then (s.rd (TRF.SAFE p)).setWidth 16
  else (s.dpwU p).held

/-- The two-bit code of the high or low output of leg `k` (A to D) in a SAFE word. -/
def safeCode (w : BitVec 16) (k : Nat) (high : Bool) : Nat :=
  w.toNat / 2 ^ (2 * (2 * (3 - k) + high.toNat)) % 4

/-- Is the output of leg `k` active at the pad (R78): inactive in OFF; forced as the trip fabric
says, KEEP following the brake chopper; else as computed. -/
def State.padOn (s : State) (p k : Nat) (high : Bool) : Bool :=
  if s.f (DPW.CFG_MODE p) = 0 then false
  else
    let l := s.legU p k
    let own := if high then l.hOn else l.lOn
    if s.forced p then
      match safeCode (s.forcedWord p) k high with
      | 1 => true
      | 2 => own && decide (k = 3) && high && decide (s.f (DPW.CFG_MODE p) = 1)
               && decide (s.f (DPW.CFG_DMODE p) = 2)
      | _ => false
    else own

/-- The level of the pad after polarity (R60). -/
def State.padLevel (s : State) (p k : Nat) (high : Bool) : Bool :=
  xor (s.padOn p k high) (s.on (if high then DPW.CFG_POLH p else DPW.CFG_POLL p))

/-- `DPW_Pp_PINS.PAD`: AH, AL, BH, BL, CH, CL, DH, DL in bits 7 to 0 (R75). -/
def State.padByte (s : State) (p : Nat) : Nat :=
  (List.range 4).foldl (fun a k => a * 4 + 2 * (s.padLevel p k true).toNat
    + (s.padLevel p k false).toNat) 0

/-- Note when a pad that was on has turned off (R73). -/
def State.noteOff (before : State) (p : Nat) (s : State) : State :=
  (List.range 4).foldl (fun t k =>
    let l := t.legU p k
    let l := if before.padOn p k true && !t.padOn p k true then { l with hOff := t.x } else l
    let l := if before.padOn p k false && !t.padOn p k false then { l with lOff := t.x } else l
    if l = t.legU p k then t else t.setLeg p k l) s

/-- A forced level takes effect: pending turn-ons are cancelled (R77), and where forcing starts every carry is 0 (R67,
R83). -/
def State.forceLegs (s : State) (p : Nat) (starts : Bool) : State :=
  (List.range 4).foldl (fun t k =>
    let l := t.legU p k
    let n := { l with pend := none, carry := if starts then 0 else l.carry }
    if n = l then t else t.setLeg p k n) s

/-! ## Latches (R77, R81 to R84) -/

/-- The lowest set bit of a latch mask: the source code of R84. -/
def lowestCode (mask : Nat) : Nat :=
  match (List.range 7).find? (fun i => decide (mask / 2 ^ i % 2 = 1)) with
  | some i => i
  | none => 0

/-- Is the record a first trip of port `p`? -/
def Rec.isTrip (p : Nat) (r : Rec) : Bool := decide (r.code = 0x0801#16) && decide (r.unit = p)

/-- What FIRST holds of the time of a latch edge (R41, R84). -/
def State.firstTime (s : State) (p frac : Nat) : State :=
  let t := s.setF (TRF.FIRST_FRAC p) (frac % 32)
  let t := t.setF (TRF.FIRST_WC p) (if 32 ≤ frac then s.stampWc 0 else s.wc 0)
  t.wr (TRF.FTIME p) (if 32 ≤ frac then s.stampNs 0 else s.ns 0)

/-- The payload of a TRIP record: port, SRC, latch set and FTIME (R84). Their order and widths, 1, 1, 2 and 4
bytes, are not given (log entry 97, DESIGN CHOICE). -/
def State.tripPayload (s : State) (p : Nat) : BitVec 128 :=
  payloadOf [(p, 1), (s.f (TRF.FIRST_SRC p), 1), (s.latches p, 2), ((s.rd (TRF.FTIME p)).toNat, 4)]

/-- A further latch of port `p` sets. In the tick of the first trip SRC takes the lowest code among them, and
the record shows all of them (R84); later nothing changes. -/
def State.tripAgain (s : State) (p mask frac : Nat) : State :=
  if s.ansIn.any (Rec.isTrip p) then
    let s := if lowestCode mask < s.f (TRF.FIRST_SRC p)
      then (s.setF (TRF.FIRST_SRC p) (lowestCode mask)).firstTime p frac else s
    { s with ansIn := s.ansIn.map (fun (r : Rec) => if Rec.isTrip p r then { r with payload := s.tripPayload p } else r) }
  else s

/-- Set the latches `mask` of port `p`. From all clear this is a first trip (R84): the time stamp on
TB_CELL, the count and the record. `frac` is that of R41; 32: the edge falls on the tick itself. -/
def State.latchSet (s : State) (p mask frac : Nat) : State :=
  if mask = 0 then s
  else
    let old := s.latches p
    let t := s.wrN (TRF.LATCH p) ((s.rd (TRF.LATCH p)).toNat ||| mask)
    let t := (t.raise (DPW.STAT_FORCED p)).forceLegs p (!s.forced p)
    let t := State.noteOff s p t
    if old ≠ 0 then t.tripAgain p mask frac
    else
      let t := (t.setF (TRF.FIRST_SRC p) (lowestCode mask)).raise (TRF.FIRST_VALID p)
      let t := (t.firstTime p frac).bump (TRF.CNT_TRIPS p)
      let t := t.sched 0 (.capTrigger (.trip (Fin.ofNat 96 p)) (t.rd (TRF.FTIME p)) (Fin.ofNat 32 frac)
        (BitVec.ofNat 8 (t.f (TRF.FIRST_WC p))))
      t.record 0x08 0x01 p 2 (t.tripPayload p)

/-- Clear the latches `mask` of port `p` (R83): in MODE = OFF the forcing ends with the last latch,
elsewhere the forced levels stand until the next period start. -/
def State.latchClear (s : State) (p mask : Nat) : State :=
  let old := s.latches p
  let new := old - (old &&& mask)
  if new = old then s
  else
    let t := s.wrN (TRF.LATCH p) ((s.rd (TRF.LATCH p)).toNat - (old &&& mask))
    if new ≠ 0 then State.noteOff s p t
    else if s.f (DPW.CFG_MODE p) = 0 then t.setF (DPW.STAT_FORCED p) 0
    else (t.raise (DPW.STAT_FORCED p)).setDpw p { t.dpwU p with held := s.forcedWord p }

/-! ## Inputs and sources (R76) -/

/-- The number of a filtered input in the map of inputs. -/
def tripKey : TripInput → Nat
  | .flt p => p.val
  | .dcv g => 96 + g.val
  | .tripN => 108
  | .sto g => 112 + g.val
  | .pws => 124
  | .modState => 125

/-- The latch bit of a source (R76). -/
def tripBit : TripInput → Nat
  | .flt _ => 1
  | .dcv _ => 2
  | .tripN => 4
  | .sto _ => 16
  | .pws => 32
  | .modState => 64

/-- The ports a source forces (R76), in ascending order. -/
def tripPorts : TripInput → List Nat
  | .flt p => [p.val]
  | .dcv g => (List.range 8).map (fun i => 8 * g.val + i)
  | .sto g => (List.range 8).map (fun i => 8 * g.val + i)
  | _ => List.range 96

/-- Is the source of this latch bit enabled on the port (`TRF_Pp_CFG`)? -/
def State.srcEnabled (s : State) (p bit : Nat) : Bool :=
  if bit = 1 then s.on (TRF.CFG_EN_FLT p)
  else if bit = 2 then s.on (TRF.CFG_EN_DCV p)
  else if bit = 4 then s.on (TRF.CFG_EN_TRIPN p)
  else true

def State.tripInU (s : State) (k : Nat) : TripIn := s.tripIn.get (fun _ => TripIn.reset) k

def State.setTripIn (s : State) (k : Nat) (u : TripIn) : State :=
  { s with tripIn := s.tripIn.set (fun _ => TripIn.reset) k u }

/-- `TRF_GSTAT` follows the global sources. -/
def State.gstatSource (s : State) (i : TripInput) (b : Bool) : State :=
  match i with
  | .tripN => s.flag TRFG.GSTAT_TRIPN b
  | .pws => s.flag TRFG.GSTAT_PLL_UNLOCK b
  | .modState => s.flag TRFG.GSTAT_STATE b
  | .sto g => s.flag ⟨TRFG.GSTAT, 16 + g.val, 1⟩ b
  | _ => s

/-- A source asserts: its input, after the filter, is active, and the latch of every port it forces
and enables sets at once (R77). -/
def State.tripAssert (s : State) (i : TripInput) (frac : Nat) : State :=
  let t := (s.setTripIn (tripKey i) ⟨true, none⟩).gstatSource i true
  (tripPorts i).foldl (fun t p =>
    if t.srcEnabled p (tripBit i) then t.latchSet p (tripBit i) frac else t) t

/-- A source's input goes inactive: the window of R81 opens; the fixed latches follow their source
(R82). -/
def State.tripRelease (s : State) (i : TripInput) : State :=
  let t := if (s.tripInU (tripKey i)).on
    then (s.setTripIn (tripKey i) ⟨false, some s.now⟩).gstatSource i false
    else s.gstatSource i false
  if tripBit i < 16 then t
  else (tripPorts i).foldl (fun t p => t.latchClear p (tripBit i)) t

/-- Glitch-filter time of a code, in ns (R86). -/
def filtNs : Nat → Nat
  | 0 => 0
  | 1 => 20
  | 2 => 50
  | _ => 100

/-- The input of a maskable latch bit of port `p`, and its window W in ns (R81, R92). -/
def State.bitInput (s : State) (p bit : Nat) : Nat × Nat :=
  let w (c : Nat) := if filtNs c = 0 then 4 else filtNs c
  if bit = 1 then (p, w (s.f (TRF.CFG_FLT_FILT p)))
  else if bit = 2 then (96 + p / 8, s.f (CAQG.CFG_DIV (p / 8)) * 4)
  else (108, w (s.f TRFG.GCFG_TRIPN_FILT))

/-- Is the clear of a maskable latch bit refused (R81)? A masked source never refuses; SW has no
input. -/
def State.clearRefused (s : State) (p bit : Nat) : Bool :=
  if bit = 8 then false
  else if !s.srcEnabled p bit then false
  else
    let (k, w) := s.bitInput p bit
    let u := s.tripInU k
    u.on || (match u.relAt with
      | some a => decide ((s.now - a) * 4 < w)
      | none => false)

/-- A write of `v` to `TRF_Pp_LATCH`, `hw` the bits that hardware sets in the same clock (R81, R82,
R6). -/
def State.latchWrite (s : State) (p : Nat) (v hw : Word) : State :=
  let one (b : Nat) : Bool := v.getLsbD b
  let asks := [0, 1, 2, 3].filter (fun b => one b && !hw.getLsbD b)
  let refused := asks.filter (fun b => s.clearRefused p (2 ^ b))
  let granted := asks.filter (fun b => !s.clearRefused p (2 ^ b))
  let anyRef := !refused.isEmpty || one 4 || one 5 || one 6
  let t := if one 8 then s.setF (TRF.LATCH_CLR_REFUSED p) 0 else s
  let t := t.latchSet p (hw.toNat % 128) 32
  let t := t.latchClear p (granted.foldl (fun a b => a + 2 ^ b) 0)
  t.raiseIf (anyRef || hw.getLsbD 8) (TRF.LATCH_CLR_REFUSED p)

/-- Does R79 refuse this SAFE word? -/
def safeBad (v : Word) : Bool :=
  let w : BitVec 16 := v.setWidth 16
  let c (k : Nat) (h : Bool) := safeCode w k h
  (List.range 4).any (fun k =>
    (c k true = 1 && c k false = 1) || c k true = 3 || c k false = 3 || c k false = 2
      || (c k true = 2 && k ≠ 3) || (c k true = 2 && c k false = 1))

/-- A write to `TRF_Pp_SAFE` (R79, R80). -/
def State.safeWrite (s : State) (p : Nat) (v : Word) : State :=
  if safeBad v then (s.raise TRFG.ERR_BAD_ARG).setF TRFG.ERR_PORT p
  else if s.f (DPW.CFG_MODE p) ≠ 0 then s.sysIllegal
  else s.store (TRF.SAFE p) v

/-- A write to `TRF_Pp_CFG` (R80): an unmasked source that is asserted sets its latch at once. -/
def State.trfCfgStore (s : State) (p : Nat) (v : Word) : State :=
  if s.f (DPW.CFG_MODE p) ≠ 0 then s.sysIllegal
  else
    let t := s.store (TRF.CFG p) v
    let fresh (bit : Nat) : Nat :=
      if !s.srcEnabled p bit && t.srcEnabled p bit && (t.tripInU (t.bitInput p bit).1).on
      then bit else 0
    t.latchSet p (fresh 1 + fresh 2 + fresh 4) 32

/-- A write to `TRF_GCFG`: only outside RUN and SAFE (R80). -/
def State.gcfgWrite (s : State) (v : Word) : State :=
  if s.isIn [stRUN, stSAFE] then s.sysIllegal else s.store TRFG.GCFG v

/-- A write to `TRF_SWTRIPn`: the SW latch of every port whose bit is 1; the bits read back 0. -/
def State.swTripWrite (s : State) (n : Nat) (v : Word) : State :=
  (List.range 32).foldl (fun t b => if v.getLsbD b then t.latchSet (32 * n + b) 8 32 else t) s

/-- `TRF_FORCEDn`: bit b is port 32 × n + b forced. -/
def State.forcedBits (s : State) (n : Nat) : Nat :=
  (List.range 32).foldl (fun a b => a + (s.forced (32 * n + b)).toNat * 2 ^ b) 0

/-- The SW latch of port `p` sets as a write to `TRF_SWTRIPn` would set it (R93). -/
def State.swLatch (s : State) (p : Nat) : State := s.latchSet p 8 32

/-- Does a source inside the module assert now (R76)? A pin asserts when its command says so. -/
def State.srcAsserts (s : State) : TripInput → Bool
  | .flt _ => true
  | .tripN => true
  | .dcv g => (s.caq.get (fun _ => CaqCh.reset) (192 + g.val)).hi
  | .sto g => s.on ⟨SAF.GSTO, g.val, 1⟩
  | .pws => s.pws.unlocked
  | .modState => !s.isIn [stRUN, stSAFE]

/-- Is the source a pin, whose level comes from outside? -/
def isPin : TripInput → Bool
  | .flt _ => true
  | .tripN => true
  | _ => false

/-- TRIP_SOURCE_ASSERT (R77): a source inside the module asserts by itself, and so only confirms what stands. -/
def execTripSourceAssert (src : TripInput) (frac : Fin 32) (s : State) : Out :=
  ok (if s.srcAsserts src then s.tripAssert src frac.val else s)

/-- TRIP_INPUT_RELEASE (R81): FLT_N or TRIP_N; the other sources release by themselves (R82). -/
def execTripInputRelease (src : TripInput) (s : State) : Out := ok (if isPin src then s.tripRelease src else s)

end Sys2Proof.Machine
end

