-- ==== Sys2Proof/Machine/Dpw.lean ====
section
/-! DEFINITION. Drive ports and PWM (spec/03_drive_ports.md, R49 to R75, R505). Times inside a port
are exact, in units of 125 ps; a tick is 32 units. -/

namespace Sys2Proof.Machine

/-! ## Lengths -/

/-- The Loop Engine frame 10^9/F_LE in 125 ps units (R40, R53). -/
def State.frameUnits (s : State) : Nat := 1000000 / 2 ^ s.f LPEG.GCFG_FLE

/-- The shortest pulse in units, 0 taken as 1 tick (R51). -/
def minpwUnits (minpw : Nat) : Nat := 32 * (if minpw = 0 then 1 else minpw)

def State.minpwEff (s : State) (p : Nat) : Nat := minpwUnits (s.f (DPW.PULSE_MINPW p))

/-- The period a port runs outside OFF: k/F_LE when loop-locked, else the PERIOD shadow (R53). -/
def State.portPeriod (s : State) (p : Nat) : Nat :=
  if s.on (DPW.CFG_SYNC p) then s.f (DPW.PERIOD_PER p)
  else s.frameUnits * 2 ^ s.f (DPW.CFG_K p)

/-- Does 2 × (DT + MINPW_eff) exceed `per` on some leg (R51)? -/
def deadTimeBad (dts : List Nat) (minpw per : Nat) : Bool :=
  dts.any (fun d => decide (per < 2 * (d + minpw)))

def State.dts (s : State) (p : Nat) : List Nat :=
  (List.range 4).map (fun k => s.f (DPW.DT_DT p k))

/-! ## Legs (R59) -/

/-- The tick at or after an exact time, counted from now. -/
def State.ticksTo (s : State) (x : Nat) : Nat := (x + 31) / 32 - s.now

/-- The dead time of leg `k`. -/
def State.dt (s : State) (p k : Nat) : Nat := s.f (DPW.DT_DT p k)

/-- The leg with its pending turn-on done. -/
def Leg.turnedOn (l : Leg) : Leg :=
  if l.pend = none then l
  else { l with pend := none, hOn := l.hOn || decide (l.lvl = .high), lOn := l.lOn || decide (l.lvl = .low) }

/-- The leg as it is at time `x`, which may lie before the present tick: a turn-on due before `x` has taken place. -/
def Leg.before (l : Leg) (x : Nat) : Leg := if l.pend.any (fun a => decide (a < x)) then l.turnedOn else l

/-- Leg `k` takes the level `v` at time `x`: the other output turns off at once, the output that is
to be on turns on after the dead time, and an earlier pending turn-on is cancelled (R59). -/
def State.legTo (s : State) (p k : Nat) (v : Lvl) (x : Nat) : State :=
  let l := (s.legU p k).before x
  if l.lvl = v then s
  else
    let hOff := if l.hOn && decide (v ≠ .high) then x else l.hOff
    let lOff := if l.lOn && decide (v ≠ .low) then x else l.lOff
    let d := s.dt p k
    let c : Instr := .deadtimeTurnOn (Fin.ofNat 96 p) (Fin.ofNat 4 k)
    let l := { l with lvl := v, hOn := false, lOn := false, pend := none, trAt := x,
                      hOff := hOff, lOff := lOff }
    match v with
    | .off => (s.setLeg p k l).cancel c
    | .high =>
      if d = 0 then (s.setLeg p k { l with hOn := true }).cancel c
      else (s.setLeg p k { l with pend := some (x + d) }).resched (s.ticksTo (x + d)) c
    | .low =>
      if d = 0 then (s.setLeg p k { l with lOn := true }).cancel c
      else (s.setLeg p k { l with pend := some (x + d) }).resched (s.ticksTo (x + d)) c

/-- The pending turn-on of leg `k` takes place, unless it was cancelled (R59). -/
def State.turnOn (s : State) (p k : Nat) : State :=
  if (s.legU p k).pend = none then s else s.setLeg p k (s.legU p k).turnedOn

/-- Every output of the port inactive, nothing pending (R65); the choppers of a stepper start anew (R168). -/
def State.legsOff (s : State) (p : Nat) : State :=
  let s := (List.range 4).foldl (fun t k =>
    let l := t.legU p k
    (t.setLeg p k { l with
        lvl := .off, hOn := false, lOn := false, pend := none, carry := 0, delayed := none,
        hOff := if l.hOn then s.x else l.hOff, lOff := if l.lOn then s.x else l.lOff }).cancel
      (.deadtimeTurnOn (Fin.ofNat 96 p) (Fin.ofNat 4 k))) s
  let u := s.pgU p
  if u.chopA = Chop.reset ∧ u.chopB = Chop.reset then s
  else (s.setPg p { u with chopA := Chop.reset, chopB := Chop.reset }).undue (fun e => match e with
    | .cmd (.chopperTimerEnd q _) => decide (q.val = p)
    | _ => false)

/-! ## Loading (R61 to R67) -/

/-- The result of the short-pulse test of one leg: on-time, carry, whether a short pulse was found. -/
structure ShortRes where
  t : Nat
  carry : Int
  short : Bool
  deriving DecidableEq, Repr

/-- The short-pulse policy of R66. -/
def shortPulse (req per dt minpw policy : Nat) (carry : Int) : ShortRes :=
  let t := (clampInt 0 per (req + carry)).toNat
  let lim := dt + minpw
  if 0 < t ∧ t < lim then
    match policy with
    | 0 => ⟨0, t, true⟩
    | 1 => ⟨0, 0, true⟩
    | _ => ⟨lim, 0, true⟩
  else if 0 < per - t ∧ per - t < lim then
    match policy with
    | 0 => ⟨per, (t : Int) - per, true⟩
    | 1 => ⟨per, 0, true⟩
    | _ => ⟨per - lim, 0, true⟩
  else ⟨t, 0, false⟩

/-- The legs that follow an on-time in the present mode (R50, R71). -/
def State.dutyLegs (s : State) (p : Nat) : List Nat :=
  if s.f (DPW.CFG_MODE p) = 3 then [0, 1, 2, 3]
  else if s.f (DPW.CFG_MODE p) = 1 then
    (if s.f (DPW.CFG_DMODE p) = 1 then [0, 1, 2, 3] else [0, 1, 2])
  else []

/-- Load one leg: clamp to the period (R61), apply R66, store the active on-time. -/
def State.loadLeg (s : State) (p k per : Nat) : State :=
  let l := s.legU p k
  let s := s.raiseIf (decide (per < l.req)) (DPW.STAT_CMP_CLAMP p)
  let r := shortPulse (min l.req per) per (s.dt p k) (s.minpwEff p) (s.f (DPW.PULSE_SHORTPW p)) l.carry
  let s := if r.short
    then (s.bump (DPW.STAT_SHORT_CNT p)).raise (DPW.STAT_SHORT p) else s
  (s.setLeg p k { l with carry := r.carry }).setF (DPW.ACT_TON p k) r.t

/-- The changes of c of one leg in a period of length `per` from `x` (R58): the level at the start
and the later changes on the agenda. -/
def State.runLeg (s : State) (p k per x : Nat) : State :=
  let ton := s.f (DPW.ACT_TON p k)
  let rise := if s.on (DPW.CFG_ALIGNMENT p) then (per - ton) / 2 else 0
  if ton = 0 then s.legTo p k .low x
  else
    let s := s.legTo p k (if rise = 0 then .high else .low) x
    let s := if rise = 0 then s else s.due (s.ticksTo (x + rise)) (.legEdge p k true (x + rise))
    if ton = per then s
    else s.due (s.ticksTo (x + rise + ton)) (.legEdge p k false (x + rise + ton))

/-- Take the shadow requests of the legs listed. -/
def State.takeReq (s : State) (p : Nat) (ks : List Nat) : State :=
  ks.foldl (fun t k => t.setLeg p k { t.legU p k with req := t.f (DPW.CMP_TON p k) }) s

/-- The set of a period start in 3PH and 4LEG (R61, R64, R65): a set marked at least one tick before is loaded, else the last
set again; before the first marked set nothing switches. A port has one shadow set: where one set was marked
early and a second one in the tick of the start, the start reloads the last loaded set and the later mark stands
for both (log entry 13). CMPD under DMODE = DUTY loads at every
period start (R63). -/
def State.loadSet (s : State) (p : Nat) (coin : Bool) (x : Nat) : State :=
  let u := s.dpwU p
  let fresh := u.marked && !coin && decide (32 * u.markAt + 32 ≤ x)
  if !fresh && !s.on (DPW.STAT_ACTIVE_VALID p) then s
  else
    let s := if fresh then
        let t := s.takeReq p (s.dutyLegs p)
        let t := t.setDpw p { t.dpwU p with marked := false, perReq := t.f (DPW.PERIOD_PER p) }
        (t.setF (DPW.CTRL_COMMIT p) 0).raise (DPW.STAT_ACTIVE_VALID p)
      else if s.f (DPW.CFG_MODE p) = 1 ∧ s.f (DPW.CFG_DMODE p) = 1 then s.takeReq p [3]
      else s
    let per := if s.on (DPW.CFG_SYNC p) then (s.dpwU p).perReq else s.portPeriod p
    let s := s.setF (DPW.PERACT_PER p) per
    let s := (s.dutyLegs p).foldl (fun t k => t.loadLeg p k per) s
    (s.dutyLegs p).foldl (fun t k => t.runLeg p k per x) s

/-! ## Trigger compares (R68, R69) -/

/-- Does compare `n` count from the frame: REF = FRAME on a loop-locked port. -/
def State.trgFrame (s : State) (p n : Nat) : Bool :=
  s.on ⟨DPW.TRGC0 p + 4 * n, 30, 1⟩ && !s.on (DPW.CFG_SYNC p)

/-- Put compare `n` on the agenda for a reference interval of length `len` that starts at `x`. -/
def State.armTrg (s : State) (p n len x : Nat) : State :=
  let r := s.rd (DPW.TRGC0 p + 4 * n)
  let pos := getBits 0 25 r
  if !r.getLsbD 25 then s
  else if len ≤ pos then s.raiseIf (s.on (DPW.CFG_SYNC p)) (DPW.STAT_TRG_SKIP p)
  else s.sched (s.ticksTo (x + pos))
    (.trgcFire (Fin.ofNat 96 p) (Fin.ofNat 4 n) (Fin.ofNat 32 (32 - (x + pos) % 32)) (BitVec.ofNat 4 (getBits 26 4 r)))

def State.armTrgs (s : State) (p len x : Nat) (frame : Bool) : State :=
  (List.range 4).foldl (fun t n => if t.trgFrame p n = frame then t.armTrg p n len x else t) s

/-- A reference interval that starts at `x`, a period or a frame, ends the one before: its compares that lie at `x` or
later do not fire (R57, R68). -/
def State.cutTrgs (s : State) (p x : Nat) (frame : Bool) : State :=
  { s with agenda := s.agenda.filter (fun d => match d.ev with
    | .cmd (.trgcFire q n lead _) =>
      !(decide (q.val = p) && (s.trgFrame p n.val == frame) && decide (x + lead.val ≤ 32 * d.t))
    | _ => true) }

/-- The changes of c that lie before `x` in the present tick take place, the turn-ons before them too (R57, R58). -/
def State.edgesBefore (s : State) (p x : Nat) : State :=
  s.agenda.foldl (fun (t : State) d => match d.ev with
    | .legEdge q k high y =>
      if q = p ∧ d.t ≤ s.now ∧ y < x then t.legTo p k (if high then .high else .low) y else t
    | _ => t) s

/-- What a period start is about to replace (R65). -/
def State.setSnap (s : State) (p : Nat) : DpwUndo :=
  let u := s.dpwU p
  { tick := s.now, ctrl := s.rd (DPW.CTRL p), stat := s.rd (DPW.STAT p), peract := s.rd (DPW.PERACT p),
    act := (List.range 4).map (fun k => s.rd (DPW.ACT p k)), req := (List.range 4).map (fun k => (s.legU p k).req),
    marked := u.marked, markAt := u.markAt, perReq := u.perReq }

/-- The period start of this tick loads no set, for MODE = OFF takes effect in it (R65). -/
def State.unload (s : State) (p : Nat) : State :=
  match (s.dpwU p).undo with
  | none => s
  | some d =>
    if d.tick ≠ s.now then s
    else
      let s := s.wr (DPW.CTRL p) d.ctrl
      let s := [DPW.STAT_SHORT p, DPW.STAT_CMP_CLAMP p, DPW.STAT_ACTIVE_VALID p, DPW.STAT_SHORT_CNT p].foldl
        (fun (t : State) F => t.setF F (getBits F.lo F.w d.stat)) s
      let s := (List.range 4).foldl (fun (t : State) k =>
        (t.wr (DPW.ACT p k) (d.act.getD k 0#32)).setLeg p k { t.legU p k with req := d.req.getD k 0 }) s
      let s := s.setF (DPW.PERACT_PER p) (if s.on (DPW.CFG_SYNC p) then s.f (DPW.PERIOD_PER p) else s.frameUnits)
      s.setDpw p { s.dpwU p with marked := d.marked, markAt := d.markAt, perReq := d.perReq, undo := none }

/-- A port frame of a loop-locked port starts at the exact time `x`: its FRAME compares count from here (R68), and
every k-th starts a period (R54, R505). -/
def State.portFrame (s : State) (p x : Nat) : State :=
  if s.on (DPW.CFG_SYNC p) then s
  else
    let u := s.dpwU p
    let off := decide (s.f (DPW.CFG_MODE p) = 0)
    let k := if off then 1 else 2 ^ s.f (DPW.CFG_K p)
    let s := if u.frames % k = 0 then s.sched 0 (.dpwPeriodStart (Fin.ofNat 96 p) (Fin.ofNat 33 (s.x - x)) false) else s
    let s := if off then s else s.setDpw p { u with frames := u.frames + 1 }
    (s.cutTrgs p x true).armTrgs p s.frameUnits x true

/-! ## Period starts (R54, R56, R57, R61, R64, R65, R73, R505) -/

/-- The end of forcing at a period start (R73): the port drives its computed levels, turn-ons that forcing
cancelled included; an output that turns on while its complement turns
off, or within DT after it turned off, turns on DT after its complement turned off. An output that forcing drives active and
that is computed active stays on, though its computed turn-on still waits for its dead time (log entry 136, DESIGN
CHOICE). -/
def State.endForcing (s : State) (p x : Nat) : State :=
  if s.latches p ≠ 0 ∨ s.on (DPW.STAT_FORCED p) = false then s
  else
    let t := s.setF (DPW.STAT_FORCED p) 0
    (List.range 4).foldl (fun t k =>
      let l := t.legU p k
      let d := t.dt p k
      let high := decide (l.lvl = .high)
      let off := if s.padOn p k !high then x else if high then l.lOff else l.hOff
      let clear := if off = 0 then 0 else off + d
      let at_ := max (l.pend.getD 0) clear
      if l.lvl = .off then t.setLeg p k { l with hOn := false, lOn := false }
      else if x < at_ ∧ s.padOn p k high = false then
        (t.setLeg p k { l with hOn := false, lOn := false, pend := some at_ }).resched (t.ticksTo at_)
          (.deadtimeTurnOn (Fin.ofNat 96 p) (Fin.ofNat 4 k))
      else t.setLeg p k { l with hOn := high, lOn := !high, pend := none }) t

/-- The comparator of a stand-alone port and its period disagree by more than a tick (R57). -/
def State.mismatch (s : State) (p x : Nat) : State :=
  if !s.on (DPW.CFG_SYNC p) then s
  else
    let u := s.dpwU p
    let early := decide (u.start ≠ 0) && decide (x + 32 < u.start + s.f (DPW.PERACT_PER p))
    let late := decide (u.start ≠ 0) && decide (u.start + s.f (DPW.PERACT_PER p) + 32 < x)
    (s.raiseIf (early || late || u.ended) (DPW.STAT_PER_MISMATCH p)).setDpw p { u with ended := false }

/-- Port `p` starts a period at the exact time `x`. `coin`: a set was marked in this very tick, which
the period start does not load (R64). -/
def State.periodStart (s : State) (p : Nat) (x : Nat) (coin : Bool) : State :=
  let s := (s.mismatch p x).edgesBefore p x
  let s := s.undue (fun e => match e with
    | .legEdge q _ _ _ => decide (q = p)
    | .cmd (.standalonePeriodEnd q) => decide (q.val = p)
    | _ => false)
  let s := s.cutTrgs p x false
  let s := s.setDpw p { s.dpwU p with start := x, undo := some (s.setSnap p) }
  let alone := s.on (DPW.CFG_SYNC p)
  let s := match s.f (DPW.CFG_MODE p) with
    | 0 => s.setF (DPW.PERACT_PER p) (if alone then s.f (DPW.PERIOD_PER p) else s.frameUnits)
    | 2 => s.setF (DPW.PERACT_PER p) (s.portPeriod p)
    | _ => (if alone then s else s.setF (DPW.PERACT_PER p) (s.portPeriod p)).loadSet p coin x
  let s := s.endForcing p x
  let per := s.f (DPW.PERACT_PER p)
  let s := s.armTrgs p per x false
  if alone then
    s.sched (s.ticksTo (x + per) + 2) (.standalonePeriodEnd (Fin.ofNat 96 p))
  else s

/-! ## Register writes -/

/-- Does R51 refuse the configuration word `v`? -/
def State.cfgBad (s : State) (p : Nat) (v : Word) : Bool :=
  let mode := getBits 0 3 v
  let sync := getBits 4 1 v
  let k := getBits 5 2 v
  let owner := getBits 8 2 v
  let tsel := getBits 10 7 v
  let dmode := getBits 19 2 v
  let per := if sync = 1 then s.f (DPW.PERIOD_PER p) else s.frameUnits * 2 ^ k
  decide (3 < mode) || decide (k = 3) || decide (owner = 3) || decide (dmode = 3)
    || (decide (owner = 0) && decide (sync = 1)) || (decide (mode = 2) && decide (owner = 0))
    || (decide (sync = 1) && decide (tsel = 0)) || deadTimeBad (s.dts p) (s.minpwEff p) per

/-- Is the module in a pair role (R15, R17): `FOV_STAT.ROLE` PAIR-ACTIVE or PAIR-STANDBY. -/
def State.pairRole (s : State) : Bool := decide (s.f FOV.STAT_ROLE = 3) || decide (s.f FOV.STAT_ROLE = 4)

/-- Is every port held OFF (R451): the lifecycle state is DECOMMISSIONED. -/
def State.heldOff (s : State) : Bool := decide (s.f SYS.LC_STATE = 4)

/-- MODE leaves OFF (R65): ACTIVE_VALID and COMMIT clear, a mark made in OFF does not count. A BRIDGE word written
before does not act again: the bridges stay OFF until the next BRIDGE write (log entry 98, DESIGN CHOICE). -/
def State.leaveOff (s : State) (p : Nat) : State :=
  let t := (s.setF (DPW.STAT_ACTIVE_VALID p) 0).setF (DPW.CTRL_COMMIT p) 0
  (t.legsOff p).setDpw p { t.dpwU p with marked := false, frames := 0 }

/-- MODE enters OFF (R65, R83): every output inactive, and a period start in the same tick has loaded nothing;
forcing that only waited for a period start ends. -/
def State.enterOff (s : State) (p : Nat) : State :=
  let t := s.undue (fun e => match e with
    | .legEdge q _ _ _ => decide (q = p)
    | .cmd (.bridgeDelayedTransition q _) => decide (q.val = p)
    | _ => false)
  let t := (t.legsOff p).unload p
  if t.latches p = 0 then t.setF (DPW.STAT_FORCED p) 0 else t

/-- A write of `DPW_Pp_CFG` (R17, R51, R52, R451). -/
def State.dpwCfgStore (s : State) (p : Nat) (v : Word) : State :=
  let old := s.rd (DPW.CFG p)
  let mode := getBits 0 3 v
  let oldMode := getBits 0 3 old
  let onlyOff := decide (mode = 0) && decide (getBits 3 18 v = getBits 3 18 old)
  let locked := (decide (oldMode ≠ 0) && !onlyOff) || (decide (mode ≠ 0) && (s.pairRole || s.heldOff))
  s.judge (s.cfgBad p v) (DPW.STAT_ERR_ARG p) locked (fun s =>
    let t := s.store (DPW.CFG p) v
    if oldMode = 0 ∧ mode ≠ 0 then t.leaveOff p
    else if oldMode ≠ 0 ∧ mode = 0 then t.enterOff p
    else t)

/-- A write of `DPW_Pp_PULSE` (R51, R52, R67). -/
def State.pulseWrite (s : State) (p : Nat) (v : Word) : State :=
  let bad := decide (getBits 10 2 v = 3)
    || deadTimeBad (s.dts p) (minpwUnits (getBits 0 10 v)) (s.portPeriod p)
  s.judge bad (DPW.STAT_ERR_ARG p) (decide (s.f (DPW.CFG_MODE p) ≠ 0)) (fun s =>
    (List.range 4).foldl (fun t k => t.setLeg p k { t.legU p k with carry := 0 })
      (s.store (DPW.PULSE p) v))

/-- A write of `DPW_Pp_DTA` to `DPW_Pp_DTD` (R51, R52). -/
def State.dtWrite (s : State) (p k : Nat) (v : Word) : State :=
  let bad := deadTimeBad ((s.dts p).set k (getBits 0 17 v)) (s.minpwEff p) (s.portPeriod p)
  s.judge bad (DPW.STAT_ERR_ARG p) (decide (s.f (DPW.CFG_MODE p) ≠ 0))
    (fun s => s.store (DPW.DT p k) v)

/-- A write of `DPW_Pp_CMPx` (R63). -/
def State.cmpWrite (s : State) (p k : Nat) (v : Word) : State :=
  let brake := decide (k = 3) && decide (s.f (DPW.CFG_MODE p) = 1) && decide (s.f (DPW.CFG_DMODE p) = 1)
  if s.f (DPW.CFG_OWNER p) = 2 ∨ brake then s.store (DPW.CMP p k) v
  else s.raise (DPW.STAT_OWN_ERR p)

/-- Mark the shadow set of port `p` as new (R62). -/
def State.mark (s : State) (p : Nat) : State := s.setDpw p { s.dpwU p with marked := true, markAt := s.now }

/-- A write of 1 to `CTRL.COMMIT` (R62, R75). With OWNER = SW in 2HB, where R61 loads no set, COMMIT and the mark are set
too and stay until MODE next leaves OFF (log entry 135, DESIGN CHOICE). -/
def State.commit (s : State) (p : Nat) : State :=
  if s.f (DPW.CFG_OWNER p) = 2 then (s.raise (DPW.CTRL_COMMIT p)).mark p
  else s.raise (DPW.STAT_OWN_ERR p)

/-- A write of `DPW_Pp_PERIOD` (R56); read-only on a loop-locked port (R53). -/
def State.periodWrite (s : State) (p : Nat) (v : Word) : State :=
  if !s.on (DPW.CFG_SYNC p) then s
  else
    let per := getBits 0 25 v
    let bad := decide (per < 40000) || decide (2000000 < per)
      || deadTimeBad (s.dts p) (s.minpwEff p) per
    if bad then s.raise (DPW.STAT_ERR_ARG p) else s.store (DPW.PERIOD p) v

/-- A write of `DPW_Pp_TRGCn` (R69): POS must lie within its reference interval, which is one frame for every
compare of a loop-locked port in OFF (R505). A stand-alone port is judged by its PERIOD shadow, as R51 judges
its dead times, not by the period in force (log entry 99, DESIGN CHOICE). -/
def State.trgcWrite (s : State) (p n : Nat) (v : Word) : State :=
  let loop := !s.on (DPW.CFG_SYNC p)
  let len := if loop && (v.getLsbD 30 || decide (s.f (DPW.CFG_MODE p) = 0)) then s.frameUnits else s.portPeriod p
  if len ≤ getBits 0 25 v then s.raise (DPW.STAT_ERR_ARG p)
  else s.store (DPW.TRGC0 p + 4 * n) v

/-- A write of `DPW_Pp_BRKTH` (R52, R71). -/
def State.brkthWrite (s : State) (p : Nat) (v : Word) : State :=
  s.judge (decide (getBits 0 16 v ≤ getBits 16 16 v)) (DPW.STAT_ERR_ARG p)
    (decide (s.f (DPW.CFG_MODE p) ≠ 0)) (fun s => s.store (DPW.BRKTH p) v)

/-- A write of 1 to `STAT.SHORT` also sets SHORT_CNT to 0 (R67). -/
def State.dpwStatWrite (s : State) (p : Nat) (v hw : Word) : State :=
  let t := s.store (DPW.STAT p) v hw
  if v.getLsbD 1 && !hw.getLsbD 1 then t.setF (DPW.STAT_SHORT_CNT p) 0 else t

/-! ## Bridges and the brake (R71, R72) -/

/-- The levels of the two legs of a bridge in each state (R72). -/
def bridgeLevels : Nat → Lvl × Lvl
  | 0 => (.off, .off)
  | 1 => (.high, .low)
  | 2 => (.low, .high)
  | _ => (.low, .low)

/-- A requested transition of a bridge leg: at once, or delayed until MINPW_eff after the leg's
previous transition; it replaces an earlier delayed one (R72). -/
def State.bridgeLeg (s : State) (p k : Nat) (v : Lvl) : State :=
  let l := s.legU p k
  let c : Instr := .bridgeDelayedTransition (Fin.ofNat 96 p) (Fin.ofNat 4 k)
  if l.lvl = v then (s.setLeg p k { l with delayed := none }).cancel c
  else
    let free := l.trAt + s.minpwEff p
    if l.trAt ≠ 0 ∧ s.x < free then
      (s.setLeg p k { l with delayed := some v }).resched (s.ticksTo free) c
    else ((s.setLeg p k { l with delayed := none }).cancel c).legTo p k v s.x

/-- Bridge `b` (0 or 1) of port `p` takes the state `v`. -/
def State.bridgeSet (s : State) (p b v : Nat) : State :=
  let (u, w) := bridgeLevels v
  (s.bridgeLeg p (2 * b) u).bridgeLeg p (2 * b + 1) w

/-- A write of `DPW_Pp_BRIDGE` (R72, R75). -/
def State.bridgeWrite (s : State) (p : Nat) (v : Word) : State :=
  if s.f (DPW.CFG_OWNER p) = 2 ∧ s.f (DPW.CFG_MODE p) = 2 then
    let t := s.store (DPW.BRIDGE p) v
    (t.bridgeSet p 0 (getBits 0 2 v)).bridgeSet p 1 (getBits 2 2 v)
  else s.raise (DPW.STAT_OWN_ERR p)

/-- The delayed transition takes place and counts as a short pulse (R66, R72). -/
def State.delayedTransition (s : State) (p k : Nat) : State :=
  let l := s.legU p k
  match l.delayed with
  | none => s
  | some v =>
    let t := (s.bump (DPW.STAT_SHORT_CNT p)).raise (DPW.STAT_SHORT p)
    (t.setLeg p k { l with delayed := none }).legTo p k v s.x

/-- The brake chopper of R71: DH follows the DC-link code `u` between BRKTH.ON and BRKTH.OFF, on and
off for at least MINPW_eff; no dead time. Until ACTIVE_VALID every leg is held inactive, this one too (R65). -/
def State.brake (s : State) (p u : Nat) : State :=
  if s.f (DPW.CFG_MODE p) ≠ 1 ∨ s.f (DPW.CFG_DMODE p) ≠ 2 ∨ s.on (DPW.STAT_ACTIVE_VALID p) = false then s
  else
    let l := s.legU p 3
    if l.trAt ≠ 0 ∧ s.x < l.trAt + s.minpwEff p then s
    else if !l.hOn && decide (s.f (DPW.BRKTH_ON p) ≤ u) then
      s.setLeg p 3 { l with lvl := .high, hOn := true, trAt := s.x }
    else if l.hOn && decide (u ≤ s.f (DPW.BRKTH_OFF p)) then
      s.setLeg p 3 { l with lvl := .off, hOn := false, trAt := s.x, hOff := s.x }
    else s

/-- The level at P##_FLT_N ahead of the glitch filter (R75): the filtered level where the filter is 0, else an
input that no command brings before it has passed the filter, a free value (log entry 100). -/
def State.fltPin (s : State) (p : Nat) : Bool :=
  if s.f (TRF.CFG_FLT_FILT p) = 0 then !(s.tripInU p).on else s.freeBool

/-- `DPW_Pp_PINS` as it reads (R75). -/
def State.pinsWord (s : State) (p : Nat) : Word :=
  BitVec.ofNat 32 (s.padByte p + 256 * (s.f (DPW.PINS_TRG p)) + 512 * (s.fltPin p).toNat)

/-- `DPW_Pp_PERIOD` as it reads (R53). -/
def State.periodWord (s : State) (p : Nat) : Word :=
  if s.on (DPW.CFG_SYNC p) then s.rd (DPW.PERIOD p)
  else BitVec.ofNat 32 (s.portPeriod p)

/-! ## Commands -/

/-- STANDALONE_PERIOD_END: the levels stand until the firing, which then sets PER_MISMATCH (R57). -/
def execStandalonePeriodEnd (p : Fin 96) (s : State) : Out :=
  if s.on (DPW.CFG_SYNC p) then ok (s.setDpw p { s.dpwU p with ended := true }) else ok s

def execDeadtimeTurnOn (p : Fin 96) (leg : Fin 4) (s : State) : Out := ok (s.turnOn p leg)

/-- TRG_PULSE_END: P##_TRG falls (R68). -/
def execTrgPulseEnd (p : Fin 96) (s : State) : Out := ok (s.setF (DPW.PINS_TRG p) 0)

def execBridgeDelayedTransition (p : Fin 96) (leg : Fin 4) (s : State) : Out :=
  ok (s.delayedTransition p leg)

end Sys2Proof.Machine
end

