-- ==== Sys2Proof/Machine/Caq.lean ====
section
/-! DEFINITION. Current acquisition (spec/05_current_sensing.md, R87 to R99). Channel 2 p is DSA and
2 p + 1 DSB of port p; channel 192 + g is DSVg. -/

namespace Sys2Proof.Machine

def State.caqCh (s : State) (ch : Nat) : CaqCh := s.caq.get (fun _ => CaqCh.reset) ch

def State.setCaq (s : State) (ch : Nat) (c : CaqCh) : State :=
  { s with caq := s.caq.set (fun _ => CaqCh.reset) ch c }

/-! ## Filters (R90, R92) -/

/-- k (k − 1) / 2, the sum of 1 … k − 1. -/
def tri (k : Nat) : Nat := k * (k - 1) / 2

/-- The weight of the bit `i` in a sinc3 filter of ratio `n` (i from 0 to 3 n − 3). -/
def sinc3Weight (n i : Nat) : Nat :=
  tri (i + 2) + 3 * tri (i + 2 - 2 * n) - 3 * tri (i + 2 - n) - tri (i + 2 - 3 * n)

/-- The weight of the bit `i` in a sinc2 filter of ratio `n` (i from 0 to 2 n − 2). -/
def sinc2Weight (n i : Nat) : Nat := min (i + 1) (2 * n - 1 - i)

/-- The weighted sum of the newest `len` bits. Bits that have not entered since the restart count as 0; the sum
shows in DSV.U and reaches the brake before VALID (log entry 101, DESIGN CHOICE). -/
def filterSum (w : Nat → Nat) (len : Nat) (bits : List Bool) : Nat :=
  ((List.range len).zip bits).foldl (fun a x => if x.2 then a + w x.1 else a) 0

/-- x × 2^e, the floor where e is negative (R90). -/
def scale (x : Int) (e : Int) : Int := if 0 ≤ e then x * (2 ^ e.toNat : Nat) else x / (2 ^ (-e).toNat : Nat)

/-- The Q15 value of a phase channel before saturation: order 3 for the data filter, 2 for the
comparator filter (R90, R92). -/
def phaseValue (order log2n sum : Nat) : Int :=
  scale (2 * (sum : Int) - (2 ^ (order * log2n) : Nat)) (15 - order * log2n)

/-- The unsigned code of a DC-link channel before saturation (R90, R92). -/
def linkValue (order log2n sum : Nat) : Int := scale sum (16 - order * log2n)

/-- Calibration (R90): ((x − OFS) × GAIN) / 2^14, the floor. -/
def calibrate (x ofs : Int) (gain : Nat) : Int := (x - ofs) * gain / 16384

/-! ## Channels -/

/-- The group of a channel. -/
def chGroup (ch : Nat) : Nat := if ch < 192 then ch / 16 else ch - 192

/-- log2 of the data OSR of a channel. -/
def State.chOsr (s : State) (ch : Nat) : Nat :=
  4 + (if ch < 192 then s.f (CAQ.CFG_OSR (ch / 2)) else s.f (CAQG.CFG_DOSR (chGroup ch)))

/-- log2 of the comparator OSR of a channel. -/
def State.chCosr (s : State) (ch : Nat) : Nat :=
  2 + (if ch < 192 then s.f (CAQ.CFG_COSR (ch / 2)) else s.f (CAQG.CFG_COSR (chGroup ch)))

/-- Is the channel sampled: its group runs and, on a port, its enable is set (R87, R89). -/
def State.chOn (s : State) (ch : Nat) : Bool :=
  s.on (CAQG.CFG_EN (chGroup ch)) &&
    (if ch < 192 then s.on (if ch % 2 = 0 then CAQ.CFG_EN_A (ch / 2) else CAQ.CFG_EN_B (ch / 2))
     else true)

/-- The VALID flag of a channel. -/
def chValidF (ch : Nat) : Field :=
  if ch < 192 then (if ch % 2 = 0 then CAQ.STAT_VALID_A (ch / 2) else CAQ.STAT_VALID_B (ch / 2))
  else CAQG.DSV_VALID (chGroup ch)

/-- Both comparator outputs of a channel fall to 0; the DCV source of a group goes with HI (R87). -/
def State.cmpOff (s : State) (ch : Nat) : State :=
  let s := s.setCaq ch { s.caqCh ch with hi := false, lo := false }
  if ch < 192 then s
  else
    let g := chGroup ch
    let t := (s.setF (CAQG.DSV_HI g) 0).setF (CAQG.DSV_LO g) 0
    if (t.tripInU (96 + g)).on then t.tripRelease (.dcv (Fin.ofNat 12 g)) else t

/-- The filters of a channel restart with VALID = 0 (R89, R91). Where its samples go on, the run of equal samples and a
stuck stream go on with them (R98). -/
def State.restartCh (s : State) (ch : Nat) (samples : Bool) : State :=
  let c := s.caqCh ch
  let n := { CaqCh.reset with strobed := c.strobed, satBefore := c.satBefore }
  let s := (s.cmpOff ch).setCaq ch
    (if samples then { n with run := c.run, stuck := c.stuck, last := c.last, rise := c.rise } else n)
  s.setF (chValidF ch) 0

/-! ## The modulator clock (R87, R88) -/

/-- The clock of group `g`: 0 held low, 1 waiting for TCMP0, else 2 + the tick of its first rise. -/
def State.dsckAt (s : State) (g : Nat) : Nat := s.dsck.get (fun _ => 0) g
def State.setDsck (s : State) (g v : Nat) : State := { s with dsck := s.dsck.set (fun _ => 0) g v }

/-- The clock starts at the next firing of TCMP0, or at the next tick where TCMP0 is not enabled. -/
def State.dsckStart (s : State) (g : Nat) : State :=
  s.setDsck g (if s.on (TCMP.CTRL_EN 0) then 1 else s.now + 3)

/-- TCMP0 fires. -/
def State.dsckFrame (s : State) : State :=
  (List.range 12).foldl (fun (t : State) g => if t.dsckAt g = 1 then t.setDsck g (t.now + 2) else t) s

/-- The level of DSCKg: high for ⌊N/2⌋ ticks from each rise. -/
def State.dsckLevel (s : State) (g : Nat) : Bool :=
  let n := s.f (CAQG.CFG_DIV g)
  let r := s.dsckAt g
  decide (2 ≤ r ∧ r ≤ s.now + 2 ∧ (s.now + 2 - r) % n < n / 2)

/-- The rise of DSCKg whose bit is two ticks old now: the sample lies SPT ticks after the rise (R88), and its value
stands 2 ticks later (R90). None: no value stands from this tick. -/
def State.bitRise (s : State) (g : Nat) : Option Nat :=
  let lag := s.f (CAQG.CFG_SPT g) + 2
  let r := s.dsckAt g - 2
  if 2 ≤ s.dsckAt g ∧ r + lag ≤ s.now ∧ (s.now - r - lag) % s.f (CAQG.CFG_DIV g) = 0 then some (s.now - lag) else none

/-- The word of a calibration or threshold register that acts on the bit of the DSCK period which began at tick
`rise`: a write acts from the next period (R97). -/
def State.caqWord (s : State) (off rise : Nat) : Word :=
  match s.caqOld.find? (fun o => decide (o.off = off) && decide (rise ≤ o.tick)) with
  | some o => o.old
  | none => s.rd off

/-- A write of CALx or THx (R97): what stood before acts on to the end of the DSCK period. -/
def State.caqLateWrite (s : State) (off : Nat) (v hw : Word) : State :=
  let live := s.caqOld.filter (fun o => decide (s.now ≤ o.tick + 128))
  { s.store off v hw with caqOld := live ++ [⟨s.now, off, s.rd off⟩] }

/-- The record unit of a channel (R431): the port, or 0x100 + g. -/
def chUnit (ch : Nat) : Nat := if ch < 192 then ch / 2 else 0x100 + chGroup ch

def chStat (ch : Nat) : Nat := if ch < 192 then CAQ.STAT (ch / 2) else CAQG.STAT (chGroup ch)

/-- The flag of a rising comparator output (R93). -/
def chCmpF (ch : Nat) (low : Bool) : Field :=
  if ch < 192 then ⟨CAQ.STAT (ch / 2), 3 + 2 * (ch % 2) + low.toNat, 1⟩
  else if low then CAQG.STAT_UV (chGroup ch) else CAQG.STAT_OV (chGroup ch)

/-- A comparator output rises (R93): the flag, a record, the SW latch where TRIP = 1, and for HI of
DSVg the DCV source. -/
def State.cmpRise (s : State) (ch : Nat) (low : Bool) : State :=
  let c := s.caqCh ch
  let s := s.setCaq ch (if low then { c with lo := true } else { c with hi := true })
  let s := (s.raise (chCmpF ch low)).recordStat 0x09 0x01 (chUnit ch) 2 (chStat ch)
  if ch < 192 then (if s.on (CAQ.CFG_TRIP (ch / 2)) then s.swLatch (ch / 2) else s)
  else
    let g := chGroup ch
    if low then s.raise (CAQG.DSV_LO g)
    else (s.raise (CAQG.DSV_HI g)).tripAssert (.dcv (Fin.ofNat 12 g)) 32

/-- A comparator output falls (R92). -/
def State.cmpFall (s : State) (ch : Nat) (low : Bool) : State :=
  let c := s.caqCh ch
  let s := s.setCaq ch (if low then { c with lo := false } else { c with hi := false })
  if ch < 192 then s
  else
    let g := chGroup ch
    if low then s.setF (CAQG.DSV_LO g) 0
    else
      let t := s.setF (CAQG.DSV_HI g) 0
      if (t.tripInU (96 + g)).on then t.tripRelease (.dcv (Fin.ofNat 12 g)) else t

/-- The comparator levels that the filter asks for in the DSCK period that began at `rise` (R92): 0 until
2 × OSR_C bits have entered. -/
def State.cmpWants (s : State) (ch : Nat) (c : CaqCh) (rise : Nat) : Bool × Bool :=
  let k := s.chCosr ch
  let sum := filterSum (sinc2Weight (2 ^ k)) (2 * 2 ^ k - 1) c.bits
  if c.n < 2 * 2 ^ k then (false, false)
  else if ch < 192 then
    let v := satS 16 (phaseValue 2 k sum)
    let th := s.caqWord (CAQ.TH (ch / 2) (ch % 2)) rise
    (decide (signedOf 16 (getBits 0 16 th) ≤ v), decide (v ≤ signedOf 16 (getBits 16 16 th)))
  else
    let v := clampInt 0 65535 (linkValue 2 k sum)
    let g := chGroup ch
    (decide ((s.f (CAQG.DSVTH_HI g) : Int) ≤ v), decide (v ≤ (s.f (CAQG.DSVTH_LO g) : Int)))

/-- The data value of a channel in the DSCK period that began at `rise`, and whether it saturated (R90). -/
def State.chValue (s : State) (ch : Nat) (c : CaqCh) (rise : Nat) : Int × Bool :=
  let k := s.chOsr ch
  let sum := filterSum (sinc3Weight (2 ^ k)) (3 * 2 ^ k - 2) c.bits
  if ch < 192 then
    let x0 := phaseValue 3 k sum
    let x := satS 16 x0
    let cal := s.caqWord (CAQ.CAL (ch / 2) (ch % 2)) rise
    let i0 := calibrate x (signedOf 16 (getBits 0 16 cal)) (getBits 16 16 cal)
    let i := satS 16 i0
    (i, decide (x ≠ x0) || decide (i ≠ i0))
  else
    let u0 := linkValue 3 k sum
    let u := clampInt 0 65535 u0
    (u, decide (u ≠ u0))

/-- The 8 ports' brakes of a group see the new DC-link code (R71, R90). -/
def State.groupBrake (s : State) (g u : Nat) : State :=
  (List.range 8).foldl (fun t i => t.brake (8 * g + i) u) s

/-- The events of a channel that its latest bit brings: VALID (R91), a rising comparator output (R93), a
stuck stream (R98). -/
def State.validDue (s : State) (ch : Nat) : Bool :=
  s.chOn ch && !(s.caqCh ch).stuck && decide (3 * 2 ^ s.chOsr ch ≤ (s.caqCh ch).n)

def State.cmpDue (s : State) (ch : Nat) (low : Bool) : Bool :=
  let c := s.caqCh ch
  s.chOn ch && (if low then !c.lo && (s.cmpWants ch c c.rise).2 else !c.hi && (s.cmpWants ch c c.rise).1)

def State.stuckDue (s : State) (ch : Nat) : Bool :=
  s.chOn ch && !(s.caqCh ch).stuck && decide (s.f (CAQG.CFG_STUCK (chGroup ch)) + 1 ≤ (s.caqCh ch).run)

/-- A new bit enters a channel, sampled SPT ticks after the rise `rise` and now two ticks old (R88, R90 to R92,
R98): the data value, the comparator outputs, the run of
equal bits; what follows from them falls due at once as its own command, the
chopper comparison of a stepper port (R168) among them. -/
def State.filterBit (s : State) (ch : Nat) (bit : Bool) (rise : Nat) : State :=
  if !s.chOn ch then s
  else
    let c := s.caqCh ch
    let same := c.last = some bit
    let wake := c.stuck && !same
    let s := if wake then s.restartCh ch false else s
    let c := s.caqCh ch
    let c := { c with bits := (bit :: c.bits).take 768, n := c.n + 1,
                      run := if same then c.run + 1 else 1, last := some bit, rise := rise }
    let (v, sat) := s.chValue ch c rise
    let s := s.setCaq ch { c with val := v, sat := sat }
    let s := if ch < 192 then s
      else (s.setF (CAQG.DSV_U (chGroup ch)) v.toNat).groupBrake (chGroup ch) v.toNat
    let fch : Fin 204 := Fin.ofNat 204 ch
    let s := if s.validDue ch && !s.on (chValidF ch) then s.sched 0 (.caqChannelValid fch) else s
    let (hi, lo) := s.cmpWants ch c rise
    let s := if s.cmpDue ch false then s.sched 0 (.caqComparatorEvent fch false)
      else if !hi && c.hi then s.cmpFall ch false else s
    let s := if s.cmpDue ch true then s.sched 0 (.caqComparatorEvent fch true)
      else if !lo && c.lo then s.cmpFall ch true else s
    let s := if ch < 192 ∧ s.f (DPW.CFG_MODE (ch / 2)) = 2 ∧ s.f (PRG.CFG_OUT (ch / 2)) = 1 then
        s.sched 0 (.chopperCompare (Fin.ofNat 96 (ch / 2)) (Fin.ofNat 2 ch)) else s
    if s.stuckDue ch then s.sched 0 (.caqStuck fch) else s

/-- A stuck stream (R98). -/
def State.stuckCh (s : State) (ch : Nat) : State :=
  let s := s.setCaq ch { s.caqCh ch with stuck := true }
  let fl : Field := if ch < 192 then ⟨CAQ.STAT (ch / 2), 1 + ch % 2, 1⟩ else CAQG.STAT_STUCK (chGroup ch)
  ((s.raise fl).setF (chValidF ch) 0).recordStat 0x09 0x02 (chUnit ch) 2 (chStat ch)

/-! ## The strobe (R94 to R96) -/

/-- What a channel gives to a set: its value, 0 while not VALID; VALID; SAT. -/
def State.chTake (s : State) (ch : Nat) : Int × Bool × Bool :=
  if s.on (chValidF ch) then ((s.caqCh ch).val, true, (s.caqCh ch).sat) else (0, false, false)

/-- A strobe latches one set of port `p` (R94 to R96). A set that replaces one of the same tick replaces its SAT
too. With PAIR = NONE nothing is computed, and VC reads 0 beside i_c = 0 (log entry 102, DESIGN CHOICE). -/
def State.caqStrobe (s : State) (p : Nat) : State :=
  let c := s.caqCh (2 * p)
  let satBefore := if c.strobed = some s.now then c.satBefore && s.on (CAQ.STAT_SAT p) else s.on (CAQ.STAT_SAT p)
  let s := s.setCaq (2 * p) { c with strobed := some s.now, satBefore := satBefore }
  let g := p / 8
  let (a, va, sa) := s.chTake (2 * p)
  let (b, vb, sb) := s.chTake (2 * p + 1)
  let (u, vu, su) := s.chTake (192 + g)
  let c0 := -(a + b)
  let c := if va && vb then satS 16 c0 else 0
  let vc := va && vb
  let sc := vc && decide (c ≠ c0)
  let (ia, ib, ic, wa, wb, wc, sx) :=
    match s.f (CAQ.CFG_PAIR p) with
    | 0 => (a, b, c, va, vb, vc, sc)
    | 1 => (c, a, b, vc, va, vb, sc)
    | 2 => (b, c, a, vb, vc, va, sc)
    | _ => (a, b, 0, va, vb, false, false)
  let sat := sa || sb || su || sx
  let s := (s.setFi (CAQ.LAT0_I_A p) ia).setFi (CAQ.LAT0_I_B p) ib
  let s := (s.setFi (CAQ.LAT1_I_C p) ic).setFi (CAQ.LAT1_U p) u
  let s := (s.wr (CAQ.LAT2 p) (s.ns 0)).setF (CAQ.LAT3_WC p) (s.wc 0)
  let s := ((s.flag (CAQ.LAT3_VA p) wa).flag (CAQ.LAT3_VB p) wb).flag (CAQ.LAT3_VC p) wc
  let s := (s.flag (CAQ.LAT3_VU p) vu).flag (CAQ.LAT3_SAT p) sat
  s.flag (CAQ.STAT_SAT p) (sat || satBefore)

/-! ## Register writes (R89) -/

/-- Is a value of `CAQ_Gg_CFG` refused? -/
def caqGroupBad (v : Word) : Bool :=
  let n := getBits 1 6 v
  decide (n < 12) || decide (50 < n) || decide (n ≤ getBits 7 6 v) || decide (4 < getBits 13 3 v)
    || decide (getBits 18 8 v < 8)

/-- A write of `CAQ_Gg_CFG` (R87, R89). -/
def State.caqGroupStore (s : State) (g : Nat) (v : Word) : State :=
  let running := (List.range 8).any (fun i => decide (s.f (DPW.CFG_MODE (8 * g + i)) ≠ 0))
  let locked := running || s.isIn [stRUN, stSAFE]
  s.judge (caqGroupBad v) (CAQG.STAT_ERR_ARG g) locked (fun s =>
    let t := s.store (CAQG.CFG g) v
    let en := decide (s.on (CAQG.CFG_EN g) ≠ t.on (CAQG.CFG_EN g))
    let link := en || decide (s.f (CAQG.CFG_DOSR g) ≠ t.f (CAQG.CFG_DOSR g))
      || decide (s.f (CAQG.CFG_COSR g) ≠ t.f (CAQG.CFG_COSR g))
    let t := if en then (List.range 16).foldl (fun t i => t.restartCh (16 * g + i) false) t else t
    let t := if !en then t else if t.on (CAQG.CFG_EN g) then t.dsckStart g else t.setDsck g 0
    if link then t.restartCh (192 + g) (!en) else t)

/-- A write of `CAQ_Pp_CFG` (R89). -/
def State.caqPortStore (s : State) (p : Nat) (v : Word) : State :=
  let old := s.rd (CAQ.CFG p)
  let deep := decide (getBits 2 7 v ≠ getBits 2 7 old)
  s.judge (decide (4 < getBits 4 3 v)) (CAQ.STAT_ERR_ARG p)
    (deep && decide (s.f (DPW.CFG_MODE p) ≠ 0)) (fun s =>
    let t := s.store (CAQ.CFG p) v
    let ch (i : Nat) (t : State) : State :=
      let en := decide (getBits i 1 v ≠ getBits i 1 old)
      if deep || en then t.restartCh (2 * p + i) (!en) else t
    ch 1 (ch 0 t))

/-! ## Commands -/

/-- The ports whose sets hold the value of a channel. -/
def chPorts (ch : Nat) : List Nat := if ch < 192 then [ch / 2] else (List.range 8).map (fun i => 8 * chGroup ch + i)

/-- A value that stands from a strobe tick is latched by that strobe (R90, R94). -/
def State.relatch (s : State) (ch : Nat) : State :=
  (chPorts ch).foldl (fun (t : State) p => if (t.caqCh (2 * p)).strobed = some t.now then t.caqStrobe p else t) s

/-- CAQ_FILTER_OUTPUT: the filter's new value stands from this tick, two ticks after the sample of the bit; at
another tick the group's clock gives none, and a channel that is not sampled takes none. -/
def execCaqFilterOutput (ch : Fin 204) (bit : Bool) (s : State) : Out :=
  match s.bitRise (chGroup ch), s.chOn ch with
  | some r, true => ok ((s.filterBit ch bit r).relatch ch)
  | _, _ => ok s

/-- CAQ_CHANNEL_VALID (R91): of a channel that is sampled and not stuck. -/
def execCaqChannelValid (ch : Fin 204) (s : State) : Out :=
  if s.validDue ch then ok ((s.raise (chValidF ch)).relatch ch) else ok s

def execCaqComparatorEvent (ch : Fin 204) (low : Bool) (s : State) : Out :=
  if s.cmpDue ch low then ok (s.cmpRise ch low) else ok s

def execCaqStuck (ch : Fin 204) (s : State) : Out := if s.stuckDue ch then ok ((s.stuckCh ch).relatch ch) else ok s

end Sys2Proof.Machine
end

