-- ==== Sys2Proof/Machine/Pfb.lean ====
section
/-! DEFINITION. Position feedback (spec/06_position_feedback.md, R100 to R124). Edge times are in
125 ps units within 2^43 (R41). -/

namespace Sys2Proof.Machine

def State.pfbU (s : State) (p : Nat) : PfbUnit := s.pfb.get (fun _ => PfbUnit.reset) p

def State.setPfb (s : State) (p : Nat) (u : PfbUnit) : State :=
  { s with pfb := s.pfb.set (fun _ => PfbUnit.reset) p u }

/-! ## Position against the soft limits (R106, R107) -/

def State.pos (s : State) (p : Nat) : Int := s.rdI (PFB.POS p)

def State.ovr (s : State) (p : Nat) : Int := s.fi (PFB.OVR_V p)

/-- AT_HI and AT_LO show the present saturation. -/
def State.atLimits (s : State) (p : Nat) : State :=
  (s.flag (PFB.STAT_AT_HI p) (decide (s.pos p = s.rdI (PFB.SL_HI p)))).flag (PFB.STAT_AT_LO p)
    (decide (s.pos p = s.rdI (PFB.SL_LO p)))

/-- OVERRUN takes `v`, saturating with OVR_SAT (R106). -/
def State.setOvr (s : State) (p : Nat) (v : Int) : State :=
  let c := satS 16 v
  (s.setFi (PFB.OVR_V p) c).raiseIf (decide (c ≠ v)) (PFB.STAT_OVR_SAT p)

/-- POS := clamp(t, SL_LO, SL_HI) and OVERRUN := the excess; LIMIT where that saturates POS (R106). -/
def State.place (s : State) (p : Nat) (t : Int) : State :=
  let c := clampInt (s.rdI (PFB.SL_LO p)) (s.rdI (PFB.SL_HI p)) t
  (((s.wrI (PFB.POS p) c).setOvr p (t - c)).raiseIf (decide (c ≠ t)) (PFB.STAT_LIMIT p)).atLimits p

/-- A counted step (R106). -/
def State.addStep (s : State) (p : Nat) (step : Int) : State :=
  let new := s.pos p + step
  let c := clampInt (s.rdI (PFB.SL_LO p)) (s.rdI (PFB.SL_HI p)) new
  let s := s.wrI (PFB.POS p) c
  let s := if c ≠ new then (s.setOvr p (s.ovr p + (new - c))).raise (PFB.STAT_LIMIT p) else s
  s.atLimits p

/-! ## Feedback faults (R122) -/

/-- Raise a feedback fault with its source code. -/
def State.pfbFault (s : State) (p src : Nat) : State :=
  let s := (s.raise (PFB.STAT_FAULT p)).setF (PFB.STAT_FAULT_SRC p) src
  (s.setF (PFB.STAT_VALID p) 0).recordStat 0x0A 0x02 p 4 (PFB.STAT p)

/-- VALID returns in QUAD and TOOTH once FAULT is 0 (R122). -/
def State.pfbValid (s : State) (p : Nat) : State :=
  let m := s.f (PFB.CFG_MODE p)
  if (m = 1 ∨ m = 2) ∧ s.on (PFB.STAT_FAULT p) = false then s.raise (PFB.STAT_VALID p) else s

/-- A write of `PFB_Pp_STAT` (R122). FAULT_SRC keeps its code after FAULT is cleared (log entry 138, DESIGN CHOICE). -/
def State.pfbStatWrite (s : State) (p : Nat) (v hw : Word) : State :=
  (s.store (PFB.STAT p) v hw).pfbValid p

/-! ## References (R110 to R112) -/

/-- The expected value E of a reference event (R111). -/
def State.expected (s : State) (p : Nat) (neg : Bool) : Int :=
  let base := s.rdI (PFB.IDXEXP p) + (if neg then s.fi (PFB.CFG_NEGOFS p) else 0)
  let t := s.pos p + s.ovr p
  let cpr := (s.rd (PFB.CPR p)).toNat
  if cpr = 0 then base else base + roundHalfAway (t - base) cpr * cpr

/-- A reference event of unit `p` in direction `neg` (R110 to R112). -/
def State.reference (s : State) (p : Nat) (neg : Bool) : State :=
  let s := (s.bumpMod (PFB.CNT_IDX_CNT p)).raise (PFB.STAT_REF_SEEN p)
  let e := s.expected p neg
  let d := s.pos p + s.ovr p - e
  let s := s.wrI (PFB.IDXDIFF p) (satS 32 d)
  if s.on (PFB.CTRL_HOME p) then
    ((s.place p e).raise (PFB.STAT_HOMED p)).setF (PFB.CTRL_HOME p) 0
  else if !s.on (PFB.STAT_HOMED p) then s
  else if d.natAbs ≤ s.f (PFB.CFG_IDX_TOL p) then s
  else
    let s := s.raise (PFB.STAT_IDX_MISMATCH p)
    let s := s.record 0x0A 0x01 p 2 (payloadOf [(bitsOf 64 d, 8), (bitsOf 64 e, 8)])
    match s.f (PFB.CFG_IDX_POL p) with
    | 1 => s.place p e
    | 2 => (s.setF (PFB.STAT_HOMED p) 0).pfbFault p 1
    | _ => s

/-! ## Counted edges (R104 to R106, R108, R109, R113 to R115) -/

/-- T_STILL in ticks: TSTILL × 0.1 ms (R114). -/
def State.tStill (s : State) (p : Nat) : Nat := 25000 * s.f (PFB.TCFG_TSTILL p)

/-- Standstill comes `dt` ticks from now (R114). -/
def State.restartStill (s : State) (p dt : Nat) : State := s.resched dt (.pfbStandstill (Fin.ofNat 96 p))

/-- A new T_STILL counts from the same edge as the `old` one (R114). -/
def State.retimeStill (s : State) (p old : Nat) : State :=
  match s.agenda.find? (fun d => decide (d.ev = .cmd (.pfbStandstill (Fin.ofNat 96 p)))) with
  | some d => s.resched (d.t - old + s.tStill p - s.now) (.pfbStandstill (Fin.ofNat 96 p))
  | none => s

/-- SPEED := ±round(16 × c × 8 × 10^9 / Δ), saturating (R113); an interval of 0 saturates. -/
def speedOf (step : Int) (delta : Nat) : Int :=
  if delta = 0 then (if step < 0 then -(2 ^ 31 : Nat) else (2 ^ 31 : Nat) - 1)
  else satS 32 (roundHalfAway (16 * step * 8000000000) delta)

/-- The edge latch of R115. -/
def State.edgeLatch (s : State) (p ns wc frac : Nat) : State :=
  ((s.wrN (PFB.EDGENS p) ns).setF (PFB.EDGEFR_FRAC p) frac).setF (PFB.EDGEFR_WC p) wc

/-- An edge registers a direction (R104). -/
def State.setDir (s : State) (p : Nat) (neg : Bool) : State :=
  (s.setPfb p { s.pfbU p with dir := some neg }).flag (PFB.STAT_DIR p) neg

/-- The hysteresis edge (R105). -/
def State.hystEdge (s : State) (p : Nat) (neg : Bool) : State :=
  let s := (s.setDir p neg).raise (PFB.STAT_REV_SETTLE p)
  let s := (s.wrN (PFB.SPEED p) 0).setF (PFB.STAT_SPEED_VALID p) 0
  s.setPfb p { s.pfbU p with n := 0 }

/-- What R108 makes of an interval: the step, whether it is a reference, an error, an edge that is
not counted, and 12 times the new interval P. -/
structure ToothRes where
  c : Nat
  ref : Bool
  err : Bool
  extra : Bool
  per12 : Nat
  deriving DecidableEq, Repr

/-- R108: `g` the gap ratio in 1/16, `n` the missing teeth, `per12` twelve times P. -/
def toothRule (ref g n delta per12 : Nat) : ToothRes :=
  if g * per12 < 16 * 12 * delta then
    if ref = 1 then ⟨n + 1, true, false, false, 12 * delta / (n + 1)⟩
    else ⟨1, false, true, false, 12 * delta⟩
  else if 24 * delta < per12 then
    if ref = 2 then ⟨0, true, false, true, per12⟩
    else ⟨1, false, true, false, 12 * delta⟩
  else ⟨1, false, false, false, 12 * delta⟩

/-- A counted edge with the step `c` and the interval to the last counted edge (R106, R113 to
R115). `n` counts the counted edges since restart, standstill or reversal. -/
def State.countEdge (s : State) (p : Nat) (neg : Bool) (c ns wc frac delta per12 : Nat) : State :=
  let step : Int := if neg then -(c : Int) else c
  let s := (s.setDir p neg).addStep p step
  let s := s.edgeLatch p ns wc frac
  let u := s.pfbU p
  let s := s.setPfb p { u with n := min (u.n + 1) 3, tEdge := edgeTime wc ns frac, per12 := per12,
                               counted := true }
  let s := s.setF (PFB.STAT_STILL p) 0
  let s := if u.n = 0 then s
    else ((s.wrI (PFB.SPEED p) (speedOf step delta)).raise (PFB.STAT_SPEED_VALID p)).setF
      (PFB.STAT_REV_SETTLE p) 0
  s.restartStill p (s.tStill p - if frac = 0 then 3 else 2)

/-- NS and WC of TB_CELL two ticks ago: a level is accepted at its third equal sample, and the time of an edge
is that of its first one (R102). -/
def State.edgeNs (s : State) : Nat := (s.tb 0).prev2Ns.toNat
def State.edgeWc (s : State) : Nat := (s.tb 0).prev2Wc

/-- A registered edge in a counting mode (R104 to R110): hysteresis, tooth rule, count, reference. -/
def State.registerEdge (s : State) (p : Nat) (neg : Bool) (frac : Nat) : State :=
  let u := s.pfbU p
  let reversed := match u.dir with
    | some d => decide (d ≠ neg)
    | none => false
  if reversed then s.hystEdge p neg
  else
    let ns := s.edgeNs
    let wc := s.edgeWc
    let delta := (edgeTime wc ns frac + 2 ^ 43 - u.tEdge) % 2 ^ 43
    if s.f (PFB.CFG_MODE p) = 2 then
      let r := if u.n < 2 then ToothRes.mk 1 false false false (12 * delta)
        else toothRule (s.f (PFB.CFG_REF p)) (s.f (PFB.TCFG_GAP_RATIO p)) (s.f (PFB.CFG_GAP_N p))
          delta u.per12
      let s := if r.err then (s.raise (PFB.STAT_TOOTH_ERR p)).bump (PFB.CNT_ERR_CNT p) else s
      let s := if r.extra then s.setDir p neg else s.countEdge p neg r.c ns wc frac delta r.per12
      if r.ref then s.reference p neg else s
    else
      let zAct := xor u.fz (s.on (PFB.CFG_ZPOL p))
      let isRef := decide (s.f (PFB.CFG_REF p) = 1) && zAct && u.counted && !u.zPrev
      let s := s.countEdge p neg 1 ns wc frac delta (12 * delta)
      let s := s.setPfb p { s.pfbU p with zPrev := zAct }
      if isRef then s.reference p neg else s

/-- The place of (A, B) in the Gray cycle in which A leads B (log entry 5). -/
def grayPos (a b : Bool) : Nat :=
  match a, b with
  | false, false => 0
  | true, false => 1
  | true, true => 2
  | false, true => 3

/-- The direction of an edge in TOOTH (R104): the sign of PG p's velocity set-point, the last sign
holding at 0, or the FB level. -/
def State.toothNeg (s : State) (p : Nat) : Bool :=
  if s.on (PFB.CFG_DIRSRC p) then decide ((s.pfbU p).fb = s.on (PFB.CFG_DIR_POL p))
  else
    let v := s.rdI (PRG.VEL p)
    if v < 0 then true else if 0 < v then false else (s.pfbU p).cmdNeg

/-- What a strobe set takes: POS, OVERRUN, STAT, the edge time stamp and SPEED. -/
def State.pfbSet (s : State) (p : Nat) : List Word :=
  [s.rd (PFB.POS p), s.rd (PFB.OVR p), s.rd (PFB.STAT p), s.rd (PFB.EDGENS p), s.rd (PFB.EDGEFR p), s.rd (PFB.SPEED p)]

/-- A strobe latches the set LAT0 to LAT5 (R116); a serial reading enters it from the second tick after its
last bit (R119). -/
def State.pfbLatch (s : State) (p : Nat) : State :=
  let s := s.setPfb p { s.pfbU p with strobed := some s.now }
  let u := s.pfbU p
  let early := match u.lastBit with
    | some t => decide (s.now < t + 2)
    | none => false
  let l := if early && !u.before.isEmpty then u.before else s.pfbSet p
  let w (i : Nat) : Word := l.getD i 0#32
  let st := w 2
  let b (i : Nat) : Nat := (st.getLsbD i).toNat
  let lat1 := getBits 0 16 (w 1) + 2 ^ 16 * b 15 + 2 ^ 17 * b 12 + 2 ^ 18 * b 11 + 2 ^ 19 * b 13
    + 2 ^ 20 * b 2 + 2 ^ 21 * b 3 + 2 ^ 22 * b 8 + 2 ^ 23 * b 7 + 2 ^ 24 * b 14
  let s := (s.wr (PFB.LAT0 p) (w 0)).wrN (PFB.LAT1 p) lat1
  let s := (s.wr (PFB.LAT2 p) (w 3)).wr (PFB.LAT3 p) (w 4)
  (s.wr (PFB.LAT4 p) (w 5)).wr (PFB.LAT5 p) (s.ns 0)

/-- The sign of a velocity set-point that is not 0 (R104). -/
def State.cmdSign (s : State) (p : Nat) : State :=
  let v := s.rdI (PRG.VEL p)
  let neg := if v < 0 then true else if 0 < v then false else (s.pfbU p).cmdNeg
  if neg = (s.pfbU p).cmdNeg then s else s.setPfb p { s.pfbU p with cmdNeg := neg }

/-- The ticks of an FCK period in which FCK is low (R119). -/
def State.fckLow (s : State) (p : Nat) : Nat := s.f (PFB.SERCFG_CKDIV p) - s.f (PFB.SERCFG_CKDIV p) / 2

/-- The tick of the `n`-th rising edge of FCK of the transfer in progress; the first falling edge comes one tick
after the strobe (R119). -/
def State.fckRise (s : State) (p n : Nat) : Nat :=
  (s.pfbU p).xferAt + 1 + s.fckLow p + (n - 1) * s.f (PFB.SERCFG_CKDIV p)

/-- The level of P##_FCK (R100, R119): low in OFF, QUAD and TOOTH; high between transfers; BITS + 1 rising edges
in SSI, and in BISS a clock to the end of the transfer. -/
def State.fckLevel (s : State) (p : Nat) : Bool :=
  let m := s.f (PFB.CFG_MODE p)
  let f := (s.pfbU p).xferAt + 1
  if m < 3 then false
  else if !s.on (PFB.SERSTAT_BUSY p) || decide (s.now < f) then true
  else if m = 3 ∧ s.fckRise p (s.f (PFB.SERCFG_BITS p) + 1) ≤ s.now then true
  else decide (s.fckLow p ≤ (s.now - f) % s.f (PFB.SERCFG_CKDIV p))

/-- FZ in a BiSS transfer (R120): its first fall from the second rising edge of FCK on is the acknowledge, its rise after that the start bit,
which has to come within 64 periods. -/
def State.bissLevel (s : State) (p : Nat) (fz : Bool) : State :=
  let u := s.pfbU p
  let c : Instr := .serialAckTimeout (Fin.ofNat 96 p)
  if !s.on (PFB.SERSTAT_BUSY p) || decide (s.f (PFB.CFG_MODE p) ≠ 4) then s
  else if u.ackAt = none ∧ fz = false ∧ u.fz = true ∧ s.fckRise p 2 ≤ s.now - 2 then
    (s.setPfb p { u with ackAt := some (s.now - 2) }).resched (64 * s.f (PFB.SERCFG_CKDIV p) - 2) c
  else if u.ackAt.isSome && u.startAt.isNone && fz then (s.setPfb p { u with startAt := some (s.now - 2) }).cancel c
  else s

/-- Can the filter accept a new level of a pin that last changed at `at_` (R102): three equal samples ago? -/
def State.pinFree (s : State) (at_ : Option Nat) : Bool := at_.all (fun t => decide (t + 3 ≤ s.now))

/-- The levels that the filters accept in this tick, and the ticks of the last changes: none in a tick that has had its
levels, and no pin within three samples of its last change (R102; log entry 127, DEDUCED). -/
def State.pfbAccept (s : State) (p : Nat) (fa fb fz : Bool) : PfbUnit :=
  let u := s.pfbU p
  if [u.faAt, u.fbAt, u.fzAt].contains (some s.now) then u
  else
    let pin (at_ : Option Nat) (old new : Bool) : Bool × Option Nat :=
      if s.pinFree at_ && decide (new ≠ old) then (new, some s.now) else (old, at_)
    { u with fa := (pin u.faAt u.fa fa).1, faAt := (pin u.faAt u.fa fa).2,
             fb := (pin u.fbAt u.fb fb).1, fbAt := (pin u.fbAt u.fb fb).2,
             fz := (pin u.fzAt u.fz fz).1, fzAt := (pin u.fzAt u.fz fz).2 }

/-- The filtered levels of FA, FB and FZ change (R102 to R104). -/
def State.pfbLevels (s : State) (p : Nat) (fa fb fz : Bool) (frac : Nat) : State :=
  let n := s.pfbAccept p fa fb fz
  let (fa, fb, fz) := (n.fa, n.fb, n.fz)
  let s := (s.bissLevel p fz).cmdSign p
  let u := s.pfbU p
  let s := s.setPfb p { u with fa := fa, fb := fb, fz := fz, faAt := n.faAt, fbAt := n.fbAt, fzAt := n.fzAt }
  let inv := s.on (PFB.CFG_DIRINV p)
  match s.f (PFB.CFG_MODE p) with
  | 1 =>
    let d := (grayPos fa fb + 4 - grayPos u.fa u.fb) % 4
    if d = 0 then s
    else if d = 2 then
      let s := (s.raise (PFB.STAT_QERR p)).bump (PFB.CNT_ERR_CNT p)
      if s.on (PFB.CFG_QERR_FAULT p) then s.pfbFault p 2 else s
    else s.registerEdge p (xor (decide (d = 3)) inv) frac
  | 2 =>
    if fa ≠ u.fa ∧ fa = !s.on (PFB.CFG_TEDGE p) then
      s.registerEdge p (xor (s.toothNeg p) inv) frac
    else s
  | _ => s

/-- Standstill (R114). -/
def State.standstill (s : State) (p : Nat) : State :=
  let s := (s.raise (PFB.STAT_STILL p)).wrN (PFB.SPEED p) 0
  let s := (s.setF (PFB.STAT_SPEED_VALID p) 0).setF (PFB.STAT_REV_SETTLE p) 0
  s.setPfb p { s.pfbU p with n := 0, stood := true }

/-! ## Position commands (R107) -/

/-- LOAD and ABSORB act only in MODE = OFF or while the port is forced. -/
def State.posOpen (s : State) (p : Nat) : Bool :=
  decide (s.f (DPW.CFG_MODE p) = 0) || s.forced p

/-- The effect of LOAD with the SETPOS `w`, or of ABSORB. -/
def State.posCmd (s : State) (p : Nat) : Option Word → State
  | some w => (s.place p w.toInt).raise (PFB.STAT_HOMED p)
  | none => (s.place p (s.pos p + s.ovr p)).setF (PFB.STAT_OVR_SAT p) 0

/-- A position command acts; the unit keeps it for an edge of the same tick. -/
def State.posCmdNow (s : State) (p : Nat) (c : Option Word) : State :=
  let u := s.pfbU p
  let new : PosCmds := ⟨s.now, s.rd (PFB.POS p), s.rd (PFB.OVR p), s.rd (PFB.STAT p), []⟩
  let r := match u.posCmds with
    | some x => if x.tick = s.now then x else new
    | none => new
  (s.setPfb p { u with posCmds := some { r with cmds := r.cmds ++ [c] } }).posCmd p c

def State.pfbLoadCmd (s : State) (p : Nat) : State :=
  if s.posOpen p then s.posCmdNow p (some (s.rd (PFB.SETPOS p))) else s.sysIllegal

def State.pfbAbsorbCmd (s : State) (p : Nat) : State :=
  if s.posOpen p then s.posCmdNow p none else s.sysIllegal

/-- What an edge does in a tick with position commands, which act after it (R107): it finds the unit as they found
it, and then they act. -/
def State.underPosCmds (s : State) (p : Nat) (edge : State → State) : State :=
  match (s.pfbU p).posCmds with
  | none => edge s
  | some x =>
    if x.tick ≠ s.now then edge s
    else
      let t := (s.wr (PFB.POS p) x.pos).wr (PFB.OVR p) x.ovr
      let t := [PFB.STAT_HOMED p, PFB.STAT_OVR_SAT p, PFB.STAT_LIMIT p, PFB.STAT_AT_HI p, PFB.STAT_AT_LO p].foldl
        (fun (u : State) F => u.setF F (getBits F.lo F.w x.stat)) t
      x.cmds.foldl (fun (u : State) c => u.posCmd p c) (edge t)

def State.pfbHomeCmd (s : State) (p : Nat) : State := s.raise (PFB.CTRL_HOME p)

/-- A write of `PFB_Pp_CTRL`. Of LOAD and ABSORB in one write LOAD acts first, and ABSORB after it (log entry 139, DESIGN
CHOICE). -/
def State.pfbCtrlWrite (s : State) (p : Nat) (v : Word) : State :=
  let s := if !(v.getLsbD 0 || v.getLsbD 1) then s
    else if !s.posOpen p then s.sysIllegal
    else
      let s := if v.getLsbD 0 then s.pfbLoadCmd p else s
      if v.getLsbD 1 then s.pfbAbsorbCmd p else s
  if v.getLsbD 2 then s.pfbHomeCmd p else s

/-! ## Configuration (R101) -/

/-- The restart of a unit (R101): POS, OVERRUN and HOMED clear, standstill, no direction. A serial transfer in progress
ends too, and SERSTAT.FAILS is 0 (log entry 137, DESIGN CHOICE). -/
def State.pfbRestart (s : State) (p : Nat) : State :=
  let u := s.pfbU p
  let s := (s.wrN (PFB.POS p) 0).setF (PFB.OVR_V p) 0
  let s := (s.setF (PFB.STAT_HOMED p) 0).atLimits p
  let s := s.standstill p
  let s := s.setPfb p { PfbUnit.reset with
    fa := u.fa, fb := u.fb, fz := u.fz, faAt := u.faAt, fbAt := u.fbAt, fzAt := u.fzAt, cmdNeg := u.cmdNeg,
    lastBit := u.lastBit }
  let s := (s.setF (PFB.STAT_VALID p) 0).setF (PFB.STAT_DIR p) 0
  let s := (s.setF (PFB.SERSTAT_BUSY p) 0).setF (PFB.SERSTAT_FAILS p) 0
  let s := (s.cancel (.pfbStandstill (Fin.ofNat 96 p))).cancel (.serialAckTimeout (Fin.ofNat 96 p))
  s.pfbValid p

/-- Is a value of `PFB_Pp_CFG` refused? -/
def pfbCfgBad (v : Word) : Bool :=
  let mode := getBits 0 3 v
  let ref := getBits 6 2 v
  decide (4 < mode) || decide (getBits 4 2 v = 3) || decide (ref = 3)
    || (decide (ref = 2) && decide (mode ≠ 2))
    || (decide (ref = 1) && decide (getBits 8 2 v = 0) && decide (mode = 2))

/-- Is a value of `PFB_Pp_SERCFG` refused? -/
def serCfgBad (v : Word) : Bool :=
  let ck := getBits 0 10 v
  let bits := getBits 10 6 v
  decide (ck < 25) || decide (1000 < ck) || decide (bits < 8) || decide (32 < bits)
    || decide (getBits 17 4 v = 0)

def State.pfbCfgStore (s : State) (p : Nat) (ser : Bool) (v : Word) : State :=
  let bad := if ser then serCfgBad v else pfbCfgBad v
  s.judge bad (PFB.STAT_ERR_ARG p) (decide (s.f (DPW.CFG_MODE p) ≠ 0)) (fun s =>
    (s.store (if ser then PFB.SERCFG p else PFB.CFG p) v).pfbRestart p)

/-- A write of SL_LO, SL_HI, IDXEXP, CPR, TCFG or SERTM (R101); `bad` judges the value. -/
def State.pfbRegWrite (s : State) (p off : Nat) (v : Word) : State :=
  let bad :=
    if off = PFB.SL_LO p then decide (s.rdI (PFB.SL_HI p) ≤ v.toInt)
    else if off = PFB.SL_HI p then decide (v.toInt ≤ s.rdI (PFB.SL_LO p))
    else if off = PFB.CPR p then decide (v.toInt < 0)
    else if off = PFB.TCFG p then
      let t := getBits 0 10 v
      let g := getBits 10 8 v
      decide (t = 0) || decide (1000 < t) || decide (g < 18) || decide (48 < g)
        || decide (getBits 18 14 v = 0)
    else if off = PFB.SERTM p then decide (getBits 8 8 v = 0)
    else false
  s.judge bad (PFB.STAT_ERR_ARG p) (decide (s.f (DPW.CFG_MODE p) ≠ 0)) (fun s =>
    let t := (s.store off v).atLimits p
    if off = PFB.TCFG p then t.retimeStill p (s.tStill p) else t)

/-! ## Strobe set and readers (R116, R117) -/

/-- The position of R117 in 2^-16 count, from the strobe set. -/
def State.sampledPos (s : State) (p : Nat) : Int :=
  let sv := s.on (PFB.LAT1_SPEED_VALID p)
  let flt := s.on (PFB.LAT1_FAULT p)
  let speed := s.rdI (PFB.LAT4 p)
  let tEdge : Int := (s.rd (PFB.LAT2 p)).toNat * 8 - 32 + s.f (PFB.LAT3_FRAC p)
  let dt : Int := signedOf 35 (bitsOf 35 ((s.rd (PFB.LAT5 p)).toNat * 8 - tEdge))
  let m := s.f (PFB.CFG_MODE p)
  let lim : Int := if m = 3 ∨ m = 4 then s.f (PFB.TCFG_EXTLIM p) * 65536 else 32768
  let x : Int := if !sv || flt then 0
    else clampInt (-lim) lim (roundHalfAway (speed * dt * 65536) (16 * 8000000000))
  s.rdI (PFB.LAT0 p) * 65536 + x

/-! ## Serial encoders (R119 to R121) -/

/-- A failed transfer or an overlap (R121, R122). -/
def State.serFail (s : State) (p : Nat) (counts : Bool) : State :=
  let s := (s.setF (PFB.STAT_SPEED_VALID p) 0).bump (PFB.SERSTAT_FAILS p)
  let s := if counts then s.bump (PFB.CNT_ERR_CNT p) else s
  let s := s.setPfb p { s.pfbU p with good := 0 }
  if s.f (PFB.SERSTAT_FAILS p) = s.f (PFB.SERCFG_SERFAIL_N p) then s.pfbFault p 3 else s

/-- Is the unit ready for a transfer (R119)? -/
def State.serReady (s : State) (p : Nat) : Bool :=
  let u := s.pfbU p
  !s.on (PFB.SERSTAT_BUSY p) &&
    (if s.f (PFB.CFG_MODE p) = 3 then
      (match u.lastBit with
        | none => true
        | some t => decide (s.f (PFB.SERTM_MONO p) * 250 ≤ s.now - t))
     else u.fz)

/-- A strobe starts a transfer, or finds the unit not ready (R119): the reading's time stamp is the
first falling FCK edge, one tick after the strobe, plus LATDLY. A BiSS transfer fails unless FZ falls within
2,000 ns of the second rising edge (R120). -/
def State.serStart (s : State) (p : Nat) : State :=
  if !s.serReady p then (s.raise (PFB.SERSTAT_OVERLAP p)).serFail p false
  else
    let dly := s.f (PFB.SERTM_LATDLY p)
    let ts := ((s.stampWc 0 * 2 ^ 32 + (s.stampNs 0).toNat) * 8 + dly) % 2 ^ 43
    let s := s.setPfb p { s.pfbU p with
      xferTs := ts, xferFrac := dly % 32, xferAt := s.now, ackAt := none, startAt := none, fzStart := (s.pfbU p).fz }
    let s := s.raise (PFB.SERSTAT_BUSY p)
    if s.f (PFB.CFG_MODE p) = 4 then s.resched (s.fckRise p 2 + 500 - s.now) (.serialAckTimeout (Fin.ofNat 96 p)) else s

/-- A strobe with PFB = 1: in a serial mode it starts a transfer; it latches the strobe set. -/
def State.pfbStrobe (s : State) (p : Nat) : State :=
  let m := s.f (PFB.CFG_MODE p)
  let s := s.pfbLatch p
  if m = 3 ∨ m = 4 then s.serStart p else s

/-- Gray code to binary over `n` bits. -/
def grayToBin (x : Nat) : Nat → Nat
  | 0 => 0
  | n + 1 => x ^^^ grayToBin (x / 2) n

/-- One bit into the CRC of x^6 + x + 1 (R120). -/
def crc6Bit (c : Nat) (b : Bool) : Nat :=
  let fb := xor (decide (c / 32 % 2 = 1)) b
  let sh := c * 2 % 64
  if fb then sh ^^^ 3 else sh

/-- The transmitted CRC of R120: over the data bits MSB first, nE and nW, inverted. -/
def bissCrc (bits raw : Nat) (nE nW : Bool) : Nat :=
  let c := (List.range bits).foldl
    (fun c i => crc6Bit c (decide (raw / 2 ^ (bits - 1 - i) % 2 = 1))) 0
  63 - crc6Bit (crc6Bit c nE) nW

/-- A valid reading (R121): the first places POS, a later one is a step, which DIRINV turns round (R104, log entry
103); SPEED from the second, and after standstill from the second step (R114). -/
def State.serReading (s : State) (p r : Nat) : State :=
  let u := s.pfbU p
  let bits := s.f (PFB.SERCFG_BITS p)
  let s := s.wrN (PFB.SERRAW p) r
  let s := s.setF (PFB.SERSTAT_FAILS p) 0
  let ts := u.xferTs
  let tick := (ts + 2 ^ 43 - u.xferFrac) % 2 ^ 43 / 8 + 4
  let latch (s : State) : State := s.edgeLatch p (tick % 2 ^ 32) (tick / 2 ^ 32 % 256) u.xferFrac
  let s := if s.on (PFB.STAT_FAULT p) then s else s.raise (PFB.STAT_VALID p)
  match u.rPrev with
  | none =>
    let s := (latch (s.place p r))
    s.setPfb p { u with rPrev := some r, good := 1, tEdge := ts }
  | some rp =>
    let raw := signedOf bits ((r + 2 ^ bits - rp) % 2 ^ bits)
    let step := if s.on (PFB.CFG_DIRINV p) then -raw else raw
    let moved := decide (step ≠ 0)
    let n := if moved then min (u.n + 1) 3 else u.n
    let still := u.stood && decide (n < 2)
    let delta := (ts + 2 ^ 43 - u.tEdge) % 2 ^ 43
    let s := latch (s.addStep p step)
    let s := s.setPfb p { u with rPrev := some r, good := u.good + 1, tEdge := ts, n := n, stood := still }
    let s := if 1 ≤ u.good ∧ still = false then
        (s.wrI (PFB.SPEED p) (speedOf step delta)).raise (PFB.STAT_SPEED_VALID p) else s
    if !moved then s
    else ((s.setF (PFB.STAT_STILL p) 0).flag (PFB.STAT_DIR p) (decide (step < 0))).restartStill p
      (u.xferAt + 1 + (s.f (PFB.SERTM_LATDLY p) + 31) / 32 + s.tStill p - s.now)

/-- The tick at which the last bit of the transfer in progress is sampled (R120): in SSI SDLY ticks after the rising
edge BITS + 1; in BiSS, one period a bit, after the start bit that of CDS, the data, nE, nW and the CRC. None: the
encoder has not sent its start bit. -/
def State.serLast (s : State) (p : Nat) : Option Nat :=
  let bits := s.f (PFB.SERCFG_BITS p)
  if s.f (PFB.CFG_MODE p) = 3 then some (s.fckRise p (bits + 1) + s.f (PFB.SERTM_SDLY p))
  else (s.pfbU p).startAt.map (fun t => t + (bits + 9) * s.f (PFB.SERCFG_CKDIV p))

/-- The end of a transfer whose last bit was sampled at tick `last` (R120, R121). -/
def State.serEnd (s : State) (p : Nat) (r : SerFrame) (last : Nat) : State :=
  let s := (s.setF (PFB.SERSTAT_BUSY p) 0).cancel (.serialAckTimeout (Fin.ofNat 96 p))
  let s := s.setPfb p { s.pfbU p with lastBit := some last, before := s.pfbSet p }
  let bits := s.f (PFB.SERCFG_BITS p)
  let raw := r.raw.toNat % 2 ^ bits
  if s.f (PFB.CFG_MODE p) = 3 then
    if !(s.pfbU p).fzStart then (s.raise (PFB.SERSTAT_LINE_ERR p)).serFail p true
    else s.serReading p (if s.on (PFB.SERCFG_GRAY p) then grayToBin raw bits else raw)
  else
    let s := s.setF (PFB.SERSTAT_LINE_DLY p) (satU 8 ((s.pfbU p).ackAt.getD 0 - s.fckRise p 2))
    if r.crc.toNat ≠ bissCrc bits raw r.nE r.nW then (s.raise (PFB.SERSTAT_CRC_ERR p)).serFail p true
    else if !r.nE then (s.raise (PFB.SERSTAT_NE p)).serFail p true
    else (s.raiseIf (!r.nW) (PFB.SERSTAT_NW p)).serReading p raw

/-! ## Commands -/

/-- PFB_EDGE: the filter has accepted new levels in this tick (R102); a strobe of the tick takes the edge with it
(R116), and position commands of the tick act after it (R107). -/
def execPfbEdge (p : Fin 96) (fa fb fz : Bool) (frac : Fin 32) (s : State) : Out :=
  let t := s.underPosCmds p (·.pfbLevels p fa fb fz frac)
  ok (if (s.pfbU p).strobed = some s.now then t.pfbLatch p else t)

/-- PFB_STANDSTILL: in a mode that delivers positions (R114, R121). -/
def execPfbStandstill (p : Fin 96) (s : State) : Out :=
  if s.f (PFB.CFG_MODE p) = 0 then ok s else ok (s.standstill p)

/-- SERIAL_TRANSFER_END: the bits sampled in a transfer, all of which are in; before that, and without a transfer,
nothing happens (log entry 127). -/
def execSerialTransferEnd (p : Fin 96) (r : SerFrame) (s : State) : Out :=
  match s.serLast p with
  | some t => if s.on (PFB.SERSTAT_BUSY p) && decide (t ≤ s.now) then ok (s.serEnd p r t) else ok s
  | none => ok s

/-- SERIAL_ACK_TIMEOUT (R120): the BiSS transfer fails with ACK_TO; one whose start bit is in does not. -/
def execSerialAckTimeout (p : Fin 96) (s : State) : Out :=
  if s.on (PFB.SERSTAT_BUSY p) && decide (s.f (PFB.CFG_MODE p) = 4) && (s.pfbU p).startAt.isNone then
    let s := (s.setF (PFB.SERSTAT_BUSY p) 0).setPfb p { s.pfbU p with lastBit := some s.now, before := s.pfbSet p }
    let s := s.cancel (.serialAckTimeout p)
    ok ((s.raise (PFB.SERSTAT_ACK_TO p)).serFail p true)
  else ok s

end Sys2Proof.Machine
end

