-- ==== Sys2Proof/Machine/Lpe.lean ====
section
/-! DEFINITION. The Loop Engine (spec/07_loop_engine.md, R125 to R146). A slot takes its inputs at
its start, reads the injection hooks at their cycles, and at its end computes its stages in the fixed
point formats of R129 and marks its duty set. -/

namespace Sys2Proof.Machine

def State.slotU (s : State) (k : Nat) : LpeSlot := s.slot.get (fun _ => LpeSlot.reset) k

def State.setSlot (s : State) (k : Nat) (u : LpeSlot) : State :=
  { s with slot := s.slot.set (fun _ => LpeSlot.reset) k u }

/-! ## Arithmetic (R129) -/

/-- Saturate a 40-bit Q30 accumulator at ±2^39. -/
def sat40 (x : Int) : Int := clampInt (-(2 ^ 39 : Nat)) (2 ^ 39 : Nat) x

/-- Round num/den to Q15 and saturate. -/
def q15 (num : Int) (den : Nat) : Int := satS 16 (roundHalfAway num den)

/-- The sign of what a limit did: +1 reduced from above, −1 raised from below (R130). -/
def limSign (raw final : Int) : Int := if final < raw then 1 else if raw < final then -1 else 0

/-- The first of two limit signs that is not 0. -/
def orSign (a b : Int) : Int := if a = 0 then b else a

/-- A gain register applied to a Q15 signal, in Q30: K × 2^S × x. -/
def gmul (g : Word) (x : Int) : Int := sat40 (signedOf 16 (getBits 0 16 g) * (2 ^ getBits 16 4 g : Nat) * x)

/-- The low and high limits of a LIM register. -/
def limLo (w : Word) : Int := signedOf 16 (getBits 0 16 w)
def limHi (w : Word) : Int := signedOf 16 (getBits 16 16 w)

def clampW (w : Word) (x : Int) : Int := clampInt (limLo w) (limHi w) x

/-- An integer square root of a number below 2^64, bit by bit from `b`. -/
def isqrtBits (n acc : Nat) : Nat → Nat
  | 0 => acc
  | b + 1 =>
    let c := acc + 2 ^ b
    if c * c ≤ n then isqrtBits n c b else isqrtBits n acc b

def isqrt (n : Nat) : Nat := isqrtBits n 0 64

/-- π × 2^60 and √3 × 2^60, both rounded down. -/
def pi60 : Nat := 3622009729038561421
def sqrt3q60 : Nat := 1996918623117814387

/-- The Taylor terms of the sine of `x` (Q60), from term `k` on, with `t` the term before. -/
def sinTerms (x t : Int) : Nat → Nat → Int
  | 0, _ => t
  | n + 1, k => t - sinTerms x (t * x / 2 ^ 60 * x / 2 ^ 60 / ((2 * k) * (2 * k + 1))) n (k + 1)

/-- The sine of an angle of the first quadrant, 65,536 per turn, in Q60. -/
def sinQuad (a : Nat) : Int :=
  let x : Int := ((a * pi60 / 32768 : Nat) : Int)
  sinTerms x x 11 1

/-- The exact sine in Q60 of an angle of 65,536 per turn. -/
def sin60 (theta : Nat) : Int :=
  let a := theta % 65536
  if a ≤ 16384 then sinQuad a
  else if a ≤ 32768 then sinQuad (32768 - a)
  else if a ≤ 49152 then -sinQuad (a - 32768)
  else -sinQuad (65536 - a)

def cos60 (theta : Nat) : Int := sin60 (theta + 16384)

/-- A free whole number within 2 of num/den. -/
def near2 (num : Int) (den free : Nat) : Int :=
  let c := roundHalfAway num den
  let x := c + (free % 5 : Nat) - 2
  if (x * den - num).natAbs ≤ 2 * den then x else c

/-- The table's sine: a free value within 2 Q15 steps of the exact one (R134). -/
def tableQ15 (x60 : Int) (free : Nat) : Int := satS 16 (near2 x60 (2 ^ 45) free)

/-! ## Stages -/

/-- A PI stage (R130) before the current stages' voltage chain: the new state, the output u and
whether the integrator was clamped. -/
structure PiRes where
  st : PiState
  u : Int
  clampI : Bool
  deriving DecidableEq, Repr

def piStep (st : PiState) (e : Int) (kp ki ilim ulim : Word) (cond : Bool) : PiRes :=
  let hold := cond && ((decide (st.lim = 1) && decide (0 < e)) || (decide (st.lim = -1) && decide (e < 0)))
  let i0 := sat40 (st.i + gmul ki e)
  let i1 := clampInt (limLo ilim * 32768) (limHi ilim * 32768) i0
  let i := if hold then st.i else i1
  let raw := roundHalfAway (sat40 (gmul kp e + i)) 32768
  let u := clampW ulim (satS 16 raw)
  ⟨⟨i, limSign raw u, u, e, true⟩, u, !hold && decide (i1 ≠ i0)⟩

/-- The five coefficients of a biquad in the bank at `base`, offset `o`. -/
structure BqCoef where
  b0 : Int
  b1 : Int
  b2 : Int
  a1 : Int
  a2 : Int
  deriving DecidableEq, Repr

/-- A biquad (R132): the new states, y, and the sign of its saturation. -/
def bqStep (c : BqCoef) (st : Biquad) (x : Int) : Biquad × Int × Int :=
  let acc := (c.b0 * x + c.b1 * st.x1 + c.b2 * st.x2) * 4
  let acc := sat40 (acc - roundHalfAway (c.a1 * st.y1) 8192 - roundHalfAway (c.a2 * st.y2) 8192)
  let raw := roundHalfAway acc 32768
  let y := satS 16 raw
  (⟨x, st.x1, clampInt (-(2 ^ 30 : Nat)) ((2 ^ 30 : Nat) - 32768) acc, st.y1⟩, y, limSign raw y)

/-- The offset in a bank of the registers of R146. -/
def bankOff (k bank o : Nat) : Nat := LPE.CD_KP k bank + o

def State.bankW (s : State) (k bank o : Nat) : Word := s.rd (bankOff k bank o)

def State.bqCoef (s : State) (k bank o : Nat) : BqCoef :=
  let w0 := s.bankW k bank o
  let w1 := s.bankW k bank (o + 4)
  let w2 := s.bankW k bank (o + 8)
  ⟨limLo w0, limHi w0, limLo w1, limHi w1, limLo w2⟩

/-! ## Configuration of a frame -/

/-- F_LE in Hz (R40). -/
def State.fle (s : State) : Nat := 8000 * 2 ^ s.f LPEG.GCFG_FLE

/-- Is the slot's topology FOC3 (3PH), else DC2 (R126). -/
def State.foc3 (s : State) (k : Nat) : Bool := decide (s.f (DPW.CFG_MODE k) = 1)

/-- Does the slot run (R125)? -/
def State.slotRuns (s : State) (k : Nat) : Bool :=
  s.isIn [stRUN, stSAFE] && s.on (LPE.CFG_EN k)
    && (decide (s.f (DPW.CFG_MODE k) = 1) || decide (s.f (DPW.CFG_MODE k) = 3))
    && !s.on (DPW.CFG_SYNC k) && decide (s.f (DPW.CFG_OWNER k) = 0)

/-- The active bank, 0 A or 1 B. -/
def State.actBank (s : State) (k : Nat) : Nat := s.f (LPE.STAT_ACT_BANK k)

/-! ## Swap and reset (R138, R139) -/

/-- The integrator of a stage after a swap. -/
def swapInt (mode : Nat) (st : PiState) (kp ilim : Word) : PiState :=
  let lo := limLo ilim * 32768
  let hi := limHi ilim * 32768
  let i := match mode with
    | 0 => clampInt lo hi st.i
    | 1 => if st.ran then clampInt lo hi (sat40 (st.uLast * 32768 - gmul kp st.eLast))
           else clampInt lo hi 0
    | _ => clampInt lo hi 0
  { st with i := i }

/-- Did the integrator stand at a limit (R139)? -/
def atLimit (st : PiState) (ilim : Word) : Bool :=
  decide (st.i = limLo ilim * 32768) || decide (st.i = limHi ilim * 32768)

/-- A pending swap is carried out (R138, R139). -/
def State.doSwap (s : State) (k : Nat) : State :=
  if !s.on (LPE.CTRL_SWAP k) then s
  else
    let old := s.actBank k
    let new := 1 - old
    let u := s.slotU k
    let sat := atLimit u.d (s.bankW k old 0x08) || atLimit u.q (s.bankW k old 0x18)
      || atLimit u.v (s.bankW k old 0x28)
    let mode := getBits 16 2 (s.bankW k new 0x54)
    let s := (s.raiseIf sat (LPE.STAT_SAT_AT_SWAP k)).setF (LPE.STAT_ACT_BANK k) new
    let s := s.setF (LPE.CTRL_SWAP k) 0
    s.setSlot k { u with d := swapInt mode u.d (s.bankW k new 0x00) (s.bankW k new 0x08),
                         q := swapInt mode u.q (s.bankW k new 0x10) (s.bankW k new 0x18),
                         v := swapInt mode u.v (s.bankW k new 0x20) (s.bankW k new 0x28) }

/-- Does the active bank hold a word with an uncorrectable error (R145)? -/
def State.bankBad (s : State) (k : Nat) : Bool :=
  (s.slotU k).badWords.any (fun w => decide (w / 32 = s.actBank k))

/-- A pending RESET_INT is carried out (R139, R143). -/
def State.doResetInt (s : State) (k : Nat) : State :=
  if !s.on (LPE.CTRL_RESET_INT k) then s
  else
    let b := s.actBank k
    let z (st : PiState) (ilim : Word) : PiState :=
      { st with i := clampInt (limLo ilim * 32768) (limHi ilim * 32768) 0 }
    let u := s.slotU k
    let s := s.setF (LPE.CTRL_RESET_INT k) 0
    s.setSlot k { u with d := z u.d (s.bankW k b 0x08), q := z u.q (s.bankW k b 0x18),
                         v := z u.v (s.bankW k b 0x28), bq1 := Biquad.reset, bq2 := Biquad.reset,
                         ecc := u.ecc && s.bankBad k }

/-! ## Slot start (R125, R126, R128, R140, R142, R143) -/

/-- The bit of slot `k` in `LPE_GHELDn`. -/
def heldBit (k : Nat) : Field := ⟨LPEG.GHELD (k / 32), k % 32, 1⟩

/-- The inputs of R128. -/
def State.slotInputs (s : State) (k : Nat) : SlotIn :=
  { ia := s.fi (CAQ.LAT0_I_A k), ib := s.fi (CAQ.LAT0_I_B k), ic := s.fi (CAQ.LAT1_I_C k),
    u := s.f (CAQ.LAT1_U k), vu := s.on (CAQ.LAT3_VU k), pos := s.sampledPos k,
    speed := s.rdI (PFB.LAT4 k),
    posSp := signedOf 64 ((s.rd (PRG.POS_H k)).toNat * 2 ^ 32 + (s.rd (PRG.POS_L k)).toNat),
    velSp := s.rdI (PRG.VEL k), accSp := s.rdI (PRG.ACC k),
    cfg := s.rd (LPE.CFG k), ref := s.rd (LPE.REF k), emul := s.rd (LPE.EMUL k),
    eofs := s.rd (LPE.EOFS k), hook := s.rd (LPE.HOOK k), foc := s.foc3 k, outs := [] }

/-- The first hold cause of R142, 0 for none. -/
def State.holdCause (s : State) (k : Nat) : Nat :=
  let usesPos := decide (s.f (LPE.CFG_CASC k) ≠ 0) || (s.foc3 k && !s.on (LPE.HOOK_ANG k))
  let va := s.on (CAQ.LAT3_VA k)
  let vb := s.on (CAQ.LAT3_VB k)
  let vc := s.on (CAQ.LAT3_VC k)
  if s.lpe.frameBad then 5
  else if (s.slotU k).ecc || s.bankBad k then 4
  else if usesPos && (!s.on (PFB.LAT1_VALID k) || s.on (PFB.LAT1_FAULT k)) then 2
  else if !va || !vb || (s.foc3 k && !vc) then 3
  else if s.on (DPW.STAT_FORCED k) || decide (s.latches k ≠ 0) then 1
  else 0

/-- The slot shows no hold. -/
def State.slotUnheld (s : State) (k : Nat) : State :=
  ((s.setF (LPE.STAT_HELD k) 0).setF (LPE.STAT_HOLD_SRC k) 0).setF (heldBit k) 0

/-- A slot that does not run is idle (R19, R125). -/
def State.slotIdle (s : State) (k : Nat) : State :=
  let s := (s.setF (LPE.STAT_RUNNING k) 0).slotUnheld k
  s.setSlot k { s.slotU k with running := false, mism := false, cfgRec := false }

/-- The slot starts running: everything it keeps is 0 (R125). -/
def State.slotFresh (s : State) (k : Nat) : State :=
  let u := s.slotU k
  s.setSlot k { LpeSlot.reset with com1 := u.com1, com2 := u.com2, com3 := u.com3, ecc := u.ecc,
                                   badWords := u.badWords, issued := u.issued }

/-- The words of HKOUT0 to HKOUT4 from the inputs of the start tick (R140, R146). -/
def State.hkWords (s : State) (k fc : Nat) (held : Bool) : List Word :=
  let p := bitsOf 64 (s.sampledPos k)
  let l3 := s.rd (CAQ.LAT3 k)
  let b (n : Nat) : Nat := (l3.getLsbD n).toNat
  let flags := 2 ^ 16 * b 8 + 2 ^ 17 * b 9 + 2 ^ 18 * b 10 + 2 ^ 19 * b 11
    + 2 ^ 20 * s.f (PFB.LAT1_SPEED_VALID k) + 2 ^ 21 * b 12 + 2 ^ 22 * held.toNat
  [s.rd (CAQ.LAT0 k), s.rd (CAQ.LAT1 k), BitVec.ofNat 32 (p / 65536), BitVec.ofNat 32 (p % 65536),
    BitVec.ofNat 32 (fc + flags)]

/-- HKOUT0 to HKOUT4 and the HK0 token at cycle 16 (R140). -/
def State.slotHk0 (s : State) (k : Nat) : State :=
  let u := s.slotU k
  let s := (List.range 5).foldl (fun t i => t.wr (LPE.HKOUT k i) (u.inp.outs.getD i 0#32)) s
  if getBits 0 1 u.inp.hook = 1 then s.token (getBits 16 16 u.inp.hook) (BitVec.ofNat 32 (u.fc + 65536 * k)) 210
  else s

/-- The hook reads and the end of the slot fall due at their cycles (R127, R141). -/
def State.slotSchedule (s : State) (k : Nat) (held velDue : Bool) : State :=
  let fk : Fin 96 := Fin.ofNat 96 k
  let s := if !held && s.on (LPE.HOOK_HK1 k) && velDue && decide (s.f (LPE.CFG_CASC k) ≠ 0)
    then s.sched 8 (.lpeHookRead fk 0) else s
  let s := if !held && (s.on (LPE.HOOK_HK2 k) || (s.on (LPE.HOOK_ANG k) && s.foc3 k))
    then s.sched 88 (.lpeHookRead fk 1) else s
  let s := if !held && s.on (LPE.HOOK_HK3 k) then s.sched 168 (.lpeHookRead fk 2) else s
  let s := s.due 8 (.lpeOut k false)
  let s := if held then s else s.due 232 (.lpeOut k true)
  s.sched 240 (.lpeSlotEnd fk)

/-- Enter or leave the hold with cause `c` (R142, R143). The record carries HOLD_SRC in byte 0 of its payload (log entry
143, DESIGN CHOICE). -/
def State.slotHold (s : State) (k c : Nat) : State :=
  let was := s.on (LPE.STAT_HELD k)
  let s := s.setF (LPE.STAT_HOLD_SRC k) c
  if c = 0 then
    let s := (s.setF (LPE.STAT_HELD k) 0).setF (heldBit k) 0
    if was && s.on (LPE.CFG_RESUME_ZERO k) then
      let u := s.slotU k
      s.setSlot k { u with d := { u.d with i := 0 }, q := { u.q with i := 0 }, v := { u.v with i := 0 } }
    else s
  else
    let s := (s.raise (LPE.STAT_HELD k)).raise (heldBit k)
    let s := if was then s else s.record 0x04 0x02 k 4 (payloadOf [(c, 1)])
    if c = 1 then s else s.swLatch k

/-- The slot reads its active bank and its state: each stored error shows itself there once. A single error is
corrected and counted; a double one stands until its word is written or RESET_INT acts, and with an active bank
that still holds a bad word from before makes the hold cause ECC (R143, R145). -/
def State.slotEcc (s : State) (k : Nat) : State :=
  let here (e : Config.EccErr) : Bool :=
    (decide (e.place = 1) && decide (e.addr / 64 = 2 * k + s.actBank k)) || (decide (e.place = 2) && decide (e.addr = k))
  let l := s.ecc.filter here
  let s := { s with ecc := s.ecc.filter (fun e => !here e) }
  let s := (l.filter (fun e => !e.double)).foldl (fun t _ => (t.raise (LPE.STAT_ECC_CORR k)).bump (LPE.CNT_ECC_CNT k)) s
  let bad := l.filter (fun e => e.double)
  let u := s.slotU k
  let words := (bad.filter (fun e => decide (e.place = 1))).map (fun e => 32 * (e.addr / 64 % 2) + e.addr % 32)
  let s := s.setSlot k { u with badWords := u.badWords ++ words }
  if bad.isEmpty && (u.ecc || !s.bankBad k) then s
  else
    let s := s.setSlot k { s.slotU k with ecc := true }
    (s.raise LPEG.GSTAT_ECC_UNC).recordStat 0x04 0x04 k 4 (LPE.STAT k)

/-- The start tick of slot `k` (R125, R139). Where the slot starts running in the tick of a swap or of RESET_INT, its
integrators start at 0, as R125 says, after the clamped zero of R139 (log entry 140, DESIGN CHOICE). -/
def State.slotStart (s : State) (k : Nat) : State :=
  let s := (s.doSwap k).doResetInt k
  let s := s.setSlot k { s.slotU k with issued := true, ended := false }
  let fc := s.f LPEG.GSTAT_FC
  if !s.slotRuns k then s.slotIdle k
  else
    let starting := !(s.slotU k).running
    let s := if starting then s.slotFresh k else s
    let s := s.raise (LPE.STAT_RUNNING k)
    let mism := decide (s.foc3 k = decide (s.f (CAQ.CFG_PAIR k) = 3))
    if mism then
      let s := (s.raise (LPE.STAT_CFG_ERR k)).slotUnheld k
      let s := if (s.slotU k).cfgRec then s else s.recordStat 0x04 0x01 k 2 (LPE.STAT k)
      s.setSlot k { s.slotU k with running := true, mism := true, cfgRec := true, fc := fc }
    else
      let s := s.slotEcc k
      let wasHeld := s.on (LPE.STAT_HELD k)
      let cause := s.holdCause k
      let s := s.slotHold k cause
      let fresh := starting || (wasHeld && decide (cause = 0))
      let np := 2 ^ s.f (LPE.CFG_NP k)
      let nv := 2 ^ s.f (LPE.CFG_NV k)
      let velDue := fresh || decide (fc % nv = 0)
      let s := s.raiseIf (s.on (CAQ.LAT3_SAT k) && decide (cause = 0)) (LPE.STAT_IN_SAT k)
      let s := s.setSlot k { s.slotU k with
        running := true, mism := false, fc := fc, res := none,
        inp := { s.slotInputs k with outs := s.hkWords k fc (decide (cause ≠ 0)) },
        posDue := fresh || decide (fc % np = 0), velDue := velDue,
        h1 := .off, h2 := .off, h3 := .off,
        pPrev := if fresh then none else (s.slotU k).pPrev }
      s.slotSchedule k (decide (cause ≠ 0)) velDue

/-! ## Injection hooks (R141) -/

/-- The outcome of a hook read: fresh value, or the stale policy `sp` with the last value used. -/
def hookResult (fresh : Bool) (v : Word) (sp : Nat) (last : Option Word) : HookRes :=
  if fresh then .val v
  else match sp with
    | 0 => (match last with
      | some w => .val w
      | none => .zero)
    | 1 => .zero
    | _ => .bypass

/-- Hook `n` (0 to 2) of slot `k` is read at its cycle. -/
def State.hookRead (s : State) (k n : Nat) : State :=
  let u := s.slotU k
  let fresh := decide (s.f (LPE.HKIN_TAG_V k n) = u.fc % 256)
  let v := match n with
    | 0 => u.com1
    | 1 => u.com2
    | _ => u.com3
  let last := match n with
    | 0 => u.last1
    | 1 => u.last2
    | _ => u.last3
  let r := hookResult fresh v (getBits (6 + 2 * n) 2 u.inp.hook) last
  let s := if fresh then s else (s.raise (LPE.STAT_HK_STALE k)).bump (LPE.CNT_STALE_CNT k)
  let nl := if fresh then some v else last
  s.setSlot k (match n with
    | 0 => { u with h1 := r, last1 := nl }
    | 1 => { u with h2 := r, last2 := nl }
    | _ => { u with h3 := r, last3 := nl })

/-! ## Slot end (R131 to R136) -/

/-- The velocity feedback in Q15 (R131). -/
def State.vfb (s : State) (k : Nat) : Int :=
  let u := s.slotU k
  let nv := 2 ^ getBits 4 3 u.inp.cfg
  let vsh := getBits 15 5 u.inp.cfg
  let bySpeed := q15 (u.inp.speed * 4096 * nv) (s.fle * 2 ^ vsh)
  let src := match getBits 9 1 u.inp.cfg, u.pPrev with
    | 0, some p => q15 (u.inp.pos - p) (2 ^ vsh)
    | _, _ => bySpeed
  if getBits 2 1 u.inp.hook = 1 then
    match u.h1 with
    | .val v => q15 v.toInt (2 ^ vsh)
    | .zero => 0
    | _ => src
  else src

/-- The position and velocity stages (R131 to R133). -/
def State.outerStages (s : State) (k : Nat) : State :=
  let u := s.slotU k
  let b := s.actBank k
  let cfg := u.inp.cfg
  let casc := getBits 7 2 cfg
  let nv := 2 ^ getBits 4 3 cfg
  let vspq := q15 (u.inp.velSp * 4096 * nv) (s.fle * 2 ^ getBits 15 5 cfg)
  let ep := q15 (satS 48 (u.inp.posSp - u.inp.pos)) (2 ^ getBits 10 5 cfg)
  let ff := s.bankW k b 0x38
  let vRef :=
    if casc = 2 then
      (if u.posDue then
        clampW (s.bankW k b 0x34)
          (q15 (sat40 (gmul (s.bankW k b 0x30) ep + limLo ff * vspq * 2)) 32768)
       else u.vRef)
    else if casc = 1 then (if u.velDue then vspq else u.vRef)
    else u.vRef
  let s := s.setSlot k { u with vRef := vRef, ep := ep }
  if casc = 0 ∨ u.velDue = false then s
  else
    let bcfg := s.bankW k b 0x54
    let ulim := s.bankW k b 0x2C
    let r := piStep u.v (satS 16 (vRef - s.vfb k)) (s.bankW k b 0x20) (s.bankW k b 0x24)
      (s.bankW k b 0x28) ulim (bcfg.getLsbD 18)
    let (b1, y1, s1) := if bcfg.getLsbD 19 then bqStep (s.bqCoef k b 0x3C) u.bq1 r.u
      else (Biquad.reset, r.u, 0)
    let (b2, y2, s2) := if bcfg.getLsbD 20 then bqStep (s.bqCoef k b 0x48) u.bq2 y1
      else (Biquad.reset, y1, 0)
    let iq0 := clampW ulim y2
    let lim := orSign r.st.lim (orSign s1 (orSign s2 (limSign y2 iq0)))
    let s := s.raiseIf r.clampI (LPE.STAT_CLAMP_I k)
    s.setSlot k { s.slotU k with v := { r.st with lim := lim, uLast := iq0 }, bq1 := b1, bq2 := b2,
                                 iq0 := iq0, pPrev := some u.inp.pos }

/-- The electrical angle (R134). -/
def State.slotTheta (s : State) (k : Nat) : Nat :=
  let u := s.slotU k
  let fromPos := (u.inp.pos * u.inp.emul.toNat / (2 ^ 32 : Nat) + getBits 0 16 u.inp.eofs) % 65536
  if getBits 5 1 u.inp.hook = 1 then
    match u.h2 with
    | .val v => getBits 16 16 v
    | .zero => u.theta
    | _ => fromPos.toNat
  else fromPos.toNat

/-- IQ_ADD (R134, R141). -/
def State.iqAdd (s : State) (k : Nat) : Int :=
  let u := s.slotU k
  if getBits 3 1 u.inp.hook = 1 then
    match u.h2 with
    | .val v => limLo v
    | _ => 0
  else 0

/-- DC-link compensation (R135 step 2). -/
def dcComp (x : Int) (unom u : Nat) (vu : Bool) : Int :=
  if !vu || decide (u = 0) then x else roundHalfAway (x * unom) u

/-- On-times of FOC3 (R136): each a free value within 2 units of the formula on the Q15 voltages; the zero
voltage vector has no error from the table, its on-times are PER/2. -/
def focTimes (ud uq : Int) (theta per : Nat) (e1 e2 e3 : Nat) : List Nat :=
  let sn := sin60 theta
  let cs := cos60 theta
  let ual := ud * cs - uq * sn                       -- Q75
  let ube := ud * sn + uq * cs
  let h := ube * sqrt3q60 / (2 ^ 61 : Nat)
  let va := ual
  let vb := -ual / 2 + h
  let vc := -ual / 2 - h
  let off := -(max va (max vb vc) + min va (min vb vc)) / 2
  let t (v : Int) (e : Nat) : Nat :=
    let x := (v + off) * sqrt3q60 / (3 * 2 ^ 60 : Nat)  -- (v + off) / √3, Q75
    let num : Int := per * ((2 ^ 74 : Nat) + x)
    (clampInt 0 per (if ud = 0 ∧ uq = 0 then roundHalfAway num (2 ^ 75) else near2 num (2 ^ 75) e)).toNat
  [t va e1, t vb e2, t vc e3]

/-- On-times of DC2 (R136). -/
def dc2Times (ud uq : Int) (per : Nat) : List Nat :=
  let ta := (clampInt 0 per (roundHalfAway (per * (32768 + uq)) 65536)).toNat
  let tc := (clampInt 0 per (roundHalfAway (per * (32768 + ud)) 65536)).toNat
  [ta, per - ta, tc, per - tc]

/-- Write the on-times into the DPW shadows and mark the set (R62, R127). -/
def State.writeDuty (s : State) (k : Nat) (l : List Nat) : State :=
  ((l.zip [0, 1, 2, 3]).foldl (fun t x => t.setF (DPW.CMP_TON k x.2) x.1) s).mark k

/-- What the current stage of R134 and the voltage chain of R135 give. -/
structure CurRes where
  id_ : Int
  iq : Int
  ud : Int
  uq : Int
  deriving DecidableEq, Repr

/-- The measured currents in the axes of the stages: Clarke and Park in FOC3 (R134). -/
def axisCurrents (foc : Bool) (ia ib : Int) (sn cs : Int) : Int × Int :=
  if foc then
    let ibe := (ia + 2 * ib) * sqrt3q60 / 3            -- Q60 of (ia + 2 ib)/√3
    let al := ia * 2 ^ 60
    (q15 (al * cs + ibe * sn) (2 ^ 75), q15 (-al * sn + ibe * cs) (2 ^ 75))
  else (ib, ia)

/-- The current stages and the voltage chain (R134, R135). Where one limit of the chain lowers an output and a later one
raises it, lim_prev takes the sign of the first (log entry 141, DESIGN CHOICE). -/
def State.currentStages (s : State) (k theta : Nat) (foc : Bool) (sn cs : Int) : State × CurRes :=
  let u := s.slotU k
  let b := s.actBank k
  let cfg := u.inp.cfg
  let casc := getBits 7 2 cfg
  let nv := 2 ^ getBits 4 3 cfg
  let aq := q15 (u.inp.accSp * 4096 * (nv * nv : Nat)) (s.fle * s.fle * 2 ^ getBits 20 5 cfg)
  let ff := s.bankW k b 0x38
  let kaf := if casc = 0 then 0 else q15 (limHi ff * aq) 16384
  let iq0 := if casc = 0 then limHi u.inp.ref else u.iq0
  let iqRef := clampW (s.bankW k b 0x2C) (iq0 + kaf + s.iqAdd k)
  let idRef := limLo u.inp.ref
  let (id_, iq) := axisCurrents foc u.inp.ia u.inp.ib sn cs
  let bcfg := s.bankW k b 0x54
  let rd := piStep u.d (satS 16 (idRef - id_)) (s.bankW k b 0x00) (s.bankW k b 0x04)
    (s.bankW k b 0x08) (s.bankW k b 0x0C) (bcfg.getLsbD 18)
  let rq := piStep u.q (satS 16 (iqRef - iq)) (s.bankW k b 0x10) (s.bankW k b 0x14)
    (s.bankW k b 0x18) (s.bankW k b 0x1C) (bcfg.getLsbD 18)
  -- step 1: feed-forward
  let (fd, fq) : Int × Int := if getBits 4 1 u.inp.hook = 1 then
      (match u.h3 with
        | .val v => (limLo v, limHi v)
        | _ => (0, 0))
    else (0, 0)
  let d1 := satS 16 (rd.u + fd)
  let q1 := satS 16 (rq.u + fq)
  -- step 2: DC-link compensation
  let dc := cfg.getLsbD 25
  let unom := getBits 16 16 u.inp.eofs
  let d2r := if dc then dcComp d1 unom u.inp.u u.inp.vu else d1
  let q2r := if dc then dcComp q1 unom u.inp.u u.inp.vu else q1
  let d2 := satS 16 d2r
  let q2 := satS 16 q2r
  -- steps 3 and 4: voltage limit
  let vmax : Int := getBits 0 16 bcfg
  let d3 := clampInt (-vmax) vmax d2
  let r : Int := if foc then isqrt (vmax * vmax - d3 * d3).toNat else vmax
  let q3 := clampInt (-r) r q2
  let ld := orSign rd.st.lim (orSign (limSign (rd.u + fd) d1) (orSign (limSign d2r d2) (limSign d2 d3)))
  let lq := orSign rq.st.lim (orSign (limSign (rq.u + fq) q1) (orSign (limSign q2r q2) (limSign q2 q3)))
  let s := s.raiseIf (rd.clampI || rq.clampI) (LPE.STAT_CLAMP_I k)
  let s := s.raiseIf (decide (d3 ≠ d2) || decide (q3 ≠ q2)) (LPE.STAT_CLAMP_U k)
  (s.setSlot k { s.slotU k with d := { rd.st with lim := ld, uLast := d3 },
                                q := { rq.st with lim := lq, uLast := q3 },
                                theta := if foc then theta else u.theta },
   ⟨id_, iq, d3, q3⟩)

/-- Cycle 464 of a slot that runs and is not held: what the stages gave stands in HKOUT5 to HKOUT7, and the HK4
token goes (R127, R134 to R136, R140). In DC2, which forms no angle, HKOUT7 shows 0 for theta (log entry 142, DESIGN CHOICE). -/
def State.slotStages (s : State) (k : Nat) : State :=
  let s := s.outerStages k
  let foc := (s.slotU k).inp.foc
  let theta := if foc then s.slotTheta k else 0
  let e1 := s.freeNat
  let s := if foc then s.tickFree else s
  let e2 := s.freeNat
  let s := if foc then s.tickFree else s
  let sn := tableQ15 (sin60 theta) e1
  let cs := tableQ15 (cos60 theta) e2
  let (s, r) := s.currentStages k theta foc sn cs
  let u := s.slotU k
  let s := s.setSlot k { u with res := some (r.ud, r.uq, theta) }
  let s := s.wrN (LPE.HKOUT k 5) (bitsOf 16 r.id_ + 65536 * bitsOf 16 r.iq)
  let s := s.wrN (LPE.HKOUT k 6) (bitsOf 16 r.ud + 65536 * bitsOf 16 r.uq)
  let s := s.wrN (LPE.HKOUT k 7) (theta + 65536 * u.fc)
  if getBits 1 1 u.inp.hook = 1
  then s.token (getBits 16 16 u.inp.hook + 1) (BitVec.ofNat 32 (u.fc + 65536 * k + 4 * 2 ^ 24)) 211
  else s

/-- The read hooks of slot `k` at their cycles (R140). -/
def State.slotOut (s : State) (k : Nat) (late : Bool) : State :=
  let u := s.slotU k
  if !u.running || u.mism then s
  else if !late then s.slotHk0 k
  else if s.on (LPE.STAT_HELD k) || u.res.isSome then s
  else s.slotStages k

/-- Cycle 480 of a slot that runs and is not held: the on-times of R136, marked as one set. -/
def State.slotCompute (s : State) (k : Nat) : State :=
  let s := s.slotOut k true
  let u := s.slotU k
  let (ud, uq, theta) := u.res.getD (0, 0, 0)
  let per := s.portPeriod k
  let f := s.free
  let s := if u.inp.foc then s.tickFree.tickFree.tickFree else s
  s.writeDuty k (if u.inp.foc
    then focTimes ud uq theta per (Config.freeNat f) (Config.freeNat (f + 1)) (Config.freeNat (f + 2))
    else dc2Times ud uq per)

/-- INTC and INTV: the integrators, rounded to Q15, and v_ref (R146). -/
def State.slotInts (s : State) (k : Nat) : State :=
  let u := s.slotU k
  let s := (s.setFi (LPE.INTC_D k) (q15 u.d.i 32768)).setFi (LPE.INTC_Q k) (q15 u.q.i 32768)
  (s.setFi (LPE.INTV_V k) (q15 u.v.i 32768)).setFi (LPE.INTV_VREF k) u.vRef

/-- The zero set of a held slot (R142). -/
def State.zeroSet (s : State) (k : Nat) : State :=
  let h := s.portPeriod k / 2
  s.writeDuty k (if (s.slotU k).inp.foc then [h, h, h] else [h, h, h, h])

/-- The end of slot `k`. -/
def State.slotEnd (s : State) (k : Nat) : State :=
  let u := s.slotU k
  let s := s.setSlot k { u with ended := true }
  if !u.running || u.mism then s
  else if s.on (LPE.STAT_HELD k) then s.zeroSet k
  else s.slotCompute k

/-! ## Frame (R144, R146) -/

/-- Did the frame just ended issue every slot and bring every running slot to its end (R144)? -/
def State.frameCheck (s : State) : Bool :=
  (List.range 96).all (fun k =>
    let u := s.slotU k
    u.issued && (!u.running || u.mism || u.ended))

/-- A TCMP0 firing: the frame check, then FC (R144, R146). -/
def State.lpeFrame (s : State) : State :=
  let good := !s.lpe.started || s.frameCheck
  let s := if good then
      (if s.on LPEG.GSTAT_FRAME_ERR then s else { s with lpe := { s.lpe with frameBad := false } })
    else
      let t := s.raise LPEG.GSTAT_FRAME_ERR
      let t := t.recordStat 0x04 0x03 0 2 LPEG.GSTAT
      { t with lpe := { t.lpe with frameBad := true } }
  let s := { s with lpe := { s.lpe with started := true } }
  let s := (List.range 96).foldl (fun t k =>
    if (t.slotU k).issued then t.setSlot k { t.slotU k with issued := false } else t) s
  s.bumpMod LPEG.GSTAT_FC

/-! ## Register writes (R137, R141, R146) -/

def State.lpeGcfgWrite (s : State) (v : Word) : State :=
  if s.isIn [stRUN, stSAFE] then s.sysIllegal
  else
    let t := s.store LPEG.GCFG v
    t.wrN (TCMP.PERIOD 0) (t.frameUnits / 8)

def lpeCfgBad (v : Word) : Bool :=
  let np := getBits 1 3 v
  let nv := getBits 4 3 v
  decide (4 < np) || decide (4 < nv) || decide (np < nv) || decide (getBits 7 2 v = 3)

def State.lpeCfgWrite (s : State) (k : Nat) (v : Word) : State :=
  s.judge (lpeCfgBad v) (LPE.STAT_ERR_ARG k) (decide (s.f (DPW.CFG_MODE k) ≠ 0))
    (fun s => s.store (LPE.CFG k) v)

/-- Is a HOOK word refused: a reserved policy, or an odd or reserved TAG (R146)? -/
def hookBad (v : Word) : Bool :=
  let tag := getBits 16 16 v
  decide (getBits 6 2 v = 3) || decide (getBits 8 2 v = 3) || decide (getBits 10 2 v = 3)
    || decide (tag % 2 = 1) || (decide (0xFF00 ≤ tag) && decide (tag ≤ 0xFF07))

def State.hookWrite (s : State) (k : Nat) (v : Word) : State :=
  if hookBad v then s.raise (LPE.STAT_ERR_ARG k) else s.store (LPE.HOOK k) v

/-- A write to HKINn_TAG commits the value with its tag (R141). -/
def State.hookCommit (s : State) (k n : Nat) (v : Word) : State :=
  let c := s.rd (LPE.HKIN_VAL k n)
  let u := s.slotU k
  (s.store (LPE.HKIN_TAG k n) v).setSlot k (match n with
    | 0 => { u with com1 := c }
    | 1 => { u with com2 := c }
    | _ => { u with com3 := c })

/-- Is a bank word out of range for its format (R137, R146)? `w` is the word's index in the bank. -/
def bankBadValue (w : Nat) (v : Word) : Bool :=
  if w ∈ [0, 1, 4, 5, 8, 9, 12] then decide (8 < getBits 16 4 v)
  else if w ∈ [2, 3, 6, 7, 10, 11, 13] then decide (limHi v < limLo v)
  else if w = 21 then decide (32767 < getBits 0 16 v) || decide (getBits 16 2 v = 3)
  else false

/-- A write to word `w` of bank `b` (R137); `coin`: it lands in the tick of a swap, into the
incoming bank (R138). -/
def State.bankWrite (s : State) (k b w : Nat) (v : Word) (coin : Bool) : State :=
  if bankBadValue w v then s.raise (LPE.STAT_ERR_ARG k)
  else if s.actBank k = b ∨ coin then s.raise (LPE.STAT_BANK_ERR k)
  else
    let u := s.slotU k
    let s := { s with ecc := s.ecc.filter (fun e => !(decide (e.place = 1) && decide (e.addr = 64 * (2 * k + b) + w))) }
    (s.store (bankOff k b (4 * w)) v).setSlot k
      { u with badWords := u.badWords.filter (fun x => decide (x ≠ 32 * b + w)) }

/-- A write of `LPE_Ss_STAT`: HK_STALE and ECC_CORR take their counters along (R146). -/
def State.lpeStatWrite (s : State) (k : Nat) (v hw : Word) : State :=
  let t := s.store (LPE.STAT k) v hw
  let t := if v.getLsbD 3 && !hw.getLsbD 3 then t.setF (LPE.CNT_STALE_CNT k) 0 else t
  if v.getLsbD 7 && !hw.getLsbD 7 then t.setF (LPE.CNT_ECC_CNT k) 0 else t

/-! ## Commands -/

def execLpeSlotStart (k : Fin 96) (s : State) : Out := ok (s.slotStart k)

/-- LPE_HOOK_READ: a held slot, and one that does not run, reads no hook (R141). -/
def execLpeHookRead (k : Fin 96) (n : Fin 3) (s : State) : Out :=
  let u := s.slotU k
  if !u.running || u.mism || s.on (LPE.STAT_HELD k) then ok s else ok (s.hookRead k n)

def execLpeSlotEnd (k : Fin 96) (s : State) : Out := ok (s.slotEnd k)

end Sys2Proof.Machine
end

