-- ==== Sys2Proof/Machine/Plan.lean ====
section
/-! DEFINITION. The mathematics of motion (R153, R155, R158, R161): jerk-limited ramps, stops and
moves as lists of constant-jerk segments over exact rationals, in counts and seconds; and the quintic
Hermite segment of a spline stream. The hardware computes in fp64 and stays within the tolerance of
R153, which the generators add as a free error (log entry 6). -/

namespace Sys2Proof.Machine

/-- Position, velocity and acceleration. -/
structure Kin where
  p : Rat
  v : Rat
  a : Rat
  deriving DecidableEq, Repr

/-- A rational rounded to the nearest integer, halves away from zero. -/
def roundRat (x : Rat) : Int := roundHalfAway x.num x.den

/-- The sign of a rational. -/
def sgnR (x : Rat) : Rat := if 0 < x then 1 else if x < 0 then -1 else 0

def absR (x : Rat) : Rat := if x < 0 then -x else x

/-- A square root to 2^-40, rounded down. -/
def sqrtR (x : Rat) : Rat :=
  if x ≤ 0 then 0
  else mkRat (isqrtBits ((x.num * (2 ^ 80 : Nat) / x.den).toNat) 0 128 : Nat) (2 ^ 40)

/-- After `t` seconds of constant jerk `j`. -/
def Kin.adv (k : Kin) (j t : Rat) : Kin :=
  ⟨k.p + k.v * t + k.a * t * t / 2 + j * t * t * t / 6, k.v + k.a * t + j * t * t / 2, k.a + j * t⟩

/-- The start of a segment: its acceleration step, where it has one. -/
def Kin.enter (k : Kin) (s : Seg) : Kin :=
  match s.step with
  | some a => { k with a := a }
  | none => k

/-- The state at the end of a plan. -/
def Kin.run (k : Kin) : List Seg → Kin
  | [] => k
  | s :: r => ((k.enter s).adv s.j s.dur).run r

/-- The state `t` seconds into a plan, at rest once it has ended. -/
def Kin.at (k : Kin) (t : Rat) : List Seg → Kin
  | [] => { k with v := 0, a := 0 }
  | s :: r => if t < s.dur then (k.enter s).adv s.j t else ((k.enter s).adv s.j s.dur).at (t - s.dur) r

/-- A segment without an acceleration step. -/
def seg (dur j : Rat) : Seg := ⟨if dur < 0 then 0 else dur, j, none⟩

/-- The ramp from velocity `v0` with acceleration `a0` to velocity `vt` with acceleration 0, within
`am` and the jerk `j`. -/
def ramp (v0 a0 vt am j : Rat) : List Seg :=
  let va := v0 + a0 * absR a0 / (2 * j)
  let s := sgnR (vt - va)
  if s = 0 then [seg (absR a0 / j) (-(sgnR a0) * j)]
  else
    let a := s * a0
    let dv := s * (vt - v0)
    let pk := sqrtR (j * dv + a * a / 2)
    let pk := if am < pk then am else pk
    let s1 := sgnR (pk - a)
    let t1 := absR (pk - a) / j
    let v1 := a * t1 + s1 * j * t1 * t1 / 2
    let t2 := if pk = 0 then 0 else (dv - v1 - pk * pk / (2 * j)) / pk
    [seg t1 (s * s1 * j), seg t2 0, seg (pk / j) (-(s * j))]

/-- The jerk-limited stop from (v, a) with deceleration `d`. -/
def stopSegs (v a d j : Rat) : List Seg := ramp v a 0 d j

/-- The distance a plan covers from (0, v, a). -/
def distOf (v a : Rat) (l : List Seg) : Rat := ((Kin.mk 0 v a).run l).p

/-- Bisection of an increasing `f` for the value `d` between `lo` and `hi`. -/
def bisect (f : Rat → Rat) (d : Rat) : Rat → Rat → Nat → Rat
  | lo, _, 0 => lo
  | lo, hi, n + 1 =>
    let m := (lo + hi) / 2
    if f m ≤ d then bisect f d m hi n else bisect f d lo m n

/-- Limits of a move: velocity, acceleration, deceleration, jerk (R152). -/
structure Limits where
  v : Rat
  a : Rat
  d : Rat
  j : Rat
  deriving DecidableEq, Repr

/-- A forward move of `dist` from (v0, a0) that need not reverse: up to a peak velocity, a cruise at
the limit, and down to rest. -/
def forwardMove (dist v0 a0 : Rat) (l : Limits) : List Seg :=
  let va := v0 + a0 * absR a0 / (2 * l.j)
  let prof (vp : Rat) : List Seg :=
    ramp v0 a0 vp (if va ≤ vp then l.a else l.d) l.j ++ stopSegs vp 0 l.d l.j
  let slack (t : Rat) : List Seg :=
    let k := (Kin.mk 0 v0 a0).adv l.j t
    seg t l.j :: stopSegs k.v k.a l.d l.j
  if a0 < 0 ∧ dist < distOf v0 a0 (prof va) then
    slack (bisect (fun t => distOf v0 a0 (slack t)) dist 0 (absR a0 / l.j) 60)
  else if distOf v0 a0 (prof l.v) ≤ dist then
    ramp v0 a0 l.v (if va ≤ l.v then l.a else l.d) l.j
      ++ [seg ((dist - distOf v0 a0 (prof l.v)) / l.v) 0] ++ stopSegs l.v 0 l.d l.j
  else prof (bisect (fun vp => distOf v0 a0 (prof vp)) dist va l.v 60)

/-- Mirror a plan. -/
def mirror (l : List Seg) : List Seg :=
  l.map (fun s => ⟨s.dur, -s.j, s.step.map (fun a => -a)⟩)

/-- A move of `dist` (signed) from rest. -/
def restMove (dist : Rat) (l : Limits) : List Seg :=
  if dist = 0 then []
  else if 0 < dist then forwardMove dist 0 0 l
  else mirror (forwardMove (-dist) 0 0 l)

/-- What a plan needs to know of its stop: its segments, its rest point and the flags of R155. -/
structure PlanRes where
  segs : List Seg
  limitStop : Bool
  limitRisk : Bool
  rest : Rat
  deriving DecidableEq, Repr

/-- The EDEC stop of R155: the acceleration steps to −sign(v) × e and returns to 0 at rest. -/
def edecSegs (v e : Rat) : List Seg :=
  if v = 0 ∨ e = 0 then [] else [⟨absR v / e, 0, some (-(sgnR v) * e)⟩]

/-- The stop of R155 from (p, v, a), with the soft limits `lo`, `hi`, the largest deceleration `dmax` and the
step `e`: its rest point is tested against the limits. -/
def stopPlan (k : Kin) (lo hi dmax e : Rat) (l : Limits) : PlanRes :=
  let stop (d : Rat) : List Seg := stopSegs k.v k.a d l.j
  let rest (d : Rat) : Rat := k.p + distOf k.v k.a (stop d)
  let r := rest l.d
  if lo ≤ r ∧ r ≤ hi then ⟨stop l.d, false, false, r⟩
  else
    let bound := if hi < r then hi else lo
    let within (d : Rat) : Bool := decide (absR (rest d - k.p) ≤ absR (bound - k.p))
      && (if hi < r then decide (k.p ≤ bound) else decide (bound ≤ k.p))
    if l.d < dmax ∧ within dmax = true then
      let d := bisect (fun d => -(absR (rest d - k.p))) (-(absR (bound - k.p))) l.d dmax 60
      ⟨stop d, true, false, bound⟩
    else ⟨edecSegs k.v e, false, true, r⟩

/-- The reversal of R153 and R155: the stop, then a move from rest to the target where the limits allow it. -/
def reversalPlan (k : Kin) (target lo hi dmax e : Rat) (l : Limits) : PlanRes :=
  let r := stopPlan k lo hi dmax e l
  if r.limitRisk then r else { r with segs := r.segs ++ restMove (target - r.rest) l }

/-- The first `t` seconds of a plan. -/
def takeSegs (t : Rat) : List Seg → List Seg
  | [] => []
  | s :: r => if t ≤ s.dur then [{ s with dur := t }] else s :: takeSegs (t - s.dur) r

/-- A forward move of `dist` from a velocity above the limit (R153): |v| is first brought down to the limit. Where
the target lies too near to cruise there, the deceleration is only eased, so that the plan ends at the target: to
a velocity below the limit before the stop, or for a part of the stop from where |v| has come down to the limit
(log entry 104). -/
def fastMove (dist v0 a0 : Rat) (l : Limits) : List Seg :=
  let prof (vp : Rat) : List Seg := ramp v0 a0 vp l.d l.j ++ stopSegs vp 0 l.d l.j
  let down := ramp v0 a0 l.v l.d l.j
  if distOf v0 a0 (prof l.v) ≤ dist then down ++ forwardMove (dist - distOf v0 a0 down) l.v 0 l
  else
    let stop := stopSegs v0 a0 l.d l.j
    let k0 : Kin := ⟨0, v0, a0⟩
    let t := bisect (fun t => if l.v < (k0.at t stop).v then 0 else 1) 0 0 (stop.foldl (fun t s => t + s.dur) 0) 60
    let k := k0.at t stop
    let va := k.v + k.a * absR k.a / (2 * l.j)
    let eased := distOf k.v k.a (ramp k.v k.a va l.d l.j ++ stopSegs va 0 l.d l.j)
    if k.a < 0 ∧ dist - k.p < eased then takeSegs t stop ++ forwardMove (dist - k.p) k.v k.a l
    else prof (bisect (fun vp => distOf v0 a0 (prof vp)) dist 0 l.v 60)

/-- The plan of R153 and R155 from `k` to `target`. -/
def movePlan (k : Kin) (target lo hi dmax e : Rat) (l : Limits) : PlanRes :=
  let s := sgnR (target - k.p)
  let dist := absR (target - k.p)
  let v := s * k.v
  let a := s * k.a
  let stopDist := distOf v a (stopSegs v a l.d l.j)
  if absR (dist - stopDist) * 131072 ≤ 1 ∧ (0 < v ∨ k.v = 0) then
    ⟨stopSegs k.v k.a l.d l.j, false, false, target⟩
  else if s = 0 ∨ v < 0 ∨ dist < stopDist then reversalPlan k target lo hi dmax e l
  else
    let fwd := if l.v < v then fastMove dist v a l else forwardMove dist v a l
    ⟨if 0 < s then fwd else mirror fwd, false, false, target⟩

/-! ## The quintic Hermite segment (R158) -/

/-- Position, velocity and acceleration at fraction `s` of a segment of `h` seconds. -/
def hermite (k0 k1 : Kin) (h s : Rat) : Kin :=
  if h = 0 then k1
  else
    let dp := k1.p - k0.p
    let c1 := k0.v * h
    let c2 := k0.a * h * h / 2
    let c3 := 10 * dp - (6 * k0.v + 4 * k1.v) * h - (3 * k0.a - k1.a) * h * h / 2
    let c4 := -15 * dp + (8 * k0.v + 7 * k1.v) * h + (3 * k0.a - 2 * k1.a) * h * h / 2
    let c5 := 6 * dp - 3 * (k0.v + k1.v) * h - (k0.a - k1.a) * h * h / 2
    ⟨k0.p + s * (c1 + s * (c2 + s * (c3 + s * (c4 + s * c5)))),
     (c1 + s * (2 * c2 + s * (3 * c3 + s * (4 * c4 + s * 5 * c5)))) / h,
     (2 * c2 + s * (6 * c3 + s * (12 * c4 + s * 20 * c5))) / (h * h)⟩

end Sys2Proof.Machine
end

