-- ==== Sys2Proof/Machine/Prg.lean ====
section
/-! DEFINITION. Profile generators (spec/08_profiles_and_stepping.md, R147 to R166, R174, R175, R506):
sources, jerk-limited moves, spline streams, TRACK, SS1 and gearing, over exact rationals in counts
and seconds. -/

namespace Sys2Proof.Machine

/-- The 64-bit value of a register pair whose `_L` lies at `off`, signed. -/
def State.wide (s : State) (off : Nat) : Int :=
  signedOf 64 ((s.rd (off + 4)).toNat * 2 ^ 32 + (s.rd off).toNat)

/-- Write a register pair. -/
def State.wrWide (s : State) (off : Nat) (v : Int) : State :=
  let b := bitsOf 64 v
  (s.wrN off b).wrN (off + 4) (b / 2 ^ 32)

/-- A difference of two 32-bit NS values, signed (R36). -/
def nsDiff (a b : Nat) : Int := (BitVec.ofNat 32 a - BitVec.ofNat 32 b).toInt

/-- Nanoseconds as seconds. -/
def secs (ns : Rat) : Rat := ns / 1000000000

/-! ## Outputs (R147) -/

def State.pgOut (s : State) (n : Nat) : Nat := s.f (PRG.CFG_OUT n)

/-- Does the port configuration match the output (R147)? -/
def State.pgCfgOk (s : State) (n : Nat) : Bool :=
  let owned := s.on (DPW.CFG_SYNC n) && decide (s.f (DPW.CFG_OWNER n) = 1)
  match s.pgOut n with
  | 1 => owned && decide (s.f (DPW.CFG_MODE n) = 2) && decide (s.f (CAQ.CFG_PAIR n) = 3)
  | 3 => owned && (decide (s.f (DPW.CFG_MODE n) = 1) || decide (s.f (DPW.CFG_MODE n) = 3))
  | _ => true

/-- CFG_ERR at an update, with one record as it first sets (R147). -/
def State.pgCfgCheck (s : State) (n : Nat) : State :=
  if s.pgCfgOk n || s.on (PRG.STAT_CFG_ERR n) then s
  else (s.raise (PRG.STAT_CFG_ERR n)).recordStat 0x05 0x01 n 2 (PRG.STAT n)

/-! ## Limits (R151, R152) -/

/-- VMAX, AMAX, DMAX, JMAX, VSLS, EDEC, PLO and PHI as they stand. -/
def State.pgLims (s : State) (n : Nat) : List Nat :=
  [PRG.VMAX n, PRG.AMAX n, PRG.DMAX n, PRG.JMAX n, PRG.VSLS n, PRG.EDEC n].map
    (fun o => (s.rd o).toNat) ++ [bitsOf 64 (s.wide (PRG.PLO_L n)), bitsOf 64 (s.wide (PRG.PHI_L n))]

/-- The limits an evaluation in this tick uses: a write in this very tick does not count (R151). -/
def State.pgLimsUsed (s : State) (n : Nat) : List Nat :=
  match (s.pgU n).limOld with
  | some (t, l) => if t = s.now then l else s.pgLims n
  | none => s.pgLims n

/-- A limit register is about to change. -/
def State.pgLimTouch (s : State) (n : Nat) : State :=
  let u := s.pgU n
  match u.limOld with
  | some (t, _) => if t = s.now then s else s.setPg n { u with limOld := some (s.now, s.pgLims n) }
  | none => s.setPg n { u with limOld := some (s.now, s.pgLims n) }

def limAt (l : List Nat) (i : Nat) : Nat := l.getD i 0

/-- The limits `l` of an evaluation stand again, but for VSLS and for a write of this very tick, which the next
evaluation uses (R14, R151). -/
def State.pgLimsBack (s : State) (n : Nat) (l : List Nat) : State :=
  let used := s.pgLimsUsed n
  let cur := s.pgLims n
  let back (i : Nat) : Nat := if limAt cur i = limAt used i then limAt l i else limAt cur i
  let u := s.pgU n
  let s := s.setPg n { u with limOld := u.limOld.map (fun x => (x.1, l.set 4 (limAt used 4))) }
  let s := [(PRG.VMAX n, 0), (PRG.AMAX n, 1), (PRG.DMAX n, 2), (PRG.JMAX n, 3), (PRG.EDEC n, 5)].foldl
    (fun t x => t.wrN x.1 (back x.2)) s
  (s.wrWide (PRG.PLO_L n) (signedOf 64 (back 6))).wrWide (PRG.PHI_L n) (signedOf 64 (back 7))

/-- PLO and PHI of a list of limits, in 2^-16 count. -/
def softLo (l : List Nat) : Int := signedOf 64 (limAt l 6)
def softHi (l : List Nat) : Int := signedOf 64 (limAt l 7)

/-- The step of the LIMIT_RISK case, max(EDEC, DMAX) (R155). -/
def limE (l : List Nat) : Rat := (max (limAt l 5) (limAt l 2) : Nat) / 16

/-- A MOVE value of 0 stands for the maximum (R152). -/
def orMax (mv mx : Nat) : Nat := if mv = 0 then mx else min mv mx

/-- The limits of a move (R152), in counts. -/
def moveLimits (l : List Nat) (m : Move) : Limits :=
  ⟨(min (orMax m.v (limAt l 0)) (limAt l 4) : Nat) / 16, (orMax m.a (limAt l 1) : Nat) / 16,
   (orMax m.d (limAt l 2) : Nat) / 16, (limAt l 3 : Nat)⟩

def Limits.zero (l : Limits) : Bool :=
  decide (l.v = 0) || decide (l.a = 0) || decide (l.d = 0) || decide (l.j = 0)

/-! ## Plans -/

/-- The generator's state as motion. -/
def PgUnit.kin (u : PgUnit) : Kin := ⟨u.p, u.v, u.a⟩

/-- A plan starts at the state of the last update. -/
def PgUnit.begin (u : PgUnit) (plan : List Seg) : PgUnit :=
  { u with plan := plan, planAt := 0, k0p := u.p, k0v := u.v, k0a := u.a }

/-- Hold: at rest where the axis stands. -/
def PgUnit.hold (u : PgUnit) : PgUnit := { u with v := 0, a := 0, plan := [] }

/-- The length of a plan. -/
def planDur (l : List Seg) : Rat := l.foldl (fun t s => t + s.dur) 0

/-- A jerk-limited stop from the present state; at once where `d` or `j` is 0 (R506). -/
def PgUnit.stop (u : PgUnit) (d j : Rat) : PgUnit :=
  if d ≤ 0 ∨ j ≤ 0 then u.hold else u.begin (stopSegs u.v u.a d j)

/-- No jerk-limited plan exists: the EDEC stop, the target discarded (R153). -/
def State.pgNoPlan (s : State) (n : Nat) (e : Rat) : State :=
  let u := { s.pgU n with target := none }
  (s.setPg n (if e = 0 then u.hold else u.begin (edecSegs u.v e))).raise (PRG.STAT_ERR_ARG n)

/-- Take a plan towards `t`, with the flags and the record of its rest point (R155). -/
def State.pgTake (s : State) (n : Nat) (t : Int) (r : PlanRes) : State :=
  let s := s.setPg n ({ s.pgU n with target := if r.limitRisk then none else some t }.begin r.segs)
  let s := s.raiseIf r.limitStop (PRG.STAT_LIMIT_STOP n)
  if r.limitRisk then
    (s.raise (PRG.STAT_LIMIT_RISK n)).record 0x05 0x02 n 2
      (payloadOf [(bitsOf 64 (satS 64 (roundRat (r.rest * 65536))), 8)])
  else s

/-- The target within PLO and PHI, with TGT_CLAMP where it lay outside (R154). -/
def State.pgClamp (s : State) (n : Nat) (tgt : Int) : State × Int :=
  let l := s.pgLimsUsed n
  let t := clampInt (softLo l) (softHi l) tgt
  (s.raiseIf (decide (t ≠ tgt)) (PRG.STAT_TGT_CLAMP n), t)

/-- A stop with the limits `m`, its rest point tested against PLO and PHI, with `t` as target (R155). -/
def State.pgStopPlan (s : State) (n : Nat) (t : Int) (m : Limits) : State :=
  let l := s.pgLimsUsed n
  s.pgTake n t (stopPlan (s.pgU n).kin (softLo l / 65536) (softHi l / 65536) ((limAt l 2 : Nat) / 16) (limE l) m)

/-- Plan from the present state to `tgt`, in 2^-16 count (R152 to R155). -/
def State.pgPlan (s : State) (n : Nat) (tgt : Int) : State :=
  let u := s.pgU n
  let l := s.pgLimsUsed n
  let m := moveLimits l u.move
  let (s, t) := s.pgClamp n tgt
  if m.a = 0 ∨ m.d = 0 ∨ m.j = 0 then s.pgNoPlan n (limE l)
  else if m.v = 0 then s.pgStopPlan n t m
  else s.pgTake n t (movePlan u.kin (t / 65536) (softLo l / 65536) (softHi l / 65536) ((limAt l 2 : Nat) / 16) (limE l) m)

/-- Advance a plan by `dt` seconds; at its end the set-point equals the target exactly (R153). -/
def State.pgRunPlan (s : State) (n : Nat) (dt : Rat) : State :=
  let u := s.pgU n
  let at_ := u.planAt + dt
  if u.plan.isEmpty then s.setPg n u.hold
  else
  let u := { u with back := .plan u.k0p u.k0v u.k0a at_ u.plan }
  if planDur u.plan ≤ at_ then
    let k := (Kin.mk u.k0p u.k0v u.k0a).run u.plan
    let rest : PgUnit := { u.hold with p := roundRat (k.p * 65536) / 65536 }
    match u.target with
    | some t =>
      if absR (k.p * 65536 - t) ≤ 16 then
        (s.setPg n { u.hold with p := t / 65536 }).flag (PRG.STAT_AT_TARGET n)
          (decide (u.src = 1) || s.on (PRG.STAT_AT_TARGET n))
      else s.setPg n rest
    | none => s.setPg n rest
  else
    let k := (Kin.mk u.k0p u.k0v u.k0a).at at_ u.plan
    s.setPg n { u with p := k.p, v := k.v, a := k.a, planAt := at_ }

/-! ## Masters (R163) -/

/-- Position, velocity and acceleration of the gearing master at `t` (an NS value), in counts. -/
def State.pgMaster (s : State) (n t : Nat) : Kin :=
  let k := s.f (PRG.CFG_GMIDX n)
  if s.on (PRG.CFG_GMSRC n) then
    let g := s.pgU k
    match g.u with
    | none => g.kin
    | some uk =>
      let dt := secs (nsDiff t uk)
      ⟨g.p + g.v * dt + g.a * dt * dt / 2, g.v + g.a * dt, g.a⟩
  else
    let v : Rat := if s.on (PFB.LAT1_SPEED_VALID k) then s.rdI (PFB.LAT4 k) / 16 else 0
    ⟨s.sampledPos k / 65536 + v * secs (nsDiff t (s.rd (PFB.LAT5 k)).toNat), v, 0⟩

/-- GN × m / GD in 2^-16 count, the quotient rounded half away from zero (R164). -/
def gearPos (gn : Int) (gd : Nat) (m : Rat) : Int := roundRat (m * 65536 * gn / gd)

def State.gn (s : State) (n : Nat) : Int := s.rdI (PRG.GN n)
def State.gd (s : State) (n : Nat) : Nat := (s.rd (PRG.GD n)).toNat

/-- Store GOFS. -/
def State.setGofs (s : State) (n : Nat) (g : Int) : State :=
  (s.setPg n { s.pgU n with gofs := g }).wrWide (PRG.GOFS_L n) g

/-- Entry into GEAR: the position does not jump (R165). -/
def State.gearEnter (s : State) (n t : Nat) : State :=
  let m := s.pgMaster n t
  let u := s.pgU n
  (s.setPg n { u with lastM := m.p }).setGofs n
    (roundRat (u.p * 65536) - gearPos (s.gn n) (s.gd n) m.p)

/-- Does an armed change trigger at master position `m` with velocity `vm` (R166)? A master that stood at MCHG at the
arming and has left it before the first update has changed the sign of m − MCHG away from 0. -/
def GearArm.look (g : GearArm) (m vm : Rat) : GearArm :=
  let d := m - g.mchg / 65536
  let sg : Int := if 0 < d then 1 else if d < 0 then -1 else 0
  match g.sigma with
  | some _ => g
  | none =>
    if g.fresh && decide (sg = 0) then
      { g with fresh := false, sigma := some (if vm < 0 then -1 else 1) }
    else if sg ≠ g.sign0 then { g with fresh := false, sigma := some (if g.sign0 = 0 then sg else -g.sign0) }
    else { g with fresh := false }

/-- The geared set-point before the speed limit: p in 2^-16 count, the slope and the curvature. -/
structure GearOut where
  p : Int
  slope : Rat
  curv : Rat
  deriving DecidableEq, Repr

/-- The geared position at the master's state `m` (R164, R166). -/
def State.gearOut (s : State) (n : Nat) (m : Kin) : State × GearOut :=
  let ro : Rat := s.gn n / s.gd n
  let plain (s : State) : State × GearOut :=
    (s, ⟨(s.pgU n).gofs + gearPos (s.gn n) (s.gd n) m.p, s.gn n / s.gd n, 0⟩)
  match (s.pgU n).arm with
  | none => plain s
  | some g0 =>
    let g := g0.look m.p m.v
    let mchg : Rat := g.mchg / 65536
    let g := if g.sigma.isSome && g0.sigma.isNone
      then { g with sc := (s.pgU n).gofs / 65536 + ro * mchg } else g
    let s := s.setPg n { s.pgU n with arm := some g }
    match g.sigma with
    | none => plain s
    | some sg =>
      let rn : Rat := g.gn / g.gd
      let lr : Rat := g.lramp
      let dd : Rat := sg * (m.p - mchg)
      if dd < 0 then
        let s := (s.flag (PRG.STAT_GEAR_ARMED n) true).flag (PRG.STAT_GEAR_RAMP n) false
        (s, ⟨roundRat ((g.sc + ro * (m.p - mchg)) * 65536), ro, 0⟩)
      else if dd < lr then
        let s := (s.flag (PRG.STAT_GEAR_ARMED n) false).flag (PRG.STAT_GEAR_RAMP n) true
        (s, ⟨roundRat ((g.sc + sg * (ro * dd + (rn - ro) * dd * dd / (2 * lr))) * 65536),
          ro + (rn - ro) * dd / lr, sg * (rn - ro) / lr⟩)
      else
        let go := roundRat ((g.sc + sg * (ro + rn) * lr / 2 - rn * (mchg + sg * lr)) * 65536)
        let s := (s.setPg n { s.pgU n with arm := none }).setGofs n go
        let s := (s.wrI (PRG.GN n) g.gn).wrN (PRG.GD n) g.gd
        plain ((s.flag (PRG.STAT_GEAR_ARMED n) false).flag (PRG.STAT_GEAR_RAMP n) false)

/-- The GEAR source at time `t`, `dt` seconds after the last update (R162, R164). What the limit takes from the
slave goes into GOFS and into S_c of a change that has triggered, so that a ramp goes on from there. -/
def State.gearRun (s : State) (n t : Nat) (dt : Rat) : State :=
  let m := s.pgMaster n t
  let (s, o) := s.gearOut n m
  let u := { s.pgU n with lastM := m.p }
  let v := o.slope * m.v
  let vs : Rat := (limAt (s.pgLimsUsed n) 4 : Nat) / 16
  if vs < absR v then
    let v2 := sgnR v * vs
    let p2 := u.p + v2 * dt
    let lag := u.glag + (o.p / 65536 - p2)
    let s := s.setPg n { u with p := p2, v := v2, a := if dt = 0 then 0 else (v2 - u.v) / dt,
                                glag := lag }
    let miss := roundRat (p2 * 65536) - o.p
    let s := s.setGofs n (u.gofs + miss)
    let s := s.setPg n { s.pgU n with arm := u.arm.map (fun g => { g with sc := g.sc + miss / 65536 }) }
    let s := s.wrI (PRG.GLAG n) (satS 32 (roundRat lag))
    (s.raise (PRG.STAT_SLS_LIMIT n)).raise (PRG.STAT_GEAR_SLIP n)
  else s.setPg n { u with p := o.p / 65536, v := v, a := o.slope * m.a + o.curv * m.v * m.v }

/-! ## Spline streams (R156 to R159, R162, R506) -/

/-- T − τ, in ns: a signed 32-bit difference of the whole nanoseconds (R157). -/
def knotAhead (t : Nat) (tau : Rat) : Rat := nsDiff t (tau.floor.toNat) - (tau - tau.floor)

def Knot.kin (k : Knot) : Kin := ⟨k.p, k.v, k.a⟩

/-- Drop the knots with T ≤ τ that have a successor at or before τ (R158). -/
def dropKnots (tau : Rat) : List Knot → List Knot
  | k :: l :: r => if knotAhead l.t tau ≤ 0 then dropKnots tau (l :: r) else k :: l :: r
  | r => r

/-- The segment at τ: none at the end of the stream. -/
def knotEval (tau : Rat) (l : List Knot) : Option Kin :=
  match dropKnots tau l with
  | k :: m :: _ =>
    some (hermite k.kin m.kin (secs (nsDiff m.t k.t)) (-(knotAhead k.t tau) / nsDiff m.t k.t))
  | _ => none

/-- A stream time within 32 bits. -/
def wrapTau (tau : Rat) : Rat :=
  if (2 ^ 32 : Nat) ≤ tau then tau - (2 ^ 32 : Nat) else if tau < 0 then tau + (2 ^ 32 : Nat) else tau

/-- The state at the last update as knot 0, at that update's time (R157, R158). -/
def PgUnit.joinOn (u : PgUnit) : PgUnit :=
  let t := u.u.getD 0
  { u with knot0 := some ⟨t, 0, u.p, u.v, u.a⟩, tau := t, rate := 1, plan := [] }

/-- The knots that a pushed knot with REPLACE leaves: those before its T (R157). -/
def PgUnit.keptQueue (u : PgUnit) (t : Nat) (replace : Bool) : List Knot :=
  if replace then u.queue.filter (fun k => decide (knotAhead k.t u.tau < knotAhead t u.tau)) else u.queue

/-- A judged push takes its effect on the stream (R157, R158): the removals, then the knot, which joins on where
the queue is empty. -/
def PgUnit.enqueue (u : PgUnit) (x : Push) : PgUnit :=
  let q := u.keptQueue x.t x.replace
  match x.knot with
  | none => if q.isEmpty && !u.queue.isEmpty then { u.joinOn with queue := [] } else { u with queue := q }
  | some k => { (if q.isEmpty then u.joinOn else u) with queue := q ++ [k] }

/-- The stream of a generator. -/
def PgUnit.stream (u : PgUnit) : Stream := ⟨u.queue, u.knot0, u.tau, u.rate, u.plan⟩

def PgUnit.setStream (u : PgUnit) (x : Stream) : PgUnit :=
  { u with queue := x.queue, knot0 := x.knot0, tau := x.tau, rate := x.rate, plan := x.plan }

/-- A push in tick `now` takes its effect, and the stream before the tick's pushes is kept for an evaluation in
the same tick (R151). -/
def PgUnit.push (u : PgUnit) (now : Nat) (x : Push) : PgUnit :=
  let (old, l) := match u.pushed with
    | some (t, old, l) => if t = now then (old, l) else (u.stream, [])
    | none => (u.stream, [])
  { u.enqueue x with pushed := some (now, old, l ++ [x]) }

/-- Queued knots: the start of the segment is one until its successor has passed, unless it is implicit
(R158). -/
def PgUnit.qlen (u : PgUnit) : Nat := u.queue.length + (if u.knot0.any (fun k => decide (k.at_ ≠ 0)) then 1 else 0)

/-- An empty queue: a stop with DMAX and JMAX, then hold (R506). -/
def State.splineEmpty (s : State) (n : Nat) (dt : Rat) : State :=
  let u := s.pgU n
  let l := s.pgLimsUsed n
  if !u.plan.isEmpty then s.pgRunPlan n dt
  else if u.v = 0 ∧ u.a = 0 then s.setPg n u.hold
  else (s.setPg n ({ u with target := none }.stop ((limAt l 2 : Nat) / 16) (limAt l 3 : Nat))).pgRunPlan n dt

/-- The SPLINE source on the stream as it stands, `dns` ns after the last update. -/
def State.splineEval (s : State) (n : Nat) (dns : Rat) : State :=
  let u := s.pgU n
  match u.knot0, u.queue with
  | some k0, k1 :: ks =>
    let l := k0 :: k1 :: ks
    let vs : Rat := (limAt (s.pgLimsUsed n) 4 : Nat) / 16
    let v0 := match knotEval u.tau l with
      | some k => absR k.v
      | none => 0
    let rate := if vs < v0 then vs / v0 else 1
    let s := s.raiseIf (decide (vs < v0)) (PRG.STAT_SLS_LIMIT n)
    let tau := wrapTau (u.tau + rate * dns)
    let u := { u with tau := tau, rate := rate, back := .knots tau rate l }
    match knotEval tau l with
    | some k =>
      match dropKnots tau l with
      | h :: r => s.setPg n { u with p := k.p, v := rate * k.v, a := rate * rate * k.a,
                                     knot0 := some h, queue := r }
      | [] => s
    | none =>
      let last := (k1 :: ks).getLastD k1
      let s := s.setPg n { u with p := last.p, v := 0, a := 0, queue := [], knot0 := none }
      let s := (s.raise (PRG.STAT_STARVED n)).recordStat 0x05 0x03 n 2 (PRG.STAT n)
      s.resched 25000000 (.starveSs1Timeout (Fin.ofNat 128 n))
  | _, _ => s.splineEmpty n (secs dns)

/-- The SPLINE source at time `t`: pushes of this very tick act after the evaluation (R151). -/
def State.splineRun (s : State) (n t : Nat) (dns : Rat) : State :=
  match (s.pgU n).pushed with
  | some (t0, old, l) =>
    let s := s.setPg n { s.pgU n with pushed := none }
    if t0 ≠ s.now then s.splineEval n dns
    else
      let s := (s.setPg n ((s.pgU n).setStream old)).splineEval n dns
      s.setPg n (l.foldl PgUnit.enqueue { s.pgU n with u := some t })
  | none => s.splineEval n dns

/-- LOOK, QLEN and SPLAG at an update (R159, R162). -/
def State.pgLook (s : State) (n t : Nat) : State :=
  let u := s.pgU n
  let look : Int := match u.queue.getLast? with
    | some k => (knotAhead k.t u.tau / 1000).floor
    | none => 0
  let lag : Int := if u.src = 2 ∧ u.queue ≠ [] then (knotAhead t u.tau).floor else 0
  ((s.setF (PRG.LOOK_LOOK n) (clampInt 0 65535 look).toNat).setF (PRG.LOOK_QLEN n)
    u.qlen).wrN (PRG.SPLAG n) (clampInt 0 (2 ^ 32 - 1 : Nat) lag).toNat

/-! ## TRACK and SS1 (R160, R161) -/

/-- Is generator `n` in TRACK (R160)? -/
def State.pgTracks (s : State) (n : Nat) : Bool :=
  decide (s.mstate ≠ stRUN) || (decide (n < 96) &&
    ((decide (s.pgOut n = 0) && s.forced n) || s.on (LPE.STAT_HELD n)
      || decide (s.f (DPW.CFG_MODE n) = 0)))

/-- Queue, target, commits and arming go; SRC becomes IDLE. -/
def State.pgDrop (s : State) (n : Nat) : State :=
  let u := s.pgU n
  let s := s.setPg n { u with queue := [], knot0 := none, target := none, arm := none, pend := [], pushed := none,
                              src := 0, plan := [], doorStop := none, doorNext := none }
  let s := (s.setF (PRG.CFG_SRC n) 0).setF (PRG.CTRL_RETARGET n) 0
  ((s.flag (PRG.STAT_GEAR_ARMED n) false).flag (PRG.STAT_GEAR_RAMP n) false).cancel
    (.starveSs1Timeout (Fin.ofNat 128 n))

/-- An update in TRACK. -/
def State.pgTrack (s : State) (n : Nat) : State :=
  let s := s.pgDrop n
  let s := (s.setF (PRG.CTRL_FLUSH n) 0).flag (PRG.STAT_TRACK n) true
  let u := s.pgU n
  let p : Rat := if n < 96 ∧ s.pgOut n = 0 then s.sampledPos n / 65536 else u.p
  s.setPg n { u.hold with p := p, stopping := false, safAt := none }

/-- Saffron commands SS1 with deceleration `d` in 1/16 count/s² and jerk `j` (R161). -/
def State.pgSs1 (s : State) (n d j : Nat) : State :=
  if (s.pgU n).ss1.isSome then s
  else
    let s := (s.pgDrop n).flag (PRG.STAT_SS1 n) true
    s.setPg n { s.pgU n with ss1 := some ((d : Rat) / 16, j), stopping := true, safAt := some s.now }

/-- Saffron withdraws SS1, which discards nothing (R14, log entry 129). -/
def State.pgSs1End (s : State) (n : Nat) : State :=
  (s.setPg n { s.pgU n with ss1 := none }).flag (PRG.STAT_SS1 n) false

/-- Saffron's speed limit for the generator (R162); a change discards what others do for the same update
(R14, R151). -/
def State.pgVsls (s : State) (n : Nat) (v : Word) : State :=
  if s.rd (PRG.VSLS n) = v then s
  else
    let s := s.pgLimTouch n
    (s.setPg n { s.pgU n with safAt := some s.now }).wr (PRG.VSLS n) v

/-! ## The update (R148, R150, R151) -/

/-- A change of SRC takes effect (R148). -/
def State.pgEnter (s : State) (n t : Nat) : State :=
  let new := s.f (PRG.CFG_SRC n)
  let u := s.pgU n
  if new = u.src then s
  else
    let s := s.setPg n { u with src := new, plan := [], target := none, queue := [], knot0 := none, pushed := none }
    match new with
    | 1 =>
      let l := moveLimits (s.pgLimsUsed n) u.move
      let still := decide (u.v = 0) && decide (u.a = 0)
      let rest := if still || decide (l.d = 0) || decide (l.j = 0) then u.p
        else u.p + distOf u.v u.a (stopSegs u.v u.a l.d l.j)
      let tgt := roundRat (rest * 65536)
      let inside := decide (softLo (s.pgLimsUsed n) ≤ tgt) && decide (tgt ≤ softHi (s.pgLimsUsed n))
      if still && inside then
        (s.setPg n { s.pgU n with target := some tgt }).flag (PRG.STAT_AT_TARGET n) true
      else (s.flag (PRG.STAT_AT_TARGET n) false).pgPlan n tgt
    | 3 => s.gearEnter n t
    | _ => s

/-- What the evaluation leaves for `pgMeet` at the next one (R14). -/
def State.pgKeep (s : State) (n : Nat) : State :=
  let u := s.pgU n
  let x := match u.pushed with
    | some (t, old, _) => if t = s.now then old else u.stream
    | none => u.stream
  s.setPg n { u with prior := some ⟨s.pgLimsUsed n, x, u.arm⟩ }

/-- Where Saffron acted on the generator for this update, what others did for it is discarded (R14): limit writes, a
change of SRC, knots, FLUSH, an arming of a ratio change, RETARGET commits. A stop that the door controller asks for
stands (log entry 129). -/
def State.pgMeet (s : State) (n : Nat) : State :=
  match (s.pgU n).safAt, (s.pgU n).prior with
  | some t, some x =>
    if s.now ≤ t then s
    else
      let s := s.pgLimsBack n x.lims
      let s := (s.setF (PRG.CTRL_FLUSH n) 0).setF (PRG.CFG_SRC n) (s.pgU n).src
      let u := s.pgU n
      let u := if u.src ≠ 2 then u
        else match u.pushed with
          | some (t, _, l) => if t = s.now then { u with pushed := some (t, x.stream, l) }
            else { u.setStream x.stream with pushed := none }
          | none => u.setStream x.stream
      let rest := u.pend.filter (fun m => decide (s.now ≤ m.at_))
      let s := if u.arm = x.arm then s else s.flag (PRG.STAT_GEAR_ARMED n) x.arm.isSome
      let s := if rest.isEmpty then s.setF (PRG.CTRL_RETARGET n) 0 else s
      s.setPg n { u with arm := x.arm, pend := rest, safAt := none }
  | _, _ => s

/-- The last RETARGET commit before this tick (R151); the earlier ones are discarded. -/
def State.pgCommits (s : State) (n : Nat) : State :=
  let u := s.pgU n
  match (u.pend.filter (fun m => decide (m.at_ < s.now))).getLast? with
  | none => s
  | some m =>
    let rest := u.pend.filter (fun m => decide (s.now ≤ m.at_))
    let s := s.setPg n { u with pend := rest }
    let s := if rest.isEmpty then s.setF (PRG.CTRL_RETARGET n) 0 else s
    if u.src ≠ 1 then s
    else ((s.setPg n { s.pgU n with move := m, lims := (s.pgLimsUsed n).take 5 }).flag
      (PRG.STAT_AT_TARGET n) false).pgPlan n m.tgt

/-- A change of VMAX, AMAX, DMAX, JMAX or VSLS replans (R153): at the target the plan is empty, unless there is none
because a limit is 0. -/
def State.pgReplan (s : State) (n : Nat) : State :=
  let u := s.pgU n
  let l := (s.pgLimsUsed n).take 5
  if l = u.lims then s
  else
    let s := s.setPg n { u with lims := l }
    match u.target with
    | some t =>
      let m := moveLimits (s.pgLimsUsed n) u.move
      if u.src ≠ 1 then s
      else if s.on (PRG.STAT_AT_TARGET n) = false then s.pgPlan n t
      else if m.a = 0 ∨ m.d = 0 ∨ m.j = 0 then s.pgNoPlan n (limE (s.pgLimsUsed n))
      else s
    | none => s

/-- A RETARGET commit of the move `m` (R151, R152, R175), by software or by the door controller: the value before the
state. -/
def State.commitMove (s : State) (n : Nat) (m : Move) : State :=
  s.judge (moveLimits (s.pgLims n) m).zero (PRG.STAT_ERR_ARG n)
    (decide (s.f (PRG.CFG_SRC n) ≠ 1) || (s.pgU n).ss1.isSome) (fun s =>
    (s.setPg n { s.pgU n with pend := (s.pgU n).pend ++ [m] }).raise (PRG.CTRL_RETARGET n))

/-- What the door controller asked for (R285, R287): a stop of the generator's own motion, or the commit of a move from
rest, which the next evaluation uses (R151). A generator in IDLE or GEAR has no plan to stop (R148, R164). -/
def State.pgDoor (s : State) (n : Nat) : State :=
  let u := s.pgU n
  let l := s.pgLimsUsed n
  match u.doorStop, u.doorNext with
  | some hard, _ =>
    let e := limE l
    let u := { u with doorStop := none }
    if u.src = 0 ∨ u.src = 3 then s.setPg n u
    else
      let u := { u with target := none, queue := [], knot0 := none, pushed := none }
      let u := if hard then (if e = 0 then u.hold else u.begin (edecSegs u.v e))
        else u.stop ((limAt l 2 : Nat) / 16) (limAt l 3 : Nat)
      (s.setPg n u).flag (PRG.STAT_AT_TARGET n) false
  | none, some (d, lo, hi, v) =>
    if u.plan.isEmpty && decide (u.v = 0) && decide (u.a = 0) then
      let tgt := clampInt lo hi (roundRat (u.p * 65536) + d)
      (s.setPg n { u with doorNext := none }).commitMove n
        ⟨s.now, tgt, v, (s.rd (PRG.AMOVE n)).toNat, (s.rd (PRG.DMOVE n)).toNat⟩
    else s
  | none, none => s

/-- FLUSH empties the queue at the update (R157). -/
def State.pgFlushRun (s : State) (n : Nat) : State :=
  if !s.on (PRG.CTRL_FLUSH n) then s
  else
    let u := s.pgU n
    let pushed := u.pushed.map (fun (t, x, l) => (t, { x with queue := [], knot0 := none }, l))
    (s.setPg n { u with queue := [], knot0 := none, pushed := pushed }).setF (PRG.CTRL_FLUSH n) 0

/-- The source in effect computes the state for `t`; in IDLE the set-point holds (R148). -/
def State.pgSource (s : State) (n t : Nat) (dns : Rat) : State :=
  match (s.pgU n).src with
  | 0 => s.setPg n (s.pgU n).hold
  | 2 => s.splineRun n t dns
  | 3 => s.gearRun n t (secs dns)
  | _ =>
    let u := s.pgU n
    let l := s.pgLimsUsed n
    let sls := !u.plan.isEmpty && decide (limAt l 4 < orMax u.move.v (limAt l 0))
    (s.raiseIf sls (PRG.STAT_SLS_LIMIT n)).pgRunPlan n (secs dns)

/-- An exact value as the module gives it that computes in fp64 and then rounds half away from zero (R149): the exact
value within a free error of that arithmetic, (|x| + 2^20) × 2^-44, rounded (log entry 6). -/
def fpRound (free : Nat) (x : Rat) : Int :=
  let e : Rat := (absR x + 2 ^ 20) / 2 ^ 44
  let w := e.ceil.toNat
  let near := roundRat x
  let off := near + (Config.freeNat free % (2 * w + 1) : Nat) - w
  if absR (off - x) ≤ 1 / 2 + e then off else near

/-- The outputs of an evaluation, in fp64 and then rounded half away from zero, each to its unit: the generator's state
(R149). On a plan the position lies within ±2^-12 count of the exact plan, 16 of its units (R153), a free error; a geared
position is exact (R164); at rest nothing is computed (log entry 6). -/
def State.pgQuantise (s : State) (n : Nat) : State :=
  let u := s.pgU n
  let x := u.p * 65536
  let near := roundRat x
  let planned := !u.plan.isEmpty
  let moving := planned || decide (u.v ≠ 0) || decide (u.a ≠ 0)
  let off := near + (Config.freeNat s.free % 33 : Nat) - 16
  let p := if planned then (if absR (off - x) ≤ 16 then off else near)
    else if moving && decide (u.src ≠ 3) then fpRound s.free x else near
  let out (k : Nat) (y : Rat) : Int := satS 32 (if moving then fpRound (s.free + k) y else roundRat y)
  let (p, v, a) := (satS 64 p, out 1 (u.v * 16), out 2 (u.a * 16))
  let u := if moving then { u with p := p / 65536, v := v / 16, a := a / 16 } else u
  let t := s.setPg n { u with outP := p, outV := v, outA := a }
  if moving then { t with free := t.free + 3 } else t

/-- The time U_n of the evaluation (R150). -/
def State.pgTime (s : State) (n : Nat) : Nat :=
  let v := (s.rd (TCMP.VALUE 0)).toNat
  if s.pgOut n = 0 ∧ n < 96 ∧ s.f (DPW.CFG_PHASE n) = 0 then (v + 128 * n) % 2 ^ 32 else v

/-- The evaluation of generator `n` outside the stepper's part: TRACK before SS1 before the source
(R160, R161). -/
def State.pgUpdate (s : State) (n : Nat) : State :=
  let t := s.pgTime n
  let dns : Rat := match (s.pgU n).u with
    | some u0 => nsDiff t u0
    | none => 0
  let s := s.pgCfgCheck n
  let s := s.setPg n { s.pgU n with back := .rest }
  let s := if s.pgTracks n then s.pgTrack n
    else
      let s := ((s.flag (PRG.STAT_TRACK n) false).pgMeet n).pgFlushRun n
      match (s.pgU n).ss1 with
      | some (d, j) =>
        let u := s.pgU n
        let s := if u.stopping then s.setPg n ({ u with stopping := false }.stop d j) else s
        s.pgRunPlan n (secs dns)
      | none => ((((s.pgEnter n t).pgDoor n).pgCommits n).pgReplan n).pgSource n t dns
  let s := s.setPg n { s.pgU n with u := some t }
  ((s.pgQuantise n).pgKeep n).pgLook n t

/-- A TCMP0 firing: the outputs of the last evaluation become the held set-point (R150), whose sign a feedback
unit in mode CMD follows (R104). -/
def State.pgHold (s : State) (n : Nat) : State :=
  let u := s.pgU n
  let s := ((s.wrWide (PRG.POS_L n) u.outP).wrI (PRG.VEL n) u.outV).wrI (PRG.ACC n) u.outA
  if n < 96 then s.cmdSign n else s

/-! ## Commands and register writes -/

/-- RETARGET (R151, R152, R175): OWN_ERR before the value before the state. -/
def State.retarget (s : State) (m : Sys2Proof.Master) (n : Nat) : State :=
  let w (o : Nat) : Nat := (s.rd o).toNat
  let mv : Move := ⟨s.now, s.wide (PRG.TGT_L n), w (PRG.VMOVE n), w (PRG.AMOVE n), w (PRG.DMOVE n)⟩
  if s.pgOut n = 3 ∧ m ≠ .door then s.raise (PRG.STAT_OWN_ERR n)
  else s.commitMove n mv

/-- GEAR_ARM (R166). -/
def State.gearArm (s : State) (n : Nat) : State :=
  if s.on (PRG.STAT_GEAR_RAMP n) then s.sysIllegal
  else
    let u := s.pgU n
    let mchg := s.wide (PRG.MCHG_L n)
    let m := if u.src = 3 then u.lastM else (s.pgMaster n (u.u.getD (s.ns 0).toNat)).p
    let d := m - mchg / 65536
    let sg : Int := if 0 < d then 1 else if d < 0 then -1 else 0
    (s.setPg n { u with arm := some ⟨sg, true, none, 0, mchg, (s.rd (PRG.LRAMP n)).toNat,
      s.rdI (PRG.GN_NEW n), (s.rd (PRG.GD_NEW n)).toNat⟩ }).flag (PRG.STAT_GEAR_ARMED n) true

/-- LEARN (R172). -/
def State.learn (s : State) (n : Nat) : State :=
  (s.setPg n { s.pgU n with bins := List.replicate 8 (0, 0) }).flag (PRG.STAT_LEARNING n) true

/-- LEARN_END (R172): a bin with 64 samples gives its rounded mean. -/
def State.learnEnd (s : State) (n : Nat) : State :=
  if !s.on (PRG.STAT_LEARNING n) then s
  else
    let bins := (s.pgU n).bins
    let s := (List.range 8).foldl (fun t k =>
      let (c, sum) := bins.getD k (0, 0)
      if 64 ≤ c then t.setF ⟨PRG.CAL n (k / 2), 16 * (k % 2), 16⟩ (roundHalfAway sum c).toNat
      else t.raise (PRG.STAT_LEARN_INC n)) s
    ((s.flag (PRG.STAT_LEARNING n) false).flag (PRG.STAT_CAL_STALE n) false).setF (PRG.RESID_RESID n) 0

/-- A write of `PRG_PGn_CTRL`. -/
def State.prgCtrl (s : State) (m : Sys2Proof.Master) (n : Nat) (v : Word) : State :=
  let s := if v.getLsbD 0 then s.retarget m n else s
  let s := if v.getLsbD 1 then s.raise (PRG.CTRL_FLUSH n) else s
  let s := if v.getLsbD 2 then s.gearArm n else s
  let s := if v.getLsbD 3 then s.learn n else s
  if v.getLsbD 4 then s.learnEnd n else s

/-- Is a value of `PRG_PGn_CFG` refused (R147, R175)? -/
def prgCfgBad (n : Nat) (v : Word) : Bool :=
  let idx := getBits 13 7 v
  decide (8 < getBits 4 4 v) || decide (getBits 8 2 v = 3) || decide (getBits 10 2 v = 3)
    || (decide (96 ≤ n) && decide (getBits 2 2 v ≠ 2))
    || (if v.getLsbD 12 then decide (idx = n) else decide (95 < idx))

/-- A write of `PRG_PGn_CFG` (R148, R160, R161). -/
def State.prgCfgWrite (s : State) (n : Nat) (v : Word) : State :=
  let old := s.rd (PRG.CFG n)
  let src := getBits 0 2 v
  let u := s.pgU n
  let other := decide (getBits 2 18 v ≠ getBits 2 18 old) && decide (getBits 0 2 old ≠ 0)
  let chg := decide (src ≠ getBits 0 2 old)
  let moving := decide (u.v ≠ 0) || decide (u.a ≠ 0)
  let locked := other || (chg && (s.on (PRG.STAT_TRACK n) || u.ss1.isSome
    || ((decide (src = 0) || decide (src = 3)) && moving)))
  s.judge (prgCfgBad n v) (PRG.STAT_ERR_ARG n) locked (fun s => s.store (PRG.CFG n) v)

/-- The `_L` register of a 64-bit value (R175). -/
def pgWideOff (n : Nat) : PgWide → Nat
  | .tgt => PRG.TGT_L n
  | .plo => PRG.PLO_L n
  | .phi => PRG.PHI_L n
  | .pos => PRG.POS_L n
  | .gofs => PRG.GOFS_L n
  | .mchg => PRG.MCHG_L n

/-- Where the banked mark of a pending `_L` word stands. -/
def wideMark (off : Nat) : Nat := off + 0x02000000

/-- A write of one half of a 64-bit value (R175): `_L` waits for the same master's `_H`; POS and GOFS
are read-only. -/
def State.pgWideWrite (s : State) (m : Sys2Proof.Master) (n : Nat) (r : PgWide) (hi : Bool) (v : Word) :
    State :=
  let off := pgWideOff n r
  if r = .pos ∨ r = .gofs then s
  else if !hi then (s.bankWr m off v).bankWr m (wideMark off) 1#32
  else
    let lo := if s.bankRd m (wideMark off) = 0#32 then s.rd off else s.bankRd m off
    let s := s.bankWr m (wideMark off) 0#32
    let new := signedOf 64 (v.toNat * 2 ^ 32 + lo.toNat)
    let bad := match r with
      | .plo => decide (s.wide (PRG.PHI_L n) ≤ new)
      | .phi => decide (new ≤ s.wide (PRG.PLO_L n))
      | _ => false
    if bad then s.raise (PRG.STAT_ERR_ARG n)
    else
      let s := if r = .plo ∨ r = .phi then s.pgLimTouch n else s
      (s.wr off lo).wr (off + 4) v

/-- Is a value of another PRG register refused (R165, R175)? -/
def prgBad (n off : Nat) (v : Word) : Bool :=
  if off = PRG.GD n ∨ off = PRG.GD_NEW n then decide (v = 0#32)
  else if off = PRG.COIL n then decide (32767 < getBits 0 16 v)
  else if off = PRG.CHOP n then
    decide (getBits 0 14 v < 250) || decide (10000 < getBits 0 14 v) || decide (getBits 14 9 v < 50)
      || decide (500 < getBits 14 9 v) || decide (100 < getBits 23 7 v)
  else if off = PRG.STAND n then decide (getBits 0 14 v = 0) || decide (10000 < getBits 0 14 v)
  else if off = PRG.CALV n then decide (getBits 24 8 v = 0)
  else false

/-- A write of another register of generator `n`. -/
def State.prgWrite (s : State) (n off : Nat) (v hw : Word) : State :=
  let geared := decide (s.f (PRG.CFG_SRC n) = 3) || decide ((s.pgU n).src = 3)
  let locked := geared && (decide (off = PRG.GN n) || decide (off = PRG.GD n))
  let limit := decide (PRG.VMAX n ≤ off) && decide (off ≤ PRG.EDEC n)
  s.judge (prgBad n off v) (PRG.STAT_ERR_ARG n) locked (fun s =>
    let s := if limit then s.pgLimTouch n else s
    let s := s.store off v hw
    if off = PRG.STAT n ∧ v.getLsbD 16 = true then
      (s.setPg n { s.pgU n with glag := 0 }).wr (PRG.GLAG n) 0#32
    else s)

/-- A refused knot (R157). -/
def State.knotRefused (s : State) (n : Nat) (F : Field) : State :=
  (s.raise F).bump (PRG.CNT_KNOT_ERR_CNT n)

/-- Push the knot of the eight words `w` (R157); it restarts the 100 ms of a generator with STARVED set (R420). -/
def State.pushKnot (s : State) (n : Nat) (w : List Word) : State :=
  let word (i : Nat) : Word := w.getD i 0#32
  let u := s.pgU n
  let t := (word 0).toNat
  let resv := decide (getBits 1 31 (word 1) ≠ 0) || decide (word 6 ≠ 0#32) || decide (word 7 ≠ 0#32)
  let tau : Rat := if u.queue.isEmpty then (u.u.getD 0 : Nat) else u.tau
  if u.ss1.isSome then s.sysIllegal
  else if u.src ≠ 2 ∨ resv = true then s.knotRefused n (PRG.STAT_KNOT_ERR n)
  else if knotAhead t tau ≤ 0 then s.knotRefused n (PRG.STAT_KNOT_LATE n)
  else
    let replace := (word 1).getLsbD 0
    let q := u.keptQueue t replace
    let take (k : Option Knot) : State := s.setPg n (u.push s.now ⟨t, replace, k⟩)
    let removed := if replace then take none else s
    let bad := match q.getLast? with
      | some l => decide (nsDiff t l.t * 8 < s.frameUnits) || decide (67108864 < nsDiff t l.t)
      | none => false
    if bad then removed.knotRefused n (PRG.STAT_KNOT_ERR n)
    else if 32 ≤ { u with queue := q }.qlen then removed.knotRefused n (PRG.STAT_KNOT_OVF n)
    else
      let k : Knot := ⟨t, s.now, signedOf 64 ((word 3).toNat * 2 ^ 32 + (word 2).toNat) / 65536,
        (word 4).toInt / 16, (word 5).toInt / 16⟩
      let s := take (some k)
      let c : Instr := .starveSs1Timeout (Fin.ofNat 128 n)
      if s.on (PRG.STAT_STARVED n) then s.resched 25000000 c else s.cancel c

/-- The write of KNOT7 by master `m` pushes its eight banked words (R157). -/
def State.knotPush (s : State) (m : Sys2Proof.Master) (n : Nat) (w7 : Word) : State :=
  let s := s.bankWr m (PRG.KNOT n 7) w7
  s.pushKnot n ((List.range 8).map (fun i => s.bankRd m (PRG.KNOT n i)))

end Sys2Proof.Machine
end

