-- ==== Sys2Proof/Machine/Stepper.lean ====
section
/-! DEFINITION. Stepping (spec/08_profiles_and_stepping.md, R167 to R173): coil references, the fixed
off-time chopper, standstill, stall detection and its learning; and the update of a generator. -/

namespace Sys2Proof.Machine

/-! ## Coil references (R167) -/

/-- The position of a generator at the NS value `t` (R167): before the time of its latest evaluation the motion
that this followed, after it its plan, its stream or its motion as they stand. -/
def State.pgAt (s : State) (n t : Nat) : Rat :=
  let u := s.pgU n
  match u.u with
  | none => u.p
  | some u0 =>
    let dns : Rat := nsDiff t u0
    let early := decide (dns < 0)
    let was : Option Rat := match u.back with
      | .rest => none
      | .plan p v a at_ l =>
        let e := at_ + secs dns
        if planDur l ≤ e then none else some ((Kin.mk p v a).at (if e < 0 then 0 else e) l).p
      | .knots tau rate l => (knotEval (tau + rate * dns) l).map Kin.p
    if early && was.isSome then was.getD u.p
    else if !u.plan.isEmpty then
      let e := u.planAt + secs dns
      ((Kin.mk u.k0p u.k0v u.k0a).at (if e < 0 then 0 else e) u.plan).p
    else
      let run := u.p + u.v * secs dns + u.a * secs dns * secs dns / 2
      match u.knot0 with
      | some k0 =>
        (match knotEval (u.tau + u.rate * dns) (k0 :: u.queue) with
          | some k => k.p
          | none => run)
      | none => run

/-- `I` times the cosine or sine, rounded (R167). -/
def coilRef (i : Nat) (x60 : Int) : Int := roundHalfAway (i * x60) (2 ^ 60)

/-- The two coil references for position `p`: microstep k of the electrical turn of 4F counts. -/
def coilRefs (msres i : Nat) (p : Rat) : Int × Int :=
  let turn : Nat := 4 * 2 ^ msres
  let k := (p.floor % (turn : Int)).toNat
  let th := k * 65536 / turn
  (coilRef i (cos60 th), coilRef i (sin60 th))

/-! ## The chopper (R168) -/

def State.chop (s : State) (p b : Nat) : Chop :=
  if b = 0 then (s.pgU p).chopA else (s.pgU p).chopB

def State.setChop (s : State) (p b : Nat) (c : Chop) : State :=
  s.setPg p (if b = 0 then { s.pgU p with chopA := c } else { s.pgU p with chopB := c })

/-- FWD for a positive reference, REV for a negative (R168); `opp`: the other way. -/
def chopDrive (ref : Int) (opp : Bool) : Nat := if decide (0 < ref) = !opp then 1 else 2

def State.chopTimer (s : State) (p b dt : Nat) : State :=
  s.resched dt (.chopperTimerEnd (Fin.ofNat 96 p) (Fin.ofNat 2 b))

def State.chopStopTimer (s : State) (p b : Nat) : State :=
  s.cancel (.chopperTimerEnd (Fin.ofNat 96 p) (Fin.ofNat 2 b))

/-- Enter ON. -/
def State.chopOn (s : State) (p b : Nat) (ref : Int) : State :=
  ((s.setChop p b ⟨.on, s.now, ref⟩).chopStopTimer p b).bridgeSet p b (chopDrive ref false)

/-- A reference update (R167, R168); `moves`: VEL_SP is not 0, and the chopper leaves its rest (R169); `hold`: the
standstill mode is HOLD. After a stall with STALL_ACT = OFF it rests on until VEL_SP has been 0 and is not any more
(R171, log entry 49). -/
def State.chopRef (s : State) (p b : Nat) (ref : Int) (moves hold : Bool) : State :=
  let c := s.chop p b
  if c.st = .off then (if moves then s else s.setChop p b { c with st := .parked })
  else if c.st = .parked ∧ moves = false then s
  else if c.st = .rest ∧ moves = false ∧ hold = false then s.setChop p b { c with ref := ref }
  else if ref = 0 then
    if c.st = .zero then s.setChop p b { c with ref := 0 }
    else ((s.setChop p b ⟨.zero, s.now, 0⟩).chopStopTimer p b).bridgeSet p b 3
  else if c.st = .idle ∨ c.st = .zero ∨ c.st = .rest ∨ c.st = .parked ∨ decide (0 < c.ref) ≠ decide (0 < ref) then s.chopOn p b ref
  else s.setChop p b { c with ref := ref }

/-- The comparator-filter value of channel 2p + b, where the filter has filled (R92). -/
def State.coilValue (s : State) (p b : Nat) : Option Int :=
  let ch := 2 * p + b
  let k := s.chCosr ch
  let c := s.caqCh ch
  if s.chOn ch = false ∨ c.n < 2 * 2 ^ k then none
  else some (satS 16 (phaseValue 2 k (filterSum (sinc2Weight (2 ^ k)) (2 * 2 ^ k - 1) c.bits)))

/-- A DSCK comparison in ON (R168): to FAST once the current has reached the reference after the
blanking. -/
def State.chopCompare (s : State) (p b : Nat) : State :=
  let c := s.chop p b
  let off := s.f (PRG.CHOP_TOFF p)
  match s.coilValue p b with
  | none => s
  | some i =>
    let along := if 0 < c.ref then i else -i
    if c.st = .on ∧ c.since + s.f (PRG.CHOP_TBLANK p) ≤ s.now ∧ (c.ref.natAbs : Int) ≤ along then
      ((s.setChop p b { c with st := .fast, since := s.now }).bridgeSet p b
        (chopDrive c.ref true)).chopTimer p b (off * s.f (PRG.CHOP_FAST p) / 100)
    else s

/-- Does generator `p` drive the coils of its port? -/
def State.stepping (s : State) (p : Nat) : Bool := decide (s.pgOut p = 1) && s.pgCfgOk p

/-- The end of FAST or SLOW (R168), while the generator drives the coils. -/
def State.chopTimeout (s : State) (p b : Nat) : State :=
  if !s.stepping p then s
  else
  let c := s.chop p b
  let off := s.f (PRG.CHOP_TOFF p)
  match c.st with
  | .fast => ((s.setChop p b { c with st := .slow }).bridgeSet p b 3).chopTimer p b
      (c.since + off - s.now)
  | .slow => s.chopOn p b c.ref
  | _ => s

/-- Both choppers take the state `st` with the bridges in state `v` (R169, R171). -/
def State.chopRest (s : State) (p v : Nat) (st : ChopState := .rest) : State :=
  [0, 1].foldl (fun t b => ((t.setChop p b { t.chop p b with st := st }).chopStopTimer p b).bridgeSet
    p b v) s

/-- Both choppers wait for a first reference: the generator does not drive the coils. -/
def State.chopIdle (s : State) (p : Nat) : State :=
  [0, 1].foldl (fun t b => (t.setChop p b Chop.reset).chopStopTimer p b) s

/-! ## Period start and standstill (R167, R169) -/

/-- The standstill modes OFF and SHORT (R169); a chopper that a stall switched off stays so (R171). -/
def State.stillRest (s : State) (p mode : Nat) : State :=
  if mode = 0 ∨ (s.chop p 0).st = .off ∨ (s.chop p 0).st = .parked then s
  else s.chopRest p (if mode = 1 then 0 else 3)

/-- At a period start of a stepper port the references update (R167, R169). -/
def State.stepRefs (s : State) (p : Nat) : State :=
  if !s.stepping p then
    (if s.chop p 0 = Chop.reset ∧ s.chop p 1 = Chop.reset then s else s.chopIdle p)
  else
    let moves := decide (s.rdI (PRG.VEL p) ≠ 0)
    let s := if moves then s.setF (PRG.STAT_STANDSTILL p) 0 else s
    let still := s.on (PRG.STAT_STANDSTILL p)
    let mode := s.f (PRG.CFG_STANDMODE p)
    let hold := still && decide (mode = 0)
    let s := if still && !hold then s.stillRest p mode else s
    let i := if hold then s.f (PRG.COIL_I_HOLD p) else s.f (PRG.COIL_I_RUN p)
    let (a, b) := coilRefs (s.f (PRG.CFG_MSRES p)) i (s.pgAt p (s.ns 0).toNat)
    (s.chopRef p 0 a moves hold).chopRef p 1 b moves hold

/-- VEL_SP has been 0 for TSTAND (R169). -/
def State.stepStill (s : State) (n : Nat) : State :=
  if !s.stepping n || decide (s.rdI (PRG.VEL n) ≠ 0) then s
  else
    (s.raise (PRG.STAT_STANDSTILL n)).stillRest n (s.f (PRG.CFG_STANDMODE n))

/-- The timer of R169 runs while VEL_SP is 0. -/
def State.stillTimer (s : State) (n : Nat) : State :=
  let c : Instr := .stepperStandstill (Fin.ofNat 96 n)
  if s.pgOut n ≠ 1 ∨ s.rdI (PRG.VEL n) ≠ 0 then s.cancel c
  else if s.on (PRG.STAT_STANDSTILL n) || s.agenda.any (fun d => decide (d.ev = .cmd c)) then s
  else s.sched (250000 * s.f (PRG.STAND_TSTAND n)) c

/-! ## Stall detection (R170 to R173) -/

/-- CALk. -/
def State.calK (s : State) (n k : Nat) : Nat := s.f ⟨PRG.CAL n (k / 2), 16 * (k % 2), 16⟩

/-- The calibrated curve at |v| in 1/16 count/s, none where no curve applies (R171). -/
def State.calCurve (s : State) (n v : Nat) : Option Rat :=
  let st := s.f (PRG.CALV_CAL_VSTEP n)
  if st = 0 ∨ v < st ∨ s.on (PRG.STAT_LEARNING n) = true then none
  else
    let k := v / st - 1
    if 7 ≤ k then some (s.calK n 7)
    else
      let c0 : Rat := s.calK n k
      some (c0 + ((s.calK n (k + 1) : Nat) - c0) * (v - (k + 1) * st : Rat) / st)

/-- What a stall does beside the flag (R171). -/
def State.stallAct (s : State) (n : Nat) : State :=
  match s.f (PRG.CFG_STALL_ACT n) with
  | 1 =>
    if s.pgTracks n || (s.pgU n).ss1.isSome then s
    else
      let u := s.pgU n
      let l := s.pgLimsUsed n
      let m : Limits := ⟨0, 0, (limAt l 2 : Nat) / 16, (limAt l 3 : Nat)⟩
      let s := s.setPg n { u with src := 1, queue := [], knot0 := none, pushed := none, pend := [], lims := l.take 5 }
      let s := ((s.setF (PRG.CFG_SRC n) 1).setF (PRG.CTRL_RETARGET n) 0).flag (PRG.STAT_AT_TARGET n) false
      if m.d = 0 ∨ m.j = 0 then s.pgNoPlan n (limE l)
      else
        let (s, t) := s.pgClamp n (roundRat ((u.p + distOf u.v u.a (stopSegs u.v u.a m.d m.j)) * 65536))
        s.pgStopPlan n t m
  | 2 =>
    let s := if s.stepping n then s.chopRest n 0 .off else s
    let s := s.setPg n { (s.pgU n).hold with src := 0, target := none, queue := [], knot0 := none, pushed := none, pend := [] }
    (s.setF (PRG.CFG_SRC n) 0).setF (PRG.CTRL_RETARGET n) 0
  | _ => s

/-- A stall (R171). -/
def State.stall (s : State) (n : Nat) : State :=
  let s := (s.raise (PRG.STAT_STALL n)).bump (PRG.CNT_STALL_CNT n)
  ((s.setPg n { s.pgU n with stallRun := 0 }).recordStat 0x05 0x04 n 2 (PRG.STAT n)).stallAct n

/-- RESID moves by (LA − c − RESID)/256; how the fraction rounds is open (R173, log entry 2). -/
def State.residStep (s : State) (n : Nat) (d : Rat) : State :=
  let r := s.fi (PRG.RESID_RESID n)
  let x := (d - r) / 256
  let whole := decide (x.den = 1)
  let new := satS 16 (r + x.floor + (if whole then 0 else s.freeBool.toNat))
  let s := (if whole then s else s.tickFree).setFi (PRG.RESID_RESID n) new
  if s.f (PRG.CALTH_CAL_BAND n) < new.natAbs ∧ s.on (PRG.STAT_CAL_STALE n) = false then
    (s.raise (PRG.STAT_CAL_STALE n)).recordStat 0x05 0x05 n 2 (PRG.STAT n)
  else s

/-- A used sample enters its bin while learning (R172). -/
def State.learnBin (s : State) (n la v : Nat) : State :=
  if !s.on (PRG.STAT_LEARNING n) then s
  else
    let st := s.f (PRG.CALV_CAL_VSTEP n)
    let u := s.pgU n
    let near (k : Nat) : Bool := decide (2 * v ≤ 2 * (k + 1) * st + st)
      && decide (2 * (k + 1) * st ≤ 2 * v + st)
    s.setPg n { u with bins := (List.range 8).map (fun k =>
      let (c, sum) := u.bins.getD k (0, 0)
      if near k then (c + 1, sum + la) else (c, sum)) }

/-- Stall detection at an update of a STEPPER generator (R170 to R173). -/
def State.stallStep (s : State) (n : Nat) : State :=
  if s.pgOut n ≠ 1 then s
  else
    let fc := s.f LPEG.GSTAT_FC % 256
    let tag := s.f (PRG.LA_TAG n)
    if tag ≠ fc ∧ (tag + 1) % 256 ≠ fc then s.raise (PRG.STAT_LA_STALE n)
    else
      let la := s.f (PRG.LA_LA n)
      let v := (s.rdI (PRG.VEL n)).natAbs
      let abs_ : Rat := s.f (PRG.STALLTH_LA_ABS n)
      let c := s.calCurve n v
      let wid := if s.on (PRG.STAT_CAL_STALE n) then s.f (PRG.CALTH_CAL_WIDEN n) else 0
      let th : Rat := match c with
        | some c =>
          let t := c + (s.f (PRG.STALLTH_MARGIN n) + wid : Nat)
          if t < abs_ then t else abs_
        | none => abs_
      let s := s.learnBin n la v
      let s := match c with
        | some c => s.residStep n (la - c)
        | none => s
      let run := if th < la then (s.pgU n).stallRun + 1 else 0
      let s := s.setPg n { s.pgU n with stallRun := run }
      if s.f (PRG.CALV_STALL_N n) ≤ run ∧ run ≠ 0 then s.stall n else s

/-! ## Commands -/

/-- PG_EVALUATE: the update of generator `n` (R150, R170). -/
def execPgEvaluate (n : Fin 128) (s : State) : Out := ok ((s.stallStep n).pgUpdate n)

def execChopperCompare (p : Fin 96) (b : Fin 2) (s : State) : Out :=
  if s.stepping p then ok (s.chopCompare p b) else ok s

def execChopperTimerEnd (p : Fin 96) (b : Fin 2) (s : State) : Out := ok (s.chopTimeout p b)

def execStepperStandstill (n : Fin 96) (s : State) : Out := ok (s.stepStill n)

/-- DPW_PERIOD_START: `lead` is how far the exact start lies before the present tick (R54); the coil
references of a stepper port update (R167). -/
def execDpwPeriodStart (p : Fin 96) (lead : Fin 33) (coin : Bool) (s : State) : Out :=
  ok ((s.periodStart p.val (s.x - lead.val) coin).stepRefs p)

end Sys2Proof.Machine
end

