-- ==== Sys2Proof/Machine/Flags.lean ====
section
/-! DEFINITION. IEEE 754 arithmetic and its flags (spec/15_kloparam_base.md, R339, R355, R356):
binary32 and binary64 values as exact dyadic numbers, one rounding per operation under FRM, and the
five sticky flags an operation raises. -/

namespace Sys2Proof.Machine

/-- A binary format: precision, exponent bias and length in bits. -/
structure Fmt where
  p : Nat
  bias : Nat
  len : Nat
  deriving DecidableEq, Repr

def fmt32 : Fmt := ⟨24, 127, 32⟩
def fmt64 : Fmt := ⟨53, 1023, 64⟩

/-- The format of precision P (R355). -/
def fmtOf (dbl : Bool) : Fmt := if dbl then fmt64 else fmt32

/-- A decoded value: a NaN (signalling or not), an infinity, or (−1)^neg · m · 2^e. -/
inductive FV
  | nan (sig : Bool)
  | inf (neg : Bool)
  | fin (neg : Bool) (m : Nat) (e : Int)
  deriving DecidableEq, Repr

/-- What an operation gives: the encoded result, the flags it raises, and whether UF or NV is open
(tininess before or after rounding; an invalid product under a quiet NaN addend). -/
structure FRes where
  bits : Nat
  nx : Bool
  uf : Bool
  ov : Bool
  dz : Bool
  nv : Bool
  ufOpen : Bool
  nvOpen : Bool
  deriving DecidableEq, Repr

/-- A result without exception. -/
def FRes.exact (b : Nat) : FRes := ⟨b, false, false, false, false, false, false, false⟩

def Fmt.expBits (f : Fmt) : Nat := f.len - f.p
def Fmt.infBits (f : Fmt) : Nat := (2 ^ f.expBits - 1) * 2 ^ (f.p - 1)
def Fmt.signBit (f : Fmt) : Nat := 2 ^ (f.len - 1)

/-- The canonical quiet NaN (R355). -/
def Fmt.qnan (f : Fmt) : Nat := f.infBits + 2 ^ (f.p - 2)

def Fmt.sgn (f : Fmt) (neg : Bool) (b : Nat) : Nat := if neg then f.signBit + b else b

/-- The invalid operation: the canonical NaN and NV. -/
def Fmt.invalid (f : Fmt) : FRes := { FRes.exact f.qnan with nv := true }

/-- Decode. -/
def Fmt.un (f : Fmt) (b : Nat) : FV :=
  let neg := decide (f.signBit ≤ b % 2 ^ f.len)
  let mag := b % f.signBit
  let e := mag / 2 ^ (f.p - 1)
  let fr := mag % 2 ^ (f.p - 1)
  let low : Int := 1 - (f.bias : Int) - ((f.p : Int) - 1)
  if e = 2 ^ f.expBits - 1 then
    (if fr = 0 then .inf neg else .nan (decide (fr < 2 ^ (f.p - 2))))
  else if e = 0 then .fin neg fr low
  else .fin neg (fr + 2 ^ (f.p - 1)) (low + e - 1)

/-- Does rounding mode `rm` round the magnitude up: 0 to nearest even, 1 toward zero, 2 down, 3 up; `r`
over `d` is the remainder and `odd` the parity of the quotient. -/
def roundsUp (rm : Nat) (neg odd : Bool) (r d : Nat) : Bool :=
  match rm with
  | 0 => decide (d < 2 * r) || (decide (2 * r = d) && odd)
  | 1 => false
  | 2 => neg && decide (r ≠ 0)
  | _ => !neg && decide (r ≠ 0)

/-- The floor of log2 of n/d, for positive numbers. -/
def log2q (n d : Nat) : Int :=
  let e : Int := (Nat.log2 n : Int) - Nat.log2 d
  let below := if 0 ≤ e then decide (n < d * 2 ^ e.toNat) else decide (n * 2 ^ (-e).toNat < d)
  if below then e - 1 else e

/-- The quotient and remainder of (n/d)/2^k. -/
def scaleDiv (n d : Nat) (k : Int) : Nat × Nat × Nat :=
  let (a, b) := if 0 ≤ k then (n, d * 2 ^ k.toNat) else (n * 2 ^ (-k).toNat, d)
  (a / b, a % b, b)

/-- The exact value ±n/d rounded to the format (R355). -/
def Fmt.round (f : Fmt) (rm : Nat) (neg : Bool) (n d : Nat) : FRes :=
  if n = 0 then FRes.exact (f.sgn neg 0)
  else
    let low : Int := 1 - (f.bias : Int) - ((f.p : Int) - 1)
    let e := log2q n d
    let lsb := if e - ((f.p : Int) - 1) < low then low else e - ((f.p : Int) - 1)
    let (q, r, b) := scaleDiv n d lsb
    let up := roundsUp rm neg (q % 2 = 1) r b
    let m := q + up.toNat
    let mag := (lsb - low).toNat * 2 ^ (f.p - 1) + m
    let inexact := decide (r ≠ 0)
    let tiny := decide (e < 1 - (f.bias : Int))
    let (q2, r2, b2) := scaleDiv n d (e - ((f.p : Int) - 1))
    let grows := decide (q2 + (roundsUp rm neg (q2 % 2 = 1) r2 b2).toNat = 2 ^ f.p)
    let edge := tiny && inexact && decide (e = -(f.bias : Int)) && grows
    if f.infBits ≤ mag then
      let toInf := decide (rm = 0) || (decide (rm = 2) && neg) || (decide (rm = 3) && !neg)
      { FRes.exact (f.sgn neg (if toInf then f.infBits else f.infBits - 1)) with nx := true, ov := true }
    else
      { FRes.exact (f.sgn neg mag) with nx := inexact, uf := tiny && inexact && !edge, ufOpen := edge }

/-- ±m·2^e rounded. -/
def Fmt.roundDy (f : Fmt) (rm : Nat) (neg : Bool) (m : Nat) (e : Int) : FRes :=
  if 0 ≤ e then f.round rm neg (m * 2 ^ e.toNat) 1 else f.round rm neg m (2 ^ (-e).toNat)

/-- A NaN among the operands: the canonical NaN, NV for a signalling one. -/
def Fmt.nanOf (f : Fmt) (l : List FV) : FRes :=
  { FRes.exact f.qnan with nv := l.any (fun v => decide (v = .nan true)) }

def FV.isNan : FV → Bool
  | .nan _ => true
  | _ => false

def FV.neg : FV → FV
  | .nan s => .nan s
  | .inf n => .inf (!n)
  | .fin n m e => .fin (!n) m e

/-- The signed significand at exponent `e0`, at or below the value's own. -/
def signedAt (neg : Bool) (m : Nat) (e e0 : Int) : Int :=
  let x : Int := (m * 2 ^ (e - e0).toNat : Nat)
  if neg then -x else x

/-- Sum of two values. -/
def Fmt.add (f : Fmt) (rm : Nat) (a b : FV) : FRes :=
  match a, b with
  | .inf s, .inf t => if s = t then FRes.exact (f.sgn s f.infBits) else f.invalid
  | .inf s, .fin _ _ _ => FRes.exact (f.sgn s f.infBits)
  | .fin _ _ _, .inf s => FRes.exact (f.sgn s f.infBits)
  | .fin s m e, .fin t n g =>
    let e0 := if e < g then e else g
    let x := signedAt s m e e0 + signedAt t n g e0
    if x = 0 then
      FRes.exact (f.sgn (if m = 0 ∧ n = 0 ∧ s = t then s else decide (rm = 2)) 0)
    else f.roundDy rm (decide (x < 0)) x.natAbs e0
  | _, _ => f.nanOf [a, b]

/-- Product of two values. -/
def Fmt.mul (f : Fmt) (rm : Nat) (a b : FV) : FRes :=
  match a, b with
  | .inf s, .inf t => FRes.exact (f.sgn (s != t) f.infBits)
  | .inf s, .fin t m _ => if m = 0 then f.invalid else FRes.exact (f.sgn (s != t) f.infBits)
  | .fin s m _, .inf t => if m = 0 then f.invalid else FRes.exact (f.sgn (s != t) f.infBits)
  | .fin s m e, .fin t n g => f.roundDy rm (s != t) (m * n) (e + g)
  | _, _ => f.nanOf [a, b]

/-- Quotient of two values. -/
def Fmt.div (f : Fmt) (rm : Nat) (a b : FV) : FRes :=
  match a, b with
  | .inf _, .inf _ => f.invalid
  | .inf s, .fin t _ _ => FRes.exact (f.sgn (s != t) f.infBits)
  | .fin s _ _, .inf t => FRes.exact (f.sgn (s != t) 0)
  | .fin s m e, .fin t n g =>
    if n = 0 then
      (if m = 0 then f.invalid else { FRes.exact (f.sgn (s != t) f.infBits) with dz := true })
    else
      let k := e - g
      if 0 ≤ k then f.round rm (s != t) (m * 2 ^ k.toNat) n
      else f.round rm (s != t) m (n * 2 ^ (-k).toNat)
  | _, _ => f.nanOf [a, b]

/-- The exact product a × b plus c, one rounding. -/
def Fmt.fma (f : Fmt) (rm : Nat) (a b c : FV) : FRes :=
  let zeroInf := match a, b with
    | .inf _, .fin _ m _ => decide (m = 0)
    | .fin _ m _, .inf _ => decide (m = 0)
    | _, _ => false
  if a.isNan || b.isNan then f.nanOf [a, b, c]
  else if zeroInf then
    (if c = .nan false then { FRes.exact f.qnan with nvOpen := true } else f.invalid)
  else
    match a, b with
    | .fin s m e, .fin t n g => f.add rm (.fin (s != t) (m * n) (e + g)) c
    | .inf s, .inf t => f.add rm (.inf (s != t)) c
    | .inf s, .fin t _ _ => f.add rm (.inf (s != t)) c
    | .fin s _ _, .inf t => f.add rm (.inf (s != t)) c
    | _, _ => f.nanOf [a, b, c]

/-- Square root. -/
def Fmt.sqrt (f : Fmt) (rm : Nat) (a : FV) : FRes :=
  match a with
  | .nan _ => f.nanOf [a]
  | .inf s => if s then f.invalid else FRes.exact f.infBits
  | .fin s m e =>
    if m = 0 then FRes.exact (f.sgn s 0)
    else if s then f.invalid
    else
      let k0 : Nat := 2 * f.p + 4 - Nat.log2 m
      let k : Nat := if (e - (k0 : Int)) % 2 = 0 then k0 else k0 + 1
      let n := m * 2 ^ k
      let r := isqrtBits n 0 64
      let h := (e - (k : Int)) / 2
      if r * r = n then f.roundDy rm false r h else f.roundDy rm false (2 * r + 1) (h - 1)

/-- Order of two values that are no NaN: −0 = +0. -/
def FV.lt (a b : FV) : Bool :=
  match a, b with
  | .inf s, .inf t => s && !t
  | .inf s, .fin _ _ _ => s
  | .fin _ _ _, .inf t => !t
  | .fin s m e, .fin t n g =>
    let e0 := if e < g then e else g
    decide (signedAt s m e e0 < signedAt t n g e0)
  | _, _ => false

def FV.isNeg : FV → Bool
  | .nan _ => false
  | .inf s => s
  | .fin s _ _ => s

/-- Minimum or maximum (R355): a NaN yields the other operand, −0 orders below +0. -/
def Fmt.minmax (f : Fmt) (mx : Bool) (x y : Nat) : FRes :=
  let a := f.un x
  let b := f.un y
  let nv := decide (a = .nan true) || decide (b = .nan true)
  if a.isNan && b.isNan then { FRes.exact f.qnan with nv := nv }
  else if a.isNan then { FRes.exact (y % 2 ^ f.len) with nv := nv }
  else if b.isNan then { FRes.exact (x % 2 ^ f.len) with nv := nv }
  else
    let less := a.lt b || (!b.lt a && a.isNeg && !b.isNeg)
    FRes.exact ((if less = mx then y else x) % 2 ^ f.len)

/-- Conversion of a value to the format. -/
def Fmt.conv (f : Fmt) (rm : Nat) (a : FV) : FRes :=
  match a with
  | .nan _ => f.nanOf [a]
  | .inf s => FRes.exact (f.sgn s f.infBits)
  | .fin s m e => f.roundDy rm s m e

/-- A signed integer rounded to the format. -/
def Fmt.ofInt (f : Fmt) (rm : Nat) (x : Int) : FRes := f.round rm (decide (x < 0)) x.natAbs 1

/-- FCVTW (R355): to a signed 32-bit integer by FRM, saturating; 0 for a NaN; NV in all three cases. -/
def toWord (rm : Nat) (a : FV) : FRes :=
  let inv (b : Nat) : FRes := { FRes.exact b with nv := true }
  match a with
  | .nan _ => inv 0
  | .inf s => inv (if s then 0x80000000 else 0x7FFFFFFF)
  | .fin s m e =>
    let (q, r, b) := scaleDiv (if 0 ≤ e then m * 2 ^ e.toNat else m) (if 0 ≤ e then 1 else 2 ^ (-e).toNat) 0
    let n := q + (roundsUp rm s (q % 2 = 1) r b).toNat
    let v : Int := if s then -(n : Int) else n
    if v < -2147483648 then inv 0x80000000
    else if 2147483647 < v then inv 0x7FFFFFFF
    else { FRes.exact (bitsOf 32 v) with nx := decide (r ≠ 0) }

/-- FCMPP (R356): condition 0 EQ, 1 LT, 2 LE, 3 UN, 4 NE; the result and NV. -/
def fcmp (cond : Nat) (a b : FV) : Bool × Bool :=
  let un := a.isNan || b.isNan
  let sig := decide (a = .nan true) || decide (b = .nan true)
  let eq := !un && !a.lt b && !b.lt a
  match cond with
  | 0 => (eq, sig)
  | 1 => (!un && a.lt b, un)
  | 2 => (!un && (a.lt b || eq), un)
  | 3 => (un, sig)
  | _ => (!eq, sig)

/-- The sticky bits NX, UF, OF, DZ, NV of the status word (R339) that a result raises; `uf` and `nv`
decide the open ones. -/
def FRes.sticky (r : FRes) (uf nv : Bool) : Nat :=
  16 * r.nx.toNat + 32 * (r.uf || (r.ufOpen && uf)).toNat + 64 * r.ov.toNat + 128 * r.dz.toNat
    + 256 * (r.nv || (r.nvOpen && nv)).toNat

/-- The value of a binary32 word as a rational, none for an infinity or a NaN. -/
def f32val (w : Word) : Option Rat :=
  match fmt32.un w.toNat with
  | .fin s m e =>
    let x : Rat := if 0 ≤ e then (m * 2 ^ e.toNat : Nat) else (m : Rat) / (2 ^ (-e).toNat : Nat)
    some (if s then -x else x)
  | _ => none

/-- The value of a finite word of the format; 0 for another. -/
def Fmt.val (f : Fmt) (b : Nat) : Rat :=
  match f.un b with
  | .fin s m e =>
    let x : Rat := if 0 ≤ e then (m * 2 ^ e.toNat : Nat) else (m : Rat) / (2 ^ (-e).toNat : Nat)
    if s then -x else x
  | _ => 0

/-- A rational rounded to nearest even. -/
def Fmt.ofRat (f : Fmt) (x : Rat) : Nat := (f.round 0 (decide (x < 0)) x.num.natAbs x.den).bits

end Sys2Proof.Machine
end

