-- ==== Sys2Proof/Machine/Cap.lean ====
section
/-! DEFINITION. The Capture Engine (R301 to R313): probes, triggers, decimation, records, readout. -/

namespace Sys2Proof.Machine

def capIDLE : Nat := 0
def capFILL : Nat := 1
def capARMED : Nat := 2
def capPOST : Nat := 3
def capHOLD : Nat := 4
def capWAIT : Nat := 5

/-- The ring of the Capture Engine in bytes (R307). -/
def capRing : Nat := 4194304

/-- The value at a probe point (R301). -/
def State.probe (s : State) (n : Nat) : Int :=
  if n < 96 then s.fi ⟨LPE.HKOUT n 5, 16, 16⟩
  else if n < 192 then s.fi ⟨LPE.HKOUT (n - 96) 5, 0, 16⟩
  else if n < 288 then s.fi ⟨LPE.HKOUT (n - 192) 6, 16, 16⟩
  else if n < 384 then (s.slotU (n - 288)).ep
  else if n < 480 then s.rdI (PFB.SPEED (n - 384))
  else if n < 492 then s.f (CAQG.DSV_U (n - 480))
  else if n < 496 then 0
  else signedOf 32 (s.load .shared (s.f CAP.SPBASE_V + 4 * (n - 496)) 4)

/-- The enabled channels, ascending. -/
def State.capChans (s : State) : List Nat := (List.range 16).filter (fun c => s.on (CAP.CH_EN c))

/-- The bytes a record of `rows` rows over `nch` channels takes (R308). -/
def capSize (nch rows : Nat) : Nat := (64 + 4 * nch * rows + 32 * nch + 63) / 64 * 64

/-- The rows a record reserves: PRE + POST, and POST alone in CONT (R303, R308). -/
def State.capRows (s : State) : Nat :=
  (if s.f CAP.CFG_MODE = 2 then 0 else s.f CAP.LEN_PRE) + s.f CAP.LEN_POST

/-- Channels in a channel mask. -/
def maskCount (mask : Nat) : Nat := ((List.range 16).filter (fun c => mask.testBit c)).length

def CapDone.size (d : CapDone) : Nat := capSize (maskCount d.mask) d.rows.length

/-- The ring's fill, counting the complete records that wait for their commit (R307). -/
def State.capFill (s : State) : Nat :=
  (s.rd CAP.WRPTR - s.rd CAP.RDPTR).toNat + (s.cap.dones.map CapDone.size).foldl (· + ·) 0

/-- S of R302. -/
def State.capS (s : State) : Nat := s.f CAP.CFG_DIV * 2 ^ s.f CAP.STAT_DEC

/-- Arm for the next record (R303, R307), or wait for room. -/
def State.capArm (s : State) : State :=
  let fill := s.capFill
  if capRing < fill + capSize s.capChans.length s.capRows then
    let s := (s.raise CAP.STAT_NO_ROOM).setF CAP.STAT_STATE capWAIT
    { s with cap := { s.cap with noRoom := true, live := false, frames := 0 } }
  else
    let dec := s.f CAP.STAT_DEC
    let dec' :=
      if 3 * capRing < 4 * fill then min (dec + 1) 8
      else if 4 * fill < capRing then max (dec - 1) (s.f CAP.CFG_DEC_MIN)
      else dec
    let s := (s.raiseIf (decide (dec < dec')) CAP.STAT_DEC_UP).setF CAP.STAT_DEC dec'
    let cont := decide (s.f CAP.CFG_MODE = 2)
    let st := if cont then capPOST else if s.f CAP.LEN_PRE = 0 then capARMED else capFILL
    let s := s.setF CAP.STAT_STATE st
    { s with cap := { s.cap with frames := 0, rows := [], trig := none, npre := 0, ofs := 0,
                                 short := false, prev := none, rowAt := none, live := true } }

/-- The Capture Engine leaves what it is doing for IDLE. -/
def State.capIdle (s : State) : State :=
  let s := s.setF CAP.STAT_STATE capIDLE
  { s with cap := { s.cap with live := false, rows := [], trig := none } }

/-- The longest time from the last sample to the commit, in ticks (R312). -/
def capLatency (nch rows : Nat) : Nat := 12500 + rows * nch

/-- The record in progress is complete: it waits for CSEQ and its commit (R308 to R310). In CONT the
time fields of the trigger are free values: the rule states none. -/
def State.capDone (s : State) (trunc : Bool) : State :=
  let c := s.cap
  let chans := s.capChans
  let s := s.raiseIf trunc CAP.STAT_TRUNC
  let (s, trig) := match c.trig with
    | some t => (s, t)
    | none => (s.tickFree, ⟨255, s.freeWord, s.freeNat % 32, s.freeNat / 32 % 256⟩)
  let lat := s.freeNat % (capLatency chans.length c.rows.length + 1)
  let d : CapDone :=
    { seq := c.seq, trig := trig, dec := s.f CAP.STAT_DEC,
      mask := chans.foldl (fun m k => m + 2 ^ k) 0,
      flags := c.short.toNat + 2 * trunc.toNat + 4 * c.noRoom.toNat, npre := c.npre,
      rows := c.rows.reverse, ofs := c.ofs,
      step := (roundHalfAway (s.capS * 1000000000) s.fle).toNat, missed := c.missed, due := s.now + lat }
  let s := { s with cap := { c with seq := c.seq + 1, missed := 0, noRoom := false, live := false,
                                    rows := [], trig := none, dones := c.dones ++ [d], madeAt := some s.now } }
  s.tickFree.sched lat .capRecordCommit

/-- The last sample of a record is in (R303, R306): what comes next by MODE and hold-off. -/
def State.capFull (s : State) : State :=
  let s := s.capDone false
  match s.f CAP.CFG_MODE with
  | 0 => s
  | 1 =>
    let h := s.f CAP.HOLD_V
    if h = 0 then s.capArm
    else
      let s := s.setF CAP.STAT_STATE capHOLD
      { s with cap := { s.cap with frames := 0,
                                   hold := if s.on CAP.CFG_HOLDMODE then h else s.now + 250 * h } }
  | _ => s.capArm

/-- Is the record in POST complete. -/
def State.capCheck (s : State) : State :=
  if s.cap.live && decide (s.f CAP.STAT_STATE = capPOST)
      && decide (s.f CAP.LEN_POST ≤ s.cap.rows.length - s.cap.npre) then s.capFull else s

/-- A trigger is ignored (R305). -/
def State.capMiss (s : State) : State :=
  let s := s.bump CAP.CNT_MISSED
  { s with cap := { s.cap with missed := s.cap.missed + 1 } }

/-- A trigger is accepted, missed, or counts towards the end of a hold-off (R304 to R306). -/
def State.capTrig (s : State) (t : CapTrig) : State :=
  let c := s.cap
  let st := s.f CAP.STAT_STATE
  if c.trigAt = some s.now then s
  else if st = capIDLE ∧ c.stopAt ≠ some s.now then s
  else if s.f CAP.CFG_MODE = 2 then s
  else
    let s := { s with cap := { c with trigAt := some s.now } }
    if st = capIDLE then s.capMiss
    else if st = capFILL ∨ st = capARMED then
      let pre := s.f CAP.LEN_PRE
      let here := decide (c.rowAt = some s.now)
      let rows := c.rows.take (pre + here.toNat)
      let npre := rows.length - here.toNat
      let s := s.setF CAP.STAT_STATE capPOST
      ({ s with cap := { s.cap with rows := rows, npre := npre, short := decide (npre < pre),
                                    ofs := (decide (c.baseAt = some s.now)).toNat, trig := some t,
                                    accAt := some s.now, madeAt := none } }).capCheck
    else if st = capHOLD ∧ s.on CAP.CFG_HOLDMODE = true then
      if c.hold ≤ 1 then s.capArm else { s with cap := { s.cap with hold := c.hold - 1 } }
    else s.capMiss

/-- Does a probe value meet the trigger condition (R304). -/
def State.probeHit (s : State) (prev : Option Int) (v : Int) : Bool :=
  let hi := s.rdI CAP.THHI
  let lo := s.rdI CAP.THLO
  let inside (x : Int) : Bool := decide (lo ≤ x) && decide (x ≤ hi)
  match s.f CAP.TRIG_KIND, s.on CAP.TRIG_POL, prev with
  | 0, false, _ => decide (hi ≤ v)
  | 0, true, _ => decide (v ≤ lo)
  | 1, false, some p => decide (p < hi) && decide (hi ≤ v)
  | 1, true, some p => decide (lo < p) && decide (v ≤ lo)
  | _, false, some p => !inside p && inside v
  | _, true, some p => inside p && !inside v
  | _, _, none => false

/-- The base sample of a probe trigger (R304). -/
def State.capProbeTest (s : State) : State :=
  if s.f CAP.TRIG_SRC ≠ 0 ∨ s.f CAP.CFG_MODE = 2 then s
  else
    let v := s.probe (s.f CAP.TRIG_PROBE)
    let hit := s.probeHit s.cap.prev v
    let s := { s with cap := { s.cap with prev := some v } }
    if hit then s.capTrig ⟨0, s.stampNs 0, 0, s.stampWc 0⟩ else s

/-- Store a row (R302): FILL turns to ARMED with PRE samples, POST may end. -/
def State.capStore (s : State) : State :=
  let row : CapRow := ⟨s.ns 0, BitVec.ofNat 8 (s.wc 0),
    s.capChans.map (fun c => BitVec.ofInt 32 (s.probe (s.f (CAP.CH_PROBE c))))⟩
  let st := s.f CAP.STAT_STATE
  let c := s.cap
  if st = capPOST then
    ({ s with cap := { c with rows := row :: c.rows, rowAt := some s.now } }).capCheck
  else
    let pre := s.f CAP.LEN_PRE
    let rows := (row :: c.rows).take (pre + 1)
    let s := if st = capFILL ∧ pre ≤ rows.length then s.setF CAP.STAT_STATE capARMED else s
    { s with cap := { c with rows := rows, rowAt := some s.now } }

/-- The hold-off TIME ends at a sampling frame (R306). -/
def State.capRearm (s : State) : State :=
  if s.f CAP.STAT_STATE = capHOLD ∧ s.cap.rearmAt = some s.now then s.capArm else s

/-- What a TCMP0 firing does in the Capture Engine (R302 to R307). An engine that a probe trigger arms here samples
from the next frame on. -/
def State.capSample (s : State) : State :=
  let st := s.f CAP.STAT_STATE
  if st = capIDLE then s
  else
    let s := { s with cap := { s.cap with frames := s.cap.frames + 1 } }
    let base := decide (s.cap.frames % s.f CAP.CFG_DIV = 0)
    let stored := decide (s.cap.frames % s.capS = 0)
    let s := if base then s.capProbeTest else s
    let st := s.f CAP.STAT_STATE
    if s.cap.frames = 0 then s
    else if st = capWAIT then (if stored then s.capArm else s)
    else if st = capHOLD then
      (if stored && !s.on CAP.CFG_HOLDMODE && decide (s.cap.hold ≤ s.now) then
        State.sched { s with cap := { s.cap with rearmAt := some s.now } } 0 .capRearm else s)
    else if !s.cap.live then s
    else if stored then s.capStore
    else if base then
      let more := s.cap.trig.isSome && decide (s.cap.rows.length = s.cap.npre)
      { s with cap := { s.cap with ofs := s.cap.ofs + more.toNat, baseAt := some s.now } }
    else s

/-- CTRL.START (R303): refused with ERR_ARG where the setting is none, outside READY, RUN and SAFE a
record (R311). Outside IDLE the write is ignored without the record of R11 (log entry 132, DESIGN CHOICE). -/
def State.capStart (s : State) : State :=
  let chans := s.capChans
  let probe := decide (s.f CAP.TRIG_SRC = 0) && (decide (s.f CAP.TRIG_KIND = 1) || decide (s.f CAP.TRIG_KIND = 2))
  let bad := chans.isEmpty || (probe && decide (s.rdI CAP.THHI < s.rdI CAP.THLO))
    || decide (1048576 < capSize chans.length s.capRows)
  if s.f CAP.STAT_STATE ≠ capIDLE then s
  else s.judge bad CAP.STAT_ERR_ARG (!s.isIn [stREADY, stRUN, stSAFE]) fun s =>
    let s := s.setF CAP.STAT_DEC (s.f CAP.CFG_DEC_MIN)
    ({ s with cap := { s.cap with seq := 0, missed := 0, noRoom := false } }).capArm

/-- The record in progress ends early, or is discarded (R305, R311). -/
def State.capEnd (s : State) : State :=
  if s.f CAP.STAT_STATE = capPOST && s.cap.live && !s.cap.rows.isEmpty then (s.capDone true).capIdle
  else s.capIdle

/-- The record that the trigger of this tick completed is none. -/
def State.capUnmake (s : State) : State :=
  let c := s.cap
  match c.dones.getLast?, decide (c.madeAt = some s.now) with
  | some d, true =>
    { s with agenda := s.agenda.erase ⟨d.due, .cmd .capRecordCommit⟩,
             cap := { c with dones := c.dones.dropLast, seq := d.seq, missed := d.missed + c.missed,
                             noRoom := c.noRoom || d.flags.testBit 2 } }
  | _, _ => s

/-- CTRL.STOP (R305): in the tick in which a trigger was accepted it wins, and the trigger is missed. -/
def State.capStop (s : State) : State :=
  if s.f CAP.STAT_STATE = capIDLE then s
  else
    let s := if s.cap.accAt = some s.now then s.capUnmake.capMiss.capIdle else s.capEnd
    { s with cap := { s.cap with stopAt := some s.now } }

/-- CTRL.FORCE (R304). -/
def State.capForce (s : State) : State := s.capTrig ⟨5, s.stampNs 0, 0, s.stampWc 0⟩

/-- A write of CAP_CTRL. -/
def State.capCtrl (s : State) (v : Word) : State :=
  let s := if v.getLsbD 0 then s.capStart else s
  let s := if v.getLsbD 2 then s.capForce else s
  if v.getLsbD 1 then s.capStop else s

/-- Does an event meet the selected source (R304). -/
def State.capSelects (s : State) (ev : CapEvent) : Bool :=
  let src := s.f CAP.TRIG_SRC
  let idx := s.f CAP.TRIG_IDX
  match ev with
  | .tcmp c => decide (src = 1) && decide (idx = c.val) && s.on (TCMP.CTRL_CAP c)
  | .trgc p => decide (src = 2) && decide (idx = p.val)
  | .trip p => decide (src = 3) && (decide (idx = p.val) || decide (idx = 127))
  | .ext i rising => decide (src = 4) && decide (idx = i.val) && (s.on CAP.TRIG_POL != rising)
  | .force => true

/-! ## Records -/

/-- fp32 of CSEQ, to nearest even. -/
def f32add (a b : Nat) : Nat := (fmt32.add 0 (fmt32.un a) (fmt32.un b)).bits
def f32mul (a b : Nat) : Nat := (fmt32.mul 0 (fmt32.un a) (fmt32.un b)).bits
def f32div (a b : Nat) : Nat := (fmt32.div 0 (fmt32.un a) (fmt32.un b)).bits
def f32neg (a : Nat) : Nat := (a + 2 ^ 31) % 2 ^ 32
def f32sub (a b : Nat) : Nat := f32add a (f32neg b)
def f32sqrt (a : Nat) : Nat := (fmt32.sqrt 0 (fmt32.un a)).bits
def f32int (x : Int) : Nat := (fmt32.ofInt 0 x).bits
def f32lt (a b : Nat) : Bool := (fmt32.un a).lt (fmt32.un b)
def f32sum (l : List Nat) : Nat := l.foldl f32add 0
def f32mean (l : List Nat) : Nat := if l.isEmpty then 0 else f32div (f32sum l) (f32int l.length)

/-- The indices of the rising crossings of `mid` with hysteresis ±h (R309): from below mid − h to
above mid + h, counted where the upper bound is passed. -/
def crossings (mid h : Nat) : Option Bool → Nat → List Nat → List Nat
  | _, _, [] => []
  | st, i, x :: xs =>
    if !f32lt x (f32add mid h) then
      (if st = some false then [i] else []) ++ crossings mid h (some true) (i + 1) xs
    else if !f32lt (f32sub mid h) x then crossings mid h (some false) (i + 1) xs
    else crossings mid h st (i + 1) xs

/-- The measurement block of a channel (R309), sums taken in row order (log entry 32). -/
def capMeasure (step : Nat) (l : List Int) : List Nat :=
  let x := l.map f32int
  let mn := x.foldl (fun a b => if f32lt b a then b else a) (x.headD 0)
  let mx := x.foldl (fun a b => if f32lt a b then b else a) (x.headD 0)
  let p2p := f32sub mx mn
  let mid := f32div (f32add mx mn) (f32int 2)
  let amp := if p2p % 2 ^ 31 = 0 then 0 else
    f32sub (f32mean (x.filter (fun v => !f32lt v mid))) (f32mean (x.filter (fun v => f32lt v mid)))
  let cr := crossings mid (f32div p2p (f32int 16)) none 0 x
  let period := match cr, cr.getLast? with
    | a :: _ :: _, some z => (roundHalfAway ((z - a) * step) (cr.length - 1)).toNat % 2 ^ 32
    | _, _ => 0
  [mn, mx, f32mean x, f32sqrt (f32mean (x.map (fun v => f32mul v v))), p2p, amp, period, 0]

/-- Bytes of (value, length) pairs, little-endian. -/
def leBytes (v : Nat) : Nat → List Byte
  | 0 => []
  | n + 1 => BitVec.ofNat 8 v :: leBytes (v / 256) n

def packBytes (l : List (Nat × Nat)) : List Byte := l.flatMap (fun f => leBytes f.1 f.2)

/-- The 64-byte header (R308). -/
def CapDone.header (d : CapDone) : List Byte :=
  let r0 := d.rows.headD ⟨0, 0, []⟩
  packBytes [(d.size, 4), (d.seq, 4), (d.trig.ns.toNat, 4), (d.trig.frac, 1), (d.trig.wc, 1),
    (d.trig.src, 1), (d.dec, 1), (d.mask, 2), (d.flags, 2), (d.npre, 2), (d.rows.length - d.npre, 2),
    (r0.ns.toNat, 4), (r0.wc.toNat, 1), (0, 1), (d.ofs, 2), (d.step, 4), (d.missed, 4), (0, 24)]

def CapDone.column (d : CapDone) (i : Nat) : List Int := d.rows.map (fun r => (r.vals.getD i 0).toInt)

/-- A record as bytes (R308). -/
def CapDone.bytes (d : CapDone) : List Byte :=
  let nch := maskCount d.mask
  let body := d.header ++ d.rows.flatMap (fun r => r.vals.flatMap (fun v => leBytes v.toNat 4))
    ++ (List.range nch).flatMap (fun i => (capMeasure d.step (d.column i)).flatMap (fun v => leBytes v 4))
  body ++ List.replicate (d.size - body.length) 0

/-- Write bytes into the ring from byte counter `v` on (R310). -/
def State.ringPut (s : State) (v : Nat) : List Byte → State
  | [] => s
  | b :: bs => (s.setByte .capture (v % capRing) b).ringPut (v + 1) bs

/-- SINGLE returns to IDLE with its record committed (R303). -/
def State.capSingleEnd (s : State) : State :=
  if s.cap.dones.isEmpty && decide (s.f CAP.STAT_STATE = capPOST) && !s.cap.live
      && decide (s.f CAP.CFG_MODE = 0) then s.capIdle else s

/-- Record `d` is committed (R310). -/
def State.capCommitRec (s : State) (d : CapDone) : State :=
  let w := (s.rd CAP.WRPTR).toNat
  let s := s.ringPut w d.bytes
  let s := s.wrN CAP.WRPTR (w + d.size)
  let s := ((s.raise CAP.STAT_REC).bumpMod CAP.CNT_RECORDS).hqEvent HQ.EVCFG_CAP HQ.EVSTAT_CAP
  let tag := s.f CAP.TOKEN_TAG
  if tag = 0 then s else s.token tag (BitVec.ofNat 32 d.seq) 400

/-- Commit the oldest complete record (R310). -/
def State.capCommit (s : State) : State :=
  match s.cap.dones with
  | [] => s
  | d :: ds => (State.capCommitRec { s with cap := { s.cap with dones := ds } } d).capSingleEnd

/-- A write of CAP_RDPTR (R310). -/
def State.rdptrWrite (s : State) (v : Word) : State :=
  let rd := s.rd CAP.RDPTR
  let ahead := (v - rd).toNat
  if v.toNat % 64 ≠ 0 ∨ (s.rd CAP.WRPTR - rd).toNat < ahead then s.raise CAP.STAT_ERR_ARG
  else s.wr CAP.RDPTR v

/-- Is IDX out of the range of its source (R304, R313)? -/
def capIdxBad (src idx : Nat) : Bool :=
  match src with
  | 2 => decide (95 < idx)
  | 3 => decide (95 < idx) && decide (idx ≠ 127)
  | 4 => decide (32 < idx)
  | _ => false

/-- Values a configuration register of the engine does not take (R313). -/
def capBad (rel : Nat) (v : Word) : Bool :=
  match rel with
  | 0x00 => decide (getBits 0 2 v = 3) || decide (getBits 2 12 v = 0) || decide (8 < getBits 14 4 v)
  | 0x04 => decide (getBits 14 16 v = 0)
  | 0x08 => decide (5 < getBits 0 3 v) || decide (getBits 3 2 v = 3) || capIdxBad (getBits 0 3 v) (getBits 15 7 v)
  | 0x18 => decide (0xFF00 ≤ getBits 0 16 v) && decide (getBits 0 16 v ≤ 0xFF07)
  | 0x1C => decide (getBits 0 24 v % 64 ≠ 0)
  | _ => false

/-- A write of a CAP register (R303, R313). -/
def State.capWrite (s : State) (off : Nat) (v hw : Word) : State :=
  let rel := off - CAP.CFG
  if rel = 0x20 then s.capCtrl v
  else if rel = 0x24 then s.store off v hw
  else if rel = 0x2C then s.rdptrWrite v
  else if rel = 0x28 ∨ rel = 0x30 then s
  else s.judge (capBad rel v) CAP.STAT_ERR_ARG (decide (s.f CAP.STAT_STATE ≠ capIDLE)) (·.store off v)

/-- The module leaves READY, RUN and SAFE (R311). -/
def State.capLeave (s : State) : State :=
  if s.f CAP.STAT_STATE = capIDLE then s else s.capEnd

/-- CAP_TRIGGER: an event of the selected source (R304, R305). -/
def execCapTrigger (ev : CapEvent) (ns : Word) (frac : Fin 32) (wc : Byte) (s : State) : Out :=
  if s.capSelects ev then
    let src := if ev = .force then 5 else s.f CAP.TRIG_SRC
    ok (s.capTrig ⟨src, ns, frac.val, wc.toNat⟩)
  else ok s

/-- CAP_RECORD_COMMIT (R310). -/
def execCapRecordCommit (s : State) : Out := ok s.capCommit

/-- CAP_REARM: the end of a hold-off TIME, in the tick of the sampling frame that ends it (R306). -/
def execCapRearm (s : State) : Out := ok s.capRearm

end Sys2Proof.Machine
end

