-- ==== Sys2Proof/Machine/Door.lean ====
section
/-! DEFINITION. The access doors (R278 to R289, R300). -/

namespace Sys2Proof.Machine

def State.doorU (s : State) (d : Nat) : Door := s.door.get (fun _ => Door.reset) d

def State.setDoor (s : State) (d : Nat) (u : Door) : State :=
  { s with door := s.door.set (fun _ => Door.reset) d u }

def drLOCKED : Nat := 0
def drUNLOCKING : Nat := 1
def drOPENING : Nat := 2
def drOPEN : Nat := 3
def drCLOSING : Nat := 4
def drLOCKING : Nat := 5
def drREVERSING : Nat := 6
def drSTOPPED : Nat := 7
def drFAULT : Nat := 8

def State.doorSt (s : State) (d : Nat) : Nat := s.f (DOR.STAT_STATE d)
def State.doorPort (s : State) (d : Nat) : Nat := s.f (DOR.CFG_PORT d)

/-- Bit `d` of a door field. -/
def doorBit (F : Field) (d : Nat) : Field := ⟨F.off, F.lo + d, 1⟩

/-- The unlock request of door `d` (R269, R283). -/
def State.doorAsk (s : State) (d : Nat) (b : Bool) : State := s.flag (doorBit SAF.REQ_UNLOCK d) b

/-- A result of the command with SEQ `seq` (R9, R282). -/
def State.doorRes (s : State) (d code seq : Nat) : State :=
  (s.setF (DOR.RES_RESULT d) code).setF (DOR.RES_SEQ d) seq

/-- The command in progress completes. -/
def State.doorFinish (s : State) (d code : Nat) : State :=
  match (s.doorU d).cmd with
  | some (_, seq) => (s.doorRes d code seq).setDoor d { s.doorU d with cmd := none }
  | none => s

/-- The position of the door's feedback unit (R117) in 2^-16 count. -/
def State.doorPos (s : State) (d : Nat) : Int := s.sampledPos (s.doorPort d)

/-- POS_CL and POS_OP in 2^-16 count. -/
def State.posCl (s : State) (d : Nat) : Int := s.rdI (DOR.POSCL d) * 65536
def State.posOp (s : State) (d : Nat) : Int := s.rdI (DOR.POSOP d) * 65536

/-- R285: VRUN and VREV allow a stop within 20 ms at max(EDEC, DMAX). -/
def State.doorLimits (s : State) (d p : Nat) : Bool :=
  let l := s.pgLims p
  let dec := max (limAt l 5) (limAt l 2)
  decide ((s.rd (DOR.VRUN d)).toNat * 50 ≤ dec) && decide ((s.rd (DOR.VREV d)).toNat * 50 ≤ dec)

/-- Commit a RETARGET of the door's generator, judged as every commit (R152, R175, R287, R288). -/
def State.doorMove (s : State) (d : Nat) (tgt : Int) (v : Nat) : State :=
  let p := s.doorPort d
  (s.setPg p { s.pgU p with doorNext := none }).commitMove p
    ⟨s.now, tgt, v, (s.rd (PRG.AMOVE p)).toNat, (s.rd (PRG.DMOVE p)).toNat⟩

/-- Ask the generator for a stop, in place of the commits that wait: `hard` for the door stop of R285. -/
def State.doorHalt (s : State) (d : Nat) (hard : Bool) : State :=
  let p := s.doorPort d
  (s.setPg p { s.pgU p with doorStop := some hard, doorNext := none, pend := [] }).setF (PRG.CTRL_RETARGET p) 0

/-- A move of REV_DIST from rest at VREV (R287). -/
def State.doorReverse (s : State) (d : Nat) (towardsOpen : Bool) : State :=
  let p := s.doorPort d
  let cl := s.posCl d
  let op := s.posOp d
  let up := decide (cl < op) = towardsOpen
  let dist : Int := (s.rd (DOR.REV d)).toNat * 65536
  s.setPg p { s.pgU p with doorNext := some (if up then dist else -dist, min cl op, max cl op, (s.rd (DOR.VREV d)).toNat) }

/-- Is the generator done with what the door asked: no stop, no move and no commit stands. -/
def State.doorIdle (s : State) (d : Nat) : Bool :=
  let u := s.pgU (s.doorPort d)
  u.doorStop.isNone && u.doorNext.isNone && u.pend.isEmpty

/-- Is the generator at rest with nothing standing. -/
def State.doorRest (s : State) (d : Nat) : Bool :=
  let u := s.pgU (s.doorPort d)
  s.doorIdle d && u.plan.isEmpty && decide (u.v = 0)

/-- The last move ended at its target. -/
def State.doorThere (s : State) (d : Nat) : Bool :=
  s.doorIdle d && s.on (PRG.STAT_AT_TARGET (s.doorPort d))

/-- The last move ended at `pos`, POS_CL or POS_OP (R281, R284). -/
def State.doorAt (s : State) (d : Nat) (pos : Int) : Bool :=
  s.doorThere d && decide (s.wide (PRG.POS_L (s.doorPort d)) = pos)

def State.doorTimers (s : State) (d : Nat) : State :=
  (s.cancel (.doorGrantTimeout (Fin.ofNat 8 d))).cancel (.doorLockTimeout (Fin.ofNat 8 d))

/-- 10 ms in ticks. -/
def ticks10ms : Nat := 2500000

def State.doorGrantTimer (s : State) (d : Nat) : State :=
  s.sched (s.f (DOR.TIME_T_GRANT d) * ticks10ms) (.doorGrantTimeout (Fin.ofNat 8 d))

def State.doorLockTimer (s : State) (d : Nat) : State :=
  s.sched (s.f (DOR.TIME_T_LOCK d) * ticks10ms) (.doorLockTimeout (Fin.ofNat 8 d))

/-- Enter a state: timers end; the count of runs goes on (R287). -/
def State.doorTo (s : State) (d st : Nat) : State :=
  let s := (s.doorTimers d).setF (DOR.STAT_STATE d) st
  s.setDoor d { s.doorU d with granted := false, regrant := false }

/-- A cycle ends in state `st` (R289). -/
def State.doorCycleEnd (s : State) (d st : Nat) : State :=
  match (s.doorU d).cyc with
  | none => s
  | some c =>
    let s := s.setDoor d { s.doorU d with cyc := none }
    let s := s.wrN (DOR.CYC d) (satU 32 ((s.rd (DOR.CYC d)).toNat + 1))
    s.record 0x12 0x02 d 0 (payloadOf [(d, 1), (st, 1), (satU 16 c.obst, 2), (c.ns.toNat, 4),
      ((s.rd (DOR.CYC d)).toNat, 4), (bitsOf 16 (satS 16 (c.peak.getD 0)), 2),
      (satU 16 ((s.now - c.at_) / 250000), 2)])

/-- A learning pass that is not complete is dropped (R286). -/
def State.doorPassDrop (s : State) (d : Nat) : State := s.setDoor d { s.doorU d with pass := [] }

/-- Enter CLOSED_LOCKED. -/
def State.doorLocked (s : State) (d code : Nat) : State :=
  ((((s.doorTo d drLOCKED).doorAsk d false).doorCycleEnd d drLOCKED).doorFinish d code)

/-- Enter FAULT (R281, R282). -/
def State.doorFault (s : State) (d : Nat) : State :=
  ((((((s.doorTo d drFAULT).doorPassDrop d).doorHalt d true).doorAsk d true).doorCycleEnd d drFAULT).doorFinish d 7)

/-- Enter STOPPED: the set-point moves to the door (R288). -/
def State.doorStopped (s : State) (d code : Nat) : State :=
  let s := ((s.doorTo d drSTOPPED).doorPassDrop d).doorFinish d code
  let s := s.setDoor d { s.doorU d with stopping := false }
  s.doorMove d (s.doorPos d) (s.rd (PRG.VMOVE (s.doorPort d))).toNat

/-- Enter OPENING or CLOSING (R281, R285). -/
def State.doorGo (s : State) (d : Nat) (opening : Bool) : State :=
  if !s.doorLimits d (s.doorPort d) then (s.raise (DOR.STAT_ERR_ARG d)).doorFault d
  else
    let s := s.doorTo d (if opening then drOPENING else drCLOSING)
    let s := s.setDoor d { s.doorU d with stopping := false, yield := false, pass := [] }
    let p := s.doorPort d
    let s := s.setPg p { s.pgU p with doorStop := none, doorNext := none }
    s.doorMove d (if opening then s.posOp d else s.posCl d) (s.rd (DOR.VRUN d)).toNat

/-- Enter LOCKING: the request is withdrawn (R284). -/
def State.doorLocking (s : State) (d : Nat) : State :=
  ((s.doorTo d drLOCKING).doorAsk d false).doorLockTimer d

/-- Enter REVERSING (R285, R287). -/
def State.doorReversing (s : State) (d : Nat) (towardsOpen : Bool) : State :=
  if !s.doorLimits d (s.doorPort d) then (s.raise (DOR.STAT_ERR_ARG d)).doorFault d
  else ((s.doorTo d drREVERSING).doorPassDrop d).doorReverse d towardsOpen

/-! ## Learning (R286) -/

def emptyBins (n : Nat) : List (Nat × Nat) := List.replicate n (0, 0)

def addBin (l : List (Nat × Nat)) (k f : Nat) : List (Nat × Nat) :=
  (List.range l.length).map (fun i =>
    let (c, t) := l.getD i (0, 0)
    if i = k then (c + 1, t + f) else (c, t))

/-- The bin of a position (R286). -/
def State.doorBin (s : State) (d : Nat) (pos : Int) : Nat :=
  let den := s.posOp d - s.posCl d
  if den = 0 then 0 else (clampInt 0 31 (Int.fdiv (32 * (pos - s.posCl d)) den)).toNat

/-- Where c_k of a direction stands, and its LEARNED bit. -/
def doorProf (d : Nat) (opening : Bool) (k : Nat) : Field :=
  ⟨(if opening then DOR.PROFO d (k / 2) else DOR.PROFC d (k / 2)), 16 * (k % 2), 16⟩

def doorLearned (d : Nat) (opening : Bool) (k : Nat) : Field :=
  ⟨if k < 16 then DOR.LEARNED d else DOR.LEARNED2 d, k % 16 + (if opening then 0 else 16), 1⟩

/-- The curve value that applies (R286, R287): none outside OPENING and CLOSING and while learning. -/
def State.doorCurve (s : State) (d : Nat) (pos : Int) : Option Nat :=
  let st := s.doorSt d
  if (st ≠ drOPENING ∧ st ≠ drCLOSING) ∨ s.on (DOR.STAT_LEARNING d) = true then none
  else
    let k := s.doorBin d pos
    let op := decide (st = drOPENING)
    if s.on (doorLearned d op k) then some (s.f (doorProf d op k)) else none

/-- A sample while learning. -/
def State.doorSample (s : State) (d : Nat) (pos : Int) (f : Nat) : State :=
  let u := s.doorU d
  let st := s.doorSt d
  let wants := (decide (st = drOPENING) && !u.didO) || (decide (st = drCLOSING) && !u.didC)
  if !s.on (DOR.STAT_LEARNING d) || !wants then s
  else
    let pass := if u.pass.isEmpty then emptyBins 32 else u.pass
    s.setDoor d { u with pass := addBin pass (s.doorBin d pos) f }

/-- The end of learning (R172, R286). -/
def State.doorLearnEnd (s : State) (d : Nat) : State :=
  let bins := (s.doorU d).bins
  let s := (List.range 64).foldl (fun t i =>
    let (c, sum) := bins.getD i (0, 0)
    let op := decide (i < 32)
    if 64 ≤ c then (t.setF (doorProf d op (i % 32)) (roundHalfAway sum c).toNat).raise (doorLearned d op (i % 32))
    else t.raise (DOR.STAT_LEARN_INC d)) s
  let n : Nat := bins.foldl (fun a b => a + b.1) 0
  let sum : Nat := bins.foldl (fun a b => a + b.2) 0
  let s := if n = 0 then s else s.setF (DOR.RESID_LOADCAL d) (roundHalfAway sum n).toNat
  ((s.flag (DOR.STAT_LEARNING d) false).flag (DOR.STAT_CAL_STALE d) false).setF (DOR.RESID_RESID d) 0

/-- A pass in one direction is complete. -/
def State.doorPassEnd (s : State) (d : Nat) (opening : Bool) : State :=
  let u := s.doorU d
  if !s.on (DOR.STAT_LEARNING d) || (if opening then u.didO else u.didC) then s
  else
    let pass := if u.pass.isEmpty then emptyBins 32 else u.pass
    let old := if u.bins.isEmpty then emptyBins 64 else u.bins
    let bins := if opening then pass ++ old.drop 32 else old.take 32 ++ pass
    let u := { u with bins := bins, pass := [], didO := u.didO || opening, didC := u.didC || !opening }
    let s := s.setDoor d u
    if u.didO && u.didC then s.doorLearnEnd d else s

/-- RESID and CAL_STALE with its record, that of R173 for the door's generator (R173, R286, log entry 12);
how the fraction rounds is open (log entry 2). -/
def State.doorResid (s : State) (d : Nat) (e : Int) : State :=
  let r := s.fi (DOR.RESID_RESID d)
  let whole := decide ((e - r) % 256 = 0)
  let new := satS 16 (r + (e - r) / 256 + (if whole then 0 else s.freeBool.toNat))
  let s := (if whole then s else s.tickFree).setFi (DOR.RESID_RESID d) new
  if s.f (DOR.CALTH_CAL_BAND d) < new.natAbs ∧ s.on (DOR.STAT_CAL_STALE d) = false then
    (s.raise (DOR.STAT_CAL_STALE d)).recordStat 0x05 0x05 (s.doorPort d) 2 (PRG.STAT (s.doorPort d))
  else s

/-! ## The run of R280 -/

/-- States in which the drive is free (R281, R287). -/
def State.doorFree (s : State) (d : Nat) : Bool :=
  let st := s.doorSt d
  [drLOCKED, drUNLOCKING, drLOCKING, drFAULT].contains st
    || ((s.doorU d).yield && (decide (st = drSTOPPED) || decide (st = drOPEN)))

/-- u of R280. -/
def State.doorDrive (s : State) (d : Nat) : Int :=
  if s.doorFree d then 0
  else
    let p := s.doorPort d
    let e : Rat := (s.wide (PRG.POS_L p) - s.doorPos d : Int) / 65536
    let v : Rat := (s.rdI (PRG.VEL p) : Int) / 16
    let kp := (f32val (s.rd (DOR.KP d))).getD 0
    let kf := (f32val (s.rd (DOR.KF d))).getD 0
    let lim : Int := s.f (DOR.UMAX_V d)
    clampInt (-lim) lim (roundRat (kp * e + kf * v))

/-- The electrical angle of the door's port (R134). -/
def State.doorTheta (s : State) (d : Nat) : Nat :=
  let p := s.doorPort d
  ((s.doorPos d * (s.rd (LPE.EMUL p)).toNat / (2 ^ 32 : Nat) + getBits 0 16 (s.rd (LPE.EOFS p))) % 65536).toNat

/-- The force value f (R280). -/
def State.doorForce (s : State) (d : Nat) : Nat :=
  let p := s.doorPort d
  let ia := s.fi (CAQ.LAT0_I_A p)
  if s.f (DPW.CFG_MODE p) = 1 then
    let th := s.doorTheta d
    let sn := tableQ15 (sin60 th) (Config.freeNat s.free)
    let cs := tableQ15 (cos60 th) (Config.freeNat (s.free + 1))
    (axisCurrents true ia (s.fi (CAQ.LAT0_I_B p)) sn cs).2.natAbs
  else ia.natAbs

/-- The on-times of the run; the set is marked (R280). While the port does not meet R147 for the output DOOR the door
marks nothing (R62, R147). -/
def State.doorOut (s : State) (d : Nat) (u : Int) : State :=
  let p := s.doorPort d
  let per := s.portPeriod p
  if s.pgOut p ≠ 3 ∨ s.pgCfgOk p = false then s
  else if s.f (DPW.CFG_MODE p) = 1 then
    let l := focTimes 0 u (s.doorTheta d) per (Config.freeNat s.free) (Config.freeNat (s.free + 1))
      (Config.freeNat (s.free + 2))
    State.writeDuty { s with free := s.free + 3 } p l
  else
    let ta := (roundHalfAway (per * (32768 + u)) 65536).toNat
    s.writeDuty p [ta, per - ta, per / 2, per / 2]

/-- What a door does about an obstacle (R287). -/
def State.doorReact (s : State) (d : Nat) : State :=
  let st := s.doorSt d
  if st = drOPENING then (s.doorHalt d true).doorReversing d false
  else if st = drCLOSING then (s.doorHalt d true).doorReversing d true
  else if st = drREVERSING then
    let s := s.doorHalt d true
    s.setDoor d { s.doorU d with stopping := true }
  else if st = drUNLOCKING then s.doorLocking d
  else if st = drLOCKING then
    let s := (s.doorTimers d).doorAsk d true
    (s.setDoor d { s.doorU d with regrant := true }).doorGrantTimer d
  else if st = drOPEN ∨ st = drSTOPPED then
    let s := if st = drOPEN then s.doorStopped d 0x0B else s
    s.setDoor d { s.doorU d with yield := true }
  else s

/-- An obstacle (R287). -/
def State.doorObstacle (s : State) (d cause : Nat) : State :=
  let u := s.doorU d
  let s := (s.raise (DOR.STAT_OBSTACLE d)).setF (DOR.STAT_STOP_CAUSE d) cause
  let s := s.setDoor d { u with run := 0, cyc := u.cyc.map (fun c => { c with obst := c.obst + 1 }) }
  (s.recordStat 0x12 0x01 d 2 (DOR.STAT d)).doorReact d

/-- The obstacle test (R287): an edge and the count of runs in one run are one obstacle (log entry 12). -/
def State.doorTest (s : State) (d : Nat) (pos : Int) (f : Nat) : State :=
  let c := s.doorCurve d pos
  let fabs := s.f (DOR.FTH_F_ABS d)
  let wid := if s.on (DOR.STAT_CAL_STALE d) then s.f (DOR.CALTH_CAL_WIDEN d) else 0
  let prof := match c with
    | some c => c + s.f (DOR.FTH_MARGIN d) + wid
    | none => fabs
  let th := min prof fabs
  let s := (s.setF (DOR.FORCE_F d) f).setF (DOR.FORCE_TH d) th
  let s := match c with
    | some c =>
      let u := s.doorU d
      let e : Int := (f : Int) - c
      let cyc := u.cyc.map (fun (y : DoorCycle) => { y with peak := some (max (y.peak.getD e) e) })
      (s.setDoor d { u with cyc := cyc }).doorResid d e
    | none => s
  let run := if th < f then (s.doorU d).run + 1 else 0
  let edge := s.on (doorBit SAF.DOOR_EDGE d)
  let rise := edge && !(s.doorU d).edge
  let s := s.setDoor d { s.doorU d with run := run, edge := edge }
  if rise then s.doorObstacle d 4
  else if th < f ∧ s.f (DOR.CFG_OBS_N d) ≤ run then s.doorObstacle d (if prof < fabs then 2 else 3)
  else s

/-- The progress of the states in a run (R282 to R288). An OPEN that an obstacle sent back to CLOSED_LOCKED
completes with DEGRADED (log entry 12). -/
def State.doorStep (s : State) (d : Nat) : State :=
  let st := s.doorSt d
  let dlk := s.on (doorBit SAF.DOOR_DLK d)
  let shut := s.on (doorBit SAF.DOOR_CLOSED_LOCKED d)
  let u := s.doorU d
  if u.stopping && [drOPENING, drCLOSING, drREVERSING].contains st then
    (if s.doorRest d then
      s.doorStopped d (if s.f (DOR.STAT_STOP_CAUSE d) = 1 then 0 else 0x0B)
    else s)
  else if st = drUNLOCKING then
    if !u.granted then
      (if dlk then
        let s := (s.doorTimers d).doorLockTimer d
        let s := s.setDoor d { s.doorU d with granted := true }
        if shut then s else s.doorGo d true
      else s)
    else if shut then s else s.doorGo d true
  else if st = drLOCKING then
    if u.regrant then (if dlk then s.doorReversing d true else s)
    else if shut then s.doorLocked d (if (u.cmd.map Prod.fst) = some 1 then 0x0B else 0) else s
  else if st = drOPENING then
    (if s.doorAt d (s.posOp d) then (((s.doorPassEnd d true).doorTo d drOPEN).doorFinish d 0) else s)
  else if st = drCLOSING then
    (if s.doorAt d (s.posCl d) then (s.doorPassEnd d false).doorLocking d else s)
  else if st = drREVERSING then
    (if s.doorThere d then s.doorStopped d 0x0B else s)
  else s

/-- FORCED and the feedback unit (R288). -/
def State.doorGuards (s : State) (d : Nat) : State :=
  let p := s.doorPort d
  let st := s.doorSt d
  let forced := s.on (DPW.STAT_FORCED p)
  let was := (s.doorU d).forced
  let s := s.setDoor d { s.doorU d with forced := forced }
  if (!s.on (PFB.STAT_VALID p) || s.on (PFB.STAT_FAULT p)) && decide (st ≠ drFAULT) then
    ((s.raise (DOR.STAT_FB_ERR d)).setF (DOR.STAT_STOP_CAUSE d) 6).doorFault d
  else if forced && [drOPENING, drCLOSING, drREVERSING].contains st then
    (s.setF (DOR.STAT_STOP_CAUSE d) 5).doorStopped d 0x0B
  else if was && !forced then s.doorMove d (s.doorPos d) (s.rd (PRG.VMOVE p)).toNat
  else s

/-- The run of door `d` in the TRGC0 strobe tick of its port (R280, R287, R288). -/
def State.doorRun (s : State) (d : Nat) : State :=
  if !s.on (DOR.CFG_EN d) then s
  else
    let pos := s.doorPos d
    let f := s.doorForce d
    let s : State := { s with free := s.free + 2 }
    let s := s.doorOut d (s.doorDrive d)
    let s := (s.doorGuards d).doorSample d pos f
    (s.doorTest d pos f).doorStep d

/-- Every door of port `p` runs. -/
def State.doorsRun (s : State) (p : Nat) : State :=
  (List.range 8).foldl (fun t d => if t.doorPort d = p then t.doorRun d else t) s

/-- The module leaves RUN (R288). -/
def State.doorsLeaveRun (s : State) : State :=
  (List.range 8).foldl (fun t d =>
    if t.on (DOR.CFG_EN d) && [drOPENING, drCLOSING, drREVERSING].contains (t.doorSt d) then
      (t.setF (DOR.STAT_STOP_CAUSE d) 7).doorStopped d 0x0B
    else t) s

/-! ## Commands (R282) -/

/-- A command in a state that does not take it (R10, R282). -/
def State.doorIllegal (s : State) (d seq : Nat) : State := (s.doorRes d 6 seq).sysIllegal

/-- A command is taken: the one before completes with DEGRADED. -/
def State.doorTake (s : State) (d code seq : Nat) : State :=
  let s := (s.doorFinish d 0x0B).doorRes d 1 seq
  s.setDoor d { s.doorU d with cmd := some (code, seq), yield := false }

/-- Does a command reach the door at all: RUN and an enabled door. -/
def State.doorMay (s : State) (d : Nat) (sts : List Nat) : Bool :=
  decide (s.mstate = stRUN) && s.on (DOR.CFG_EN d) && sts.contains (s.doorSt d)

def State.doorOpen (s : State) (d seq : Nat) : State :=
  if !s.doorMay d [drLOCKED, drSTOPPED, drCLOSING, drOPEN] then s.doorIllegal d seq
  else
    let st := s.doorSt d
    let s := s.doorTake d 1 seq
    if st = drOPEN then s.doorFinish d 0
    else if st = drLOCKED then
      let s := ((s.doorTo d drUNLOCKING).doorAsk d true).doorGrantTimer d
      s.setDoor d { s.doorU d with cyc := some ⟨s.ns 0, s.now, 0, none⟩ }
    else s.doorGo d true

def State.doorClose (s : State) (d seq : Nat) : State :=
  if !s.doorMay d [drOPEN, drSTOPPED, drOPENING, drLOCKED] then s.doorIllegal d seq
  else
    let st := s.doorSt d
    let s := s.doorTake d 2 seq
    if st = drLOCKED then s.doorFinish d 0 else s.doorGo d false

def State.doorStop (s : State) (d seq : Nat) : State :=
  if !s.doorMay d [drOPENING, drCLOSING, drREVERSING, drUNLOCKING] then s.doorIllegal d seq
  else
    let st := s.doorSt d
    let s := (s.doorTake d 3 seq).setF (DOR.STAT_STOP_CAUSE d) 1
    if st = drUNLOCKING then s.doorLocking d
    else
      let s := s.doorHalt d false
      s.setDoor d { s.doorU d with stopping := true }

def State.doorLearnCmd (s : State) (d seq : Nat) : State :=
  if !s.doorMay d [drLOCKED, drOPEN, drSTOPPED] then s.doorIllegal d seq
  else
    let s := (s.doorTake d 4 seq).raise (DOR.STAT_LEARNING d)
    (s.setDoor d { s.doorU d with pass := [], bins := emptyBins 64, didO := false, didC := false }).doorFinish d 0

/-- Does what sent the door to FAULT stand: a feedback fault, or limits that break R285. -/
def State.doorCause (s : State) (d : Nat) : Bool :=
  let p := s.doorPort d
  !s.on (PFB.STAT_VALID p) || s.on (PFB.STAT_FAULT p) || !s.doorLimits d p

def State.doorResetCmd (s : State) (d seq : Nat) : State :=
  if !s.doorMay d [drFAULT] || s.doorCause d then s.doorIllegal d seq
  else
    let s := s.doorTake d 5 seq
    if s.on (doorBit SAF.DOOR_CLOSED_LOCKED d) then s.doorLocked d 0 else s.doorStopped d 0

/-- A write of DOR_Dd_CMD; a code that is no command is BAD_OPCODE (R9). -/
def State.doorCmd (s : State) (d : Nat) (v : Word) : State :=
  let seq := getBits 16 16 v
  match getBits 0 4 v with
  | 1 => s.doorOpen d seq
  | 2 => s.doorClose d seq
  | 3 => s.doorStop d seq
  | 4 => s.doorLearnCmd d seq
  | 5 => s.doorResetCmd d seq
  | _ => s.doorRes d 4 seq

/-! ## Register writes (R278, R300) -/

def State.doorUnlocked (s : State) (d : Nat) : Bool :=
  !s.on (DOR.CFG_EN d) || [drLOCKED, drSTOPPED, drFAULT].contains (s.doorSt d)

/-- Is a CFG value refused (R278, R285, R300)? -/
def State.doorCfgBad (s : State) (d : Nat) (v : Word) : Bool :=
  let p := getBits 1 7 v
  let mode := s.f (DPW.CFG_MODE p)
  let pair := s.f (CAQ.CFG_PAIR p)
  let en := v.getLsbD 0
  let current := if mode = 3 then decide (pair = 3) && s.on (CAQ.CFG_EN_A p)
    else decide (pair ≠ 3) && s.on (CAQ.CFG_EN_A p) && s.on (CAQ.CFG_EN_B p)
  let other := (List.range 8).any (fun k => decide (k ≠ d) && s.on (DOR.CFG_EN k) && decide (s.doorPort k = p))
  decide (95 < p) || decide (getBits 8 4 v = 0) || !s.doorLimits d p ||
    (en && (decide (s.pgOut p ≠ 3) || !s.pgCfgOk p || !current || decide (s.f (PFB.CFG_MODE p) = 0) || other))

/-- A write of DOR_Dd_CFG: a disabled door requests nothing and drives nothing; a door that is disabled marks a last set
with u = 0 (R281). -/
def State.doorCfgWrite (s : State) (d : Nat) (v : Word) : State :=
  s.judge (s.doorCfgBad d v) (DOR.STAT_ERR_ARG d) (!s.doorUnlocked d) (fun s =>
    let was := s.on (DOR.CFG_EN d)
    let s := if was && !v.getLsbD 0 then s.doorOut d 0 else s
    let s := s.store (DOR.CFG d) v
    if s.on (DOR.CFG_EN d) = was then s
    else
      let s := (((s.doorTo d drLOCKED).doorAsk d false).doorFinish d 0x0B)
      s.setDoor d { Door.reset with edge := s.on (doorBit SAF.DOOR_EDGE d), forced := s.on (DPW.STAT_FORCED (s.doorPort d)) })

def doorBadValue (s : State) (d rel : Nat) (v : Word) : Bool :=
  match rel with
  | 0x10 => decide (v = s.rd (DOR.POSOP d))
  | 0x14 => decide (v = s.rd (DOR.POSCL d))
  | 0x24 => (f32val v).isNone
  | 0x28 => (f32val v).isNone
  | 0x2C => decide (32767 < getBits 0 16 v)
  | 0x38 => decide (getBits 0 8 v = 0) || decide (getBits 8 8 v = 0)
  | _ => false

/-- The registers of a door that are read-only: RES, FORCE, RESID, CYC, LEARNED and LEARNED2 (R300). -/
def doorReadOnly (d off : Nat) : Bool :=
  [DOR.RES d, DOR.FORCE d, DOR.RESID d, DOR.CYC d, DOR.LEARNED d, DOR.LEARNED2 d].contains off

/-- A write of a DOR register; one of a read-only register does nothing (R24). -/
def State.doorWrite (s : State) (off : Nat) (v hw : Word) : State :=
  let d := (off - DOR.CFG 0) / 0x100
  let rel := (off - DOR.CFG 0) % 0x100
  if rel = 0 then s.doorCfgWrite d v
  else if rel = 4 then s.doorCmd d v
  else if rel = 0xC then s.store off v hw
  else if doorReadOnly d off then s
  else s.judge (doorBadValue s d rel v) (DOR.STAT_ERR_ARG d) (!s.doorUnlocked d) (·.store off v)

/-- DOOR_GRANT_TIMEOUT (R283, R287). -/
def execDoorGrantTimeout (d : Fin 8) (s : State) : Out :=
  if s.on (doorBit SAF.DOOR_DLK d) then ok s
  else if s.doorSt d = drUNLOCKING ∧ (s.doorU d).granted = false then ok (s.doorLocked d 0x0A)
  else if s.doorSt d = drLOCKING ∧ (s.doorU d).regrant = true then ok (s.doorFault d)
  else ok s

/-- DOOR_LOCK_TIMEOUT (R283, R284). -/
def execDoorLockTimeout (d : Fin 8) (s : State) : Out :=
  let shut := s.on (doorBit SAF.DOOR_CLOSED_LOCKED d)
  let late := (decide (s.doorSt d = drUNLOCKING) && (s.doorU d).granted && shut)
    || (decide (s.doorSt d = drLOCKING) && !(s.doorU d).regrant && !shut)
  if late then ok ((s.raise (DOR.STAT_LOCK_TO d)).doorFault d) else ok s

end Sys2Proof.Machine
end

