-- ==== Sys2Proof/Machine/Fio.lean ====
section
/-! DEFINITION. The field channels (R290 to R299). -/

namespace Sys2Proof.Machine

/-- Outputs follow FIO_OUT in READY, RUN and SAFE, and keep their level by FS in RECOVERY and HOLDUP
(R296). -/
def State.fioFollow (s : State) : Bool := s.isIn [stREADY, stRUN, stSAFE]
def State.fioKeep (s : State) : Bool := s.isIn [stRECOVERY, stHOLDUP]

/-- What channel `c` drives (R292 to R296). -/
def State.fioDrives (s : State) (c : Nat) : Bool :=
  decide (s.f (FIO.CHCFG_MODE c) = 2) && !s.on (FIOB.STAT_OUTOFF (c / 16)) && !s.fio.tripped.getLsbD c
    && !s.fio.fresh.getLsbD c
    && (if s.fioFollow then (s.rd FIO.OUT).getLsbD c
        else s.fioKeep && s.on (FIO.CHCFG_FS c) && (s.rd FIO.OUTACT).getLsbD c)

/-- A fault of channel `c` can last from this tick on at the earliest (R12, R293). -/
def State.fioSince (s : State) (c : Nat) : State :=
  { s with fio := { s.fio with since := s.fio.since.set (fun _ => 0) c s.now } }

/-- Bring FIO_OUTACT to what the outputs drive; a fault of an output lasts from its switching on at the earliest. -/
def State.fioUpdate (s : State) : State :=
  let act : Nat := (List.range 32).foldl (fun w c => if s.fioDrives c then w + 2 ^ c else w) 0
  let on_ := (List.range 32).filter (fun c => act.testBit c && !(s.rd FIO.OUTACT).getLsbD c)
  (on_.foldl State.fioSince s).wrN FIO.OUTACT act

/-- The level of input `c` in FIO_IN: INV inverts, a wire break reads 0 (R291, R293). -/
def State.fioIn (s : State) (c : Nat) (level : Bool) : State :=
  s.flag ⟨FIO.IN, c, 1⟩ ((level != s.on (FIO.CHCFG_INV c)) && !s.on ⟨FIO.CHFLT, c, 1⟩)

/-- The level of input `c` in FIO_IN after `f`; a change may trigger a capture (R304). -/
def State.fioInBy (s : State) (c : Nat) (f : State → State) : State :=
  let old := s.on ⟨FIO.IN, c, 1⟩
  let s := f s
  let now := s.on ⟨FIO.IN, c, 1⟩
  if old = now then s
  else s.sched 0 (.capTrigger (.ext (Fin.ofNat 33 c) now) (s.stampNs 0) 0 (BitVec.ofNat 8 (s.stampWc 0)))

/-- Does a write of FIO_CHCFGc start the wire-break detection of an input? -/
def State.fioBreakStarts (s : State) (c : Nat) (v : Word) : Bool :=
  decide (getBits 0 2 v = 1) && v.getLsbD 6 && !(decide (s.f (FIO.CHCFG_MODE c) = 1) && s.on (FIO.CHCFG_WB_EN c))

/-- A write of FIO_CHCFGc (R290); INV of an input takes effect at once, and a channel that leaves INPUT starts its filter
again (R291). A MODE of 0b11 is ignored as R11 states; the FIO registers hold no ERR_ARG bit that it
could set (DESIGN CHOICE, log entry 111). -/
def State.fioCfgWrite (s : State) (c : Nat) (v : Word) : State :=
  if getBits 0 2 v = 3 then s
  else
    let old := s.f (FIO.CHCFG_MODE c)
    let new := getBits 0 2 v
    let inv := s.on (FIO.CHCFG_INV c)
    let s := if s.fioBreakStarts c v then s.fioSince c else s
    let s := s.store (FIO.CHCFG c) v
    let bit := BitVec.ofNat 32 (2 ^ c)
    let s := if old ≠ 2 ∧ new = 2 then { s with fio := { s.fio with fresh := s.fio.fresh ||| bit } } else s
    let s := if new ≠ 1 then
        let s := { s with fio := { s.fio with level := s.fio.level &&& ~~~bit, cand := s.fio.cand &&& ~~~bit,
                                              cnt := s.fio.cnt.set (fun _ => 0) c 0 } }
        s.setF ⟨FIO.IN, c, 1⟩ 0
      else if old = 1 ∧ s.on (FIO.CHCFG_INV c) ≠ inv then s.fioInBy c (·.fioIn c (s.fio.level.getLsbD c))
      else s
    s.fioUpdate

/-- A write to the commanded outputs: `mask` names the bits written (R292). -/
def State.fioOut (s : State) (mask v : Word) : State :=
  let s := s.wr FIO.OUT ((s.rd FIO.OUT &&& ~~~mask) ||| (v &&& mask))
  State.fioUpdate { s with fio := { s.fio with fresh := s.fio.fresh &&& ~~~mask } }

/-- One sample of input `c`, 50 µs after the one before: (FILT + 1) × 0.25 ms of equal samples have passed with the
sample 5 × (FILT + 1) later than the first of them (R291, R298). -/
def State.fioSample (s : State) (c : Nat) (b : Bool) : State :=
  if s.f (FIO.CHCFG_MODE c) ≠ 1 ∨ s.on (FIOB.STAT_VALID (c / 16)) = false then s
  else
    let need := 5 * (s.f (FIO.CHCFG_FILT c) + 1) + 1
    let same := s.fio.cand.getLsbD c = b
    let n := if same then min (s.fio.cnt.get (fun _ => 0) c + 1) need else 1
    let bit := BitVec.ofNat 32 (2 ^ c)
    let put (w : Word) : Word := if b then w ||| bit else w &&& ~~~bit
    let s := { s with fio := { s.fio with cand := put s.fio.cand, cnt := s.fio.cnt.set (fun _ => 0) c n } }
    if n < need then s
    else s.fioInBy c (fun s => State.fioIn { s with fio := { s.fio with level := put s.fio.level } } c b)

/-- STAT.CHFAULT of both banks. -/
def State.fioChfault (s : State) : State :=
  [0, 1].foldl (fun t b => t.flag (FIOB.STAT_CHFAULT b) (decide (t.f ⟨FIO.CHFLT, 16 * b, 16⟩ ≠ 0))) s

/-- A channel fault (R293). -/
def State.fioFault (s : State) (c code : Nat) : State :=
  let out := decide (s.f (FIO.CHCFG_MODE c) = 2)
  let s := (s.raise ⟨FIO.CHFLT, c, 1⟩).setF ⟨FIO.CAUSE (c / 16), 2 * (c % 16), 2⟩ code
  let s := (s.raise (FIOB.STAT_FAULT (c / 16))).fioChfault
  let s := if out then
      State.fioUpdate { s with fio := { s.fio with tripped := s.fio.tripped ||| BitVec.ofNat 32 (2 ^ c) } }
    else s.setF ⟨FIO.IN, c, 1⟩ 0
  s.recordStat 0x11 code c 2 (FIOB.STAT (c / 16))

/-- A fault bit that a write cleared: the channel shows no cause any more. -/
def State.fioUnfault (s : State) (v : Word) (c : Nat) : State :=
  if v.getLsbD c && !s.on ⟨FIO.CHFLT, c, 1⟩ then
    let t := s.setF ⟨FIO.CAUSE (c / 16), 2 * (c % 16), 2⟩ 0
    if t.f (FIO.CHCFG_MODE c) = 1 then t.fioIn c (t.fio.level.getLsbD c) else t
  else s

/-- A write of FIO_CHFLT. -/
def State.fioChfltWrite (s : State) (v hw : Word) : State :=
  ((List.range 32).foldl (fun t c => t.fioUnfault v c) (s.store FIO.CHFLT v hw)).fioChfault

/-- OUT_REARM of bank `b` (R295). -/
def State.fioRearm (s : State) (b : Nat) : State :=
  if s.on (FIOB.STAT_SAG b) then s.raise (FIOB.STAT_REARM_REFUSED b)
  else
    let bank := BitVec.ofNat 32 (0xFFFF * 2 ^ (16 * b))
    let good := bank &&& ~~~ s.rd FIO.CHFLT
    let s := s.setF (FIOB.STAT_OUTOFF b) 0
    State.fioUpdate { s with fio := { s.fio with tripped := s.fio.tripped &&& ~~~good,
                                                 fresh := s.fio.fresh &&& ~~~good } }

/-- Does a cause of STAT.FAULT stand in bank `b`: its supply sags, or a channel fault stands (R293, log entry 112). -/
def State.fioCause (s : State) (b : Nat) : Bool := s.on (FIOB.STAT_SAG b) || s.on (FIOB.STAT_CHFAULT b)

/-- A write of FIO_Bb_STAT: while a cause stands, FAULT is set again within 50 µs (R293). -/
def State.fioStatWrite (s : State) (b : Nat) (v hw : Word) : State :=
  let s := s.store (FIOB.STAT b) v hw
  if v.getLsbD 0 && s.fioCause b then s.tickFree.due (s.freeNat % 12501) (.fioFault b) else s

/-- SAG of bank `b` changes in this tick. -/
def State.fioVf (s : State) (b : Nat) : State :=
  { s with fio := { s.fio with vfAt := s.fio.vfAt.set (fun _ => 0) b s.now } }

/-- Have `ticks` of TB_LOCAL passed since SAG of bank `b` changed (R12, R294)? -/
def State.fioVfDone (s : State) (b ticks : Nat) : Bool := decide (s.fio.vfAt.get (fun _ => 0) b + ticks ≤ s.now)

/-- The supply of bank `b` sags (R294). -/
def State.fioSag (s : State) (b : Nat) : State :=
  let s := (((s.fioVf b).raise (FIOB.STAT_FAULT b)).raise (FIOB.STAT_SAG b)).raise (FIOB.STAT_OUTOFF b)
  (s.setF (FIOB.STAT_VALID b) 0).fioUpdate

/-- The supply of bank `b` is back (R294): the inputs resume with fresh samples. -/
def State.fioRestore (s : State) (b : Nat) : State :=
  let s := (List.range 16).foldl (fun t i =>
    { t with fio := { t.fio with cnt := t.fio.cnt.set (fun _ => 0) (16 * b + i) 0 } }) (s.fioVf b)
  (s.setF (FIOB.STAT_SAG b) 0).setF (FIOB.STAT_VALID b) 1

/-- A write of an FIO register (R299). -/
def State.fioWrite (s : State) (off : Nat) (v hw : Word) : State :=
  let rel := off - FIO.CHCFG 0
  if rel < 0x80 then s.fioCfgWrite (rel / 4) v
  else if rel = 0x88 then s.fioOut 0xFFFFFFFF#32 v
  else if rel = 0x8C then s.fioOut v 0xFFFFFFFF#32
  else if rel = 0x90 then s.fioOut v 0#32
  else if rel = 0x94 then s.fioChfltWrite v hw
  else if rel < 0x100 then s
  else
    let b := (rel - 0x100) / 0x10
    if rel % 0x10 = 0 then s.fioStatWrite b v hw
    else if rel % 0x10 = 4 then (if v.getLsbD 0 then s.fioRearm b else s)
    else s

/-- The ticks of TB_LOCAL between two input samples, 50 µs, for a sag, 1 ms, and for a restored supply, 10 ms (R291,
R294). -/
def fioSampleTicks : Nat := 12500
def fioSagTicks : Nat := 250000
def fioBackTicks : Nat := 2500000

/-- Is an input sample due: 50 µs of TB_LOCAL since the last one (R12, R291)? -/
def State.fioSampleDue (s : State) : Bool := s.fio.sampleAt.all (fun t => decide (t + fioSampleTicks ≤ s.now))

/-- FIO_INPUT_SAMPLE: the levels at the terminals (R291); between two samples the terminals are not looked at (log entry
128). -/
def execFioInputSample (raw : Word) (s : State) : Out :=
  if s.fioSampleDue then
    ok ((List.range 32).foldl (fun t c => t.fioSample c (raw.getLsbD c))
      { s with fio := { s.fio with sampleAt := some s.now } })
  else ok s

/-- How long the cause `code` of a channel fault lasts, in ticks of TB_LOCAL (R293). -/
def fioFaultTicks (code : Nat) : Nat := if code = 1 then 1250000 else if code = 2 then 5000000 else 0

/-- FIO_CHANNEL_FAULT: overload and thermal shutdown of an output that drives, a wire break of one or of
an input with WB_EN, once it can have lasted its time (R293). -/
def execFioChannelFault (ch : Fin 32) (code : Fin 4) (s : State) : Out :=
  let mode := s.f (FIO.CHCFG_MODE ch)
  let may := if mode = 2 then (s.rd FIO.OUTACT).getLsbD ch && decide (code ≠ 0)
    else decide (mode = 1) && decide (code = 2) && s.on (FIO.CHCFG_WB_EN ch)
  let lasted := decide (s.fio.since.get (fun _ => 0) ch.val + fioFaultTicks code.val ≤ s.now)
  if may && lasted then ok (s.fioFault ch code) else ok s

/-- FIO_SUPPLY_SAG: VF of a bank in mV (R294). -/
def execFioSupplySag (b : Fin 2) (mv : BitVec 16) (s : State) : Out :=
  let s := s.setF (FIOB.VF_V b) mv.toNat
  if decide (mv.toNat < 18000) && s.fioVfDone b fioSagTicks then ok (s.fioSag b) else ok s

/-- FIO_SUPPLY_RESTORE (R294). -/
def execFioSupplyRestore (b : Fin 2) (mv : BitVec 16) (s : State) : Out :=
  let s := s.setF (FIOB.VF_V b) mv.toNat
  if decide (19200 ≤ mv.toNat) && s.fioVfDone b fioBackTicks then ok (s.fioRestore b) else ok s

end Sys2Proof.Machine
end

