-- ==== Sys2Proof/Machine/NmgProb.lean ====
section
/-! DEFINITION. Nutmeg's problem data (R176, R177, R186 to R196): structure blocks and their checks,
assembly of the value buffers, scaling, the symbolic factor, and the arithmetic of an iteration. -/

namespace Sys2Proof.Machine

/-- `n` bytes of the shared SRAM window as a number. -/
def State.sh (s : State) (a n : Nat) : Nat := s.load .shared a n

/-- The shared SRAM window (R26). -/
def windowBytes : Nat := 16777216

/-! ## Structure blocks (R186, R187) -/

/-- The header of a structure block. -/
structure NmgHdr where
  blk : Nat
  version : Nat
  mode : Nat
  rsv : Bool
  stag : Nat
  n : Nat
  m : Nat
  nnzp : Nat
  nnza : Nat
  pcol : Nat
  prow : Nat
  acol : Nat
  arow : Nat
  perm : Nat
  vtag : Nat
  rtag : Nat
  list : Nat
  vb0 : Nat
  vb1 : Nat
  ntmpl : Nat
  meas : Nat
  nmeas : Nat
  nclip : Nat
  clip : Nat
  crc : Nat
  deriving DecidableEq, Repr

/-- Read the header at `b`. -/
def State.nmgHdr (s : State) (b : Nat) : NmgHdr :=
  let w (o n : Nat) := s.sh (b + o) n
  { blk := b, version := w 0 4, mode := w 4 1,
    rsv := decide (w 5 3 ≠ 0) || decide (w 80 12 ≠ 0),
    stag := w 8 4, n := w 12 2, m := w 14 2, nnzp := w 16 4, nnza := w 20 4, pcol := w 24 4,
    prow := w 28 4, acol := w 32 4, arow := w 36 4, perm := w 40 4, vtag := w 44 4, rtag := w 48 4,
    list := w 52 4, vb0 := w 56 4, vb1 := w 60 4, ntmpl := w 64 4, meas := w 68 4, nmeas := w 72 2,
    nclip := w 74 2, clip := w 76 4, crc := w 92 4 }

def NmgHdr.native (h : NmgHdr) : Bool := decide (h.mode = 0)
def NmgHdr.vb (h : NmgHdr) (k : Nat) : Nat := if k = 0 then h.vb0 else h.vb1

/-- Values of a buffer: P, A, q, l, u (R188). -/
def NmgHdr.qAt (h : NmgHdr) : Nat := h.nnzp + h.nnza
def NmgHdr.lAt (h : NmgHdr) : Nat := h.qAt + h.n
def NmgHdr.uAt (h : NmgHdr) : Nat := h.lAt + h.m
def NmgHdr.values (h : NmgHdr) : Nat := h.uAt + h.m

/-- The length of a target array and where it starts (R189, R193). -/
def NmgHdr.target (h : NmgHdr) : Nat → Nat × Nat
  | 0 => (h.nnzp, 0)
  | 1 => (h.nnza, h.nnzp)
  | 2 => (h.n, h.qAt)
  | 3 => (h.m, h.lAt)
  | 4 => (h.m, h.uAt)
  | _ => (0, 0)

/-- Every array the header names: offset and length in bytes, in header order. -/
def NmgHdr.arrays (h : NmgHdr) : List (Nat × Nat) :=
  [(h.pcol, 4 * (h.n + 1)), (h.prow, 2 * h.nnzp), (h.acol, 4 * (h.n + 1)), (h.arow, 2 * h.nnza),
   (h.perm, 2 * (h.n + h.m)), (h.vtag, 2 * h.n), (h.rtag, 2 * h.m),
   (h.list, if h.native then 32 * h.ntmpl else 4 * h.values)]
  ++ (if h.native then [(h.meas, 8 * h.nmeas)] else []) ++ [(h.clip, 8 * h.nclip)]

/-- Does an array of the block reach beyond the window, so that no CRC can be formed (R182, R187)? -/
def NmgHdr.beyond (h : NmgHdr) : Bool := h.arrays.any (fun a => decide (windowBytes < h.blk + a.1 + a.2))

/-- Does a value buffer reach beyond the window (R182, R186)? -/
def NmgHdr.vbBeyond (h : NmgHdr) : Bool :=
  decide (windowBytes < h.vb0 + 4 * h.values) || decide (windowBytes < h.vb1 + 4 * h.values)

/-- One bit step of the CRC-32 of IEEE 802.3. -/
def crcBits (c : Nat) : Nat → Nat
  | 0 => c
  | k + 1 => crcBits (if c % 2 = 1 then Nat.xor (c / 2) 0xEDB88320 else c / 2) k

/-- The CRC-32 of a byte sequence, on the register `c`. -/
def crc32Step (c : Nat) (b : Byte) : Nat := crcBits (Nat.xor c b.toNat) 8

def crc32 (l : List Byte) : Nat := Nat.xor (l.foldl crc32Step 0xFFFFFFFF) 0xFFFFFFFF

/-- The bytes under the block's CRC: bytes 0 to 91, then every array. -/
def State.nmgBytes (s : State) (h : NmgHdr) : List Byte :=
  s.getBytes .shared h.blk 92 ++ h.arrays.flatMap (fun a => s.getBytes .shared (h.blk + a.1) a.2)

/-- Does an uncorrectable ECC error stand in the block (R8, R9)? -/
def State.nmgBlockEcc (s : State) (h : NmgHdr) : Bool :=
  s.eccIn .shared h.blk 96 true || h.arrays.any (fun a => s.eccIn .shared (h.blk + a.1) a.2 true)

def State.nmgCrcGood (s : State) (h : NmgHdr) : Bool := decide (crc32 (s.nmgBytes h) = h.crc)

/-- `k` numbers of `w` bytes from `a`. -/
def State.nums (s : State) (a w k : Nat) : List Nat := (List.range k).map (fun i => s.sh (a + w * i) w)

/-- Are the column pointers good: from 0 to `nnz`, never falling. -/
def colsGood (l : List Nat) (nnz : Nat) : Bool :=
  decide (l.head? = some 0) && decide (l.getLast? = some nnz) && ((l.zip l.tail).all (fun p => decide (p.1 ≤ p.2)))

/-- The entries of a matrix in CSC: (row, column), in storage order. -/
def cscEntries (cols rows : List Nat) : List (Nat × Nat) :=
  (List.range (cols.length - 1)).flatMap (fun j =>
    ((rows.drop (cols.getD j 0)).take (cols.getD (j + 1) 0 - cols.getD j 0)).map (fun i => (i, j)))

def State.pEnt (s : State) (h : NmgHdr) : List (Nat × Nat) :=
  cscEntries (s.nums (h.blk + h.pcol) 4 (h.n + 1)) (s.nums (h.blk + h.prow) 2 h.nnzp)

def State.aEnt (s : State) (h : NmgHdr) : List (Nat × Nat) :=
  cscEntries (s.nums (h.blk + h.acol) 4 (h.n + 1)) (s.nums (h.blk + h.arow) 2 h.nnza)

/-- Rows ascend within each column. -/
def ascending (l : List (Nat × Nat)) : Bool :=
  (l.zip l.tail).all (fun p => decide (p.1.2 ≠ p.2.2) || decide (p.1.1 < p.2.1))

/-- No tag other than 0xFFFF twice. -/
def tagsGood (l : List Nat) : Bool := decide ((l.filter (fun t => decide (t ≠ 0xFFFF))).Nodup)

/-- A template entry (R189). -/
structure NmgTmpl where
  dst : Nat
  tgt : Nat
  op : Nat
  rep : Nat
  ds : Nat
  i0 : Nat
  i1 : Nat
  ps : Nat
  rsv : Bool
  c : Nat
  c0 : Nat
  deriving DecidableEq, Repr

def State.nmgTmpl (s : State) (h : NmgHdr) (k : Nat) : NmgTmpl :=
  let w (o n : Nat) := s.sh (h.blk + h.list + 32 * k + o) n
  ⟨w 0 4, w 4 1, w 5 1, w 6 2, w 8 4, w 12 2, w 14 2, w 16 2,
   decide (w 18 2 ≠ 0) || decide (w 28 4 ≠ 0), w 20 4, w 24 4⟩

/-- Does a template entry name a target or a parameter outside its range. -/
def NmgTmpl.bad (t : NmgTmpl) (h : NmgHdr) : Bool :=
  decide (4 < t.tgt) || decide (5 < t.op) || t.rsv || decide ((h.target t.tgt).1 ≤ t.dst + t.rep * t.ds)
    || (decide (t.op ≠ 0) && decide (65535 < t.i0 + t.rep * t.ps))
    || ((decide (t.op = 2) || decide (t.op = 3) || decide (t.op = 5)) && decide (65535 < t.i1 + t.rep * t.ps))

/-- Measurement entries (R190): DSTP, KIND, INDEX, reserved bytes. -/
def State.nmgMeas (s : State) (h : NmgHdr) (k : Nat) : Nat × Nat × Nat × Bool :=
  let w (o n : Nat) := s.sh (h.blk + h.meas + 8 * k + o) n
  (w 0 2, w 2 1, w 4 2, decide (w 3 1 ≠ 0) || decide (w 6 2 ≠ 0))

def measBad (e : Nat × Nat × Nat × Bool) : Bool :=
  decide (4095 < e.1) || decide (2 < e.2.1) || e.2.2.2
    || decide ((if e.2.1 = 2 then 15 else 255) < e.2.2.1)

/-- Clip entries (R191): row, arm, factor, reserved byte. -/
def State.nmgClip (s : State) (h : NmgHdr) (k : Nat) : Nat × Nat × Nat × Bool :=
  let w (o n : Nat) := s.sh (h.blk + h.clip + 8 * k + o) n
  (w 0 2, w 2 1, w 4 4, decide (w 3 1 ≠ 0))

def clipBad (h : NmgHdr) (e : Nat × Nat × Nat × Bool) : Bool :=
  decide (h.m ≤ e.1) || decide (15 < e.2.1) || e.2.2.2 ||
    (match f32val (BitVec.ofNat 32 e.2.2.1) with
      | some v => decide (v ≤ 0)
      | none => true)

/-- Does the content of the block break R177 or R187. -/
def State.nmgBlockBad (s : State) (h : NmgHdr) : Bool :=
  let cols (o : Nat) := s.nums (h.blk + o) 4 (h.n + 1)
  let perm := s.nums (h.blk + h.perm) 2 (h.n + h.m)
  decide (h.version ≠ 1) || decide (1 < h.mode) || h.rsv
    || decide (h.n = 0) || decide (4096 < h.n) || decide (h.m = 0) || decide (12288 < h.m)
    || decide (16384 < h.n + h.m) || decide (262144 < h.nnzp + h.nnza) || decide (65536 < h.ntmpl)
    || (!h.native && decide (h.ntmpl ≠ 0)) || decide (4096 < h.nmeas) || decide (12288 < h.nclip)
    || (h.arrays.any (fun a => decide (a.1 % 4 ≠ 0))) || decide (h.vb0 % 64 ≠ 0) || decide (h.vb1 % 64 ≠ 0)
    || !colsGood (cols h.pcol) h.nnzp || !colsGood (cols h.acol) h.nnza
    || (s.pEnt h).any (fun e => decide (e.2 < e.1)) || (s.aEnt h).any (fun e => decide (h.m ≤ e.1))
    || !ascending (s.pEnt h) || !ascending (s.aEnt h)
    || perm.any (fun i => decide (h.n + h.m ≤ i)) || !decide perm.Nodup
    || !tagsGood (s.nums (h.blk + h.vtag) 2 h.n) || !tagsGood (s.nums (h.blk + h.rtag) 2 h.m)
    || (h.native && ((List.range h.ntmpl).any (fun k => (s.nmgTmpl h k).bad h)
        || decide (1048576 < ((List.range h.ntmpl).map (fun k => (s.nmgTmpl h k).rep + 1)).foldl (· + ·) 0)
        || (List.range h.nmeas).any (fun k => measBad (s.nmgMeas h k))))
    || (List.range h.nclip).any (fun k => clipBad h (s.nmgClip h k))

/-! ## Values as binary32 -/

def f32fma (a b c : Nat) : Nat := (fmt32.fma 0 (fmt32.un a) (fmt32.un b) (fmt32.un c)).bits
def f32finite (a : Nat) : Bool := (f32val (BitVec.ofNat 32 a)).isSome
def f32isNan (a : Nat) : Bool := (fmt32.un a).isNan
def f32rat (a : Nat) : Rat := (f32val (BitVec.ofNat 32 a)).getD 0
def f32inf (neg : Bool) : Nat := if neg then 0xFF800000 else 0x7F800000
def pow2r (k : Int) : Rat := if 0 ≤ k then (2 ^ k.toNat : Nat) else 1 / (2 ^ (-k).toNat : Nat)

/-- A value times a power of 2; infinities stay. -/
def f32scale (a : Nat) (k : Int) : Nat := if f32finite a then fmt32.ofRat (f32rat a * pow2r k) else a

/-- A bound as a number: none from 10^20 on (R176). -/
def boundOf (a : Nat) : Option Rat :=
  match f32val (BitVec.ofNat 32 a) with
  | some v => if absR v < 100000000000000000000 then some v else none
  | none => none

/-! ## Assembly (R188 to R193) -/

def State.vGet (s : State) (buf i : Nat) : Nat := s.sh (buf + 4 * i) 4
def State.vPut (s : State) (buf i v : Nat) : State := s.put .shared (buf + 4 * i) 4 v

/-- Saffron's present SLS limit of arm `a`, as a binary32 word; none where no limit applies (R260). -/
def State.slsLimit (s : State) (a : Nat) : Option Nat :=
  let v := (s.rd (SAFA.VLIM a)).toNat
  if f32lt v 0x7149F2CA then some v else none

/-- The measured value of a joint in the planner's units (R190, R228). What a joint outside the
snapshot gives is open: a free value. -/
def State.jointMeas (s : State) (vel : Bool) (j : Nat) : Nat :=
  let scl := f32rat (s.rd (PLCJ.JSCL j)).toNat
  match s.snap.find? (fun e => decide (e.j = j)) with
  | some e =>
    if scl = 0 then (Config.freeWord (s.free + j)).toNat
    else if vel then fmt32.ofRat ((e.vel : Rat) / 16 / scl)
    else fmt32.ofRat (((e.pos : Rat) / 65536 - s.rdI (PLCJ.JOFS j)) / scl)
  | none => (Config.freeWord (s.free + j)).toNat

/-- What a measurement entry fills in. -/
def State.measWord (s : State) (kind idx : Nat) : Nat :=
  match kind with
  | 0 => s.jointMeas false idx
  | 1 => s.jointMeas true idx
  | _ => (s.slsLimit idx).getD 0x7149F2CA

/-- Parameter word `i` (R190). -/
def State.nmgParam (s : State) (h : NmgHdr) (src len i : Nat) : Nat :=
  if i < 61440 then (if i < len then s.sh (src + 4 * i) 4 else 0)
  else
    match ((List.range h.nmeas).filter (fun k => decide ((s.nmgMeas h k).1 = i - 61440))).getLast? with
    | some k => s.measWord (s.nmgMeas h k).2.1 (s.nmgMeas h k).2.2.1
    | none => 0

/-- Instance `r` of a template entry (R189). -/
def State.tmplRun (s : State) (h : NmgHdr) (buf : Nat) (p : Nat → Nat) (t : NmgTmpl) (r : Nat) : State :=
  let at_ := (h.target t.tgt).2 + t.dst + r * t.ds
  let a := p (t.i0 + r * t.ps)
  let b := p (t.i1 + r * t.ps)
  let v := match t.op with
    | 0 => t.c0
    | 1 => f32fma t.c a t.c0
    | 2 => f32fma t.c (f32sub a b) t.c0
    | 3 => f32fma (f32mul t.c a) b t.c0
    | 4 => f32fma t.c a (s.vGet buf at_)
    | _ => f32fma (f32mul t.c a) b (s.vGet buf at_)
  s.vPut buf at_ v

/-- Assemble a NATIVE problem into the buffer at `buf` (R188 to R190). -/
def State.asmNative (s : State) (h : NmgHdr) (buf src len : Nat) : State :=
  let p (i : Nat) : Nat := s.nmgParam h src len i
  let s0 := (List.range h.values).foldl (fun t i =>
    t.vPut buf i (if i < h.lAt then 0 else f32inf (decide (i < h.uAt)))) s
  (List.range h.ntmpl).foldl (fun t k =>
    let e := s.nmgTmpl h k
    (List.range (e.rep + 1)).foldl (fun t r => t.tmplRun h buf p e r) t) s0

/-- The first parameter word that is not finite (R206). -/
def State.paramBad (s : State) (h : NmgHdr) (src len : Nat) : Option Nat :=
  ((List.range len) ++ (List.range h.nmeas).map (fun k => 61440 + (s.nmgMeas h k).1)).find?
    (fun i => !f32finite (s.nmgParam h src len i))

/-- A change entry (R193): index, target, reserved bits, value. -/
def State.nmgChange (s : State) (src k : Nat) : Nat × Nat × Bool × Nat :=
  let w := s.sh (src + 8 * k) 4
  (w % 2 ^ 24, w / 2 ^ 24 % 8, decide (w / 2 ^ 27 ≠ 0), s.sh (src + 8 * k + 4) 4)

def State.changeBad (s : State) (h : NmgHdr) (src k : Nat) : Bool :=
  let e := s.nmgChange src k
  decide (4 < e.2.1) || e.2.2.1 || decide ((h.target e.2.1).1 ≤ e.1)

/-- Copy a value buffer. -/
def State.vCopy (s : State) (h : NmgHdr) (dst src : Nat) : State :=
  if dst = src then s
  else (List.range h.values).foldl (fun t i => t.vPut dst i (s.vGet src i)) s

/-- Assemble a CHANGED problem (R193). -/
def State.asmChanged (s : State) (h : NmgHdr) (buf old src len : Nat) : State :=
  (List.range len).foldl (fun t k =>
    let e := s.nmgChange src k
    t.vPut buf ((h.target e.2.1).2 + e.1) e.2.2.2) (s.vCopy h buf old)

/-- One clip entry (R191). -/
def State.clipRun (s : State) (h : NmgHdr) (buf k : Nat) : State × Bool :=
  let e := s.nmgClip h k
  match s.slsLimit e.2.1 with
  | none => (s, false)
  | some v =>
    let fv := f32mul e.2.2.1 v
    let l := s.vGet buf (h.lAt + e.1)
    let u := s.vGet buf (h.uAt + e.1)
    let setU := f32lt fv u
    let setL := f32lt l (f32neg fv)
    let u1 := if setU then fv else u
    let l1 := if setL then f32neg fv else l
    let (l2, u2) := if f32lt u1 l1 then (if setU && !setL then (u1, u1) else if setL && !setU then (l1, l1) else (l1, u1))
      else (l1, u1)
    ((s.vPut buf (h.lAt + e.1) l2).vPut buf (h.uAt + e.1) u2, true)

/-- The whole clip list. -/
def State.clipAll (s : State) (h : NmgHdr) (buf : Nat) : State × Bool :=
  (List.range h.nclip).foldl (fun (t : State × Bool) k =>
    let r := t.1.clipRun h buf k
    (r.1, t.2 || r.2)) (s, false)

/-- The first value of a buffer that is not finite; an infinite bound is one (R176, R206). -/
def State.valueBad (s : State) (h : NmgHdr) (buf : Nat) : Option Nat :=
  (List.range h.values).find? (fun i =>
    let v := s.vGet buf i
    if i < h.lAt then !f32finite v else f32isNan v)

/-- Rows with l > u, ascending (R192). -/
def State.crossed (s : State) (h : NmgHdr) (buf : Nat) : List Nat :=
  (List.range h.m).filter (fun i => f32lt (s.vGet buf (h.uAt + i)) (s.vGet buf (h.lAt + i)))

/-! ## The problem as numbers -/

/-- An assembled problem: entries (row, column, value), q, bounds (none: infinite). -/
structure Prob where
  n : Nat
  m : Nat
  p : List (Nat × Nat × Rat)
  a : List (Nat × Nat × Rat)
  q : List Rat
  l : List (Option Rat)
  u : List (Option Rat)
  deriving DecidableEq, Repr

def State.prob (s : State) (h : NmgHdr) (buf : Nat) : Prob :=
  let v (i : Nat) : Rat := f32rat (s.vGet buf i)
  let ents (l : List (Nat × Nat)) (o : Nat) := l.zipIdx.map (fun e => (e.1.1, e.1.2, v (o + e.2)))
  { n := h.n, m := h.m, p := ents (s.pEnt h) 0, a := ents (s.aEnt h) h.nnzp,
    q := (List.range h.n).map (fun i => v (h.qAt + i)),
    l := (List.range h.m).map (fun i => boundOf (s.vGet buf (h.lAt + i))),
    u := (List.range h.m).map (fun i => boundOf (s.vGet buf (h.uAt + i))) }

/-! ## Sums in the order the hardware takes (R176, R196) -/

/-- Totals added up as a binary tree; `key` says where it splits. -/
def treeSum {α : Type} (add : α → α → α) (zero : α) (key : Nat → Nat) : Nat → Nat → List α → α
  | _, _, [] => zero
  | _, _, [x] => x
  | 0, _, x :: _ => x
  | k + 1, at_, l =>
    let c := key at_ % (l.length - 1) + 1
    add (treeSum add zero key k (2 * at_ + 1) (l.take c)) (treeSum add zero key k (2 * at_ + 2) (l.drop c))

/-- The inner product of pairs: terms go to up to 512 accumulators (the lanes of the array), each accumulator
takes its terms one after the other, and the totals are added up; who goes where and in which order, the numbers
`key` say, which the manual leaves open (log entry 57). -/
def laneSum {α : Type} (fma : α → α → α → α) (add : α → α → α) (zero : α) (key : Nat → Nat) (l : List (α × α)) : α :=
  let keyed := (l.zipIdx.map (fun e => (key e.2, e.1))).mergeSort (fun a b => decide (a.1 / 512 ≤ b.1 / 512))
  let lane (k : Nat) : List (α × α) := (keyed.filter (fun e => decide (e.1 % 512 = k))).map (·.2)
  let totals := ((List.range 512).filter (fun k => !(lane k).isEmpty)).map
    (fun k => (lane k).foldl (fun acc t => fma t.1 t.2 acc) zero)
  treeSum add zero key l.length l.length totals

/-- The keys of sum `sum` of the piece of work `t`. -/
def keyOf (t sum : Nat) : Nat → Nat := Config.sumKey t sum

/-- The inner product of binary32 words on the array's FMA lanes. -/
def dot32 (key : Nat → Nat) (l : List (Nat × Nat)) : Nat := laneSum f32fma f32add 0 key l

/-- A value rounded to binary64. -/
def r64 (x : Rat) : Rat := fmt64.val (fmt64.ofRat x)

/-- The inner product in the fp64 unit; whether a product is rounded before it is added is open as the order
is. -/
def dot64 (key : Nat → Nat) (l : List (Rat × Rat)) : Rat :=
  let fused := decide (key l.length % 2 = 1)
  laneSum (fun a b c => if fused then r64 (a * b + c) else r64 (r64 (a * b) + c)) (fun a b => r64 (a + b)) 0 key l

def maxR (l : List Rat) : Rat := l.foldl (fun a b => if a < b then b else a) 0
def normR (l : List Rat) : Rat := maxR (l.map absR)
def atR (l : List Rat) (i : Nat) : Rat := l.getD i 0

/-- The terms of row `r` of P·x, P given as its upper triangle. -/
def Prob.termsP (b : Prob) (x : List Rat) (r : Nat) : List (Rat × Rat) :=
  b.p.flatMap (fun e => (if e.1 = r then [(e.2.2, atR x e.2.1)] else [])
    ++ (if e.2.1 = r ∧ e.1 ≠ e.2.1 then [(e.2.2, atR x e.1)] else []))

/-- The terms of row `r` of A·x. -/
def Prob.termsA (b : Prob) (x : List Rat) (r : Nat) : List (Rat × Rat) :=
  b.a.filterMap (fun e => if e.1 = r then some (e.2.2, atR x e.2.1) else none)

/-- The terms of row `c` of Aᵀ·y. -/
def Prob.termsAt (b : Prob) (y : List Rat) (c : Nat) : List (Rat × Rat) :=
  b.a.filterMap (fun e => if e.2.1 = c then some (e.2.2, atR y e.1) else none)

/-- P·x, A·x and Aᵀ·y in the fp64 unit, sums of the piece of work `t` numbered from `o`. -/
def Prob.mulP (b : Prob) (t o : Nat) (x : List Rat) : List Rat :=
  (List.range b.n).map (fun r => dot64 (keyOf t (o + r)) (b.termsP x r))
def Prob.mulA (b : Prob) (t o : Nat) (x : List Rat) : List Rat :=
  (List.range b.m).map (fun r => dot64 (keyOf t (o + r)) (b.termsA x r))
def Prob.mulAt (b : Prob) (t o : Nat) (y : List Rat) : List Rat :=
  (List.range b.n).map (fun c => dot64 (keyOf t (o + c)) (b.termsAt y c))

def zipR (f : Rat → Rat → Rat) (a b : List Rat) : List Rat := (a.zip b).map (fun e => f e.1 e.2)
def sub64 (a b : List Rat) : List Rat := zipR (fun x y => r64 (x - y)) a b
def add64 (a b : List Rat) : List Rat := zipR (fun x y => r64 (x + y)) a b

/-! ## Scaling (R194) -/

/-- The power of 2 nearest to 1/√x, for x > 0. -/
def invSqrtPow (x : Rat) : Int :=
  let e := log2q x.num.natAbs x.den                     -- 2^e ≤ x < 2^(e+1)
  let k : Int := -((e + 1) / 2)                         -- 2^k ≤ 1/√x roughly
  let good (k : Int) : Bool := decide (x * pow2r (2 * k) ≤ 1)
  let k0 := if good (k + 1) then k + 1 else if good k then k else k - 1
  if x * pow2r (2 * k0) * 9 < 4 then k0 + 1 else k0     -- 1/√x above 1.5 · 2^k0

/-- The scale factor of one column or row from the magnitudes of its entries. -/
def scaleStep (l : List Rat) : Int :=
  let nz := l.filter (fun v => decide (v ≠ 0))
  match nz with
  | [] => 0
  | v :: vs => invSqrtPow (vs.foldl (fun a b => if a < b then b else a) v * vs.foldl (fun a b => if b < a then b else a) v)

def atI (l : List Int) (i : Nat) : Int := l.getD i 0

/-- One pass over the KKT matrix as scaled so far. -/
def Prob.scalePass (b : Prob) (d e : List Int) : List Int × List Int :=
  let pv := b.p.map (fun x => (x.1, x.2.1, absR x.2.2 * pow2r (atI d x.1 + atI d x.2.1)))
  let av := b.a.map (fun x => (x.1, x.2.1, absR x.2.2 * pow2r (atI e x.1 + atI d x.2.1)))
  let d' := (List.range b.n).map (fun j => atI d j + scaleStep
    ((pv.filter (fun x => decide (x.1 = j) || decide (x.2.1 = j))).map (·.2.2)
      ++ (av.filter (fun x => decide (x.2.1 = j))).map (·.2.2)))
  let e' := (List.range b.m).map (fun i => atI e i + scaleStep
    ((av.filter (fun x => decide (x.1 = i))).map (·.2.2)))
  (d', e')

def Prob.scalePasses (b : Prob) : Nat → List Int × List Int → List Int × List Int
  | 0, r => r
  | k + 1, r => b.scalePasses k (b.scalePass r.1 r.2)

/-- The cost scale: the largest magnitude in D·P·D and D·q comes into 0.5 to 1. -/
def Prob.costScale (b : Prob) (d : List Int) : Int :=
  let mx := maxR (b.p.map (fun x => absR x.2.2 * pow2r (atI d x.1 + atI d x.2.1))
    ++ b.q.zipIdx.map (fun x => absR x.1 * pow2r (atI d x.2)))
  if mx = 0 then 0 else -(log2q mx.num.natAbs mx.den) - 1

/-- The scaled problem. -/
def Prob.scaled (b : Prob) (d e : List Int) (c : Int) : Prob :=
  { b with p := b.p.map (fun x => (x.1, x.2.1, x.2.2 * pow2r (c + atI d x.1 + atI d x.2.1))),
           a := b.a.map (fun x => (x.1, x.2.1, x.2.2 * pow2r (atI e x.1 + atI d x.2.1))),
           q := b.q.zipIdx.map (fun x => x.1 * pow2r (c + atI d x.2)),
           l := b.l.zipIdx.map (fun x => x.1.map (· * pow2r (atI e x.2))),
           u := b.u.zipIdx.map (fun x => x.1.map (· * pow2r (atI e x.2))) }

/-! ## The factor (R177, R202) -/

/-- Insert into an ascending list without repeats. -/
def insNat (x : Nat) : List Nat → List Nat
  | [] => [x]
  | y :: ys => if x < y then x :: y :: ys else if x = y then y :: ys else y :: insNat x ys

/-- The rows of L below the diagonal, column by column, from the pattern of the KKT matrix under PERM: a column
takes its own entries and those of its children in the elimination tree. -/
def symbolicCols (dim : Nat) (pat : List (Nat × Nat)) : List (List Nat) :=
  (List.range dim).foldl (fun (acc : List (List Nat)) j =>
    let own := pat.foldl (fun l e =>
      let hi := max e.1 e.2
      let lo := min e.1 e.2
      if lo = j ∧ hi ≠ j then insNat hi l else l) []
    let kids := acc.filter (fun c => decide (c.head? = some j))
    acc ++ [kids.foldl (fun l c => c.tail.foldl (fun l x => insNat x l) l) own]) []

/-- nnz(L) below the diagonal. -/
def symbolicNnz (dim : Nat) (pat : List (Nat × Nat)) : Nat :=
  ((symbolicCols dim pat).map List.length).foldl (· + ·) 0

/-- The pattern of the KKT matrix under PERM. -/
def State.kktPattern (s : State) (h : NmgHdr) : List (Nat × Nat) :=
  let perm := s.nums (h.blk + h.perm) 2 (h.n + h.m)
  let pos (i : Nat) : Nat := (perm.idxOf? i).getD 0
  (s.pEnt h).map (fun e => (pos e.1, pos e.2)) ++ (s.aEnt h).map (fun e => (pos (h.n + e.1), pos e.2))

/-- ρ_i of every row (R195): from the bounds at factorisation. -/
def Prob.rhos (b : Prob) (rho rhoeq : Nat) : List Nat :=
  (b.l.zip b.u).map (fun e =>
    match e.1, e.2 with
    | none, none => f32scale rho (-24)
    | some l, some u => if l = u then f32mul rho rhoeq else rho
    | _, _ => rho)

/-- Are all finite. -/
def allFinite (l : List Nat) : Bool := l.all f32finite

end Sys2Proof.Machine
end

