-- ==== Sys2Proof/Machine/NmgKkt.lean ====
section
/-! DEFINITION. Nutmeg's KKT system (R178, R195, R196, R202): the matrix of a scaled problem, its LDLᵀ
factorisation in fp32, the factor in the factor SRAM, and the solution with its refinement. The order of a sum
is open (log entry 57); every operation is rounded as its format says. -/

namespace Sys2Proof.Machine

/-! ## The KKT matrix (R196) -/

/-- The lower triangle of K in binary32, as (row, column, value): P_s + σI, A_s and −1/ρ. -/
def Prob.kkt32 (sc : Prob) (sigma : Nat) (rhos : List Nat) : List (Nat × Nat × Nat) :=
  let w (x : Rat) : Nat := fmt32.ofRat x
  let pDiag (j : Nat) : Nat := ((sc.p.find? (fun e => decide (e.1 = j) && decide (e.2.1 = j))).map (fun e => w e.2.2)).getD 0
  (List.range sc.n).map (fun j => (j, j, f32add (pDiag j) sigma))
    ++ (sc.p.filter (fun e => decide (e.1 ≠ e.2.1))).map (fun e => (e.2.1, e.1, w e.2.2))
    ++ sc.a.map (fun e => (sc.n + e.1, e.2.1, w e.2.2))
    ++ rhos.zipIdx.map (fun e => (sc.n + e.2, sc.n + e.2, f32neg (f32div (f32int 1) e.1)))

/-- τ := 2^-24 × max|K_ii| (R202). -/
def kktTau (k : List (Nat × Nat × Nat)) : Rat :=
  pow2r (-24) * maxR ((k.filter (fun e => decide (e.1 = e.2.1))).map (fun e => absR (f32rat e.2.2)))

/-- An entry of a symmetric matrix given as its lower triangle. -/
def symAt (k : List (Nat × Nat × Nat)) (i j : Nat) : Nat :=
  ((k.find? (fun e => decide (e.1 = max i j) && decide (e.2.1 = min i j))).map (·.2.2)).getD 0

/-! ## The factorisation (R202) -/

/-- A factor under construction: D and the columns of L found so far as (row, value), pivots replaced, the KKT
index of the first, and whether a value is not finite. -/
structure LdlRes where
  d : List Nat
  cols : List (List (Nat × Nat))
  cnt : Nat
  first : Nat
  bad : Bool
  deriving DecidableEq, Repr

/-- The value of L in a column at a row. -/
def colAt (c : List (Nat × Nat)) (i : Nat) : Option Nat := (c.find? (fun e => decide (e.1 = i))).map (·.2)

/-- Replace a pivot below τ by ±δ; for ±0 the sign is + for a variable and − for a row (R202). -/
def pivotOf (n idx d : Nat) (tau delta : Rat) : Nat × Bool :=
  if f32finite d = true ∧ absR (f32rat d) < tau then
    let neg := if f32rat d = 0 then decide (n ≤ idx) else decide (f32rat d < 0)
    (fmt32.ofRat (if neg then -delta else delta), true)
  else (d, false)

/-- Column `j` of L and D_jj: K_ij less the products of the columns before, over D_jj. -/
def ldlStep (k : List (Nat × Nat × Nat)) (perm : List Nat) (n t : Nat) (tau delta : Rat) (pat : List (List Nat))
    (r : LdlRes) (j : Nat) : LdlRes :=
  let at_ (i : Nat) : Nat := perm.getD i 0
  let before := r.d.zip r.cols
  let one := f32int 1
  let terms (i : Nat) : List (Nat × Nat) := before.filterMap (fun e =>
    match colAt e.2 i, colAt e.2 j with
    | some a, some b => if keyOf t (2 ^ 30 + j) i % 2 = 0 then some (f32neg (f32mul a e.1), b)
        else some (f32neg (f32mul b e.1), a)
    | _, _ => none)
  let entry (i : Nat) : Nat := dot32 (keyOf t (j * 2 ^ 14 + i)) ((one, symAt k (at_ i) (at_ j)) :: terms i)
  let (d, hit) := pivotOf n (at_ j) (entry j) tau delta
  let col := (pat.getD j []).map (fun i => (i, f32div (entry i) d))
  { d := r.d ++ [d], cols := r.cols ++ [col], cnt := r.cnt + hit.toNat,
    first := if hit && decide (r.cnt = 0) then at_ j else r.first,
    bad := r.bad || !f32finite d || col.any (fun e => !f32finite e.2) }

/-- K = LDLᵀ under PERM (R202), piece of work `t`. -/
def ldl (k : List (Nat × Nat × Nat)) (perm : List Nat) (n t regExp : Nat) (pat : List (List Nat)) : LdlRes :=
  let tau := kktTau k
  (List.range perm.length).foldl (ldlStep k perm n t tau (tau * (2 ^ regExp : Nat)) pat) ⟨[], [], 0, 0, false⟩

/-! ## The factor SRAM (R178) -/

/-- Where the parts of slot `k` lie: L values, row indices, then column pointers, D, PERM and its inverse, the
elimination tree and the scaling vectors (the offsets after the first two are the model's, log entry 106). -/
def facBase (k : Nat) : Nat := k * 0x700000
def facRows (k : Nat) : Nat := facBase k + 0x400000
def facCols (k : Nat) : Nat := facBase k + 0x600000
def facD (k : Nat) : Nat := facBase k + 0x620000
def facPerm (k : Nat) : Nat := facBase k + 0x640000
def facInv (k : Nat) : Nat := facBase k + 0x650000
def facTree (k : Nat) : Nat := facBase k + 0x660000
def facScale (k : Nat) : Nat := facBase k + 0x670000

/-- Iterate or work vector `v` of 16,384 words. -/
def facVec (v : Nat) : Nat := 0xE00000 + v * 0x10000

/-- Write numbers of `w` bytes into the factor SRAM. -/
def State.facPut (s : State) (a w : Nat) (l : List Nat) : State :=
  s.putBytes .factor a (l.flatMap (fun v => leBytes v w))

/-- Read `n` numbers of `w` bytes from the factor SRAM. -/
def State.facGet (s : State) (a w n : Nat) : List Nat := (List.range n).map (fun i => s.load .factor (a + w * i) w)

/-- Lay a factor out in slot `k`. -/
def State.facStore (s : State) (k : Nat) (perm : List Nat) (r : LdlRes) (scale : List Nat) : State :=
  let dim := perm.length
  let s := s.facPut (facBase k) 4 (r.cols.flatMap (fun c => c.map (·.2)))
  let s := s.facPut (facRows k) 2 (r.cols.flatMap (fun c => c.map (·.1)))
  let s := s.facPut (facCols k) 4 ((List.range (dim + 1)).map (fun j => ((r.cols.take j).map List.length).foldl (· + ·) 0))
  let s := s.facPut (facD k) 4 r.d
  let s := s.facPut (facPerm k) 2 perm
  let s := s.facPut (facInv k) 2 ((List.range dim).map (fun i => (perm.idxOf? i).getD 0))
  let s := s.facPut (facTree k) 2 (r.cols.map (fun c => (c.head?.map (·.1)).getD 0xFFFF))
  s.facPut (facScale k) 4 scale

/-- Column `j` of L in slot `k`. -/
def State.facCol (s : State) (k j : Nat) : List (Nat × Nat) :=
  let a := s.load .factor (facCols k + 4 * j) 4
  let b := s.load .factor (facCols k + 4 * j + 4) 4
  (s.facGet (facRows k + 2 * a) 2 (b - a)).zip (s.facGet (facBase k + 4 * a) 4 (b - a))

/-! ## The solution (R196) -/

/-- factor_solve: L, D, L transposed and the permutation, in fp32; call `c` of the piece of work `t`. -/
def State.factorSolve (s : State) (k dim t c : Nat) (b : List Nat) : List Nat :=
  let perm := s.facGet (facPerm k) 2 dim
  let cols := (List.range dim).map (s.facCol k)
  let d := s.facGet (facD k) 4 dim
  let one := f32int 1
  let at_ (l : List Nat) (i : Nat) : Nat := l.getD i 0
  let sum (ph i : Nat) (l : List (Nat × Nat)) : Nat := dot32 (keyOf t (c * 2 ^ 18 + ph * 2 ^ 16 + i)) l
  let y := (List.range dim).foldl (fun (y : List Nat) i =>
    y ++ [sum 0 i ((one, at_ b (at_ perm i)) :: (cols.take i).zipIdx.filterMap (fun e =>
      (colAt e.1 i).map (fun v => (f32neg v, at_ y e.2))))]) []
  let z := (y.zip d).map (fun e => f32div e.1 e.2)
  let x := (List.range dim).foldr (fun i (x : List Nat) =>
    sum 1 i ((one, at_ z i) :: (cols.getD i []).map (fun e => (f32neg e.2, at_ x (e.1 - i - 1)))) :: x) []
  (List.range dim).map (fun j => at_ x ((perm.idxOf? j).getD 0))

/-- b − K·s in the fp64 unit, on the values of the present assembly (R196). -/
def Prob.kktRes (sc : Prob) (sigma : Nat) (rhos : List Nat) (t o : Nat) (b s : List Nat) : List Rat :=
  let x := (s.take sc.n).map f32rat
  let nu := (s.drop sc.n).map f32rat
  let b (i : Nat) : Rat := f32rat (b.getD i 0)
  let neg (l : List (Rat × Rat)) : List (Rat × Rat) := l.map (fun e => (-e.1, e.2))
  (List.range sc.n).map (fun j => dot64 (keyOf t (o + j))
      ((1, b j) :: neg (sc.termsP x j ++ [(f32rat sigma, atR x j)] ++ sc.termsAt nu j)))
    ++ (List.range sc.m).map (fun i => dot64 (keyOf t (o + sc.n + i))
      ((1, b (sc.n + i)) :: neg (sc.termsA x i)
        ++ [(r64 (1 / (if f32rat (rhos.getD i 0) = 0 then 1 else f32rat (rhos.getD i 0))), atR nu i)]))

/-- REFINE_N refinement steps (R196). -/
def State.refine (s : State) (sc : Prob) (k sigma : Nat) (rhos : List Nat) (t : Nat) (b : List Nat) :
    Nat → List Nat → List Nat
  | 0, sol => sol
  | n + 1, sol =>
    let res := (sc.kktRes sigma rhos t ((n + 2) * 2 ^ 20) b sol).map fmt32.ofRat
    s.refine sc k sigma rhos t b n
      ((sol.zip (s.factorSolve k (sc.n + sc.m) t (n + 1) res)).map (fun e => f32add e.1 e.2))

/-- kkt_solve with the factor of slot `k` (R196). -/
def State.kktSolve (s : State) (sc : Prob) (k sigma : Nat) (rhos : List Nat) (t : Nat) (b : List Nat) : List Nat :=
  s.refine sc k sigma rhos t b (s.f NMG.CFG_REFINE_N) (s.factorSolve k (sc.n + sc.m) t 0 b)

/-- ρ_f := ‖b − K s‖∞ / ‖b‖∞ for the final s (R196), where b ≠ 0. -/
def Prob.rhoF (sc : Prob) (sigma : Nat) (rhos : List Nat) (t : Nat) (b s : List Nat) : Rat :=
  let nb := normR (b.map f32rat)
  if nb = 0 then 0 else r64 (normR (sc.kktRes sigma rhos t (8 * 2 ^ 20) b s) / nb)

end Sys2Proof.Machine
end

