-- ==== Sys2Proof/Machine/Nmg.lean ====
section
/-! DEFINITION. Nutmeg's commands, builds and solves (R178 to R185, R187, R195 to R212). -/

namespace Sys2Proof.Machine

def slEMPTY : Nat := 0
def slBUILDING : Nat := 1
def slPENDING : Nat := 2
def slACTIVE : Nat := 3

def State.slotSt (s : State) (k : Nat) : Nat := s.f (NMG.SLOT_STAT_STATE k)
def State.setSlotSt (s : State) (k v : Nat) : State := s.setF (NMG.SLOT_STAT_STATE k) v
def State.slotTag (s : State) (k : Nat) : Nat := (s.rd (NMG.SLOT_TAG k)).toNat

def State.nmgSlot (s : State) (k : Nat) : NmgSlot := if k = 0 then s.nmg.s0 else s.nmg.s1

def State.setNmgSlot (s : State) (k : Nat) (u : NmgSlot) : State :=
  if k = 0 then { s with nmg := { s.nmg with s0 := u } } else { s with nmg := { s.nmg with s1 := u } }

/-- The slot in state `st`, if one is. -/
def State.slotIn (s : State) (st : Nat) : Option Nat := [0, 1].find? (fun k => decide (s.slotSt k = st))

/-- The read-only bits of NMG_STAT. -/
def State.nmgSync (s : State) : State :=
  let n := s.nmg
  let s := (s.flag NMG.STAT_BUSY n.run.isSome).flag NMG.STAT_BUILD n.build.isSome
  let s := (s.setF NMG.STAT_QLEN n.queue.length).flag NMG.STAT_WARM_HELD n.warm.isSome
  match s.slotIn slACTIVE with
  | some k => s.setF NMG.STAT_ACT_SLOT k
  | none => s

/-! ## Descriptors (R181) -/

/-- `n` bytes of the descriptor from byte `o`. -/
def NmgCmd.b (c : NmgCmd) (o n : Nat) : Nat := c.desc / 256 ^ o % 256 ^ n

def NmgCmd.op (c : NmgCmd) : Nat := c.b 0 1
def NmgCmd.slot (c : NmgCmd) : Nat := c.b 6 1
def NmgCmd.src (c : NmgCmd) : Nat := c.b 12 4
def NmgCmd.len (c : NmgCmd) : Nat := c.b 16 4
def NmgCmd.aux (c : NmgCmd) : Nat := c.b 20 4
def NmgCmd.out (c : NmgCmd) : Nat := c.b 24 4

/-- A completion of a command (R185): the descriptor, the token, the ring. -/
def State.nmgComplete (s : State) (c : NmgCmd) (res status iter gen : Nat) (final : Bool) : State :=
  let s := (((s.put .shared (c.ofs + 32) 1 res).put .shared (c.ofs + 33) 1 status).put .shared (c.ofs + 34) 2 iter).put
    .shared (c.ofs + 36) 4 gen
  let v := c.b 2 2 + res * 2 ^ 16 + status * 2 ^ 24
  let tag := c.b 4 2
  let s := if tag = 0 then s else s.token tag (BitVec.ofNat 32 v) 300
  s.complete c.via res v final

/-- A final completion of a command that does not run. -/
def State.nmgReject (s : State) (c : NmgCmd) (res : Nat) : State :=
  let s := if res = 6 then s.sysIllegal else s
  s.nmgComplete c res 0x0F 0 0 true

/-- The argument checks of a descriptor (R9, R181, R182): step 3, as far as no structure is needed. -/
def NmgCmd.badArg (c : NmgCmd) : Bool :=
  let tag := c.b 4 2
  let slotBad := !([0, 1, 15].contains c.slot)
  (decide (0xFF00 ≤ tag) && decide (tag ≤ 0xFF07)) || slotBad
    || (decide (c.op = 1) && decide (windowBytes < c.src + 96))
    || (decide (c.op = 2) && (decide (c.out % 64 ≠ 0) || decide (windowBytes < c.out + 128)
        || decide (4000 < c.b 28 2) || decide (65536 < c.len) || decide (windowBytes < c.src + 4 * c.len)))

/-! ## The queue (R180, R183) -/

/-- Which row runs the head of the queue. -/
def nmgRow (op : Nat) : Option Instr :=
  match op with
  | 1 => some .loadStruct
  | 2 => some .solve
  | 3 => some .refactor
  | _ => none

/-- The next command starts within 2 µs (R210), unless one runs; an unknown code completes. -/
def State.nmgNext (s : State) : State :=
  if s.nmg.run.isSome || s.nmg.started then s.nmgSync
  else
    match s.nmg.queue with
    | [] => s.nmgSync
    | c :: _ =>
      match nmgRow c.op with
      | some i =>
        let d := s.freeNat % 501
        (State.sched { s.tickFree with nmg := { s.nmg with started := true } } d i).nmgSync
      | none => s.nmgSync

/-- The command at the head leaves the queue. -/
def State.nmgPop (s : State) : State :=
  { s with nmg := { s.nmg with queue := s.nmg.queue.tail, started := false } }

/-! ## Builds (R187, R203, R204) -/

/-- A build starts in slot `k`. -/
def State.buildStart (s : State) (k kind : Nat) (cmds : List NmgCmd) (rho blk buf : Nat) (old : NmgSlot) :
    State :=
  let h := s.nmgHdr blk
  let s := (s.setSlotSt k slBUILDING).wrN (NMG.SLOT_TAG k) h.stag
  let s := ((s.setF (NMG.SLOT_STAT_KIND k) (if kind = 0 then 0 else 1)).setF (NMG.SLOT_STAT_NONFINITE k) 0).setF
    (NMG.SLOT_STAT_ECC_BAD k) 0
  let s := s.bumpMod (NMG.SLOT_STAT_GEN k)
  let s := s.setNmgSlot k { old with blk := blk, src := buf, rho := rho }
  let d := s.freeNat % 875001
  let s := { s.tickFree with nmg := { s.nmg with build := some ⟨k, kind, cmds, rho, blk, buf⟩ } }
  (s.sched d .nmgBuildEnd).nmgSync

/-- The result of a build goes to its commands, or as a token of its own (R185). -/
def State.buildReport (s : State) (b : NmgBuild) (res : Nat) : State :=
  let gen := s.f (NMG.SLOT_STAT_GEN b.slot)
  let s := b.cmds.foldl (fun t c => t.nmgComplete c res 0x0F 0 gen true) s
  let tag := s.f NMG.TAGS_BUILD_TAG
  if b.kind = 2 && b.cmds.isEmpty && decide (tag ≠ 0) then
    s.token tag (BitVec.ofNat 32 (gen + res * 2 ^ 16 + b.slot * 2 ^ 24)) 300
  else s

/-- The running build is abandoned: its slot becomes EMPTY (R183, R184, R208). -/
def State.buildDrop (s : State) : State :=
  match s.nmg.build with
  | none => s
  | some b =>
    let s := (s.cancel .nmgBuildEnd).setSlotSt b.slot slEMPTY
    let s := { s with nmg := { s.nmg with build := none } }
    let gen := s.f (NMG.SLOT_STAT_GEN b.slot)
    (b.cmds.foldl (fun t c => t.nmgComplete c 7 0x0F 0 gen true) s).nmgSync

/-- The buffer a refactorisation takes: the latest completed assembly, or the build's values (R204). -/
def NmgSlot.latest (u : NmgSlot) : Nat := u.last.getD u.src

/-- A refactorisation of the ACTIVE structure starts in the other slot (R203, R204). -/
def State.refacStart (s : State) (kind : Nat) (cmds : List NmgCmd) : State :=
  match s.slotIn slACTIVE with
  | none => s
  | some a =>
    let u := s.nmgSlot a
    let rho := s.nmg.wantRho.getD u.rho
    let s := s.setF NMG.STAT_REFAC_PEND 0
    let s := { s with nmg := { s.nmg with since := some 0, wantRho := none, pend := [] } }
    s.buildStart (1 - a) kind cmds rho u.blk u.latest u

/-- May a refactorisation start now (R203). -/
def State.refacCount (s : State) : Bool :=
  match s.nmg.since with
  | none => true
  | some n => decide (s.f NMG.CFG_REFAC_MIN ≤ n)

/-- Do builds run in the present module state (R182, R208)? -/
def State.buildsRun (s : State) : Bool := s.isIn [stREADY, stRUN, stSAFE]

/-- A pending refactorisation starts once its count is reached and no build runs. -/
def State.refacTry (s : State) : State :=
  if s.on NMG.STAT_REFAC_PEND && s.refacCount && s.nmg.build.isNone && (s.slotIn slACTIVE).isSome && s.buildsRun then
    s.resched 0 .nmgAutoRefactor
  else s

/-- The slot with an uncorrectable error is built anew at once, without regard to the count, when no build runs
(R207): the ACTIVE structure in the other slot, a PENDING one in its own slot from its own block and values. -/
def State.eccRebuild (s : State) : State :=
  match s.nmg.eccPend with
  | none => s
  | some k =>
    if s.nmg.build.isSome then s
    else
      let s := { s with nmg := { s.nmg with eccPend := none } }
      let u := s.nmgSlot k
      let kind := if s.nmg.pend.isEmpty then 2 else 1
      if !s.on (NMG.SLOT_STAT_ECC_BAD k) || !s.buildsRun then s
      else if s.slotSt k = slACTIVE then s.refacStart kind s.nmg.pend
      else if s.slotSt k = slPENDING then s.buildStart k 2 [] u.rho u.blk u.latest u
      else s

/-- An automatic request (R203, R205). -/
def State.refacWant (s : State) (rho : Option Nat) : State :=
  if !s.on NMG.CFG_AUTO_REFAC then s
  else
    let s := match rho with
      | some r => { s with nmg := { s.nmg with wantRho := some r } }
      | none => s
    (s.raise NMG.STAT_REFAC_PEND).refacTry

/-- A build fails: its slot becomes EMPTY. -/
def State.buildFail (s : State) (b : NmgBuild) (res : Nat) (nonfinite : Bool) : State :=
  let s := (s.setSlotSt b.slot slEMPTY).flag (NMG.SLOT_STAT_NONFINITE b.slot) nonfinite
  let s := s.raiseIf nonfinite NMG.STAT_NONFINITE
  s.buildReport b res

/-- The build's values are in its buffer: scaling and factorisation (R194, R202, R206); `pat` is the pattern of L. -/
def State.buildFactor (s : State) (b : NmgBuild) (h : NmgHdr) (pat : List (List Nat)) : State :=
  if (s.valueBad h b.buf).isSome then s.buildFail b 3 true
  else
    let p := s.prob h b.buf
    let (d, e) := p.scalePasses 6 (List.replicate p.n 0, List.replicate p.m 0)
    let c := p.costScale d
    let rhos := p.rhos b.rho (s.rd NMG.RHOEQ).toNat
    let perm := s.nums (h.blk + h.perm) 2 (h.n + h.m)
    let r := ldl ((p.scaled d e c).kkt32 (s.rd NMG.SIGMA).toNat rhos) perm h.n s.free (s.f NMG.CFG_REG_EXP) pat
    let s := s.tickFree
    if r.bad then s.buildFail b 3 true
    else
      let s := s.facStore b.slot perm r ((d ++ e).map (fun k => fmt32.ofRat (pow2r k)))
      let s := s.setSlotSt b.slot slPENDING
      let s := s.flag (NMG.SLOT_STAT_PIVOT_REG b.slot) (decide (r.cnt ≠ 0))
      let s := (s.setF (NMG.SLOT_PIV_PIVOT_CNT b.slot) (satU 16 r.cnt)).setF (NMG.SLOT_PIV_PIVOT_FIRST b.slot) r.first
      let s := s.setF (NMG.SLOT_NNZL_NNZL b.slot) ((pat.map List.length).foldl (· + ·) 0)
      let s := s.setNmgSlot b.slot { s.nmgSlot b.slot with dx := d, er := e, cx := c, rhos := rhos, rho := b.rho }
      s.buildReport b 0

/-- A LOAD_STRUCT build assembles its first values into VB0 (R187). -/
def State.buildAssemble (s : State) (b : NmgBuild) (h : NmgHdr) : State × Bool :=
  if b.kind ≠ 0 then (s, false)
  else if h.native then
    let aux := match b.cmds with
      | c :: _ => (c.aux, c.len)
      | [] => (0, 0)
    let bad := (s.paramBad h aux.1 aux.2).isSome
    (((s.asmNative h b.buf aux.1 aux.2).clipAll h b.buf).1, bad)
  else
    let s := (List.range h.values).foldl (fun t i => t.vPut b.buf i (t.sh (h.blk + h.list + 4 * i) 4)) s
    ((s.clipAll h b.buf).1, false)

/-- An uncorrectable error in slot `k` (R207): its flags and record. -/
def State.eccMark (s : State) (k : Nat) : State :=
  let s := ((s.raise (NMG.SLOT_STAT_ECC_BAD k)).raise NMG.STAT_ECC_UNC).recordStat 0x06 0x01 k 4 NMG.STAT
  { s with nmg := { s.nmg with eccPend := if s.slotSt k = slACTIVE ∨ s.slotSt k = slPENDING then some k else s.nmg.eccPend } }

/-- What a solve on slot `k` with the value buffer at `buf` reads: the slot, its value buffer (`n` bytes) and the
iterates. Corrected errors there set ECC_CORR; an uncorrectable one stops the solve (R207). -/
def State.eccRead (s : State) (k buf n : Nat) : State × Bool :=
  let inSlot (d : Bool) : Bool := s.eccIn .factor (facBase k) 0x700000 d || s.eccIn .shared buf n d
  let inIter (d : Bool) : Bool := s.eccIn .factor (facVec 0) 0x200000 d
  let gone (lo n : Nat) (e : Config.EccErr) : Bool := decide (e.place = 0) && decide (lo ≤ e.addr) && decide (e.addr < lo + n)
  let left := s.ecc.filter (fun e => !(gone (MemId.factor.base + facBase k) 0x700000 e
    || gone (MemId.factor.base + facVec 0) 0x200000 e || (gone (MemId.shared.base + buf) n e && !e.double)))
  let badSlot := inSlot true && !s.on (NMG.SLOT_STAT_ECC_BAD k)
  let badIter := inIter true
  let s := s.raiseIf (inSlot false || inIter false) NMG.STAT_ECC_CORR
  let s : State := { s with ecc := left }
  let s := if badSlot then s.eccMark k else s
  let s := if badIter then (s.raise NMG.STAT_ECC_UNC).recordStat 0x06 0x02 0 4 NMG.STAT else s
  (s, badSlot || badIter)

/-- A refactorisation into slot `k` reads the value buffer of `n` bytes at `buf` (R204, R207). -/
def State.eccBuffer (s : State) (k buf n : Nat) : State :=
  let lo := MemId.shared.base + buf
  let mine (e : Config.EccErr) : Bool := decide (e.place = 0) && decide (lo ≤ e.addr) && decide (e.addr < lo + n)
  let bad := s.eccIn .shared buf n true
  let s := s.raiseIf (s.eccIn .shared buf n false) NMG.STAT_ECC_CORR
  let s : State := { s with ecc := s.ecc.filter (fun e => !(mine e && !e.double)) }
  if bad then s.eccMark k else s

/-- The end of the running build (R187, R204). -/
def State.buildEnd (s : State) : State :=
  match s.nmg.build with
  | none => s
  | some b =>
    let h := s.nmgHdr b.blk
    let s := { s.bumpMod NMG.CNT_BUILDS with nmg := { s.nmg with build := none } }
    let s := if b.kind = 0 then s else s.eccBuffer b.slot b.buf (4 * h.values)
    let pat := symbolicCols (h.n + h.m) (s.kktPattern h)
    let s := if s.on (NMG.SLOT_STAT_ECC_BAD b.slot) then s.buildFail b 9 false
      else if 1048576 < (pat.map List.length).foldl (· + ·) 0 then s.buildFail b 8 false
      else
        let (t, bad) := s.buildAssemble b h
        let t : State := { t with free := t.free + 256 }
        if bad then t.buildFail b 3 true else t.buildFactor b h pat
    s.eccRebuild.refacTry.nmgSync

/-- What stands against a LOAD_STRUCT, in the order of R9 up to the content of its block (R182, R183, R187). -/
def State.loadFault (s : State) (c : NmgCmd) : Option Nat :=
  let h := s.nmgHdr c.src
  let aux := h.native && (decide (61440 < c.len) || decide (windowBytes < c.aux + 4 * c.len))
  if c.badArg || aux then some 3
  else if !s.isIn [stREADY, stRUN, stSAFE] then some 6
  else if c.slot < 2 ∧ s.slotSt c.slot = slACTIVE then some 6
  else if h.beyond then some 3
  else if s.nmgBlockEcc h || !s.nmgCrcGood h then some 9
  else if h.vbBeyond || s.nmgBlockBad h then some 3
  else none

/-- LOAD_STRUCT at the head of the queue (R183, R187). -/
def State.loadStruct (s : State) (c : NmgCmd) : State :=
  let h := s.nmgHdr c.src
  match s.loadFault c with
  | some r => s.nmgReject c r
  | none =>
  if s.nmg.build.any (fun b => decide (b.kind ≠ 2) || !b.cmds.isEmpty) then s.nmgReject c 2
  else
    let s := s.buildDrop
    let may := [0, 1].filter (fun k => decide (s.slotSt k ≠ slACTIVE))
    let k := if c.slot < 2 then c.slot else may.getD (s.freeNat % may.length) 0
    let s := s.tickFree.setF NMG.STAT_REFAC_PEND 0
    let s := s.nmg.pend.foldl (fun t p => t.nmgComplete p 7 0x0F 0 0 true) s
    let s := { s with nmg := { s.nmg with pend := [], wantRho := none } }
    let s := s.buildStart k 0 [c] (s.rd NMG.RHO).toNat c.src h.vb0 NmgSlot.reset
    s.nmgComplete c 1 0x0F 0 (s.f (NMG.SLOT_STAT_GEN k)) false

/-- What stands against a REFACTOR, in the order of R9 (R182, R183). -/
def State.refactorFault (s : State) (c : NmgCmd) : Option Nat :=
  if c.badArg then some 3
  else if !s.isIn [stREADY, stRUN, stSAFE] then some 6
  else match s.slotIn slACTIVE with
    | none => some 6
    | some a => if c.slot = a then some 6 else none

/-- REFACTOR at the head of the queue (R183, R203, R204). -/
def State.refactorCmd (s : State) (c : NmgCmd) : State :=
  match s.refactorFault c with
  | some r => s.nmgReject c r
  | none =>
    let other := 1 - (s.slotIn slACTIVE).getD 0
    let gen := s.f (NMG.SLOT_STAT_GEN other)
    match s.nmg.build with
    | some b =>
      if b.kind ≠ 2 ∨ b.cmds.isEmpty = false then s.nmgReject c 2
      else
        let s := { s with nmg := { s.nmg with build := some { b with cmds := [c] } } }
        s.nmgComplete c 1 0x0F 0 gen false
    | none =>
      if s.refacCount then
        let s := s.refacStart 1 (s.nmg.pend ++ [c])
        s.nmgComplete c 1 0x0F 0 (s.f (NMG.SLOT_STAT_GEN other)) false
      else
        let s := s.raise NMG.STAT_REFAC_PEND
        let s := { s with nmg := { s.nmg with pend := s.nmg.pend ++ [c] } }
        s.nmgComplete c 1 0x0F 0 gen false

/-- The pending refactorisation starts (R203). -/
def State.autoRefactor (s : State) : State :=
  if s.on NMG.STAT_REFAC_PEND && s.refacCount && s.nmg.build.isNone && s.buildsRun then
    s.refacStart (if s.nmg.pend.isEmpty then 2 else 1) s.nmg.pend
  else s

/-! ## A solve (R188 to R201) -/

/-- Result code and VALID of a status (R199). -/
def statusRes (status : Nat) : Nat × Bool :=
  match status with
  | 0 => (0, true)
  | 1 => (0x0B, true)
  | 2 => (7, true)
  | 7 => (9, false)
  | _ => (0x0B, false)

def NmgSolve.elapsed (r : NmgSolve) (now : Nat) : Nat := (now - r.at_) * 4

/-- Unscale (R194): x by D, z by 1/E, y by E/c. -/
def unscaleX (u : NmgSlot) (x : List Nat) : List Nat := x.zipIdx.map (fun e => f32scale e.1 (atI u.dx e.2))
def unscaleZ (u : NmgSlot) (z : List Nat) : List Nat := z.zipIdx.map (fun e => f32scale e.1 (-atI u.er e.2))
def unscaleY (u : NmgSlot) (y : List Nat) : List Nat := y.zipIdx.map (fun e => f32scale e.1 (atI u.er e.2 - u.cx))
def scaleX (u : NmgSlot) (x : List Nat) : List Nat := x.zipIdx.map (fun e => f32scale e.1 (-atI u.dx e.2))
def scaleZ (u : NmgSlot) (z : List Nat) : List Nat := z.zipIdx.map (fun e => f32scale e.1 (atI u.er e.2))
def scaleY (u : NmgSlot) (y : List Nat) : List Nat := y.zipIdx.map (fun e => f32scale e.1 (u.cx - atI u.er e.2))

/-- A binary64 value in the report; where no check gave it, a free value. -/
def rep64 (v : Option Rat) (free : Nat) : Nat :=
  match v with
  | some r => fmt64.ofRat r
  | none => (Config.freeWord free).toNat + 2 ^ 32 * (Config.freeWord (free + 1)).toNat

/-- The FLAGS word of the report (R211). -/
def State.reportFlags (s : State) (r : NmgSolve) (status : Nat) : Nat :=
  (statusRes status).2.toNat + 2 * r.feas.toNat + 4 * (s.f (NMG.SLOT_STAT_PIVOT_REG r.slot))
    + 8 * (decide (status = 5)).toNat + 16 * (decide (r.warm = 3)).toNat + 32 * r.stale.toNat
    + 64 * r.swapped.toNat + 128 * r.clipped.toNat + 256 * r.cross.toNat + 512 * r.nfWhere

/-- Write the solution report (R211). -/
def State.writeReport (s : State) (r : NmgSolve) (status : Nat) (h : NmgHdr) (x y : List Nat) : State :=
  let b := s.prob h r.buf
  let xr := x.map f32rat
  let t := s.free
  let obj := r64 (r64 (dot64 (keyOf t (2 ^ 20)) (xr.zip (b.mulP t 0 xr)) / 2) + dot64 (keyOf t (2 ^ 20 + 1)) (b.q.zip xr))
  let viol (i : Nat) : Nat := r.viol.getD i 0xFFFF
  let hdr := packBytes ([(status, 1), (r.warm, 1), (r.iter, 2), (s.reportFlags r status, 4), (h.stag, 4),
    (r.slot, 1), (0, 1), (s.f (NMG.SLOT_STAT_GEN r.slot), 2),
    (rep64 (r.chk.map (·.rp)) s.free, 8), (rep64 (r.chk.map (·.rd)) (s.free + 2), 8),
    (rep64 (if allFinite x then some obj else none) (s.free + 4), 8),
    (r.ns.toNat, 4), (r.wc, 1), (0, 3), (r.asm, 4), (satU 32 (r.elapsed s.now), 4),
    ((s.nmgSlot r.slot).rho, 4), (s.f (NMG.SLOT_PIV_PIVOT_CNT r.slot), 2),
    (s.f (NMG.SLOT_PIV_PIVOT_FIRST r.slot), 2)]
    ++ (List.range 8).map (fun i => (viol i, 2)) ++ [(r.vm, 2), (r.rm, 2), (r.nfIdx, 4), (0, 40)])
  let out := r.cmd.out
  let yAt := out + (128 + 4 * x.length + 63) / 64 * 64
  let s := s.putBytes .shared out hdr
  let s := s.putBytes .shared (out + 128) (x.flatMap (fun v => leBytes v 4))
  let s := s.putBytes .shared yAt (y.flatMap (fun v => leBytes v 4))
  { s with free := s.free + 6 }

/-- ρ adaptation after a solve (R205). -/
def State.adaptRho (s : State) (r : NmgSolve) : State :=
  match r.chk with
  | none => s
  | some k =>
    if !s.on NMG.CFG_ADAPT_RHO then s
    else
      let tiny : Rat := r64 (1 / 1000000000000)
      let mx (v : Rat) : Rat := if v < tiny then tiny else v
      let bp := r64 (k.rp / mx k.np)
      let bd := r64 (k.rd / mx k.nd)
      let b : Rat := if k.rp = 0 ∧ k.rd = 0 then 1 else if k.rd = 0 ∨ bd = 0 then 64 else r64 (bp / bd)
      let rho := (s.nmgSlot r.slot).rho
      let want := if 64 < b then some (rho, (2 : Int)) else if b < 1 / 64 then some (rho, (-2 : Int)) else none
      match want with
      | none => s
      | some (rho, e) =>
        let v := f32rat rho * pow2r e
        let c := if v < pow2r (-20) then pow2r (-20) else if pow2r 20 < v then pow2r 20 else v
        let new := fmt32.ofRat c
        if new = rho then s else s.refacWant (some new)

/-- A stored iterate in the factor SRAM (R178). -/
def State.storeWarm (s : State) (w : NmgIter) : State :=
  ((s.facPut (facVec 6) 4 w.x).facPut (facVec 7) 4 w.z).facPut (facVec 8) 4 w.y

/-- A solve ends (R199). -/
def State.solveEnd (s : State) (r : NmgSolve) (status : Nat) : State :=
  let u := s.nmgSlot r.slot
  let h := s.nmgHdr u.blk
  let (res, valid) := statusRes status
  let x := unscaleX u r.x
  let z := unscaleZ u r.z
  let y := unscaleY u r.y
  let s := (s.cancel .nmgIterationEnd).writeReport r status h x y
  let s := { s with nmg := { s.nmg with run := none, invalid := !valid } }
  let s := if valid then
      let w : NmgIter := ⟨h.stag, s.nums (h.blk + h.vtag) 2 h.n, s.nums (h.blk + h.rtag) 2 h.m, x, z, y⟩
      { s.storeWarm w with nmg := { s.nmg with warm := some w } }
    else s
  let s := s.raiseIf (decide (status = 5)) NMG.STAT_NONFINITE
  let s := ((s.setF NMG.LAST_STATUS status).setF NMG.LAST_RESULT res).setF NMG.LAST_ITER r.iter
  let s := s.bumpMod NMG.CNT_SOLVES
  let s := { s with nmg := { s.nmg with since := s.nmg.since.map (· + 1) } }
  let s := s.nmgComplete r.cmd res status r.iter (s.f (NMG.SLOT_STAT_GEN r.slot)) true
  ((s.adaptRho r).refacTry).nmgNext

/-- The start iterate (R201): WARM, VMATCH, RMATCH and x, z, y, unscaled. The duals of rows with the tag 0xFFFF start at
zero under every warm start (R219). -/
def State.warmStart (s : State) (h : NmgHdr) (cold : Bool) :
    Nat × Nat × Nat × List Nat × List Nat × List Nat :=
  let vt := s.nums (h.blk + h.vtag) 2 h.n
  let rt := s.nums (h.blk + h.rtag) 2 h.m
  let zx := List.replicate h.n 0
  let zm := List.replicate h.m 0
  match s.nmg.warm with
  | none => (5, 0, 0, zx, zm, zm)
  | some w =>
    let pick (tags old : List Nat) (vals : List Nat) : List (Option Nat) := tags.map (fun t =>
      if t = 0xFFFF then none else (old.idxOf? t).bind (fun i => vals[i]?))
    let px := pick vt w.vtag w.x
    let pz := pick rt w.rtag w.z
    let py := pick rt w.rtag w.y
    let vm := (px.filter Option.isSome).length
    let rm := (pz.filter Option.isSome).length
    let val (l : List (Option Nat)) : List Nat := l.map (fun o => o.getD 0)
    if s.nmg.invalid then (4, vm, rm, zx, zm, zm)
    else if cold then (2, vm, rm, zx, zm, zm)
    else if w.stag = h.stag ∧ w.x.length = h.n ∧ w.z.length = h.m then
      (0, vm, rm, w.x, w.z, (w.y.zip rt).map (fun e => if e.2 = 0xFFFF then 0 else e.1))
    else if vm ≠ 0 then (1, vm, rm, val px, val pz, val py)
    else (3, vm, rm, zx, zm, zm)

/-- w := y / ρ (R195). -/
def wOf (u : NmgSlot) (y : List Nat) : List Nat := (y.zip u.rhos).map (fun e => f32div e.1 e.2)

/-- The slot a SOLVE runs on (R183): the slot, or its result code. -/
def State.solveSlot (s : State) (stag : Nat) : Nat ⊕ Nat :=
  let is (st k : Nat) : Bool := decide (s.slotSt k = st) && decide (s.slotTag k = stag)
  match [0, 1].find? (is slPENDING), [0, 1].find? (is slACTIVE), [0, 1].find? (is slBUILDING) with
  | some k, _, _ => .inl k
  | none, some k, _ => .inl k
  | none, none, some _ => .inr 2
  | none, none, none => .inr 6

/-- The buffer a SOLVE assembles into (R188). -/
def State.solveBuf (s : State) (u : NmgSlot) (h : NmgHdr) : Nat :=
  let other := if u.latest = h.vb0 then h.vb1 else h.vb0
  match s.nmg.build with
  | some b => if b.kind ≠ 0 ∧ b.buf = other then u.latest else other
  | none => other

/-- A PENDING slot becomes ACTIVE (R179, R204). -/
def State.swapSlot (s : State) (k : Nat) : State :=
  if s.slotSt k ≠ slPENDING then s
  else
    let o := 1 - k
    let carry := decide (s.slotSt o = slACTIVE) && s.on (NMG.SLOT_STAT_KIND k) && decide ((s.nmgSlot o).blk = (s.nmgSlot k).blk)
    let s := if carry then s.setNmgSlot k { s.nmgSlot k with last := (s.nmgSlot o).last } else s
    let s := if s.slotSt o = slACTIVE then s.setSlotSt o slEMPTY else s
    s.setSlotSt k slACTIVE

/-- The slot whose structure a SOLVE names, in the order of R183, BUILDING ones included. -/
def State.solveNamed (s : State) (stag : Nat) : Option Nat :=
  [slPENDING, slACTIVE, slBUILDING].findSome? (fun st =>
    [0, 1].find? (fun k => decide (s.slotSt k = st) && decide (s.slotTag k = stag)))

/-- Further argument checks of a SOLVE against its structure (R181, R211). -/
def solveArgBad (c : NmgCmd) (h : NmgHdr) : Bool :=
  let bytes := if h.native then 4 * c.len else 8 * c.len
  let rep := (128 + 4 * h.n + 63) / 64 * 64 + 4 * h.m
  decide ((if h.native then 61440 else 65536) < c.len) || decide (windowBytes < c.src + bytes)
    || decide (windowBytes < c.out + rep)

/-- The iterate of the running solve in the factor SRAM (R178): x, z, y, w and the iterates of the last check. -/
def State.saveIterate (s : State) (r : NmgSolve) : State :=
  [r.x, r.z, r.y, r.w, r.xc, r.yc].zipIdx.foldl (fun t v => t.facPut (facVec v.2) 4 v.1) s

/-- The iterate as the factor SRAM holds it. -/
def State.loadIterate (s : State) (r : NmgSolve) : NmgSolve :=
  let v (k : Nat) (l : List Nat) : List Nat := s.facGet (facVec k) 4 l.length
  { r with x := v 0 r.x, z := v 1 r.z, y := v 2 r.y, w := v 3 r.w, xc := v 4 r.xc, yc := v 5 r.yc }

/-- The solve has its slot: assembly and start (R188 to R193, R201, R206); on a slot with an uncorrectable
error, in the values that a CHANGED assembly copies too, it ends with FACTOR_ERR after 0 iterations, without an assembly
(R207). -/
def State.solveStart (s : State) (c : NmgCmd) (k : Nat) : State :=
  let swap := decide (s.slotSt k = slPENDING)
  let s := s.swapSlot k
  let u := s.nmgSlot k
  let h := s.nmgHdr u.blk
  let old := s.on (NMG.SLOT_STAT_ECC_BAD k)
  let (s, hurt) := if old || h.native then (s, false) else s.eccRead k u.latest (4 * h.values)
  let dead := old || hurt
  let buf := if dead then u.latest else s.solveBuf u h
  let pb := if h.native && !dead then s.paramBad h c.src c.len else none
  let s := if dead then s else if h.native then s.asmNative h buf c.src c.len else s.asmChanged h buf u.latest c.src c.len
  let s : State := { s with free := s.free + 256 }
  let (s, clip) := if dead then (s, false) else s.clipAll h buf
  let s := s.setNmgSlot k { s.nmgSlot k with last := some buf }
  let (warm, vm, rm, x, z, y) := s.warmStart h (c.b 1 1 % 2 = 1)
  let d := s.freeNat % 1048576 + 1
  let xs := scaleX u x
  let ys := scaleY u y
  let cross := s.crossed h buf
  let vb := if dead then none else s.valueBad h buf
  let r : NmgSolve :=
    { cmd := c, slot := k, buf := buf, at_ := s.now, ns := s.ns 0, wc := s.wc 0,
      asm := Config.freeNat (s.free + 1) % (4 * d), iter := 0,
      maxIter := if c.b 28 2 = 0 then s.f NMG.CAP_MAX_ITER else c.b 28 2,
      cap := if c.b 30 2 = 0 then s.f NMG.CAP_TIME_CAP else c.b 30 2,
      x := xs, z := scaleZ u z, y := ys, w := wOf u ys, xc := x, yc := y, warm := warm, vm := vm, rm := rm,
      swapped := swap, clipped := clip, stale := false, abort := false,
      nfWhere := if pb.isSome then 1 else if vb.isSome then 2 else 0,
      nfIdx := (pb.orElse (fun _ => vb)).getD 0, feas := false, chk := none,
      viol := cross.take 8, cross := !cross.isEmpty }
  let s := s.saveIterate r
  let s : State := { s with free := s.free + 2, nmg := { s.nmg with run := some r } }
  if dead then (s.solveEnd { r with viol := [], cross := false } 7).eccRebuild
  else if r.nfWhere ≠ 0 then s.solveEnd r 5
  else if r.cross then s.solveEnd r 3
  else (s.sched d .nmgIterationEnd).nmgSync

/-- What stands against a SOLVE, in the order of R9: its arguments, the states, an ECC error in its parameter block or
change list, the change list's content. A slot with an uncorrectable error of its own is no such fault: the SOLVE starts
and ends there (R207). -/
def State.solveFault (s : State) (c : NmgCmd) : Option Nat :=
  let named := (s.solveNamed (c.b 8 4)).map (fun k => s.nmgHdr (s.nmgSlot k).blk)
  let h := named.getD (s.nmgHdr 0)
  let bytes := if h.native then 4 * c.len else 8 * c.len
  let changes := !h.native && (List.range c.len).any (fun i => s.changeBad h c.src i)
  let content : Option Nat := if s.eccIn .shared c.src bytes true then some 9 else if changes then some 3 else none
  if c.badArg || (named.isSome && solveArgBad c h) then some 3
  else if !s.isIn [stREADY, stRUN] then some 6
  else match s.solveSlot (c.b 8 4) with
    | .inr code => if code = 6 then some 6 else content
    | .inl k => if s.on (NMG.SLOT_STAT_ECC_BAD k) then none else content

/-- SOLVE at the head of the queue (R183); a slot that is BUILDING comes last. -/
def State.solveCmd (s : State) (c : NmgCmd) : State :=
  match s.solveFault c with
  | some r => s.nmgReject c r
  | none =>
    match s.solveSlot (c.b 8 4) with
    | .inr code => s.nmgReject c code
    | .inl k => s.solveStart c k

/-! ## Arrival (R180) -/

/-- What stands against a queued command before the queue's room counts (R9, R183): steps 3 to 6. -/
def State.nmgFault (s : State) (c : NmgCmd) : Option Nat :=
  match c.op with
  | 1 => s.loadFault c
  | 2 => s.solveFault c
  | _ => s.refactorFault c

/-- A descriptor arrives (R180, R184); where the queue is full, NO_RESOURCE comes after every fault that R9 puts before
it. -/
def State.nmgArrive (s : State) (ofs : Nat) (via : Via) : State :=
  let c : NmgCmd := ⟨ofs, s.sh ofs 64, via⟩
  if c.op = 0 ∨ 4 < c.op then s.nmgReject c 4
  else if c.op = 4 then
    State.sched { s with nmg := { s.nmg with aborts := s.nmg.aborts ++ [c] } } 0 .abort
  else if 16 ≤ s.nmg.queue.length then
    match s.nmgFault c with
    | some r => s.nmgReject c r
    | none => (s.raise NMG.STAT_QFULL).nmgReject c 8
  else State.nmgNext { s with nmg := { s.nmg with queue := s.nmg.queue ++ [c] } }

/-- A write of NMG_SUBMIT, or a token with CMD_TAG (R180, R212). -/
def State.nmgSubmit (s : State) (v : Word) (via : Via) : State :=
  if v.toNat % 64 ≠ 0 ∨ windowBytes ≤ v.toNat then s.raise NMG.STAT_ERR_ARG else s.nmgArrive v.toNat via

/-! ## An iteration (R195 to R200) -/

/-- The scaled bounds as binary32 words. -/
def State.scaledBound (s : State) (u : NmgSlot) (buf at_ i : Nat) : Nat :=
  let v := s.vGet buf (at_ + i)
  match boundOf v with
  | some _ => f32scale v (atI u.er i)
  | none => f32inf (f32lt v 0)

def f32clamp (v l u : Nat) : Nat := if f32lt v l then l else if f32lt u v then u else v

/-- The scaled problem of a solve (R194). -/
def State.solveProb (s : State) (r : NmgSolve) : Prob :=
  let u := s.nmgSlot r.slot
  (s.prob (s.nmgHdr u.blk) r.buf).scaled u.dx u.er u.cx

/-- b of an iteration, and kkt_solve of it (R195, R196). -/
def State.kktStep (s : State) (r : NmgSolve) : List Nat × List Nat :=
  let sc := s.solveProb r
  let u := s.nmgSlot r.slot
  let sigma := (s.rd NMG.SIGMA).toNat
  let b := (r.x.zip (sc.q.map fmt32.ofRat)).map (fun e => f32sub (f32mul sigma e.1) e.2)
    ++ (r.z.zip r.w).map (fun e => f32sub e.1 e.2)
  (b, s.kktSolve sc r.slot sigma u.rhos s.free b)

/-- One ADMM iteration (R195) from the KKT solution `sol`: the vector operations run in binary32 in the order
written. -/
def State.iterate (s : State) (r : NmgSolve) (sol : List Nat) : NmgSolve :=
  let u := s.nmgSlot r.slot
  let h := s.nmgHdr u.blk
  let th := (s.rd NMG.RELAX).toNat
  let th1 := f32sub (f32int 1) th
  let at_ (l : List Nat) (i : Nat) : Nat := l.getD i 0
  let x := sol.take h.n
  let row (i : Nat) : Nat × Nat × Nat :=
    let z := at_ r.z i
    let w := at_ r.w i
    let rho := at_ u.rhos i
    let zt := f32add (f32sub z w) (f32div (at_ sol (h.n + i)) rho)
    let zr := f32add (f32mul th zt) (f32mul th1 z)
    let z' := f32clamp (f32add zr w) (s.scaledBound u r.buf h.lAt i) (s.scaledBound u r.buf h.uAt i)
    let w' := f32sub (f32add w zr) z'
    (z', w', f32mul rho w')
  let rows := (List.range h.m).map row
  { r with x := x, z := rows.map (·.1), w := rows.map (·.2.1), y := rows.map (·.2.2), iter := r.iter + 1 }

/-- The check of R197 in the fp64 unit, piece of work `t`. -/
def Prob.check (b : Prob) (t : Nat) (x z y : List Rat) : NmgCheck :=
  let ax := b.mulA t 0 x
  let px := b.mulP t (2 ^ 16) x
  let aty := b.mulAt t (2 ^ 17) y
  { rp := normR (sub64 ax z), rd := normR (add64 (add64 px b.q) aty),
    np := (let a := normR ax; let c := normR z; if a < c then c else a),
    nd := maxR [normR px, normR aty, normR b.q] }

/-- The primal certificate (R198). -/
def Prob.primalInf (b : Prob) (t : Nat) (eps : Rat) (dy : List Rat) : Bool :=
  let ny := normR dy
  let terms := ((b.l.zip b.u).zip dy).map (fun e =>
    if e.2 = 0 then some ((0 : Rat), (0 : Rat))
    else if 0 < e.2 then e.1.2.map (·, e.2) else e.1.1.map (·, e.2))
  let e := r64 (eps * ny)
  decide (ny ≠ 0) && decide (normR (b.mulAt t (3 * 2 ^ 16) dy) ≤ e) && terms.all Option.isSome
    && decide (dot64 (keyOf t (2 ^ 20)) (terms.map (fun o => o.getD (0, 0))) < -e)

/-- The dual certificate (R198). -/
def Prob.dualInf (b : Prob) (t : Nat) (eps : Rat) (dx : List Rat) : Bool :=
  let nx := normR dx
  let e := r64 (eps * nx)
  decide (normR (b.mulP t (4 * 2 ^ 16) dx) ≤ e) && decide (dot64 (keyOf t (2 ^ 20 + 1)) (b.q.zip dx) < -e)
    && ((b.l.zip b.u).zip (b.mulA t (5 * 2 ^ 16) dx)).all (fun r =>
      match r.1 with
      | (some _, some _) => decide (absR r.2 ≤ e)
      | (some _, none) => decide (-e ≤ r.2)
      | (none, some _) => decide (r.2 ≤ e)
      | (none, none) => true)

/-- The eight rows with the largest |(Ax)_i − z_i|, descending (R198). -/
def topRows (l : List Rat) : List Nat :=
  ((l.zipIdx.map (fun e => (absR e.1, e.2))).mergeSort (fun a b => decide (b.1 ≤ a.1))).map (·.2) |>.take 8

/-- What the end of an iteration decides (R196 to R200): the solve with its check, a status, and whether this check finds
the factor stale; `kkt` is b and its KKT solution. -/
def State.judgeIter (s : State) (kkt : List Nat × List Nat) (r : NmgSolve) : NmgSolve × Option Nat × Bool :=
  let u := s.nmgSlot r.slot
  let late := decide (r.cap ≠ 0) && decide (r.cap * 1000 ≤ r.elapsed s.now)
  let last := decide (r.maxIter ≤ r.iter)
  let bad := (r.x ++ r.z ++ r.w ++ r.y).findIdx? (fun v => !f32finite v)
  match bad with
  | some i => ({ r with nfWhere := 3, nfIdx := i }, some 5, false)
  | none =>
    if !(decide (r.iter % s.f NMG.CFG_CHECK_N = 0) || last || late) then
      (r, if r.abort then some 6 else none, false)
    else
      let b := s.prob (s.nmgHdr u.blk) r.buf
      let x := (unscaleX u r.x).map f32rat
      let z := (unscaleZ u r.z).map f32rat
      let y := (unscaleY u r.y).map f32rat
      let t := s.free + 1
      let k := b.check t x z y
      let ea := f32rat (s.rd NMG.EPSABS).toNat
      let er := f32rat (s.rd NMG.EPSREL).toNat
      let ok1 := decide (k.rp ≤ ea) || decide (k.rp ≤ r64 (er * k.np))
      let ok2 := decide (k.rd ≤ ea) || decide (k.rd ≤ r64 (er * k.nd))
      let pinf := b.primalInf t (f32rat (s.rd NMG.EPSPI).toNat) (sub64 y (r.yc.map f32rat))
      let dinf := b.dualInf t (f32rat (s.rd NMG.EPSDI).toNat) (sub64 x (r.xc.map f32rat))
      let stale := decide (f32rat (s.rd NMG.STALE).toNat
        < (s.solveProb r).rhoF (s.rd NMG.SIGMA).toNat u.rhos t kkt.1 kkt.2)
      let status := if r.abort then some 6 else if pinf then some 3 else if ok1 && ok2 then some 0
        else if dinf then some 4 else if late then some 2 else if last then some 1 else none
      let viol := if status = some 3 ∨ status = some 4 then topRows (sub64 (b.mulA t 0 x) z) else []
      ({ r with chk := some k, feas := ok1, stale := r.stale || stale, viol := viol,
                xc := unscaleX u r.x, yc := unscaleY u r.y }, status, stale)

/-- The end of an iteration. A check that finds the factor stale sets FACTOR_STALE (R196); as it sets, first in the solve
or anew after it was cleared, it asks for a refactorisation (R203). -/
def State.iterEnd (s : State) : State :=
  match s.nmg.run with
  | none => s
  | some run =>
    let old := s.loadIterate run
    let h := s.nmgHdr (s.nmgSlot old.slot).blk
    let kkt := s.kktStep old
    let (r, status, stale) := s.judgeIter kkt (s.iterate old kkt.2)
    let s : State := { s with free := s.free + 2 }
    let (s, dead) := s.eccRead r.slot r.buf (4 * h.values)
    let sets := stale && (!old.stale || !s.on NMG.STAT_FACTOR_STALE)
    let s := s.raiseIf stale NMG.STAT_FACTOR_STALE
    let s := if sets then s.refacWant none else s
    match (if dead then some 7 else status) with
    | some st => (s.solveEnd r st).eccRebuild
    | none =>
      let d := s.freeNat % 1048576 + 1
      let s := s.saveIterate r
      (State.sched { s.tickFree with nmg := { s.nmg with run := some r } } d .nmgIterationEnd).nmgSync

/-! ## ABORT, errors, module states (R184, R207, R208) -/

/-- An ABORT that has arrived (R184); a rebuilding or a refactorisation that waited for the build ended starts
(R203, R207). -/
def State.abortCmd (s : State) (c : NmgCmd) : State :=
  if c.badArg then s.nmgReject c 3
  else if !s.isIn [stREADY, stRUN, stSAFE] then s.nmgReject c 6
  else
    let s := { s with nmg := { s.nmg with run := s.nmg.run.map (fun (r : NmgSolve) => { r with abort := true }) } }
    let s := if c.b 1 1 / 2 % 2 = 1 then s.buildDrop else s
    ((s.nmgComplete c 0 0x0F 0 0 true).eccRebuild).refacTry

/-- An uncorrectable error in slot `k` (R207): it ends the solve that runs there, and the slot is built anew. -/
def State.eccSlot (s : State) (k : Nat) : State :=
  let s := s.eccMark k
  let s := match s.nmg.run with
    | some r => if r.slot = k then s.solveEnd r 7 else s
    | none => s
  s.eccRebuild

/-- An uncorrectable error in the iterates (R207). -/
def State.eccIterate (s : State) : State :=
  let s := (s.raise NMG.STAT_ECC_UNC).recordStat 0x06 0x02 0 4 NMG.STAT
  match s.nmg.run with
  | some r => s.solveEnd r 7
  | none => s

/-- The module enters `st` (R208): SAFE, HOLDUP, RECOVERY or BOOT. What completes does so in the order of
submission: the commands of a build, the running SOLVE, the queued ones (R185). -/
def State.nmgEnter (s : State) (st : Nat) : State :=
  if !([stSAFE, stHOLDUP, stRECOVERY, stBOOT].contains st) then s
  else
    let solves := s.nmg.queue.filter (fun c => decide (c.op = 2))
    let s := ((s.cancel .solve).cancel .loadStruct).cancel .refactor
    let s := { s with nmg := { s.nmg with started := false, queue := s.nmg.queue.filter (fun c => decide (c.op ≠ 2)) } }
    let s := if st = stSAFE then s else
        let s := (s.cancel .nmgAutoRefactor).buildDrop
        let s := s.nmg.pend.foldl (fun t p => t.nmgComplete p 7 0x0F 0 0 true) s
        { s.setF NMG.STAT_REFAC_PEND 0 with nmg := { s.nmg with pend := [], wantRho := none, eccPend := none } }
    let s := match s.nmg.run with
      | some r => s.solveEnd r 6
      | none => s
    let s := solves.foldl (fun t c => t.nmgReject c 6) s
    let s := if st = stBOOT ∨ st = stRECOVERY then
        let s := (s.setSlotSt 0 slEMPTY).setSlotSt 1 slEMPTY
        { s with nmg := { s.nmg with warm := none } }
      else s
    s.nmgNext

/-! ## Register writes (R212) -/

/-- A range test of an fp32 parameter: finite and within bounds; `strict` excludes them. -/
def paramOut (v : Word) (lo hi : Rat) (strict : Bool) : Bool :=
  match f32val v with
  | some x => decide (x < lo) || decide (hi < x) || (strict && (decide (x = lo) || decide (x = hi)))
  | none => true

def tenth (n : Nat) : Rat := 1 / (10 ^ n : Nat)

def nmgBad (rel : Nat) (v : Word) : Bool :=
  let tagBad (t : Nat) : Bool := decide (0xFF00 ≤ t) && decide (t ≤ 0xFF07)
  match rel with
  | 0x00 => decide (getBits 4 4 v = 0) || decide (20 < getBits 8 5 v) || decide (getBits 13 5 v < 8)
  | 0x04 => tagBad (getBits 0 16 v) || tagBad (getBits 16 16 v)
  | 0x08 => decide (getBits 0 16 v = 0) || decide (4000 < getBits 0 16 v)
  | 0x0C => paramOut v (tenth 10) (tenth 2) false
  | 0x10 => paramOut v 1 (19 / 10) false
  | 0x14 => paramOut v (pow2r (-20)) (pow2r 20) false
  | 0x18 => paramOut v 1 65536 false
  | 0x1C => paramOut v (tenth 9) 1 false
  | 0x20 => paramOut v (tenth 9) 1 false
  | 0x24 => paramOut v (tenth 9) 1 false
  | 0x28 => paramOut v (tenth 9) 1 false
  | 0x2C => paramOut v 0 1 true
  | _ => false

/-- A write of an NMG register. -/
def State.nmgWrite (s : State) (off : Nat) (v hw : Word) : State :=
  let rel := off - NMG.CFG
  if rel = 0x30 then s.nmgSubmit (BitVec.ofNat 32 (getBits 0 24 v)) .none
  else if rel = 0x34 then s.store off v hw
  else if 0x34 < rel then s
  else s.judge (nmgBad rel v) NMG.STAT_ERR_ARG (!s.isIn [stREADY]) (fun s => (s.store off v).refacTry)

/-! ## Commands -/

/-- Run the head of the queue if it is of code `op`. -/
def State.nmgHead (s : State) (op : Nat) (f : State → NmgCmd → State) : State :=
  match s.nmg.queue with
  | c :: _ => if c.op = op ∧ s.nmg.run.isNone = true then (f s.nmgPop c).nmgNext else s
  | [] => s

/-- LOAD_STRUCT (R187). -/
def execLoadStruct (s : State) : Out := ok (s.nmgHead 1 State.loadStruct)

/-- SOLVE (R183). -/
def execSolve (s : State) : Out := ok (s.nmgHead 2 State.solveCmd)

/-- REFACTOR (R204). -/
def execRefactor (s : State) : Out := ok (s.nmgHead 3 State.refactorCmd)

/-- ABORT (R184). -/
def execAbort (s : State) : Out :=
  match s.nmg.aborts with
  | c :: cs => ok (State.abortCmd { s with nmg := { s.nmg with aborts := cs } } c)
  | [] => ok s

/-- NMG_ITERATION_END (R197). -/
def execNmgIterationEnd (s : State) : Out := ok s.iterEnd

/-- NMG_BUILD_END (R187). -/
def execNmgBuildEnd (s : State) : Out := ok s.buildEnd

/-- NMG_AUTO_REFACTOR (R203). -/
def execNmgAutoRefactor (s : State) : Out := ok s.autoRefactor

/-- NMG_ECC_ERROR (R207). -/
def execNmgEccError (w : NmgEcc) (s : State) : Out :=
  match w with
  | .slot k => ok (s.eccSlot k).nmgSync
  | .iterate => ok s.eccIterate.nmgSync
  | .corrected => ok (s.raise NMG.STAT_ECC_CORR)

end Sys2Proof.Machine
end

