-- ==== Sys2Proof/Machine/Operands.lean ====
section
/-! DEFINITION. The operands of the engines (spec/15_kloparam_base.md, spec/16_signal_profile.md): which
features an engine has, its registers with the values an SDSP still reads at distance 1, its system
registers, and its context as it stands in memory (R316). Engines are numbered as R314 numbers them,
SAFC is 15. -/

namespace Sys2Proof.Machine

def isPln (e : Nat) : Bool := decide (e < 4)
def isSdsp (e : Nat) : Bool := decide (4 ≤ e ∧ e < 12)

/-- The features of R337. -/
def hasFp32 (e : Nat) : Bool := !isSdsp e
def hasFp64 (e : Nat) : Bool := isPln e || decide (e = 12 ∨ e = 14)
def hasDdr (e : Nat) : Bool := isPln e || decide (e = 12 ∨ e = 13 ∨ e = 14)

/-- Engine cycles in a number of 4 ns ticks: CLK_CORE 1 GHz for PLN, NSEQ and SVC, 500 MHz for the
SDSPs and CSEQ, 400 MHz for SAFC (R27). -/
def cyclesIn (e ticks : Nat) : Nat :=
  if isSdsp e || decide (e = 13) then ticks * 2 else if e = 15 then ticks * 8 / 5 else ticks * 4

/-- The ticks that `n` engine cycles take, rounded up. -/
def ticksFor (e n : Nat) : Nat :=
  if isSdsp e || decide (e = 13) then (n + 1) / 2 else if e = 15 then (n * 5 + 7) / 8 else (n + 3) / 4

def State.en (s : State) (e : Nat) : Eng := s.eng.get (fun _ => Eng.reset) e

def State.setEn (s : State) (e : Nat) (x : Eng) : State :=
  { s with eng := s.eng.set (fun _ => Eng.reset) e x }

def zeroW (_ : Nat) : Word := 0#32
def zeroD (_ : Nat) : Wide := 0#64

def Eng.gRaw (x : Eng) (r : Nat) : Word := if r = 0 then 0#32 else x.g.get zeroW r

/-- The general register `r` as the instruction in progress reads it: g0 reads 0 (R338), a register that
the instruction before loaded reads as before the load on an SDSP (R379). -/
def Eng.gpr (x : Eng) (r : Nat) : Word :=
  if r = 0 then 0#32 else (x.staleG.lookup r).getD (x.gRaw r)

/-- Write a general register; g0 discards (R338). -/
def Eng.setG (x : Eng) (r : Nat) (v : Word) : Eng :=
  if r = 0 then x else { x with g := x.g.set zeroW r v }

/-- A load writes `r`: the next instruction of an SDSP still reads the value before it (R379). -/
def Eng.loadG (x : Eng) (sdsp : Bool) (r : Nat) (v : Word) : Eng :=
  if r = 0 then x
  else if sdsp then { x.setG r v with nextG := (r, x.gRaw r) :: x.nextG } else x.setG r v

def Eng.fpr (x : Eng) (r : Nat) : Wide := x.e.get zeroD r
def Eng.setE (x : Eng) (r : Nat) (v : Wide) : Eng := { x with e := x.e.set zeroD r v }

/-- Predicate `i`. -/
def Eng.pred (x : Eng) (i : Nat) : Bool := x.p.toNat.testBit i

def Eng.setPred (x : Eng) (i : Nat) (b : Bool) : Eng :=
  { x with p := BitVec.ofNat 4 (x.p.toNat - (if x.p.toNat.testBit i then 2 ^ i else 0) + (if b then 2 ^ i else 0)) }

def Eng.acc (x : Eng) (i : Nat) : Int := (x.ac.get zeroD i).toInt
def Eng.accRaw (x : Eng) (i : Nat) : Wide := x.ac.get zeroD i
def Eng.setAcc (x : Eng) (i : Nat) (v : Wide) : Eng := { x with ac := x.ac.set zeroD i v }

def Eng.ptRaw (x : Eng) (i : Nat) : Word := x.pt.get zeroW i
def Eng.stRaw (x : Eng) (i : Nat) : Word := x.st.get zeroW i

/-- pt_n and st_n as a memory instruction or ADDPS reads them: at distance 1 after a write of the
pointer group the old value (R379). -/
def Eng.ptr (x : Eng) (i : Nat) : Word := (x.staleP.lookup i).getD (x.ptRaw i)
def Eng.step (x : Eng) (i : Nat) : Word := (x.staleP.lookup (8 + i)).getD (x.stRaw i)

def Eng.setPt (x : Eng) (i : Nat) (v : Word) : Eng := { x with pt := x.pt.set zeroW i v }
def Eng.setSt (x : Eng) (i : Nat) (v : Word) : Eng := { x with st := x.st.set zeroW i v }

/-- The pointer group writes pt_n, or st_n (8 + n): the old value stays in sight for one instruction. -/
def Eng.groupPt (x : Eng) (i : Nat) (v : Word) : Eng :=
  { x.setPt i v with nextP := (i, x.ptRaw i) :: x.nextP }
def Eng.groupSt (x : Eng) (i : Nat) (v : Word) : Eng :=
  { x.setSt i v with nextP := (8 + i, x.stRaw i) :: x.nextP }

/-- A boundary (R380): every pending load completes, nothing old stays in sight. -/
def Eng.settle (x : Eng) : Eng :=
  { x with staleG := [], nextG := [], staleP := [], nextP := [], staleL := none, nextL := none }

/-- The values that stay in sight for the instruction after this one. -/
def Eng.shiftStale (x : Eng) : Eng :=
  { x with staleG := x.nextG, nextG := [], staleP := x.nextP, nextP := [], staleL := x.nextL, nextL := none }

/-- STATUS (R339). -/
def Eng.exc (x : Eng) : Bool := x.status.toNat.testBit 0
def Eng.ie (x : Eng) : Bool := x.status.toNat.testBit 1
def Eng.frm (x : Eng) : Nat := getBits 2 2 x.status
def Eng.dwin (x : Eng) : Nat := getBits 12 2 x.status

/-- The bits of STATUS that MTS writes: IE only with the signal profile. -/
def statusMask (e : Nat) : Nat := if isSdsp e then 0x31FF else 0x31FD

/-- INTDEPTH of SDSP `e` (R382). -/
def State.intDepth (s : State) (e : Nat) : Nat := if isSdsp e then s.f (SDS.STAT_INTDEPTH (e - 4)) else 0

/-- An address as the PC takes it: a multiple of 4 (R338). -/
def pcOf (a : Word) : Word := a &&& 0xFFFFFFFC#32

/-- Does SDSP `e` run in W24 (R370). -/
def State.w24 (s : State) (e : Nat) : Bool := isSdsp e && s.on (SDS.STAT_W (e - 4))

/-- Engine cycles since reset (R340). -/
def State.cycles (s : State) (e : Nat) : Nat := cyclesIn e (s.now - (s.en e).cyc0)

/-- Engine `e` stands at a boundary: between two instructions, with no delay slot left (R380). -/
def State.atBoundary (s : State) (e : Nat) : Bool := (s.en e).slot.isNone && !(s.en e).busy

/-- The size of the program memory of engine `e` (R341). -/
def progBytes (e : Nat) : Nat := (MemId.prog (Fin.ofNat 16 e)).size

/-! ## Contexts (R316) -/

/-- The context of the engine as bytes: 1 KiB with the layout of R316, reserved bytes 0. -/
def Eng.context (x : Eng) (e : Nat) : List Byte :=
  let body :=
    (List.range 32).map (fun r => ((x.gRaw r).toNat, 4))
    ++ (List.range 32).map (fun r => (if hasFp32 e then (x.fpr r).toNat else 0, 8))
    ++ [(x.pc.toNat, 4), (x.status.toNat, 4), (x.p.toNat, 4), (0, 116)]
    ++ (if isSdsp e then
        (List.range 4).map (fun i => ((x.accRaw i).toNat, 8))
        ++ (List.range 8).map (fun i => ((x.ptRaw i).toNat, 4))
        ++ (List.range 8).map (fun i => ((x.stRaw i).toNat, 4))
        ++ [x.lp.lc0, x.lp.lc1, x.lp.ls0, x.lp.le0, x.lp.ls1, x.lp.le1].map (fun w => (w.toNat, 4))
        ++ [(0, 392)]
      else [(0, 512)])
  packBytes body

def State.ctxAddr (s : State) (t : Nat) : Nat := s.f CLV.CTXBASE_V + t * 0x400

/-- Clove writes the context of engine `e` to the area of thread `t`. -/
def State.ctxSave (s : State) (e t : Nat) : State :=
  s.putBytes .shared (s.ctxAddr t) ((s.en e).context e)

def wordAt (s : State) (a : Nat) : Word := BitVec.ofNat 32 (s.load .shared a 4)

/-- Clove reads the context of thread `t` into engine `e`. -/
def State.ctxLoad (s : State) (e t : Nat) : State :=
  let a := s.ctxAddr t
  let x := (s.en e).settle
  let x := (List.range 32).foldl (fun (y : Eng) r => y.setG r (wordAt s (a + 4 * r))) x
  let x := if hasFp32 e then
      (List.range 32).foldl (fun (y : Eng) r => y.setE r (BitVec.ofNat 64 (s.load .shared (a + 0x80 + 8 * r) 8))) x
    else x
  let x := { x with
    pc := pcOf (wordAt s (a + 0x180)), status := wordAt s (a + 0x184) &&& BitVec.ofNat 32 (statusMask e),
    p := BitVec.ofNat 4 (s.load .shared (a + 0x188) 1), slot := none }
  let x := if isSdsp e then
      let y := (List.range 4).foldl (fun (y : Eng) i => y.setAcc i (BitVec.ofNat 64 (s.load .shared (a + 0x200 + 8 * i) 8))) x
      let y := (List.range 8).foldl (fun (y : Eng) i => (y.setPt i (wordAt s (a + 0x220 + 4 * i))).setSt i (wordAt s (a + 0x240 + 4 * i))) y
      { y with lp := ⟨wordAt s (a + 0x260), wordAt s (a + 0x264), wordAt s (a + 0x268), wordAt s (a + 0x26C), wordAt s (a + 0x270), wordAt s (a + 0x274)⟩ }
    else x
  s.setEn e x

/-- START (R317): the context of thread `t` is PC := ENTRY, every other register and predicate 0. -/
def State.ctxStart (s : State) (t : Nat) : State :=
  let z := (List.range 0x278).foldl (fun (u : State) i => u.setByte .shared (u.ctxAddr t + i) 0#8) s
  z.put .shared (z.ctxAddr t + 0x180) 4 (z.rd (CLVT.ENTRY t)).toNat

end Sys2Proof.Machine
end

