-- ==== Sys2Proof/Machine/Clv.lean ====
section
/-! DEFINITION. Clove Task Dispatcher (spec/14_clove_dispatcher.md, R314 to R336): threads and their
commands, the matching store and its overflow queues, placing threads on engines, budgets, and the
graph mode. -/

namespace Sys2Proof.Machine

def thFREE : Nat := 0
def thHALTED : Nat := 1
def thWAITING : Nat := 2
def thREADY : Nat := 3
def thRUNNING : Nat := 4

def State.thread (s : State) (t : Nat) : Nat := s.f (CLVT.STAT_STATE t)
def State.setThread (s : State) (t st : Nat) : State := s.setF (CLVT.STAT_STATE t) st
def State.graphMode (s : State) : Bool := s.on CLV.STAT_MODE
def State.prioOf (s : State) (t : Nat) : Nat := s.f (CLVT.CFG_PRIO t)
/-- PLN0–PLN3 and SDSP0–SDSP7 stand still in HOLDUP (R462). -/
def State.engStopped (s : State) (e : Nat) : Bool := s.pws.stopped && decide (e < 12)
def State.mayRun (s : State) (t e : Nat) : Bool := (s.f (CLVT.CFG_AFF t)).testBit e && !s.engStopped e

def none3 (_ : Nat) : Option Nat := none
def State.incoming (s : State) (e : Nat) : Option Nat := s.clv.incoming.get none3 e
def State.resident (s : State) (e : Nat) : Option Nat := s.clv.resident.get none3 e
def State.fetched (s : State) (e : Nat) : Bool := s.clv.fetched.get (fun _ => false) e
def State.runningOn (s : State) (e : Nat) : Option Nat :=
  if s.on (CLV.ENG_RUN_V e) then some (s.f (CLV.ENG_RUN_T e)) else none

def State.setIncoming (s : State) (e : Nat) (v : Option Nat) : State :=
  { s with clv := { s.clv with incoming := s.clv.incoming.set none3 e v } }
def State.setResident (s : State) (e : Nat) (v : Option Nat) : State :=
  { s with clv := { s.clv with resident := s.clv.resident.set none3 e v } }
def State.setFetched (s : State) (e : Nat) (v : Bool) : State :=
  { s with clv := { s.clv with fetched := s.clv.fetched.set (fun _ => false) e v } }
def State.setReady (s : State) (l : List Nat) : State := { s with clv := { s.clv with ready := l } }
def State.setWaiters (s : State) (l : List Nat) : State := { s with clv := { s.clv with waiters := l } }

/-- The thread that engine `e` runs or is about to run. -/
def State.engThread (s : State) (e : Nat) : Option Nat :=
  match s.incoming e with
  | some t => some t
  | none => s.runningOn e

/-- Every thread is FREE. -/
def State.allFree (s : State) : Bool :=
  (List.range 1024).all (fun t => decide (s.thread t = thFREE))

/-- The tag of wait position `i` of thread `t`. -/
def State.waitTag (s : State) (t i : Nat) : Nat :=
  if i = 0 then s.f (CLVT.WAIT01_T0 t) else if i = 1 then s.f (CLVT.WAIT01_T1 t)
  else if i = 2 then s.f (CLVT.WAIT23_T2 t) else s.f (CLVT.WAIT23_T3 t)

def State.filled (s : State) (t i : Nat) : Bool := (s.f (CLVT.STAT_FILLED t)).testBit i

/-- Position `i` of thread `t` takes a value. -/
def State.fillPos (s : State) (t i : Nat) (v : Word) : State :=
  let s := s.setF (CLVT.STAT_FILLED t) (Nat.lor (s.f (CLVT.STAT_FILLED t)) (2 ^ i))
  { s with clv := { s.clv with vals := s.clv.vals.set zeroW (4 * t + i) v } }

/-- Every used position is filled. -/
def State.allFilled (s : State) (t : Nat) : Bool :=
  (List.range 4).all (fun i => decide (s.waitTag t i = 0) || s.filled t i)

/-! ## Leaving an engine -/

/-- Engine cycles used in the present activation go to the account of the running thread (R325). -/
def State.account (s : State) (e t : Nat) : State :=
  let n := s.clv.used.get (fun _ => 0) t + cyclesIn e (s.now - s.clv.runAt.get (fun _ => 0) e)
  { s with clv := { s.clv with used := s.clv.used.set (fun _ => 0) t n } }.setF (CLVT.RUN_V t) (n / 16)

/-- A new activation starts with an empty account. -/
def State.newBudget (s : State) (t : Nat) : State :=
  { s with clv := { s.clv with used := s.clv.used.set (fun _ => 0) t 0 } }.setF (CLVT.RUN_V t) 0

/-- Engine `e` runs no thread any more. -/
def State.leaveEngine (s : State) (e t : Nat) : State :=
  let s := s.account e t
  let s := (s.cancel (.budgetExpiry (Fin.ofNat 1024 t))).cancel (.engineWdtExpiry (Fin.ofNat 16 e))
  let x := s.en e
  ((s.setEn e { x.settle with halt := false, requeue := false, busy := false }).flag (CLV.ENG_RUN_V e) false)

/-- A KEEP thread that waits or is READY holds the local slot of its engine (R324). -/
def State.keepSlot (s : State) (t : Nat) : State :=
  if s.on (CLVT.CFG_KEEP t) then
    match (List.range 15).find? (fun e => (s.f (CLVT.CFG_AFF t)).testBit e) with
    | some e => ((s.setF (CLV.ENG_SLOT_T e) t).raise (CLV.ENG_SLOT_V e)).raise (CLV.ENG_KEEP_V e)
    | none => s
  else s

/-- The local slot of engine `e` gives up thread `t`. -/
def State.dropSlot (s : State) (e t : Nat) : State :=
  if s.on (CLV.ENG_SLOT_V e) && decide (s.f (CLV.ENG_SLOT_T e) = t) then
    ((s.flag (CLV.ENG_SLOT_V e) false).flag (CLV.ENG_KEEP_V e) false).setF (CLV.ENG_SLOT_T e) 0
  else s

/-- Is the context of thread `t` in engine `e` or in its slot. -/
def State.atHand (s : State) (e t : Nat) : Bool :=
  decide (s.resident e = some t) || (s.on (CLV.ENG_SLOT_V e) && decide (s.f (CLV.ENG_SLOT_T e) = t))

/-- The context that engine `e` holds goes to memory and leaves the engine, unless it is `t`. -/
def State.evict (s : State) (e t : Nat) : State :=
  match s.resident e with
  | some r => if r = t then s else (s.ctxSave e r).setResident e none
  | none => s

/-- An engine that keeps thread `t` resident while another is to run it writes its context back. -/
def State.recall (s : State) (e t : Nat) : State :=
  (List.range 15).foldl (fun (u : State) f =>
    if !decide (f = e) && decide (u.resident f = some t) then (u.ctxSave f t).setResident f none else u) s

/-! ## Switching (R322, R323, R326, R335) -/

/-- May the thread on engine `e` be preempted now: a boundary with EXC = 0 and INTDEPTH = 0. -/
def State.mayPreempt (s : State) (e : Nat) : Bool :=
  s.atBoundary e && !(s.en e).exc && decide (s.intDepth e = 0)

/-- The thread that runs on `e` is preempted and rejoins READY at the tail. -/
def State.preempt (s : State) (e t : Nat) : State :=
  let s := (s.ctxSave e t).leaveEngine e t
  let s := (s.setResident e none).setThread t thREADY
  (s.setReady (s.clv.ready ++ [t])).keepSlot t

/-- With its context at hand the incoming thread swaps in: 24 engine cycles, at the next boundary at
which the running thread may leave. -/
def State.swapIn (s : State) (e : Nat) : State :=
  match s.incoming e with
  | none => s
  | some t =>
    if !s.fetched e then s
    else
      match s.runningOn e with
      | some r => if s.mayPreempt e then
          (((s.preempt e r).evict e t).undue (fun v => decide (v = .engineGo e))).due (ticksFor e 24) (.engineGo e) else s
      | none => ((s.evict e t).undue (fun v => decide (v = .engineGo e))).due (ticksFor e 24) (.engineGo e)

/-- The time of a context fetch (R335): at most 120 ns, on an SDSP 160 ns; typical 90 and 120 ns. -/
def fetchTicks (s : State) (e : Nat) : Nat :=
  if isSdsp e then 30 + s.freeNat % 11 else 22 + s.freeNat % 9

/-- The thread whose context engine `e` fetches ahead into its slot (R323). -/
def State.fetching (s : State) (e : Nat) : Option Nat := s.clv.fetching.get none3 e
def State.setFetching (s : State) (e : Nat) (v : Option Nat) : State :=
  { s with clv := { s.clv with fetching := s.clv.fetching.set none3 e v } }

/-- A fetch into the slot of engine `e` begins, or ends without a context. -/
def State.fetchBegin (s : State) (e : Nat) : State :=
  s.tickFree.resched (fetchTicks s e) (.contextFetchDone (Fin.ofNat 15 e))
def State.fetchDrop (s : State) (e : Nat) : State :=
  (s.setFetching e none).cancel (.contextFetchDone (Fin.ofNat 15 e))

/-- Engine `e` takes thread `t` next: its context is at hand, on its way already, or fetched now. -/
def State.give (s : State) (e t : Nat) : State :=
  let going := decide (s.fetching e = some t)
  let s := ((s.recall e t).setIncoming e (some t)).undue (fun v => decide (v = .engineGo e))
  if s.graphMode || s.atHand e t then ((s.fetchDrop e).setFetched e true).swapIn e
  else if going then (s.setFetching e none).setFetched e false
  else ((s.setFetching e none).setFetched e false).fetchBegin e

/-- The engine whose thread has the lowest priority, below that of `t`; ties to the highest `e`. -/
def State.victim (s : State) (t : Nat) : Option Nat :=
  (List.range 15).foldl (fun (b : Option Nat) e =>
    match s.engThread e with
    | some r =>
      if s.mayRun t e && decide (s.prioOf t < s.prioOf r) then
        match b with
        | some f => match s.engThread f with
          | some q => if s.prioOf q ≤ s.prioOf r then some e else some f
          | none => some e
        | none => some e
      else b
    | none => b) none

/-- A thread that becomes READY is placed by the first case of R322 that applies; graph nodes preempt
nothing (R332). -/
def State.placeThread (s : State) (t : Nat) : State :=
  let s := (s.setThread t thREADY).keepSlot t
  match (List.range 15).find? (fun e => s.mayRun t e && (s.engThread e).isNone) with
  | some e => s.give e t
  | none =>
    match (if s.graphMode then none else s.victim t) with
    | some e =>
      let s := match s.incoming e with
        | some u => s.setReady (s.clv.ready ++ [u])
        | none => s
      s.give e t
    | none => s.setReady (s.clv.ready ++ [t])

/-- The READY thread that engine `e` takes when it falls free: the highest priority in its mask, the
oldest first. -/
def State.bestReady (s : State) (e : Nat) : Option Nat :=
  s.clv.ready.foldl (fun (b : Option Nat) t =>
    if s.mayRun t e then
      match b with
      | some u => if s.prioOf t < s.prioOf u then some t else some u
      | none => some t
    else b) none

/-- The slot of engine `e` holds the context of the thread that it runs next (R323): the best READY thread while
another runs, unless a KEEP thread holds the slot (R324). -/
def State.slotNext (s : State) (e : Nat) : State :=
  if s.on (CLV.ENG_KEEP_V e) || (s.incoming e).isSome || (s.runningOn e).isNone || s.engStopped e then s
  else
    let next := s.bestReady e
    let held := if s.on (CLV.ENG_SLOT_V e) then some (s.f (CLV.ENG_SLOT_T e)) else none
    let s := if held = next then s.fetchDrop e else match held with
      | some t => s.dropSlot e t
      | none => s
    if held = next ∨ s.fetching e = next then s
    else match next with
      | some _ => (s.setFetching e next).fetchBegin e
      | none => s.fetchDrop e

/-- In thread mode every engine looks ahead. -/
def State.slotsNext (s : State) : State :=
  if s.graphMode || (s.clv.ready.isEmpty && s.clv.fetching.cells.isEmpty) then s else (List.range 15).foldl State.slotNext s

/-- Engine `e` has fallen free. -/
def State.pick (s : State) (e : Nat) : State :=
  match s.incoming e with
  | some _ => s.swapIn e
  | none =>
    match s.bestReady e with
    | some t => (s.setReady (s.clv.ready.erase t)).give e t
    | none => s

/-- The last position is filled: the thread leaves WAITING, its activation counts, and it is placed. -/
def State.becomeReady (s : State) (t : Nat) : State :=
  let s := s.setWaiters (s.clv.waiters.erase t)
  let s := ({ s with clv := { s.clv with deliver := t :: s.clv.deliver.erase t } }.bumpMod (CLVT.STAT_ACT t)).newBudget t
  s.placeThread t

/-- Deliver the values of the wait positions to g4 to g7 (R319), or A, B and the node number to g4 to
g6 (R332). -/
def State.deliverTo (s : State) (e t : Nat) : State :=
  if s.clv.deliver.contains t then
    let v (i : Nat) : Word := if s.waitTag t i = 0 then 0#32 else s.clv.vals.get zeroW (4 * t + i)
    let x := ((s.en e).setG 4 (v 0)).setG 5 (v 1)
    let x := if s.graphMode then x.setG 6 (BitVec.ofNat 32 t) else (x.setG 6 (v 2)).setG 7 (v 3)
    let s := (s.setEn e x).setF (CLVT.STAT_FILLED t) 0
    { s with clv := { s.clv with
        deliver := s.clv.deliver.erase t
        vals := (List.range 4).foldl (fun (m : FMap Word) i => m.set zeroW (4 * t + i) 0#32) s.clv.vals } }
  else s

/-- The budget of thread `t` in engine cycles that are left; none: no budget. -/
def State.budgetLeft (s : State) (t : Nat) : Option Nat :=
  if s.f (CLVT.BUDGET_V t) = 0 then none
  else some (s.f (CLVT.BUDGET_V t) * 16 - s.clv.used.get (fun _ => 0) t)

/-- Restart the watchdog of engine `e`; LIMIT 0 disables it (R473). -/
def State.armWatchdog (s : State) (e : Nat) : State :=
  let n := s.f (PWS.EWD_LIMIT e)
  if n = 0 then s.cancel (.engineWdtExpiry (Fin.ofNat 16 e)) else s.resched (n * 250) (.engineWdtExpiry (Fin.ofNat 16 e))

/-- Arm the budget and the engine watchdog (R325, R473). -/
def State.armTimers (s : State) (e t : Nat) : State :=
  let s := match s.budgetLeft t with
    | some n => s.resched (ticksFor e n) (.budgetExpiry (Fin.ofNat 1024 t))
    | none => s
  s.armWatchdog e

/-- Engine `e` starts to run its incoming thread. -/
def State.engineGo (s : State) (e : Nat) : State :=
  match s.incoming e, s.runningOn e with
  | some t, none =>
    let s := if s.graphMode then
        s.setEn e { (s.en e).settle with pc := s.rd (CLVT.ENTRY t), status := (s.en e).status, slot := none, node := 0 }
      else if s.resident e = some t then s else s.ctxLoad e t
    let s := ((List.range 15).foldl (fun (u : State) f => u.dropSlot f t) s)
    let s := (s.setResident e (some t)).setIncoming e none
    let s := ((s.setF (CLV.ENG_RUN_T e) t).raise (CLV.ENG_RUN_V e)).setThread t thRUNNING
    let s := (s.setF (CLVT.STAT_ENGINE t) e).deliverTo e t
    let s := { s with clv := { s.clv with runAt := s.clv.runAt.set (fun _ => 0) e s.now } }
    s.armTimers e t
  | _, _ => s

/-- CONTEXT_FETCH_DONE (R323): the fetched context stands in the local slot, of the thread that swaps in or of the one
that comes next. -/
def State.fetchDone (s : State) (e : Nat) : State :=
  match s.incoming e with
  | some t =>
    if s.fetched e then s
    else
      let s := if s.on (CLV.ENG_KEEP_V e) then s
        else (s.setF (CLV.ENG_SLOT_T e) t).raise (CLV.ENG_SLOT_V e)
      (s.setFetched e true).swapIn e
  | none =>
    match s.fetching e with
    | some t =>
      if s.on (CLV.ENG_KEEP_V e) then s.fetchDrop e
      else ((s.fetchDrop e).setF (CLV.ENG_SLOT_T e) t).raise (CLV.ENG_SLOT_V e)
    | none => s

/-! ## Commands of threads (R317) -/

/-- Values already delivered to the wait positions of `t` are discarded and counted. -/
def State.discard (s : State) (t : Nat) : State :=
  let n := ((List.range 4).filter (fun i => s.filled t i)).length
  let s := (s.bump CLV.CNT_DISCARD n).setF (CLVT.STAT_FILLED t) 0
  { s with clv := { s.clv with deliver := s.clv.deliver.erase t } }

/-- The thread becomes HALTED: out of every list, its context in memory. -/
def State.haltedNow (s : State) (t : Nat) : State :=
  let s := s.recall 99 t
  let s := ((s.setReady (s.clv.ready.erase t)).setWaiters (s.clv.waiters.erase t)).discard t
  ((List.range 15).foldl (fun (u : State) e => u.dropSlot e t) s).setThread t thHALTED

/-- The thread running on `e` is stopped at this boundary and becomes HALTED; interrupts in progress end
(R383). -/
def State.haltRunning (s : State) (e t : Nat) : State :=
  let s := ((s.ctxSave e t).leaveEngine e t).setResident e none
  let s := if isSdsp e then s.setF (SDS.STAT_INTDEPTH (e - 4)) 0 else s
  (s.haltedNow t).pick e

/-- Is thread `t` running, and where. -/
def State.engineOf (s : State) (t : Nat) : Option Nat :=
  (List.range 15).find? (fun e => decide (s.runningOn e = some t))

/-- HALT: a RUNNING thread stops at the next boundary. -/
def State.clvHalt (s : State) (t : Nat) : State :=
  match s.engineOf t with
  | some e =>
    if s.atBoundary e then s.haltRunning e t else s.setEn e { s.en e with halt := true }
  | none =>
    match (List.range 15).find? (fun e => decide (s.incoming e = some t)) with
    | some e =>
      let s := (s.undue (fun v => decide (v = .engineGo e))).fetchDrop e
      let s := (s.setIncoming e none).haltedNow t
      if (s.runningOn e).isNone then s.pick e else s
    | none => s.haltedNow t

/-- START. -/
def State.clvStart (s : State) (t : Nat) : State :=
  if s.f (CLVT.CFG_AFF t) = 0 then s.raise CLV.STAT_ERR_ARG
  else if decide (s.thread t = thFREE) || decide (s.thread t = thHALTED) then
    (((s.ctxStart t).bumpMod (CLVT.STAT_ACT t)).newBudget t).placeThread t
  else s.sysIllegal

def State.threadStart (s : State) (t : Nat) : State := if s.graphMode then s.sysIllegal else s.clvStart t

def State.threadHalt (s : State) (t : Nat) : State :=
  if !s.graphMode && [thWAITING, thREADY, thRUNNING].contains (s.thread t) then s.clvHalt t else s.sysIllegal

def State.threadFree (s : State) (t : Nat) : State :=
  if !s.graphMode && decide (s.thread t = thHALTED) then s.setThread t thFREE else s.sysIllegal

/-- A write of CLV_Tt_CTRL: the commands of its set bits, START first. -/
def State.threadCtrl (s : State) (t : Nat) (v : Word) : State :=
  let b (i : Nat) : Bool := v.toNat.testBit i
  let s := if b 0 then s.threadStart t else s
  let s := if b 1 then s.threadHalt t else s
  if b 2 then s.threadFree t else s

/-- KEEP needs a mask of exactly one engine and no other KEEP thread there (R324). -/
def State.threadCfgBad (s : State) (t : Nat) (v : Word) : Bool :=
  let aff := getBits 5 15 v
  v.toNat.testBit 20
    && (!decide (((List.range 15).filter (fun e => aff.testBit e)).length = 1)
      || (List.range 1024).any (fun u => !decide (u = t) && s.on (CLVT.CFG_KEEP u) && decide (s.f (CLVT.CFG_AFF u) = aff)))

/-- A write of a thread register (R317, R324, R336); the offset counts from the thread's base. -/
def State.threadWrite (s : State) (t rel : Nat) (v hw : Word) : State :=
  let off := CLVT.CFG t + rel
  let locked := s.graphMode || !(decide (s.thread t = thFREE) || decide (s.thread t = thHALTED))
  if rel = 0 then s.judge (s.threadCfgBad t v) CLV.STAT_ERR_ARG locked (fun u => u.store off v)
  else if rel = 4 then s.judge (decide (v.toNat % 4 ≠ 0)) CLV.STAT_ERR_ARG locked (fun u => u.store off v)
  else if rel = 8 then s.judge false CLV.STAT_ERR_ARG locked (fun u => u.store off v)
  else if rel = 12 then s.threadCtrl t v
  else if s.graphMode then s.sysIllegal else s.store off v hw

/-! ## The graph (R330 to R334) -/

/-- The result of the graph is known: no further node fires; when none runs the graph is done. -/
def State.graphStop (s : State) (res : Nat) : State :=
  let s := { s with clv := { s.clv with gend := some res, waiters := [], ready := [] } }
  let s := (List.range 15).foldl (fun (u : State) e =>
    if (u.runningOn e).isNone then
      (u.setIncoming e none).undue (fun v => decide (v = .engineGo e))
    else u) s
  if (List.range 15).all (fun e => (s.runningOn e).isNone) then s.due 0 .graphDone else s

/-- A node or the table fails (R333). -/
def State.graphErr (s : State) (unit : Nat) : State :=
  ((s.raise CLV.STAT_GRAPH_ERR).recordStat 0x02 0x04 unit 2 CLV.STAT).graphStop 9

/-- The node running on `e` ends. -/
def State.nodeLeaves (s : State) (e t : Nat) : State :=
  let s := (s.leaveEngine e t).setResident e none
  let s := s.setThread t thFREE
  if s.clv.gend.isSome then
    if (List.range 15).all (fun f => (s.runningOn f).isNone) then s.due 0 .graphDone else s
  else s

/-! ## Tokens (R318, R327 to R329) -/

/-- Tokens parked in the queue of a tag. -/
def State.parked (s : State) (q : Nat) : Nat := s.f (CLV.PARK_V q)
def queueOf (tag : BitVec 16) : Nat := tag.toNat % 8
def parkRoom : Nat := 131072
def storeRoom : Nat := 4096

def State.someParked (s : State) : Bool := (List.range 8).any (fun q => decide (s.parked q ≠ 0))
def State.queueFull (s : State) : Bool := (List.range 8).any (fun q => decide (parkRoom ≤ s.parked q))

/-- Clove discards a token (R318). -/
def State.postErr (s : State) : State := (s.raise CLV.STAT_POST_ERR).bump CLV.CNT_POST_ERR_CNT

/-- Park a token (R327). -/
def State.park (s : State) (k : Token) : State :=
  let first := !s.someParked
  let s := { s with clv := { s.clv with park := s.clv.park ++ [k] } }
  let s := s.setF (CLV.PARK_V (queueOf k.tag)) (s.parked (queueOf k.tag) + 1)
  let s := (s.raise CLV.STAT_STORE_FULL).raise CLV.STAT_PARKED
  let s := if first then s.recordStat 0x02 0x01 0 2 CLV.STAT else s
  if s.parked (queueOf k.tag) = parkRoom then s.resched 250000 .overflowTimeout else s

/-- The overflow escalates (R329). -/
def State.overflow (s : State) : State :=
  (((s.raise CLV.STAT_OVF_FULL).recordStat 0x02 0x03 0 2 CLV.STAT).cancel .overflowTimeout).sched 0 .moduleWdtExpiry

/-- The first waiting thread with an unfilled position of this tag. -/
def State.waiterFor (s : State) (tag : Nat) : Option (Nat × Nat) :=
  s.clv.waiters.findSome? (fun t =>
    ((List.range 4).find? (fun i => decide (s.waitTag t i = tag) && !s.filled t i)).map (fun i => (t, i)))

/-- Cases 3, 5 and 6 of R318; none: no case admits the token. -/
def State.admitToken (s : State) (k : Token) : Option State :=
  if decide (s.f NMG.TAGS_CMD_TAG = k.tag.toNat) then some (s.nmgSubmit k.val .none)
  else
    match s.waiterFor k.tag.toNat with
    | some (t, i) =>
      let s := s.fillPos t i k.val
      some (if s.allFilled t then s.becomeReady t else s)
    | none =>
      if s.clv.store.length < storeRoom then
        let s := { s with clv := { s.clv with store := s.clv.store ++ [k] } }
        some (s.setF CLV.STORE_V s.clv.store.length)
      else none

/-- Is the token discarded (cases 1 and 2): tag 0, or 0xFF00 to 0xFF07 from another source than the time
base unit. -/
def Token.refused (k : Token) (tb : Bool) : Bool :=
  decide (k.tag = 0#16) || (!tb && decide (0xFF00 ≤ k.tag.toNat ∧ k.tag.toNat ≤ 0xFF07))

/-- R318: Clove takes an arriving token. -/
def State.takeToken (s : State) (k : Token) (tb : Bool) : State :=
  if k.refused tb then s.postErr
  else if decide (s.f NMG.TAGS_CMD_TAG = k.tag.toNat) then s.nmgSubmit k.val .none
  else if s.parked (queueOf k.tag) ≠ 0 then s.park k
  else (s.admitToken k).getD (s.park k)

/-- Ranks below this belong to the time base unit (R321). -/
def rankTb : Nat := 200

/-- A token arrives: while a queue is full it waits in the input FIFO (R329). -/
def State.arriveToken (s : State) (k : Token) (tb : Bool) : State :=
  if s.queueFull || !s.clv.fifo.isEmpty then
    let s := { s with clv := { s.clv with fifo := s.clv.fifo ++ [{ k with rank := if tb then 0 else rankTb }] } }
    if s.clv.fifo.length = 64 then s.overflow else s
  else s.takeToken k tb

/-- The heads of the non-empty queues, the oldest first. -/
def heads (l : List Token) : List Token :=
  (l.foldl (fun (acc : List Nat × List Token) k =>
    if acc.1.contains (queueOf k.tag) then acc else (queueOf k.tag :: acc.1, acc.2 ++ [k])) ([], [])).2

/-- Take the first of the heads that a case admits. -/
def State.drainHeads (s : State) : List Token → State
  | [] => s
  | k :: ks =>
    match s.admitToken k with
    | some t =>
      let q := queueOf k.tag
      let wasFull := decide (s.parked q = parkRoom)
      let t := { t with clv := { t.clv with park := t.clv.park.erase k } }
      let t := t.setF (CLV.PARK_V q) (s.parked q - 1)
      let t := t.flag CLV.STAT_PARKED t.someParked
      if wasFull && !t.queueFull then t.cancel .overflowTimeout else t
    | none => s.drainHeads ks

/-- The input FIFO empties once Clove takes tokens again. -/
def State.drainFifo (s : State) : Nat → State
  | 0 => s
  | n + 1 =>
    match s.clv.fifo with
    | [] => s
    | k :: r =>
      if s.queueFull then s
      else ({ s with clv := { s.clv with fifo := r } }.takeToken k (decide (k.rank < rankTb))).drainFifo n

/-- OVERFLOW_DRAIN (R328): a cycle in which no token arrives. -/
def State.overflowDrain (s : State) : State :=
  let s := s.drainHeads (heads s.clv.park)
  s.drainFifo s.clv.fifo.length

/-! ## Graph start and mode changes -/

/-- A position takes the oldest stored token of its tag. -/
def State.fillFromStore (s : State) (t i : Nat) : State :=
  let tag := s.waitTag t i
  if tag = 0 then s
  else
    match s.clv.store.find? (fun k => decide (k.tag.toNat = tag)) with
    | some k =>
      let s := { s with clv := { s.clv with store := s.clv.store.erase k } }
      (s.setF CLV.STORE_V s.clv.store.length).fillPos t i k.val
    | none => s

/-- Node `n` is armed on its operand tags. -/
def State.armNode (s : State) (n : Nat) : State :=
  let s := (s.setThread n thWAITING).setWaiters (s.clv.waiters ++ [n])
  let s := (s.fillFromStore n 0).fillFromStore n 1
  if s.allFilled n then s.becomeReady n else s

/-- One entry of the node table (R331). -/
structure NodeEntry where
  entry : Nat
  tagA : Nat
  tagB : Nat
  aff : Nat
  prio : Nat
  flags : Nat
  rsv : Nat
  deriving DecidableEq, Repr

def State.nodeAt (s : State) (n : Nat) : NodeEntry :=
  let a := s.f CLV.GBASE_V + 16 * n
  ⟨s.load .shared a 4, s.load .shared (a + 4) 2, s.load .shared (a + 6) 2, s.load .shared (a + 8) 2,
    s.load .shared (a + 10) 1, s.load .shared (a + 11) 1, s.load .shared (a + 12) 4⟩

def NodeEntry.bad (x : NodeEntry) : Bool :=
  decide (x.entry % 4 ≠ 0) || decide (x.tagA = 0) || decide (x.aff = 0) || decide (0x8000 ≤ x.aff)
    || decide (31 < x.prio) || decide (1 < x.flags) || decide (x.rsv ≠ 0)

/-- The entries up to the first with ENTRY = 0. -/
def State.nodes (s : State) (n : Nat) : Nat → List NodeEntry
  | 0 => []
  | k + 1 => if (s.nodeAt n).entry = 0 then [] else s.nodeAt n :: s.nodes (n + 1) k

/-- Node `n` uses the thread control block of T`n`. -/
def State.loadNode (s : State) (n : Nat) (x : NodeEntry) : State :=
  let s := ((s.setF (CLVT.CFG_PRIO n) x.prio).setF (CLVT.CFG_AFF n) x.aff).flag (CLVT.CFG_KEEP n) false
  let s := (s.wrN (CLVT.ENTRY n) x.entry).setF (CLVT.BUDGET_V n) 0
  let s := ((s.setF (CLVT.WAIT01_T0 n) x.tagA).setF (CLVT.WAIT01_T1 n) x.tagB).wr (CLVT.WAIT23 n) 0#32
  if x.flags = 1 then { s with clv := { s.clv with once := n :: s.clv.once } } else s

/-- The graph starts: every node is armed, then the start token is posted (R332). -/
def State.graphStart (s : State) : State :=
  let ns := s.nodes 0 1024
  if ns.any NodeEntry.bad then s.graphErr 0
  else
    let idx := ns.zip (List.range ns.length)
    let s := idx.foldl (fun (u : State) x => u.loadNode x.2 x.1) s
    let s := (List.range ns.length).foldl State.armNode s
    s.takeToken ⟨1#16, BitVec.ofNat 32 s.mstate, 0⟩ true

/-- Every engine stops, every thread is FREE, the store and every queue are empty. -/
def State.clvClear (s : State) : State :=
  let s := (List.range 15).foldl (fun (u : State) e =>
    let u := match u.runningOn e with | some t => u.leaveEngine e t | none => u
    let u := if isSdsp e then u.setF (SDS.STAT_INTDEPTH (e - 4)) 0 else u
    ((u.wr (CLV.ENG e) 0#32).undue (fun v => decide (v = .engineGo e) || decide (v = .cmd (.contextFetchDone (Fin.ofNat 15 e)))))
      |>.setEn e { u.en e with slot := none }) s
  let busy := (List.range 1024).filter (fun t => decide (s.rd (CLVT.STAT t) ≠ regReset (CLVT.STAT t)))
  let s := busy.foldl (fun (u : State) t => (u.setThread t thFREE).setF (CLVT.STAT_FILLED t) 0) s
  let s := (List.range 8).foldl (fun (u : State) q => u.wr (CLV.PARK q) 0#32) s
  let s := ((s.wr CLV.STORE 0#32).flag CLV.STAT_PARKED false).cancel .overflowTimeout
  { s with clv := Clv.reset }.undue (fun (v : Ev) => decide (v = Ev.graphDone))

/-- Entry to BOOT, TEST or RECOVERY (R330): graph mode. `run`: the node table is in place. -/
def State.clvGraph (s : State) : State := ((s.clvClear).raise CLV.STAT_MODE).raise PWS.MODSTATE_GRAPH

/-- Entry to READY from TEST or RECOVERY (R330): thread mode, and T0 starts on SVC at priority 0. -/
def State.clvThreads (s : State) : State :=
  let s := ((s.clvClear).flag CLV.STAT_MODE false).flag PWS.MODSTATE_GRAPH false
  let s := (s.wrN (CLVT.CFG 0) (2 ^ (5 + 14))).wr (CLVT.BUDGET 0) 0#32
  s.clvStart 0

/-! ## TWAIT (R319, R320, R333, R357) -/

/-- The wait positions of thread `t` take the tags of a TWAIT. -/
def State.setWait (s : State) (t : Nat) (a b : Word) : State :=
  ((s.wr (CLVT.WAIT01 t) a).wr (CLVT.WAIT23 t) b).setF (CLVT.STAT_FILLED t) 0

/-- Some READY thread of higher priority may run on engine `e`. -/
def State.higherReady (s : State) (e t : Nat) : Bool :=
  match s.incoming e with
  | some u => decide (s.prioOf u < s.prioOf t)
  | none => s.clv.ready.any (fun u => s.mayRun u e && decide (s.prioOf u < s.prioOf t))

/-- The values reach g4 to g7 in place: the thread goes on without leaving the engine. -/
def State.waitInPlace (s : State) (e t : Nat) : State :=
  let s := { s with clv := { s.clv with deliver := t :: s.clv.deliver.erase t } }
  let s := ((s.bumpMod (CLVT.STAT_ACT t)).newBudget t).deliverTo e t
  { s with clv := { s.clv with runAt := s.clv.runAt.set (fun _ => 0) e s.now } }.armTimers e t

/-- A TWAIT with four empty positions ends the thread: HALTED with its context saved; in graph mode the
node ends, its engine takes the next READY node (R322), and the node re-arms. -/
def State.waitEnd (s : State) (e t : Nat) : State :=
  if s.graphMode then
    let done := s.clv.gend.isSome
    let s := s.nodeLeaves e t
    if done then s
    else
      let s := s.pick e
      if s.clv.once.contains t then s else s.armNode t
  else s.haltRunning e t

/-- TWAIT of the thread on engine `e`, whose PC already stands behind it. -/
def State.twait (s : State) (e : Nat) (a b : Word) : State :=
  match s.runningOn e with
  | none => s
  | some t =>
    if decide (a = 0#32) && decide (b = 0#32) then s.waitEnd e t
    else if s.graphMode then ((s.nodeLeaves e t).graphErr t)
    else
      let s := s.setWait t a b
      let s := (List.range 4).foldl (fun (u : State) i => u.fillFromStore t i) s
      if s.allFilled t then
        if s.higherReady e t then
          let s := { s with clv := { s.clv with deliver := t :: s.clv.deliver.erase t } }
          let s := (s.bumpMod (CLVT.STAT_ACT t)).preempt e t
          let s := (s.newBudget t).pick e
          (s.setReady (s.clv.ready.erase t)).placeThread t
        else s.waitInPlace e t
      else
        let s := (s.leaveEngine e t).setThread t thWAITING
        ((s.setWaiters (s.clv.waiters ++ [t])).keepSlot t).pick e

/-! ## Boundaries, budgets, double faults -/

/-- What waits for a boundary happens at it: a halt, a requeue, a swap (R326, R365, R383). -/
def State.boundary (s : State) (e : Nat) : State :=
  match s.runningOn e with
  | none => s
  | some t =>
    if !s.atBoundary e then s
    else if (s.en e).halt then s.haltRunning e t
    else if s.engStopped e && !s.graphMode && s.mayPreempt e then s.preempt e t
    else if (s.en e).requeue && s.mayPreempt e then ((s.preempt e t).newBudget t).pick e
    else s.swapIn e

/-- HOLDUP stops engine `e` (R462): a thread on its way in stays READY, and the running one is preempted at its next
boundary. -/
def State.shed (s : State) (e : Nat) : State :=
  let s := match s.incoming e with
    | some u => ((s.undue (fun v => decide (v = Ev.engineGo e))).setIncoming e none).setReady (s.clv.ready ++ [u])
    | none => s
  (s.fetchDrop e).boundary e

/-- BUDGET_EXPIRY (R325). -/
def State.budgetExpiry (s : State) (t : Nat) : State :=
  match s.engineOf t with
  | none => s
  | some e =>
    let s := (s.account e t).raise (CLVT.STAT_BUDGET_OVR t)
    let s := { s with clv := { s.clv with runAt := s.clv.runAt.set (fun _ => 0) e s.now } }
    let s := (s.raise CLV.STAT_BUDGET).recordStat 0x02 0x02 t 2 (CLVT.STAT t)
    let x := s.en e
    let s := if s.on (CLVT.CFG_BUDGET_ACT t) then s.setEn e { x with halt := true }
      else s.setEn e { x with requeue := true }
    s.boundary e

/-- A double fault (R364): the thread becomes HALTED with PC at the faulting instruction, or the node is
stopped and the graph ends. -/
def State.doubleFault (s : State) (e : Nat) (cause eval : Word) : State :=
  match s.runningOn e with
  | none => s
  | some t =>
    if s.graphMode then (s.nodeLeaves e t).graphErr t
    else
      let x := s.en e
      let s := s.record 0x02 0x05 t 4 (payloadOf [(t, 4), (cause.toNat, 4), (eval.toNat, 4), (x.pc.toNat, 4)])
      let s := s.setEn e { x with slot := none }
      s.haltRunning e t

/-- GRAPH_NODE_LIMIT (R333): the node on `e` has executed more than 256 instructions. -/
def State.nodeLimit (s : State) (e : Nat) : State :=
  match s.runningOn e with
  | some t => if s.graphMode then (s.nodeLeaves e t).graphErr t else s
  | none => s

/-- GRAPH_END (R334): a write of CLV_GEND with a result code of R8, accepted in graph mode only. -/
def State.gendWrite (s : State) (v : Word) : State :=
  s.judge (decide (0x0B < getBits 0 8 v)) CLV.STAT_ERR_ARG (!s.graphMode)
    (fun s => if s.clv.gend.isSome then s else s.graphStop (getBits 0 8 v))

/-! ## Registers -/

/-- A write of CLV_POST_TAG posts a token (R318, R321). -/
def State.clvPost (s : State) (m : Sys2Proof.Master) (v : Word) : State :=
  s.token (getBits 0 16 v) (s.bankRd m CLV.POST_VAL) (2000 + m.idx)

/-- A write of a CLV register outside the threads. -/
def State.clvWrite (s : State) (m : Sys2Proof.Master) (off : Nat) (v hw : Word) : State :=
  if off = CLV.CTXBASE then
    s.judge (decide (getBits 0 24 v % 0x400 ≠ 0) || decide (0xF00000 < getBits 0 24 v)) CLV.STAT_ERR_ARG
      (!s.allFree) (fun u => u.store off v)
  else if off = CLV.GBASE then
    s.judge (decide (getBits 0 24 v % 16 ≠ 0)) CLV.STAT_ERR_ARG (!s.allFree) (fun u => u.store off v)
  else if off = CLV.POST_VAL then s.bankWr m off v
  else if off = CLV.POST_TAG then s.clvPost m v
  else if off = CLV.GEND then s.gendWrite v
  else s.store off v hw

/-! ## Commands -/

/-- TOKEN_ARRIVE. -/
def execTokenArrive (tag : BitVec 16) (v : Word) (tb : Bool) (s : State) : Out :=
  let s := s.arriveToken ⟨tag, v, 0⟩ tb
  ok (if decide (s.plc.phase = 3) && decide (tag.toNat = s.f PLC.TAGS_DTAG) then s.sched 0 .planSolutionReceived else s)

/-- CONTEXT_FETCH_DONE. -/
def execContextFetchDone (e : Fin 15) (s : State) : Out := ok (s.fetchDone e)

/-- BUDGET_EXPIRY. -/
def execBudgetExpiry (t : Fin 1024) (s : State) : Out := ok (s.budgetExpiry t)

/-- OVERFLOW_DRAIN. -/
def execOverflowDrain (s : State) : Out := ok s.overflowDrain

/-- OVERFLOW_TIMEOUT (R329): the queue has not gained space after 1 ms. -/
def execOverflowTimeout (s : State) : Out := ok (if s.queueFull then s.overflow else s)

/-- GRAPH_NODE_LIMIT. -/
def execGraphNodeLimit (e : Fin 15) (s : State) : Out := ok (s.nodeLimit e)

end Sys2Proof.Machine
end

