-- ==== Sys2Proof/Machine/Crypt.lean ====
section
/-! DEFINITION. The checks of signed data (spec/20_identity_lifecycle.md, R442): SHA-384 and ECDSA over
P-384 as their standards define them, and the CRCs of the frames and records. -/

namespace Sys2Proof.Machine

/-- The first 80 primes. -/
def primes80 : List Nat :=
  (List.range 410).filter (fun n => decide (2 ≤ n) && (List.range 19).all (fun d => decide (d + 2 ≥ n) || decide (n % (d + 2) ≠ 0)))

/-- The integer cube root below `2 ^ (k + 1)`, bit by bit. -/
def cbrt (n : Nat) : Nat → Nat → Nat
  | 0, r => if (r + 1) ^ 3 ≤ n then r + 1 else r
  | k + 1, r => cbrt n k (if (r + 2 ^ (k + 1)) ^ 3 ≤ n then r + 2 ^ (k + 1) else r)

/-- The round constants of SHA-512: 64 bits of the fraction of the cube roots of the first 80 primes. -/
def shaK : List (BitVec 64) := primes80.map (fun p => BitVec.ofNat 64 (cbrt (p * 2 ^ 192) 67 0))

/-- The starting words of SHA-384: 64 bits of the fraction of the square roots of the 9th to 16th
primes. -/
def shaIv : List (BitVec 64) :=
  ((primes80.drop 8).take 8).map (fun p => BitVec.ofNat 64 (Nat.sqrt (p * 2 ^ 128)))

/-- Big-endian: a list of bytes as a number. -/
def beNat (l : List Byte) : Nat := l.foldl (fun n b => n * 256 + b.toNat) 0

/-- Big-endian: the `n` low bytes of a number. -/
def beBytes (n v : Nat) : List Byte := (leBytes v n).reverse

/-- Cut a list into pieces of `k`; the first argument bounds their number. -/
def chunks {α : Type} (k : Nat) : Nat → List α → List (List α)
  | 0, _ => []
  | n + 1, l => if l.isEmpty then [] else l.take k :: chunks k n (l.drop k)

/-- The padding of SHA-512. -/
def shaPad (l : List Byte) : List Byte :=
  l ++ 0x80#8 :: List.replicate ((239 - l.length % 128) % 128) 0#8 ++ beBytes 16 (8 * l.length)

/-- The message schedule, newest word first. -/
def shaSched : Nat → List (BitVec 64) → List (BitVec 64)
  | 0, w => w
  | n + 1, w =>
    let a := w.getD 1 0
    let b := w.getD 14 0
    let s1 := a.rotateRight 19 ^^^ a.rotateRight 61 ^^^ (a >>> 6)
    let s0 := b.rotateRight 1 ^^^ b.rotateRight 8 ^^^ (b >>> 7)
    shaSched n ((w.getD 15 0 + s0 + w.getD 6 0 + s1) :: w)

/-- One round on the eight working words. -/
def shaRound (h : List (BitVec 64)) (kw : BitVec 64 × BitVec 64) : List (BitVec 64) :=
  match h with
  | [a, b, c, d, e, f, g, x] =>
    let t1 := x + (e.rotateRight 14 ^^^ e.rotateRight 18 ^^^ e.rotateRight 41)
      + ((e &&& f) ^^^ (~~~e &&& g)) + kw.1 + kw.2
    let t2 := (a.rotateRight 28 ^^^ a.rotateRight 34 ^^^ a.rotateRight 39)
      + ((a &&& b) ^^^ (a &&& c) ^^^ (b &&& c))
    [t1 + t2, a, b, c, d + t1, e, f, g]
  | _ => h

def shaBlock (h : List (BitVec 64)) (blk : List Byte) : List (BitVec 64) :=
  let w0 := ((chunks 8 16 blk).map (fun l => BitVec.ofNat 64 (beNat l))).reverse
  let w := (shaSched 64 w0).reverse
  List.zipWith (· + ·) h ((shaK.zip w).foldl shaRound h)

/-- SHA-384 of a message, 48 bytes as a number (FIPS 180-4). -/
def sha384 (l : List Byte) : Nat :=
  let m := shaPad l
  ((((chunks 128 (m.length / 128) m).foldl shaBlock shaIv).take 6).foldl (fun n w => n * 2 ^ 64 + w.toNat) 0)

/-! ## P-384 -/

def p384p : Nat := 2 ^ 384 - 2 ^ 128 - 2 ^ 96 + 2 ^ 32 - 1
def p384b : Nat := 0xb3312fa7e23ee7e4988e056be3f82d19181d9c6efe8141120314088f5013875ac656398d8a2ed19d2a85c8edd3ec2aef
def p384n : Nat := 0xffffffffffffffffffffffffffffffffffffffffffffffffc7634d81f4372ddf581a0db248b0a77aecec196accc52973
def p384g : Nat × Nat :=
  (0xaa87ca22be8b05378eb1c71ef320ad746e1d3b628ba79b9859f741e082542a385502f25dbf55296c3a545e3872760ab7,
   0x3617de4a96262c6f5d9e98bf9292dc29f8f41dbd289a147ce9da3113b5f0b8c00a60b1ce1d7e819d7a431d7c90ea0e5f)

/-- `b ^ e mod m`, over the 384 low bits of `e` from the top. -/
def powMod (b e m : Nat) : Nat :=
  (List.range 384).foldr (fun i r => r * r % m * (if e.testBit i then b else 1) % m) 1

/-- The inverse modulo a prime. -/
def invMod (a m : Nat) : Nat := powMod (a % m) (m - 2) m

/-- Addition on the curve; `none` is the point at infinity. -/
def ecAdd : Option (Nat × Nat) → Option (Nat × Nat) → Option (Nat × Nat)
  | none, q => q
  | p, none => p
  | some (x1, y1), some (x2, y2) =>
    if x1 = x2 ∧ (y1 + y2) % p384p = 0 then none
    else
      let l := if x1 = x2 then (3 * x1 * x1 + p384p - 3) * invMod (2 * y1) p384p
        else (y2 + p384p - y1) * invMod (x2 + p384p - x1) p384p
      let x3 := (l * l + 2 * p384p - x1 - x2) % p384p
      some (x3, (l * (x1 + p384p - x3) + p384p - y1) % p384p)

/-- A multiple of a point. -/
def ecMul (k : Nat) (p : Option (Nat × Nat)) : Option (Nat × Nat) :=
  (List.range 384).foldr (fun i r => let d := ecAdd r r; if k.testBit i then ecAdd d p else d) none

/-- Is a point on the curve. -/
def onCurve (q : Nat × Nat) : Bool :=
  decide (q.1 < p384p) && decide (q.2 < p384p)
    && decide (q.2 * q.2 % p384p = (q.1 ^ 3 + (p384p - 3) * q.1 + p384b) % p384p)

/-- ECDSA verification with SHA-384 (FIPS 186-4): `key` an uncompressed SEC 1 point of 97 bytes, `sig` r
then s, each 48 bytes big-endian. -/
def ecdsaGood (key msg sig : List Byte) : Bool :=
  let q := (beNat ((key.drop 1).take 48), beNat ((key.drop 49).take 48))
  let r := beNat (sig.take 48)
  let t := beNat ((sig.drop 48).take 48)
  let w := invMod t p384n
  let z := sha384 msg
  decide (key.head? = some 4#8) && onCurve q
    && decide (1 ≤ r ∧ r < p384n) && decide (1 ≤ t ∧ t < p384n)
    && (match ecAdd (ecMul (z * w % p384n) (some p384g)) (ecMul (r * w % p384n) (some q)) with
        | some (x, _) => decide (x % p384n = r)
        | none => false)

/-- A number brought into 1 … n − 1. -/
def scalarOf (k : Nat) : Nat := k % (p384n - 1) + 1

/-- The public key of a private one, as an uncompressed SEC 1 point. -/
def pubKey (d : Nat) : List Byte :=
  match ecMul d (some p384g) with
  | some (x, y) => 4#8 :: beBytes 48 x ++ beBytes 48 y
  | none => []

/-- ECDSA with SHA-384 by the private key `d` and the random number `k` (FIPS 186-4). -/
def ecdsaSign (d k : Nat) (msg : List Byte) : List Byte :=
  match ecMul k (some p384g) with
  | some (x, _) =>
    let r := x % p384n
    beBytes 48 r ++ beBytes 48 (invMod k p384n * (sha384 msg + r * d) % p384n)
  | none => []

/-! ## CRC-32C (R266) -/

def crc32cBits (c : Nat) : Nat → Nat
  | 0 => c
  | n + 1 => crc32cBits (if c % 2 = 1 then Nat.xor (c / 2) 0x82F63B78 else c / 2) n

/-- CRC-32C of a frame with a start value, final XOR 0xFFFF_FFFF. -/
def crc32c (start : Nat) (l : List Byte) : Nat :=
  Nat.xor (l.foldl (fun c b => crc32cBits (Nat.xor c b.toNat) 8) start) 0xFFFFFFFF

/-! ## Certificates and chains (R442 to R444) -/

def certLen : Nat := 320
def sub (l : List Byte) (a n : Nat) : List Byte := (l.drop a).take n
def leNat (l : List Byte) : Nat := l.foldr (fun b n => b.toNat + 256 * n) 0

def certRights (c : List Byte) : Nat := leNat (sub c 4 4)
def certNotBefore (c : List Byte) : Nat := leNat (sub c 8 8)
def certNotAfter (c : List Byte) : Nat := leNat (sub c 16 8)
def certKeyId (c : List Byte) : List Byte := sub c 24 20
def certIssuer (c : List Byte) : List Byte := sub c 44 20
def certKey (c : List Byte) : List Byte := sub c 64 97

/-- The rights of R443. -/
def rClear : Nat := 0
def rSafety : Nat := 1
def rConfig : Nat := 2
def rImage : Nat := 3
def rService : Nat := 4
def rDecommission : Nat := 5
def rIssue : Nat := 6

/-- A certificate by itself: its version, no reserved bit or byte set, its KEYID that of its key. -/
def certForm (c : List Byte) : Bool :=
  decide (c.length = certLen) && decide (leNat (sub c 0 4) = 1) && decide (certRights c < 128)
    && (sub c 161 63).all (fun b => decide (b = 0#8))
    && decide (certKeyId c = (beBytes 48 (sha384 (certKey c))).take 20)

/-- The issuer's key verifies SIG over bytes 0 to 223. -/
def certSigned (c issuer : List Byte) : Bool :=
  decide (certIssuer c = certKeyId issuer) && ecdsaGood (certKey issuer) (c.take 224) (c.drop 224)

/-- Every certificate is signed by the next and holds no right beyond it; the last is self-signed. -/
def chainSigned : List (List Byte) → Bool
  | [] => false
  | [c] => certForm c && decide (certIssuer c = certKeyId c) && certSigned c c
  | c :: d :: r =>
    certForm c && certSigned c d && decide (Nat.land (certRights c) (certRights d) = certRights c)
      && chainSigned (d :: r)

/-! ## The keys and certificates of the module (R441, R442, R444) -/

/-- The private keys: 0 the Dunyar root, 1 its manufacturing key, 2 the device. -/
def secretOf (k : Nat) : Nat := scalarOf (Config.privateKey k)

/-- The public key of the Dunyar root, fixed in the die (R441). -/
def dunyarKey : List Byte := pubKey (secretOf 0)

/-- The KEYID of a public key: the first 20 bytes of SHA-384 over it (R442). -/
def keyIdOf (key : List Byte) : List Byte := (beBytes 48 (sha384 key)).take 20

/-- A certificate of key `k` under `rights`, signed by key `by_` (R442). -/
def certOf (k by_ rights : Nat) : List Byte :=
  let t := Config.certTerms k
  let body := leBytes 1 4 ++ leBytes rights 4 ++ leBytes t.2.1 8 ++ leBytes t.2.2 8 ++ keyIdOf (pubKey (secretOf k))
    ++ keyIdOf (pubKey (secretOf by_)) ++ pubKey (secretOf k) ++ List.replicate 63 0#8
  body ++ ecdsaSign (secretOf by_) (scalarOf (Config.signNonce k)) body

/-- The rights of the manufacturing certificate: ISSUE among them, and no reserved bit. -/
def makerRights : Nat := Nat.lor ((Config.certTerms 1).1 % 128) (2 ^ rIssue)

/-- The certificate of the Dunyar manufacturing key in the OTP: the Dunyar root signs it (R441, R444). -/
def makerCert : List Byte := certOf 1 0 makerRights

/-- The device certificate in the OTP: the manufacturing key signs it, with rights within its own (R441, R444). -/
def deviceCert : List Byte := certOf 2 1 (Nat.land (Config.certTerms 2).1 makerRights)

/-- Does the chain end at the Dunyar root. -/
def endsAtDunyar (ch : List (List Byte)) : Bool :=
  match ch.getLast? with
  | some c => decide (certKey c = dunyarKey)
  | none => false

/-- Does the chain end at the owner anchor with this digest. -/
def endsAtAnchor (digest : Option Nat) (ch : List (List Byte)) : Bool :=
  match ch.getLast?, digest with
  | some c, some d => decide (sha384 c = d)
  | _, _ => false

/-- R444, but for the time. -/
def chainGood (anchor : Option Nat) (ch : List (List Byte)) : Bool :=
  decide (1 ≤ ch.length ∧ ch.length ≤ 4) && chainSigned ch
    && (ch.drop 1).all (fun c => (certRights c).testBit rIssue)
    && (endsAtAnchor anchor ch || endsAtDunyar ch)

/-- The time lies within every certificate (R444). -/
def chainTimely (now : Nat) (ch : List (List Byte)) : Bool :=
  ch.all (fun c => decide (certNotBefore c ≤ now ∧ now ≤ certNotAfter c))

end Sys2Proof.Machine
end

