-- ==== Sys2Proof/Machine/Frames.lean ====
section
/-! DEFINITION. Roles and frames (spec/01_cell_and_module.md R15; spec/17_host_and_backbone.md R404, R405,
R407; spec/18_manager_workers_failover.md R415): the boot configuration record in force, the roles, and
the sending of cell frames through the switch. -/

namespace Sys2Proof.Machine

/-- Where the regions of the MRAM stand (R26): recorder, Saffron parameter sets, boot configuration. -/
def mramSets : Nat := 0x1800000
def mramBcr : Nat := 0x1900000
def mramApp : Nat := 0x1910000

/-- `n` bytes from byte `o` of a block that is held as one number (byte 0 lowest). -/
def blkNat (x o n : Nat) : Nat := (x >>> (8 * o)) % 2 ^ (8 * n)

/-- Bytes of the boot configuration record in force (R415). -/
def State.bcr (s : State) (o n : Nat) : Nat := blkNat s.fov.bcr o n

def State.ownMod (s : State) : Nat := s.f BBS.GCFG_MOD
def State.role (s : State) : Nat := s.f FOV.STAT_ROLE
def State.part (s : State) : Nat := s.f FOV.STAT_PART
def State.isPair (s : State) : Bool := decide (s.role = 3) || decide (s.role = 4)
/-- PAIR-ACTIVE is the role of a pair unit while it acts as ACTIVE (R15, R422). -/
def State.isActive (s : State) : Bool := s.isPair && decide (s.part = 1)
def State.isStandby (s : State) : Bool := s.isPair && !decide (s.part = 1)
def State.isManager (s : State) : Bool := decide (s.role = 1)
def State.isWorker (s : State) : Bool := decide (s.role = 2)
def State.isWitness (s : State) : Bool := s.on FOV.STAT_WITNESS
/-- The module plans the cell (R15, R213). -/
def State.plans (s : State) : Bool := s.isManager || s.isActive

/-- The modules of the record: number, role, flags (R415). -/
def State.cellMods (s : State) : List (Nat × Nat × Nat) :=
  (List.range (s.bcr 0x0A 1)).map (fun m =>
    (s.bcr (0x40 + 16 * m) 1, s.bcr (0x40 + 16 * m + 1) 1, s.bcr (0x40 + 16 * m + 2) 1))

def State.inCell (s : State) (m : Nat) : Bool := s.cellMods.any (fun x => decide (x.1 = m))

/-- Path A and path B of the record (R415). -/
def State.pathA (s : State) : Nat := s.bcr 0x0B 1 % 4
def State.pathB (s : State) : Nat := s.bcr 0x0B 1 / 16 % 4

def State.txQueue (s : State) (p tc : Nat) : List TxItem := s.bbs.txq.get (fun _ => []) (p * 8 + tc)
def State.setTxQueue (s : State) (p tc : Nat) (l : List TxItem) : State :=
  { s with bbs := { s.bbs with txq := s.bbs.txq.set (fun _ => []) (p * 8 + tc) l } }

/-- Queue a frame at a port for its traffic class. -/
def State.queueFrame (s : State) (p tc : Nat) (x : TxItem) : State := s.setTxQueue p tc (s.txQueue p tc ++ [x])

/-- The class register of a class code (R404, R414). -/
def classReg (c : Nat) : Field := ⟨0x00400100 + 4 * c, 0, 32⟩
def State.classTc (s : State) (c : Nat) : Nat := getBits 3 3 (s.rd (classReg c).off)
def State.classFrer (s : State) (c : Nat) : Bool := (s.rd (classReg c).off).toNat.testBit 7

/-- The bytes of a checkpoint: a state block of 16 bytes and the joint blocks (R225, R426). -/
def ckptSize (c : Ckpt) : Nat := 16 + (c.joints.map (fun b => 4 + 32 * b.knots.length)).sum

/-- The payload bytes that a payload takes on the wire; what is left of a checkpoint is in its last fragment. -/
def payloadSize : Payload → Nat
  | .bytes l => l.length
  | .rcd (.sqe _ _ l) => l.length + 3
  | .rcd (.cqe _ _ _ _) => 19
  | .ckpt i _ c => min 1468 (ckptSize c - 1468 * i)

/-- The MAC address of the module's own entry. -/
def State.ownMac (s : State) : BitVec 48 :=
  match (List.range 64).find? (fun m => decide (s.bcr (0x40 + 16 * m) 1 = s.ownMod)) with
  | some m => BitVec.ofNat 48 (s.bcr (0x44 + 16 * m) 6)
  | none => 0#48

/-- The EtherType of cell frames, and their destination address 03-54-4B-96-cc-dd (R404). -/
def cellType : BitVec 16 := 0x88B5#16
def cellDest (cls dst : Nat) : BitVec 48 := BitVec.ofNat 48 (0x03544B960000 + cls % 256 * 256 + dst % 256)

/-- The address, tag and header of R404 and R405 around a payload. -/
def State.frameOf (s : State) (cls dst : Nat) (b : Payload) : CellFrame :=
  let c := s.rd (classReg cls).off
  ⟨1#8, BitVec.ofNat 8 cls, BitVec.ofNat 16 (payloadSize b), BitVec.ofNat 8 s.ownMod, BitVec.ofNat 8 dst,
    BitVec.ofNat 16 (s.f BBS.GCFG_CELL_ID), 0#32, s.bbs.hseq.get zeroW cls,
    s.ownMac, (payloadSize b), b, cellDest cls dst, cellType, BitVec.ofNat 3 (getBits 0 3 c), BitVec.ofNat 12 (getBits 8 12 c)⟩

def State.nextHseq (s : State) (cls : Nat) : State :=
  { s with bbs := { s.bbs with hseq := s.bbs.hseq.set zeroW cls (s.bbs.hseq.get zeroW cls + 1#32) } }

def zeroT (_ : Nat) : BitVec 16 := 0#16

/-- Send a cell frame: it waits in the transmit queue of its class at BBI, Q48 to Q55 (R406). -/
def State.sendFrame (s : State) (cls dst : Nat) (b : Payload) : State :=
  (s.nextHseq cls).queueFrame 6 (s.classTc cls) ⟨s.frameOf cls dst b, none, [], 0⟩

/-- Send a heartbeat on both paths, each with its PATH flag (R404, R421). -/
def State.sendHb (s : State) (pathA pathB : List Byte) : State :=
  let tc := s.classTc 5
  let fa := s.frameOf 5 0xFF (.bytes pathA)
  let fb := s.frameOf 5 0xFF (.bytes pathB)
  ((s.nextHseq 5).queueFrame 6 tc ⟨fa, none, [s.pathA], 0⟩).queueFrame 6 tc ⟨fb, none, [s.pathB], 0⟩

/-- The first frame of traffic class `tc` at BBI enters the switch: to the ports named for it; with FRER = 1 as a stream
replicated onto the two ports of the record (R407); else to every port whose link is up. -/
def State.bbiOut (s : State) (tc : Nat) : State :=
  match s.txQueue 6 tc with
  | [] => s
  | x :: l =>
    let s := s.setTxQueue 6 tc l
    let cls := x.frame.cls.toNat
    if x.ports ≠ [] then x.ports.foldl (fun (u : State) p => u.queueFrame p tc { x with ports := [] }) s
    else if s.classFrer cls then
      let n := s.bbs.rtag.get zeroT cls
      let s := { s with bbs := { s.bbs with rtag := s.bbs.rtag.set zeroT cls (n + 1#16) } }
      (s.queueFrame s.pathA tc { x with rtag := some n }).queueFrame s.pathB tc { x with rtag := some n }
    else (List.range 6).foldl (fun (u : State) p => if u.on (BBP.STAT_LINK p) then u.queueFrame p tc x else u) s

end Sys2Proof.Machine
end

