-- ==== Sys2Proof/Machine/SafKin.lean ====
section
/-! DEFINITION. What Saffron computes from a parameter set (spec/11_saffron_safety.md, R235 to R237, R259,
R261, R262): the fields of the set and their judgement, forward kinematics, the speeds of the capsules
and the distances between their axes. Numbers are exact, but for sine, cosine and square root, which
are rounded to 2^-40 (log entry 6). -/

namespace Sys2Proof.Machine

/-! ## The fields of a parameter set -/

/-- An unsigned field of the set. -/
abbrev PSet := Nat

def PSet.u (p : PSet) (o n : Nat) : Nat := blkNat p o n
def PSet.fp (p : PSet) (o : Nat) : Rat := f32rat (blkNat p o 4)
def PSet.i32 (p : PSet) (o : Nat) : Int := signedOf 32 (blkNat p o 4)

def oGLOBAL : Nat := 0x100
def oGROUP (g : Nat) : Nat := 0x200 + 16 * g
def oINPUT (i : Nat) : Nat := 0x300 + 32 * i
def oDOOR (d : Nat) : Nat := 0x500 + 32 * d
def oCONN (c : Nat) : Nat := 0x600 + 32 * c
def oARM (a : Nat) : Nat := 0xA00 + 256 * a
def oJOINT (p : Nat) : Nat := 0x1A00 + 128 * p
def oCAPS (k : Nat) : Nat := 0x4A00 + 32 * k

/-- Is an unsigned field within its range. -/
def PSet.inU (p : PSet) (o n lo hi : Nat) : Bool := decide (lo ≤ p.u o n ∧ p.u o n ≤ hi)

/-- Is a binary32 field a number within its range. -/
def PSet.inF (p : PSet) (o : Nat) (lo hi : Rat) : Bool :=
  f32finite (blkNat p o 4) && decide (lo ≤ p.fp o ∧ p.fp o ≤ hi)

def PSet.num (p : PSet) (o : Nat) : Bool := f32finite (blkNat p o 4)

def PSet.globalGood (p : PSet) : Bool :=
  let g := oGLOBAL
  p.inU g 2 1000 2500 && p.inU (g + 2) 1 1 30 && p.inU (g + 3) 1 0 1 && p.inF (g + 4) 1 1000
    && p.inF (g + 8) 1 5000 && p.inU (g + 0xC) 2 1 1440 && p.inU (g + 0xE) 2 100 400
    && p.inU (g + 0x10) 2 10 1000 && p.inU (g + 0x12) 2 50 10000 && p.inF (g + 0x14) 0 2000
    && p.inF (g + 0x18) 1 1000 && p.inU (g + 0x1C) 2 0 5000 && p.inU (g + 0x1E) 2 1 0xFFEE
    && p.inF (g + 0x20) 0 1000 && p.inU (g + 0x24) 2 10 2000 && p.inU (g + 0x26) 2 0 500

def PSet.groupGood (p : PSet) (g : Nat) : Bool :=
  decide (p.u (oGROUP g) 1 ≤ 0x10) || decide (p.u (oGROUP g) 1 = 0xFF)

def PSet.func (p : PSet) (i : Nat) : Nat := p.u (oINPUT i) 1

def PSet.inputGood (p : PSet) (i : Nat) : Bool :=
  let o := oINPUT i
  let tp (k : Nat) : Bool := decide (p.u k 1 ≤ 3) || decide (p.u k 1 = 0xFF)
  p.inU o 1 0 7 && (decide (p.func i = 0)
    || (p.inU (o + 1) 1 0 1 && p.inU (o + 2) 1 0 1 && tp (o + 4) && tp (o + 5) && p.inU (o + 6) 2 5 5000
      && p.inU (o + 8) 1 0 7
      && (decide (p.u (o + 4) 1 ≠ p.u (o + 5) 1) || decide (p.u (o + 4) 1 = 0xFF))))

def PSet.doorGood (p : PSet) (d : Nat) : Bool := p.inU (oDOOR d) 1 0 7 && p.inU (oDOOR d + 1) 1 0 1

def PSet.connId (p : PSet) (c : Nat) : Nat := p.u (oCONN c) 2

def PSet.connGood (p : PSet) (c : Nat) : Bool :=
  let tx := p.u (oGLOBAL + 0x1E) 2
  decide (p.connId c = 0)
    || (p.inU (oCONN c) 2 1 0xFFFE && p.inU (oCONN c + 2) 1 1 3 && p.inU (oCONN c + 4) 2 2 100
      && !decide (tx ≤ p.connId c ∧ p.connId c ≤ tx + 16)
      && (List.range c).all (fun d => decide (p.connId d ≠ p.connId c)))

def PSet.armEn (p : PSet) (a : Nat) : Bool := decide (p.u (oARM a) 1 = 1)
def PSet.armZone (p : PSet) (a : Nat) : Nat := p.u (oARM a + 1) 1
def PSet.armNj (p : PSet) (a : Nat) : Nat := p.u (oARM a + 2) 1
def PSet.armPorts (p : PSet) (a : Nat) : List Nat := (List.range (p.armNj a)).map (fun k => p.u (oARM a + 0x38 + k) 1)
def PSet.armCaps (p : PSet) (a : Nat) : List Nat :=
  (List.range (p.u (oARM a + 3) 1)).map (fun k => p.u (oARM a + 0x42) 1 + k)
/-- The enabled arms of the set. -/
def PSet.arms (p : PSet) : List Nat := (List.range 16).filter (fun a => p.armEn a)
/-- What group `g` is assigned to: an arm, 0x10 DOORS, 0xFF NONE. -/
def PSet.assign (p : PSet) (g : Nat) : Nat := p.u (oGROUP g) 1
def PSet.armGroups (p : PSet) (a : Nat) : List Nat := (List.range 12).filter (fun g => decide (p.assign g = a))

def PSet.jointGood (p : PSet) (q : Nat) : Bool :=
  let o := oJOINT q
  p.inU o 1 0 1 && p.inU (o + 1) 1 0 2 && p.num (o + 4) && decide (p.fp (o + 4) ≠ 0)
    && p.num (o + 0x28) && decide (0 < p.fp (o + 0x28)) && decide (0 < p.u (o + 0x2C) 4)
    && decide (0 < p.u (o + 0x30) 4) && decide (p.u (o + 0x34) 4 ≤ p.u (o + 0x2C) 4)
    && p.inU (o + 0x3C) 2 0 500 && p.inU (o + 0x50) 1 1 50

def PSet.capGood (p : PSet) (k : Nat) : Bool := p.num (oCAPS k + 0x1C) && decide (0 < p.fp (oCAPS k + 0x1C))

/-- An enabled arm: its fields, its joints and capsules, its ports in groups of its own. -/
def PSet.armGood (p : PSet) (a : Nat) : Bool :=
  let o := oARM a
  p.inU o 1 0 1 && (!p.armEn a
    || (p.inU (o + 1) 1 0 7 && p.inU (o + 2) 1 1 10 && p.inU (o + 3) 1 1 32 && p.inF (o + 4) 100 100000
      && p.inF (o + 8) 0 (1 / 2) && p.inF (o + 0xC) 0 2000 && p.inF (o + 0x10) 0 2000 && p.inF (o + 0x14) 0 2000
      && p.inF (o + 0x18) 1 5000
      && (p.armPorts a).all (fun q => decide (q ≤ 95) && decide (p.assign (q / 8) = a) && p.jointGood q)
      && (p.arms.filter (fun b => decide (b < a))).all (fun b => (p.armPorts b).all (fun q => !(p.armPorts a).contains q))
      && (p.armCaps a).all (fun k => decide (k ≤ 255) && p.capGood k)))

/-- The set is valid under R236 and R237. -/
def PSet.good (p : PSet) : Bool :=
  p.globalGood && (List.range 12).all (fun g => p.groupGood g && (decide (16 ≤ p.assign g) || p.armEn (p.assign g)))
    && (List.range 16).all p.inputGood && (List.range 8).all p.doorGood && (List.range 32).all p.connGood
    && (List.range 16).all p.armGood

/-! ## Vectors and poses -/

/-- A vector, in mm or mm/s. -/
structure V3 where
  x : Rat
  y : Rat
  z : Rat
  deriving DecidableEq, Repr

/-- A rational rounded down to 2^-40. -/
def rq (x : Rat) : Rat := mkRat (x.num * (2 ^ 40 : Nat) / x.den) (2 ^ 40)

def V3.add (a b : V3) : V3 := ⟨a.x + b.x, a.y + b.y, a.z + b.z⟩
def V3.sub (a b : V3) : V3 := ⟨a.x - b.x, a.y - b.y, a.z - b.z⟩
def V3.scale (k : Rat) (a : V3) : V3 := ⟨rq (k * a.x), rq (k * a.y), rq (k * a.z)⟩
def V3.dot (a b : V3) : Rat := a.x * b.x + a.y * b.y + a.z * b.z
def V3.cross (a b : V3) : V3 := ⟨rq (a.y * b.z - a.z * b.y), rq (a.z * b.x - a.x * b.z), rq (a.x * b.y - a.y * b.x)⟩
def V3.len (a : V3) : Rat := sqrtR (a.dot a)
def V3.zero : V3 := ⟨0, 0, 0⟩

/-- A pose: position and quaternion w, x, y, z. -/
structure Pose where
  o : V3
  w : Rat
  v : V3
  deriving DecidableEq, Repr

/-- Rotate a vector by the quaternion of a pose. -/
def Pose.rot (p : Pose) (a : V3) : V3 :=
  let t := (p.v.cross a).scale 2
  (a.add (t.scale p.w)).add (p.v.cross t)

/-- A point of a pose's frame in the frame around it. -/
def Pose.pt (p : Pose) (a : V3) : V3 := p.o.add (p.rot a)

/-- One pose after another. -/
def Pose.mul (p q : Pose) : Pose :=
  ⟨p.pt q.o, rq (p.w * q.w - p.v.dot q.v),
    ((q.v.scale p.w).add (p.v.scale q.w)).add (p.v.cross q.v)⟩

/-- Sine and cosine by their series, after halving the angle 8 times. -/
def sinCos (x : Rat) : Rat × Rat :=
  let t := rq (x / 256)
  let s0 := rq (t - t ^ 3 / 6 + t ^ 5 / 120)
  let c0 := rq (1 - t ^ 2 / 2 + t ^ 4 / 24 - t ^ 6 / 720)
  (List.range 8).foldl (fun (sc : Rat × Rat) _ => (rq (2 * sc.1 * sc.2), rq (1 - 2 * sc.1 * sc.1))) (s0, c0)

/-- The angle modulo a turn. -/
def turnOff (x : Rat) : Rat :=
  let tau : Rat := 6283185307179586476925286766559 / 1000000000000000000000000000000
  x - (x / tau).floor * tau

def axisVec (k : Nat) : V3 := if k = 0 then ⟨1, 0, 0⟩ else if k = 1 then ⟨0, 1, 0⟩ else ⟨0, 0, 1⟩

def PSet.v3 (p : PSet) (o : Nat) : V3 := ⟨p.fp o, p.fp (o + 4), p.fp (o + 8)⟩

/-- A position and quaternion of the set, BASE or FIX (R236). -/
def PSet.pose (p : PSet) (o : Nat) : Pose := ⟨p.v3 o, p.fp (o + 12), p.v3 (o + 16)⟩

/-- The motion of joint port `q` by `x` (rad or mm) about or along its axis. -/
def PSet.move (p : PSet) (q : Nat) (x : Rat) : Pose :=
  let ax := axisVec (p.u (oJOINT q + 1) 1)
  if p.u (oJOINT q) 1 = 0 then
    let sc := sinCos (turnOff x / 2)
    ⟨V3.zero, sc.2, ax.scale sc.1⟩
  else ⟨ax.scale x, 1, V3.zero⟩

/-- A link of an arm: its pose, and for every joint up to it the port, the origin and the axis in the
cell frame. -/
structure LinkPose where
  pose : Pose
  chain : List (Nat × V3 × V3)
  deriving DecidableEq, Repr

/-- Position and velocity of a joint in rad or mm (R236: CPU, OFS). -/
def PSet.jointQ (p : PSet) (q : Nat) (pos : Int) : Rat := (pos - p.i32 (oJOINT q + 8) : Int) / p.fp (oJOINT q + 4)
def PSet.jointV (p : PSet) (q : Nat) (spd : Int) : Rat := (spd : Rat) / 16 / p.fp (oJOINT q + 4)

/-- The links of an arm, base first, from the joints' positions. -/
def PSet.links (p : PSet) (pos : Nat → Int) (l : LinkPose) : List Nat → List LinkPose
  | [] => [l]
  | q :: qs =>
    let at_ := l.pose.mul (p.pose (oJOINT q + 0xC))
    let ax := at_.rot (axisVec (p.u (oJOINT q + 1) 1))
    l :: p.links pos ⟨at_.mul (p.move q (p.jointQ q (pos q))), l.chain ++ [(q, at_.o, ax)]⟩ qs

/-- The velocity of a point fixed to a link. -/
def PSet.pointVel (p : PSet) (spd : Nat → Int) (l : LinkPose) (x : V3) : V3 :=
  l.chain.foldl (fun (v : V3) (c : Nat × V3 × V3) =>
    let w := p.jointV c.1 (spd c.1)
    v.add (if p.u (oJOINT c.1) 1 = 0 then (c.2.2.cross (x.sub c.2.1)).scale w else c.2.2.scale w)) V3.zero

/-- A capsule in the cell frame: the ends of its axis, radius, their velocities. -/
structure Capsule where
  p1 : V3
  p2 : V3
  r : Rat
  v1 : V3
  v2 : V3
  deriving DecidableEq, Repr

/-- The larger of the two endpoint speeds (R259). -/
def Capsule.speed (c : Capsule) : Rat := max c.v1.len c.v2.len

/-- The capsules of an arm. -/
def PSet.capsules (p : PSet) (pos spd : Nat → Int) (a : Nat) : List Capsule :=
  let ls := p.links pos ⟨p.pose (oARM a + 0x1C), []⟩ (p.armPorts a)
  (p.armCaps a).map (fun k =>
    let o := oCAPS k
    let li := p.u o 1
    let l := ls.getD (if li = 0xFF then 0 else li + 1) ⟨p.pose (oARM a + 0x1C), []⟩
    let a1 := l.pose.pt (p.v3 (o + 4))
    let a2 := l.pose.pt (p.v3 (o + 0x10))
    ⟨a1, a2, p.fp (o + 0x1C), p.pointVel spd l a1, p.pointVel spd l a2⟩)

def clampR (x : Rat) : Rat := if x < 0 then 0 else if 1 < x then 1 else x

/-- The closest points of two segments. -/
def closest (p1 p2 q1 q2 : V3) : V3 × V3 :=
  let d1 := p2.sub p1
  let d2 := q2.sub q1
  let r := p1.sub q1
  let a := d1.dot d1
  let e := d2.dot d2
  let f := d2.dot r
  let c := d1.dot r
  let b := d1.dot d2
  let den := a * e - b * b
  let s0 : Rat := if a = 0 then 0 else if e = 0 then clampR (-c / a) else if den = 0 then 0 else clampR ((b * f - c * e) / den)
  let t0 : Rat := if e = 0 then 0 else (b * s0 + f) / e
  let t := clampR t0
  let s : Rat := if a = 0 then 0 else if t = t0 then s0 else clampR ((b * t - c) / a)
  (p1.add (d1.scale s), q1.add (d2.scale t))

/-- What a pair of an arm capsule and a human capsule gives (R261): D, and the component v_r. -/
def pairDist (c : Capsule) (q1 q2 : V3) (r : Rat) (open_ : Rat) : Rat × Rat :=
  let x := closest c.p1 c.p2 q1 q2
  let d := x.2.sub x.1
  let n := d.len
  let vr : Rat := if n = 0 then open_ else max 0 (max (c.v1.dot d / n) (c.v2.dot d / n))
  (n - c.r - r, rq vr)

/-- S_p of an arm for v_r (R261). -/
def PSet.protect (p : PSet) (a : Nat) (vr : Rat) : Rat :=
  let vh : Rat := p.u oGLOBAL 2
  let as := p.fp (oARM a + 4)
  let td := p.fp (oARM a + 8)
  let tr : Rat := 2 / 1000
  vh * (tr + td + vr / as) + vr * tr + vr * td + vr * vr / (2 * as)
    + p.fp (oARM a + 0xC) + p.fp (oARM a + 0x10) + p.fp (oARM a + 0x14)

end Sys2Proof.Machine
end

