-- ==== Sys2Proof/Machine/Saf.lean ====
section
/-! DEFINITION. Saffron Safety Island (spec/11_saffron_safety.md, R231 to R269, R277; R29, R494): the
safety cycle, faults and degraded mode, safe inputs, STO and its switches, SS1, SLS, separation, doors,
SAFE frames and the requests of the module. -/

namespace Sys2Proof.Machine

/-! ## Accessors -/

def State.setSaf (s : State) (x : Saf) : State := { s with saf := x }
def State.pset (s : State) : PSet := s.saf.set
def State.psetOk (s : State) : Bool := s.on SAF.STAT_PSET_OK
def State.sfArm (s : State) (a : Nat) : SafArm := s.saf.arm.get (fun _ => SafArm.reset) a
def State.setArm (s : State) (a : Nat) (x : SafArm) : State :=
  s.setSaf { s.saf with arm := s.saf.arm.set (fun _ => SafArm.reset) a x }
def State.sfJoint (s : State) (p : Nat) : SafJoint := s.saf.joint.get (fun _ => SafJoint.reset) p
def State.setJoint (s : State) (p : Nat) (x : SafJoint) : State :=
  s.setSaf { s.saf with joint := s.saf.joint.set (fun _ => SafJoint.reset) p x }
def State.siIn (s : State) (i : Nat) : SiIn := s.saf.si.get (fun _ => SiIn.reset) i
def State.setSi (s : State) (i : Nat) (x : SiIn) : State :=
  s.setSaf { s.saf with si := s.saf.si.set (fun _ => SiIn.reset) i x }
def State.relStage (s : State) (g : Nat) : Nat := s.saf.rel.get (fun _ => 0) g
def State.setRel (s : State) (g n : Nat) : State := s.setSaf { s.saf with rel := s.saf.rel.set (fun _ => 0) g n }
def noFrame (_ : Nat) : Option SafFrame := none
def State.connFrame (s : State) (c : Nat) : Option SafFrame := s.saf.conn.get noFrame c

/-- Bit `i` of a field as a field of its own. -/
def bitAt (F : Field) (i : Nat) : Field := ⟨F.off, F.lo + i, 1⟩

/-- V of SAF_CONN for connection `c`. -/
def connBit (c : Nat) : Field := ⟨SAF.CONN, c, 1⟩

/-- The enabled arms, none while no set is admitted. -/
def State.safArms (s : State) : List Nat := if s.psetOk then s.pset.arms else []
def State.groupIn (s : State) (g : Nat) : Bool := s.on (bitAt SAF.GSTO_STO g)

/-! ## Faults (R242, R244, R245) -/

/-- The code of scope ALL and of class B in the list of faults. -/
def scopeAll : Nat := 16
def scopeB : Nat := 17

/-- SAF_FAULT shows the first active fault (R277). -/
def State.showFault (s : State) : State :=
  match s.saf.faults with
  | [] => (((s.setF SAF.FAULT_CODE 0).setF SAF.FAULT_CLASS 0).setF SAF.FAULT_ARM 0).setF SAF.FAULT_ALL 0
  | f :: _ =>
    (((s.setF SAF.FAULT_CODE f.code).setF SAF.FAULT_CLASS (if f.arm = scopeB then 2 else 1)).setF SAF.FAULT_ARM
      (if f.arm < 16 then f.arm else 0)).flag SAF.FAULT_ALL (decide (f.arm = scopeAll))

/-- Is `f` the fault of this code, scope and unit. -/
def SafFault.is (f : SafFault) (code arm unit : Nat) : Bool := decide (f.code = code ∧ f.arm = arm ∧ f.unit = unit)

/-- A fault of a unit is raised: one record while it is not active yet. -/
def State.faultUnit (s : State) (code arm unit : Nat) : State :=
  if s.saf.faults.any (fun f => f.is code arm unit) then
    s.setSaf { s.saf with faults := s.saf.faults.map (fun (f : SafFault) =>
      if f.is code arm unit then { f with here := true } else f) }
  else
    let s := s.setSaf { s.saf with faults := s.saf.faults ++ [(⟨code, arm, unit, true, 0⟩ : SafFault)] }
    ((s.bump SAF.FAULT_COUNT).recordStat 0x0F code (if arm < 16 then arm else 0) 5 SAF.STAT).showFault

/-- A class A fault of scope `arm`. -/
def State.faultRaise (s : State) (code arm : Nat) : State := s.faultUnit code arm 0

/-- SS1 on every arm at the next output point. -/
def State.ss1Everywhere (s : State) : State := s.setSaf { s.saf with ss1All := true }

/-- Degraded mode starts (R245, R246). -/
def State.degrade (s : State) : State :=
  let sec := s.pset.u (oGLOBAL + 2) 1 * 60
  let s := ((s.raise SAF.STAT_DEGRADED).raise SAF.STAT_DEG_USED).setF SAF.DEG_REMAIN sec
  (s.setSaf { s.saf with degEnd := some (s.now + sec * 250000000) }).resched (sec * 250000000) .degradedEnd

/-- A class B fault of a switch, a test output or a joint: degraded mode, or SS1 on every arm while it has been
used. -/
def State.faultB (s : State) (code unit : Nat) : State :=
  if s.saf.faults.any (fun f => f.is code scopeB unit) then s
  else
    let s := s.faultUnit code scopeB unit
    if s.on SAF.STAT_DEG_USED then s.ss1Everywhere else s.degrade

/-- The diagnostic of a class B fault passes again (log entry 109). -/
def State.faultPass (s : State) (code unit : Nat) : State :=
  if s.saf.faults.any (fun f => f.is code scopeB unit) then
    (s.setSaf { s.saf with faults := s.saf.faults.filter (fun (f : SafFault) => !f.is code scopeB unit) }).showFault
  else s

def State.faultOn (s : State) (arm : Nat) : Option Nat :=
  (s.saf.faults.find? (fun f => decide (f.arm = arm) || decide (f.arm = scopeAll))).map (·.code)

def State.faultAll (s : State) : Bool := s.saf.faults.any (fun f => decide (f.arm = scopeAll))

/-- The scope of a fault of group `g`: its arm, else ALL. -/
def State.groupScope (s : State) (g : Nat) : Nat :=
  if s.psetOk && decide (s.pset.assign g < 16) then s.pset.assign g else scopeAll

/-! ## STO (R231, R251, R253) -/

/-- The switches of pair `g` that are closed: bit 0 HS, bit 1 LS (R231). -/
def State.switches (s : State) (g : Nat) : Nat := s.saf.sw.get (fun _ => 0) g
def State.setSwitches (s : State) (g n : Nat) : State := s.setSaf { s.saf with sw := s.saf.sw.set (fun _ => 0) g n }

/-- STO on group `g`: both switches open, the latches of its ports set. -/
def State.groupSto (s : State) (g : Nat) : State :=
  let s := (s.setRel g 0).setSwitches g 0
  if s.groupIn g then s else (s.raise (bitAt SAF.GSTO_STO g)).tripAssert (.sto (Fin.ofNat 12 g)) 32

/-- An arm's STATE in SAF_ARMa_STAT. -/
def State.showArm (s : State) (a : Nat) : State :=
  let x := s.sfArm a
  s.setF (SAFA.STAT_STATE a) (if x.st = 0 ∧ x.lim.isSome then 1 else x.st)

/-- STO on an arm with its cause; SS1 and holds end. -/
def State.armSto (s : State) (a cause : Nat) : State :=
  let x := s.sfArm a
  let s := (s.pset.armGroups a).foldl State.groupSto s
  if x.st = 4 then s.setArm a { x with ack := false }
  else
    let s := (s.pset.armPorts a).foldl State.pgSs1End s
    let s := s.setArm a { x with st := 4, ss1 := none, doorHold := false, safeHold := false, ack := false }
    (s.setF (SAFA.STAT_STO_CAUSE a) cause).showArm a

/-- Is the supply of DLK0 to DLK7 there (R297): an input of the module is, and Saffron's monitor has not reported the
supply lost. -/
def State.dlkSupply (s : State) : Bool :=
  (s.on PWS.STAT_A_OK || s.on PWS.STAT_B_OK) && !s.saf.faults.any (fun f => decide (f.code = 0x06))

/-- A loss of that supply turns every DLK off. -/
def State.dlkSettle (s : State) : State := if s.dlkSupply then s else s.setF SAF.DOOR_DLK 0

/-- STO at once on every group: the hardware of R233, and the entries of R234. -/
def State.stoAll (s : State) (cause : Nat) : State :=
  let s := s.safArms.foldl (fun (u : State) a => u.armSto a cause) s
  (List.range 12).foldl State.groupSto s

/-- A hardware fault of scope ALL (R233). -/
def State.hardFault (s : State) (code : Nat) : State :=
  let s := s.faultRaise code scopeAll
  (s.setSaf { s.saf with hard := true }).stoAll code

/-- Saffron starts to release group `g`: the LS switch closes (R253). -/
def State.groupRelease (s : State) (g : Nat) : State :=
  if s.groupIn g && decide (s.relStage g = 0) then (s.setRel g 1).setSwitches g 2 else s

/-- An arm is released once none of its groups is in STO. -/
def State.armFreed (s : State) (a : Nat) : State :=
  let x := s.sfArm a
  if decide (x.st = 4) && (s.pset.armGroups a).all (fun g => !s.groupIn g) then
    ((s.setArm a { x with st := 0 }).setF (SAFA.STAT_STO_CAUSE a) 0).showArm a
  else s

/-- STO_RELEASE_CHECK (R253). -/
def State.releaseCheck (s : State) (g : Nat) (good : Bool) : State :=
  if s.relStage g = 0 then s
  else if !good then (s.groupSto g).faultRaise 0x0C (s.groupScope g)
  else if s.relStage g = 1 then (s.setRel g 2).setSwitches g 3
  else
    let s := ((s.setRel g 0).flag (bitAt SAF.GSTO_STO g) false).tripRelease (.sto (Fin.ofNat 12 g))
    if s.psetOk && decide (s.pset.assign g < 16) then s.armFreed (s.pset.assign g) else s

/-- A switch of pair `g` closes again after its test, unless STO has come meanwhile. -/
def State.switchClose (s : State) (g : Nat) (hs : Bool) : State :=
  if s.groupIn g then s else s.setSwitches g (Nat.lor (s.switches g) (if hs then 1 else 2))

/-- One switch of a released pair opens for its test, for at most 200 µs; the test of the LS switch follows that of the
HS switch at least 1 ms later (R254). -/
def State.switchOpen (s : State) (g : Nat) (hs : Bool) : State :=
  let d := s.freeNat % 50001
  let s := (s.tickFree.setSwitches g (if hs then 2 else 1)).due d (.switchClose g hs)
  let ls : Instr := .stogSwitchTest (Fin.ofNat 12 g) false true
  if hs then s.resched (d + 250000) ls else s.cancel ls

/-- STOG_SWITCH_TEST (R254): one switch of a released pair opens, and its readback is judged; a switch that passes again
has not failed any more. A pair of which a switch is open is not tested. -/
def State.switchTest (s : State) (g : Nat) (hs good : Bool) : State :=
  if s.groupIn g ∨ s.switches g ≠ 3 then s
  else
    let s := s.switchOpen g hs
    let bit := if hs then 1 else 2
    let old := s.saf.swBad.get (fun _ => 0) g
    let new := if good then (if old.testBit (bit - 1) then old - bit else old) else Nat.lor old bit
    let s := s.setSaf { s.saf with swBad := s.saf.swBad.set (fun _ => 0) g new }
    let s := s.flag (bitAt SAF.GSTO_SWFAIL g) (decide (new ≠ 0))
    if good then s.faultPass 0x0D (2 * g + hs.toNat)
    else if new = 3 then s.faultRaise 0x0C (s.groupScope g) else s.faultB 0x0D (2 * g + hs.toNat)

/-- A pair above 3.5 A: both switches open at once and none closes again, nor does a release in progress go on
(R242). -/
def State.overcurrent (s : State) (g : Nat) : State :=
  let s := ((s.setRel g 0).setSwitches g 0).undue (fun e => e == .switchClose g true || e == .switchClose g false)
  s.faultRaise 0x10 (s.groupScope g)

/-- T_SWT in ticks. -/
def State.switchTime (s : State) : Nat := s.pset.u (oGLOBAL + 0xC) 2 * 15000000000

/-- Every T_SWT the tests of the released pairs begin (R254). -/
def State.switchTests (s : State) : State :=
  if !s.psetOk then s
  else
    let s := (List.range 12).foldl (fun (u : State) g =>
      if u.groupIn g then u else u.resched 0 (.stogSwitchTest (Fin.ofNat 12 g) true true)) s
    s.due s.switchTime .switchTests

/-! ## Safe inputs (R247 to R250) -/

/-- The demanded level and the disagreement under TYPE (0 EQUIV, 1 ANTI). -/
def siDemand (anti a b : Bool) : Bool := if anti then !a || b else !a || !b
def siDisagree (anti a b : Bool) : Bool := if anti then decide (a = b) else decide (a ≠ b)
/-- Both channels show the demanded level. -/
def siBothDemand (anti a b : Bool) : Bool := if anti then !a && b else !a && !b

def State.siAnti (s : State) (i : Nat) : Bool := decide (s.pset.u (oINPUT i + 1) 1 = 1)
def State.siZones (s : State) (i : Nat) : Nat := s.pset.u (oINPUT i + 3) 1

/-- SAF_SI and SAF_SIFLT show input `i`. -/
def State.showSi (s : State) (i : Nat) : State :=
  (s.flag (bitAt SAF.SI_DEMAND i) (s.siIn i).dem).flag (bitAt SAF.SIFLT_FAULT i) (s.siIn i).flt

/-- An input fault (R248, R249). -/
def State.siFault (s : State) (i : Nat) : State :=
  let x := s.siIn i
  if x.flt then s
  else ((s.setSi i { x with flt := true, dem := true }).showSi i).recordStat 0x0F 0x22 i 5 SAF.STAT

/-- A RESET operation ends: an acknowledgement of 100 ms to 2 s counts, any other is ignored and
recorded (R250). -/
def State.siReset (s : State) (i : Nat) (was now_ : Bool) : State :=
  let x := s.siIn i
  if now_ && !was then s.setSi i { x with press := some s.now }
  else if was && !now_ then
    match x.press with
    | some t =>
      let s := s.setSi i { x with press := none }
      if decide (25000000 ≤ s.now - t) && decide (s.now - t ≤ 500000000) then
        s.setSaf { s.saf with ackIn := Nat.lor s.saf.ackIn (s.siZones i) }
      else s.recordStat 0x0F 0x24 i 5 SAF.STAT
    | none => s
  else s

/-- Is a channel inside the window of its own test pulse. -/
def State.inWindow (s : State) (tp : Nat) : Bool :=
  if 4 ≤ tp then false
  else match s.saf.tpAt.get none3 tp with
    | some t => decide (s.now < t + (s.pset.u (oGLOBAL + 0xE) 2 + 50) * 250)
    | none => false

/-- A channel takes a new level after two equal consecutive samples. -/
def siLevel (skip prev lvl x : Bool) : Bool × Bool :=
  if skip then (prev, lvl) else (x, if x = prev then x else lvl)

/-- One sample of input `i`. -/
def State.siSample (s : State) (i : Nat) (a b : Bool) : State :=
  if s.pset.func i = 0 then s
  else
    let x := s.siIn i
    let anti := s.siAnti i
    let la := siLevel (s.inWindow (s.pset.u (oINPUT i + 4) 1)) x.sa x.a a
    let lb := siLevel (s.inWindow (s.pset.u (oINPUT i + 5) 1)) x.sb x.b b
    let dis := siDisagree anti la.2 lb.2
    let flt := x.flt && !siBothDemand anti la.2 lb.2
    let dem := flt || siDemand anti la.2 lb.2
    let s := s.setSi i { x with sa := la.1, sb := lb.1, a := la.2, b := lb.2, flt := flt, dem := dem, disc := dis }
    let c : Instr := .siDiscrepancy (Fin.ofNat 16 i)
    let s := if dis && !x.disc then s.resched (s.pset.u (oINPUT i + 6) 2 * 250000 + 1) c
      else if dis then s else s.cancel c
    let s := s.showSi i
    if s.pset.func i = 4 then s.siReset i x.dem dem else s

/-- Zones on which a demand acts with ACT `act`, own and from DEMAND frames (R250, R268). -/
def State.demandZones (s : State) (act : Nat) : Nat :=
  let own := (List.range 16).foldl (fun (z : Nat) i =>
    if (s.pset.func i = 1 ∨ s.pset.func i = 2) ∧ s.saf.dem.testBit i ∧ s.pset.u (oINPUT i + 2) 1 = act
    then Nat.lor z (s.siZones i) else z) 0
  own

def State.slsZones (s : State) : Nat :=
  (List.range 16).foldl (fun (z : Nat) i =>
    if s.pset.func i = 3 ∧ s.saf.dem.testBit i then Nat.lor z (s.siZones i) else z) 0

/-- Zones of the DEMAND frames (R266): byte `k` of INFO. -/
def State.frameZones (s : State) (k : Nat) : Nat :=
  (List.range 32).foldl (fun (z : Nat) c =>
    match s.saf.taken.get noFrame c with
    | some f => if f.kind = 3 then Nat.lor z (f.info.getD k 0) else z
    | none => z) 0

def State.estopAny (s : State) : Bool :=
  (List.range 16).any (fun i => decide (s.pset.func i = 1) && s.saf.dem.testBit i)

def State.estopSto (s : State) : Bool :=
  (List.range 16).any (fun i => decide (s.pset.func i = 1) && s.saf.dem.testBit i && decide (s.pset.u (oINPUT i + 2) 1 = 0))

/-- An input fault that the cycle start took acts on a zone. -/
def State.inputFaultOn (s : State) (z : Nat) : Bool :=
  (List.range 16).any (fun i => !decide (s.pset.func i = 0) && s.saf.flts.testBit i && (s.siZones i).testBit z)

/-! ## Doors (R263 to R265) -/

/-- Door `d` is demanded by an input of function `f`. -/
def State.doorDem (s : State) (f d : Nat) : Bool :=
  (List.range 16).any (fun i => decide (s.pset.func i = f) && decide (s.pset.u (oINPUT i + 8) 1 = d) && s.saf.dem.testBit i)

def State.shutLocked (s : State) (d : Nat) : Bool := !s.doorDem 5 d && !s.doorDem 6 d
def State.doorZone (s : State) (d : Nat) : Nat := s.pset.u (oDOOR d) 1
def State.dlk (s : State) (d : Nat) : Bool := s.on (bitAt SAF.DOOR_DLK d)
def State.zoneArms (s : State) (z : Nat) : List Nat := s.safArms.filter (fun a => decide (s.pset.armZone a = z))
def State.zoneShut (s : State) (z : Nat) : Bool :=
  (List.range 8).all (fun d => decide (s.doorZone d ≠ z) || s.shutLocked d)

/-- Every joint of the arm is at or below V_STILL. -/
def State.armStill (s : State) (a : Nat) : Bool :=
  (s.pset.armPorts a).all (fun p => decide ((s.sfJoint p).spd.natAbs ≤ s.pset.u (oJOINT p + 0x40) 4))

/-- Enter a standstill hold: the positions of the joints are kept, those of a hold that stands already stay. -/
def State.enterHold (s : State) (a : Nat) (door : Bool) : State :=
  let x := s.sfArm a
  let s := if x.st = 3 then s else
    (s.pset.armPorts a).foldl (fun (u : State) p => u.setJoint p { u.sfJoint p with hold := (u.sfJoint p).pos }) s
  (s.setArm a { x with st := 3, doorHold := x.doorHold || door, doorSeen := x.doorHold && x.doorSeen,
                       safeHold := x.safeHold || !door }).showArm a

/-- DLK outputs at the output point (R263, R297, R494). -/
def State.dlkOut (s : State) (d : Nat) : State :=
  let ask := s.saf.req.toNat.testBit (8 + d)
  let cut := s.saf.dlkCut.testBit d
  let s :=
    if !s.dlkSupply then s.flag (bitAt SAF.DOOR_DLK d) false
    else if !ask then
      (s.flag (bitAt SAF.DOOR_DLK d) false).setSaf { s.saf with dlkCut := s.saf.dlkCut - (if cut then 2 ^ d else 0) }
    else if s.dlk d || cut then s
    else
      let arms := s.zoneArms (s.doorZone d)
      let sto (a : Nat) : Bool := decide ((s.sfArm a).st = 4)
      let still (a : Nat) : Bool := decide (s.pset.u (oDOOR d + 1) 1 = 1)
        && (decide ((s.sfArm a).st = 0) || decide ((s.sfArm a).st = 3)) && s.armStill a
      if s.psetOk && arms.all (fun a => sto a || still a) then
        let s := (arms.filter (fun a => !sto a)).foldl (fun (u : State) a => u.enterHold a true) s
        s.raise (bitAt SAF.DOOR_DLK d)
      else s
  (s.flag (bitAt SAF.DOOR_CLOSED_LOCKED d) (s.psetOk && s.shutLocked d)).flag (bitAt SAF.DOOR_EDGE d) (s.psetOk && s.doorDem 7 d)

/-- A door reads open or unlocked without a grant, or while an arm of the zone may move (R265). -/
def State.doorSto (s : State) (z : Nat) : Bool :=
  (List.range 8).any (fun d => decide (s.doorZone d = z) && !s.shutLocked d
    && (!s.dlk d || (s.zoneArms z).any (fun a => !decide ((s.sfArm a).st = 3) && !decide ((s.sfArm a).st = 4))))

/-- The zones of that condition as a mask, judged once for every arm of an output point. -/
def State.doorStos (s : State) : Nat :=
  (List.range 8).foldl (fun m z => if s.doorSto z then m + 2 ^ z else m) 0

/-! ## SS1 (R256 to R258) -/

/-- SS1 on an arm; one in progress is not restarted. -/
def State.armSs1 (s : State) (a : Nat) : State :=
  let x := s.sfArm a
  if x.st = 0 ∨ x.st = 3 then
    let s := (s.pset.armPorts a).foldl (fun (u : State) p =>
      (u.setJoint p { u.sfJoint p with v0 := (u.sfJoint p).spd.natAbs }).pgSs1 p
        (u.pset.u (oJOINT p + 0x2C) 4) (u.pset.u (oJOINT p + 0x30) 4)) s
    (s.setArm a { x with st := 2, ss1 := some s.now, doorHold := false, safeHold := false }).showArm a
  else s

/-- Every joint keeps within the envelope of R257, `dt` ticks after t_c. -/
def State.ss1Kept (s : State) (a dt : Nat) : Bool :=
  (s.pset.armPorts a).all (fun p =>
    let x := s.sfJoint p
    let o := oJOINT p
    let tol := s.pset.u (o + 0x38) 4
    let dly := s.pset.u (o + 0x3C) 2 * 250000
    if dt < dly then decide (x.spd.natAbs ≤ x.v0 + tol)
    else decide (((x.spd.natAbs : Nat) : Rat) ≤ max ((x.v0 : Rat) - (s.pset.u (o + 0x34) 4 : Rat) * ((dt - dly : Nat) : Rat) / 250000000) 0 + (tol : Rat)))

/-- Every joint keeps within the standstill hold (R264). -/
def State.holdKept (s : State) (a : Nat) : Bool :=
  (s.pset.armPorts a).all (fun p =>
    let x := s.sfJoint p
    decide (x.spd.natAbs ≤ s.pset.u (oJOINT p + 0x40) 4) && decide ((x.pos - x.hold).natAbs ≤ s.pset.u (oJOINT p + 0x44) 4))

/-! ## Capsules, separation, SLS (R259 to R262) -/

def State.armCapsules (s : State) (a : Nat) : List Capsule :=
  s.pset.capsules (fun p => (s.sfJoint p).pos) (fun p => (s.sfJoint p).spd) a

/-- The age of a frame at the cycle start, in seconds. -/
def State.ageSec (s : State) (f : SafFrame) : Rat := ((s.saf.takenAt - f.at_ : Nat) : Rat) / 250000000

/-- The capsules of the used frames of one kind that count: axis ends and enlarged radius. -/
def State.otherCaps (s : State) (kind : Nat) (grow : SafFrame → SafCap → Rat) : List (V3 × V3 × Rat) :=
  (List.range 32).flatMap (fun c =>
    match s.saf.taken.get noFrame c with
    | some f =>
      if f.kind = kind && (decide (kind ≠ 1) || s.saf.alive.testBit c) then
        (f.caps.filter (fun k => k.valid)).map (fun k =>
          ((⟨k.p1.1, k.p1.2.1, k.p1.2.2⟩ : V3), (⟨k.p2.1, k.p2.2.1, k.p2.2.2⟩ : V3), (k.r : Rat) + grow f k))
      else []
    | none => [])

/-- Human capsules, enlarged by V_H times the frame's age (R261). -/
def State.humanCaps (s : State) : List (V3 × V3 × Rat) :=
  s.otherCaps 1 (fun f _ => (s.pset.u oGLOBAL 2 : Rat) * s.ageSec f)

/-- Capsules of remote arms, enlarged by VB times age + 2 ms (R262). -/
def State.remoteCaps (s : State) : List (V3 × V3 × Rat) :=
  s.otherCaps 2 (fun f k => (k.vb : Rat) * (s.ageSec f + 2 / 1000))

/-- D and S_p of the acting pair (R261): the smallest D − S_p. -/
def State.actingPair (s : State) (a : Nat) : Option (Rat × Rat) :=
  let open_ : Rat := s.freeNat
  ((s.armCapsules a).flatMap (fun c => s.humanCaps.map (fun h =>
    let x := pairDist c h.1 h.2.1 h.2.2 open_
    (x.1, s.pset.protect a x.2)))).foldl (fun (b : Option (Rat × Rat)) x =>
      match b with
      | some y => if x.1 - x.2 < y.1 - y.2 then some x else b
      | none => some x) none

/-- An arm comes closer than D_RR to another arm (R262). -/
def State.armsClose (s : State) (a : Nat) : Bool :=
  let lim := s.pset.fp (oGLOBAL + 0x20)
  let mine := s.armCapsules a
  let gap (c : Capsule) (q1 q2 : V3) (r : Rat) : Bool :=
    let x := closest c.p1 c.p2 q1 q2
    decide ((x.2.sub x.1).len - c.r - r < lim)
  mine.any (fun c =>
    (s.safArms.filter (fun b => !decide (b = a))).any (fun b => (s.armCapsules b).any (fun d => gap c d.p1 d.p2 d.r))
    || s.remoteCaps.any (fun h => gap c h.1 h.2.1 h.2.2))

/-- The SSM source (R261): on below S_p + B_SLS, off once the distance has sufficed for T_SSMREL. -/
def State.ssmStep (s : State) (a : Nat) (pair : Option (Rat × Rat)) : State :=
  let x := s.sfArm a
  let near := match pair with
    | some (d, sp) => decide (d < sp + s.pset.fp (oGLOBAL + 0x14))
    | none => false
  if near then s.setArm a { x with ssm := true, ssmOk := none }
  else if x.ssm then
    let t := x.ssmOk.getD s.now
    if s.pset.u (oGLOBAL + 0x1C) 2 * 250000 ≤ s.now - t then s.setArm a { x with ssm := false, ssmOk := none }
    else s.setArm a { x with ssmOk := some t }
  else s

/-- The sources of an arm's SLS: INPUT, PLAN, DEG, SSM as bits 0 to 3. -/
def State.slsSources (s : State) (a : Nat) : Nat :=
  let z := s.pset.armZone a
  ((s.slsZones.testBit z || (s.frameZones 2).testBit z).toNat) + 2 * (s.saf.req.toNat.testBit 0).toNat
    + 4 * (s.on SAF.STAT_DEGRADED).toNat + 8 * (s.sfArm a).ssm.toNat

/-- The smallest limit among the active sources, mm/s. -/
def State.slsLimitOf (s : State) (a src : Nat) : Option Rat :=
  let l := (if src.testBit 0 then [s.pset.fp (oARM a + 0x18)] else [])
    ++ (if src.testBit 1 then [s.pset.fp (oGLOBAL + 8)] else [])
    ++ (if src.testBit 2 then [s.pset.fp (oGLOBAL + 4)] else [])
    ++ (if src.testBit 3 then [s.pset.fp (oGLOBAL + 0x18)] else [])
  l.foldl (fun (b : Option Rat) x => match b with | some y => some (min x y) | none => some x) none

/-- 1.0 × 10^30 as binary32. -/
def noLimit : Nat := 0x7149F2CA

/-- Write the limit to the generators and to SAF_ARMa_VLIM (R260). -/
def State.writeLimit (s : State) (a : Nat) (lim : Option Rat) : State :=
  let lev := ((s.pset.armPorts a).map (fun p => s.pset.fp (oJOINT p + 0x28))).foldl (· + ·) 0
  let s := (s.pset.armPorts a).foldl (fun (u : State) p =>
    let v : Word := match lim with
      | some l => BitVec.ofInt 32 (min (16 * absR (u.pset.fp (oJOINT p + 4)) * l / lev).floor 0xFFFFFFFF)
      | none => 0xFFFFFFFF#32
    if u.rd (PRG.VSLS p) = v then u else u.pgVsls p v) s
  s.wrN (SAFA.VLIM a) (match lim with | some l => fmt32.ofRat l | none => noLimit)

/-- SLS of an arm: its limit, and what its capsules must keep (R259). -/
def State.slsStep (s : State) (a : Nat) : State :=
  let src := s.slsSources a
  let lim := s.slsLimitOf a src
  let x := s.sfArm a
  let sp := (s.armCapsules a).map Capsule.speed
  let fresh := match lim, x.lim with
    | some l, some o => decide (l < o)
    | some _, none => true
    | none, _ => false
  let x := if fresh then { x with lim := lim, limAt := s.now, caps := sp } else { x with lim := lim }
  (((s.setArm a x).setF (SAFA.STAT_SLS_SRC a) src).writeLimit a lim).showArm a

/-- A capsule breaks the limit of its arm. -/
def State.slsBroken (s : State) (a : Nat) : Bool :=
  let x := s.sfArm a
  let tol : Rat := s.pset.u (oGLOBAL + 0x26) 2
  let sp := (s.armCapsules a).map Capsule.speed
  match x.lim with
  | none => false
  | some l =>
    if s.now - x.limAt < s.pset.u (oGLOBAL + 0x24) 2 * 250000 then
      (sp.zip x.caps).any (fun y => decide (y.2 + tol < y.1))
    else sp.any (fun v => decide (l + tol < v))

/-! ## The cycle start (R232) -/

/-- What Saffron takes of unit `p` through its read-only port (R118), with the count of R243. -/
def State.takeJoint (s : State) (released : Bool) (p : Nat) : State :=
  let x := s.sfJoint p
  let o := oJOINT p
  let v := s.rdI (PFB.SPEED p)
  let bad := !s.on (PFB.STAT_VALID p) || s.on (PFB.STAT_FAULT p) || s.on (PFB.STAT_OVR_SAT p)
  let tag := s.f (SAF.EST_TAG_V p)
  let stale := if tag = x.tag then x.stale + 1 else 0
  let counts := decide (s.pset.u (o + 0x54) 4 ≤ max v.natAbs x.est.natAbs)
  let missed := decide (((s.pset.u (o + 0x48) 4 : Nat) : Rat) + (s.pset.u (o + 0x4C) 2 : Rat) * (v.natAbs : Rat) / 65536 < ((v - x.est).natAbs : Rat))
  let miss := if !released then 0 else if !counts then x.miss else if missed then x.miss + 1 else 0
  let x := { x with pos := s.pos p + s.ovr p, spd := v, bad := bad, tag := tag, stale := stale, miss := miss }
  s.setJoint p { x with stat := s.rd (PFB.STAT p), edge := s.rd (PFB.EDGENS p), frac := s.rd (PFB.EDGEFR p) }

/-- Is port `p` a joint of a released arm. -/
def State.portReleased (s : State) (p : Nat) : Bool :=
  s.safArms.any (fun a => (s.pset.armPorts a).contains p && !decide ((s.sfArm a).st = 4))

/-- Every unit is taken in one tick (R232). -/
def State.takeJoints (s : State) : State :=
  (List.range 96).foldl (fun (u : State) p => u.takeJoint (s.portReleased p) p) s

/-- The demand mask of the inputs. -/
def State.demandMask (s : State) : Nat :=
  (List.range 16).foldl (fun (m : Nat) i => if (s.siIn i).dem then m + 2 ^ i else m) 0

/-- The input faults as a mask. -/
def State.faultMask (s : State) : Nat :=
  (List.range 16).foldl (fun (m : Nat) i => if (s.siIn i).flt then m + 2 ^ i else m) 0

/-- The ticks to the next cycle start: every 20,000th period of Saffron's oscillator from its start on, 1 ms of TB_SAFE on
its own count (R12, R232, R504). -/
def State.cycleTicks (s : State) : Nat := (1000000 - (s.tbu.safNs - s.saf.startNs) % 1000000 + 3) / 4

/-- SAFETY_CYCLE_START: the inputs of the cycle are taken; the output point follows within 0.8 ms, and
the hardware watches it until 1.2 ms. -/
def State.cycleStart (s : State) (ppm : Int) (contra : BitVec 12) : State :=
  let s := s.bumpMod SAF.STAT_CYCLE
  let x := { s.saf with dem := s.demandMask, ack := s.saf.ackIn, ackIn := 0, req := s.rd SAF.REQ }
  let x := { x with takenAt := s.now, takenNs := s.ns 0, taken := x.conn }
  let x := { x with flts := s.faultMask, alive := (s.rd SAF.CONN).toNat, sealCut := x.sealBad, lid := x.cover }
  let x := { x with ss1All := x.ss1All || x.ss1Next, ss1Mask := Nat.lor x.ss1Mask x.maskNext, ss1Next := false, maskNext := 0 }
  let s := s.setSaf x
  let s := s.takeJoints
  let s := if 200 < ppm.natAbs then s.faultRaise 0x05 scopeAll else s
  let s := (List.range 12).foldl (fun (u : State) g => if contra.toNat.testBit g then u.faultRaise 0x0C (u.groupScope g) else u) s
  let s := match s.saf.degEnd with
    | some t => s.setF SAF.DEG_REMAIN ((t - s.now + 249999999) / 250000000)
    | none => s
  let next := s.cycleTicks
  let s := s.undue (fun e => match e with | .cmd (.safetyCycleStart _ _) => true | _ => false)
  let s := (s.tickFree).resched (s.freeNat % 200001) .safetyOutputPoint
  (s.resched 300000 .safetyCycleOverrun).sched next (.safetyCycleStart 0 0#12)

/-! ## The output point (R232) -/

/-- The diagnostics of the joints of an arm (R242: PLAUS, FEEDBACK, EST_LOST). -/
def State.armDiag (s : State) (a : Nat) : State :=
  let released := !decide ((s.sfArm a).st = 4)
  (s.pset.armPorts a).foldl (fun (u : State) p =>
    let x := u.sfJoint p
    let u := if x.bad then u.faultRaise 0x0B a else u
    let u := if u.pset.u (oJOINT p + 0x50) 1 ≤ x.miss then u.faultRaise 0x0A a else u
    if released && decide (4 ≤ x.stale) then u.faultB 0x0E p else u.faultPass 0x0E p) s

/-- Does anything command STO on the arm now, and with which cause; `doors`: the zones of R265. A state other than RUN
and SAFE since the last output point counts, one that has ended too (R234). -/
def State.stoCause (s : State) (doors a : Nat) : Option Nat :=
  let x := s.sfArm a
  let z := s.pset.armZone a
  if s.saf.left || !(decide (s.mstate = stRUN) || decide (s.mstate = stSAFE)) then some 0x83
  else if (s.faultOn a).isSome then s.faultOn a
  else if s.saf.hard then some 0x07
  else if (Nat.lor (s.demandZones 0) (s.frameZones 0)).testBit z then some 0x80
  else if doors.testBit z then some 0x82
  else
    match x.ss1 with
    | some t =>
      if !s.ss1Kept a (s.now - t) then some 0x81
      else if s.armStill a || decide (s.pset.u (oGLOBAL + 0x12) 2 * 250000 ≤ s.now - t) then some 0x81
      else none
    | none =>
      if x.st = 3 ∧ !s.holdKept a then some (if x.doorHold then 0x82 else 0x83) else none

/-- Does anything command SS1 on the arm now (R256). -/
def State.ss1Cause (s : State) (a : Nat) (pair : Option (Rat × Rat)) : Bool :=
  let z := s.pset.armZone a
  (Nat.lor (s.demandZones 1) (s.frameZones 1)).testBit z || s.saf.ss1All || s.saf.ss1Mask.testBit a
    || s.saf.req.toNat.testBit 1
    || (match pair with | some (d, sp) => decide (d < sp) | none => false)
    || s.armsClose a || s.slsBroken a

/-- The conditions of R252 but for the acknowledgement. -/
def State.mayRelease (s : State) (a : Nat) : Bool :=
  let z := s.pset.armZone a
  decide (s.mstate = stRUN) && s.psetOk && !s.saf.sealCut && !s.saf.lid && !s.pws.unlocked && (s.faultOn a).isNone && !s.saf.hard
    && !(Nat.lor (s.demandZones 0) (s.frameZones 0)).testBit z && !s.inputFaultOn z && s.zoneShut z
    && (s.sfArm a).ss1.isNone

/-- Release an arm in STO once the conditions have held since an acknowledgement of its zone. -/
def State.releaseStep (s : State) (a : Nat) : State :=
  let x := s.sfArm a
  if x.st ≠ 4 then s
  else
    let held := s.mayRelease a && (x.ack || s.saf.ack.testBit (s.pset.armZone a))
    let s := s.setArm a { x with ack := held }
    if held then (s.pset.armGroups a).foldl State.groupRelease s else s

/-- Holds end: the door's once every door of the zone reads closed and locked, at a first output point after one read
otherwise, or while no DLK of the zone is on (R264, log entry 130); the one of SAFE with the state, by STO (R234). -/
def State.holdStep (s : State) (a : Nat) : State :=
  let x := s.sfArm a
  if x.st ≠ 3 then s
  else
    let z := s.pset.armZone a
    let open_ := (List.range 8).any (fun d => decide (s.doorZone d = z) && s.dlk d)
    let seen := x.doorSeen || !s.zoneShut z
    let door := x.doorHold && !(s.zoneShut z && (seen || !open_))
    (s.setArm a { x with doorHold := door, doorSeen := door && seen, st := if door || x.safeHold then 3 else 0 }).showArm a

/-- Entry to SAFE (R234): the standstill hold, or SS1. -/
def State.safeEntry (s : State) (a : Nat) : State :=
  let x := s.sfArm a
  if x.st = 4 then s
  else if s.pset.u (oGLOBAL + 3) 1 = 1 ∧ (x.st = 0 ∨ x.st = 3) ∧ s.armStill a then s.enterHold a false
  else s.armSs1 a

/-- One arm at the output point. -/
def State.armOut (s : State) (doors a : Nat) : State :=
  let pair := s.actingPair a
  let s := s.tickFree
  let s := match pair with
    | some (d, sp) => (s.wrN (SAFA.DMIN a) (fmt32.ofRat d)).wrN (SAFA.SPMIN a) (fmt32.ofRat sp)
    | none => s
  let s := ((s.ssmStep a pair).slsStep a).flag (SAFA.STAT_STILL a) (s.armStill a)
  match s.stoCause doors a with
  | some c => s.armSto a c
  | none =>
    let s := if s.saf.lastMod ≠ stSAFE ∧ s.mstate = stSAFE then s.safeEntry a else s
    let s := if s.ss1Cause a pair then s.armSs1 a else s
    (s.holdStep a).releaseStep a

/-- A DOORS or unassigned group (R250, R252). -/
def State.groupOut (s : State) (g : Nat) : State :=
  let doors := s.psetOk && decide (s.pset.assign g = 0x10)
  if s.psetOk && decide (s.pset.assign g < 16) then
    if s.saf.hard || s.saf.left || !(decide (s.mstate = stRUN) || decide (s.mstate = stSAFE)) then s.groupSto g else s
  else
    let sto := !doors || s.faultAll || s.saf.hard || s.estopAny || s.saf.left || !(decide (s.mstate = stRUN) || decide (s.mstate = stSAFE))
    if sto then
      (s.setSaf { s.saf with grpAck := s.saf.grpAck.set (fun _ => false) g false }).groupSto g
    else if s.groupIn g then
      let may := decide (s.mstate = stRUN) && !s.saf.sealCut && !s.saf.lid && !s.pws.unlocked
      let held := may && (s.saf.grpAck.get (fun _ => false) g || decide (s.saf.ack ≠ 0))
      let s := s.setSaf { s.saf with grpAck := s.saf.grpAck.set (fun _ => false) g held }
      if held then s.groupRelease g else s
    else s

/-- An acknowledgement clears faults of scope ARM whose cause had been absent for one full cycle when it was given:
the inputs of the two cycles before this one, and of this one, do not show it (R244, log entry 108). -/
def State.ackFaults (s : State) : State :=
  (s.setSaf { s.saf with faults := s.saf.faults.filter (fun (f : SafFault) =>
    !(decide (f.arm < 16) && !f.here && decide (2 ≤ f.gone) && s.saf.ack.testBit (s.pset.armZone f.arm))) }).showFault

/-! ## SAFE frames (R266 to R268) -/

def s16le (x : Rat) : Nat := bitsOf 16 (clampInt (-32768) 32767 (roundHalfAway x.num x.den))
def u16le (x : Rat) : Nat := (min 65535 (max 0 (-((-x).floor)))).toNat

/-- The CRC of a frame, with the start value of its connection. -/
def safeCrc (conn : Nat) (l : List Byte) : Nat := crc32c (0xFFFFFFFF - conn * 0x10001 % 2 ^ 32) l

/-- A SAFE frame's payload with its CRC. -/
def safeBytes (conn kind : Nat) (seq ts : Word) (info : List Nat) (recs : List (List Byte)) : List Byte :=
  let l := packBytes [(conn, 2), (kind, 1), (recs.length, 1), (seq.toNat, 4), (ts.toNat, 4)]
    ++ packBytes (info.map (fun x => (x, 1))) ++ recs.flatten
  l ++ leBytes (safeCrc conn l) 4

def capRecord (id : Nat) (c : Capsule) : List Byte :=
  packBytes [(id, 2), (1, 2), (s16le c.p1.x, 2), (s16le c.p1.y, 2), (s16le c.p1.z, 2), (s16le c.p2.x, 2),
    (s16le c.p2.y, 2), (s16le c.p2.z, 2), (u16le c.r, 2), (u16le c.speed, 2)]

/-- Send one SAFE frame; its SEQ counts per connection. -/
def State.sendSafe (s : State) (conn kind : Nat) (info : List Nat) (recs : List (List Byte)) : State :=
  let n := s.saf.txSeq.get zeroW conn + 1#32
  let s := s.setSaf { s.saf with txSeq := s.saf.txSeq.set zeroW conn n }
  s.sendFrame 3 0xFF (.bytes (safeBytes conn kind n s.saf.takenNs info recs))

/-- The ARM frames and the DEMAND frame of an output point (R268). -/
def State.safeFrames (s : State) : State :=
  if !s.psetOk then s
  else
    let tx := s.pset.u (oGLOBAL + 0x1E) 2
    let s := s.safArms.foldl (fun (u : State) a =>
      let recs := ((u.pset.armCaps a).zip (u.armCapsules a)).map (fun x => capRecord x.1 x.2)
      u.sendSafe (tx + a) 2 [a, u.pset.armZone a, 0, 0] recs) s
    s.sendSafe (tx + 16) 3 [s.demandZones 0, s.demandZones 1, s.slsZones, 0] []

/-- SAFETY_OUTPUT_POINT. -/
def State.outputPoint (s : State) : State :=
  let s := s.cancel .safetyCycleOverrun
  let s := s.safArms.foldl State.armDiag s
  let s := s.ackFaults
  let doors := s.doorStos
  let s := s.safArms.foldl (fun (u : State) a => u.armOut doors a) s
  let s := (List.range 12).foldl State.groupOut s
  let s := (List.range 8).foldl State.dlkOut s
  let report := s.faultAll || (s.psetOk && s.estopSto)
  let s := (s.flag SAF.STAT_REPORT report).safeFrames
  let s := s.setSaf { s.saf with ss1All := false, ss1Mask := 0, lastMod := s.mstate, left := false, ack := 0, faults := s.saf.faults.map (fun (f : SafFault) => { f with here := false, gone := if f.here then 0 else f.gone + 1 }) }
  if report && decide (s.mstate = stRUN) then s.due 0 .safReport else s

/-! ## Connections (R267) -/

/-- A capsule record of a received frame. -/
def capOf (l : List Byte) : SafCap :=
  let i (o : Nat) : Int := signedOf 16 (leNat (sub l o 2))
  ⟨(leNat (sub l 2 2)).testBit 0, (i 4, i 6, i 8), (i 10, i 12, i 14), leNat (sub l 16 2), leNat (sub l 18 2)⟩

/-- SAFE_FRAME_RECEIVE. -/
def State.safeReceive (s : State) (l : List Byte) : State :=
  let id := leNat (sub l 0 2)
  let kind := leNat (sub l 2 1)
  let n := leNat (sub l 3 1)
  let seq := BitVec.ofNat 32 (leNat (sub l 4 4))
  let ts := BitVec.ofNat 32 (leNat (sub l 8 4))
  let len := 16 + 20 * n
  match (List.range 32).find? (fun c => s.psetOk && decide (id ≠ 0) && decide (s.pset.connId c = id)) with
  | none => s
  | some c =>
    let good := decide (s.pset.u (oCONN c + 2) 1 = kind) && decide (n ≤ 64) && decide (l.length = len + 4)
      && decide (safeCrc id (l.take len) = leNat (sub l len 4))
    let last := s.connFrame c
    let later := match last with
      | some f => decide (0 < (seq - f.seq).toInt) && decide (0 < (ts - f.ts).toInt)
      | none => true
    if !(good && later) then s.bump (SAF.CONNC_REJECTED c)
    else
      let s := match last with
        | some f => if seq - f.seq = 1#32 then s else s.bump (SAF.CONNC_LOST c)
        | none => s
      let caps := (List.range n).map (fun r => capOf (sub l (16 + 20 * r) 20))
      let f : SafFrame := ⟨kind, seq, ts, (sub l 12 4).map BitVec.toNat, caps, s.now⟩
      let s := s.setSaf { s.saf with conn := s.saf.conn.set noFrame c (some f) }
      (s.raise (connBit c)).resched (s.pset.u (oCONN c + 4) 2 * 250000) (.connTimeout (Fin.ofNat 32 c))

/-- CONN_TIMEOUT: the connection is lost. -/
def State.connLost (s : State) (c : Nat) : State :=
  if s.on (connBit c) then
    let s := (s.flag (connBit c) false).recordStat 0x0F 0x23 c 5 SAF.STAT
    s.setSaf { s.saf with maskNext := Nat.lor s.saf.maskNext (s.pset.u (oCONN c + 6) 2) }
  else s

/-! ## Start (R239, R246) -/

/-- The set at index `i` in the MRAM, as one number. -/
def State.setAt (s : State) (i : Nat) : PSet := s.load .mram (mramSets + i * 0x10000) 0x10000
def State.setBytes (s : State) (m : MemId) (a : Nat) : List Byte := s.getBytes m a 0x10000

/-- T_TPP in ticks. -/
def State.pulseTime (s : State) : Nat := s.pset.u (oGLOBAL + 0x10) 2 * 250000

/-- TPk starts its pulse `d` ticks from now; unless a command says otherwise, its readback and its channels read as
they should (log entry 110). -/
def State.pulseDue (s : State) (k d : Nat) : State :=
  let s := s.undue (fun e => match e with | .cmd (.testPulse j _ _ _) => decide (j.val = k) | _ => false)
  s.sched d (.testPulse (Fin.ofNat 4 k) true 0xFFFF#16 0xFFFF#16)

/-- With an admitted set the test pulses and the switch tests begin (R249, R254): the first pulse of TP0 one T_TPP after
the start, and TPk k × T_TPP / 4 later. -/
def State.testsStart (s : State) : State :=
  if s.psetOk then
    ([0, 1, 2, 3].foldl (fun (u : State) k => u.pulseDue k (u.pulseTime + k * u.pulseTime / 4)) s).due s.switchTime .switchTests
  else s

/-- SAFFRON_START: S1 is read and the selected set admitted, or SEAL or PSET raised. -/
def State.saffronStart (s : State) (no nc : BitVec 12) (cover bGood : Bool) : State :=
  let used := s.on SAF.STAT_DEG_USED && !bGood
  let i := no.toNat % 16
  let s := s.setSaf { Saf.reset with started := true, s1 := no.toNat, cover := cover, lastMod := s.mstate, startNs := s.tbu.safNs, keys := s.saf.keys }
  let s := (((s.wr SAF.STAT 0#32).setF SAF.STAT_PSET i).flag SAF.STAT_DEG_USED used).wr SAF.FAULT 0#32
  let s := (List.range 16).foldl (fun (u : State) a => u.wrN (SAFA.VLIM a) noLimit) s
  let p := s.setAt i
  let bytes := s.setBytes .mram (mramSets + i * 0x10000)
  let crc := crc32 (bytes.take 0xFFFC)
  let contacts := decide (no ^^^ nc = 0xFFF#12)
  let formed := decide (p.u 0 4 = 1) && decide (p.u 4 1 = i) && decide (p.u 0xFFFC 4 = crc)
    && ecdsaGood (s.saf.keys.get (fun _ => []) i) ((bytes.drop 0x100).take 0xFEFC) (sub bytes 0x40 96)
  let formed := formed && p.good && !s.eccIn .mram (mramSets + i * 0x10000) 0x10000 true
  let sealGood := contacts && decide (crc % 256 = no.toNat / 16)
  let s := s.flag SAF.STAT_SEAL_OK true
  let s := if !formed then s.faultRaise 0x09 scopeAll else if !sealGood then s.faultRaise 0x08 scopeAll
    else ((s.setSaf { s.saf with set := p }).raise SAF.STAT_PSET_OK).wrN SAF.PSET crc
  let s := s.undue (fun e => match e with
    | .cmd (.safetyCycleStart _ _) => true
    | .cmd (.testPulse _ _ _ _) => true
    | .cmd (.stogSwitchTest _ _ _) => true
    | .tpEnd _ => true
    | .switchTests => true
    | .switchClose _ _ => true
    | _ => false)
  (s.testsStart).sched 250000 (.safetyCycleStart 0 0#12)

/-- SEAL_SAMPLE (R240): in RUN, every 20 ms; contacts that disagree, and CRC bits that are not those of the admitted set,
are the fault SEAL (R242). -/
def State.sealStep (s : State) (no nc : BitVec 12) (cover : Bool) : State :=
  let s := s.setSaf { s.saf with cover := cover }
  if s.mstate ≠ stRUN then s
  else
    let differs := decide (no.toNat ≠ s.saf.s1) || !decide (no ^^^ nc = 0xFFF#12)
    let n := if differs then s.saf.s1Diff + 1 else 0
    let s := s.setSaf { s.saf with s1Diff := n }
    let crc := !s.psetOk || decide ((s.rd SAF.PSET).toNat % 256 = no.toNat / 16)
    let s := if decide (no ^^^ nc = 0xFFF#12) && crc then s else s.faultRaise 0x08 scopeAll
    if n = 2 ∧ !s.saf.sealBad then
      let s := (s.setSaf { s.saf with sealBad := true, ss1Next := true }).flag SAF.STAT_SEAL_OK false
      s.recordStat 0x0F 0x20 0 5 SAF.STAT
    else s

/-- A class B diagnostic (R245): its fault, or the end of it. -/
def State.diagB (s : State) (code unit : Nat) (pass : Bool) : State :=
  if pass then s.faultPass code unit else s.faultB code unit

/-- SAFC_DIAGNOSTIC (R242): each code with its class and its scope; a joint or a pair of a DOORS group has no arm, and the
scope is then ALL. A class A fault ends as R244 says, not with a diagnostic that passes. -/
def State.diagnostic (s : State) (d : SafDiag) (pass : Bool) : State :=
  match d with
  | .switchOne g hs => s.diagB 0x0D (2 * g.val + hs.toNat) pass
  | .estLost p => s.diagB 0x0E p.val pass
  | .tp k => s.diagB 0x0F k.val pass
  | .cell c =>
    if pass then s
    else if c.val + 1 = 0x06 ∨ c.val + 1 = 0x07 then (s.hardFault (c.val + 1)).dlkSettle
    else s.faultRaise (c.val + 1) scopeAll
  | .plaus p => if pass then s else s.faultRaise 0x0A (s.groupScope (p.val / 8))
  | .feedback p => if pass then s else s.faultRaise 0x0B (s.groupScope (p.val / 8))
  | .switch g => if pass then s else s.faultRaise 0x0C (s.groupScope g.val)
  | .overcurrent g => if pass then s else s.overcurrent g.val

/-- The pulse of TPk ends: it drives 24 V again. -/
def State.tpEnd (s : State) (k : Nat) : State :=
  s.setSaf { s.saf with tpLow := if s.saf.tpLow.testBit k then s.saf.tpLow - 2 ^ k else s.saf.tpLow }

/-- TEST_PULSE (R249): TPk goes low for T_TP, and one T_TPP later again. -/
def State.testPulse (s : State) (k : Nat) (rb : Bool) (lowA lowB : BitVec 16) : State :=
  let s := (s.setSaf { s.saf with tpAt := s.saf.tpAt.set none3 k (some s.now), tpLow := Nat.lor s.saf.tpLow (2 ^ k) }).flag (bitAt SAF.SI_TPOK k) rb
  let s := if s.psetOk then ((s.undue (fun e => decide (e = .tpEnd k))).due (s.pset.u (oGLOBAL + 0xE) 2 * 250) (.tpEnd k)).pulseDue k s.pulseTime
    else s.tpEnd k
  let s := if rb then s.faultPass 0x0F k else s.faultB 0x0F k
  (List.range 16).foldl (fun (u : State) i =>
    if u.psetOk && !decide (u.pset.func i = 0)
      && ((decide (u.pset.u (oINPUT i + 4) 1 = k) && !lowA.toNat.testBit i)
        || (decide (u.pset.u (oINPUT i + 5) 1 = k) && !lowB.toNat.testBit i)) then u.siFault i else u) s

/-! ## Registers (R269, R277) -/

/-- A write of the request and estimate pages by an engine or the door controller. -/
def State.safWrite (s : State) (off : Nat) (v : Word) : State :=
  if off = SAF.REQ then s.store off v
  else
    match (List.range 96).find? (fun p => decide (off = SAF.EST_TAG p)) with
    | some p => (s.store off v).setJoint p { s.sfJoint p with est := s.rdI (SAF.EST p) }
    | none => s.store off v

/-! ## Commands -/

def execSafetyCycleStart (ppm : Int) (contra : BitVec 12) (s : State) : Out := ok (s.cycleStart ppm contra)
def execSafetyOutputPoint (s : State) : Out := ok s.outputPoint

/-- SAFETY_CYCLE_OVERRUN (R233). -/
def execSafetyCycleOverrun (s : State) : Out := ok (s.hardFault 0x07)
/-- SAFETY_SUPPLY_FAULT (R233, R297). -/
def execSafetySupplyFault (s : State) : Out := ok (s.hardFault 0x06).dlkSettle
def execSaffronStart (no nc : BitVec 12) (cover bGood : Bool) (s : State) : Out := ok (s.saffronStart no nc cover bGood)
def execSealSample (no nc : BitVec 12) (cover : Bool) (s : State) : Out := ok (s.sealStep no nc cover)
def execSafcDiagnostic (d : SafDiag) (pass : Bool) (s : State) : Out := ok (s.diagnostic d pass)

/-- SI_SAMPLE (R247). -/
def execSiSample (a b : BitVec 16) (s : State) : Out :=
  ok (if s.psetOk then
    (List.range 16).foldl (fun (u : State) i => u.siSample i (a.toNat.testBit i) (b.toNat.testBit i)) s else s)

/-- SI_DISCREPANCY (R248): the channels still disagree after T_DISC. -/
def execSiDiscrepancy (i : Fin 16) (s : State) : Out :=
  ok (if siDisagree (s.siAnti i) (s.siIn i).a (s.siIn i).b then s.siFault i else s)

def execTestPulse (k : Fin 4) (rb : Bool) (lowA lowB : BitVec 16) (s : State) : Out := ok (s.testPulse k rb lowA lowB)

/-- DEGRADED_END (R245). -/
def execDegradedEnd (s : State) : Out :=
  ok (if s.on SAF.STAT_DEGRADED then ((s.setSaf { s.saf with degEnd := none }).setF SAF.DEG_REMAIN 0).ss1Everywhere else s)

def execStoReleaseCheck (g : Fin 12) (good : Bool) (s : State) : Out := ok (s.releaseCheck g good)
def execStogSwitchTest (g : Fin 12) (hs good : Bool) (s : State) : Out := ok (s.switchTest g hs good)
/-- STOG_OVERCURRENT (R242): the switches open at once. -/
def execStogOvercurrent (g : Fin 12) (s : State) : Out := ok (s.overcurrent g)
def execSafeFrameReceive (p : List Byte) (s : State) : Out := ok (s.safeReceive p)
def execConnTimeout (c : Fin 32) (s : State) : Out := ok (s.connLost c)

/-- DLK_OVERCURRENT (R494): the output is off until Saffron next switches it on. -/
def execDlkOvercurrent (d : Fin 8) (s : State) : Out :=
  ok (if s.dlk d then
    (s.flag (bitAt SAF.DOOR_DLK d) false).setSaf { s.saf with dlkCut := Nat.lor s.saf.dlkCut (2 ^ d.val) }
    else s)

end Sys2Proof.Machine
end

