-- ==== Sys2Proof/Machine/Plc.lean ====
section
/-! DEFINITION. The planning cycle (spec/10_planning_cycle.md, R213 to R228; R418, R420, R426): the
manager's cycle from the snapshot to the CYCLE frames, and the worker that applies plans. What the planner image
fixes of its own (its variables, its parameter words, its planning model) is open (log entry 107). -/

namespace Sys2Proof.Machine

def State.setPlc (s : State) (x : Plc) : State := { s with plc := x }

/-! ## Period and map (R214, R227) -/

/-- P and h in ns, and J. -/
def State.planP (s : State) : Nat := 500000 * 2 ^ s.f PLC.CFG_PERIOD
def State.planH (s : State) : Nat := max s.planP 1000000
def State.planJ (s : State) : Nat := 16000000 / s.planH

def State.jMod (s : State) (j : Nat) : Nat := s.f (PLCJ.JMAP_MOD j)
def State.jPort (s : State) (j : Nat) : Nat := s.f (PLCJ.JMAP_PORT j)
def State.jArm (s : State) (j : Nat) : Nat := s.f (PLCJ.JMAP_ARM j)
def State.mapped (s : State) : List Nat := (List.range 256).filter (fun j => s.on (PLCJ.JMAP_EN j))
def State.localJ (s : State) (j : Nat) : Bool := decide (s.jMod j = s.ownMod)
def State.localJoints (s : State) : List Nat := s.mapped.filter s.localJ
/-- The joints of module `m`. -/
def State.jointsOf (s : State) (m : Nat) : List Nat := s.mapped.filter (fun j => decide (s.jMod j = m))
/-- The workers that hold mapped joints. -/
def State.planWorkers (s : State) : List Nat :=
  (List.range 64).filter (fun m => !decide (m = s.ownMod) && !(s.jointsOf m).isEmpty)

def noSt (_ : Nat) : Option StFrame := none
def State.stFrame (s : State) (m : Nat) : Option StFrame := s.plc.frames.get noSt m

/-! ## Requests to Saffron (R224, R420) -/

/-- PLAN_SLS is requested or withdrawn. -/
def State.planSls (s : State) (b : Bool) : State := (s.flag PLC.STAT_SLS_REQ b).flag SAF.REQ_PLAN_SLS b

/-- A complete plan withdraws FOV_SS1 (R420). -/
def State.fovRelease (s : State) : State :=
  if s.on FOV.STAT_SS1_REQ then (s.flag FOV.STAT_SS1_REQ false).flag SAF.REQ_FOV_SS1 false else s

/-! ## Misses (R223, R224) -/

/-- The cycle is over. -/
def State.cycleOver (s : State) : State :=
  let s := (s.cancel .planDeadline).cancel .snapshotEnd
  (s.undue (fun e => decide (e = .planCut))).setPlc { s.plc with phase := 0, todo := [] }

/-- An iterate shifted by one step (R224). -/
def NmgIter.shifted (w : NmgIter) : NmgIter :=
  let take (f : Nat → Nat) (l : List Nat) : List Nat := (List.range l.length).map (fun i => l.getD (f i) (l.getD i 0))
  { w with x := take Config.planShiftVar w.x, z := take Config.planShiftRow w.z, y := take Config.planShiftRow w.y }

/-- The warm iterate of the cycle after a missed one is the last used solution shifted by one step (R224): the next
SOLVE starts from it. -/
def State.planShift (s : State) : State :=
  match s.plc.sol with
  | some w => s.setPlc { s.plc with sol := some w.shifted, carry := true }
  | none => s

/-- The planner puts the shifted iterate in place before it submits its SOLVE, whatever the SOLVE it ended left. -/
def State.planWarm (s : State) : State :=
  match s.plc.carry, s.plc.sol with
  | true, some w => { s.storeWarm w with nmg := { s.nmg with warm := some w, invalid := false }, plc := { s.plc with carry := false } }
  | _, _ => s

/-- The local arms that have the plan of the cycle, as a mask, while others do not (R223). -/
def State.planSplit (s : State) : Nat :=
  if s.plc.todo.any (fun p => match p with | .arm _ => true | .frame _ _ => false)
  then s.plc.pushed.foldl (fun m a => Nat.lor m (2 ^ a)) 0 else 0

/-- A missed cycle: one record with the status, and in bytes 2 and 3 the arms of a split (log entry 107). -/
def State.planMiss (s : State) (came : Bool) (status : Nat) : State :=
  let split := s.planSplit
  let s := s.cycleOver.raise (if came then PLC.STAT_PLAN_INVALID else PLC.STAT_SOLVE_LATE)
  let s := (s.bump PLC.CNT_MISSES).bump PLC.STAT_MISS_RUN
  let s := s.setPlc { s.plc with used := 0 }
  let s := s.planShift.record 0x01 0x01 0 2 (payloadOf [(status, 1), (0, 1), (split, 2)])
  if s.f PLC.STAT_MISS_RUN = 3 then s.planSls true else s

/-- The plan of the cycle joins the last 16, for R218. -/
def State.planRemember (s : State) : State :=
  s.setPlc { s.plc with plans := (⟨s.plc.num, s.plc.blocks, s.plc.status⟩ :: s.plc.plans).take 16 }

/-- An abandoned cycle: its running SOLVE is ended as by ABORT; what is not sent and not pushed stays so. A plan whose
output had begun is remembered: a worker that had all its fragments by then follows it (R218). -/
def State.planAbandon (s : State) : State :=
  let s := if s.plc.phase = 5 then s.planRemember else s
  let s := { s with nmg := { s.nmg with run := s.nmg.run.map (fun (r : NmgSolve) =>
    if s.plc.phase = 3 ∧ r.cmd.ofs = s.plc.desc then { r with abort := true } else r) } }
  if 4 ≤ s.plc.phase then s.planMiss true s.plc.status else s.planMiss false 0x0F

/-! ## Start and snapshot (R213, R215 to R217) -/

/-- The LOAD_STRUCT of a promoted unit has built its structure (R427): the command is done with OK, and a slot holds the
structure of the checkpoint. -/
def State.buildReady (s : State) : Bool :=
  match s.fov.load, s.fov.ckpts with
  | some o, c :: _ =>
    s.nmg.queue.all (fun q => decide (q.ofs ≠ o)) && s.nmg.build.all (fun b => b.cmds.all (fun q => decide (q.ofs ≠ o)))
      && decide (s.sh (o + 32) 1 = 0)
      && [0, 1].any (fun k => decide (s.slotTag k = c.stag.toNat) && (decide (s.slotSt k = slPENDING) || decide (s.slotSt k = slACTIVE)))
  | _, _ => true

/-- Ticks from t0 to the end of the last local strobe. -/
def State.strobeWait (s : State) : Nat := s.localJoints.foldl (fun (m : Nat) j => max m (32 * (s.jPort j + 1))) 0

/-- Every worker's STATE frame for t0 is in. -/
def State.allStates (s : State) : Bool :=
  s.planWorkers.all (fun m => match s.stFrame m with
    | some f => decide (f.t0 = s.plc.t0)
    | none => false)

/-- The snapshot phase ends once everything is in, at the latest after SNAPW. -/
def State.snapTry (s : State) : State :=
  if decide (s.plc.phase = 1) && s.allStates then
    s.resched (min (s.plc.at_ + s.strobeWait) (s.plc.at_ + s.f PLC.SNAP_SNAPW * 250) - s.now) .snapshotEnd
  else s

/-- Port `p` has latched its strobe set: the snapshot of a running cycle takes the first one from t0 + p × 128 ns on
(R216). -/
def State.planStrobe (s : State) (p : Nat) : State :=
  if s.plc.phase = 1 ∧ s.plc.at_ + 32 * p ≤ s.now ∧ s.plc.strobes.all (fun e => decide (e.1 ≠ p)) = true then
    s.setPlc { s.plc with strobes := s.plc.strobes ++ [(p, s.sampledPos p, s.rdI (PFB.LAT4 p))] }
  else s

/-- The delivery deadline (R223) and the last time of the completion token (R221), in ticks after t0. -/
def State.planLast (s : State) : Nat := (s.planP - 1000 * s.f PLC.CFG_LATE_MARGIN) / 4
def State.planToken (s : State) : Nat := (s.planP - 1000 * (s.f PLC.CFG_LATE_MARGIN + s.f PLC.CFG_TPOST)) / 4

/-- PLAN_CYCLE_START: the planning comparator has fired; t0 is the time of that event (R37). -/
def State.planStart (s : State) : State :=
  if !(decide (s.mstate = stRUN) && s.plans && s.on PLC.CFG_EN) then s
  else
    let s := if s.plc.phase = 0 then s else s.planAbandon
    if s.fov.promote || (s.fov.takeover && !s.buildReady) then s
    else
      let c := s.f PLC.CFG_TSEL
      let t0 := s.lastEvent c
      let s := State.setPlc { s with fov := { s.fov with takeover := false } } { s.plc with phase := 1, t0 := t0, at_ := s.now, strobes := [], humans := [], sep := [], pushed := [] }
      let s := if (s.pfbU 0).strobed = some s.now then s.planStrobe 0 else s
      let s := (s.resched s.planLast .planDeadline).due s.planToken .planCut
      (s.resched (s.f PLC.SNAP_SNAPW * 250) .snapshotEnd).snapTry

/-- No completion token has arrived in time: the cycle is missed, and as it can no longer finish it is abandoned with
its SOLVE (R221, R223). -/
def State.planCut (s : State) : State :=
  if s.plc.phase = 0 ∨ 3 < s.plc.phase then s else s.planAbandon

/-- The joints of a STATE fragment (R418). -/
def stJoints (l : List Byte) (n : Nat) : List StJoint :=
  (List.range n).map (fun j =>
    let b := sub l (12 + 16 * j) 16
    let f := leNat (sub b 1 1)
    ⟨leNat (sub b 0 1), f.testBit 0, f.testBit 1, signedOf 64 (leNat (sub b 4 8)), signedOf 32 (leNat (sub b 12 4))⟩)

/-- STATE_FRAME_RECEIVE: fragments gather into the set of their T0. -/
def State.stateFrame (s : State) (src : Nat) (l : List Byte) : State :=
  let t0 := BitVec.ofNat 32 (leNat (sub l 0 4))
  let app := BitVec.ofNat 32 (leNat (sub l 4 4))
  let n := leNat (sub l 8 1)
  let frag := leNat (sub l 9 1)
  let nfrag := leNat (sub l 10 1)
  if !s.plans || decide (l.length < 12 + 16 * n) || decide (nfrag ≤ frag) || decide (2 < nfrag) then s
  else
    let base : StFrame := match s.plc.coming.get noSt src with
      | some f => if f.t0 = t0 ∧ f.nfrag = nfrag then f else ⟨t0, app, nfrag, [], []⟩
      | none => ⟨t0, app, nfrag, [], []⟩
    let f := if base.got.contains frag then base
      else { base with got := frag :: base.got, joints := base.joints ++ stJoints l n }
    if f.got.length < nfrag then
      s.setPlc { s.plc with coming := s.plc.coming.set noSt src (some f) }
    else
      let newer := match s.stFrame src with
        | some o => decide (0 ≤ (t0 - o.t0).toInt)
        | none => true
      let s := s.setPlc { s.plc with coming := s.plc.coming.set noSt src none }
      if newer then (s.setPlc { s.plc with frames := s.plc.frames.set noSt src (some f) }).snapTry else s

/-- What the snapshot holds of joint `j`: the strobe set of a local port (the one in force where SNAPW has ended before its
strobe), else the worker's STATE frame, extrapolated to t0. -/
def State.snapOf (s : State) (j : Nat) : List SnapJoint :=
  let p := s.jPort j
  if s.localJ j then
    match s.plc.strobes.find? (fun e => decide (e.1 = p)) with
    | some e => [⟨j, e.2.1, e.2.2⟩]
    | none => [⟨j, s.sampledPos p, s.rdI (PFB.LAT4 p)⟩]
  else
    match s.stFrame (s.jMod j) with
    | some f =>
      match f.joints.find? (fun x => decide (x.port = p)) with
      | some x =>
        let dt := nsDiff s.plc.t0.toNat f.t0.toNat
        [⟨j, x.pos + roundHalfAway (x.spd * dt * 65536) (16 * 1000000000), x.spd⟩]
      | none => []
    | none => []

/-- A SAFE frame is older than HUMAN_AGE at t0 (R217). -/
def State.frameOld (s : State) (f : SafFrame) : Bool := decide (s.f PLC.SNAP_HUMAN_AGE * 250 < s.plc.at_ - f.at_)

/-- The latest SAFE frame of every sensor. -/
def State.sensorFrames (s : State) : List SafFrame :=
  (List.range 32).flatMap (fun c => match s.connFrame c with
    | some f => if f.kind = 1 then [f] else []
    | none => [])

/-- A sensor's latest SAFE frame is older than HUMAN_AGE at t0 (R217). -/
def State.humanOld (s : State) : Bool := s.sensorFrames.any s.frameOld

/-- The human capsules of the snapshot; those of an old frame grow by 1,600 mm/s × its age (R217). -/
def State.planHumans (s : State) : List PlanHuman :=
  s.sensorFrames.flatMap (fun f =>
    let grow : Rat := if s.frameOld f then 1600 * ((s.plc.at_ - f.at_ : Nat) : Rat) / 250000000 else 0
    (f.caps.filter (·.valid)).map (fun k => ⟨k.p1, k.p2, (k.r : Rat) + grow⟩))

/-- SNAPSHOT_END (R215, R216). -/
def State.snapEnd (s : State) : State :=
  if s.plc.phase ≠ 1 then s
  else
    let s := s.raiseIf (!s.allStates) PLC.STAT_STATE_OLD
    let s := s.raiseIf s.humanOld PLC.STAT_HUMAN_OLD
    let app := s.planWorkers.foldl (fun (m : FMap Word) w =>
      m.set zeroW w (match s.stFrame w with | some f => f.applied | none => 0#32)) ⟨[]⟩
    State.setPlc { s.cancel .snapshotEnd with snap := s.mapped.flatMap s.snapOf } { s.plc with phase := 2, applied := app, humans := s.planHumans }

/-- A knot from its eight words (R156). -/
def knotOf (w : List Word) : Knot :=
  let i (k : Nat) : Word := w.getD k 0#32
  ⟨(i 0).toNat, 0, signedOf 64 ((i 3).toNat * 2 ^ 32 + (i 2).toNat) / 65536, (i 4).toInt / 16, (i 5).toInt / 16⟩

/-- The eight words of a knot: T, REPLACE, P in 2^-16 count, V and A in 1/16 units. -/
def knotWords (t : Nat) (repl : Bool) (p v a : Int) : List Word :=
  let b := bitsOf 64 p
  [BitVec.ofNat 32 t, BitVec.ofNat 32 repl.toNat, BitVec.ofNat 32 b, BitVec.ofNat 32 (b / 2 ^ 32),
    BitVec.ofInt 32 (satS 32 v), BitVec.ofInt 32 (satS 32 a), 0#32, 0#32]

/-- The state of a stream of knots at `t`; at rest at its last knot from there on. -/
def streamAt (t : Nat) (l : List Knot) (rest : Rat) : Kin :=
  match knotEval t l with
  | some k => k
  | none => ⟨((l.getLast?).map (·.p)).getD rest, 0, 0⟩

/-- What the generator of joint `j` holds at `t` (R218); of a plan that the planner no longer keeps it is open (log
entry 107). -/
def State.heldAt (s : State) (j t : Nat) : Kin :=
  let rest : Rat := match s.snap.find? (fun x => decide (x.j = j)) with
    | some x => x.pos / 65536
    | none => 0
  if s.localJ j then
    let u := s.pgU (s.jPort j)
    if u.queue.isEmpty then
      ⟨if u.plan.isEmpty then u.p else ((Kin.mk u.k0p u.k0v u.k0a).run u.plan).p, 0, 0⟩
    else streamAt t (u.knot0.toList ++ u.queue) u.p
  else
    let app := s.plc.applied.get zeroW (s.jMod j)
    match s.plc.plans.find? (fun r => decide (r.num = app)) with
    | some r =>
      match r.joints.find? (fun b => decide (b.j = j)) with
      | some b => streamAt t (b.knots.map knotOf) rest
      | none => ⟨rest, 0, 0⟩
    | none =>
      let k (i : Nat) : Rat := Config.planLost app.toNat j i
      if app = 0#32 then ⟨rest, 0, 0⟩ else ⟨k 0, k 1, k 2⟩

/-! ## The model phase (R215, R218, R219, R228) -/

/-- NS of T_0 + `i` h. -/
def State.planNs (s : State) (i : Nat) : Nat := (s.plc.t0.toNat + s.planP + i * s.planH) % 2 ^ 32

/-- SCALE and OFS of a joint, and its value from counts (R228). -/
def State.jScale (s : State) (j : Nat) : Rat := f32rat (s.rd (PLCJ.JSCL j)).toNat
def State.jOfs (s : State) (j : Nat) : Int := s.rdI (PLCJ.JOFS j)
def State.jointVal (s : State) (j : Nat) (p : Rat) : Rat := (p - s.jOfs j) / s.jScale j

/-- The parameter set that holds the arms of module `m`: for this module the one in force. -/
def State.planSet (s : State) (m : Nat) : PSet := if m = s.ownMod then s.pset else Config.planSet m

/-- The mapped arms, each with its module. -/
def State.planArms (s : State) : List (Nat × Nat) :=
  (List.range 16).flatMap (fun a => match s.mapped.find? (fun j => decide (s.jArm j = a)) with
    | some j => [(a, s.jMod j)]
    | none => [])

/-- The joint on port `q` of module `m`. -/
def State.jointAt (s : State) (m q : Nat) : Option Nat :=
  s.mapped.find? (fun j => decide (s.jMod j = m) && decide (s.jPort j = q))

/-- A capsule of an arm as the planner sees it: its module, the capsule, and the joints that move it. -/
structure PlanCap where
  arm : Nat
  mod : Nat
  cap : Capsule
  chain : List (Nat × V3 × V3)

/-- The capsules of an arm at horizon step `i`, by the previous plan (R219). -/
def State.planCaps (s : State) (i : Nat) (am : Nat × Nat) : List PlanCap :=
  let p := s.planSet am.2
  let kin (q : Nat) : Kin := match s.jointAt am.2 q with
    | some j => s.heldAt j (s.planNs i)
    | none => ⟨0, 0, 0⟩
  let pos (q : Nat) : Int := roundRat (kin q).p
  let spd (q : Nat) : Int := roundRat ((kin q).v * 16)
  let base : LinkPose := ⟨p.pose (oARM am.1 + 0x1C), []⟩
  let ls := p.links pos base (p.armPorts am.1)
  ((p.armCaps am.1).zip (p.capsules pos spd am.1)).map (fun e =>
    let li := p.u (oCAPS e.1) 1
    ⟨am.1, am.2, e.2, (ls.getD (if li = 0xFF then 0 else li + 1) base).chain⟩)

/-- The change of the point `x` of a capsule along `n`, per unit of each joint that moves it (R219, R228). -/
def State.planGrad (s : State) (c : PlanCap) (x n : V3) (sign : Rat) : List (Nat × Rat) :=
  let p := s.planSet c.mod
  c.chain.flatMap (fun e => match s.jointAt c.mod e.1 with
    | some j =>
      let d := if p.u (oJOINT e.1) 1 = 0 then e.2.2.cross (x.sub e.2.1) else e.2.2
      [(j, sign * d.dot n * s.jScale j / p.fp (oJOINT e.1 + 4))]
    | none => [])

/-- The direction from `a` to `b`. -/
def unitTo (a b : V3) : V3 :=
  let d := b.sub a
  let n := d.len
  if n = 0 then V3.zero else ⟨d.x / n, d.y / n, d.z / n⟩

/-- A pair of capsules at horizon step `i` (R219): its distance, S_goal and gradient. -/
def State.sepRow (s : State) (i : Nat) (dist goal : Rat) (grad : List (Nat × Rat)) : SepRow :=
  let at_ := (grad.map (fun e => e.2 * s.jointVal e.1 (s.heldAt e.1 (s.planNs i)).p)).foldl (· + ·) 0
  ⟨i, 0, dist, goal, grad, goal - dist + at_⟩

/-- The pair of an arm capsule and a human capsule: S_goal is (1 + M_HUM / 100) × S_p. -/
def State.sepHuman (s : State) (i : Nat) (c : PlanCap) (h : PlanHuman) : SepRow :=
  let q1 : V3 := ⟨h.p1.1, h.p1.2.1, h.p1.2.2⟩
  let q2 : V3 := ⟨h.p2.1, h.p2.2.1, h.p2.2.2⟩
  let x := closest c.cap.p1 c.cap.p2 q1 q2
  let d := pairDist c.cap q1 q2 h.r 0
  s.sepRow i d.1 ((1 + (s.f PLC.SEP_M_HUM : Rat) / 100) * (s.planSet c.mod).protect c.arm d.2)
    (s.planGrad c x.1 (unitTo x.1 x.2) (-1))

/-- The pair of capsules of two arms: S_goal is D_RR + M_RR. -/
def State.sepArms (s : State) (i : Nat) (c e : PlanCap) : SepRow :=
  let x := closest c.cap.p1 c.cap.p2 e.cap.p1 e.cap.p2
  let n := unitTo x.1 x.2
  s.sepRow i ((x.2.sub x.1).len - c.cap.r - e.cap.r) (s.pset.fp (oGLOBAL + 0x20) + s.f PLC.SEP_M_RR)
    (s.planGrad c x.1 n (-1) ++ s.planGrad e x.2 n 1)

/-- Nearest first. -/
def insertSep (x : SepRow) : List SepRow → List SepRow
  | [] => [x]
  | y :: l => if x.dist < y.dist then x :: y :: l else y :: insertSep x l

/-- The rows of horizon step `i`: the nearest pairs within D_CONS, as many as the structure reserves. -/
def State.sepStep (s : State) (i : Nat) : List SepRow :=
  let caps := s.planArms.flatMap (s.planCaps i)
  let pairs := caps.flatMap (fun c => s.plc.humans.map (s.sepHuman i c)
    ++ (caps.filter (fun e => decide (c.arm < e.arm))).map (s.sepArms i c))
  let near := (pairs.filter (fun r => decide (r.dist ≤ (s.f PLC.SEP_D_CONS : Rat)))).foldl (fun l r => insertSep r l) []
  (near.take Config.planSepRows).zipIdx.map (fun e => { e.1 with row := e.2 })

/-- The assigned rows of every horizon step. -/
def State.sepRows (s : State) : List SepRow := (List.range (Config.planHorizon + 1)).flatMap s.sepStep

/-- Store parameter word `i` of the block at `src` with `len` words (R190). -/
def State.planParam (s : State) (src len i : Nat) (x : Rat) : State :=
  if i < len ∧ src + 4 * i + 4 ≤ windowBytes then s.put .shared (src + 4 * i) 4 (fmt32.ofRat x) else s

/-- The initial state of every joint at T_0 into the parameter block (R218). -/
def State.planStart0 (s : State) (src len : Nat) : State :=
  s.mapped.foldl (fun (u : State) j =>
    let k := s.heldAt j (s.planNs 0)
    let u := u.planParam src len (Config.planWord 0 j 0 0) (s.jointVal j k.p)
    let u := u.planParam src len (Config.planWord 0 j 1 0) (k.v / s.jScale j)
    u.planParam src len (Config.planWord 0 j 2 0) (k.a / s.jScale j)) s

/-- One reserved row into the parameter block: its bound and its coefficients where it is assigned, else a free row; and
its slack with the quadratic cost, s in ∇d · q + s (R219). -/
def State.planRow (s : State) (src len i r : Nat) : State :=
  let row := s.plc.sep.find? (fun e => decide (e.step = i) && decide (e.row = r))
  let low : Rat := match row with | some e => e.low | none => -(10 ^ 30 : Nat)
  let coef (j : Nat) : Rat := match row with
    | some e => ((e.grad.filter (fun g => decide (g.1 = j))).map (·.2)).foldl (· + ·) 0
    | none => 0
  let slack : Rat := if row.isSome then 1 else 0
  let s := (s.planParam src len (Config.planWord 1 i r 0) low).planParam src len (Config.planWord 3 i r 0) slack
  s.mapped.foldl (fun (u : State) j => u.planParam src len (Config.planWord 2 i r j) (coef j))
    (s.planParam src len (Config.planWord 4 i r 0) Config.planSlackCost)

/-- The state of joint `j` at the NS value `t` by the plan before, in the planner's units (R218, R228). -/
def State.planState (s : State) (j t : Nat) : Rat × Rat × Rat :=
  let k := s.heldAt j t
  (s.jointVal j k.p, k.v / s.jScale j, k.a / s.jScale j)

/-- The dynamics of horizon step `i` (R215): quantities of the planning model at the previous plan's states. -/
def State.planDynamics (s : State) (src len i : Nat) : State :=
  let x := s.mapped.map (fun j => s.planState j (s.planNs i))
  (List.range Config.planDynWords).foldl (fun (u : State) k => u.planParam src len (Config.planWord 5 i k 0) (Config.planDyn x k)) s

/-- The fastest speed from which the stop with deceleration `d` and jerk `j` takes no longer than `t` (R222). -/
def stopSpeed (d j t : Rat) : Rat := if 2 * d / j ≤ t then (t - d / j) * d else j * t * t / 4

/-- The velocity bound of joint `j` at step N_H, so that the stop tail fits, in the planner's units (R222). -/
def State.planTerminal (s : State) (j : Nat) : Rat :=
  let n := min Config.planHorizon s.planJ
  stopSpeed (Config.planDecel j) (Config.planJerk j) (((s.planJ - n) * s.planH : Nat) / 1000000000) / absR (s.jScale j)

/-- The deviation of each measured joint from the plan before at t0, which the cost takes (R218), and the bounds of the
terminal rows (R222). -/
def State.planCosts (s : State) (src len : Nat) : State :=
  let s := s.snap.foldl (fun (u : State) x =>
    let k := u.planState x.j u.plc.t0.toNat
    let u := u.planParam src len (Config.planWord 6 x.j 0 0) (u.jointVal x.j (x.pos / 65536) - k.1)
    u.planParam src len (Config.planWord 6 x.j 1 0) (x.vel / 16 / u.jScale x.j - k.2.1)) s
  s.mapped.foldl (fun (u : State) j => u.planParam src len (Config.planWord 7 j 0 0) (u.planTerminal j)) s

/-- The model phase: the rows are assigned, and the parameter block of the SOLVE is filled. -/
def State.planModel (s : State) (src len : Nat) : State :=
  let s := s.setPlc { s.plc with sep := s.sepRows }
  let s := (s.planStart0 src len).planCosts src len
  let s := (List.range (Config.planHorizon + 1)).foldl (fun (u : State) i => u.planDynamics src len i) s
  (List.range (Config.planHorizon + 1)).foldl (fun (u : State) i =>
    (List.range Config.planSepRows).foldl (fun (w : State) r => w.planRow src len i r) u) s

/-! ## Solve (R220, R221) -/

/-- TIME_CAP of a submission now, in µs. -/
def State.planCap (s : State) : Int :=
  ((s.planP : Int) - 1000 * (s.f PLC.CFG_LATE_MARGIN + s.f PLC.CFG_TPOST : Nat) - 4 * (s.now - s.plc.at_ : Nat)) / 1000

/-- PLAN_SOLVE_SUBMIT, the end of the model phase: DONE_TAG and TIME_CAP go into the descriptor that the planner has
written. -/
def State.planSubmit (s : State) (ofs : Nat) : State :=
  if s.plc.phase ≠ 2 then s
  else if s.planCap < 1 then s.planMiss false 0x0F
  else
    let s := (s.planModel (s.sh (ofs + 12) 4) (s.sh (ofs + 16) 4)).planWarm
    let s := (s.put .shared (ofs + 4) 2 (s.f PLC.TAGS_DTAG)).put .shared (ofs + 30) 2 s.planCap.toNat
    (s.setPlc { s.plc with phase := 3, desc := ofs }).nmgSubmit (BitVec.ofNat 32 ofs) .none

/-- PLAN_SOLUTION_RECEIVED: a solution is used only with VALID = 1 and FEAS = 1, in time. -/
def State.solution (s : State) : State :=
  if s.plc.phase ≠ 3 then s
  else
    let status := s.sh (s.plc.desc + 33) 1
    let out := s.sh (s.plc.desc + 24) 4
    let flags := s.sh (out + 4) 4
    if status = 0x0F then s.planMiss false 0x0F
    else
      let s := s.setF PLC.LAST_T_SOLVE (satU 16 (s.sh (out + 52) 4 / 1000))
      if s.planCap < 0 then s.planMiss false status
      else if flags % 4 = 3 then s.setPlc { s.plc with phase := 4, status := status, cand := s.nmg.warm }
      else s.planMiss true status

/-! ## Output (R218, R222, R223, R225, R426) -/

/-- Variable (joint, horizon step, quantity) of the solution, in the planner's units (R211, R222). -/
def State.planX (s : State) (j i k : Nat) : Rat :=
  fmt32.val (s.sh (s.sh (s.plc.desc + 24) 4 + 128 + 4 * Config.planVar j i k) 4)

/-- The solution of joint `j` at horizon step `i`, in counts (R228). -/
def State.planSol (s : State) (j i : Nat) : Kin :=
  let k := s.jScale j
  ⟨s.jOfs j + k * s.planX j i 0, k * s.planX j i 1, k * s.planX j i 2⟩

/-- The state of joint `j` at knot `i` (R222): from the solution up to horizon step N_H, then along a stop with the
deceleration and jerk of the planning model, which has come to rest at knot J. -/
def State.planKnot (s : State) (j i : Nat) : Kin :=
  let n := min Config.planHorizon s.planJ
  if i ≤ n then s.planSol j i
  else
    let k := s.planSol j n
    if i = s.planJ then k.run (stopSegs k.v k.a (Config.planDecel j) (Config.planJerk j))
    else k.at (((i - n) * s.planH : Nat) / 1000000000) (stopSegs k.v k.a (Config.planDecel j) (Config.planJerk j))

/-- The knots of joint `j`: knot 0 is the state held at T_0 and replaces, knot J is at rest. -/
def State.jointBlock (s : State) (j : Nat) : JointBlock :=
  let last := s.planJ
  let word (i : Nat) : List Word :=
    let k := if i = 0 then s.heldAt j (s.planNs 0) else s.planKnot j i
    let r16 (v : Rat) : Int := if i = last then 0 else roundRat (v * 16)
    knotWords (s.planNs i) (decide (i = 0)) (roundRat (k.p * 65536)) (r16 k.v) (r16 k.a)
  ⟨j, s.jPort j, (List.range (last + 1)).map word⟩

/-- Push the knots of a block into the generator of its port. -/
def State.pushBlock (s : State) (b : JointBlock) : State := b.knots.foldl (fun (u : State) w => u.pushKnot b.port w) s

/-- The bytes of a joint block (R225). -/
def blockBytes (b : JointBlock) : List Byte :=
  packBytes [(b.j, 2), (b.port, 1), (b.knots.length, 1)] ++ b.knots.flatten.flatMap (fun w => leBytes w.toNat 4)

/-- Joints two by two. -/
def pairs {α : Type} : List α → List (List α)
  | a :: b :: r => [a, b] :: pairs r
  | [a] => [[a]]
  | [] => []

/-- The joint blocks that go to worker `w`, frame by frame. -/
def State.framesTo (s : State) (w : Nat) : List (List JointBlock) :=
  pairs (s.plc.blocks.filter (fun b => decide (s.jMod b.j = w)))

/-- CYCLE frame `i` to worker `w`. -/
def State.cycleFrameSend (s : State) (w i : Nat) : State :=
  let ps := s.framesTo w
  let l := ps.getD i []
  let base := s.plc.applied.get zeroW w
  let s := s.sendFrame 1 w (.bytes (packBytes [(s.plc.num.toNat, 4), (base.toNat, 4), (s.planNs 0, 4), (i, 1), (ps.length, 1),
    (l.length, 1), (0, 1)] ++ l.flatMap blockBytes))
  s.setF PLC.LAST_T_OUT (satU 16 (4 * (s.now - s.plc.at_) / 1000))

/-- The module of the witness in the record (R416). -/
def State.witnessMod (s : State) : Option Nat := (s.cellMods.find? (fun x => decide (x.2.2 % 2 = 1))).map (·.1)

/-- The checkpoint of a used cycle (R426), in fragments of 1,468 bytes. -/
def State.sendCkpt (s : State) : State :=
  let blocks := s.plc.blocks
  match s.isActive, s.witnessMod with
  | true, some w =>
    let tag := match s.slotIn slACTIVE with | some k => s.slotTag k | none => 0
    let c : Ckpt := ⟨s.plc.num, BitVec.ofNat 32 tag, s.f PLC.STAT_MISS_RUN, s.on PLC.STAT_SLS_REQ, blocks⟩
    let n := (ckptSize c + 1467) / 1468
    ((List.range n).foldl (fun (u : State) i => u.sendFrame 4 w (.ckpt i n c)) s).wr FOV.CKPT s.plc.num
  | _, _ => s

/-- The next plan number, modulo 2^32, never 0. -/
def nextPlan (n : Word) : Word := if n + 1#32 = 0#32 then 1#32 else n + 1#32

/-- A used cycle (R221, R224): MISS_RUN, the withdrawal, the history with the status of the cycle, its solution as the
last used one; then its checkpoint (R426). -/
def State.planUsed (s : State) : State :=
  let n := s.plc.used + 1
  let s := ((s.setF PLC.STAT_MISS_RUN 0).wr PLC.PLAN s.plc.num).planRemember
  let s := s.setPlc { s.plc with used := n, sol := s.plc.cand, carry := false }
  let s := if s.on PLC.STAT_SLS_REQ && decide (s.f PLC.REL_REL_N ≤ n) then s.planSls false else s
  let s := if s.plc.pushed.isEmpty then s.fovRelease else s
  s.cycleOver.sendCkpt

/-- Is a part of the output the pushes of an arm? -/
def PlanPart.pushes : PlanPart → Bool
  | .arm _ => true
  | .frame _ _ => false

/-- One part of the output; an arm receives all its knots (R223). The local knots in full withdraw FOV_SS1 (R420). -/
def State.planPart (s : State) : PlanPart → State
  | .arm a =>
    let s := s.setPlc { s.plc with follows := s.plc.follows.set zeroW a s.plc.num, pushed := s.plc.pushed ++ [a] }
    let s := (s.plc.blocks.filter (fun b => s.localJ b.j && decide (s.jArm b.j = a))).foldl State.pushBlock s
    if s.plc.todo.any PlanPart.pushes then s else s.fovRelease
  | .frame w i => s.cycleFrameSend w i

/-- The next `n` parts of the output; once none is left the cycle is a used one. -/
def State.planParts : Nat → State → State
  | 0, s => if s.plc.todo.isEmpty then s.planUsed else s
  | n + 1, s =>
    match s.plc.todo with
    | [] => s.planUsed
    | p :: r => ((s.setPlc { s.plc with todo := r }).planPart p).planParts n

/-- The knots phase (R222): the knots of every mapped joint, the number of the plan, and what its output has to do. -/
def State.planKnots (s : State) : State :=
  let s := s.setPlc { s.plc with blocks := s.mapped.map s.jointBlock, num := s.plc.next, next := nextPlan s.plc.next, phase := 5 }
  let arms := ((List.range 16).filter (fun a => s.localJoints.any (fun j => decide (s.jArm j = a)))).map PlanPart.arm
  let frames := s.planWorkers.flatMap (fun w => (List.range (s.framesTo w).length).map (PlanPart.frame w))
  s.setPlc { s.plc with todo := arms ++ frames }

/-- PLAN_OUTPUT: the knots of the solution, then `n` parts of the output: local pushes arm by arm, CYCLE frames; nothing after the delivery deadline (R223). -/
def State.planOutput (s : State) (n : Nat) : State :=
  if s.plc.phase < 4 then s
  else if s.plc.at_ + s.planLast ≤ s.now then s.planAbandon
  else State.planParts n (if s.plc.phase = 4 then s.planKnots else s)

/-- PLAN_DEADLINE: an unfinished cycle is abandoned. -/
def State.planLate (s : State) : State := if s.plc.phase = 0 then s else s.planAbandon

/-! ## The worker (R226, R419) -/

/-- The module whose CYCLE frames count (R419): the one that the latest witness heartbeat names ACTIVE, at the witness
itself the one that its own heartbeats name, or the manager of the record. -/
def State.planSource (s : State) : Option Nat :=
  match s.cellMods.find? (fun x => decide (x.2.1 = 1)), s.witnessMod with
  | some x, _ => some x.1
  | none, some w =>
    if w = s.ownMod then (if s.on FOV.ACTIVE_VALID then some (s.f FOV.ACTIVE_MOD) else none)
    else
      let x := s.fov.hb.get (fun _ => HbRec.reset) w
      if x.active < 64 then some x.active else none
  | none, none => none

/-- Is `f` the collection of plan `plan` with knot 0 at `t0`: a number that is used again names another plan. -/
def PlanFrags.is (f : PlanFrags) (plan t0 : Word) : Bool := decide (f.plan = plan) && decide (f.t0 = t0)

/-- A plan is done with: it takes no further fragment. The last 8 such plans are remembered. -/
def State.planShut (s : State) (plan t0 : Word) : State :=
  let rest := s.plc.frags.filter (fun (f : PlanFrags) => !f.is plan t0)
  let open_ := rest.filter (fun (f : PlanFrags) => !decide (f.nfrag = 0))
  let shut := (⟨plan, 0#32, t0, 0, []⟩ :: rest.filter (fun (f : PlanFrags) => decide (f.nfrag = 0))).take 8
  let s := if open_.any (fun f => decide (f.plan = plan)) then s else s.cancel (.planFragmentDeadline plan)
  s.setPlc { s.plc with frags := shut ++ open_ }

/-- A discarded plan. -/
def State.planDrop (s : State) (plan t0 : Word) : State :=
  (((s.planShut plan t0).raise PLC.STAT_PLAN_DROP).bump PLC.CNT_DROPS).recordStat 0x01 0x02 0 2 PLC.STAT

/-- Time to T0 − 50 µs, in ns of TB_CELL. -/
def State.fragLeft (s : State) (t0 : Word) : Int := nsDiff ((t0.toNat + 2 ^ 32 - 50000) % 2 ^ 32) (s.ns 0).toNat

/-- The joint blocks of a CYCLE fragment. -/
def blocksOf : Nat → List Byte → List JointBlock
  | 0, _ => []
  | n + 1, l =>
    let k := leNat (sub l 3 1)
    ⟨leNat (sub l 0 2), leNat (sub l 2 1), (List.range k).map (fun i =>
      (List.range 8).map (fun w => BitVec.ofNat 32 (leNat (sub l (4 + 32 * i + 4 * w) 4))))⟩ :: blocksOf n (l.drop (4 + 32 * k))

/-- A plan whose fragments are all in. -/
def State.planApply (s : State) (f : PlanFrags) : State :=
  let blocks := f.got.flatMap (·.2)
  let good := decide (0 < s.fragLeft f.t0) && decide (f.base = s.rd PLC.PLAN)
    && blocks.all (fun b => decide (b.port < 96) && decide (s.f (PRG.CFG_SRC b.port) = 2))
  if good then
    let s := blocks.foldl State.pushBlock s
    ((s.planShut f.plan f.t0).wr PLC.PLAN f.plan).fovRelease
  else s.planDrop f.plan f.t0

/-- CYCLE_FRAME_RECEIVE. -/
def State.cycleFrame (s : State) (src : Nat) (l : List Byte) : State :=
  if !s.isWorker then s
  else if s.planSource ≠ some src then s.bump FOV.CNT_FOREIGN
  else
    let w (o : Nat) : Word := BitVec.ofNat 32 (leNat (sub l o 4))
    let plan := w 0
    let frag := leNat (sub l 12 1)
    let nfrag := leNat (sub l 13 1)
    let t0 := w 8
    let old := s.plc.frags.find? (fun (f : PlanFrags) => f.is plan t0)
    let shut := match old with | some f => decide (f.nfrag = 0) | none => false
    if shut then s
    else if !s.on (TIMEEXT.STATUS_SYNC 0) && !s.on (TIMEEXT.STATUS_GRANDMASTER 0) then s.planDrop plan t0
    else
      let base : PlanFrags := old.getD ⟨plan, w 4, t0, nfrag, []⟩
      let f := if base.got.any (fun g => decide (g.1 = frag)) then base
        else { base with got := base.got ++ [(frag, blocksOf (leNat (sub l 14 1)) (l.drop 16))] }
      let s := s.setPlc { s.plc with frags := f :: s.plc.frags.filter (fun (g : PlanFrags) => !g.is plan t0) }
      if f.nfrag ≤ f.got.length then s.planApply f
      else s.resched (s.fragLeft f.t0 / 4).toNat (.planFragmentDeadline plan)

/-- PLAN_FRAGMENT_DEADLINE: fragments are missing as TB_CELL reaches T0 − 50 µs. -/
def State.fragDeadline (s : State) (plan : Word) : State :=
  let mine := s.plc.frags.filter (fun (f : PlanFrags) => decide (f.plan = plan) && !decide (f.nfrag = 0))
  let left := mine.filter (fun f => decide (0 < s.fragLeft f.t0))
  let s := (mine.filter (fun f => decide (s.fragLeft f.t0 ≤ 0))).foldl (fun (u : State) f => u.planDrop plan f.t0) s
  match left.map (fun f => s.fragLeft f.t0) with
  | [] => s
  | t :: r => s.resched ((r.foldl min t + 3) / 4).toNat (.planFragmentDeadline plan)

/-! ## Registers (R230) -/

/-- Is a value of a PLC register out of range? -/
def plcBad (off : Nat) (v : Word) : Bool :=
  let g (lo w : Nat) : Nat := getBits lo w v
  let tagBad (t : Nat) : Bool := decide (t = 0) || (decide (0xFF00 ≤ t) && decide (t ≤ 0xFF07))
  if off = PLC.CFG then
    decide (g 3 7 = 0) || decide (g 10 10 < 20) || decide (1000 < g 10 10)
      || decide (8 * g 10 10 < 500 * 2 ^ g 1 2) || decide (g 20 10 < 10) || decide (1000 < g 20 10)
  else if off = PLC.SNAP then
    decide (g 0 10 < 10) || decide (500 < g 0 10) || decide (g 10 12 < 500) || decide (4000 < g 10 12)
  else if off = PLC.TAGS then tagBad (g 0 16) || tagBad (g 16 16)
  else if off = PLC.SEP then decide (g 16 12 < 100) || decide (4000 < g 16 12)
  else if off = PLC.REL then decide (g 0 8 < 8)
  else if off < PLCJ.JMAP 0 then false
  else if off % 16 = 0 then decide (95 < g 7 7) || decide (9 < g 18 4)
  else false

/-- A write of a PLC register. -/
def State.plcWrite (s : State) (off : Nat) (v hw : Word) : State :=
  if off = PLC.STAT then s.store off v hw
  else if off = PLC.CNT ∨ off = PLC.PLAN ∨ off = PLC.LAST then s
  else s.judge (plcBad off v) PLC.STAT_ERR_ARG (!s.isIn [stREADY]) (·.store off v)

/-! ## Commands -/

def execPlanCycleStart (s : State) : Out := ok s.planStart
def execStateFrameReceive (src : Fin 64) (p : List Byte) (s : State) : Out := ok (s.stateFrame src.val p)
def execSnapshotEnd (s : State) : Out := ok s.snapEnd
def execPlanSolveSubmit (ofs : Word) (s : State) : Out := ok (s.planSubmit ofs.toNat)
def execPlanSolutionReceived (s : State) : Out := ok s.solution
def execPlanOutput (parts : Nat) (s : State) : Out := ok (s.planOutput parts)
def execPlanDeadline (s : State) : Out := ok s.planLate
def execCycleFrameReceive (src : Fin 64) (p : List Byte) (s : State) : Out := ok (s.cycleFrame src.val p)
def execPlanFragmentDeadline (plan : Word) (s : State) : Out := ok (s.fragDeadline plan)

end Sys2Proof.Machine
end

