-- ==== Sys2Proof/Machine/Ans.lean ====
section
/-! DEFINITION. Anise (spec/19_anise_recorder.md, R431 to R440): rate limits, the volatile buffer, the
flush to MRAM, the log and what software posts. -/

namespace Sys2Proof.Machine

def State.setAns (s : State) (x : Ans) : State := { s with ans := x }

/-- The volatile buffer, and the log in the MRAM (R436, R437). -/
def ansRoom : Nat := 16384
def ansLog : Nat := 786432

def State.ansHead (s : State) : Nat := (s.rd ANS.HEAD_L).toNat + 2 ^ 32 * s.f ANS.HEAD_H_V
def State.ansTail (s : State) : Nat := (s.rd ANS.TAIL_L).toNat + 2 ^ 32 * s.f ANS.TAIL_H_V
def State.setAnsHead (s : State) (n : Nat) : State := (s.wrN ANS.HEAD_L n).setF ANS.HEAD_H_V (n / 2 ^ 32)
def State.setAnsTail (s : State) (n : Nat) : State := (s.wrN ANS.TAIL_L n).setF ANS.TAIL_H_V (n / 2 ^ 32)

def Rec.cls (r : Rec) : Nat := r.code.toNat / 256

/-- SOURCE (R431). -/
def Rec.source (r : Rec) : Nat := r.mod * 1024 + r.unit % 1024

/-- The 32 bytes of a record as one number. -/
def Rec.nat (r : Rec) : Nat :=
  packPayload [(r.time.toNat, 8), (r.code.toNat, 2), (r.source, 2), (r.sev % 16 + 16 * (r.sup % 4096), 2), (0, 2),
    (r.payload.toNat, 16)]

/-! ## Flush (R436) -/

/-- A flush is requested: it starts, or it is merged into the running one. It takes every record of the tick of the
request, which may still wait for its admission, and ends in a later tick. -/
def State.flushReq (s : State) : State :=
  let s := s.setAns { s.ans with flushTo := some s.ansHead, asked := some s.now }
  if s.on ANS.STAT_FLUSHING then s
  else (s.raise ANS.STAT_FLUSHING).tickFree.sched (s.freeNat % 5000000 + 1) (.ansFlush true)

/-! ## Admission (R434, R435) -/

/-- One token of a bucket, in the units of `Bucket.level`. -/
def tokenUnit : Nat := 2500000000

/-- The bucket of a record: an enabled override of its code, else its class; RATE and BURST. -/
def State.bucketOf (s : State) (r : Rec) : Nat × Nat × Nat :=
  match (List.range 256).find? (fun i => s.on (ANS.OVR_CODE_EN i) && decide (s.f (ANS.OVR_CODE_CODE i) = r.code.toNat)) with
  | some i => (256 + i, s.f (ANS.OVR_RATE_RATE i), s.f (ANS.OVR_RATE_BURST i))
  | none => (r.cls, s.f (ANS.CLASS_RATE r.cls), s.f (ANS.CLASS_BURST r.cls))

/-- A bucket with its fill up to `now`. -/
def fillBucket (now rate burst : Nat) (b : Option Bucket) : Bucket :=
  match b with
  | none => ⟨burst * tokenUnit, now, 0⟩
  | some x => ⟨min (burst * tokenUnit) (x.level + rate * (now - x.at_)), now, x.drops⟩

def noBucket (_ : Nat) : Option Bucket := none

/-- Put an admitted record into the buffer; it takes the next index. -/
def State.bufPut (s : State) (r : Rec) : State :=
  let upTo := if s.ans.asked = some s.now then some (s.ansHead + 1) else s.ans.flushTo
  let s := s.setAns { s.ans with buf := s.ans.buf ++ [r], flushTo := upTo }
  (s.setF ANS.STAT_FILL s.ans.buf.length).setAnsHead (s.ansHead + 1)

/-- An admitted record meets the room of the buffer. -/
def State.bufAdmit (s : State) (r : Rec) : State :=
  let free := ansRoom - s.ans.buf.length
  let lost := s.f ANS.CNT_LOST
  if free = 0 ∨ (lost ≠ 0 ∧ free = 1) then (s.bump ANS.CNT_LOST).raise ANS.STAT_LOST
  else
    let s := if lost = 0 then s
      else ((s.bufPut ⟨s.time64 0, 0x1302#16, 0, 2, 0, payloadOf [(lost, 4)], s.f BBS.GCFG_MOD⟩).setF ANS.CNT_LOST 0)
    let s := s.bufPut r
    if decide (r.sev = 4) || decide (r.sev = 5) || decide (8192 ≤ s.ans.buf.length) then s.flushReq else s

/-- The judgement of one record. -/
def State.judgeRec (s : State) (r : Rec) : State :=
  if r.cls = 0x13 then s.bufAdmit r
  else
    let (k, rate, burst) := s.bucketOf r
    let b := fillBucket s.now rate burst (s.ans.buckets.get noBucket k)
    if tokenUnit ≤ b.level then
      (s.setAns { s.ans with buckets := s.ans.buckets.set noBucket k (some ⟨b.level - tokenUnit, b.at_, 0⟩) }).bufAdmit
        { r with sup := min b.drops 4095 }
    else s.setAns { s.ans with buckets := s.ans.buckets.set noBucket k (some ⟨b.level, b.at_, b.drops + 1⟩) }

/-- The first of the waiting records by CODE, then SOURCE, oldest first. -/
def firstRec : List Rec → Option Rec
  | [] => none
  | r :: rs =>
    match firstRec rs with
    | none => some r
    | some q =>
      if q.code.toNat < r.code.toNat ∨ (q.code = r.code ∧ q.source < r.source) then some q else some r

/-- RECORD_ADMIT. -/
def State.recordAdmit (s : State) : State :=
  match firstRec s.ansIn with
  | none => s
  | some r => State.judgeRec { s with ansIn := s.ansIn.erase r } r

/-! ## The log (R436, R437) -/

/-- Write record `r` of index `i` to the MRAM ring. -/
def State.logPut (s : State) (i : Nat) (r : Rec) : State := s.put .mram (i % ansLog * 32) 32 r.nat

/-- An error that ECC cannot correct follows record `i` from the buffer to the log. -/
def State.logEcc (s : State) (i : Nat) : State :=
  if s.eccAt 3 i then { s with ecc := s.ecc ++ [⟨0, MemId.mram.base + i % ansLog * 32, true⟩] } else s

/-- The oldest `n` records of the buffer leave it for the log. -/
def State.flushOut (s : State) (n : Nat) : State :=
  let first := s.ansHead - s.ans.buf.length
  let out := s.ans.buf.take n
  let s := out.zipIdx.foldl (fun (u : State) e => (u.logPut (first + e.2) e.1).logEcc (first + e.2)) s
  let s := s.eccGone 3 first (first + out.length)
  let s := s.setAns { s.ans with buf := s.ans.buf.drop n }
  let s := s.setF ANS.STAT_FILL s.ans.buf.length
  s.setAnsTail (max s.ansTail (first + out.length - ansLog))

/-- What waits for the flush goes on: a reset, or SLEEP. -/
def State.afterFlush (s : State) : State := if s.ident.restart.isSome then s.due 0 .resetModule else s

/-- ANS_FLUSH ends: what it covers is in the log, or an uncorrectable error kept a record and what stands
behind it in the buffer. -/
def State.flushEnd (s : State) (good : Bool) : State :=
  let first := s.ansHead - s.ans.buf.length
  let want := match s.ans.flushTo with
    | some h => min (h - first) s.ans.buf.length
    | none => s.ans.buf.length
  let s := s.undue (fun e => match e with | .cmd (.ansFlush _) => true | _ => false)
  let s := (s.setF ANS.STAT_FLUSHING 0).setAns { s.ans with flushTo := none, asked := none }
  let s := s.resched 2500000000 .ansFlushTimer
  let s := if good then (s.flushOut want).bumpMod ANS.CNT_FLUSHES
    else
      let s := (s.tickFree.flushOut (s.freeNat % max want 1)).raise ANS.STAT_FLUSH_ERR
      s.recordStat 0x13 0x03 0 4 ANS.STAT
  s.afterFlush

/-- The record of index `i`, from the log or the buffer, as one number. -/
def State.recordAt (s : State) (i : Nat) : Nat :=
  let first := s.ansHead - s.ans.buf.length
  if i < first then s.load .mram (i % ansLog * 32) 32
  else match s.ans.buf[i - first]? with
    | some r => r.nat
    | none => 0

/-! ## RCD_EXPORT (R437) -/

/-- A command of this block ends. -/
def State.cmdDone (s : State) (via : Via) (res : Nat) (val : Nat := 0) : State :=
  (if res = 6 then s.sysIllegal else s).complete via res val

/-- The shared SRAM window is 16 MiB. -/
def winFits (ofs len : Nat) : Bool := decide (ofs + len ≤ 0x1000000)

/-- Does record `i` hold an error that ECC cannot correct? -/
def State.recordBad (s : State) (i : Nat) : Bool :=
  if i < s.ansHead - s.ans.buf.length then s.eccIn .mram (i % ansLog * 32) 32 true else s.eccAt 3 i

def State.rcdExport (s : State) (via : Via) (start cnt ofs : Nat) : State :=
  let from_ := max start s.ansTail
  let n := min cnt (s.ansHead - from_)
  if s.ansHead < start ∨ cnt = 0 ∨ 32768 < cnt ∨ winFits ofs (32 * cnt) = false then s.cmdDone via 3
  else if !s.isIn [stREADY, stRUN, stSAFE] then s.cmdDone via 6
  else if (List.range n).any (fun i => s.recordBad (from_ + i)) then s.cmdDone via 9
  else
    let s := (List.range n).foldl (fun (u : State) i => u.put .shared (ofs + 32 * i) 32 (s.recordAt (from_ + i))) s
    s.cmdDone via 0 (from_ % 2 ^ 48 + n % 32768 * 2 ^ 48)

/-! ## Posting (R439) and registers (R440) -/

/-- A write of POSTCODE by master `m`. -/
def State.ansPost (s : State) (m : Sys2Proof.Master) (v : Word) : State :=
  let src := s.bankRd m ANS.POSTSRC
  let code := getBits 0 16 v
  let sev := getBits 16 4 src
  if code < 0x8000 ∨ 5 < sev then s.raise ANS.STAT_ERR_ARG
  else
    let p (i : Nat) : Nat × Nat := ((s.bankRd m (ANS.POSTP i)).toNat, 4)
    s.record (code / 256) (code % 256) (getBits 0 10 src) sev (payloadOf [p 0, p 1, p 2, p 3])

/-- Is a value of an ANS register refused? -/
def State.ansBad (s : State) (off : Nat) (v : Word) : Bool :=
  let rate : Bool := decide (getBits 0 14 v = 0) || decide (10000 < getBits 0 14 v) || decide (getBits 14 7 v = 0) || decide (64 < getBits 14 7 v)
  if off < ANS.OVR_CODE 0 then rate
  else if off % 8 = 4 then rate
  else
    let i := (off - ANS.OVR_CODE 0) / 8
    v.getLsbD 16 && (List.range 256).any (fun k => !decide (k = i) && s.on (ANS.OVR_CODE_EN k) && decide (s.f (ANS.OVR_CODE_CODE k) = getBits 0 16 v))

/-- RATE and BURST of a bucket are about to change: it is filled by the old ones up to now (R434). -/
def State.settleBucket (s : State) (k rate burst : Nat) : State :=
  let b := fillBucket s.now rate burst (s.ans.buckets.get noBucket k)
  s.setAns { s.ans with buckets := s.ans.buckets.set noBucket k (some b) }

/-- A write of ANS_CLASSc or ANS_OVRi that is accepted. -/
def State.ansStore (s : State) (off : Nat) (v : Word) : State :=
  let old (k : Nat) : State := s.settleBucket k (getBits 0 14 (s.rd off)) (getBits 14 7 (s.rd off))
  let t := if off < ANS.OVR_CODE 0 then old ((off - ANS.CLASS 0) / 4)
    else if off % 8 = 4 then old (256 + (off - ANS.OVR_CODE 0) / 8) else s
  t.store off v

/-- A write of an ANS register by master `m`. -/
def State.ansWrite (s : State) (m : Sys2Proof.Master) (off : Nat) (v hw : Word) : State :=
  if off = ANS.STAT then s.store off v hw
  else if off = ANS.POSTCODE then s.ansPost m v
  else if off = ANS.POSTSRC then s.bankWr m off (v &&& 0x000F03FF#32)
  else if ANS.POSTP 0 ≤ off ∧ off < ANS.POSTSRC then s.bankWr m off v
  else if off < ANS.CLASS 0 then s
  else s.judge (s.ansBad off v) ANS.STAT_ERR_ARG (!s.isIn [stREADY]) (·.ansStore off v)

/-! ## Commands -/

def execRecordAdmit (s : State) : Out := ok s.recordAdmit
def execAnsFlush (good : Bool) (s : State) : Out := ok (s.flushEnd good)
/-- ANS_FLUSH_TIMER (R436). -/
def execAnsFlushTimer (s : State) : Out := ok s.flushReq
def execRcdExport (via : Via) (start : Wide) (cnt ofs : Word) (s : State) : Out :=
  ok (s.rcdExport via start.toNat cnt.toNat ofs.toNat)

end Sys2Proof.Machine
end

