-- ==== Sys2Proof/Machine/Ident.lean ====
section
/-! DEFINITION. Identity, lifecycle, images and the records in the MRAM (spec/20_identity_lifecycle.md,
R441 to R458; R415 to R417; R238; R367 to R369; R438): sessions, tokens, the boot slots, the loader. -/

namespace Sys2Proof.Machine

def State.setIdent (s : State) (x : Ident) : State := { s with ident := x }

/-! ## Lifecycle (R451) -/

def lcBLANK : Nat := 0
def lcPROVISIONED : Nat := 1
def lcOPERATIONAL : Nat := 2
def lcSERVICE : Nat := 3
def lcDECOMMISSIONED : Nat := 4

def State.lc (s : State) : Nat := s.f SYS.LC_STATE
def State.lcIn (s : State) (l : List Nat) : Bool := l.contains s.lc

/-- The module holds no image that it can boot and answers for its identity only (R457). -/
def State.romService (s : State) : Bool :=
  decide (s.mstate = stRECOVERY) && (s.on PWS.STAT_NO_IMAGE || s.on PWS.STAT_REC_FAIL)

/-- Are the host rings served (R398), with commands other than NOP. -/
def State.served (s : State) : Bool := s.isIn [stREADY, stRUN, stSAFE]

/-! ## Sessions and chains (R444, R446) -/

/-- The digest of the owner anchor, once it is burnt (R441). -/
def State.anchorDigest (s : State) : Option Nat :=
  if s.on SYS.LC_ANCHOR then some (s.ident.anchor.getD Config.anchorDigest) else none

/-- Where the session of a submitter stands: module (64: this one) × 16 + ring pair. -/
def sessKey : Via → Option Nat
  | .none => none
  | .ring r _ => some (64 * 16 + r.val)
  | .rcd src r _ => some (src.val * 16 + r.val)

def noSession (_ : Nat) : Option Session := none

def State.session (s : State) (via : Via) : Option Session :=
  match sessKey via with
  | some k => s.ident.sess.get noSession k
  | none => none

/-- Does the submitter's session hold right `r`. -/
def State.hasRight (s : State) (via : Via) (r : Nat) : Bool :=
  match s.session via with
  | some x => (certRights x.leaf).testBit r
  | none => false

/-- A session starts or ends; SYS_SESS shows those of the own ring pairs. -/
def State.setSession (s : State) (k : Nat) (x : Option Session) : State :=
  let s := s.setIdent { s.ident with sess := s.ident.sess.set noSession k x }
  if 64 * 16 ≤ k then s.flag ⟨SYS.SESS, k - 64 * 16, 1⟩ x.isSome else s

/-- Every session ends. -/
def State.sessionsEnd (s : State) : State := (s.setIdent { s.ident with sess := ⟨[]⟩ }).setF SYS.SESS_SESSION 0

/-- A chain of `len` bytes at `ofs` of the window, leaf first; none where it is no whole chain. -/
def State.chainAt (s : State) (ofs len : Nat) : Option (List (List Byte)) :=
  let n := len / certLen
  if len % certLen = 0 ∧ 1 ≤ n ∧ n ≤ 4 ∧ winFits ofs len = true then
    some ((List.range n).map (fun i => s.getBytes .shared (ofs + certLen * i) certLen))
  else none

/-- The chain of a token at `ofs` (R438, R445), where nonce, PURPOSE, TARGET, the reserved bytes and the
signature are right; `anchor` is what the chain may end at beside the Dunyar root. -/
def State.tokenChain (s : State) (ofs purpose target : Nat) (nonce : Option Nat)
    (anchor : List (List Byte) → Option Nat) : Option (List (List Byte)) :=
  let t := s.getBytes .shared ofs 128
  let formed := decide (nonce = some (leNat (sub t 0 8))) && decide (leNat (sub t 16 1) = purpose)
    && decide (leNat (sub t 17 1) = target) && decide (leNat (sub t 18 14) = 0)
  match s.chainAt (leNat (sub t 8 4)) (leNat (sub t 12 4)) with
  | some ch =>
    let key := certKey (ch.headD [])
    if formed && chainGood (anchor ch) ch && chainTimely (s.time64 1).toNat ch && ecdsaGood key (t.take 32) (sub t 32 96)
    then some ch else none
  | none => none

/-- The record of a refused token (R445). -/
def State.authFail (s : State) (via : Via) : State := (s.record 0x15 0x13 0 2 0#128).cmdDone via 5

/-! ## ID commands (R445, R446) -/

def State.idRead (s : State) (via : Via) (ofs : Nat) : State :=
  if !winFits ofs 640 then s.cmdDone via 3
  else if !(s.served || s.romService) || s.lcIn [lcBLANK] then (if s.romService then s.complete via 6 else s.cmdDone via 6)
  else
    let n := s.freeNat % 2 ^ 64
    let s := s.putBytes .shared ofs (deviceCert ++ makerCert)
    (s.tickFree.setIdent { s.ident with nonce := some n }).cmdDone via 0 n

/-- May the ID functions other than READ and ATTEST run. -/
def State.idMay (s : State) : Bool := s.served && s.lcIn [lcPROVISIONED, lcOPERATIONAL, lcSERVICE]

def State.idLogin (s : State) (via : Via) (ofs : Nat) : State :=
  if !winFits ofs 128 then s.cmdDone via 3
  else
    match s.tokenChain ofs 1 0 s.ident.nonce (fun _ => s.anchorDigest), sessKey via with
    | some ch, some k =>
      if !s.idMay then s.cmdDone via 6
      else
        let until_ := ch.foldl (fun (m : Nat) c => min m (certNotAfter c)) (2 ^ 64 - 1)
        let s := s.setIdent { s.ident with nonce := none }
        let s := s.setSession k (some ⟨ch.headD [], until_⟩)
        let c : Instr := match via with
          | .rcd src r _ => .sessionExpiry (some src) r
          | .ring r _ => .sessionExpiry none r
          | .none => .sessionExpiry none 0
        let s := if until_ = 2 ^ 64 - 1 then s else s.resched ((until_ - (s.time64 1).toNat) / 4 + 1) c
        s.cmdDone via 0
    | _, _ => s.authFail via

def State.idLogout (s : State) (via : Via) : State :=
  if !s.idMay then s.cmdDone via 6
  else match sessKey via with
    | some k => (s.setSession k none).cmdDone via 0
    | none => s.cmdDone via 0

/-- The 48 bytes that an attestation covers. -/
def State.attestBody (s : State) (chal : List Byte) : List Byte :=
  chal ++ packBytes [(s.lc, 1), (if s.romService then 0xFF else s.f SYS.BOOT_SLOT, 1), (0, 2),
    (if s.romService then 0 else (s.rd SYS.IMGVER).toNat, 4), (0, 8)]

def State.idAttest (s : State) (via : Via) (ofs : Nat) (chal : List Byte) : State :=
  if chal.length ≠ 32 ∨ winFits ofs 144 = false then s.cmdDone via 3
  else if !(s.served || s.romService) || s.lcIn [lcBLANK] then (if s.romService then s.complete via 6 else s.cmdDone via 6)
  else
    let sig := ecdsaSign (secretOf 2) (scalarOf (Config.signNonce (3 + s.free))) (s.attestBody chal)
    (s.tickFree.putBytes .shared ofs (s.attestBody chal ++ sig)).cmdDone via 0

/-- SESSION_EXPIRY: NOT_AFTER of a certificate of the chain has passed. -/
def State.sessionOver (s : State) (k : Nat) (c : Instr) : State :=
  match s.ident.sess.get noSession k with
  | some x =>
    if x.notAfter < (s.time64 1).toNat then s.setSession k none
    else s.resched ((x.notAfter - (s.time64 1).toNat) / 4 + 1) c
  | none => s

/-! ## LC_CHANGE (R452 to R454) -/

/-- The listed transitions: the right that the leaf holds, if one is named. -/
def lcRight (from_ dest : Nat) : Option (Option Nat) :=
  if from_ = lcPROVISIONED ∧ dest = lcOPERATIONAL then some none
  else if (from_ = lcOPERATIONAL ∧ dest = lcSERVICE) ∨ (from_ = lcSERVICE ∧ dest = lcOPERATIONAL) then some (some rService)
  else if (from_ = lcOPERATIONAL ∨ from_ = lcSERVICE) ∧ dest = lcDECOMMISSIONED then some (some rDecommission)
  else none

def lastDigest (ch : List (List Byte)) : Option Nat := (ch.getLast?).map sha384

/-- The reset that an accepted command asks for waits for a flush (R454, R467). -/
def State.restartAfterFlush (s : State) (cause : Nat) : State := (s.setIdent { s.ident with restart := some cause }).flushReq

def State.lcChange (s : State) (via : Via) (dest ofs : Nat) : State :=
  let from_ := s.lc
  let first := decide (from_ = lcPROVISIONED)
  if !winFits ofs 128 then s.cmdDone via 3
  else
    match s.tokenChain ofs 2 dest s.ident.nonce (fun ch => if first then lastDigest ch else s.anchorDigest) with
    | none => s.authFail via
    | some ch =>
      let right := match lcRight from_ dest with
        | some (some r) => (certRights (ch.headD [])).testBit r
        | some none => decide (certRights (ch.getLastD []) = 127)
        | none => true
      let toggles := decide (from_ ≠ lcPROVISIONED) && decide (dest ≠ lcDECOMMISSIONED)
      if !right then s.authFail via
      else if (lcRight from_ dest).isNone then s.cmdDone via 3
      else if s.mstate ≠ stREADY then s.cmdDone via 6
      else if toggles && decide (s.f SYS.LC_TOGGLES_LEFT = 0) then s.cmdDone via 8
      else
        let s := ((s.setF SYS.LC_STATE dest).raise SYS.LC_WIPE_PEND).setIdent { s.ident with nonce := none }
        let s := if first then (s.raise SYS.LC_ANCHOR).setIdent { s.ident with anchor := lastDigest ch } else s
        let s := if toggles then s.setF SYS.LC_TOGGLES_LEFT (s.f SYS.LC_TOGGLES_LEFT - 1) else s
        let s := (s.cmdDone via 0).record 0x15 0x10 0 2 (payloadOf [(from_, 1), (dest, 1)])
        s.sessionsEnd.restartAfterFlush 4

/-! ## RCD_NONCE, RCD_CLEAR (R438) -/

def State.rcdNonce (s : State) (via : Via) : State :=
  if !s.served then s.cmdDone via 6
  else
    let n := s.freeNat % 2 ^ 64
    (s.tickFree.setIdent { s.ident with rcdNonce := some n }).cmdDone via 0 n

/-- The log and the buffer are gone; index 0 is the CLEARED record. -/
def State.logClear (s : State) (leaf : List Byte) : State :=
  let count := s.ansHead
  let s := (s.fillRange MemId.mram.base (MemId.mram.base + ansLog * 32) (fun _ => false)).setAns
    { s.ans with buf := [], flushTo := none, asked := none }
  let s := (s.setAnsHead 0).setAnsTail 0
  s.bufPut ⟨s.time64 0, 0x1301#16, 0, 0, 0, payloadOf [(leNat ((certKeyId leaf).take 8), 8), (count, 6)], s.f BBS.GCFG_MOD⟩

def State.rcdClear (s : State) (via : Via) (ofs : Nat) : State :=
  if !winFits ofs 128 then s.cmdDone via 3
  else
    match s.tokenChain ofs 0 0 s.ident.rcdNonce (fun _ => s.anchorDigest) with
    | none => s.cmdDone via 5
    | some ch =>
      let leaf := ch.headD []
      if !(certRights leaf).testBit rClear then s.cmdDone via 5
      else if s.mstate ≠ stREADY ∨ s.lcIn [lcOPERATIONAL, lcSERVICE] = false then s.cmdDone via 6
      else ((s.setIdent { s.ident with rcdNonce := none }).logClear leaf).cmdDone via 0

/-! ## Boot slots and images (R367, R368, R447 to R450) -/

def slotBase (slot : Nat) : Nat := slot * 0x10000000
def State.norNat (s : State) (a n : Nat) : Nat := s.load .nor a n

/-- A slot with a correct header: its GEN. -/
def State.slotGen (s : State) (slot : Nat) : Option Nat :=
  let b := slotBase slot
  let gen := s.norNat (b + 4) 4
  if s.norNat b 4 = 0x4B50534C ∧ 1 ≤ gen ∧ gen ≤ 0xFFFFFFFE ∧ s.norNat (b + 12) 4 = crc32 (s.getBytes .nor b 12)
  then some gen else none

/-- A segment entry (R367). -/
structure ImgSeg where
  target : Nat
  zero : Bool
  len : Nat
  addr : Nat
  ofs : Nat
  deriving DecidableEq, Repr

def imgSeg (l : List Byte) : ImgSeg :=
  ⟨leNat (sub l 0 1), decide (leNat (sub l 1 1) = 1), leNat (sub l 4 4), leNat (sub l 8 8), leNat (sub l 16 4)⟩

def ImgSeg.form (l : List Byte) : Bool :=
  decide (leNat (sub l 0 1) ≤ 0x11) && decide (leNat (sub l 1 1) ≤ 1) && decide (leNat (sub l 2 2) = 0) && decide (leNat (sub l 20 4) = 0)

/-- Where a segment goes: the memory and the first byte in it. -/
def ImgSeg.place (g : ImgSeg) : Option (MemId × Nat) :=
  let fit (m : MemId) (lo : Nat) : Option (MemId × Nat) :=
    if lo ≤ g.addr ∧ g.addr - lo + g.len ≤ m.size then some (m, g.addr - lo) else none
  if g.target = 0x10 then fit .shared 0
  else if g.target = 0x11 then fit .ddr 0
  else
    let e : Fin 16 := Fin.ofNat 16 g.target
    (fit (.prog e) 0).orElse (fun _ => (fit (.data e) 0x100000).orElse (fun _ =>
      if isSdsp g.target then fit (.ydata e) 0x140000 else none))

/-- Two segments overlap. -/
def ImgSeg.meets (a b : ImgSeg) : Bool :=
  decide (a.target = b.target) && decide (a.addr < b.addr + b.len) && decide (b.addr < a.addr + a.len)

def noTwo (l : List ImgSeg) : Bool :=
  match l with
  | [] => true
  | a :: r => !r.any (fun b => a.meets b) && noTwo r

/-- An ENTRY or EVEC of engine `e` in its program memory. -/
def entryGood (e v : Nat) : Bool := decide (v % 4 = 0) && decide (v < progBytes e)

/-- The segments of an image from NOR byte `a`. -/
def State.imgSegs (s : State) (a : Nat) : List (List Byte) :=
  (List.range (s.norNat (a + 6) 2)).map (fun i => s.getBytes .nor (a + 256 + 24 * i) 24)

/-- Does the loader accept the image at NOR byte `a` (R368). `own`: its signature chains to Dunyar. -/
def State.loaderGood (s : State) (a : Nat) (own : Bool) : Bool :=
  let n (o k : Nat) : Nat := s.norNat (a + o) k
  let raws := s.imgSegs a
  let segs := raws.map imgSeg
  let mask := n 12 2
  let head := decide (n 0 4 = 0x4B50494D) && decide (n 4 2 = 1) && decide (1 ≤ n 6 2 ∧ n 6 2 ≤ 64)
    && decide (n 14 2 = 0) && decide (n 20 12 = 0) && decide (n 168 88 = 0)
    && (List.range 8).all (fun k => decide (n (160 + k) 1 ≤ 1))
  let engs := (List.range 16).all (fun e =>
    (!mask.testBit e || entryGood e (n (32 + 4 * e) 4)) && (decide (n (96 + 4 * e) 4 = 0) || entryGood e (n (96 + 4 * e) 4)))
  let segGood (g : ImgSeg) : Bool :=
    decide (g.addr % 4 = 0) && decide (g.len % 4 = 0) && g.place.isSome
      && (g.zero || decide (g.ofs + g.len ≤ n 8 4)) && (decide (16 ≤ g.target) || mask.testBit g.target)
      && (own || !decide (g.target = 15))
  head && engs && raws.all ImgSeg.form && segs.all segGood && noTwo segs && (own || !mask.testBit 15)

/-- The image of a slot (R447, R448, R450): 0 good, else INTEGRITY or NOT_AUTHORISED. `len`: LEN of the
header; `timely`: validity times are checked. -/
def State.imageCheck (s : State) (slot len : Nat) (timely : Bool) : Nat :=
  let a := slotBase slot + 0x1000
  let il := s.norNat (a + 8) 4
  let nc := s.norNat (a + il) 1
  let ch := (List.range nc).map (fun i => s.getBytes .nor (a + il + 104 + certLen * i) certLen)
  let leaf := ch.headD []
  if decide (0xFFFF000 < len) || decide (il < 256) || decide (nc = 0) || decide (4 < nc)
    || decide (len ≠ il + 104 + certLen * nc) || decide (s.norNat (a + il + 1) 7 ≠ 0)
    || s.eccIn .nor (slotBase slot) (0x1000 + len) true then 9
  else if !(chainGood s.anchorDigest ch && (!timely || chainTimely (s.time64 1).toNat ch)
      && (certRights leaf).testBit rImage && (s.lcIn [lcOPERATIONAL, lcSERVICE] || endsAtDunyar ch)
      && ecdsaGood (certKey leaf) (s.getBytes .nor a il) (s.getBytes .nor (a + il + 8) 96)) then 5
  else if !s.loaderGood a (endsAtDunyar ch) then 9
  else 0

/-- Boot candidates in the order in which they are tried (R450). -/
def State.candidates (s : State) : List Nat :=
  match s.slotGen 0, s.slotGen 1 with
  | some a, some b => if a < b then [1, 0] else [0, 1]
  | some _, none => [0]
  | none, some _ => [1]
  | none, none => []

/-- One segment is written. -/
def State.loadSeg (s : State) (a : Nat) (g : ImgSeg) : State :=
  match g.place with
  | some (m, o) => if g.zero then s.fillRange (m.base + o) (m.base + o + g.len) (fun _ => false)
    else s.putBytes m o (s.getBytes .nor (a + g.ofs) g.len)
  | none => s

/-- The loader (R369). -/
def State.loadImage (s : State) (slot : Nat) : State :=
  let a := slotBase slot + 0x1000
  let n (o k : Nat) : Nat := s.norNat (a + o) k
  let mask := n 12 2
  let s := [0, 1, 2, 3, 14].foldl (fun (u : State) e => u.wipe (.prog (Fin.ofNat 16 e))) s
  let s := s.fillRange 0 0x4000 (fun _ => false)
  let s := ((s.imgSegs a).map imgSeg).foldl (fun (u : State) g => u.loadSeg a g) s
  let s := (List.range 16).foldl (fun (u : State) e =>
    if mask.testBit e then
      let x := u.en e
      let u := u.setEn e { x with evec := BitVec.ofNat 32 (n (96 + 4 * e) 4), status := 0#32, cyc0 := u.now, cycH := 0#32 }
      if isSdsp e then u.flag (SDS.STAT_W (e - 4)) ((n (160 + e - 4) 1).testBit 0) else u
    else u) s
  let s := s.setIdent { s.ident with entry := BitVec.ofNat 32 (n (32 + 56) 4) }
  if mask.testBit 15 then s.setEn 15 { s.en 15 with pc := BitVec.ofNat 32 (n (32 + 60) 4), run := true } else s

/-- Image verification and loading: true where an image is loaded. -/
def State.bootImage (s : State) : State × Bool :=
  let c := s.candidates
  match c.find? (fun k => decide (s.imageCheck k (s.norNat (slotBase k + 8) 4) false = 0)) with
  | none => (if c.isEmpty then s else (s.raise SYS.BOOT_FALLBACK).record 0x15 0x11 0 2 0#128, false)
  | some k =>
    let fall := decide (c.head? ≠ some k)
    let s := ((s.setF SYS.BOOT_SLOT k).flag SYS.BOOT_FALLBACK fall).flag SYS.BOOT_ALT_VALID (s.slotGen (1 - k)).isSome
    let s := s.setF SYS.BOOT_GEN ((s.slotGen k).getD 0)
    let s := s.wrN SYS.IMGVER (s.norNat (slotBase k + 0x1000 + 16) 4)
    let s := if fall then s.record 0x15 0x11 0 2 0#128 else s
    (s.loadImage k, true)

/-! ## IMG commands (R449) -/

/-- The checks that IMG commands share, in the order of R9; `bad`: an argument is out of range. -/
def State.imgCmd (s : State) (via : Via) (bad : Bool) (op : ImgOp) : State :=
  if !s.hasRight via rImage then s.cmdDone via 5
  else if bad || decide (1 < op.slot) then s.cmdDone via 3
  else if !(s.served && s.lcIn [lcOPERATIONAL, lcSERVICE]) || decide (op.slot = s.f SYS.BOOT_SLOT) then s.cmdDone via 6
  else if s.ident.img.isSome || s.ident.restart.isSome then s.cmdDone via 2
  else (s.setIdent { s.ident with img := some op }).tickFree.due (s.freeNat % 200000001) .imgDone

/-- Erased NOR bytes read 0xFF. -/
def State.norErase (s : State) (a n : Nat) : State := s.fillRange (MemId.nor.base + a) (MemId.nor.base + a + n) (fun _ => false)

/-- Program bytes into the NOR flash: a programmed bit stays 0 (PRESUMED, log entry 40); the result of
the read-back. -/
def State.norWrite (s : State) (a : Nat) (l : List Byte) : State × Bool :=
  let s' := l.zipIdx.foldl (fun (u : State) e => u.setByte .nor (a + e.2) (u.byte .nor (a + e.2) &&& e.1)) s
  (s', decide (s'.getBytes .nor a l.length = l))

/-- The running IMG command completes. -/
def State.imgEnd (s : State) : State :=
  match s.ident.img with
  | none => s
  | some op =>
    let s := s.setIdent { s.ident with img := none }
    let b := slotBase op.slot
    match op.fn with
    | 0 => (s.norErase (b + op.ofs) 0x100000).cmdDone op.via 0
    | 1 =>
      if s.eccIn .shared op.src op.len true then s.cmdDone op.via 9
      else
        let (s, good) := s.norWrite (b + op.ofs) (s.getBytes .shared op.src op.len)
        s.cmdDone op.via (if good then 0 else 9)
    | _ =>
      let res := s.imageCheck op.slot op.len true
      let gen := match s.slotGen (1 - op.slot) with | some g => g + 1 | none => 1
      let body := packBytes [(0x4B50534C, 4), (gen, 4), (op.len, 4)]
      if res ≠ 0 then (s.norErase b 0x1000).cmdDone op.via res
      else
        let (t, good) := s.norWrite b (body ++ leBytes (crc32 body) 4)
        if good then t.cmdDone op.via 0 gen else (t.norErase b 0x1000).cmdDone op.via 9

/-! ## Boot configuration record (R415 to R417) -/

/-- Does a record hold its CRC. -/
def bcrCrc (x : Nat) : Bool := decide (crc32 (leBytes x 0xFFFC) = blkNat x 0xFFFC 4)

/-- R416: what breaks R16 as seen from the module of the record. -/
def bcrGood (x : Nat) : Bool :=
  let u (o n : Nat) : Nat := blkNat x o n
  let mods := (List.range (u 0x0A 1)).map (fun m => (u (0x40 + 16 * m) 1, u (0x41 + 16 * m) 1, u (0x42 + 16 * m) 1))
  let count (r : Nat) : Nat := (mods.filter (fun y => decide (y.2.1 = r))).length
  let wit := mods.filter (fun y => y.2.2.testBit 0)
  let own := mods.filter (fun y => decide (y.1 = u 4 1))
  decide (u 0 4 = 1) && decide (1 ≤ u 5 1 ∧ u 5 1 ≤ 4) && decide (1 ≤ u 0x0A 1 ∧ u 0x0A 1 ≤ 64)
    && decide ((mods.map (·.1)).Nodup) && decide (own = [(u 4 1, u 5 1, u 6 1)])
    && ((decide (count 1 = 1) && decide (count 3 = 0) && decide (count 4 = 0))
      || (decide (count 1 = 0) && decide (count 3 = 1) && decide (count 4 = 1) && decide (wit.length = 1)))
    && wit.all (fun y => decide (y.2.1 = 2)) && decide (u 0x0B 1 % 4 ≠ u 0x0B 1 / 16 % 4)

def State.cfgWrite (s : State) (via : Via) (ofs : Nat) : State :=
  let x := s.sh ofs 0x10000
  if !s.hasRight via rConfig then s.cmdDone via 5
  else if !winFits ofs 0x10000 then s.cmdDone via 3
  else if s.mstate ≠ stREADY ∨ s.lcIn [lcOPERATIONAL, lcSERVICE] = false then s.cmdDone via 6
  else if s.eccIn .shared ofs 0x10000 true || !bcrCrc x then s.cmdDone via 9
  else if !bcrGood x then s.cmdDone via 3
  else (s.putBytes .mram mramBcr (leBytes x 0x10000)).cmdDone via 0 (blkNat x 0xFFFC 4)

def State.cfgRead (s : State) (via : Via) (ofs : Nat) : State :=
  if !winFits ofs 0x10000 then s.cmdDone via 3
  else if !s.served then s.cmdDone via 6
  else (s.putBytes .shared ofs (leBytes s.fov.bcr 0x10000)).cmdDone via 0 (s.bcr 0xFFFC 4)

/-- The record takes effect (R18, R42, R415): CELL_ID, MOD, priority1 and GM_CAPABLE of the clock, the role; a bad
record gives none. SVC sets the domains of the two clocks. -/
def State.bcrLoad (s : State) : State :=
  let x := s.load .mram mramBcr 0x10000
  let good := !s.eccIn .mram mramBcr 0x10000 true && bcrCrc x && bcrGood x
  let role := if good then blkNat x 5 1 else 0
  let s := { s with fov := { Fov.reset with bcr := x, read := true },
                    tbu := { s.tbu with prio1 := blkNat x 7 1, gmCap := (blkNat x 6 1).testBit 1 } }
  let s := [0, 1].foldl (fun (u : State) b => u.setTb b { u.tb b with domain := Config.ptpDomain b % 128 }) s
  let s := (s.setF BBS.GCFG_CELL_ID (blkNat x 8 2)).setF BBS.GCFG_MOD (blkNat x 4 1)
  let s := (s.setF FOV.STAT_ROLE role).flag FOV.STAT_WITNESS (decide (role = 2) && (blkNat x 6 1).testBit 0)
  (s.flag FOV.STAT_CFG_BAD !good).setF FOV.STAT_PART (if role = 3 ∨ role = 4 then 2 else 0)

/-! ## SAF_PARAM_WRITE (R238) -/

def State.safParamWrite (s : State) (via : Via) (idx ofs : Nat) : State :=
  let x := s.sh ofs 0x10000
  let crc := blkNat x 0xFFFC 4
  if !s.hasRight via rSafety then s.cmdDone via 5
  else if 15 < idx ∨ winFits ofs 0x10000 = false then s.cmdDone via 3
  else if s.lc ≠ lcSERVICE ∨ s.mstate ≠ stREADY then s.cmdDone via 6
  else if s.eccIn .shared ofs 0x10000 true ∨ crc32 (leBytes x 0xFFFC) ≠ crc then s.cmdDone via 9
  else
    let leaf := match s.session via with | some y => y.leaf | none => []
    let l := leBytes x 0x10000
    if leBytes (blkNat x 0x10 20) 20 ≠ certKeyId leaf
      ∨ ecdsaGood (certKey leaf) (sub l 0x100 0xFEFC) (sub l 0x40 96) = false then s.cmdDone via 5
    else if PSet.good x = false ∨ blkNat x 4 1 ≠ idx then s.cmdDone via 3
    else
      let s := s.putBytes .mram (mramSets + idx * 0x10000) l
      (s.setSaf { s.saf with keys := s.saf.keys.set (fun _ => []) idx (certKey leaf) }).cmdDone via 0 crc

/-! ## Wipe (R455, R456) -/

/-- The on-chip memories at an entry to BOOT (`boot`) or RECOVERY; the recorder's buffer is empty since the
reset of the module. -/
def State.wipeChip (s : State) (boot : Bool) : State :=
  let es := List.range (if boot then 16 else 15)
  let s := es.foldl (fun (u : State) e =>
    let f : Fin 16 := Fin.ofNat 16 e
    ((u.wipe (.prog f)).wipe (.data f)).wipe (.ydata f)) s
  let s := (s.wipe .factor).wipe .shared
  if boot then s.wipe .capture else s

/-- The wipe of the boot graph: the LPDDR5X; after a lifecycle change the MRAM application data too, and
at the entry to DECOMMISSIONED the rest of the MRAM and the NOR slots of the owner. Records that this start has made
and that still stand in the buffer are then the first of the new log (log entry 122, DESIGN CHOICE). -/
def State.wipeBoot (s : State) : State :=
  let s := s.wipe .ddr
  let m := MemId.mram.base
  if !s.on SYS.LC_WIPE_PEND then s
  else
    let s := s.fillRange (m + mramApp) (m + MemId.mram.size) (fun _ => false)
    let s := (List.range 8).foldl (fun (u : State) d => u.wr (DOR.CYC d) 0#32) s
    let s := if s.lc = lcDECOMMISSIONED then
        let own (k : Nat) : Bool :=
          let a := slotBase k + 0x1000
          let il := s.norNat (a + 8) 4
          let nc := s.norNat (a + il) 1
          endsAtAnchor s.anchorDigest ((List.range (min nc 4)).map (fun i => s.getBytes .nor (a + il + 104 + certLen * i) certLen))
        let mine := [0, 1].filter own
        let s := s.fillRange m (m + mramApp) (fun _ => false)
        let s := ((s.setAnsHead s.ans.buf.length).setAnsTail 0).setAns
          { s.ans with flushTo := s.ans.flushTo.map (fun _ => s.ans.buf.length) }
        mine.foldl (fun (u : State) k => u.norErase (slotBase k) 0x10000000) s
      else s
    s.flag SYS.LC_WIPE_PEND false

/-! ## Commands -/

def execIdRead (via : Via) (ofs : Word) (s : State) : Out := ok (s.idRead via ofs.toNat)
def execIdLogin (via : Via) (ofs : Word) (s : State) : Out := ok (s.idLogin via ofs.toNat)
def execIdLogout (via : Via) (s : State) : Out := ok (s.idLogout via)
def execIdAttest (via : Via) (ofs : Word) (chal : List Byte) (s : State) : Out := ok (s.idAttest via ofs.toNat chal)
def execLcChange (via : Via) (target : Byte) (ofs : Word) (s : State) : Out := ok (s.lcChange via target.toNat ofs.toNat)
def execRcdNonce (via : Via) (s : State) : Out := ok (s.rcdNonce via)
def execRcdClear (via : Via) (ofs : Word) (s : State) : Out := ok (s.rcdClear via ofs.toNat)

/-- IMG_ERASE: a 1 MiB block. -/
def execImgErase (via : Via) (slot : Byte) (ofs : Word) (s : State) : Out :=
  let o := ofs.toNat
  ok (s.imgCmd via (decide (o % 0x100000 ≠ 0) || decide (0x10000000 ≤ o)) ⟨0, slot.toNat, o, 0, 0, via⟩)

/-- IMG_WRITE. -/
def execImgWrite (via : Via) (slot : Byte) (ofs src len : Word) (s : State) : Out :=
  let o := ofs.toNat
  let n := len.toNat
  let bad := decide (o < 0x1000) || decide (o % 256 ≠ 0) || decide (src.toNat % 256 ≠ 0) || decide (n % 256 ≠ 0)
    || decide (0x100000 < n) || decide (0x10000000 < o + n) || !winFits src.toNat n
  ok (s.imgCmd via bad ⟨1, slot.toNat, o, src.toNat, n, via⟩)

/-- IMG_COMMIT. -/
def execImgCommit (via : Via) (slot : Byte) (len : Word) (s : State) : Out :=
  ok (s.imgCmd via (decide (0xFFFF000 < len.toNat)) ⟨2, slot.toNat, 0, 0, len.toNat, via⟩)

def execCfgWrite (via : Via) (ofs : Word) (s : State) : Out := ok (s.cfgWrite via ofs.toNat)
def execCfgRead (via : Via) (ofs : Word) (s : State) : Out := ok (s.cfgRead via ofs.toNat)
def execSafParamWrite (via : Via) (idx : Byte) (ofs : Word) (s : State) : Out := ok (s.safParamWrite via idx.toNat ofs.toNat)

/-- SESSION_EXPIRY (R446). -/
def execSessionExpiry (src : Option (Fin 64)) (r : Fin 16) (s : State) : Out :=
  ok (s.sessionOver ((match src with | some m => m.val | none => 64) * 16 + r.val) (.sessionExpiry src r))

end Sys2Proof.Machine
end

