-- ==== Sys2Proof/Machine/Tbu.lean ====
section
/-! DEFINITION. Cell time (spec/02_cell_time.md, R30 to R48, R504): the four bases, the comparators
and what a firing delivers, 1PPS and 10 MHz, and the time protocols' status. -/

namespace Sys2Proof.Machine

/-- SVC is engine 14, SAFC engine 15 (R2). -/
def Master.isSvc (m : Sys2Proof.Master) : Bool := decide (m = .eng 14)

/-! ## Bases (R31 to R33, R504) -/

/-- The ADJ limit in force (R31). -/
def State.adjLimit (s : State) : Int := if s.mstate = stRUN then 1717986 else 17179869

/-- Store an ADJ clamped to the limit in force (R31). -/
def State.rateStore (s : State) (b : Nat) (v : Int) : State :=
  let lim := s.adjLimit
  let c := clampInt (-lim) lim v
  (s.wrI (TB.RATE b) c).raiseIf (decide (c ≠ v)) (TB.STAT_SLEW_CLAMP b)

/-- A write of `TBU_TBb_RATE`; TB_LOCAL and TB_SAFE ignore it (R31, R32). -/
def State.rateWrite (s : State) (b : Nat) (v : Word) : State :=
  if b < 2 then s.rateStore b v.toInt else s

/-- Entry to RUN clamps a stored TB_CELL ADJ to the RUN limit (R31). -/
def State.runClamp (s : State) : State := s.rateStore 0 (s.rdI (TB.RATE 0))

/-- The wrap count advances by one, modulo 256 (R33). -/
def State.wcUp (s : State) (b : Nat) : State := s.bumpMod (TB.STAT_WC b)

/-- Base `b` wraps (R33): WC, WRAPPED and the WRAP token with the new WC. -/
def State.wrapped (s : State) (b : Nat) : State :=
  let t := (s.wcUp b).raise (TB.STAT_WRAPPED b)
  t.token (0xFF00 + b) (BitVec.ofNat 32 (t.wc b)) 0

/-- A step takes effect (R32, R33): NS takes STEPV, WC advances, STEPPED and the STEP token. STEPV is read
here, two ticks after the write of CTRL.STEP (log entry 87, DESIGN CHOICE). A comparator whose
VALUE the base passes in the step is late (R37, R38), one whose VALUE it steps onto is not. -/
def State.stepped (s : State) (b : Nat) : State :=
  let v := s.rd (TB.STEPV b)
  let u := s.tb b
  let u := { u with oldNs := s.ns b, prevWc := s.wc b, prev2Ns := u.oldNs, prev2Wc := u.prevWc, stepAt := none }
  let t := (s.wr (TB.NS b) v).setTb b { u with frac := 0, prevNs := v - 1#32, prevFrac := 0 }
  let t := ((t.wcUp b).raise (TB.STAT_STEPPED b)).flag (TB.CTRL_STEP b) false
  t.token (0xFF04 + b) (BitVec.ofNat 32 (t.wc b)) 0

/-- A write of 1 to `CTRL.STEP` (R32); NS takes the new value 2 ticks later (R47). -/
def State.stepWrite (s : State) (m : Sys2Proof.Master) (b : Nat) : State :=
  if 2 ≤ b then s
  else if !Master.isSvc m then s.raise (TB.STAT_STEP_REFUSED b)
  else if b = 0 ∧ s.mstate = stRUN then (s.raise (TB.STAT_STEP_REFUSED b)).sysIllegal
  else if s.on (TB.CTRL_STEP b) then s
  else (s.raise (TB.CTRL_STEP b)).setTb b { s.tb b with stepAt := some (s.now + 2) }

/-- A write of STEPV; TB_LOCAL and TB_SAFE ignore it (R32). -/
def State.stepvWrite (s : State) (b : Nat) (v : Word) : State :=
  if b < 2 then s.store (TB.STEPV b) v else s

/-- One CLK_PWM tick of base `b` below 3 (R31): a step that takes effect, or the advance. A wrap
comes next as TB_WRAP. -/
def State.tickBase (s : State) (b : Nat) : State :=
  if s.stepsBy b s.now then s.stepped b
  else
  let u := s.tb b
  let n := s.baseNext b
  let t := s.wrN (TB.NS b) (n / 2 ^ 32)
  let u := { u with prev2Ns := u.oldNs, prev2Wc := u.prevWc, oldNs := s.ns b, prevNs := s.ns b, prevWc := s.wc b,
                    prevFrac := u.frac }
  let t := t.setTb b { u with frac := n % 2 ^ 32 }
  if 2 ^ 64 ≤ n then { t with pending := t.pending ++ [.tbWrap (Fin.ofNat 4 b)] } else t

/-- One tick of Saffron's oscillator as the mirror of TB_SAFE sees it (R504): a whole 50 ns step
reaches the mirror 0 to 2 ticks after it happens, a free delay. -/
def State.tickSafe (s : State) : State :=
  let n := s.tbu.safNs + 4
  let stepped := decide (n / 50 ≠ s.tbu.safNs / 50)
  let s := { s with tbu := { s.tbu with safNs := n } }
  let s := if stepped then
      { s.tickFree with tbu := { s.tbu with safPend := some (s.now + s.freeNat % 3) } }
    else s
  match s.tbu.safPend with
  | none => s
  | some t =>
    if t ≤ s.now then
      let old := s.ns 3
      let v := BitVec.ofNat 32 (s.tbu.safNs / 50 * 50)
      let s := { s.wr (TB.NS 3) v with tbu := { s.tbu with safPend := none } }
      if v.toNat < old.toNat then { s with pending := s.pending ++ [.tbWrap 3] } else s
    else s

/-! ## Comparators (R37 to R40) -/

/-- NS − VALUE of comparator `c`, signed (R37). -/
def State.tcmpDiff (s : State) (c : Nat) : Int :=
  (s.ns (s.f (TCMP.CTRL_BASE c)) - s.rd (TCMP.VALUE c)).toInt

/-- Is comparator `c` due: enabled, and its base at or past VALUE (R37). -/
def State.tcmpDue (s : State) (c : Nat) : Bool :=
  s.on (TCMP.CTRL_EN c) && decide (0 ≤ s.tcmpDiff c)

/-- A firing is late when VALUE was already reached at the previous tick (R37, R38). -/
def State.tcmpLate (s : State) (c : Nat) : Bool :=
  decide (0 ≤ ((s.tb (s.f (TCMP.CTRL_BASE c))).prevNs - s.rd (TCMP.VALUE c)).toInt)

/-- Where the time `v` lies on base `b` between the previous tick (0) and this one (32), to the nearest 125 ps unit
(R37, R47). -/
def State.basePos (s : State) (b : Nat) (v : Word) : Nat :=
  let u := s.tb b
  let full : Nat := 2 ^ 32
  let adv := ((s.ns b).toNat * full + u.frac + full * full - (u.prevNs.toNat * full + u.prevFrac))
    % (full * full)
  let off := (v.toNat * full + full * full - (u.prevNs.toNat * full + u.prevFrac)) % (full * full)
  if adv = 0 then 32 else min 32 ((off * 64 + adv) / (2 * adv))

/-- Where VALUE lies between the previous tick (0) and this one (32); a late firing lies on this tick (R37). -/
def State.tcmpPos (s : State) (c : Nat) : Nat :=
  if s.tcmpLate c then 32 else s.basePos (s.f (TCMP.CTRL_BASE c)) (s.rd (TCMP.VALUE c))

/-- The event time of a firing on its base: VALUE, or the firing tick of a late one (R37). -/
def State.tcmpEvent (s : State) (c : Nat) : Word :=
  if s.tcmpLate c then s.ns (s.f (TCMP.CTRL_BASE c)) else s.rd (TCMP.VALUE c)

/-- The 5-bit fraction that the event carries: 0 for a late firing and for a VALUE on the tick itself (R37). -/
def State.tcmpFrac (s : State) (c : Nat) : Nat := s.tcmpPos c % 32

/-- The event time of a firing on the tick's time line, in 125 ps units (R37). -/
def State.tcmpX (s : State) (c : Nat) : Nat := s.x - (32 - s.tcmpPos c)

/-- A period start of port `p` at the exact time `x`, on the agenda. -/
def State.schedStart (s : State) (p x : Nat) : State :=
  let dt := s.ticksTo x
  s.sched dt (.dpwPeriodStart (Fin.ofNat 96 p) (Fin.ofNat 33 ((s.now + dt) * 32 - x)) false)

/-- What a TCMP0 firing at the exact time `x0` starts in port `p`: the port frame (R54, R68). -/
def State.frameStart (s : State) (p x0 : Nat) : State :=
  if s.on (DPW.CFG_SYNC p) then s
  else
    let x := if s.on (DPW.CFG_PHASE p) then x0 else x0 + p * 1024
    s.due (s.ticksTo x) (.portFrame p x)

/-- TCMP0: every loop-locked port's frame, the 96 slots at 32 s ticks and the 128 generators at 4 n
ticks after the firing (R19, R54, R74, R150). -/
def State.frameFire (s : State) (x : Nat) : State :=
  let s := (List.range 96).foldl (fun t p => t.frameStart p x) s
  let s := (List.range 96).foldl (fun t p => t.sched (32 * p) (.lpeSlotStart (Fin.ofNat 96 p))) s
  (List.range 128).foldl (fun t n => t.sched (4 * n) (.pgEvaluate (Fin.ofNat 128 n))) s

/-- The stand-alone ports of comparator `c` start a period (R56). -/
def State.aloneFire (s : State) (c x : Nat) : State :=
  (List.range 96).foldl (fun t p =>
    if t.on (DPW.CFG_SYNC p) && decide (t.f (DPW.CFG_TSEL p) = c) then t.schedStart p x else t) s

/-- 1PPS_OUT rises at the exact time `x`, unless a pulse is running, and falls PPS_WIDTH µs later (R45). -/
def State.ppsRise (s : State) (x : Nat) : State :=
  if !s.on REFOUT.REG_PPS_EN || s.tbu.pps then s
  else
    let w := s.f REFOUT.REG_PPS_WIDTH
    ({ s with tbu := { s.tbu with pps := true, ppsX := x } }).resched (250 * (if w = 0 then 1 else w)) .ppsOutFall

/-- What a firing of comparator `c` delivers (R37 to R40, R45, R213, R304, R421). -/
def State.tcmpDeliver (s : State) (c : Nat) (x : Nat) : State :=
  let s := if s.on (TCMP.CTRL_TOKEN c)
    then s.token (s.f (TCMP.CTRL_TAG c)) (s.rd (TCMP.VALUE c)) (16 + c) else s
  let s := if c = 0 then s.frameFire x else s
  let s := if c ≠ 0 ∧ s.on (TCMP.CTRL_DPW c) = true then s.aloneFire c x else s
  let onTick := decide (s.tcmpPos c = 32)
  let b := s.f (TCMP.CTRL_BASE c)
  let s := if s.on (TCMP.CTRL_CAP c) then s.sched 0
      (.capTrigger (.tcmp (Fin.ofNat 128 c)) (if onTick then s.stampNs b else s.ns b) (Fin.ofNat 32 (s.tcmpFrac c))
        (BitVec.ofNat 8 (if onTick then s.stampWc b else s.wc b))) else s
  let s := if s.on (TCMP.CTRL_FOV c) && decide (c = s.f FOV.CFG_TSEL) then { s with hbDue := true } else s
  let s := if s.on PLC.CFG_EN && decide (c = s.f PLC.CFG_TSEL) then s.sched 0 .planCycleStart else s
  if s.on (TCMP.CTRL_PPS c) then s.ppsRise x else s

/-- How often PERIOD is added until VALUE, `d` behind NS, lies ahead of it in the signed 32-bit sense of R37.
A VALUE that equals NS counts as behind (log entry 10, DESIGN CHOICE). A PERIOD above 2^31 moves VALUE back by
2^32 − PERIOD each time, until it lies 2^31 or more behind and so reads as ahead. -/
def reloads (d per : Nat) : Nat :=
  if per ≤ 2 ^ 31 then d / per + 1 else (2 ^ 31 - d + (2 ^ 32 - per) - 1) / (2 ^ 32 - per)

/-- The reload of R38: VALUE advances by PERIOD until it lies ahead of NS, each further period counted
in SKIP; PERIOD 0 disables. -/
def State.tcmpReload (s : State) (c : Nat) : State :=
  let per := (s.rd (TCMP.PERIOD c)).toNat
  if per = 0 then s.setF (TCMP.CTRL_EN c) 0
  else
    let n := reloads (s.tcmpDiff c).toNat per
    let s := s.wr (TCMP.VALUE c) (s.rd (TCMP.VALUE c) + BitVec.ofNat 32 (per * n))
    if n ≤ 1 then s else s.bump (TCMP.STAT_SKIP c) (n - 1)

/-- Writes of TCMP0's VALUE, PERIOD and CTRL are locked in RUN (R40). -/
def State.tcmpLocked (s : State) (c : Nat) : Bool := decide (c = 0) && decide (s.mstate = stRUN)

/-- A software write in the tick of the firing, which RUN refuses on TCMP0 (R40). -/
def State.tcmpSw (s : State) (c : Nat) (act : State → State) : State := if s.tcmpLocked c then s.sysIllegal else act s

/-- Comparator `c` fires. `sw`: software writes VALUE in this tick; `dis`: software clears EN in this
tick (R39). -/
def State.tcmpFire (s : State) (c : Nat) (sw : Option Word) (dis : Bool) : State :=
  let x := s.tcmpX c
  let s := { s with tbu := { s.tbu with event := s.tbu.event.set (fun _ => 0#32) c (s.tcmpEvent c) } }
  let s := s.raiseIf (s.tcmpLate c) (TCMP.STAT_LATE c)
  let s := s.bumpMod (TCMP.STAT_FIRE_CNT c)
  let s := s.tcmpDeliver c x
  let s := s.tcmpReload c
  let s := match sw with
    | some v => s.tcmpSw c (·.wr (TCMP.VALUE c) v)
    | none => s
  if dis then s.tcmpSw c (·.setF (TCMP.CTRL_EN c) 0) else s

/-! ## Comparator writes -/

def State.tcmpValueWrite (s : State) (c : Nat) (v : Word) : State :=
  if s.tcmpLocked c then s.sysIllegal else s.store (TCMP.VALUE c) v

/-- PERIOD: 1 to 63 is ignored with ERR_ARG (R38); read-only on TCMP0 (R40). -/
def State.tcmpPeriodWrite (s : State) (c : Nat) (v : Word) : State :=
  if c = 0 then (if s.tcmpLocked c then s.sysIllegal else s)
  else if 1 ≤ v.toNat ∧ v.toNat ≤ 63 then s.raise (TCMP.STAT_ERR_ARG c)
  else s.store (TCMP.PERIOD c) v

/-- CTRL: a write with a refused BASE or TAG is ignored with ERR_ARG (R11, R48); on TCMP0 another BASE stays
TB_CELL with ERR_ARG while the other fields act. -/
def State.tcmpCtrlWrite (s : State) (c : Nat) (v : Word) : State :=
  let base := getBits 1 2 v
  let tag := getBits 16 16 v
  let bad := (decide (c ≠ 0) && decide (base = 3)) || (decide (0xFF00 ≤ tag) && decide (tag ≤ 0xFF07))
  s.judge bad (TCMP.STAT_ERR_ARG c) (s.tcmpLocked c) (fun s =>
    if c = 0 then (s.store (TCMP.CTRL 0) (putBits 1 2 v 0)).raiseIf (decide (base ≠ 0)) (TCMP.STAT_ERR_ARG 0)
    else s.store (TCMP.CTRL c) v)

/-- STAT: a write of 1 to LATE also clears SKIP (R48). -/
def State.tcmpStatWrite (s : State) (c : Nat) (v hw : Word) : State :=
  let t := s.store (TCMP.STAT c) v hw
  if v.getLsbD 0 && !hw.getLsbD 0 then t.setF (TCMP.STAT_SKIP c) 0 else t

/-- The frame length follows F_LE (R40): `TBU_TCMP0_PERIOD` in ns. -/
def State.framePeriod (s : State) : State := s.wrN (TCMP.PERIOD 0) (s.frameUnits / 8)

/-! ## TIMEEXT, REFOUT (R34, R45, R46, R48) -/

/-- STATUS.SYNC takes the value `b`; a change makes one SYNC_CHANGE record (R44). -/
def State.setSync (s : State) (b : Nat) (v : Bool) : State :=
  if s.on (TIMEEXT.STATUS_SYNC b) = v then s
  else
    let t := s.flag (TIMEEXT.STATUS_SYNC b) v
    t.recordStat 0x0C 0x01 0 2 (TIMEEXT.STATUS b)

/-- STATUS.HOLDOVER takes the value `b`; a change makes one SYNC_CHANGE record (R44). -/
def State.setHoldover (s : State) (b : Nat) (v : Bool) : State :=
  if s.on (TIMEEXT.STATUS_HOLDOVER b) = v then s
  else
    let t := s.flag (TIMEEXT.STATUS_HOLDOVER b) v
    t.recordStat 0x0C 0x01 0 2 (TIMEEXT.STATUS b)

/-- What is left of SYNC_WIN beside |OFFSET| lasts, at 0.5 ppm, for so many ticks of holdover (R44). -/
def State.driftRoom (s : State) (b : Nat) : Nat :=
  ((s.rd (TIMEEXT.SYNC_WIN b)).toNat - (s.rdI (TIMEEXT.OFFSET b)).natAbs) * 500000 + 1

/-- SYNC follows the estimated offset and the window (R44); in HOLDOVER the drift bound decides when it is
lost, and nothing brings it back. -/
def State.syncJudge (s : State) (b : Nat) : State :=
  let inWin := decide ((s.rdI (TIMEEXT.OFFSET b)).natAbs ≤ (s.rd (TIMEEXT.SYNC_WIN b)).toNat)
  if s.on (TIMEEXT.STATUS_HOLDOVER b) then
    let due := (s.tb b).heldAt + s.driftRoom b
    if !inWin || decide (due ≤ s.now) then (s.setSync b false).cancel (.holdoverSyncLoss (Fin.ofNat 2 b))
    else s.resched (due - s.now) (.holdoverSyncLoss (Fin.ofNat 2 b))
  else if (s.tb b).est then s.setSync b inWin else s

/-- A write into the TIMEEXT page of base `b` at `off` by master `m`: SVC only, except SYNC_WIN, which
every master writes in READY with 10 to 1,000,000 ns. -/
def State.timeextWrite (s : State) (m : Sys2Proof.Master) (b off : Nat) (v : Word) : State :=
  if off = TIMEEXT.SYNC_WIN b then
    if v.toNat < 10 ∨ 1000000 < v.toNat then s
    else if s.mstate ≠ stREADY then s.sysIllegal
    else (s.store off v).syncJudge b
  else if !Master.isSvc m then s.answer .error
  else if off = TIMEEXT.STATUS b then ((s.setSync b (v.getLsbD 0)).setHoldover b (v.getLsbD 2)).store off v
  else s.store off v

/-- A write of `TBU_REFOUT`: PPS_EN = 0 holds 1PPS_OUT low; a new TEN_SRC waits for the next whole
microsecond of TB_GLOBAL (R45, R46). -/
def State.refoutWrite (s : State) (v : Word) : State :=
  let t := s.store REFOUT.REG v
  let t := if t.on REFOUT.REG_PPS_EN then t
    else ({ t with tbu := { t.tbu with pps := false } }).cancel .ppsOutFall
  if t.f REFOUT.REG_TEN_SRC = t.tbu.tenSrc then t.cancel .tenSrcChange else t

/-- The level source of the 10 MHz output: held low while TEN_EN = 0 (R46). -/
def State.tenOut (s : State) : Option Nat := if s.on REFOUT.REG_TEN_EN then some s.tbu.tenSrc else none

/-- The 64-bit time of base `b` in the tick that ends now, a wrap of it counted whose TB_WRAP is still to come (R33). -/
def State.tickTime (s : State) (b : Fin 4) : Nat :=
  (s.time64 b.val).toNat + (if s.pending.contains (.tbWrap b) then 2 ^ 32 else 0)

/-- The exact time at which TB_GLOBAL passed the last multiple of `step` ns, where it did so in the tick that
ends now, in 125 ps. Multiples are those of the 64-bit time (R36). -/
def State.globalMark (s : State) (step : Nat) : Option Nat :=
  let past := s.tickTime 1 % step
  let adv := (s.ns 1 - (s.tb 1).prevNs).toNat
  if past < adv then some (s.now * 32 - (32 - s.basePos 1 (s.ns 1 - BitVec.ofNat 32 past))) else none

/-- A rising edge of the 10 MHz source at the exact time `x` reaches J12. After a change of source the first edge of the
new one waits until the last pulse has had its full 100 ns, so that no pulse is short (R46; log entry 120, DESIGN
CHOICE). -/
def State.tenEdge (s : State) (x : Nat) : State :=
  if !s.on REFOUT.REG_TEN_EN || (s.tbu.tenNew && decide (x < s.tbu.tenX + 800)) then s
  else { s with tbu := { s.tbu with tenX := x, tenNew := false } }

/-- J12 in the tick that ends now (R46): an edge of ROOT every 400 cycles of the VCO (25 ticks), an edge of
GLOBAL every 100 ns of TB_GLOBAL; another TEN_SRC takes over at a whole microsecond of TB_GLOBAL. -/
def State.tenTick (s : State) : State :=
  let edge := if s.tbu.tenSrc = 0 then (if s.now % 25 = 0 then some (s.now * 32) else none) else s.globalMark 100
  let s := match edge with
    | some x => s.tenEdge x
    | none => s
  if s.f REFOUT.REG_TEN_SRC ≠ s.tbu.tenSrc ∧ (s.globalMark 1000).isSome = true then s.resched 0 .tenSrcChange else s

/-! ## Stamps of frames (R43, R412) -/

/-- The time of base `b`, its wrap count included, in 125 ps units within 2^43. -/
def State.baseTime (s : State) (b : Nat) : Nat := (s.wc b * 2 ^ 32 + (s.ns b).toNat) * 8 % 2 ^ 43

/-- The egress time at port `p` on base `b`: the internal time + TXLAT (R412). -/
def State.egressTime (s : State) (b p : Nat) : Nat := (s.baseTime b + s.f (BBP.TXLAT_V p)) % 2 ^ 43

/-- The ingress time at port `p` on base `b`: the internal time − RXLAT (R412). -/
def State.ingressTime (s : State) (b p : Nat) : Nat := (s.baseTime b + 2 ^ 43 - s.f (BBP.RXLAT_V p)) % 2 ^ 43

/-! ## Time protocols (R42 to R44) -/

/-- A grandmaster is selected for base `b` (R44): this module, or another with the Sync interval `interval` in ns. -/
def State.ptpMaster (s : State) (b : Nat) (self : Bool) (interval : Nat) : State :=
  let t := ((s.flag (TIMEEXT.STATUS_GRANDMASTER b) self).setHoldover b false).cancel (.holdoverSyncLoss (Fin.ofNat 2 b))
  let t := (t.setTb b { t.tb b with est := (t.tb b).est || self }).syncJudge b
  let enter : Instr := .holdoverEnter (Fin.ofNat 2 b)
  if self then t.cancel enter else t.resched (3 * interval / 4) enter

/-- SVC's protocol machine takes a message (R42, R44). An announced clock is the grandmaster of TB_CELL unless this
module is capable and better by its priority1 of the boot configuration record (R42, R415; what decides at equal
priority1, and on TB_GLOBAL, comes with the message, log entry 121). A Sync gives the OFFSET (saturating), SYNC by
SYNC_WIN, the servo's next ADJ (a free value under the clamp of R31) and restarts the wait of three
Sync intervals; in HOLDOVER the last estimate holds. The selection of a grandmaster ends HOLDOVER: SYNC follows the
last estimate again, which is the grandmaster's own where this module is it, and another's Sync messages are awaited
for three intervals. -/
def State.ptp (s : State) (b : Nat) (m : PtpBody) : State :=
  match m with
  | .sync offset interval =>
    if s.on (TIMEEXT.STATUS_HOLDOVER b) then s
    else
      let t := ((s.wrI (TIMEEXT.OFFSET b) (satS 32 offset)).setTb b { s.tb b with est := true }).syncJudge b
      let t := if t.on (TIMEEXT.STATUS_GRANDMASTER b) then t else t.tickFree.rateStore b t.freeWord.toInt
      t.resched (3 * interval / 4) (.holdoverEnter (Fin.ofNat 2 b))
  | .grandmaster self interval => s.ptpMaster b self interval
  | .announce p1 better interval =>
    let wins := decide (s.tbu.prio1 < p1.toNat) || (decide (s.tbu.prio1 = p1.toNat) && better)
    s.ptpMaster b (if b = 0 then s.tbu.gmCap && wins else better) interval
  | .other => s

/-! ## Commands -/

/-- TB_WRAP (R33). -/
def execTbWrap (b : Fin 4) (s : State) : Out := ok (s.wrapped b)

/-- TIMEEXT_UPDATE: SEQ odd, HI_BASE and WC_BASE, SEQ even (R34). -/
def execTimeextUpdate (b : Fin 4) (hi : Word) (wc : Byte) (s : State) : Out :=
  let s := s.wr (TIMEEXT.SEQ b) (s.rd (TIMEEXT.SEQ b) + 1)
  let s := (s.wr (TIMEEXT.HI_BASE b) hi).setF (TIMEEXT.WC_BASE_V b) wc.toNat
  ok (s.wr (TIMEEXT.SEQ b) (s.rd (TIMEEXT.SEQ b) + 1))

/-- PPS_IN_EDGE: captured on TB_CELL, TB_GLOBAL and TB_LOCAL (R41, R45). -/
def execPpsInEdge (frac : Fin 32) (s : State) : Out :=
  let s := [0, 1, 2].foldl (fun t b =>
    let t := t.wr (TB.PPSNS b) (t.ns b)
    let t := (t.setF (TB.PPSFR_FRAC b) frac).setF (TB.PPSFR_WC b) (t.wc b)
    t.raise (TB.STAT_PPS b)) s
  ok (s.sched 0 (.capTrigger (.ext 32 true) (s.ns 0) frac (BitVec.ofNat 8 (s.wc 0))))

def execPpsOutFall (s : State) : Out := ok { s with tbu := { s.tbu with pps := false } }

/-- TEN_SRC_CHANGE: the selected source takes over (R46). -/
def execTenSrcChange (s : State) : Out :=
  ok { s with tbu := { s.tbu with tenSrc := s.f REFOUT.REG_TEN_SRC, tenNew := true } }

/-- The transports of base `b` (R42): layer 2, or UDP over IPv4 on TB_GLOBAL. -/
def ptpCarries (b : Nat) : PtpTransport → Bool
  | .l2 => true
  | .udp4 => decide (b = 1)
  | .udp6 => false

/-- Does base `b` take a message with this header (R42): its own domain, and a transport that it has. -/
def State.ptpTakes (s : State) (b : Nat) (h : PtpHdr) : Bool :=
  decide (h.domain.toNat = (s.tb b).domain) && ptpCarries b h.transport

/-- PTP_MESSAGE_RECEIVE: the frame's ingress time stamp (R43), then the protocol (R42, R44). -/
def execPtpMessageReceive (port : Fin 6) (b : Fin 2) (msg : PtpMsg) (s : State) : Out :=
  let s := { s with tbu := { s.tbu with ptpNs := s.ingressTime b port.val } }
  ok (if s.ptpTakes b msg.hdr then s.ptp b msg.body else s)

/-- HOLDOVER_ENTER: no Sync for three intervals; ADJ and OFFSET hold (R44). SYNC is lost once
0.5 ppm of the time in holdover, added to |OFFSET|, exceeds SYNC_WIN. -/
def execHoldoverEnter (b : Fin 2) (s : State) : Out :=
  if s.on (TIMEEXT.STATUS_GRANDMASTER b) then ok s
  else
    let t := (s.setTb b { s.tb b with heldAt := s.now }).setHoldover b true
    ok (t.resched (s.driftRoom b) (.holdoverSyncLoss b))

/-- HOLDOVER_SYNC_LOSS: the drift bound has passed SYNC_WIN (R44). -/
def execHoldoverSyncLoss (b : Fin 2) (s : State) : Out :=
  if s.on (TIMEEXT.STATUS_HOLDOVER b) then ok (s.setSync b false) else ok s

end Sys2Proof.Machine
end

