-- ==== Sys2Proof/Machine/Mod.lean ====
section
/-! DEFINITION. Module states and power (spec/01_cell_and_module.md, R20 to R23, R28;
spec/21_power_startup_recovery.md, R459 to R476; R480; R241): every transition of R21, hold-up, sleep,
start-up, the watchdogs, recovery, and the MODULE commands. -/

namespace Sys2Proof.Machine

def State.setPws (s : State) (x : Pws) : State := { s with pws := x }

/-- A record of class PWS (R475). -/
def State.pwsRecord (s : State) (code : Nat) (payload : List (Nat × Nat)) : State :=
  s.record 0x16 code 0 2 (payloadOf payload)

/-- A PWS record without a payload of its own carries PWS_STAT at the event (R431). -/
def State.pwsStatRecord (s : State) (code unit : Nat) : State :=
  s.recordStat 0x16 code unit 2 PWS.STAT

/-! ## Transitions (R21) -/

/-- The TRANSITION record; byte 4 carries GRESULT (R470). -/
def State.transition (s : State) : State :=
  s.record 0x16 0x01 0 0 (payloadOf [((s.rd PWS.MODSTATE).toNat, 4), (s.f CLV.STAT_GRESULT, 1)])

/-- The CLK_IO cycle of this tick (R27): 100 MHz against 250 MHz, in step at tick 0 (log entry 1). -/
def State.ioCycle (s : State) : Nat := s.now * 2 / 5

/-- The rank in R22 of the cause of a transition to `st`: power failure, rail or clock fault, module watchdog,
Saffron report, host command, any other. -/
def rankOf (st cause : Nat) : Nat :=
  match cause with
  | 0x01 => if st = stHOLDUP ∨ st = stOFF then 1 else 6
  | 0x08 => 2
  | 0x09 => 2
  | 0x02 => 3
  | 0x03 => 4
  | 0x04 => 5
  | _ => 6

/-- What a transition of the module can change. -/
def State.body (s : State) : Body :=
  { regs := s.regs, bank := s.bank, mem := s.mem, agenda := s.agenda, clvIn := s.clvIn, ansIn := s.ansIn, tbase := s.tbase, tbu := s.tbu, dpw := s.dpw, leg := s.leg, tripIn := s.tripIn, caq := s.caq, caqOld := s.caqOld, ecc := s.ecc, dsck := s.dsck, pfb := s.pfb, hbDue := s.hbDue, slot := s.slot, lpe := s.lpe, pg := s.pg, cap := s.cap, door := s.door, fio := s.fio, cqes := s.cqes, nmg := s.nmg, snap := s.snap, eng := s.eng, clv := s.clv, saf := s.saf, plc := s.plc, ident := s.ident, ring := s.ring, hqNext := s.hqNext, bbs := s.bbs, fov := s.fov, ans := s.ans, pws := s.pws }

/-- `c` with what changed from `a` to `b` put back, where nothing has changed it since. -/
def putBack {α : Type} [DecidableEq α] (a b c : α) : α := if c = b then a else c

/-- The same for every cell of a map. -/
def FMap.putBack {α : Type} [DecidableEq α] (d : Nat → α) (a b c : FMap α) : FMap α :=
  ((a.cells ++ b.cells).map Prod.fst).foldl (fun u k =>
    if u.get d k = b.get d k then u.set d k (a.get d k) else u) c

/-- The same for a list that things were added to and taken from. -/
def listBack {α : Type} [DecidableEq α] (a b c : List α) : List α :=
  b.foldl List.erase a ++ (a.foldl List.erase b).foldl List.erase c

/-- A transition that was not to be taken is undone: what it changed is as before, but for what has changed since. -/
def State.undo (c : State) (m : ModMove) : State :=
  let a := m.was
  let b := m.became
  { c with
    regs := FMap.putBack regReset a.regs b.regs c.regs,
    bank := FMap.putBack bankReset a.bank b.bank c.bank,
    mem := FMap.putBack memReset a.mem b.mem c.mem,
    agenda := (a.agenda.filter (fun d => !b.agenda.contains d)).foldl (fun l d => insertDue d l) (c.agenda.filter (fun d => !b.agenda.contains d || a.agenda.contains d)),
    clvIn := listBack a.clvIn b.clvIn c.clvIn,
    ansIn := listBack a.ansIn b.ansIn c.ansIn,
    tbase := FMap.putBack (fun _ => TimeBase.reset) a.tbase b.tbase c.tbase,
    tbu := Machine.putBack a.tbu b.tbu c.tbu,
    dpw := FMap.putBack (fun _ => DpwPort.reset) a.dpw b.dpw c.dpw,
    leg := FMap.putBack (fun _ => Leg.reset) a.leg b.leg c.leg,
    tripIn := FMap.putBack (fun _ => TripIn.reset) a.tripIn b.tripIn c.tripIn,
    caq := FMap.putBack (fun _ => CaqCh.reset) a.caq b.caq c.caq,
    caqOld := Machine.putBack a.caqOld b.caqOld c.caqOld,
    ecc := Machine.putBack a.ecc b.ecc c.ecc,
    dsck := Machine.putBack a.dsck b.dsck c.dsck,
    pfb := FMap.putBack (fun _ => PfbUnit.reset) a.pfb b.pfb c.pfb,
    hbDue := Machine.putBack a.hbDue b.hbDue c.hbDue,
    slot := FMap.putBack (fun _ => LpeSlot.reset) a.slot b.slot c.slot,
    lpe := Machine.putBack a.lpe b.lpe c.lpe,
    pg := FMap.putBack (fun _ => PgUnit.reset) a.pg b.pg c.pg,
    cap := Machine.putBack a.cap b.cap c.cap,
    door := FMap.putBack (fun _ => Door.reset) a.door b.door c.door,
    fio := Machine.putBack a.fio b.fio c.fio,
    cqes := listBack a.cqes b.cqes c.cqes,
    nmg := Machine.putBack a.nmg b.nmg c.nmg,
    snap := Machine.putBack a.snap b.snap c.snap,
    eng := FMap.putBack (fun _ => Eng.reset) a.eng b.eng c.eng,
    clv := Machine.putBack a.clv b.clv c.clv,
    saf := Machine.putBack a.saf b.saf c.saf,
    plc := Machine.putBack a.plc b.plc c.plc,
    ident := Machine.putBack a.ident b.ident c.ident,
    ring := FMap.putBack (fun _ => Ring.reset) a.ring b.ring c.ring,
    hqNext := Machine.putBack a.hqNext b.hqNext c.hqNext,
    bbs := Machine.putBack a.bbs b.bbs c.bbs,
    fov := Machine.putBack a.fov b.fov c.fov,
    ans := Machine.putBack a.ans b.ans c.ans,
    pws := Machine.putBack a.pws b.pws c.pws }

/-- The transition `act`, whose cause has this rank, is noted for R22. -/
def State.moving (s : State) (rank : Nat) (act : State → State) : State :=
  let t := act s
  { t with moves := ⟨s.ioCycle, rank, s.body, t.body⟩ :: s.moves.filter (fun m => decide (m.cycle = s.ioCycle)) }

/-- A cause that ranks before this one has led to a transition in this CLK_IO cycle (R22). -/
def State.beaten (s : State) (rank : Nat) : Bool :=
  s.moves.any (fun m => decide (m.cycle = s.ioCycle) && decide (m.rank < rank))

/-- The transitions of this CLK_IO cycle whose causes rank behind this one; they were not to be taken (R22). -/
def State.behind (s : State) (rank : Nat) : List ModMove :=
  s.moves.takeWhile (fun m => decide (m.cycle = s.ioCycle) && decide (rank < m.rank))

/-- The state without the transitions that were not to be taken. -/
def State.unmoved (s : State) (rank : Nat) : State :=
  { (s.behind rank).foldl State.undo s with moves := s.moves.drop (s.behind rank).length }

/-- Which transitions are noted. -/
def State.moveKeys (s : State) : List (Nat × Nat) := s.moves.map (fun m => (m.cycle, m.rank))

/-- A cause of this rank acts, unless one that ranks before it has acted in the same CLK_IO cycle. Transitions of the
cycle that rank behind it are undone where it leads to one itself (R22; log entry 126). -/
def State.ranked (s : State) (rank : Nat) (act : State → State) : State :=
  if s.beaten rank then s
  else
    let t := act (s.unmoved rank)
    if t.moveKeys = (s.unmoved rank).moveKeys then act s else t

/-- PWS_MODSTATE takes a new state; Clove enters or leaves graph mode with it (R20, R330, R462). -/
def State.setMod (s : State) (st cause : Nat) : State :=
  let old := s.mstate
  let graph := [stBOOT, stTEST, stRECOVERY].contains st
  let s := (s.setF PWS.MODSTATE_PREV old).flag PWS.MODSTATE_GRAPH
    (graph || (decide (st = stHOLDUP) && s.on PWS.MODSTATE_GRAPH))
  ((s.setF PWS.MODSTATE_STATE st).setF PWS.MODSTATE_CAUSE cause).raise PWS.MODSTATE_CHANGED

/-- The states with the module watchdog (R472). -/
def wdtStates : List Nat := [stBOOT, stTEST, stREADY, stRUN, stSAFE]

/-- The states in which the rings are served (R398). -/
def ringStates : List Nat := [stREADY, stRUN, stSAFE, stHOLDUP]

/-- Where the completions of a command go. -/
def viaOf : Instr → Via
  | .nop v | .regRead v _ _ | .regWrite v _ _ | .tokenPost v _ _ | .nmgSubmit v _ | .moduleRun v | .moduleStop v
  | .moduleSleep v | .moduleResetSafe v | .moduleRestart v | .idRead v _ | .idLogin v _ | .idLogout v
  | .idAttest v _ _ | .lcChange v _ _ | .rcdExport v _ _ _ | .rcdNonce v | .rcdClear v _ | .imgErase v _ _
  | .imgWrite v _ _ _ _ | .imgCommit v _ _ | .cfgWrite v _ | .cfgRead v _ | .safParamWrite v _ _ => v
  | _ => .none

/-- Does a completion of `v` go to the own ring pair `r`. -/
def viaMine (r : Nat) : Via → Bool
  | .ring k _ => decide (k.val = r)
  | _ => false

/-- A command of ring pair `r` no longer has a place for its completions. -/
def viaDrop (r : Nat) (v : Via) : Via := if viaMine r v then .none else v

def NmgCmd.unvia (r : Nat) (c : NmgCmd) : NmgCmd := { c with via := viaDrop r c.via }

/-- Commands of ring pair `r` that Nutmeg or the identity block runs go on without a completion. -/
def State.unvia (s : State) (r : Nat) : State :=
  let n := s.nmg
  let l (x : List NmgCmd) : List NmgCmd := x.map (NmgCmd.unvia r)
  let s := { s with nmg := { n with
    queue := l n.queue, aborts := l n.aborts, pend := l n.pend,
    run := n.run.map (fun (x : NmgSolve) => { x with cmd := x.cmd.unvia r }),
    build := n.build.map (fun (x : NmgBuild) => { x with cmds := l x.cmds }) } }
  s.setIdent { s.ident with img := s.ident.img.map (fun (x : ImgOp) => { x with via := viaDrop r x.via }) }

/-- One ring pair stops (R398): EN clears, its session ends, and what is in flight goes without a
completion; a command that has not started does not. -/
def State.ringStop (s : State) (r : Nat) : State :=
  let s := { s.flag (RP.CFG_EN r) false with ring := s.ring.set (fun _ => Ring.reset) r Ring.reset }
  let s := (s.setF (RP.STAT_INFLIGHT r) 0).flag (RP.STAT_CQ_FULL r) false
  let s := { s with
    cqes := s.cqes.filter (fun (c : Cqe) => !viaMine r c.via)
    bbs := { s.bbs with fwd := s.bbs.fwd.filter (fun x => !decide (x.1 = r)) } }
  let s := s.undue (fun e => match e with
    | .cmd (.cqeWrite k _) => decide (k.val = r)
    | .cmd (.msixCoalTimeout k) => decide (k.val = r)
    | .cmd (.rcdTimeout k _) => decide (k.val = r)
    | .cmd c => viaMine r (viaOf c)
    | _ => false)
  (s.unvia r).setSession (64 * 16 + r) none

def State.ringsStop (s : State) : State := (List.range 16).foldl State.ringStop s

/-- What a planning module drops as it leaves RUN. -/
def State.planLeave (s : State) : State := s.cycleOver

/-- At entry to RUN no plan exists (R218, R225). -/
def State.planFresh (s : State) : State :=
  let s : State := { s with fov := { s.fov with ran := true } }
  (s.setPlc { Plc.reset with frames := s.plc.frames }).wr PLC.PLAN 0#32

/-- The STATE source goes inactive: at entry to RUN every STATE latch clears, at entry to SAFE those of groups
that are not in STO (R82). -/
def State.stateRelease (s : State) (st : Nat) : State :=
  let t := (s.setTripIn (tripKey .modState) ⟨false, some s.now⟩).gstatSource .modState false
  (List.range 96).foldl (fun (t : State) p =>
    if decide (st = stRUN) || !s.on (bitAt SAF.GSTO_STO (p / 8)) then t.latchClear p 64 else t) t

/-- Everything that follows a state change whatever its cause. -/
def State.settleState (s : State) (old st : Nat) : State :=
  let drive (x : Nat) : Bool := decide (x = stRUN) || decide (x = stSAFE)
  let s := if drive st then s else s.setSaf { s.saf with left := true }
  let s := if drive st then (if drive old then s else s.stateRelease st)
    else if drive old then s.tripAssert .modState 32 else s
  let s := if old = stRUN then s.doorsLeaveRun.planLeave else s
  let s := if st = stRUN then s.runClamp.planFresh else s
  let s := s.nmgEnter st
  let s := if [stREADY, stRUN, stSAFE].contains st then s else s.capLeave
  let s := s.fioUpdate
  let s := if ringStates.contains st then s else s.ringsStop
  let s := s.flag HQ.GSTAT_RINGS_UP (ringStates.contains st)
  let s := if !wdtStates.contains st then s.cancel .moduleWdtExpiry
    else if wdtStates.contains old then s else s.resched 12500000 .moduleWdtExpiry
  if st = stHOLDUP ∨ st = stRECOVERY then (s.stoAll 0x83).flushReq else s

/-- A transition of R21 between powered states. -/
def State.moveTo (s : State) (st cause : Nat) : State :=
  s.moving (rankOf st cause) (fun s =>
    (((s.setMod st cause).settleState s.mstate st).transition).hqEvent HQ.EVCFG_STATE HQ.EVSTAT_STATE)

/-! ## Power and reset -/

/-- What lasts through a reset of the module: MRAM and NOR flash, the OTP, what the MRAM keeps of Saffron,
the recorder and the doors, the always-on domain, time, and what comes from outside. The DC-link comparators are
off again with CAQ's reset (R87), so their trip inputs fall; an unlocked PLL stays unlocked while the rails are
up (R28). -/
def State.afterReset (s : State) : State :=
  let r := State.reset
  let keep := [SYS.LC, PWS.VIN, PWS.HOLD, PWS.SLPDUR] ++ (List.range 8).map DOR.CYC
  let nv (a : Nat) : Bool := decide (MemId.mram.base ≤ a) && decide (a < MemId.nor.base + MemId.nor.size)
  let t : State := { r with
    now := s.now, free := s.free, pending := s.pending, lastResp := s.lastResp,
    tripIn := ⟨s.tripIn.cells.filter (fun c => !(decide (96 ≤ c.1) && decide (c.1 < 108)))⟩,
    mem := ⟨s.mem.cells.filter (fun c => nv c.1)⟩,
    ecc := s.ecc.filter (fun e => decide (e.place = 0) && nv e.addr),
    agenda := r.agenda.map (fun d => { d with t := d.t + s.now }),
    eng := if s.now = 0 then ⟨[]⟩ else ⟨(List.range 16).map (fun e => (e, { Eng.reset with cyc0 := s.now }))⟩,
    saf := { Saf.reset with keys := s.saf.keys },
    ident := { Ident.reset with anchor := s.ident.anchor },
    pws := { Pws.reset with hot := s.pws.hot, sleepAt := s.pws.sleepAt, slept := s.pws.slept, inputAt := s.pws.inputAt } }
  let t := keep.foldl (fun (u : State) o => u.wr o (s.rd o)) t
  let t := [PWS.STAT_A_OK, PWS.STAT_B_OK, PWS.STAT_STORE_OK, PWS.STAT_WAKE_SRC, SAF.STAT_DEG_USED].foldl
    (fun (u : State) F => u.setF F (s.f F)) t
  let t := (t.setAnsHead (s.ansHead - s.ans.buf.length)).setAnsTail s.ansTail
  (List.range 96 ++ [108]).foldl (fun (u : State) k =>
    if (s.tripInU k).on then u.tripAssert (if h : k < 96 then .flt ⟨k, h⟩ else .tripN) 32 else u) t

/-- Ticks that the sleep counter has counted: those of SLEEP only (R12, R465). -/
def State.sleepTicks (s : State) : Nat := s.pws.slept + (if s.mstate = stSLEEP then s.now - s.pws.sleepAt else 0)

/-- The module has no rails but the always-on domain's, or none: it takes no command and runs nothing. -/
def State.dark (s : State) (st cause : Nat) : State :=
  s.moving (rankOf st cause) (fun s =>
    let t := s.afterReset
    let t := { t with agenda := [], pws := { t.pws with sleepAt := s.now, slept := s.sleepTicks } }
    let t := (t.setF PWS.MODSTATE_PREV s.mstate).setF PWS.MODSTATE_STATE st
    ((t.setF PWS.MODSTATE_CAUSE cause).raise PWS.MODSTATE_CHANGED).flag PWS.MODSTATE_GRAPH false)

/-- The module is OFF: the store is empty, and what WAKE_SRC shows is power. -/
def State.powerOff (s : State) (cause : Nat) : State :=
  let t := s.dark stOFF cause
  ((t.flag PWS.STAT_STORE_OK false).setF PWS.HOLD_E_STORE 0).setF PWS.STAT_WAKE_SRC 0

/-- PLL_MAIN is still unlocked after a reset that leaves the main rails up: PWS forces the ports, and the 10 ms go
on (R28). -/
def State.stayUnlocked (t s : State) : State :=
  let t := (t.tripAssert .pws 32).setPws { t.pws with unlocked := true }
  { t with agenda := (s.agenda.filter (fun d => decide (d.ev = .cmd .pllLockTimeout))).foldl (fun l d => insertDue d l) t.agenda }

/-- The module enters BOOT through a reset. `up`: the main rails are up already. -/
def State.bootReset (s : State) (cause : Nat) (up : Bool) : State :=
  s.moving (rankOf stBOOT cause) (fun s =>
    let old := s.mstate
    let t := s.afterReset
    let t := ((t.setF PWS.MODSTATE_PREV old).setF PWS.MODSTATE_CAUSE cause).raise PWS.MODSTATE_CHANGED
    let t := t.setPws { t.pws with recStep := if up then 1 else 0, inputAt := if old = stOFF then s.now else t.pws.inputAt }
    if up && s.pws.unlocked then t.stayUnlocked s else t)

/-! ## Recovery (R474) -/

/-- The ticks a recovery may take without the wait of step 5. -/
def recLimit : Nat := 250000000

/-- Step 1 starts: graph mode, the wipe engine runs. -/
def State.recStart (s : State) : State :=
  let s := s.clvGraph.setPws { s.pws with recStep := 1 }
  (s.bump PWS.CNT_RECOVERIES).resched recLimit .recoveryTimeout

/-- The module enters RECOVERY. -/
def State.toRecovery (s : State) (cause : Nat) : State :=
  s.moving (rankOf stRECOVERY cause) (fun s => (s.moveTo stRECOVERY cause).recStart)

/-- The module stays in RECOVERY and answers for its identity only (R457). -/
def State.recHold (s : State) : State :=
  ((s.cancel .recoveryTimeout).cancel .recoverySyncWaitEnd).clvGraph.setPws { s.pws with recStep := 0 }

/-- A recovery fails: it starts again, or holds at REC_RUN = 3. -/
def State.recAgain (s : State) (cause : Nat) : State :=
  let step := s.pws.recStep
  let n := s.f PWS.STAT_REC_RUN + 1
  let s := s.setF PWS.STAT_REC_RUN (min n 3)
  if 3 ≤ n then ((s.raise PWS.STAT_REC_FAIL).pwsRecord 0x15 [(step, 1)]).recHold
  else s.toRecovery cause

/-- A fault that acts as a watchdog expiry does (R21, R460, R472). -/
def State.moduleFault (s : State) (cause : Nat) : State :=
  s.ranked (rankOf stRECOVERY cause) (fun s =>
    if s.isIn wdtStates then s.toRecovery cause
    else if s.mstate = stRECOVERY ∧ s.pws.recStep ≠ 0 then s.recAgain cause
    else s)

/-! ## Graphs (R334, R469, R470) -/

/-- The engines whose program memory takes node code of the die ROM. -/
def romEngines : List Nat := [14, 0, 1, 2, 3]

/-- The identity block places graph `k` (0 boot, 1 recovery), and Clove starts it. -/
def State.romGraph (s : State) (k : Nat) : State :=
  let s := (s.wr CLV.GBASE 0#32).putBytes .shared 0 ((List.range 0x4000).map (fun i => Config.graphRom k 0 i))
  let s := romEngines.foldl (fun (u : State) e =>
    let m : MemId := .prog (Fin.ofNat 16 e)
    u.putBytes m 0 ((List.range m.size).map (fun i => Config.graphRom k (1 + e) i))) s
  (s.clvGraph.graphStart)

/-- ONCHIP_WIPE_DONE. The boot configuration record is read once after each reset (R15): in BOOT, or, where BOOT was cut
short before, in the recovery that follows (log entry 123, DESIGN CHOICE). -/
def State.wipeDone (s : State) (good : Bool) : State :=
  let boot := decide (s.mstate = stBOOT)
  if !((boot || decide (s.mstate = stRECOVERY)) && decide (s.pws.recStep = 1)) then s
  else if !good then
    let s := s.setF CLV.STAT_GRESULT 9
    if boot then s.toRecovery 0x0A else s.recAgain 0x0A
  else
    let s := (s.wipeChip boot).setPws { s.pws with recStep := 2 }
    let s := if s.fov.read then s else s.bcrLoad
    s.romGraph (if boot then 0 else 1)

/-- The self-test graph of the image starts; an image without the segment that holds its node table fails
with BAD_ARG. -/
def State.testGraph (s : State) : State :=
  let a := slotBase (s.f SYS.BOOT_SLOT) + 0x1000
  let s := (s.wr CLV.GBASE 0#32).clvGraph
  if ((s.imgSegs a).map imgSeg).any (fun g => decide (g.target = 0x10) && decide (g.addr = 0)) then s.graphStart
  else s.graphStop 3

/-- Entry to READY from TEST or RECOVERY: T0 starts at the image's entry point of SVC. -/
def State.toReady (s : State) (cause : Nat) : State :=
  s.moving (rankOf stREADY cause) (fun s =>
    let test := decide (s.mstate = stTEST)
    let s := s.moveTo stREADY cause
    let s := ((s.cancel .recoveryTimeout).cancel .recoverySyncWaitEnd).setF PWS.STAT_REC_RUN 0
    let s := if test then s.setF PWS.BOOTT_MS (satU 16 ((s.now - s.pws.inputAt) / 250000)) else s
    let s := s.setPws { s.pws with readyOnce := true, recStep := 0 }
    let s := s.clvThreads
    s.wr (CLVT.ENTRY 0) s.ident.entry |>.put .shared (s.ctxAddr 0 + 0x180) 4 s.ident.entry.toNat)

/-- TB_CELL is synchronised, or this module is grandmaster. -/
def State.timeGood (s : State) : Bool := s.on (TIMEEXT.STATUS_SYNC 0) || s.on (TIMEEXT.STATUS_GRANDMASTER 0)

/-- Step 5 of a recovery. -/
def State.recWait (s : State) : State :=
  let s := (s.cancel .recoveryTimeout).setPws { s.pws with recStep := 5 }
  s.resched (if s.timeGood then 0 else 500000000) .recoverySyncWaitEnd

/-- The running graph has ended: its result goes to CLV_STAT.GRESULT and to PWS. -/
def State.graphEnded (s : State) : State :=
  match s.clv.gend with
  | none => s
  | some res =>
    let s := s.setF CLV.STAT_GRESULT res
    if s.mstate = stBOOT then
      if res = 0 then (s.wipeBoot.setPws { s.pws with recStep := 3 }).sched 0 .imageLoad else s.toRecovery 0x0A
    else if s.mstate = stTEST then (if res = 0 then s.toReady 0x05 else s.toRecovery 0x05)
    else if s.mstate = stRECOVERY then
      if res ≠ 0 then s.recAgain 0x0A
      else if s.pws.recStep = 2 then (s.setPws { s.pws with recStep := 3 }).sched 0 .imageLoad
      else if s.pws.recStep = 4 then s.recWait
      else s
    else s

/-- IMAGE_LOAD: verification and loading, then the self-test graph. -/
def State.imageStep (s : State) : State :=
  if s.pws.recStep ≠ 3 then s
  else
    let (t, good) := s.bootImage
    if s.mstate = stBOOT then
      if good then
        let t := t.moveTo stTEST 0x06
        (t.setPws { t.pws with recStep := 0 }).testGraph
      else t.toRecovery 0x06
    else if s.mstate = stRECOVERY then
      if good then (t.setPws { t.pws with recStep := 4 }).testGraph
      else (t.raise PWS.STAT_NO_IMAGE).recHold
    else s

/-! ## Inputs, hold-up, sleep (R459 to R467) -/

def okBit (inp : Nat) : Field := if inp = 0 then PWS.STAT_A_OK else PWS.STAT_B_OK
def vinField (inp : Nat) : Field := if inp = 0 then PWS.VIN_VA else PWS.VIN_VB
def State.anyInput (s : State) : Bool := s.on PWS.STAT_A_OK || s.on PWS.STAT_B_OK

/-- From OFF the module starts with a good input and a die cool enough. -/
def State.tryStart (s : State) : State :=
  if decide (s.mstate = stOFF) && s.anyInput && !s.pws.hot then (s.bootReset 0x01 false).transition else s

/-- An input reads `mv` millivolts and is good at 19.2 V or above; in HOLDUP 1 ms then runs. -/
def State.inputUp (s : State) (inp mv : Nat) : State :=
  let s := s.setF (vinField inp) (satU 16 (mv / 10))
  if mv < 19200 then s
  else
    let s := s.raise (okBit inp)
    if s.mstate = stHOLDUP then s.resched 250000 (.holdupInputReturn (Fin.ofNat 2 inp)) else s

/-- Entry to HOLDUP (R462): shedding; the store no longer holds its usable energy (R461). The
hold-up has run for `before` ticks. -/
def State.holdup (s : State) (before : Nat) : State :=
  s.moving (rankOf stHOLDUP 0x01) (fun s =>
    let old := s.mstate
    let graph := s.isIn [stBOOT, stTEST, stRECOVERY]
    let s := ((s.moveTo stHOLDUP 0x01).bump PWS.CNT_HOLDUPS).flag PWS.STAT_STORE_OK false
    let s := ((s.cancel .recoveryTimeout).cancel .recoverySyncWaitEnd).setPws
      { s.pws with holdFrom := old, holdAt := s.now - before, stopped := true }
    if graph then s.clvGraph else (List.range 12).foldl State.shed s)

/-- A hold-up begins with the fall of the inputs, which stand below 18 V for 20 µs before they count as lost
(R459, R462). -/
def holdDebounce : Nat := 5000

/-- BOTH_INPUTS_LOST. -/
def State.bothLost (s : State) : State :=
  let s := ((s.flag PWS.STAT_A_OK false).flag PWS.STAT_B_OK false).dlkSettle.undue
    (fun e => match e with | .cmd (.holdupInputReturn _) => true | _ => false)
  s.ranked 1 (fun s =>
    if s.isIn [stBOOT, stTEST, stREADY, stRUN, stSAFE, stRECOVERY] then s.holdup holdDebounce
    else if s.mstate = stSLEEP then s.flag PWS.STAT_STORE_OK false
    else s)

/-- INPUT_LOST. -/
def State.inputLost (s : State) (inp : Nat) : State :=
  if !s.on (okBit inp) then s
  else
    let s := (s.flag (okBit inp) false).cancel (.holdupInputReturn (Fin.ofNat 2 inp))
    if s.anyInput then
      if s.isIn [stOFF, stSLEEP] then s else (s.raise PWS.STAT_INPUT_LOST).pwsStatRecord 0x10 0
    else s.sched 0 .bothInputsLost

/-- HOLDUP_INPUT_RETURN: an input has been good for 1 ms. -/
def State.holdupEnd (s : State) (inp : Nat) : State :=
  if s.mstate ≠ stHOLDUP then s
  else
    let ms := (s.now - s.pws.holdAt) / 250000
    let s := (s.raise (okBit inp)).setF PWS.HOLD_T_LAST (satU 16 ms)
    let s := s.pwsRecord 0x11 [(ms, 4)]
    let s := s.setPws { s.pws with stopped := false }
    if [stREADY, stRUN, stSAFE].contains s.pws.holdFrom then
      (List.range 12).foldl State.pick (s.moveTo stSAFE 0x01)
    else s.toRecovery 0x01

/-- STORE_EXHAUSTED: the module is OFF, and an input that is good already starts it again (R21). -/
def State.storeOut (s : State) : State :=
  s.ranked 1 (fun s => if s.mstate = stHOLDUP then (s.powerOff 0x01).tryStart else s)

/-- The reserve of a store is charged, or reads `mj` (R461, R463). -/
def State.storeUp (s : State) (mj : Nat) : State := (s.setF PWS.HOLD_E_STORE mj).raise PWS.STAT_STORE_OK

/-- Entry to SLEEP, after the flush. -/
def State.sleep (s : State) : State := s.dark stSLEEP 0x04

/-- The module wakes (R465): the first record carries the duration. Without a good input it is in BOOT with both
inputs lost (R21). -/
def State.wakeUp (s : State) (src : Nat) : State :=
  let sec := (s.now - s.pws.sleepAt) / 250000000
  let s := ((s.setF PWS.STAT_WAKE_SRC src).wrN PWS.SLPDUR sec).bootReset 0x07 false
  let s := s.judgeRec ⟨s.time64 0, 0x1614#16, 0, 2, 0, payloadOf [(sec, 4)], s.f BBS.GCFG_MOD⟩
  if s.anyInput then s.transition else s.transition.holdup 0

/-! ## Rails, die, clock (R28, R460, R480) -/

/-- A rail or the die leaves its window. -/
def State.railFault (s : State) (rail : Nat) : State :=
  if s.isIn [stOFF, stSLEEP] then s
  else
    let s := (s.raise PWS.STAT_RAIL_FLT).pwsRecord 0x13 [(rail, 1)]
    let s := s.setPws { s.pws with rails := (s.pws.rails.filter (fun x => !decide (x.1 = rail))) ++ [(rail, s.now)] }
    if s.mstate = stHOLDUP then s.ranked 2 (fun s => (s.powerOff 0x09).tryStart) else s.moduleFault 0x09

/-- The states of R21 from which 10 ms lead to OFF. -/
def poweredStates : List Nat := [stBOOT, stTEST, stREADY, stRUN, stSAFE, stRECOVERY]

/-- The 10 ms of R460 on TB_LOCAL (R12) have run since the rail left its window. -/
def State.railOverdue (s : State) (rail : Nat) : Bool :=
  s.pws.rails.any (fun x => decide (x.1 = rail) && decide (x.2 + 2500000 ≤ s.now))

/-- RAIL_FAULT_PERSIST: the rail has not returned, 10 ms after RAIL_FAULT saw it leave. The module is OFF, and a
good input starts it again (R21, R460). -/
def State.railPersist (s : State) (rail : Nat) : State :=
  if s.railOverdue rail then s.ranked 2 (fun s => if s.isIn poweredStates then (s.powerOff 0x09).tryStart else s) else s

/-- PLL_LOCK_LOSS. -/
def State.pllLoss (s : State) (frac : Nat) : State :=
  if s.isIn [stOFF, stSLEEP] then s
  else
    let s := (s.tripAssert .pws frac).setPws { s.pws with unlocked := true }
    (s.stoAll 0x83).resched 2500000 .pllLockTimeout

/-- PLL_RELOCK. -/
def State.pllRelock (s : State) : State :=
  if !s.pws.unlocked then s
  else
    let s := ((s.cancel .pllLockTimeout).tripRelease .pws).setPws { s.pws with unlocked := false }
    s.ranked 2 (fun s =>
      if s.isIn poweredStates then
        if s.mstate = stRECOVERY ∧ s.pws.recStep = 0 then s else s.toRecovery 0x08
      else s)

/-- PLL_LOCK_TIMEOUT: the module is OFF, and a good input starts it again (R21, R28), from HOLDUP too, which R21's row
for OFF does not list with this cause (log entry 134, DESIGN CHOICE). -/
def State.pllOff (s : State) : State :=
  if s.pws.unlocked then s.ranked 2 (fun s => (s.powerOff 0x08).tryStart) else s

/-! ## Watchdogs (R472, R473) -/

/-- A refused key. -/
def State.kickErr (s : State) : State :=
  (s.raise PWS.STAT_KICK_ERR).pwsStatRecord 0x16 0

/-- WDT_KICK: a write of PWS_WDKICK by master `m`. -/
def State.wdtKick (s : State) (m : Sys2Proof.Master) (v : Word) : State :=
  let k := getBits 0 16 v
  if m ≠ .eng 14 then s.kickErr
  else if k = 0x5A17 then s.setPws { s.pws with key := some s.now }
  else if k = 0xA5E8 ∧ s.pws.key.any (fun t => decide (s.now - t ≤ 2500)) then
    let s := s.setPws { s.pws with key := none }
    if s.isIn wdtStates then s.resched 12500000 .moduleWdtExpiry else s
  else (s.setPws { s.pws with key := none }).kickErr

/-- MODULE_WDT_EXPIRY. -/
def State.moduleWdt (s : State) : State :=
  if s.isIn wdtStates then (s.raise PWS.STAT_MWDT).moduleFault 0x02 else s

/-- ENGINE_WDT_EXPIRY. -/
def State.engineWdt (s : State) (e : Nat) : State :=
  match s.runningOn e with
  | none => s
  | some t =>
    if 15 ≤ e then s
    else
      let s := ((s.raise (PWS.EWD_EXP e)).raise PWS.STAT_EWDT).pwsStatRecord 0x12 e
      let x := s.en e
      let graph := s.graphMode
      let s := (s.leaveEngine e t).setResident e none
      let s := s.setEn e { Eng.reset with evec := x.evec, cyc0 := s.now }
      let s := if isSdsp e then s.setF (SDS.STAT_INTDEPTH (e - 4)) 0 else s
      let s := if graph then s.graphStop 7 else (s.haltedNow t).pick e
      if e = 14 then (s.raise PWS.STAT_MWDT).moduleFault 0x02 else s

/-! ## MODULE commands (R21, R213, R227, R418, R421, R425, R461, R465, R467) -/

/-- The conditions of R213 on comparator `c`, but for its period. -/
def State.tcmpPlans (s : State) (c : Nat) : Bool :=
  let dv := (s.rd (TCMP.VALUE c) - s.rd (TCMP.VALUE 0)).toNat
  s.on (TCMP.CTRL_EN c) && decide (s.f (TCMP.CTRL_BASE c) = 0) && s.on (TCMP.CTRL_TOKEN c)
    && decide (s.f (TCMP.CTRL_TAG c) = s.f PLC.TAGS_PTAG) && decide (dv * 8 % s.frameUnits = 0)

def State.planTcmpGood (s : State) (c : Nat) : Bool :=
  s.tcmpPlans c && decide ((s.rd (TCMP.PERIOD c)).toNat = s.planP)

/-- The joint map breaks R227. -/
def State.mapBad (s : State) : Bool :=
  let js := s.mapped
  let arm (a : Nat) : List Nat := js.filter (fun j => decide (s.jArm j = a))
  let idx (j : Nat) : Nat := s.f (PLCJ.JMAP_IDX j)
  !decide ((js.map (fun j => (s.jMod j, s.jPort j))).Nodup)
    || (List.range 16).any (fun a =>
      let l := arm a
      decide (10 < l.length) || !decide ((l.map idx).Nodup) || l.any (fun j => decide (l.length ≤ idx j)))
    || decide (160 < js.length)
    || js.any (fun j => !s.inCell (s.jMod j) || decide (95 < s.jPort j)
      || !f32finite (s.rd (PLCJ.JSCL j)).toNat || decide (f32rat (s.rd (PLCJ.JSCL j)).toNat = 0))

/-- The conditions of R418 on a worker's STATE comparator `c`. -/
def State.stateTcmpGood (s : State) (c : Nat) : Bool :=
  s.tcmpPlans c && decide ((s.rd (TCMP.PERIOD c)).toNat = Config.managerPeriod)
    && decide (((s.rd (TCMP.VALUE c)).toNat + 2 ^ 32 - Config.managerT0 % 2 ^ 32) % 2 ^ 32 % Config.managerPeriod = 0)

/-- MODULE_RUN: does something refuse it with ILLEGAL_STATE beside the module state (R21, R213, R418, R421, R425),
and which flags do its checks set? -/
def State.runRefusal (s : State) : Bool × List Field :=
  let c := s.f FOV.CFG_TSEL
  let beat := decide (s.f (TCMP.CTRL_BASE c) = 0) && s.on (TCMP.CTRL_FOV c) && decide (s.rd (TCMP.PERIOD c) = 250000#32)
  let plan := (s.isManager || s.isPair) && !s.planTcmpGood (s.f PLC.CFG_TSEL)
  let fov := (s.isWorker && !s.stateTcmpGood (s.f FOV.CFG_SSEL)) || ((s.isPair || s.isWitness) && !beat)
    || (s.isPair && decide (s.f PLC.CFG_PERIOD = 3))
  (decide (s.role = 0) || !s.lcIn [lcOPERATIONAL, lcSERVICE] || !s.on PWS.STAT_STORE_OK || !s.timeGood || plan || fov,
    (if plan then [PLC.STAT_ERR_ARG] else []) ++ if fov then [FOV.STAT_ERR_ARG] else [])

/-- MODULE_RUN. While an accepted MODULE_RESTART, MODULE_SLEEP or lifecycle change waits for its flush it is refused with
ILLEGAL_STATE (log entry 133, DESIGN CHOICE). -/
def State.moduleRun (s : State) (via : Via) : State :=
  if s.mstate ≠ stREADY ∨ s.ident.restart.isSome = true ∨ s.beaten 5 = true then s.cmdDone via 6
  else
    let refused := s.runRefusal
    if refused.1 then (refused.2.foldl State.raise s).cmdDone via 6
    else if s.mapBad then (s.raise PLC.STAT_MAP_ERR).cmdDone via 3
    else (s.moveTo stRUN 0x04).cmdDone via 0

/-- The axis of a port is at standstill, or its group is in STO. -/
def State.axisStill (s : State) (p : Nat) : Bool :=
  decide (s.f (DPW.CFG_MODE p) = 0) || s.groupIn (p / 8)
    || (decide ((s.pgU p).v = 0) && decide ((s.pgU p).a = 0)
      && (decide (s.f (PFB.CFG_MODE p) = 0) || s.on (PFB.STAT_STILL p)))

def State.moduleStop (s : State) (via : Via) : State :=
  if s.mstate = stRUN ∧ (List.range 96).all s.axisStill = true ∧ s.beaten 5 = false then (s.moveTo stREADY 0x04).cmdDone via 0
  else s.cmdDone via 6

def State.moduleResetSafe (s : State) (via : Via) : State :=
  if s.mstate = stSAFE ∧ s.saf.faults = [] ∧ s.beaten 5 = false then (s.moveTo stREADY 0x04).cmdDone via 0 else s.cmdDone via 6

/-- The TRANSITION record of a transition that follows the flush: it shows the state to come. -/
def State.transitionAhead (s : State) (st cause : Nat) : State :=
  s.record 0x16 0x01 0 0 (payloadOf [(((s.setMod st cause).rd PWS.MODSTATE).toNat, 4), (s.f CLV.STAT_GRESULT, 1)])

def State.moduleRestart (s : State) (via : Via) : State :=
  if s.isIn [stREADY, stSAFE] then ((s.cmdDone via 0).transitionAhead stBOOT 0x04).restartAfterFlush 4
  else s.cmdDone via 6

def State.moduleSleep (s : State) (via : Via) : State :=
  if s.mstate = stREADY then ((s.cmdDone via 0).transitionAhead stSLEEP 0x04).restartAfterFlush 256
  else s.cmdDone via 6

/-- The flush before a reset or SLEEP is complete. -/
def State.resetModule (s : State) : State :=
  match s.ident.restart with
  | none => s
  | some c =>
    if !s.isIn [stREADY, stSAFE] then s.setIdent { s.ident with restart := none }
    else if s.beaten 5 then s
    else if c = 256 then s.sleep else s.bootReset c true

/-- Saffron's report takes RUN to SAFE (R255). -/
def State.safReport (s : State) : State := s.ranked 4 (fun s => if s.mstate = stRUN then s.moveTo stSAFE 0x03 else s)

/-! ## LEDs (R500) -/

/-- Colour of an LED: 0 off, 1 green, 2 amber, 3 red; and whether it flashes. -/
structure Led where
  colour : Nat
  flash : Bool
  deriving DecidableEq, Repr

/-- L1 to L6. -/
def State.led (s : State) (n : Nat) : Led :=
  if s.isIn [stOFF, stSLEEP] then ⟨0, false⟩
  else
    match n with
    | 1 => if s.mstate = stHOLDUP then ⟨2, true⟩
      else if s.on PWS.STAT_A_OK && s.on PWS.STAT_B_OK then ⟨1, false⟩ else if s.anyInput then ⟨2, false⟩ else ⟨0, false⟩
    | 2 => if s.mstate = stSAFE then ⟨3, false⟩ else if s.mstate = stRECOVERY then ⟨2, true⟩
      else if s.isIn [stBOOT, stTEST] then ⟨2, false⟩ else if s.mstate = stREADY then ⟨1, true⟩
      else if s.mstate = stRUN then ⟨1, false⟩ else ⟨0, false⟩
    | 3 => if !s.psetOk then ⟨3, true⟩ else if (List.range 12).all s.groupIn then ⟨3, false⟩
      else if s.on SAF.STAT_DEGRADED || s.safArms.any (fun a => [1, 2, 3].contains (s.f (SAFA.STAT_STATE a))) then ⟨2, false⟩
      else ⟨1, false⟩
    | 4 => if s.on HQ.GSTAT_LINK_UP then ⟨1, !s.on HQ.GSTAT_RINGS_UP⟩ else ⟨0, false⟩
    | 5 => if s.on (TIMEEXT.STATUS_GRANDMASTER 0) then ⟨1, true⟩
      else if s.on (TIMEEXT.STATUS_SYNC 0) then ⟨1, false⟩ else ⟨2, false⟩
    | 6 => if s.on PWS.STAT_NO_IMAGE || s.on PWS.STAT_REC_FAIL then ⟨3, true⟩
      else if s.f SAF.FAULT_CLASS ≠ 0 then ⟨3, false⟩ else ⟨0, false⟩
    | _ => ⟨0, false⟩

/-! ## Sleep counter (R12, R465, R476) -/

/-- The 48-bit sleep counter at 32.768 kHz. -/
def State.sleepCount (s : State) : Nat := s.sleepTicks * 32768 / 250000000 % 2 ^ 48

/-! ## Commands -/

/-- INPUT_GOOD. -/
def execInputGood (inp : Fin 2) (mv : Nat) (s : State) : Out := ok (s.inputUp inp.val mv).tryStart
def execInputRestored (inp : Fin 2) (mv : Nat) (s : State) : Out := ok (s.inputUp inp.val mv).tryStart
def execInputLost (inp : Fin 2) (s : State) : Out := ok (s.inputLost inp.val)
def execBothInputsLost (s : State) : Out := ok s.bothLost
def execHoldupInputReturn (inp : Fin 2) (s : State) : Out := ok (s.holdupEnd inp.val)
def execStoreCharged (mj : BitVec 16) (s : State) : Out := ok (s.storeUp mj.toNat)
def execStoreExhausted (s : State) : Out := ok s.storeOut
def execRailFault (rail : Fin 7) (s : State) : Out := ok (s.railFault rail.val)
def execRailFaultPersist (rail : Fin 8) (s : State) : Out := ok (s.railPersist rail.val)
/-- DIE_OVERTEMP (R480): rail index 7. -/
def execDieOvertemp (s : State) : Out := ok ((s.setPws { s.pws with hot := true }).railFault 7)
/-- DIE_COOLED (R480): index 7 is back in its window too. -/
def execDieCooled (s : State) : Out :=
  ok (s.setPws { s.pws with hot := false, rails := s.pws.rails.filter (fun x => !decide (x.1 = 7)) }).tryStart
def execPllLockLoss (frac : Fin 32) (s : State) : Out := ok (s.pllLoss frac.val)
def execPllRelock (s : State) : Out := ok s.pllRelock
def execPllLockTimeout (s : State) : Out := ok s.pllOff
def execEngineWdtExpiry (e : Fin 16) (s : State) : Out := ok (s.engineWdt e.val)
def execModuleWdtExpiry (s : State) : Out := ok s.moduleWdt

/-- RAILS_UP: the wipe engine starts. -/
def execRailsUp (s : State) : Out :=
  ok (if s.mstate = stBOOT ∧ s.pws.recStep = 0 then s.setPws { s.pws with recStep := 1 } else s)

def execOnchipWipeDone (good : Bool) (s : State) : Out := ok (s.wipeDone good)
def execImageLoad (s : State) : Out := ok s.imageStep

/-- WAKE (R465, R496). -/
def execWake (s : State) : Out := ok (if s.mstate = stSLEEP then s.wakeUp 1 else s)

/-- SLEEP_STORE_EXHAUSTED (R466). -/
def execSleepStoreExhausted (s : State) : Out :=
  ok (if decide (s.mstate = stSLEEP) && !s.anyInput then s.powerOff 0x01 else s)

/-- COVER_OPEN (R241). -/
def execCoverOpen (s : State) : Out :=
  if s.mstate = stOFF then ok s
  else
    let s := if s.mstate = stSLEEP then s.wakeUp 2 else s
    let s := (s.raise SAF.STAT_COVER_OPEN).setSaf { s.saf with cover := true }
    ok (s.recordStat 0x0F 0x21 0 5 SAF.STAT)

/-- RECOVERY_SYNC_WAIT_END (R474). -/
def execRecoverySyncWaitEnd (s : State) : Out :=
  ok (if s.mstate = stRECOVERY ∧ s.pws.recStep = 5 then s.toReady 0x0A else s)

/-- RECOVERY_TIMEOUT (R474). -/
def execRecoveryTimeout (s : State) : Out :=
  ok (if s.mstate = stRECOVERY ∧ s.pws.recStep ≠ 0 ∧ s.pws.recStep ≠ 5 then s.recAgain 0x0A else s)

def execModuleRun (via : Via) (s : State) : Out := ok (s.moduleRun via)
def execModuleStop (via : Via) (s : State) : Out := ok (s.moduleStop via)
def execModuleSleep (via : Via) (s : State) : Out := ok (s.moduleSleep via)
def execModuleResetSafe (via : Via) (s : State) : Out := ok (s.moduleResetSafe via)
def execModuleRestart (via : Via) (s : State) : Out := ok (s.moduleRestart via)

end Sys2Proof.Machine
end

