-- ==== Sys2Proof/Machine/Hq.lean ====
section
/-! DEFINITION. Host rings (spec/17_host_and_backbone.md, R389 to R402, R413; R457; R489): submission and
completion rings, commands and their completions, forwarding to another module, MSI-X, the PCIe link. -/

namespace Sys2Proof.Machine

def State.ringU (s : State) (r : Nat) : Ring := s.ring.get (fun _ => Ring.reset) r
def State.setRing (s : State) (r : Nat) (x : Ring) : State := { s with ring := s.ring.set (fun _ => Ring.reset) r x }
def State.ringSize (s : State) (r : Nat) : Nat := 2 ^ s.f (RP.CFG_LOG2SIZE r)
def State.setBbs (s : State) (x : Bbs) : State := { s with bbs := x }

/-! ## Rings (R392 to R400) -/

/-- Does the module take commands of ring pair `r` (R398, R457). -/
def State.ringServed (s : State) (r : Nat) : Bool :=
  s.on (RP.CFG_EN r) && (ringStates.contains s.mstate || (s.romService && decide (r = 0)))

/-- Entries between a head and a tail. -/
def between (size head tail : Nat) : Nat := (tail + size - head % size) % size

/-- CQ entries that are free beyond those reserved for commands in flight (R395). -/
def State.cqRoom (s : State) (r : Nat) : Nat :=
  let u := s.ringU r
  let n := s.ringSize r
  n - 1 - between n u.cqHead (s.f (RP.CQTAIL_TAIL r)) - (u.flight.map (·.left)).sum

/-- STAT.CQ_FULL and STAT.INFLIGHT follow the ring. -/
def State.ringSync (s : State) (r : Nat) : State :=
  (s.flag (RP.STAT_CQ_FULL r) (s.on (RP.CFG_EN r) && decide (s.cqRoom r < 2))).setF (RP.STAT_INFLIGHT r)
    (s.ringU r).flight.length

/-- May the module take the next entry of ring pair `r`. -/
def State.ringReady (s : State) (r : Nat) : Bool :=
  let u := s.ringU r
  s.ringServed r && !decide (s.f (RP.SQHEAD_V r) = u.tail) && u.held.isNone && decide (u.flight.length < 64)
    && decide (2 ≤ s.cqRoom r)

/-- The ring pair whose turn it is, in round-robin order. -/
def State.ringTurn (s : State) : Option Nat :=
  ((List.range 16).map (fun i => (s.hqNext + i) % 16)).find? s.ringReady

/-- SQ_DOORBELL: HQ_RPr_SQDB takes a new tail (R394). The entries that it adds count on from the old tail. -/
def State.sqDoorbell (s : State) (r : Nat) (v : Word) : State :=
  let i := getBits 0 12 v
  let size := s.ringSize r
  let ahead (a b : Nat) : Nat := (a + size - b % size) % size
  let t := (s.ringU r).tail
  if size ≤ i ∨ s.on (RP.CFG_EN r) = false ∨ size ≤ ahead t (s.f (RP.SQHEAD_V r)) + ahead i t then
    s.raise (RP.STAT_DB_ERR r)
  else s.setRing r { s.ringU r with tail := i }

/-- CQ_DOORBELL: HQ_RPr_CQDB takes a new head, which does not pass the CQ tail (R394); one that frees every entry cancels COAL_T. -/
def State.cqDoorbell (s : State) (r : Nat) (v : Word) : State :=
  let i := getBits 0 12 v
  let size := s.ringSize r
  let ahead (a b : Nat) : Nat := (a + size - b % size) % size
  let h := (s.ringU r).cqHead
  if size ≤ i ∨ s.on (RP.CFG_EN r) = false ∨ ahead (s.f (RP.CQTAIL_TAIL r)) h < ahead i h then
    s.raise (RP.STAT_DB_ERR r)
  else if i = h then s
  else
    let s := s.setRing r { s.ringU r with cqHead := i }
    let s := if i = s.f (RP.CQTAIL_TAIL r) then s.cancel (.msixCoalTimeout (Fin.ofNat 16 r)) else s
    s.ringSync r

/-- EN goes from 0 to 1: SQ head and CQ tail 0, PHASE 1. -/
def State.ringStart (s : State) (r : Nat) : State :=
  let s := (s.setRing r Ring.reset).setF (RP.SQHEAD_V r) 0
  ((s.setF (RP.CQTAIL_TAIL r) 0).setF (RP.CQTAIL_PHASE r) 1).ringSync r

/-- RING_ENABLE: a write of HQ_RPr_CFG. While EN = 1 only EN := 0 acts, and another field that would change
leaves a record. -/
def State.ringCfgWrite (s : State) (r : Nat) (v : Word) : State :=
  let l := getBits 3 4 v
  let old := s.rd (RP.CFG r)
  if l < 4 ∨ 12 < l then s.raise (RP.STAT_ERR_ARG r)
  else if s.on (RP.CFG_EN r) then
    let s := if v.toNat / 2 = old.toNat / 2 then s else s.sysIllegal
    if v.getLsbD 0 then s else s.ringStop r
  else
    let s := s.store (RP.CFG r) v
    if v.getLsbD 0 then s.ringStart r else s

/-- A ring pair stops at a DMA error (R399). -/
def State.dmaError (s : State) (r : Nat) : State :=
  let s := ((s.ringStop r).raise (RP.STAT_DMA_ERR r)).raise HQ.GSTAT_DMA_ERR
  s.recordStat 0x0E 0x01 r 2 (RP.STAT r)

/-! ## Entries and commands (R393, R401, R402) -/

/-- A submission entry (R393); the arguments are 56 bytes. -/
structure Sqe where
  cid : BitVec 16
  op : Nat
  flags : Nat
  module : Nat
  rsvd : Nat
  args : List Byte
  deriving DecidableEq, Repr

def sqe2 (l : List Byte) : Sqe :=
  ⟨BitVec.ofNat 16 (leNat (sub l 0 2)), leNat (sub l 2 1), leNat (sub l 3 1), leNat (sub l 4 1), leNat (sub l 5 3), sub l 8 56⟩

def sqe1 (l : List Byte) : Sqe :=
  ⟨BitVec.ofNat 16 (leNat (sub l 2 2)), leNat (sub l 0 1), leNat (sub l 1 1), 0xFF, 0, sub l 4 28⟩

def Sqe.arg (q : Sqe) (o n : Nat) : Nat := leNat (sub q.args o n)
def Sqe.argW (q : Sqe) (o : Nat) : Word := BitVec.ofNat 32 (q.arg o 4)
def Sqe.argB (q : Sqe) (o : Nat) : Byte := BitVec.ofNat 8 (q.arg o 1)
def Sqe.fence (q : Sqe) : Bool := q.flags.testBit 0
/-- A reserved byte or bit is not 0. -/
def Sqe.dirty (q : Sqe) : Bool := decide (2 ≤ q.flags) || decide (q.rsvd ≠ 0)

/-- The codes of a ring with TARGET = MODULE. -/
def hostCodes : List Nat := [0x00, 0x01, 0x02, 0x03, 0x08, 0x09, 0x0A, 0x0B, 0x0C, 0x10] ++ (List.range 8).map (0x18 + ·)

/-- The right that a session needs for a code (R446). -/
def codeRight (op : Nat) : Option Nat :=
  if op = 0x10 then some rSafety else if op = 0x1D then some rImage else if op = 0x1E then some rConfig else none

/-- Does the session lack the right for a code. -/
def State.rightless (s : State) (via : Via) (op : Nat) : Bool :=
  match codeRight op with
  | some x => !s.hasRight via x
  | none => false

/-- The command that an entry starts on this module; none where its function code is unknown. -/
def Sqe.command (q : Sqe) (via : Via) (fmt1 : Bool) : Option Instr :=
  match q.op with
  | 0x00 => some (.nop via)
  | 0x01 => some (.regRead via (q.argW 0) (q.argB 4))
  | 0x02 => some (.regWrite via (q.argW 0) (q.argW 4))
  | 0x03 => some (.tokenPost via (BitVec.ofNat 16 (q.arg 0 2)) (q.argW 4))
  | 0x08 => some (.moduleRun via)
  | 0x09 => some (.moduleStop via)
  | 0x0A => some (.moduleSleep via)
  | 0x0B => some (.moduleResetSafe via)
  | 0x0C => some (.moduleRestart via)
  | 0x10 => some (.safParamWrite via (q.argB 0) (q.argW 4))
  | 0x18 =>
    match q.arg 0 1 with
    | 0 => some (.idRead via (q.argW 4))
    | 1 => some (.idLogin via (q.argW 4))
    | 2 => some (.idLogout via)
    | 3 => some (.idAttest via (q.argW 4) (if fmt1 then [] else sub q.args 8 32))
    | _ => none
  | 0x19 => some (.lcChange via (q.argB 0) (q.argW 4))
  | 0x1A => some (.rcdExport via (BitVec.ofNat 64 (q.arg 0 8)) (q.argW 8) (q.argW 12))
  | 0x1B => some (.rcdNonce via)
  | 0x1C => some (.rcdClear via (q.argW 4))
  | 0x1D =>
    match q.arg 0 1 with
    | 0 => some (.imgErase via (q.argB 1) (q.argW 4))
    | 1 => some (.imgWrite via (q.argB 1) (q.argW 4) (q.argW 8) (q.argW 12))
    | 2 => some (.imgCommit via (q.argB 1) (q.argW 4))
    | _ => none
  | 0x1E => some (.cfgWrite via (q.argW 4))
  | 0x1F => some (.cfgRead via (q.argW 4))
  | _ => none

/-- BAD_ARG, or NOT_AUTHORISED where the session lacks the right (R9). -/
def State.argBad (s : State) (via : Via) (op : Nat) : State := s.cmdDone via (if s.rightless via op then 5 else 3)

/-- An entry starts on this module. -/
def State.startLocal (s : State) (via : Via) (q : Sqe) (fmt1 : Bool) : State :=
  match q.command via fmt1 with
  | some c => s.sched 0 c
  | none => s.argBad via q.op

/-- RCD_FORWARD: an entry, number `n` of its ring, goes to another module. -/
def State.forward (s : State) (r : Nat) (n : BitVec 16) (q : Sqe) (raw : List Byte) : State :=
  let s := s.sendFrame 6 q.module (.rcd (.sqe (Fin.ofNat 16 r) n raw))
  let s := s.setBbs { s.bbs with fwd := s.bbs.fwd ++ [(r, n, q.module)] }
  s.resched (s.f BBS.RCDTO_V * 250000) (.rcdTimeout (Fin.ofNat 16 r) n)

/-- An entry of a ring with TARGET = MODULE starts. -/
def State.startModule (s : State) (r : Nat) (n : BitVec 16) (via : Via) (q : Sqe) (raw : List Byte) (fmt1 : Bool) : State :=
  let own := decide (q.module = 0xFF) || decide (q.module = s.ownMod)
  if !hostCodes.contains q.op then s.cmdDone via 4
  else if q.dirty then (if own then s.argBad via q.op else s.cmdDone via 3)
  else if own then s.startLocal via q fmt1
  else if !s.inCell q.module then s.cmdDone via 3
  else if s.plans && (decide (q.op = 0) || !decide (s.mstate = stHOLDUP)) then s.forward r n q raw
  else s.cmdDone via 6

/-- An entry of a ring with TARGET = NMG starts. -/
def State.startNmg (s : State) (via : Via) (q : Sqe) : State :=
  if q.op ≠ 0 ∧ q.op ≠ 0x30 then s.cmdDone via 4
  else if q.dirty || !(decide (q.module = 0xFF) || decide (q.module = s.ownMod)) then s.cmdDone via 3
  else if q.op = 0 then s.sched 0 (.nop via)
  else s.sched 0 (.nmgSubmit via (q.argW 4))

/-- An entry starts while the ROM code answers (R457): NOP, ID READ and ID ATTEST. -/
def State.startRom (s : State) (r : Nat) (via : Via) (q : Sqe) : State :=
  let form := !s.on (RP.CFG_FORMAT r) && !s.on (RP.CFG_TARGET r)
  let known := decide (q.op = 0) || (decide (q.op = 0x18) && [0, 3].contains (q.arg 0 1))
  let own := decide (q.module = 0xFF) || decide (q.module = s.ownMod)
  if !(form && known && own) then s.complete via 6
  else if q.dirty then s.complete via 3
  else s.startLocal via q false

/-- The number of the last command that ring pair `r` has taken. -/
def State.lastCmd (s : State) (r : Nat) : BitVec 16 := BitVec.ofNat 16 (s.f (RP.STAT_CMD_CNT r))

/-- An entry of ring pair `r`, the last that it has taken, starts. -/
def State.startSqe (s : State) (r : Nat) (raw : List Byte) : State :=
  let fmt1 := s.on (RP.CFG_FORMAT r)
  let q := if fmt1 then sqe1 raw else sqe2 raw
  let via : Via := .ring (Fin.ofNat 16 r) (s.lastCmd r)
  if s.romService then s.startRom r via q
  else if s.on (RP.CFG_TARGET r) then s.startNmg via q
  else s.startModule r (s.lastCmd r) via q raw fmt1

/-- SQE_FETCH: the entry that a read of the ring has brought, or none where the read failed. A ring pair
that may not take an entry, or whose turn it is not, takes none. -/
def State.sqeFetch (s : State) (r : Nat) (raw : Option (List Byte)) : State :=
  if s.ringTurn ≠ some r then s
  else
    let s := { s with hqNext := (r + 1) % 16 }
    match raw with
    | none => s.dmaError r
    | some l =>
      let q := if s.on (RP.CFG_FORMAT r) then sqe1 l else sqe2 l
      let u := s.ringU r
      let h := (s.f (RP.SQHEAD_V r) + 1) % s.ringSize r
      let wait := q.fence && !u.flight.isEmpty
      let s := (s.setF (RP.SQHEAD_V r) h).bumpMod (RP.STAT_CMD_CNT r)
      let s := s.setRing r { u with flight := u.flight ++ [⟨s.lastCmd r, q.cid, h, 2⟩], held := if wait then some l else none }
      let s := s.ringSync r
      if wait then s else s.startSqe r l

/-! ## Completions (R393, R397, R400) -/

/-- A completion entry as one number (byte 0 lowest). -/
def cqeNat (cid : BitVec 16) (c : Cqe) (phase : Bool) (head own : Nat) (fmt1 : Bool) : Nat :=
  let flags := phase.toNat + 2 * c.rem.isSome.toNat
  let m := if fmt1 then 0 else c.rem.getD own
  packPayload [(cid.toNat, 2), (c.res, 1), (flags, 1), (head, 2), (m, 1), (0, 1), (c.val.toNat, 8)]

/-- The ring pair of a completion, and the ring index of a completion that goes to another module. -/
def viaRing : Via → Option Nat
  | .ring r _ => some r.val
  | .rcd _ r _ => some r.val
  | .none => none

/-- R400: a CQE has been written. -/
def State.coalesce (s : State) (r : Nat) : State :=
  let c := Fin.ofNat 16 r
  let n := s.f (RP.CFG_COAL_N r)
  let u := s.ringU r
  if !s.on (RP.CFG_IEN r) then s
  else if n ≤ u.unsig + 1 then
    ((s.setRing r { u with unsig := 0 }).cancel (.msixCoalTimeout c)).msix (s.f (RP.CFG_VEC r))
  else
    let t := s.f (RP.CFG_COAL_T r)
    let s := s.setRing r { u with unsig := u.unsig + 1 }
    let runs := s.agenda.any (fun d => decide (d.ev = .cmd (.msixCoalTimeout c)))
    if t = 0 ∨ runs = true then s else s.sched (250 * t) (.msixCoalTimeout c)

/-- What remains in flight after a completion of command `n`. -/
def flightAfter (n : BitVec 16) (final : Bool) : List InFlight → List InFlight
  | [] => []
  | x :: l =>
    if x.n = n then (if final then l else { x with left := x.left - 1 } :: l)
    else x :: flightAfter n final l

/-- A completion of command `n` is written to the own ring `r`. -/
def State.cqePut (s : State) (r : Nat) (n : BitVec 16) (c : Cqe) : State :=
  let u := s.ringU r
  match u.flight.find? (fun x => decide (x.n = n)) with
  | none => s
  | some x =>
    let i := s.f (RP.CQTAIL_TAIL r)
    let e := cqeNat x.cid c (s.on (RP.CQTAIL_PHASE r)) x.head s.ownMod (s.on (RP.CFG_FORMAT r))
    let s := { s with host := s.host.set (fun _ => 0) (r * 4096 + i) e }
    let j := (i + 1) % s.ringSize r
    let s := s.setF (RP.CQTAIL_TAIL r) j
    let s := if j = 0 then s.flag (RP.CQTAIL_PHASE r) (!s.on (RP.CQTAIL_PHASE r)) else s
    let s := s.setRing r { u with flight := flightAfter n c.final u.flight }
    let s := (s.coalesce r).ringSync r
    let u := s.ringU r
    match u.held with
    | some l => if u.flight.length ≤ 1 then (s.setRing r { u with held := none }).startSqe r l else s
    | none => s

/-- CQE_WRITE: the oldest completion that waits for ring pair `r` is written, or sent to the module that
forwarded its command; `good`: the write is not refused. -/
def State.cqeWrite (s : State) (r : Nat) (good : Bool) : State :=
  match s.cqes.find? (fun (c : Cqe) => decide (viaRing c.via = some r)) with
  | none => s
  | some c =>
    let s := { s with cqes := s.cqes.erase c }
    match c.via with
    | .ring _ n => if good then s.cqePut r n c else s.dmaError r
    | .rcd src k n => s.sendFrame 6 src.val (.rcd (.cqe k n (BitVec.ofNat 8 c.res) c.val))
    | .none => s

/-- MSIX_COAL_TIMEOUT. -/
def State.coalTimeout (s : State) (r : Nat) : State :=
  let u := s.ringU r
  if s.on (RP.CFG_EN r) && s.on (RP.CFG_IEN r) && decide (0 < u.unsig) then
    (s.setRing r { u with unsig := 0 }).msix (s.f (RP.CFG_VEC r))
  else s

/-! ## Forwarding (R402) -/

/-- Drop the forwarded command `n` of ring `r`. -/
def fwdDrop (r : Nat) (n : BitVec 16) : List (Nat × BitVec 16 × Nat) → List (Nat × BitVec 16 × Nat)
  | [] => []
  | x :: l => if x.1 = r ∧ x.2.1 = n then l else x :: fwdDrop r n l

/-- RCD_FRAME_RECEIVE. -/
def State.rcdReceive (s : State) (src : Nat) (m : RcdMsg) : State :=
  match m with
  | .sqe r n raw =>
    let q := sqe2 raw
    let via : Via := .rcd (Fin.ofNat 64 src) r n
    if !ringStates.contains s.mstate then s
    else if !hostCodes.contains q.op then s.cmdDone via 4
    else if q.dirty then s.argBad via q.op
    else s.startLocal via q false
  | .cqe r n res val =>
    let via : Via := .ring r n
    if s.bbs.fwd.any (fun x => decide (x.1 = r.val ∧ x.2.1 = n ∧ x.2.2 = src)) then
      if res = 1#8 then
        (s.complete via 1 val.toNat false (some src)).resched (s.f BBS.RCDTO_V * 250000) (.rcdTimeout r n)
      else
        let s := (s.setBbs { s.bbs with fwd := fwdDrop r.val n s.bbs.fwd }).cancel (.rcdTimeout r n)
        s.complete via res.toNat val.toNat true (some src)
    else s.bump BBS.DROP_LATE

/-- RCD_TIMEOUT. -/
def State.rcdLate (s : State) (r : Fin 16) (n : BitVec 16) : State :=
  if s.bbs.fwd.any (fun x => decide (x.1 = r.val ∧ x.2.1 = n)) then
    (s.setBbs { s.bbs with fwd := fwdDrop r.val n s.bbs.fwd }).complete (.ring r n) 7
  else s

/-! ## The link (R389, R399, R489) -/

/-- The PCIe link is lost: the rings stop, and nothing else. -/
def State.linkLost (s : State) : State :=
  if s.isIn [stOFF, stSLEEP] then s
  else
    let s := (s.flag HQ.GSTAT_LINK_UP false).raise HQ.GSTAT_LINK_LOST
    (s.recordStat 0x0E 0x02 0 2 HQ.GSTAT).ringsStop

/-- PERST# resets the endpoint: the vectors are masked again. -/
def State.perst (s : State) : State :=
  if s.isIn [stOFF, stSLEEP] then s
  else
    let regs := (List.range 64).flatMap (fun k => [MSIX.ADDR_L k, MSIX.ADDR_H k, MSIX.DATA k, MSIX.CTRL k]) ++ [MSIXP.PBA 0, MSIXP.PBA 1]
    regs.foldl (fun (u : State) o => u.wr o (regReset o)) s.linkLost

/-- PCIE_LINK_UP. -/
def State.linkUp (s : State) (rate width : Nat) (sris : Bool) : State :=
  if s.isIn [stOFF, stSLEEP] then s
  else ((s.setF HQ.GSTAT_RATE rate).setF HQ.GSTAT_WIDTH (2 ^ width)).raise HQ.GSTAT_LINK_UP |>.flag HQ.GSTAT_SRIS sris

/-! ## Registers (R413) -/

/-- A vector whose mask opens sends a message that waits (R400). -/
def State.msixCtrl (s : State) (k : Nat) (v : Word) : State :=
  let s := s.store (MSIX.CTRL k) v
  let F : Field := ⟨MSIXP.PBA (k / 32), k % 32, 1⟩
  if s.on F && !s.on (MSIX.CTRL_MASK k) then (s.setF F 0).msix k else s

/-- A write of an HQ register without a row of its own. -/
def State.hqWrite (s : State) (off : Nat) (v hw : Word) : State :=
  if MSIX.ADDR_L 0 ≤ off ∧ off < MSIXP.PBA 0 then
    let k := (off - MSIX.ADDR_L 0) / 16
    if off = MSIX.CTRL k then s.msixCtrl k v else s.store off v
  else if off = HQ.BAR2BASE then (if s.mstate = stREADY then s.store off v else s.sysIllegal)
  else if RP.SQBASE_L 0 ≤ off ∧ off < RP.SQBASE_L 16 then
    let r := (off - RP.SQBASE_L 0) / 0x40
    if off < RP.CFG r then
      s.judge ((decide (off = RP.SQBASE_L r) || decide (off = RP.CQBASE_L r)) && decide (getBits 0 12 v ≠ 0))
        (RP.STAT_ERR_ARG r) (s.on (RP.CFG_EN r)) (fun u => u.store off v)
    else s.store off v hw
  else s.store off v hw

/-! ## Commands -/

def execSqeFetch (r : Fin 16) (raw : Option (List Byte)) (s : State) : Out := ok (s.sqeFetch r.val raw)
def execCqeWrite (r : Fin 16) (good : Bool) (s : State) : Out := ok (s.cqeWrite r.val good)
def execMsixCoalTimeout (r : Fin 16) (s : State) : Out := ok (s.coalTimeout r.val)
def execPcieLinkLoss (s : State) : Out := ok s.linkLost
def execPciePerst (s : State) : Out := ok s.perst
def execPcieLinkUp (rate width : Fin 3) (sris : Bool) (s : State) : Out := ok (s.linkUp rate.val width.val sris)
def execRcdFrameReceive (src : Fin 64) (msg : RcdMsg) (s : State) : Out := ok (s.rcdReceive src.val msg)
def execRcdTimeout (r : Fin 16) (n : BitVec 16) (s : State) : Out := ok (s.rcdLate r n)

/-- NOP: OK while the rings are up. -/
def execNop (via : Via) (s : State) : Out :=
  ok (if ringStates.contains s.mstate || s.romService then s.complete via 0 else s.cmdDone via 6)

/-- TOKEN_POST. -/
def execTokenPost (via : Via) (tag : BitVec 16) (v : Word) (s : State) : Out :=
  let bad := decide (tag = 0#16) || (decide (0xFF00 ≤ tag.toNat) && decide (tag.toNat ≤ 0xFF07))
  ok (if bad then s.cmdDone via 3 else if !s.served then s.cmdDone via 6 else (s.token tag.toNat v 250).cmdDone via 0)

/-- NMG_SUBMIT (R180, R401). -/
def execNmgSubmit (via : Via) (ofs : Word) (s : State) : Out :=
  ok (if ofs.toNat % 64 ≠ 0 ∨ windowBytes ≤ ofs.toNat then s.cmdDone via 3
    else if !s.served then s.cmdDone via 6 else s.nmgArrive ofs.toNat via)

end Sys2Proof.Machine
end

