-- ==== Sys2Proof/Machine/Bbs.lean ====
section
/-! DEFINITION. The backbone switch (spec/17_host_and_backbone.md, R403 to R412, R414; R43; R487): frames
that leave and arrive, elimination of duplicates, links, latencies, gate lists on cell time. -/

namespace Sys2Proof.Machine

/-- The class maximum of a payload (R404); none for a code that is no class. -/
def classMax (c : Nat) : Option Nat :=
  if c = 5 then some 64 else if 1 ≤ c ∧ c ≤ 6 then some 1468 else none

/-! ## Gate lists (R409, R410) -/

def noGcl (_ : Nat) : Option Gcl := none
def State.gclOper (s : State) (p : Nat) : Option Gcl := s.bbs.oper.get noGcl p
def State.gclPend (s : State) (p : Nat) : Option Gcl := s.bbs.pend.get noGcl p
def State.setOper (s : State) (p : Nat) (g : Option Gcl) : State :=
  (s.setBbs { s.bbs with oper := s.bbs.oper.set noGcl p g }).flag (BBP.GCLOPER_OPER_VALID p) g.isSome
def State.setPend (s : State) (p : Nat) (g : Option Gcl) : State :=
  ((s.setBbs { s.bbs with pend := s.bbs.pend.set noGcl p g }).flag (BBP.STAT_GCL_PEND p) g.isSome).flag
    (BBP.GCLCTRL_COMMIT p) g.isSome

/-- TB_CELL in ns with its wrap count, modulo 2^40. -/
def State.cellNs (s : State) : Nat := s.wc 0 * 2 ^ 32 + (s.ns 0).toNat

/-- The first instant GCLBASE + n × CT, n ≥ 0, at least 2 µs after the commit at `now`; GCLBASE is a time of the
present turn of TB_CELL (R410; log entry 131, DESIGN CHOICE). -/
def gclStart (base : Word) (now ct : Nat) : Nat :=
  let b := now / 2 ^ 32 * 2 ^ 32 + base.toNat
  let t := now + 2000
  (if t ≤ b then b else b + (t - b + ct - 1) / ct * ct) % 2 ^ 40

/-- The administrative list of port `p`. -/
def State.gclAdmin (s : State) (p : Nat) : List (Nat × Nat) :=
  (List.range (s.f (BBP.GCLCTRL_LEN p))).map (fun i => (s.f (BBP.GCL_GATES p i), s.f (BBP.GCL_INTERVAL p i)))

/-- A commit: the list becomes pending, or is refused. -/
def State.gclCommit (s : State) (p : Nat) : State :=
  let l := s.gclAdmin p
  let ct := s.f (BBP.GCLCYC_V p)
  let sum := (l.map (·.2)).sum
  if sum ≠ ct ∨ l.any (fun e => decide (e.2 < 100)) = true ∨ l = [] then
    (s.raise (BBP.STAT_GCL_ERR p)).flag (BBP.GCLCTRL_COMMIT p) (s.gclPend p).isSome
  else s.setPend p (some ⟨gclStart (s.rd (BBP.GCLBASE p)) s.cellNs ct, ct, l⟩)

/-- GCL_COMMIT: a write of GCLCTRL. -/
def State.gclCtrlWrite (s : State) (p : Nat) (v : Word) : State :=
  let n := getBits 0 9 v
  if 4 ≤ p ∨ n = 0 ∨ 256 < n then s.raise (BBP.STAT_ERR_ARG p)
  else
    let s := s.setF (BBP.GCLCTRL_LEN p) n
    if v.getLsbD 9 then s.gclCommit p else s

/-- Has TB_CELL reached the start of the list `g`. -/
def State.gclDue (s : State) (g : Gcl) : Bool := decide ((s.cellNs + 2 ^ 40 - g.start) % 2 ^ 40 < 2 ^ 39)

/-- Has TB_CELL reached `t`, modulo 2^32 as comparators see it (R409). -/
def State.cellAt (s : State) (t : Word) : Bool := decide (0 ≤ (s.ns 0 - t).toInt)

/-- GCL_ACTIVATE: the pending list takes effect once its first cycle begins. -/
def State.gclActivate (s : State) (p : Nat) : State :=
  match s.gclPend p with
  | some g => if s.gclDue g then ((s.setOper p (some g)).setPend p none).setF (BBP.GCLOPER_ENTRY p) 0 else s
  | none => s

/-- When the running entry ends. -/
def State.gateEnd (s : State) (p : Nat) (g : Gcl) : Word :=
  BitVec.ofNat 32 (g.start + ((g.list.take (s.f (BBP.GCLOPER_ENTRY p) + 1)).map (·.2)).sum)

/-- GATE_INTERVAL_END: the next entry's mask applies; after the last one the next cycle begins. -/
def State.gateNext (s : State) (p : Nat) : State :=
  match s.gclOper p with
  | some g =>
    if s.cellAt (s.gateEnd p g) then
      let i := s.f (BBP.GCLOPER_ENTRY p) + 1
      if i < g.list.length then s.setF (BBP.GCLOPER_ENTRY p) i
      else (s.setOper p (some { g with start := (g.start + g.ct) % 2 ^ 40 })).setF (BBP.GCLOPER_ENTRY p) 0
    else s
  | none => s

/-- How long a gate stays open, in ns, along the entries `l` of a cycle of which the first has `first` ns left; none: it
does not close. -/
def openFor (tc first : Nat) (l : List (Nat × Nat)) : Option Nat :=
  let isOpen (e : Nat × Nat) : Bool := e.1.testBit tc
  if l.all isOpen then none
  else if !(l.head?.map isOpen).getD true then some 0
  else some (first + (((l.drop 1).takeWhile isOpen).map (·.2)).sum)

/-- How long the gate of class `tc` stays open at port `p` by the list in operation, in ns. -/
def State.operLeft (s : State) (p tc : Nat) : Option Nat :=
  match s.gclOper p with
  | some g =>
    let i := s.f (BBP.GCLOPER_ENTRY p)
    openFor tc (s.gateEnd p g - s.ns 0).toNat (g.list.drop i ++ g.list.take i)
  | none => none

/-- How long the gate of class `tc` stays open at port `p`, in ns; none: it does not close. A pending list takes over at
its start (R410). -/
def State.gateLeft (s : State) (p tc : Nat) : Option Nat :=
  if !s.on (BBP.CFG_GCL_EN p) then none
  else
    match s.gclPend p with
    | none => s.operLeft p tc
    | some g =>
      let wait := (g.start + 2 ^ 40 - s.cellNs) % 2 ^ 40
      match s.operLeft p tc with
      | some n => if n < wait then some n else (openFor tc ((g.list.head?.map (·.2)).getD 0) g.list).map (wait + ·)
      | none => (openFor tc ((g.list.head?.map (·.2)).getD 0) g.list).map (wait + ·)

/-! ## Frames that leave (R43, R404, R405, R411) -/

/-- A byte on the wire in tenths of a nanosecond. -/
def byteTime (speed : Nat) : Nat := if speed = 1 then 800 else if speed = 2 then 80 else if speed = 3 then 32 else 8

/-- The bytes of a frame from its addresses to its FCS: addresses and type, tag, R-TAG, header, payload, FCS. -/
def frameBytes (n : Nat) (rtag : Bool) : Nat := max 64 (14 + 4 + (if rtag then 6 else 0) + 16 + n + 4)

/-- The preamble and the gap of a frame or fragment, in bytes. -/
def gapBytes : Nat := 20

/-- Is the class of a frame express traffic; classes 0 to 4 are preemptable. -/
def State.express (s : State) (f : CellFrame) : Bool := (s.rd (classReg f.cls.toNat).off).toNat.testBit 6

/-- How many of the `left` bytes of a preemptable frame leave while the wire has room for `room` bytes (R411): all, or a
fragment that fits with its own check sequence of 4 bytes and leaves a fragment of 64 bytes at least. -/
def fragBytes (left room : Nat) : Option Nat :=
  let k := min (room - gapBytes - 4) (left - 64)
  if left + gapBytes ≤ room then some left else if 60 ≤ k then some k else none

/-- How many bytes of the first frame of class `tc` leave port `p` if it starts now; none: its gate keeps it (R411). -/
def State.mayLeave (s : State) (p tc : Nat) : Option Nat :=
  match (s.txQueue p tc).head? with
  | none => none
  | some x =>
    let left := frameBytes x.frame.n x.rtag.isSome - x.sent
    match s.gateLeft p tc with
    | none => some left
    | some ns =>
      let room := ns * 10 / byteTime (s.f (BBP.STAT_SPEED_ACT p))
      if !s.express x.frame && s.on (BBP.STAT_PREEMPT_ACT p) then fragBytes left room
      else if left + gapBytes ≤ room then some left
      else none

/-- May the first frame of class `tc` start at port `p` now. -/
def State.mayStart (s : State) (p tc : Nat) : Bool := (s.mayLeave p tc).isSome

/-- What is on the wire of port `p`. -/
def State.putWire (s : State) (p : Nat) (w : WireFrame) : State :=
  s.setBbs { s.bbs with wire := s.bbs.wire.set (fun _ => none) p (some w) }

/-- FRAME_TRANSMIT: the first frame of class `tc` leaves port `p`, or a fragment of it, with its egress time in whole ns
on TB_CELL; strict priority. -/
def State.transmit (s : State) (p tc : Nat) : State :=
  let up := s.on (BBP.CFG_EN p) && s.on (BBP.STAT_LINK p)
  let first := !(List.range 8).any (fun c => decide (tc < c) && s.mayStart p c)
  match s.txQueue p tc, s.mayLeave p tc with
  | x :: l, some k =>
    if up && first then
      let f := if x.sent = 0 then { x.frame with tx := BitVec.ofNat 32 (s.egressTime 0 p / 8) } else x.frame
      if x.sent + k < frameBytes f.n x.rtag.isSome then
        (s.setTxQueue p tc ({ x with frame := f, sent := x.sent + k } :: l)).putWire p (.fragment f x.sent k)
      else if x.sent = 0 then (s.setTxQueue p tc l).putWire p (.cell f)
      else (s.setTxQueue p tc l).putWire p (.fragment f x.sent k)
    else s
  | _, _ => s

/-- May a time protocol message leave port `p` now: express traffic of class 7 (R404), on BB0 to BB5, on a transport
that its base has (R42). -/
def State.ptpMay (s : State) (p b : Nat) (t : PtpTransport) : Bool :=
  s.on (BBP.CFG_EN p) && s.on (BBP.STAT_LINK p) && decide (p < 6) && ptpCarries b t
    && (match s.gateLeft p 7 with
      | none => true
      | some left => decide (84 * byteTime (s.f (BBP.STAT_SPEED_ACT p)) ≤ left * 10))

/-- What leaves a port (R43, R404): the first cell frame of a queue, of which BBI's go into the switch, or a time protocol
message. The switch writes the egress time of the message's own base into an own one-step Sync, and adds the residence
time to the correctionField of a relayed message (R43). -/
def State.send (s : State) (p : Nat) (what : TxFrame) : State :=
  match what with
  | .queued tc => if p = 6 then s.bbiOut tc.val else s.transmit p tc.val
  | .sync b t one =>
    let e := s.egressTime b.val p
    if s.ptpMay p b.val t then s.putWire p (.sync b (decide (t = .udp4)) one (BitVec.ofNat 32 (e / 8)) (e / 2 ^ 35) (e % 8)) else s
  | .relay b t arrived c =>
    if s.ptpMay p b.val t then
      s.putWire p (.relay b (decide (t = .udp4)) (c + ((s.egressTime b.val p + 2 ^ 43 - arrived % 2 ^ 43) % 2 ^ 43)))
    else s

/-! ## Frames that arrive (R406 to R408) -/

/-- Learn or refresh a source address (R403): 4,096 entries, 300 s. -/
def State.learnMac (s : State) (mac : BitVec 48) (p : Nat) : State :=
  let rest := s.bbs.fdb.filter (fun x => !decide (x.1 = mac))
  if 4096 ≤ rest.length then s
  else (s.setBbs { s.bbs with fdb := rest ++ [(mac, p)] }).resched 75000000000 (.addressTableAgeing mac)

/-- The header is one that this module accepts (R406). -/
def State.headerGood (s : State) (f : CellFrame) : Bool :=
  decide (f.ver = 1#8) && decide (f.cell.toNat = s.f BBS.GCFG_CELL_ID)
    && (decide (f.dst = 0xFF#8) || decide (f.dst.toNat = s.ownMod)) && decide (f.len.toNat ≤ f.n)
    && (match classMax f.cls.toNat with
      | some m => decide (f.len.toNat ≤ m) && decide (f.n ≤ max m 26)
      | none => false)

/-- What the vector recovery does with a sequence number (R407). -/
structure FrerRes where
  pass : Bool
  next : Frer
  lost : Nat
  deriving DecidableEq, Repr

/-- The vector recovery algorithm with a history of 32: the newest number and the 31 before it. A number that leaves the
history without having arrived is a gap, if it lies behind the first number since the reset. -/
def frerStep (u : Option Frer) (q : BitVec 16) : FrerRes :=
  match u with
  | none => ⟨true, ⟨q, 1#32, 0⟩, 0⟩
  | some u =>
    let d := (q - u.last).toInt
    if d = 0 ∨ 32 ≤ d ∨ d ≤ -32 then ⟨false, u, 0⟩
    else if d < 0 then
      let i := (-d).toNat
      if u.hist.getLsbD i then ⟨false, u, 0⟩ else ⟨true, { u with hist := u.hist ||| (1#32 <<< i) }, 0⟩
    else
      let k := d.toNat
      let gone := (List.range 32).countP (fun i => decide (32 ≤ i + k) && decide (i ≤ u.span) && !u.hist.getLsbD i)
      ⟨true, ⟨q, (u.hist <<< k) ||| 1#32, min 31 (u.span + k)⟩, gone⟩

def noFrer (_ : Nat) : Option Frer := none

/-- Duplicates of a stream are eliminated on BB0 to BB3; an accepted frame starts the reset time anew. -/
def State.frer (s : State) (p : Nat) (f : CellFrame) (rtag : Option (BitVec 16)) : State × Bool :=
  let cls := f.cls.toNat
  match rtag with
  | none => (s, true)
  | some q =>
    if !s.classFrer cls ∨ 4 ≤ p then (s, true)
    else
      let k := f.src.toNat % 64 * 8 + cls
      let r := frerStep (s.bbs.frer.get noFrer k) q
      if r.pass then
        let s := s.setBbs { s.bbs with frer := s.bbs.frer.set noFrer k (some r.next) }
        let s := s.resched 2500000 (.frerRecoveryReset (Fin.ofNat 64 f.src.toNat) (Fin.ofNat 8 cls))
        (s.bump (BBP.FRER_LOST p) r.lost, true)
      else (s.bump (BBP.FRER_DISC p), false)

/-- The receive queue of a frame: Q40 to Q45 by class, Q47 for what is no cell frame (R406). -/
def rxQueueOf (f : CellFrame) : Nat :=
  if f.etype ≠ cellType then 47
  else match f.cls.toNat with
    | 1 => 40 | 2 => 41 | 3 => 42 | 4 => 43 | 5 => 44 | 6 => 45 | _ => 47

def State.rxQueue (s : State) (k : Nat) : List CellFrame := s.bbs.rxq.get (fun _ => []) k

/-- BBI delivers an accepted frame to its receive queue. -/
def State.deliver (s : State) (f : CellFrame) : State :=
  let k := rxQueueOf f
  (s.setBbs { s.bbs with rxq := s.bbs.rxq.set (fun _ => []) k (s.rxQueue k ++ [f]) }).due 0 (.rxTake k)

/-- The command that a frame is for the one that reads its queue; none in Q47, which firmware reads. -/
def frameCommand (f : CellFrame) : Option Instr :=
  let src : Fin 64 := Fin.ofNat 64 f.src.toNat
  match rxQueueOf f, f.body with
  | 40, .bytes l => some (.cycleFrameReceive src l)
  | 41, .bytes l => some (.stateFrameReceive src l)
  | 42, .bytes l => some (.safeFrameReceive l)
  | 43, .ckpt i n c => some (.ckptReceive src i n c)
  | 44, .bytes l => some (.hbReceive src ((leNat (sub l 10 1)).testBit 4) l)
  | 45, .rcd m => some (.rcdFrameReceive src m)
  | _, _ => none

/-- The first frame of receive queue `k` is taken from it. -/
def State.rxTake (s : State) (k : Nat) : State :=
  match s.rxQueue k with
  | [] => s
  | f :: l =>
    let s := s.setBbs { s.bbs with rxq := s.bbs.rxq.set (fun _ => []) k l }
    match frameCommand f with
    | some c => s.sched 0 c
    | none => s

/-! ### Meters (R408) -/

/-- What a stream may have ahead of its class rate, in tenths of a bit: one largest frame, and an open number of bits. -/
def meterRoom : Nat := 10 * (8 * 1522 + Config.meterBurst)

/-- The class rate at port `p` in tenths of a bit per tick: 800 Mb/s on BB0 to BB3, 200 Mb/s on BB4 and BB5. -/
def meterRate (p : Nat) : Nat := if p < 4 then 32 else 8

/-- How far a stream is ahead of its class rate at port `p` now. -/
def State.meterAhead (s : State) (p k : Nat) : Nat :=
  let x := s.bbs.meter.get (fun _ => (0, 0)) (p * 512 + k)
  x.1 - (s.now - x.2) * meterRate p

/-- A frame of `size` bytes of stream `k` exceeds the class rate at port `p`. -/
def State.excess (s : State) (p k size : Nat) : Bool := decide (meterRoom < s.meterAhead p k + 80 * size)

/-- A frame of `size` bytes of stream `k` counts at port `p`. -/
def State.metered (s : State) (p k size : Nat) : State :=
  s.setBbs { s.bbs with meter := s.bbs.meter.set (fun _ => (0, 0)) (p * 512 + k) (s.meterAhead p k + 80 * size, s.now) }

/-- Every frame is stamped as it comes in, on TB_CELL in 125 ps (R43, R412). -/
def State.stampIn (s : State) (p : Nat) : State :=
  s.setBbs { s.bbs with ingress := s.bbs.ingress.set (fun _ => 0) p (s.ingressTime 0 p) }

/-- A frame that no check passes is dropped and counted, with a record (R403, R406). -/
def State.dropHdr (s : State) (p : Nat) : State := (s.bump BBS.DROP_HDR).recordStat 0x0D 0x01 p 2 (BBP.STAT p)

/-- BBS_FRAME_RECEIVE: `size`: the bytes of the frame from its addresses to its FCS, 64 to 1,522 (R403). -/
def State.receive (s : State) (p : Nat) (f : CellFrame) (rtag : Option (BitVec 16)) (size : Nat) : State :=
  let stream := f.src.toNat % 64 * 8 + f.cls.toNat % 8
  if !(s.on (BBP.CFG_EN p) && s.on (BBP.STAT_LINK p)) then s
  else
    let s := s.stampIn p
    if size < 64 ∨ 1522 < size then s.dropHdr p
    else if f.etype ≠ cellType then (s.learnMac f.mac p).deliver f
    else if s.excess p stream size then s.bump BBS.DROP_METER
    else
      let s := (s.metered p stream size).learnMac f.mac p
      if !s.headerGood f then s.dropHdr p
      else
        let (s, pass) := s.frer p f rtag
        if pass then s.deliver f else s

/-! ## Links (R407, R412, R487) -/

def State.pathLost (s : State) (p : Nat) : State :=
  let s := ((s.flag (BBP.STAT_LINK p) false).setF (BBP.STAT_SPEED_ACT p) 0).flag (BBP.STAT_PREEMPT_ACT p) false
  s.recordStat 0x0D 0x02 p 2 (BBP.STAT p)

/-- BBS_LINK_DOWN. -/
def State.portDown (s : State) (p : Nat) : State := if s.on (BBP.STAT_LINK p) then s.pathLost p else s

/-- The rates of a port (R403). -/
def portSpeeds (p : Nat) : List Nat := if p < 4 then [0, 2, 4] else if p < 6 then [0, 1, 2, 3] else [0, 4]

/-- May port `p` come up at a rate: one that it has (R403), and the one that CFG.SPEED sets, or any with auto. -/
def State.mayLink (s : State) (p speed : Nat) : Bool :=
  decide (speed ≠ 0) && (portSpeeds p).contains speed
    && (decide (s.f (BBP.CFG_SPEED p) = 0) || decide (s.f (BBP.CFG_SPEED p) = speed))

/-- BBS_LINK_UP: SVC loads the latencies of the negotiated rate. -/
def State.portUp (s : State) (p speed : Nat) (preempt : Bool) (tx rx : Word) : State :=
  if !s.mayLink p speed ∨ s.on (BBP.CFG_EN p) = false ∨ s.bbs.sfpOff.testBit p = true ∨ s.isIn [stOFF, stSLEEP] = true then s
  else
    let s := (s.raise (BBP.STAT_LINK p)).setF (BBP.STAT_SPEED_ACT p) speed
    let s := s.flag (BBP.STAT_PREEMPT_ACT p) (preempt && s.on (BBP.CFG_PREEMPT p))
    (s.setF (BBP.TXLAT_V p) tx.toNat).setF (BBP.RXLAT_V p) rx.toNat

/-- SFP_MODULE_INSERT: a module that declares more than 1.0 W stays powered down. -/
def State.sfpInsert (s : State) (p : Nat) (hot : Bool) : State :=
  let clear := s.bbs.sfpOff - (if s.bbs.sfpOff.testBit p then 2 ^ p else 0)
  if hot then (s.setBbs { s.bbs with sfpOff := clear + 2 ^ p }).pathLost p
  else s.setBbs { s.bbs with sfpOff := clear }

/-! ## Registers (R414) -/

/-- A write of BBS_Pp_CFG; GCL_EN := 1 starts the list as a commit would, GCL_EN := 0 opens every gate. -/
def State.portCfgWrite (s : State) (p : Nat) (v : Word) : State :=
  if !(portSpeeds p).contains (getBits 0 3 v) || (decide (4 ≤ p) && (v.getLsbD 4 || v.getLsbD 5)) then
    s.raise (BBP.STAT_ERR_ARG p)
  else
    let was := s.on (BBP.CFG_GCL_EN p)
    let s := s.store (BBP.CFG p) v
    if v.getLsbD 5 && !was then s.gclCommit p
    else if was && !v.getLsbD 5 then (s.setOper p none).setPend p none
    else s

/-- A write of a BBS register without a row of its own. Only the ports have an ERR_ARG: that of the internal port BBI
shows a write of BBS_RCDTO or BBS_CLASSc that is refused (DESIGN CHOICE, log entry 113). -/
def State.bbsWrite (s : State) (off : Nat) (v hw : Word) : State :=
  if off < BBP.CFG 0 then
    if off = BBS.RCDTO then
      let n := getBits 0 10 v
      if n = 0 ∨ 1000 < n then s.raise (BBP.STAT_ERR_ARG 6) else s.store off v
    else if off = BBS.GCFG then (if s.mstate = stREADY then s.store off v else s.sysIllegal)
    else if BBS.CLASS1 ≤ off ∧ off ≤ BBS.CLASS6 then
      let vid := getBits 8 12 v
      if vid = 0 ∨ vid = 4095 ∨ (off = BBS.CLASS5 ∧ v.getLsbD 7 = true) then s.raise (BBP.STAT_ERR_ARG 6)
      else if s.mstate = stREADY then s.store off v
      else s.sysIllegal
    else s.store off v hw
  else
    let p := (off - BBP.CFG 0) / 0x1000
    if off = BBP.CFG p then s.portCfgWrite p v
    else if off = BBP.STAT p then s.store off v hw
    else if off = BBP.TXLAT p ∨ off = BBP.RXLAT p then
      s.judge (decide (p = 6)) (BBP.STAT_ERR_ARG 6) (!decide (s.mstate = stREADY)) (fun u => u.store off v)
    else if off = BBP.GCLCTRL p then s.gclCtrlWrite p v
    else if 4 ≤ p then s.raiseIf ((regRow off).any (fun r => decide (r.rw ≠ 0))) (BBP.STAT_ERR_ARG p)
    else if off = BBP.GCLCYC p then
      let ct := getBits 0 22 v
      if ct < 1000 ∨ 4000000 < ct then s.raise (BBP.STAT_ERR_ARG p) else s.store off v
    else s.store off v hw

/-! ## Commands -/

def execFrameTransmit (p : Fin 7) (what : TxFrame) (s : State) : Out := ok (s.send p.val what)
def execBbsFrameReceive (p : Fin 6) (f : CellFrame) (rtag : Option (BitVec 16)) (size : Nat) (s : State) : Out :=
  ok (s.receive p.val f rtag size)
def execBbsLinkDown (p : Fin 6) (s : State) : Out := ok (s.portDown p.val)
def execBbsLinkUp (p : Fin 6) (speed : Fin 5) (preempt : Bool) (tx rx : Word) (s : State) : Out :=
  ok (s.portUp p.val speed.val preempt tx rx)
def execGclActivate (p : Fin 7) (s : State) : Out := ok (s.gclActivate p.val)
def execGateIntervalEnd (p : Fin 7) (s : State) : Out := ok (s.gateNext p.val)
def execSfpModuleInsert (p : Fin 4) (hot : Bool) (s : State) : Out := ok (s.sfpInsert p.val hot)

/-- FRER_RECOVERY_RESET: the next sequence number of the stream is accepted. -/
def execFrerRecoveryReset (src : Fin 64) (cls : Fin 8) (s : State) : Out :=
  ok (s.setBbs { s.bbs with frer := s.bbs.frer.set noFrer (src.val * 8 + cls.val) none })

/-- ADDRESS_TABLE_AGEING. -/
def execAddressTableAgeing (mac : BitVec 48) (s : State) : Out :=
  ok (s.setBbs { s.bbs with fdb := s.bbs.fdb.filter (fun x => !decide (x.1 = mac)) })

end Sys2Proof.Machine
end

