-- ==== Sys2Proof/Machine/Fov.lean ====
section
/-! DEFINITION. Managers, workers and fail-over (spec/18_manager_workers_failover.md, R415 to R430): STATE
frames, starvation, heartbeats, the witness, checkpoints, promotion. -/

namespace Sys2Proof.Machine

def State.setFov (s : State) (x : Fov) : State := { s with fov := x }
def State.hbRec (s : State) (m : Nat) : HbRec := s.fov.hb.get (fun _ => HbRec.reset) m
def State.setHb (s : State) (m : Nat) (x : HbRec) : State :=
  s.setFov { s.fov with hb := s.fov.hb.set (fun _ => HbRec.reset) m x }

/-- A record of class FOV. -/
def State.fovRecord (s : State) (code : Nat) : State := s.recordStat 0x14 code 0 2 FOV.STAT

/-- The pair units of the record. -/
def State.pairMods (s : State) : List Nat := (s.cellMods.filter (fun x => decide (x.2.1 = 3) || decide (x.2.1 = 4))).map (·.1)

/-- The unit of the record with PAIR-ACTIVE. -/
def State.firstActive (s : State) : Option Nat := (s.cellMods.find? (fun x => decide (x.2.1 = 3))).map (·.1)

/-- The unit that the highest epoch names ACTIVE. -/
def State.activeMod (s : State) : Option Nat := if s.on FOV.ACTIVE_VALID then some (s.f FOV.ACTIVE_MOD) else none

/-- The other pair unit. -/
def State.standbyMod (s : State) : Option Nat := s.pairMods.find? (fun m => !decide (s.activeMod = some m))

/-- 750 µs and a heartbeat period, in ticks. -/
def hbLimit : Nat := 187500
def hbPeriod : Nat := 62500

/-- Has something arrived within the last `lim` ticks. -/
def State.recent (s : State) (at_ : Option Nat) (lim : Nat) : Bool :=
  match at_ with
  | some t => decide (s.now < t + lim)
  | none => false

/-- No heartbeat of `m` on either path for 750 µs or more. -/
def State.silent (s : State) (m : Nat) : Bool :=
  !s.recent (s.hbRec m).atA hbLimit && !s.recent (s.hbRec m).atB hbLimit

/-! ## Workers (R418, R420) -/

/-- The ports that a STATE frame set covers. -/
def State.covered (s : State) : List Nat := (List.range 96).filter (fun p => decide (s.f (PRG.CFG_SRC p) = 2))

/-- The bytes of a joint in a STATE frame. -/
def State.stateBytes (s : State) (p : Nat) : List Byte :=
  let valid := s.on (PFB.LAT1_VALID p)
  let sv := s.on (PFB.LAT1_SPEED_VALID p)
  packBytes [(p, 1), (valid.toNat + 2 * sv.toNat, 1), (0, 2), (bitsOf 64 (s.sampledPos p), 8), ((s.rd (PFB.LAT4 p)).toNat, 4)]

/-- STATE_FRAME_SEND: one or two fragments of at most 90 joints. -/
def State.stateSend (s : State) : State :=
  let c := s.f FOV.CFG_SSEL
  let t0 := s.lastEvent c
  let ports := s.covered
  let parts := (chunks 90 2 ports).filter (fun l => !l.isEmpty)
  if !s.isWorker then s
  else parts.zipIdx.foldl (fun (u : State) e =>
    u.sendFrame 2 0xFF (.bytes (packBytes [(t0.toNat, 4), ((u.rd PLC.PLAN).toNat, 4), (e.1.length, 1), (e.2, 1),
      (parts.length, 1), ((u.on (TIMEEXT.STATUS_SYNC 0)).toNat, 1)] ++ e.1.flatMap u.stateBytes))) s

/-- A firing of comparator `c` on a worker: the set leaves once the last covered port has strobed. -/
def State.stateFire (s : State) (c : Nat) : State :=
  if s.isWorker && decide (c = s.f FOV.CFG_SSEL) then
    s.resched (s.covered.foldl (fun (m : Nat) p => max m (32 * (p + 1))) 0) .stateFrameSend
  else s

/-- STARVE_SS1_TIMEOUT: generator `n` has had STARVED for 100 ms without a knot; FOV_SS1 is requested and recorded
unless it is already. -/
def State.starveTimeout (s : State) (n : Nat) : State :=
  let role := s.isWorker || s.isManager || s.isActive
  if role && decide (s.f (PRG.CFG_SRC n) = 2) && s.on (PRG.STAT_STARVED n) && !s.on FOV.STAT_SS1_REQ then
    ((s.raise SAF.REQ_FOV_SS1).raise FOV.STAT_SS1_REQ).fovRecord 0x04
  else s

/-! ## Heartbeats (R421 to R424) -/

/-- A standby could take over (R422). -/
def State.takeoverOk (s : State) : Bool := s.isStandby && decide (s.mstate = stRUN) && s.on (TIMEEXT.STATUS_SYNC 0)

/-- An active unit has failed (R423): it has left RUN, its planning cycle has stopped, or Saffron reports
a class A fault of scope ALL. -/
def State.ownFault (s : State) : Bool :=
  s.isActive && ((s.fov.ran && !decide (s.mstate = stRUN))
    || (decide (s.mstate = stRUN) && !(s.on PLC.CFG_EN && s.on (TCMP.CTRL_EN (s.f PLC.CFG_TSEL)))) || s.faultAll)

/-- PART as a heartbeat shows it. -/
def State.hbPart (s : State) : Nat := if s.isWitness then 3 else s.part

/-- The payload of a heartbeat on path A (`false`) or B. -/
def State.hbBytes (s : State) (path : Bool) : List Byte :=
  let flags := s.ownFault.toNat + 2 * (s.on (TIMEEXT.STATUS_SYNC 0)).toNat + 4 * s.takeoverOk.toNat
    + 8 * (s.isWitness && s.fov.promote).toNat + 16 * path.toNat
  packBytes [(s.fov.hbSeq.toNat, 4), ((s.rd FOV.EPOCH).toNat, 4), ((s.activeMod).getD 0xFF, 1), (s.hbPart, 1), (flags, 1), (0, 1),
    ((s.rd FOV.CKPT).toNat, 4), (0, 32)]

/-- A heartbeat leaves on both paths; a fenced unit that shows TAKEOVER_OK is a standby again (R429). -/
def State.hbSend (s : State) : State :=
  let t := s.sendHb (s.hbBytes false) (s.hbBytes true)
  let t := t.setFov { t.fov with hbSeq := t.fov.hbSeq + 1#32 }
  if s.takeoverOk && decide (s.part = 4) then t.setF FOV.STAT_PART 2 else t

/-- Redundancy is gone, with one record for each declared failure. -/
def State.notRedundant (s : State) (m : Nat) : State :=
  let s := s.flag FOV.STAT_REDUNDANT false
  let x := s.hbRec m
  if x.failed then s else (s.setHb m { x with failed := true }).fovRecord 0x02

/-- The witness promotes the standby `m`. -/
def State.promoteUnit (s : State) (m : Nat) : State :=
  let s := s.wr FOV.EPOCH (s.rd FOV.EPOCH + 1#32)
  let s := ((s.setF FOV.ACTIVE_MOD m).raise FOV.ACTIVE_VALID).bump FOV.CNT_PROMOTIONS
  ((s.flag FOV.STAT_REDUNDANT false).setFov { s.fov with promote := true }).hbSend

/-- The witness declares pair unit `m` failed. -/
def State.declareFailed (s : State) (m : Nat) : State :=
  if s.activeMod = some m then
    match s.standbyMod with
    | some b => if (s.hbRec b).flags.testBit 2 then s.promoteUnit b else s.notRedundant m
    | none => s.notRedundant m
  else s.notRedundant m

/-- The witness opens epoch 1 where no epoch has been seen. -/
def State.openEpoch (s : State) : State :=
  match decide (s.rd FOV.EPOCH = 0#32), s.firstActive with
  | true, some m => ((s.wr FOV.EPOCH 1#32).setF FOV.ACTIVE_MOD m).raise FOV.ACTIVE_VALID
  | _, _ => s

/-- The units whose heartbeats a module watches. -/
def State.watched (s : State) : List Nat := if s.isWitness then s.pairMods else if s.isPair then s.witnessMod.toList else []

/-- Heartbeat periods without an HB, per path. -/
def State.countMisses (s : State) : State :=
  s.watched.foldl (fun (u : State) m =>
    let x := u.hbRec m
    let u := if u.recent x.atA (hbPeriod + 1) then u else u.bump FOV.MISS_MISS_A
    if u.recent x.atB (hbPeriod + 1) then u else u.bump FOV.MISS_MISS_B) s

/-- A firing of the heartbeat comparator. -/
def State.hbFire (s : State) : State :=
  if !(s.isPair || s.isWitness) then s
  else
    let s := s.countMisses
    let s := if s.isWitness then
        s.openEpoch.pairMods.foldl (fun (u : State) m => if u.silent m then u.declareFailed m else u) s.openEpoch
      else s
    s.hbSend

/-- A pair unit acts as ACTIVE from now on; `promoted`: it takes over from another unit (R427). -/
def State.becomeActive (s : State) (promoted : Bool) : State :=
  let s := s.setF FOV.STAT_PART 1
  if promoted then (s.raise FOV.STAT_PROMOTED).setFov { s.fov with promote := true, takeover := true, load := none } else s

/-- A pair unit is fenced (R422). -/
def State.fence (s : State) : State :=
  let s := if s.plc.phase = 0 then s else s.planAbandon
  ((s.setF FOV.STAT_PART 4).raise FOV.STAT_FENCED).fovRecord 0x01

/-- A higher epoch is obeyed. Every epoch above the first comes from a promotion, of the unit that it names, with PROMOTE
in this heartbeat or not (R422, R423). -/
def State.adopt (s : State) (epoch : Word) (active : Nat) (promote : Bool) : State :=
  if epoch.toNat ≤ (s.rd FOV.EPOCH).toNat then s
  else
    let s := if promote || decide (s.rd FOV.EPOCH ≠ 0#32) then s.bump FOV.CNT_PROMOTIONS else s
    let s := ((s.wr FOV.EPOCH epoch).setF FOV.ACTIVE_MOD active).flag FOV.ACTIVE_VALID (decide (active < 64))
    if !s.isPair then s
    else if s.activeMod = some s.ownMod then (if s.isActive then s else s.becomeActive (promote || decide (1 < epoch.toNat)))
    else if s.isActive then s.fence
    else s

/-- The witness takes a heartbeat of pair unit `src`. -/
def State.witnessTakes (s : State) (src : Nat) : State :=
  let x := s.hbRec src
  let done := s.fov.promote && decide (s.activeMod = some src) && decide (x.epoch = s.rd FOV.EPOCH)
  let s := if done then s.setFov { s.fov with promote := false } else s
  if x.flags.testBit 0 then s.declareFailed src
  else
    s.setHb src { x with failed := false }

/-- A heartbeat of the witness is waited for anew; a pair unit has its witness back (R424). -/
def State.witnessHeard (s : State) : State :=
  (s.resched hbLimit .witnessLost).flag FOV.STAT_WIT_LOST (!s.isPair && s.on FOV.STAT_WIT_LOST)

/-- The standby is ready: its last heartbeat shows TAKEOVER_OK and is not too old, nor has it been declared failed. -/
def State.standbyReady (s : State) : Bool :=
  match s.standbyMod with
  | some m => if m = s.ownMod then s.takeoverOk
    else (s.hbRec m).flags.testBit 2 && !s.silent m && !(s.hbRec m).failed
  | none => false

/-- The witness is present, and has not declared the active failed without promoting (R423). -/
def State.witnessThere (s : State) : Bool :=
  match s.witnessMod with
  | some w => if w = s.ownMod then (match s.activeMod with | some a => !(s.hbRec a).failed | none => true) else !s.silent w
  | none => false

/-- REDUNDANT: standby ready and witness present, at every module that hears the heartbeats (R430). -/
def State.redundancy (s : State) : State := s.flag FOV.STAT_REDUNDANT (s.standbyReady && s.witnessThere)

/-- HB_RECEIVE. -/
def State.hbReceive (s : State) (src : Nat) (pathB : Bool) (l : List Byte) : State :=
  if !(s.pairMods.contains src || decide (s.witnessMod = some src)) ∨ src = s.ownMod then s
  else
    let epoch := BitVec.ofNat 32 (leNat (sub l 4 4))
    let active := leNat (sub l 8 1)
    let flags := leNat (sub l 10 1)
    let x := s.hbRec src
    let x : HbRec := { x with
      atA := if pathB then x.atA else some s.now
      atB := if pathB then some s.now else x.atB
      epoch := epoch, active := active, part := leNat (sub l 9 1), flags := flags
      ckpt := BitVec.ofNat 32 (leNat (sub l 12 4)) }
    let s := (s.setHb src x).adopt epoch active (flags.testBit 3)
    let s := if s.isWitness && s.pairMods.contains src then s.witnessTakes src else s
    (if s.witnessMod = some src then s.witnessHeard else s).redundancy

/-- WITNESS_LOST: the witness is no longer present; a pair unit shows it and makes a record (R424). -/
def State.witnessGone (s : State) : State :=
  match s.witnessMod with
  | some w =>
    if !s.silent w || decide (w = s.ownMod) then s
    else
      let s := s.flag FOV.STAT_REDUNDANT false
      if s.isPair && !s.on FOV.STAT_WIT_LOST then (s.raise FOV.STAT_WIT_LOST).fovRecord 0x03 else s
  | none => s

/-! ## Checkpoints (R426, R427) -/

/-- CKPT_RECEIVE: the witness keeps the last 16 complete checkpoints. -/
def State.ckptReceive (s : State) (src frag nfrag : Nat) (c : Ckpt) : State :=
  if !s.isWitness || !s.pairMods.contains src then s
  else
    let got := match s.fov.coming with
      | some (d, n, g) => if d = c ∧ n = nfrag then (if g.contains frag then g else frag :: g) else [frag]
      | none => [frag]
    if got.length < nfrag then s.setFov { s.fov with coming := some (c, nfrag, got) }
    else (s.setFov { s.fov with coming := none, ckpts := (c :: s.fov.ckpts).take 16 }).wr FOV.CKPT c.plan

/-- CKPT_FETCH_DONE: the new active has its checkpoints, newest first, and submits the LOAD_STRUCT whose
descriptor its planner holds at `ofs`; it starts cold: it holds no iterate of its predecessor (R427). -/
def State.ckptFetched (s : State) (l : List Ckpt) (ofs : Word) : State :=
  if !(s.isActive && s.fov.promote) then s
  else
    let l := l.take 16
    let s := s.setFov { s.fov with promote := false, takeover := true, load := l.head?.map (fun _ => ofs.toNat), ckpts := l }
    let s : State := { s with nmg := { s.nmg with warm := none, invalid := false } }
    match l with
    | [] => s
    | c :: _ =>
      let plans := l.map fun k => ⟨k.plan, k.joints, 0⟩
      let s := s.setPlc { s.plc with plans := plans, next := nextPlan c.plan, used := 0, sol := none, carry := false }
      let s := ((s.setF PLC.STAT_MISS_RUN c.missRun).wr PLC.PLAN c.plan).planSls c.slsReq
      s.nmgSubmit ofs .none

/-! ## Registers (R430) -/

/-- A write of FOV_CFG or FOV_STAT. -/
def State.fovWrite (s : State) (off : Nat) (v hw : Word) : State :=
  if off = FOV.CFG then
    s.judge (decide (getBits 0 7 v = 0) || decide (getBits 7 7 v = 0)) FOV.STAT_ERR_ARG (!s.isIn [stREADY]) (fun u => u.store off v)
  else s.store off v hw

/-! ## Commands -/

def execStateFrameSend (s : State) : Out := ok s.stateSend
def execStarveSs1Timeout (n : Fin 128) (s : State) : Out := ok (s.starveTimeout n.val)
def execHbReceive (src : Fin 64) (pathB : Bool) (p : List Byte) (s : State) : Out := ok (s.hbReceive src.val pathB p)
def execWitnessLost (s : State) : Out := ok s.witnessGone
def execCkptReceive (src : Fin 64) (frag nfrag : Nat) (ck : Ckpt) (s : State) : Out := ok (s.ckptReceive src.val frag nfrag ck)
def execCkptFetchDone (l : List Ckpt) (ofs : Word) (s : State) : Out := ok (s.ckptFetched l ofs)

end Sys2Proof.Machine
end

