-- ==== Sys2Proof/Machine/Strobe.lean ====
section
/-! DEFINITION. What a firing starts across the blocks: a comparator of cell time (R37, with R125, R144,
R150, R301, R418, R421) and a trigger compare of a drive port (R68, R69, with R94, R116, R280, R304). -/

namespace Sys2Proof.Machine

/-- TCMP0 opens a frame: the generators' outputs become set-points, the Loop Engine checks and counts the
frame, the Capture Engine takes its sample, modulator clocks that wait for it start. -/
def State.frameOpen (s : State) : State :=
  let s := (List.range 128).foldl State.pgHold s
  let s := (List.range 96).foldl State.stillTimer s
  s.dsckFrame.lpeFrame.capSample

/-- A comparator fires, with what it starts in the other blocks. -/
def State.fire (s : State) (c : Nat) (sw : Option Word) (dis : Bool) : State :=
  let s := if c = 0 then s.frameOpen else s
  let s := (s.tcmpFire c sw dis).stateFire c
  if s.hbDue then { s.hbFire with hbDue := false } else s

/-- P##_TRG rises and falls TRGW ticks after its last rise. -/
def State.trgPulse (s : State) (p : Nat) : State :=
  let w := s.f (DPW.PULSE_TRGW p)
  (s.setF (DPW.PINS_TRG p) 1).resched (if w = 0 then 1 else w) (.trgPulseEnd (Fin.ofNat 96 p))

/-- A PFB strobe; a second one in the same tick only latches again. -/
def State.pfbStrobeOnce (s : State) (p : Nat) : State :=
  if (s.pfbU p).strobed = some s.now then s.pfbLatch p else s.pfbStrobe p

/-- Trigger compare `n` of port `p` has reached its position `lead` × 125 ps before this tick; `dest`: CAQ, PFB, CAP and PAD as they stood at
the start of its reference interval. -/
def State.trgc (s : State) (p n lead : Nat) (dest : BitVec 4) : State :=
  let ns := if lead = 0 then s.stampNs 0 else s.ns 0
  let wc := if lead = 0 then s.stampWc 0 else s.wc 0
  let s := if dest.getLsbD 0 then s.caqStrobe p else s
  let s := if dest.getLsbD 1 then (s.pfbStrobeOnce p).planStrobe p else s
  let s := if dest.getLsbD 2 then s.sched 0 (.capTrigger (.trgc (Fin.ofNat 96 p)) ns (Fin.ofNat 32 (32 - lead)) (BitVec.ofNat 8 wc)) else s
  let s := if dest.getLsbD 3 then s.trgPulse p else s
  if n = 0 then s.doorsRun p else s

/-- TCMP_FIRE: nothing happens unless the comparator is due. -/
def execTcmpFire (c : Fin 128) (sw : Option Word) (dis : Bool) (s : State) : Out :=
  ok (if s.tcmpDue c.val then s.fire c.val sw dis else s)

/-- TRGC_FIRE. -/
def execTrgcFire (p : Fin 96) (n : Fin 4) (lead : Fin 32) (dest : BitVec 4) (s : State) : Out :=
  ok (s.trgc p.val n.val lead.val dest)

end Sys2Proof.Machine
end

