-- ==== Sys2Proof/Machine/Bus.lean ====
section
/-! DEFINITION. Register space (R3 to R6, R24, R25, R35, R390, R391): which access is answered, what a write
does by the register it meets, what a read gives and snapshots, and the commands that are a write or a read of
one register. -/

namespace Sys2Proof.Machine

/-! ## Who is answered (R3, R20, R24, R25, R391) -/

def windowLo : Nat := 0x03000000
def bar0Size : Nat := 0x04000000
def atWindow (off : Nat) : Bool := decide (windowLo ≤ off ∧ off < bar0Size)
def inSaf (off : Nat) : Bool := decide (0x01C00000 ≤ off ∧ off < 0x01E00000)
def inSysPws (off : Nat) : Bool := decide (off < 0x00100000) || decide (0x02200000 ≤ off ∧ off < 0x02300000)
/-- What answers for the identity service of R457, beside SYS and PWS. -/
def inRom (off : Nat) : Bool :=
  atWindow off || decide (RP.SQBASE_L 0 ≤ off ∧ off < RP.SQBASE_L 1) || decide (MSIX.ADDR_L 0 ≤ off ∧ off < MSIXP.PBA 0)

/-- Does BAR0 hold anything at an aligned offset (R24). -/
def hasReg (off : Nat) : Bool := decide (off % 4 = 0) && (atWindow off || (regRow off).isSome)

/-- Does the module answer master `m` at `off` in its present state (R20, R391, R457). -/
def State.reach (s : State) (m : Sys2Proof.Master) (off : Nat) : Bool :=
  !s.isIn [stOFF, stSLEEP]
    && (decide (m ≠ .host) || inSysPws off || (if s.romService then inRom off else s.pws.readyOnce))

/-- Who may not write where: beside the host only an engine or the door controller writes the SAF pages (R277), and
SAFC's way to the feedback units is read-only (R118). -/
def noWrite (m : Sys2Proof.Master) (off : Nat) : Bool :=
  (decide (m = .bbone) && inSaf off) || (decide (m = .eng 15) && decide (PFB.CFG 0 ≤ off ∧ off < PFB.CFG 96))

/-- A write of master `m` at `off`, which the map has, with the effect `f`. -/
def State.busW (s : State) (m : Sys2Proof.Master) (off : Nat) (f : State → State) : State :=
  if s.isIn [stOFF, stSLEEP] then s.answer .error
  else if decide (m = .host) && inSaf off then (s.record 0x15 0x02 0 2 0#128).answer .error
  else if noWrite m off then s.answer .error
  else if s.reach m off then f (s.answer .done)
  else s.answer .error

/-! ## Writes -/

def State.tbuWrite (s : State) (m : Sys2Proof.Master) (off : Nat) (v hw : Word) : State :=
  let r := off - TB.NS 0
  if r < 0x100 then
    let b := r / 0x40
    match r % 0x40 with
    | 0x08 => s.rateWrite b v
    | 0x0C => if v.getLsbD 0 then s.stepWrite m b else s
    | 0x10 => s.store off v hw
    | 0x14 => s.stepvWrite b v
    | _ => s
  else if off = REFOUT.REG then s.refoutWrite v
  else if r < 0x1000 then
    let c := (r - 0x800) / 0x10
    match r % 0x10 with
    | 0x0 => s.tcmpValueWrite c v
    | 0x4 => s.tcmpPeriodWrite c v
    | 0x8 => s.tcmpCtrlWrite c v
    | _ => s.tcmpStatWrite c v hw
  else s.timeextWrite m ((r - 0x1000) / 0x20) off v

def State.clvRegWrite (s : State) (m : Sys2Proof.Master) (off : Nat) (v hw : Word) : State :=
  if CLVT.CFG 0 ≤ off then
    let t := (off - CLVT.CFG 0) / 0x20
    (s.eccGone 5 t (t + 1)).threadWrite t ((off - CLVT.CFG 0) % 0x20) v hw
  else s.clvWrite m off v hw

def State.hqRegWrite (s : State) (off : Nat) (v hw : Word) : State :=
  if RP.SQBASE_L 0 ≤ off ∧ off < RP.SQBASE_L 16 then
    let r := (off - RP.SQBASE_L 0) / 0x40
    if off = RP.CFG r then s.ringCfgWrite r v
    else if off = RP.SQDB r then s.sqDoorbell r v
    else if off = RP.CQDB r then s.cqDoorbell r v
    else s.hqWrite off v hw
  else s.hqWrite off v hw

def State.dpwWrite (s : State) (off : Nat) (v hw : Word) : State :=
  let p := (off - DPW.CFG 0) / 0x400
  let r := (off - DPW.CFG 0) % 0x400
  if r = 0x000 then s.dpwCfgStore p v
  else if r = 0x004 then (if v.getLsbD 0 then s.commit p else s)
  else if r = 0x008 then s.dpwStatWrite p v hw
  else if r = 0x00C then s.periodWrite p v
  else if r = 0x018 then s.pulseWrite p v
  else if 0x020 ≤ r ∧ r < 0x030 then s.dtWrite p ((r - 0x020) / 4) v
  else if 0x030 ≤ r ∧ r < 0x040 then s.cmpWrite p ((r - 0x030) / 4) v
  else if 0x050 ≤ r ∧ r < 0x060 then s.trgcWrite p ((r - 0x050) / 4) v
  else if r = 0x064 then s.brkthWrite p v
  else if r = 0x068 then s.bridgeWrite p v
  else s

def State.trfWrite (s : State) (off : Nat) (v hw : Word) : State :=
  if off < TRF.CFG 0 then
    if off = TRFG.GCFG then s.gcfgWrite v
    else if TRFG.SWTRIP 0 ≤ off ∧ off < TRFG.SWTRIP 3 then s.swTripWrite ((off - TRFG.SWTRIP 0) / 4) v
    else s.store off v hw
  else
    let p := (off - TRF.CFG 0) / 0x20
    match (off - TRF.CFG 0) % 0x20 with
    | 0x00 => s.trfCfgStore p v
    | 0x04 => s.safeWrite p v
    | 0x08 => s.latchWrite p v hw
    | _ => s

def State.caqWrite (s : State) (off : Nat) (v hw : Word) : State :=
  if off < CAQ.CFG 0 then
    if off % 0x40 = 0 then s.caqGroupStore ((off - CAQG.CFG 0) / 0x40) v else s.store off v hw
  else if off % 0x40 = 0 then s.caqPortStore ((off - CAQ.CFG 0) / 0x40) v
  else if [0x04, 0x08, 0x0C, 0x10].contains (off % 0x40) then s.caqLateWrite off v hw
  else s.store off v hw

def State.pfbWrite (s : State) (off : Nat) (v hw : Word) : State :=
  let p := (off - PFB.CFG 0) / 0x100
  match (off - PFB.CFG 0) % 0x100 with
  | 0x00 => s.pfbCfgStore p false v
  | 0x04 => s.pfbCtrlWrite p v
  | 0x08 => s.pfbStatWrite p v hw
  | 0x14 => s.store off v
  | 0x18 => s.pfbRegWrite p off v
  | 0x1C => s.pfbRegWrite p off v
  | 0x20 => s.pfbRegWrite p off v
  | 0x24 => s.pfbRegWrite p off v
  | 0x2C => s.pfbRegWrite p off v
  | 0x58 => s.pfbCfgStore p true v
  | 0x5C => s.pfbRegWrite p off v
  | 0x60 => s.store off v hw
  | _ => s

def State.lpeWrite (s : State) (off : Nat) (v hw : Word) : State :=
  if LPEG.GCFG ≤ off then (if off = LPEG.GCFG then s.lpeGcfgWrite v else s.store off v hw)
  else
    let k := (off - LPE.CFG 0) / 0x200
    let r := (off - LPE.CFG 0) % 0x200
    if r = 0x000 then s.lpeCfgWrite k v
    else if r = 0x008 then s.lpeStatWrite k v hw
    else if r = 0x018 then s.hookWrite k v
    else if r = 0x024 ∨ r = 0x02C ∨ r = 0x034 then s.hookCommit k ((r - 0x024) / 8) v
    else if 0x100 ≤ r then s.bankWrite k ((r - 0x100) / 0x80) ((r - 0x100) % 0x80 / 4) v false
    else s.store off v hw

/-- Which half of which 64-bit register stands at a PRG offset (R175). -/
def pgWideAt (r : Nat) : Option (PgWide × Bool) :=
  match r with
  | 0x030 => some (.tgt, false)
  | 0x034 => some (.tgt, true)
  | 0x038 => some (.plo, false)
  | 0x03C => some (.plo, true)
  | 0x040 => some (.phi, false)
  | 0x044 => some (.phi, true)
  | 0x048 => some (.pos, false)
  | 0x04C => some (.pos, true)
  | 0x068 => some (.gofs, false)
  | 0x06C => some (.gofs, true)
  | 0x070 => some (.mchg, false)
  | 0x074 => some (.mchg, true)
  | _ => none

def State.prgRegWrite (s : State) (m : Sys2Proof.Master) (off : Nat) (v hw : Word) : State :=
  let n := (off - PRG.CFG 0) / 0x100
  let r := (off - PRG.CFG 0) % 0x100
  if r = 0x000 then s.prgCfgWrite n v
  else if r = 0x004 then s.prgCtrl m n v
  else if r = 0x0DC then s.knotPush m n v
  else if 0x0C0 ≤ r then s.bankWr m off v
  else
    match pgWideAt r with
    | some (w, hi) => s.pgWideWrite m n w hi v
    | none => s.prgWrite n off v hw

/-- SDS_SDk_IRQSET raises pending bits at once (R381, R388). -/
def State.irqSet (s : State) (k : Nat) (v : Word) : State :=
  s.setF (SDS.IRQ_PEND k) ((s.rd (SDS.IRQ k) ||| v).toNat)

def State.sdsWrite (s : State) (off : Nat) (v hw : Word) : State :=
  let k := (off - SDS.STAT 0) / 0x100
  if off = SDS.IRQSET k then s.irqSet k v
  else if off = SDS.STAT k then
    let s := s.store off v hw
    let s := if v.getLsbD 0 && !hw.getLsbD 0 then s.setF (SDS.CNT_ASAT_CNT k) 0 else s
    if v.getLsbD 1 && !hw.getLsbD 1 then s.setF (SDS.CNT_MSAT_CNT k) 0 else s
  else s.store off v hw

def State.pwsWrite (s : State) (m : Sys2Proof.Master) (off : Nat) (v hw : Word) : State :=
  if off = PWS.WDKICK then s.wdtKick m v
  else if PWS.EWD 0 ≤ off then s.judge false PWS.STAT_KICK_ERR (!s.isIn [stREADY]) (fun u => u.store off v hw)
  else s.store off v hw

/-- What a write does at `off`, where the map has a register or the window. -/
def State.writeReg (s : State) (m : Sys2Proof.Master) (off : Nat) (v hw : Word) : State :=
  if atWindow off then s.put .shared (off - windowLo) 4 v.toNat
  else if off < 0x00100000 then s
  else if off < 0x00200000 then s.tbuWrite m off v hw
  else if off < 0x00300000 then s.clvRegWrite m off v hw
  else if off < 0x00400000 then s.hqRegWrite off v hw
  else if off < 0x00500000 then s.bbsWrite off v hw
  else if off < 0x00900000 then s.dpwWrite off v hw
  else if off < 0x00A00000 then s.trfWrite off v hw
  else if off < 0x00B00000 then s.caqWrite off v hw
  else if off < 0x00C00000 then s.pfbWrite off v hw
  else if off < 0x00D00000 then s.lpeWrite off v hw
  else if off < 0x00E00000 then s.prgRegWrite m off v hw
  else if off < 0x01000000 then s.capWrite off v hw
  else if off < 0x01400000 then s.nmgWrite off v hw
  else if off < 0x01800000 then s.sdsWrite off v hw
  else if off < 0x01C00000 then s.plcWrite off v hw
  else if off < 0x01E00000 then s.safWrite off v
  else if off < 0x01E10000 then s.fioWrite off v hw
  else if off < 0x02000000 then s.doorWrite off v hw
  else if off < 0x02100000 then s.ansWrite m off v hw
  else if off < 0x02200000 then s.fovWrite off v hw
  else s.pwsWrite m off v hw

/-- A 32-bit write of master `m` in register space: an error response where R3 or R24 gives one. -/
def State.busWrite (s : State) (m : Sys2Proof.Master) (off : Nat) (v hw : Word) : State :=
  if (decide (m = .host) && inSaf off) || hasReg off then s.busW m off (fun t => t.writeReg m off v hw) else s.answer .error

/-! ## The other BARs (R390, R391) -/

/-- Where the overflow queues stand in the LPDDR5X (R327). -/
def ddrTop : Nat := 0x200000000 - 0x800000

/-- A host write of `n` bytes in BAR2. -/
def State.bar2Write (s : State) (o n : Nat) (v : Word) : State :=
  let a := s.f ⟨HQ.BAR2BASE, 0, 5⟩ * 2 ^ 28 + o
  if !s.pws.readyOnce || s.romService || s.pws.stopped || s.isIn [stOFF, stSLEEP] || decide (ddrTop < a + n) then s.answer .error
  else (s.put .ddr a n v.toNat).answer .done

/-- A host write in BAR4 is discarded. -/
def State.bar4Write (s : State) : State :=
  if !s.pws.readyOnce || s.romService || s.isIn [stOFF, stSLEEP] then s.answer .error
  else (s.raise HQ.GSTAT_BAR4_WR).answer .done

/-- What a host read of `n` bytes in BAR2 gives; none: an error response (R390, R391, R462). -/
def State.bar2Read (s : State) (o n : Nat) : Option (List Byte) :=
  let a := s.f ⟨HQ.BAR2BASE, 0, 5⟩ * 2 ^ 28 + o
  if !s.pws.readyOnce || s.romService || s.pws.stopped || s.isIn [stOFF, stSLEEP] || decide (ddrTop < a + n)
      || s.eccIn .ddr a n true then none
  else some (s.getBytes .ddr a n)

/-- What a host read of `n` bytes in BAR4, the capture ring, gives; none: an error response (R310, R390, R391). -/
def State.bar4Read (s : State) (o n : Nat) : Option (List Byte) :=
  if !s.pws.readyOnce || s.romService || s.isIn [stOFF, stSLEEP] || s.eccIn .capture (o % capRing) n true then none
  else some ((List.range n).map (fun i => s.byte .capture ((o + i) % capRing)))

/-! ## Reads -/

/-- Is the register at `off` read from the copy of the reading master (R35, R97, R116, R157, R175, R336,
R439, R440, R476). -/
def banked (off : Nat) : Bool :=
  let pf := off - PFB.CFG 0
  let pg := off - PRG.CFG 0
  (decide (TB.NS 0 ≤ off ∧ off < TB.NS 4) && decide (off % 0x40 = 0x04))
    || (decide (CAQ.CFG 0 ≤ off ∧ off < CAQ.CFG 96) && [0x1C, 0x20, 0x24].contains (off % 0x40))
    || (decide (PFB.CFG 0 ≤ off ∧ off < PFB.CFG 96)
        && [0x10, 0x30, 0x34, 0x38, 0x44, 0x48, 0x4C, 0x50, 0x54].contains (pf % 0x100))
    || (decide (PRG.CFG 0 ≤ off ∧ off < PRG.CFG 128)
        && [0x34, 0x3C, 0x44, 0x4C, 0x50, 0x54, 0x6C, 0x74].contains (pg % 0x100))
    || decide (off = CLV.POST_VAL) || decide (ANS.POSTP 0 ≤ off ∧ off ≤ ANS.POSTSRC)
    || decide (off = ANS.HEAD_H) || decide (off = ANS.TAIL_H) || decide (off = PWS.SLEEP_H)

/-- What a read of `off` takes into the copies of the reading master. -/
def snapOffs (off : Nat) : List Nat :=
  if CAQ.CFG 0 ≤ off ∧ off < CAQ.CFG 96 then (if off % 0x40 = 0x18 then [off + 4, off + 8, off + 12] else [])
  else if PFB.CFG 0 ≤ off ∧ off < PFB.CFG 96 then
    match off % 0x100 with
    | 0x0C => [off + 0x04, off + 0x24, off + 0x28, off + 0x2C]
    | 0x40 => [off + 4, off + 8, off + 12, off + 16, off + 20]
    | _ => []
  else if PRG.CFG 0 ≤ off ∧ off < PRG.CFG 128 then
    match pgWideAt (off % 0x100) with
    | some (.pos, false) => [off + 4, off + 8, off + 12]
    | some (_, false) => [off + 4]
    | _ => []
  else if off = ANS.HEAD_L ∨ off = ANS.TAIL_L ∨ off = PWS.SLEEP_L then [off + 4]
  else []

/-- Registers that follow something outside the register file. -/
def State.refresh (s : State) (off : Nat) : State :=
  if off = PWS.SLEEP_L then (s.wrN PWS.SLEEP_L s.sleepCount).setF PWS.SLEEP_H_V (s.sleepCount / 2 ^ 32)
  else if off = PWS.WDSTAT then
    match s.agenda.find? (fun d => decide (d.ev = .cmd .moduleWdtExpiry)) with
    | some d => s.setF PWS.WDSTAT_LEFT ((d.t - s.now) / 250)
    | none => s
  else if TRFG.FORCED 0 ≤ off ∧ off < TRFG.FORCED 3 then s.wrN off (s.forcedBits ((off - TRFG.FORCED 0) / 4))
  else if DPW.CFG 0 ≤ off ∧ off < DPW.CFG 96 then
    let p := (off - DPW.CFG 0) / 0x400
    if off = DPW.STAT p then s.flag (DPW.STAT_FORCED p) (s.forced p)
    else if off = DPW.PINS p then (s.wr off (s.pinsWord p)).tickFree
    else if off = DPW.PERIOD p then s.wr off (s.periodWord p)
    else s
  else if LPE.CFG 0 ≤ off ∧ off < LPE.CFG 96 then
    let k := (off - LPE.CFG 0) / 0x200
    if off = LPE.INTC k ∨ off = LPE.INTV k then s.slotInts k else s
  else if CLVT.CTRL 0 ≤ off ∧ off < CLVT.CTRL 1024 ∧ off = CLVT.RUN ((off - CLVT.CTRL 0) / 0x20) then
    let t := (off - CLVT.CTRL 0) / 0x20
    match s.engineOf t with
    | some e => s.setF (CLVT.RUN_V t) ((s.account e t).f (CLVT.RUN_V t))
    | none => s
  else if SYS.KEYID 0 ≤ off ∧ off < SYS.KEYID 5 then
    s.wrN off (leNat (sub deviceCert (24 + (off - SYS.KEYID 0)) 4))
  else s

/-- What the register at `off` reads as now: write-only bits read 0 (R4). -/
def State.liveWord (s : State) (off : Nat) : Word :=
  if atWindow off then BitVec.ofNat 32 (s.load .shared (off - windowLo) 4)
  else
    let t := s.refresh off
    match regRow off with
    | some r => t.rd off &&& ~~~(BitVec.ofNat 32 r.wo)
    | none => t.rd off

/-- A read of TBU_TBb_NS: WCS of the same tick (R35). -/
def State.latchWc (s : State) (m : Sys2Proof.Master) (b : Nat) : State :=
  s.bankWr m (TB.WCS b) (BitVec.ofNat 32 (s.wc b))

/-- What a read takes along. -/
def State.readTakes (s : State) (m : Sys2Proof.Master) (off : Nat) : State :=
  if TB.NS 0 ≤ off ∧ off < TB.NS 4 ∧ off % 0x40 = 0 then s.latchWc m ((off - TB.NS 0) / 0x40)
  else if off = PWS.SLEEP_L then (s.refresh off).snapshot m (snapOffs off)
  else s.snapshot m (snapOffs off)

/-- The word that a read of `off` by master `m` gives. -/
def State.readWord (s : State) (m : Sys2Proof.Master) (off : Nat) : Word :=
  if banked off then s.bankRd m off else s.liveWord off

/-- A read of the window or of a thread's registers meets an error that ECC cannot correct (R26). It gets an error
response (log entry 124, DESIGN CHOICE). -/
def State.readBad (s : State) (off : Nat) : Bool :=
  if atWindow off then s.eccIn .shared (off - windowLo) 4 true
  else decide (CLVT.CFG 0 ≤ off ∧ off < CLVT.CFG 1024) && s.eccAt 5 ((off - CLVT.CFG 0) / 0x20)

/-- Does a 32-bit read of master `m` at `off` get its data. -/
def State.readable (s : State) (m : Sys2Proof.Master) (off : Nat) : Bool := hasReg off && s.reach m off && !s.readBad off

/-- A 32-bit read of master `m` in register space. -/
def State.busRead (s : State) (m : Sys2Proof.Master) (off : Nat) : State :=
  if s.reach m off && !s.readBad off then (s.readTakes m off).answer (.data (s.readWord m off)) else s.answer .error

/-! ## Commands: any register, and REG_READ and REG_WRITE of a ring (R401) -/

/-- REGISTER_WRITE. Offsets from 0x1000_0000 stand for BAR2 and from 0x2000_0000 for BAR4 of the host (log
entry 20). -/
def execRegisterWrite (m : Sys2Proof.Master) (off size : Nat) (v hw : Word) (s : State) : Out :=
  ok (if m = .host ∧ 0x10000000 ≤ off ∧ off < 0x20000000 ∧ size ≤ 4 then s.bar2Write (off - 0x10000000) size v
    else if m = .host ∧ 0x20000000 ≤ off ∧ off < 0x21000000 then s.bar4Write
    else if size ≠ 4 then
      (if decide (m = .host) && inSaf off && !s.isIn [stOFF, stSLEEP] then (s.record 0x15 0x02 0 2 0#128).answer .error else s.answer .error)
    else s.busWrite m off v hw)

/-- REG_READ. -/
def execRegRead (via : Via) (off : Word) (cnt : Byte) (s : State) : Out :=
  let a := off.toNat
  let n := cnt.toNat
  let bad := decide (n = 0) || decide (2 < n) || !hasReg a || (decide (n = 2) && !hasReg (a + 4))
  ok (if bad then s.cmdDone via 3
    else if !s.served then s.cmdDone via 6
    else if s.readBad a || (decide (n = 2) && s.readBad (a + 4)) then s.cmdDone via 9
    else
      let lo := s.readWord .host a
      let t := s.readTakes .host a
      if n = 1 then t.cmdDone via 0 lo.toNat
      else
        let hi := t.readWord .host (a + 4)
        (t.readTakes .host (a + 4)).cmdDone via 0 (hi.toNat * 2 ^ 32 + lo.toNat))

/-- REG_WRITE: a write that the register ignores under R11 completes with OK (DESIGN CHOICE, log entry 114). -/
def execRegWrite (via : Via) (off v : Word) (s : State) : Out :=
  let a := off.toNat
  ok (if inSaf a then (s.record 0x15 0x02 0 2 0#128).cmdDone via 3
    else if !hasReg a then s.cmdDone via 3
    else if !s.served then s.cmdDone via 6
    else
      let t := s.busW .host a (fun u => u.writeReg .host a v (s.risen a))
      t.cmdDone via (if t.lastResp = .error then 3 else 0))

/-! ## Commands: one register each -/

def execWdtKick (m : Sys2Proof.Master) (key : Word) (s : State) : Out := ok (s.busW m PWS.WDKICK (·.wdtKick m key))
def execSleepCountRead (m : Sys2Proof.Master) (s : State) : Out := ok (s.busRead m PWS.SLEEP_L)
def execTbStep (m : Sys2Proof.Master) (b : Fin 4) (s : State) : Out := ok (s.busW m (TB.CTRL b.val) (·.stepWrite m b.val))
def execTbRateWrite (m : Sys2Proof.Master) (b : Fin 4) (v : Word) (s : State) : Out := ok (s.busW m (TB.RATE b.val) (·.rateWrite b.val v))
def execTbNsRead (m : Sys2Proof.Master) (b : Fin 4) (s : State) : Out := ok (s.busRead m (TB.NS b.val))
def execDpwCommit (m : Sys2Proof.Master) (p : Fin 96) (s : State) : Out := ok (s.busW m (DPW.CTRL p.val) (·.commit p.val))
def execDpwCmpWrite (m : Sys2Proof.Master) (p : Fin 96) (leg : Fin 4) (v : Word) (s : State) : Out :=
  ok (s.busW m (DPW.CMP p.val leg.val) (·.cmpWrite p.val leg.val v))
def execDpwCfgWrite (m : Sys2Proof.Master) (p : Fin 96) (v : Word) (s : State) : Out := ok (s.busW m (DPW.CFG p.val) (·.dpwCfgStore p.val v))
def execDpwPeriodWrite (m : Sys2Proof.Master) (p : Fin 96) (v : Word) (s : State) : Out := ok (s.busW m (DPW.PERIOD p.val) (·.periodWrite p.val v))
def execDpwBridgeWrite (m : Sys2Proof.Master) (p : Fin 96) (v : Word) (s : State) : Out := ok (s.busW m (DPW.BRIDGE p.val) (·.bridgeWrite p.val v))
def execSwTrip (m : Sys2Proof.Master) (n : Fin 3) (v : Word) (s : State) : Out := ok (s.busW m (TRFG.SWTRIP n.val) (·.swTripWrite n.val v))
def execTripLatchClear (m : Sys2Proof.Master) (p : Fin 96) (v hw : Word) (s : State) : Out :=
  ok (s.busW m (TRF.LATCH p.val) (·.latchWrite p.val v hw))
def execTrfSafeWrite (m : Sys2Proof.Master) (p : Fin 96) (v : Word) (s : State) : Out := ok (s.busW m (TRF.SAFE p.val) (·.safeWrite p.val v))
def execTrfCfgWrite (m : Sys2Proof.Master) (p : Fin 96) (v : Word) (s : State) : Out := ok (s.busW m (TRF.CFG p.val) (·.trfCfgStore p.val v))
def execCaqLatRead (m : Sys2Proof.Master) (p : Fin 96) (s : State) : Out := ok (s.busRead m (CAQ.LAT0 p.val))
def execCaqGroupCfgWrite (m : Sys2Proof.Master) (g : Fin 12) (v : Word) (s : State) : Out := ok (s.busW m (CAQG.CFG g.val) (·.caqGroupStore g.val v))
def execCaqPortCfgWrite (m : Sys2Proof.Master) (p : Fin 96) (v : Word) (s : State) : Out := ok (s.busW m (CAQ.CFG p.val) (·.caqPortStore p.val v))
def execPfbLoad (m : Sys2Proof.Master) (p : Fin 96) (s : State) : Out := ok (s.busW m (PFB.CTRL p.val) (·.pfbLoadCmd p.val))
def execPfbAbsorb (m : Sys2Proof.Master) (p : Fin 96) (s : State) : Out := ok (s.busW m (PFB.CTRL p.val) (·.pfbAbsorbCmd p.val))
def execPfbHome (m : Sys2Proof.Master) (p : Fin 96) (s : State) : Out := ok (s.busW m (PFB.CTRL p.val) (·.pfbHomeCmd p.val))
def execPfbCfgWrite (m : Sys2Proof.Master) (p : Fin 96) (ser : Bool) (v : Word) (s : State) : Out :=
  ok (s.busW m (if ser then PFB.SERCFG p.val else PFB.CFG p.val) (·.pfbCfgStore p.val ser v))
def execPfbSnapshotRead (m : Sys2Proof.Master) (p : Fin 96) (pos : Bool) (s : State) : Out :=
  ok (s.busRead m (if pos then PFB.POS p.val else PFB.LAT0 p.val))
def execLpeHookCommit (m : Sys2Proof.Master) (k : Fin 96) (n : Fin 3) (v : Word) (s : State) : Out :=
  ok (s.busW m (LPE.HKIN_TAG k.val n.val) (·.hookCommit k.val n.val v))
def execLpeSwap (m : Sys2Proof.Master) (k : Fin 96) (s : State) : Out := ok (s.busW m (LPE.CTRL k.val) (·.raise (LPE.CTRL_SWAP k.val)))
def execLpeResetInt (m : Sys2Proof.Master) (k : Fin 96) (s : State) : Out := ok (s.busW m (LPE.CTRL k.val) (·.raise (LPE.CTRL_RESET_INT k.val)))
def execLpeBankWrite (m : Sys2Proof.Master) (k : Fin 96) (bank : Fin 2) (word : Fin 22) (v : Word) (coin : Bool) (s : State) : Out :=
  ok (s.busW m (bankOff k.val bank.val (4 * word.val)) (·.bankWrite k.val bank.val word.val v coin))
def execPgRetarget (m : Sys2Proof.Master) (n : Fin 128) (s : State) : Out := ok (s.busW m (PRG.CTRL n.val) (·.retarget m n.val))
def execPgFlush (m : Sys2Proof.Master) (n : Fin 128) (s : State) : Out := ok (s.busW m (PRG.CTRL n.val) (·.raise (PRG.CTRL_FLUSH n.val)))
def execPgGearArm (m : Sys2Proof.Master) (n : Fin 128) (s : State) : Out := ok (s.busW m (PRG.CTRL n.val) (·.gearArm n.val))
def execPgLearn (m : Sys2Proof.Master) (n : Fin 128) (s : State) : Out := ok (s.busW m (PRG.CTRL n.val) (·.learn n.val))
def execPgLearnEnd (m : Sys2Proof.Master) (n : Fin 128) (s : State) : Out := ok (s.busW m (PRG.CTRL n.val) (·.learnEnd n.val))
def execPgKnotPush (m : Sys2Proof.Master) (n : Fin 128) (w7 : Word) (s : State) : Out := ok (s.busW m (PRG.KNOT n.val 7) (·.knotPush m n.val w7))
def execPgCfgWrite (m : Sys2Proof.Master) (n : Fin 128) (v : Word) (s : State) : Out := ok (s.busW m (PRG.CFG n.val) (·.prgCfgWrite n.val v))
def execPgWideWrite (m : Sys2Proof.Master) (n : Fin 128) (reg : PgWide) (hi : Bool) (v : Word) (s : State) : Out :=
  ok (s.busW m (if hi then pgWideOff n.val reg + 4 else pgWideOff n.val reg) (·.pgWideWrite m n.val reg hi v))
def execPgWideRead (m : Sys2Proof.Master) (n : Fin 128) (reg : PgWide) (s : State) : Out := ok (s.busRead m (pgWideOff n.val reg))
def execNmgSubmitWrite (m : Sys2Proof.Master) (v : Word) (s : State) : Out := ok (s.busW m NMG.SUBMIT (·.nmgSubmit (BitVec.ofNat 32 (getBits 0 24 v)) .none))
def execSafRequestWrite (m : Sys2Proof.Master) (v : Word) (s : State) : Out := ok (s.busW m SAF.REQ (·.safWrite SAF.REQ v))
def execSafEstCommit (m : Sys2Proof.Master) (p : Fin 96) (tag : Word) (s : State) : Out :=
  ok (s.busW m (SAF.EST_TAG p.val) (·.safWrite (SAF.EST_TAG p.val) tag))
def execDoorCfgWrite (m : Sys2Proof.Master) (d : Fin 8) (v : Word) (s : State) : Out := ok (s.busW m (DOR.CFG d.val) (·.doorCfgWrite d.val v))
def execDoorOpen (m : Sys2Proof.Master) (d : Fin 8) (seq : BitVec 16) (s : State) : Out := ok (s.busW m (DOR.CMD d.val) (·.doorOpen d.val seq.toNat))
def execDoorClose (m : Sys2Proof.Master) (d : Fin 8) (seq : BitVec 16) (s : State) : Out := ok (s.busW m (DOR.CMD d.val) (·.doorClose d.val seq.toNat))
def execDoorStop (m : Sys2Proof.Master) (d : Fin 8) (seq : BitVec 16) (s : State) : Out := ok (s.busW m (DOR.CMD d.val) (·.doorStop d.val seq.toNat))
def execDoorLearn (m : Sys2Proof.Master) (d : Fin 8) (seq : BitVec 16) (s : State) : Out := ok (s.busW m (DOR.CMD d.val) (·.doorLearnCmd d.val seq.toNat))
def execDoorReset (m : Sys2Proof.Master) (d : Fin 8) (seq : BitVec 16) (s : State) : Out := ok (s.busW m (DOR.CMD d.val) (·.doorResetCmd d.val seq.toNat))
def execFioChcfgWrite (m : Sys2Proof.Master) (ch : Fin 32) (v : Word) (s : State) : Out := ok (s.busW m (FIO.CHCFG ch.val) (·.fioCfgWrite ch.val v))
def execFioOutWrite (m : Sys2Proof.Master) (v : Word) (s : State) : Out := ok (s.busW m FIO.OUT (·.fioOut 0xFFFFFFFF#32 v))
def execFioOutset (m : Sys2Proof.Master) (v : Word) (s : State) : Out := ok (s.busW m FIO.OUTSET (·.fioOut v 0xFFFFFFFF#32))
def execFioOutclr (m : Sys2Proof.Master) (v : Word) (s : State) : Out := ok (s.busW m FIO.OUTCLR (·.fioOut v 0#32))
def execOutRearm (m : Sys2Proof.Master) (b : Fin 2) (s : State) : Out := ok (s.busW m (FIOB.CTRL b.val) (·.fioRearm b.val))
def execCapStart (m : Sys2Proof.Master) (s : State) : Out := ok (s.busW m CAP.CTRL (·.capStart))
def execCapStop (m : Sys2Proof.Master) (s : State) : Out := ok (s.busW m CAP.CTRL (·.capStop))
def execCapForce (m : Sys2Proof.Master) (s : State) : Out := ok (s.busW m CAP.CTRL (·.capForce))
def execCapRdptrWrite (m : Sys2Proof.Master) (v : Word) (s : State) : Out := ok (s.busW m CAP.RDPTR (·.rdptrWrite v))
def execClvPost (m : Sys2Proof.Master) (tag : Word) (s : State) : Out := ok (s.busW m CLV.POST_TAG (·.clvPost m tag))
def execThreadStart (m : Sys2Proof.Master) (t : Fin 1024) (s : State) : Out := ok (s.busW m (CLVT.CTRL t.val) (·.threadStart t.val))
def execThreadHalt (m : Sys2Proof.Master) (t : Fin 1024) (s : State) : Out := ok (s.busW m (CLVT.CTRL t.val) (·.threadHalt t.val))
def execThreadFree (m : Sys2Proof.Master) (t : Fin 1024) (s : State) : Out := ok (s.busW m (CLVT.CTRL t.val) (·.threadFree t.val))
def execGraphEnd (m : Sys2Proof.Master) (v : Word) (s : State) : Out := ok (s.busW m CLV.GEND (·.gendWrite v))
def execSdsIrqSet (m : Sys2Proof.Master) (k : Fin 8) (v : Word) (s : State) : Out := ok (s.busW m (SDS.IRQSET k.val) (·.irqSet k.val v))
def execSqDoorbell (m : Sys2Proof.Master) (r : Fin 16) (v : Word) (s : State) : Out := ok (s.busW m (RP.SQDB r.val) (·.sqDoorbell r.val v))
def execCqDoorbell (m : Sys2Proof.Master) (r : Fin 16) (v : Word) (s : State) : Out := ok (s.busW m (RP.CQDB r.val) (·.cqDoorbell r.val v))
def execRingEnable (m : Sys2Proof.Master) (r : Fin 16) (v : Word) (s : State) : Out := ok (s.busW m (RP.CFG r.val) (·.ringCfgWrite r.val v))
def execGclCommit (m : Sys2Proof.Master) (p : Fin 7) (v : Word) (s : State) : Out := ok (s.busW m (BBP.GCLCTRL p.val) (·.gclCtrlWrite p.val v))
def execAnsPost (m : Sys2Proof.Master) (v : Word) (s : State) : Out := ok (s.busW m ANS.POSTCODE (·.ansPost m v))
def execAnsPtrRead (m : Sys2Proof.Master) (tail : Bool) (s : State) : Out := ok (s.busRead m (if tail then ANS.TAIL_L else ANS.HEAD_L))

end Sys2Proof.Machine
end

