-- ==== Sys2Proof/WellFormed.lean ====
section
/-! DEFINITION. Which commands have operands that the spec allows, beyond what their types say: the field
values of an instruction of the engines that R344 to R386 do not refuse, sizes of accesses (R3, R390), and
lengths of the entries and arguments of ring commands (R393, R445). An instruction whose operands are refused
still runs: it raises ILLEGAL. -/

namespace Sys2Proof

/-- The operand rule of MACD (R374). -/
def macdOk (acc op lx ly ax ay : Nat) (nl : Bool) : Bool :=
  (nl || (decide (lx ≠ ly) && decide (ax ≠ ay))) && !(decide (op = 3) && nl) && !(decide (op = 3) && decide (acc ≠ 0))

/-- An SCL of R386: −2 to +2. -/
def sclOk (scl : BitVec 3) : Bool := decide (scl.toNat ≤ 2) || decide (6 ≤ scl.toNat)

/-- Are the operands of a command such as the spec allows. -/
def Instr.wf : Instr → Bool
  | .registerWrite _ _ size _ _ => decide (size = 1 ∨ size = 2 ∨ size = 4)
  | .sqeFetch _ (some raw) => decide (raw.length = 32 ∨ raw.length = 64)
  | .idAttest _ _ chal => decide (chal.length = 32)
  | .cmpp _ _ cond _ _ => decide (cond.val < 6)
  | .cmppi _ _ cond _ _ => decide (cond.val < 6)
  | .fcmpp _ _ _ cond _ _ => decide (cond.val < 5)
  | .tsta _ _ cond _ => decide (cond.val < 4)
  | .ld _ _ _ sz _ => decide (sz.val < 3)
  | .ldu _ _ _ sz _ => decide (sz.val < 3)
  | .st _ _ _ sz _ => decide (sz.val < 3)
  | .ldf _ _ _ sz _ => decide (2 ≤ sz.val)
  | .stf _ _ _ sz _ => decide (2 ≤ sz.val)
  | .ldp _ _ _ _ sz _ => decide (sz.val < 3)
  | .stp _ _ _ _ sz => decide (sz.val < 3)
  | .tread _ rd b rw => decide (b.val < 4) && (decide (rd ≠ rw) || decide (rd.val = 0))
  | .mva _ _ _ scl _ => sclOk scl
  | .macd _ acc op _ _ lx ly ax ay nl => macdOk acc.val op.val lx.val ly.val ax.val ay.val nl
  | .loop _ _ len => decide (len ≠ 0#14)
  | .mfl _ _ k => decide (k.val < 6)
  | .mtl _ _ k => decide (k.val < 6)
  | _ => true

/-- The engine on which an instruction of the engines runs; none: a command of another kind. -/
def Instr.engine : Instr → Option (Fin 16)
  | .add e _ _ _ => some e
  | .sub e _ _ _ => some e
  | .band e _ _ _ => some e
  | .bor e _ _ _ => some e
  | .xor e _ _ _ => some e
  | .nor e _ _ _ => some e
  | .sll e _ _ _ => some e
  | .srl e _ _ _ => some e
  | .sra e _ _ _ => some e
  | .mul e _ _ _ => some e
  | .mulh e _ _ _ => some e
  | .mulhu e _ _ _ => some e
  | .div e _ _ _ => some e
  | .divu e _ _ _ => some e
  | .rem e _ _ _ => some e
  | .remu e _ _ _ => some e
  | .slt e _ _ _ => some e
  | .sltu e _ _ _ => some e
  | .min e _ _ _ => some e
  | .max e _ _ _ => some e
  | .minu e _ _ _ => some e
  | .maxu e _ _ _ => some e
  | .slli e _ _ _ => some e
  | .srli e _ _ _ => some e
  | .srai e _ _ _ => some e
  | .sel e _ _ _ _ => some e
  | .cmpp e _ _ _ _ => some e
  | .pand e _ _ _ => some e
  | .por e _ _ _ => some e
  | .pxor e _ _ _ => some e
  | .pandn e _ _ _ => some e
  | .pnot e _ _ => some e
  | .mfp e _ => some e
  | .mtp e _ => some e
  | .clz e _ _ => some e
  | .ctz e _ _ => some e
  | .popc e _ _ => some e
  | .addi e _ _ _ => some e
  | .andi e _ _ _ => some e
  | .ori e _ _ _ => some e
  | .xori e _ _ _ => some e
  | .slti e _ _ _ => some e
  | .lui e _ _ => some e
  | .cmppi e _ _ _ _ => some e
  | .mfs e _ _ => some e
  | .mts e _ _ => some e
  | .trap e _ => some e
  | .eret e => some e
  | .brk e => some e
  | .fence e => some e
  | .lpop e => some e
  | .reti e => some e
  | .ld e _ _ _ _ => some e
  | .ldu e _ _ _ _ => some e
  | .ldf e _ _ _ _ => some e
  | .st e _ _ _ _ => some e
  | .stf e _ _ _ _ => some e
  | .amoSwap e _ _ _ => some e
  | .amoAdd e _ _ _ => some e
  | .amoAnd e _ _ _ => some e
  | .amoOr e _ _ _ => some e
  | .amoCas e _ _ _ => some e
  | .cacheWriteBack e _ _ => some e
  | .cacheInvalidate e _ _ => some e
  | .cacheWbInvalidate e _ _ => some e
  | .bp e _ _ => some e
  | .bnp e _ _ => some e
  | .bz e _ _ => some e
  | .bnz e _ _ => some e
  | .bltz e _ _ => some e
  | .bgez e _ _ => some e
  | .blez e _ _ => some e
  | .bgtz e _ _ => some e
  | .ba e _ => some e
  | .j e _ => some e
  | .jl e _ => some e
  | .jalr e _ _ _ => some e
  | .fadd e _ _ _ _ => some e
  | .fsub e _ _ _ _ => some e
  | .fmul e _ _ _ _ => some e
  | .fdiv e _ _ _ _ => some e
  | .fmin e _ _ _ _ => some e
  | .fmax e _ _ _ _ => some e
  | .fmac e _ _ _ _ => some e
  | .fnmac e _ _ _ _ => some e
  | .fsqrt e _ _ _ => some e
  | .fabs e _ _ _ => some e
  | .fneg e _ _ _ => some e
  | .fmov e _ _ _ => some e
  | .fcvtp e _ _ _ => some e
  | .fcvtw e _ _ _ => some e
  | .fcvtf e _ _ _ => some e
  | .fmvl e _ _ => some e
  | .fmvh e _ _ => some e
  | .fmtl e _ _ => some e
  | .fmth e _ _ => some e
  | .fcmpp e _ _ _ _ _ => some e
  | .twait e _ _ => some e
  | .tpost e _ _ => some e
  | .tposti e _ _ => some e
  | .tread e _ _ _ => some e
  | .mpy e _ _ _ => some e
  | .mac e _ _ _ => some e
  | .msu e _ _ _ => some e
  | .clra e _ => some e
  | .nega e _ => some e
  | .adda e _ _ => some e
  | .suba e _ _ => some e
  | .sha e _ _ => some e
  | .mva e _ _ _ _ => some e
  | .mvta e _ _ => some e
  | .mtal e _ _ => some e
  | .mtah e _ _ => some e
  | .mval e _ _ => some e
  | .mvah e _ _ => some e
  | .tsta e _ _ _ => some e
  | .macd e _ _ _ _ _ _ _ _ _ => some e
  | .ldp e _ _ _ _ _ => some e
  | .stp e _ _ _ _ => some e
  | .mvtp e _ _ => some e
  | .mvts e _ _ => some e
  | .mvfp e _ _ => some e
  | .mvfs e _ _ => some e
  | .addps e _ => some e
  | .addpi e _ _ => some e
  | .loop e _ _ => some e
  | .mfl e _ _ => some e
  | .mtl e _ _ => some e
  | _ => none

end Sys2Proof
end

