-- ==== Sys2Proof/Machine/Code.lean ====
section
/-! DEFINITION. The words of the instructions of the engines, written from the encoding tables (R343 to R359,
R386). -/

namespace Sys2Proof

def kWord (op rest : Nat) : Word := BitVec.ofNat 32 (op * 2 ^ 26 + rest)
/-- Format K3 (R343). -/
def k3 (op rd ra rb fn : Nat) : Word := kWord op (rd * 2 ^ 21 + ra * 2 ^ 16 + rb * 2 ^ 11 + fn)
/-- Formats KI and, with sz above disp14, KM; also KB with BF in the place of ra. -/
def ki (op rd ra imm : Nat) : Word := kWord op (rd * 2 ^ 21 + ra * 2 ^ 16 + imm)
def km (op rd ra sz disp : Nat) : Word := kWord op (rd * 2 ^ 21 + ra * 2 ^ 16 + sz * 2 ^ 14 + disp)
/-- The floating group: operation and precision (R355). -/
def kf (fn : Nat) (dbl : Bool) (rd ra rb : Nat) : Word := k3 0x20 rd ra rb (fn + 32 * dbl.toNat)
/-- The accumulator group (R386). -/
def ka (rd acd acs fn scl r k : Nat) : Word :=
  kWord 0x31 (rd * 2 ^ 21 + acd * 2 ^ 19 + acs * 2 ^ 17 + fn * 2 ^ 13 + scl * 2 ^ 10 + r * 2 ^ 9 + k * 2 ^ 3)
/-- The pointer group. -/
def kp (g n fn imm : Nat) : Word := kWord 0x35 (g * 2 ^ 21 + n * 2 ^ 18 + fn * 2 ^ 15 + imm)
/-- LDP and STP. -/
def kl (op r n m sz u : Nat) : Word := kWord op (r * 2 ^ 21 + n * 2 ^ 18 + m * 2 ^ 15 + sz * 2 ^ 13 + u * 2 ^ 12)
/-- The loop-control group. -/
def kc (g sel fn : Nat) : Word := kWord 0x37 (g * 2 ^ 21 + sel * 2 ^ 18 + fn * 2 ^ 16)
def km3 (acc op ra rb : Nat) : Word := kWord 0x30 (acc * 2 ^ 24 + op * 2 ^ 22 + ra * 2 ^ 16 + rb * 2 ^ 11)

/-- The word of an instruction of the engines; 0 for a command of another kind. -/
def Instr.word : Instr → Word
  | .add _ rd ra rb => k3 0 rd.val ra.val rb.val 0x01
  | .sub _ rd ra rb => k3 0 rd.val ra.val rb.val 0x02
  | .band _ rd ra rb => k3 0 rd.val ra.val rb.val 0x03
  | .bor _ rd ra rb => k3 0 rd.val ra.val rb.val 0x04
  | .xor _ rd ra rb => k3 0 rd.val ra.val rb.val 0x05
  | .nor _ rd ra rb => k3 0 rd.val ra.val rb.val 0x06
  | .sll _ rd ra rb => k3 0 rd.val ra.val rb.val 0x08
  | .srl _ rd ra rb => k3 0 rd.val ra.val rb.val 0x09
  | .sra _ rd ra rb => k3 0 rd.val ra.val rb.val 0x0A
  | .slli _ rd ra sh => k3 0 rd.val ra.val sh.val 0x0C
  | .srli _ rd ra sh => k3 0 rd.val ra.val sh.val 0x0D
  | .srai _ rd ra sh => k3 0 rd.val ra.val sh.val 0x0E
  | .mul _ rd ra rb => k3 0 rd.val ra.val rb.val 0x10
  | .mulh _ rd ra rb => k3 0 rd.val ra.val rb.val 0x11
  | .mulhu _ rd ra rb => k3 0 rd.val ra.val rb.val 0x12
  | .div _ rd ra rb => k3 0 rd.val ra.val rb.val 0x14
  | .divu _ rd ra rb => k3 0 rd.val ra.val rb.val 0x15
  | .rem _ rd ra rb => k3 0 rd.val ra.val rb.val 0x16
  | .remu _ rd ra rb => k3 0 rd.val ra.val rb.val 0x17
  | .slt _ rd ra rb => k3 0 rd.val ra.val rb.val 0x18
  | .sltu _ rd ra rb => k3 0 rd.val ra.val rb.val 0x19
  | .min _ rd ra rb => k3 0 rd.val ra.val rb.val 0x1A
  | .max _ rd ra rb => k3 0 rd.val ra.val rb.val 0x1B
  | .minu _ rd ra rb => k3 0 rd.val ra.val rb.val 0x1C
  | .maxu _ rd ra rb => k3 0 rd.val ra.val rb.val 0x1D
  | .sel _ q rd ra rb => k3 0 rd.val ra.val rb.val (0x20 + q.val)
  | .cmpp _ pd cond ra rb => k3 0 (pd.val * 8 + cond.val) ra.val rb.val 0x24
  | .pand _ pd pa pb => k3 0 pd.val pa.val pb.val 0x28
  | .por _ pd pa pb => k3 0 pd.val pa.val pb.val 0x29
  | .pxor _ pd pa pb => k3 0 pd.val pa.val pb.val 0x2A
  | .pandn _ pd pa pb => k3 0 pd.val pa.val pb.val 0x2B
  | .pnot _ pd pa => k3 0 pd.val pa.val 0 0x2C
  | .mfp _ rd => k3 0 rd.val 0 0 0x2D
  | .mtp _ ra => k3 0 0 ra.val 0 0x2E
  | .clz _ rd ra => k3 0 rd.val ra.val 0 0x30
  | .ctz _ rd ra => k3 0 rd.val ra.val 0 0x31
  | .popc _ rd ra => k3 0 rd.val ra.val 0 0x32
  | .addi _ rd ra imm => ki 0x01 rd.val ra.val imm.toNat
  | .andi _ rd ra imm => ki 0x02 rd.val ra.val imm.toNat
  | .ori _ rd ra imm => ki 0x03 rd.val ra.val imm.toNat
  | .xori _ rd ra imm => ki 0x04 rd.val ra.val imm.toNat
  | .lui _ rd imm => ki 0x05 rd.val 0 imm.toNat
  | .slti _ rd ra imm => ki 0x06 rd.val ra.val imm.toNat
  | .cmppi _ pd cond ra imm => ki 0x07 (pd.val * 8 + cond.val) ra.val imm.toNat
  | .mfs _ rd imm => ki 0x08 rd.val 0 imm.toNat
  | .mts _ ra imm => ki 0x09 0 ra.val imm.toNat
  | .eret _ => k3 0x0A 0 0 0 0x01
  | .brk _ => k3 0x0A 0 0 0 0x02
  | .fence _ => k3 0x0A 0 0 0 0x03
  | .trap _ imm => ki 0x0B 0 0 imm.toNat
  | .ld _ rd ra sz disp => km 0x10 rd.val ra.val sz.val disp.toNat
  | .ldu _ rd ra sz disp => km 0x11 rd.val ra.val sz.val disp.toNat
  | .st _ rs ra sz disp => km 0x12 rs.val ra.val sz.val disp.toNat
  | .ldf _ rd ra sz disp => km 0x13 rd.val ra.val sz.val disp.toNat
  | .stf _ rs ra sz disp => km 0x14 rs.val ra.val sz.val disp.toNat
  | .amoSwap _ rd ra rb => k3 0x15 rd.val ra.val rb.val 0
  | .amoAdd _ rd ra rb => k3 0x15 rd.val ra.val rb.val 1
  | .amoAnd _ rd ra rb => k3 0x15 rd.val ra.val rb.val 2
  | .amoOr _ rd ra rb => k3 0x15 rd.val ra.val rb.val 3
  | .amoCas _ rd ra rb => k3 0x15 rd.val ra.val rb.val 4
  | .cacheWriteBack _ ra disp => km 0x16 0 ra.val 0 disp.toNat
  | .cacheInvalidate _ ra disp => km 0x16 0 ra.val 1 disp.toNat
  | .cacheWbInvalidate _ ra disp => km 0x16 0 ra.val 2 disp.toNat
  | .bp _ q ofs => ki 0x18 q.val 0 ofs.toNat
  | .bnp _ q ofs => ki 0x18 q.val 1 ofs.toNat
  | .bz _ ra ofs => ki 0x18 ra.val 2 ofs.toNat
  | .bnz _ ra ofs => ki 0x18 ra.val 3 ofs.toNat
  | .bltz _ ra ofs => ki 0x18 ra.val 4 ofs.toNat
  | .bgez _ ra ofs => ki 0x18 ra.val 5 ofs.toNat
  | .blez _ ra ofs => ki 0x18 ra.val 6 ofs.toNat
  | .bgtz _ ra ofs => ki 0x18 ra.val 7 ofs.toNat
  | .ba _ ofs => ki 0x18 0 8 ofs.toNat
  | .jalr _ rd ra imm => ki 0x19 rd.val ra.val imm.toNat
  | .j _ ofs => kWord 0x1A ofs.toNat
  | .jl _ ofs => kWord 0x1B ofs.toNat
  | .fadd _ dbl rd ra rb => kf 0x00 dbl rd.val ra.val rb.val
  | .fsub _ dbl rd ra rb => kf 0x01 dbl rd.val ra.val rb.val
  | .fmul _ dbl rd ra rb => kf 0x02 dbl rd.val ra.val rb.val
  | .fdiv _ dbl rd ra rb => kf 0x03 dbl rd.val ra.val rb.val
  | .fsqrt _ dbl rd ra => kf 0x04 dbl rd.val ra.val 0
  | .fmin _ dbl rd ra rb => kf 0x05 dbl rd.val ra.val rb.val
  | .fmax _ dbl rd ra rb => kf 0x06 dbl rd.val ra.val rb.val
  | .fmac _ dbl rd ra rb => kf 0x07 dbl rd.val ra.val rb.val
  | .fnmac _ dbl rd ra rb => kf 0x08 dbl rd.val ra.val rb.val
  | .fabs _ dbl rd ra => kf 0x09 dbl rd.val ra.val 0
  | .fneg _ dbl rd ra => kf 0x0A dbl rd.val ra.val 0
  | .fmov _ dbl rd ra => kf 0x0B dbl rd.val ra.val 0
  | .fcvtp _ dbl rd ra => kf 0x0C dbl rd.val ra.val 0
  | .fcvtw _ dbl rd ra => kf 0x0D dbl rd.val ra.val 0
  | .fcvtf _ dbl rd ra => kf 0x0E dbl rd.val ra.val 0
  | .fmvl _ rd ra => kf 0x0F false rd.val ra.val 0
  | .fmvh _ rd ra => kf 0x10 false rd.val ra.val 0
  | .fmtl _ rd ra => kf 0x11 false rd.val ra.val 0
  | .fmth _ rd ra => kf 0x12 false rd.val ra.val 0
  | .fcmpp _ dbl pd cond ra rb => k3 0x21 (pd.val * 8 + cond.val) ra.val rb.val (32 * dbl.toNat)
  | .twait _ ra rb => k3 0x28 0 ra.val rb.val 0
  | .tpost _ ra rb => k3 0x28 0 ra.val rb.val 1
  | .tread _ rd b rw => k3 0x28 rd.val b.val rw.val 2
  | .tposti _ ra imm => ki 0x29 0 ra.val imm.toNat
  | .mpy _ acc ra rb => km3 acc.val 0 ra.val rb.val
  | .mac _ acc ra rb => km3 acc.val 1 ra.val rb.val
  | .msu _ acc ra rb => km3 acc.val 2 ra.val rb.val
  | .clra _ acd => ka 0 acd.val 0 0x0 0 0 0
  | .nega _ acd => ka 0 acd.val 0 0x1 0 0 0
  | .adda _ acd acs => ka 0 acd.val acs.val 0x2 0 0 0
  | .suba _ acd acs => ka 0 acd.val acs.val 0x3 0 0 0
  | .sha _ acd k => ka 0 acd.val 0 0x4 0 0 k.toNat
  | .mva _ rd acd scl rnd => ka rd.val acd.val 0 0x5 scl.toNat rnd.toNat 0
  | .mvta _ acd ra => ka ra.val acd.val 0 0x6 0 0 0
  | .mval _ rd acd => ka rd.val acd.val 0 0x7 0 0 0
  | .mvah _ rd acd => ka rd.val acd.val 0 0x8 0 0 0
  | .mtal _ acd ra => ka ra.val acd.val 0 0x9 0 0 0
  | .mtah _ acd ra => ka ra.val acd.val 0 0xA 0 0 0
  | .tsta _ pd cond acd => ka (pd.val * 8 + cond.val) acd.val 0 0xB 0 0 0
  | .macd _ acc op mx my lx ly ax ay nl =>
    kWord 0x32 (acc.val * 2 ^ 24 + op.val * 2 ^ 22 + mx.val * 2 ^ 19 + my.val * 2 ^ 16 + lx.val * 2 ^ 13 + ly.val * 2 ^ 10
      + ax.val * 2 ^ 7 + ay.val * 2 ^ 4 + nl.toNat * 2 ^ 3)
  | .ldp _ rd n sm sz u => kl 0x33 rd.val n.val sm.val sz.val u.toNat
  | .stp _ rs n sm sz => kl 0x34 rs.val n.val sm.val sz.val 0
  | .mvtp _ g n => kp g.val n.val 0 0
  | .mvts _ g n => kp g.val n.val 1 0
  | .mvfp _ g n => kp g.val n.val 2 0
  | .mvfs _ g n => kp g.val n.val 3 0
  | .addps _ n => kp 0 n.val 4 0
  | .addpi _ n imm => kp 0 n.val 5 imm.toNat
  | .loop _ (.reg ra) len => kWord 0x36 (ra.val * 2 ^ 20 + len.toNat)
  | .loop _ (.imm count) len => kWord 0x36 (2 ^ 25 + count.toNat * 2 ^ 14 + len.toNat)
  | .mfl _ g k => kc g.val k.val 0
  | .mtl _ g k => kc g.val k.val 1
  | .lpop _ => kc 0 0 2
  | .reti _ => kWord 0x38 0
  | _ => 0#32

end Sys2Proof
end

