-- ==== Sys2Proof/Machine/Klo.lean ====
section
/-! DEFINITION. How an engine executes one instruction (spec/15_kloparam_base.md, R337 to R365;
spec/16_signal_profile.md, R375 to R385): what each kind of instruction needs and where it may stand, the order
of the exceptions, exception entry, delay slots and hardware loops, and the memory an engine sees (R341, R342,
R350 to R352). -/

namespace Sys2Proof.Machine

/-- What an instruction needs of its engine (R337, R360). -/
inductive Need
  | base
  | fp32
  | fp64
  | signal
  | clove
  deriving DecidableEq, Repr

def Need.met (e : Nat) : Need → Bool
  | .base => true
  | .fp32 => hasFp32 e
  | .fp64 => hasFp64 e
  | .signal => isSdsp e
  | .clove => decide (e ≠ 15)

def fpNeed (dbl : Bool) : Need := if dbl then .fp64 else .fp32

/-- Where an instruction may stand on an SDSP (R377, R378): `alu` may stand in a delay slot, `other` and the
rest may not; `branch` and `control` may not stand at the LE of the innermost active loop. -/
inductive Place
  | alu
  | other
  | branch
  | control
  deriving DecidableEq, Repr

/-- The innermost active loop level: whether it is level 1, LC, LS, LE (R375). -/
def Loops.inner (l : Loops) : Option (Bool × Word × Word × Word) :=
  if l.lc1 ≠ 0#32 then some (true, l.lc1, l.ls1, l.le1)
  else if l.lc0 ≠ 0#32 then some (false, l.lc0, l.ls0, l.le0)
  else none

/-- The loop registers that the loop-back test uses: at distance 1 after MTL the old ones (R379). -/
def Eng.testLoops (x : Eng) : Loops := x.staleL.getD x.lp

/-- Does the address `a` lie at the LE of the innermost active level. -/
def Loops.atLe (l : Loops) (a : Word) : Bool :=
  match l.inner with
  | some (_, _, _, le) => decide (a = le)
  | none => false

/-- May an instruction of this kind stand where the engine executes it (R377, R378). -/
def Eng.placeOk (x : Eng) (sdsp : Bool) (k : Place) : Bool :=
  !sdsp
    || ((x.slot.isNone || decide (k = .alu))
      && !(decide (k = .control) && x.lp.atLe x.pc)
      && !(decide (k = .branch) && (x.lp.atLe x.pc || x.lp.atLe (x.pc + 4#32) || x.lp.atLe (x.pc + 8#32))))

/-- What the body of an instruction gives: done; a jump; a conditional branch; a TWAIT; an exception with
EVAL; or the instruction waits and is tried again. -/
inductive KRes
  | done (s : State)
  | jump (s : State) (a : Word)
  | branch (taken : Bool) (a : Word)
  | wait (a b : Word)
  | exc (code : Nat) (eval : Word)
  | hold

/-- R363, R364: an exception of the instruction at PC. -/
def State.exception (s : State) (e code : Nat) (eval : Word) : State :=
  let x := s.en e
  if x.exc || decide (x.evec = 0#32) then
    (if e = 15 then s.setEn e { x with run := false } else s.doubleFault e (BitVec.ofNat 32 code) eval)
  else
    let s := s.setEn e { x.settle with
      epc := x.pc, estatus := x.status, ecause := BitVec.ofNat 32 code, eval := eval,
      status := x.status ||| 1#32, pc := pcOf x.evec, slot := none }
    if e < 15 then s.boundary e else s

/-- An instruction of engine `e` has completed: the node count of R333, the watchdog of R473, and what waits
for a boundary. -/
def State.completed (s : State) (e : Nat) : State :=
  if 15 ≤ e then s
  else
    match s.runningOn e with
    | none => s
    | some _ =>
      let x := s.en e
      let s := (if s.graphMode then s.setEn e { x with node := x.node + 1 } else s).armWatchdog e
      if s.graphMode && decide (256 < (s.en e).node) then s.nodeLimit e else s.boundary e

/-- The engine after the instruction that it found in state `x`, without a jump: the delay slots run out, a
loop goes back (R376, R378). -/
def Eng.advance (y x : Eng) (sdsp : Bool) : Eng :=
  match x.slot with
  | some (n, a) => if n ≤ 1 then { y with pc := pcOf a, slot := none } else { y with pc := x.pc + 4#32, slot := some (n - 1, a) }
  | none =>
    match (if sdsp && x.testLoops.atLe x.pc then x.testLoops.inner else none) with
    | some (one, lc, ls, le) =>
      let lp := if one then { y.lp with lc1 := lc - 1#32 } else { y.lp with lc0 := lc - 1#32 }
      { y with lp := lp, pc := if 1 < lc.toNat then pcOf ls else pcOf (le + 4#32) }
    | none => { y with pc := x.pc + 4#32 }

/-- The instruction that engine `e` found in state `x` is over, with its effects in `s`. -/
def State.over_ (s : State) (e : Nat) (f : Eng → Eng) : State :=
  let y := s.en e
  if y.busy then s.setEn e (f { y.shiftStale with busy := false }) else s

/-- The fetch at the PC raises FETCH: outside the program memory, or an error that ECC cannot correct stands in the
word (R26, R342). -/
def State.fetchBad (s : State) (e : Nat) : Bool :=
  let a := (s.en e).pc.toNat
  decide (progBytes e ≤ a) || decide (a % 4 ≠ 0) || s.eccIn (.prog (Fin.ofNat 16 e)) a 4 true

/-- Engine `e` executes the instruction with the word `w`, which may stand at `k` and needs `n`; `good`: its
operands are allowed; `body`: its effect. The first cause of R362 that applies is raised. -/
def State.klo (s : State) (e : Nat) (w : Word) (k : Place) (n : Need) (good : Bool) (body : State → KRes) : State :=
  let x := s.en e
  if s.fetchBad e then s.exception e 0x05 x.pc
  else if !(n.met e && good && x.placeOk (isSdsp e) k) then s.exception e 0x01 w
  else
    match body (s.setEn e { x with busy := true }) with
    | .done t => (t.over_ e (fun y => y.advance x (isSdsp e))).completed e
    | .jump t a => (t.over_ e (fun y => { y with pc := pcOf a })).completed e
    | .branch taken a =>
      if isSdsp e then
        (s.setEn e { x.shiftStale with pc := x.pc + 4#32, slot := some (2, if taken then a else x.pc + 12#32) }).completed e
      else (s.setEn e { x.shiftStale with pc := if taken then pcOf a else x.pc + 4#32 }).completed e
    | .wait a b =>
      let t := s.setEn e (x.shiftStale.advance x (isSdsp e))
      if s.graphMode && decide (256 ≤ x.node) then t.nodeLimit e else (t.twait e a b).boundary e
    | .exc c v => s.exception e c v
    | .hold => s

/-! ## The memory of an engine (R341, R342) -/

/-- What an address of an engine's map is. -/
inductive Spot
  | mem (m : MemId) (a : Nat) (ro : Bool)
  | bar (off : Nat)
  | ddr (a : Nat)
  deriving DecidableEq, Repr

/-- SAFC's own ports: the read-only port of the feedback units, and the SAF registers, with what they show of the safe
inputs and outputs and the switches (R118, R341; log entry 30). -/
def safcReaches (off : Nat) : Bool := decide (PFB.CFG 0 ≤ off ∧ off < PFB.CFG 96) || inSaf off

def spotOf (x : Eng) (e : Nat) (a : Nat) : Option Spot :=
  let f := Fin.ofNat 16 e
  if a < progBytes e then some (.mem (.prog f) a true)
  else if 0x00100000 ≤ a ∧ a < 0x00100000 + (MemId.data f).size then some (.mem (.data f) (a - 0x00100000) false)
  else if isSdsp e ∧ 0x00140000 ≤ a ∧ a < 0x00150000 then some (.mem (.ydata f) (a - 0x00140000) false)
  else if e = 15 then ((Config.safcPort a).filter safcReaches).map .bar
  else if 0x10000000 ≤ a ∧ a < 0x13000000 then some (.bar (a - 0x10000000))
  else if 0x13000000 ≤ a ∧ a < 0x14000000 then some (.mem .shared (a - 0x13000000) false)
  else if 0x18000000 ≤ a ∧ a < 0x19000000 then some (.mem .capture ((a - 0x18000000) % capRing) true)
  else if e = 12 ∧ 0x20000000 ≤ a ∧ a < 0x21000000 then some (.mem .factor (a - 0x20000000) false)
  else if hasDdr e ∧ 0x80000000 ≤ a then
    let d := x.dwin * 2 ^ 31 + (a - 0x80000000)
    if ddrTop ≤ d then none else some (.ddr d)
  else none

/-! The PLN data cache (R337, R352): 64 KiB, 4 ways, lines of 64 bytes. -/

def lineOf (a : Nat) : Nat := a / 64 * 64
def setOf (a : Nat) : Nat := a / 64 % 256

def Eng.line (x : Eng) (a : Nat) : Option CacheLine := x.cache.find? (fun c => decide (c.addr = lineOf a))
def Eng.dropLine (x : Eng) (a : Nat) : Eng := { x with cache := x.cache.filter (fun c => !decide (c.addr = lineOf a)) }

/-- Write the line back where it is dirty. -/
def State.writeBack (s : State) (e a : Nat) : State :=
  match (s.en e).line a with
  | some c =>
    if c.dirty then
      let s := s.put .ddr c.addr 64 c.data
      let s : State := { s with ecc := s.ecc ++ c.bad.map (fun i => ⟨0, MemId.ddr.base + c.addr + i, true⟩) }
      s.setEn e { s.en e with cache := (s.en e).cache.map (fun (d : CacheLine) => if d.addr = c.addr then { d with dirty := false } else d) }
    else s
  | none => s

/-- Bring the line of `a` into the cache; a full set gives up one of its lines, which is open. -/
def State.fillLine (s : State) (e a : Nat) : State :=
  match (s.en e).line a with
  | some _ => s
  | none =>
    let same := (s.en e).cache.filter (fun c => decide (setOf c.addr = setOf a))
    let s := if same.length < 4 then s
      else
        match same[s.freeNat % 4]? with
        | some v => let t := s.tickFree.writeBack e v.addr; t.setEn e ((t.en e).dropLine v.addr)
        | none => s
    s.setEn e { s.en e with cache := ⟨lineOf a, false, s.load .ddr (lineOf a) 64,
      (List.range 64).filter (fun i => s.eccIn .ddr (lineOf a + i) 1 true)⟩ :: (s.en e).cache }

/-- `n` bytes at `a` of the LPDDR5X as engine `e` reads them. -/
def State.ddrLoad (s : State) (e a n : Nat) : State × Nat :=
  if isPln e then
    let s := s.fillLine e a
    (s, match (s.en e).line a with
      | some c => c.data / 256 ^ (a % 64) % 256 ^ n
      | none => 0)
  else (s, s.load .ddr a n)

/-- Engine `e` stores `n` bytes at `a` of the LPDDR5X. -/
def State.ddrStore (s : State) (e a n v : Nat) : State :=
  if isPln e then
    let s := s.fillLine e a
    let put (d : Nat) : Nat :=
      d - d / 256 ^ (a % 64) % 256 ^ n * 256 ^ (a % 64) + v % 256 ^ n * 256 ^ (a % 64)
    s.setEn e { s.en e with cache := (s.en e).cache.map (fun (c : CacheLine) =>
      if c.addr = lineOf a then
        { c with dirty := true, data := put c.data, bad := c.bad.filter (fun i => !decide (a % 64 ≤ i ∧ i < a % 64 + n)) }
      else c) }
  else s.put .ddr a n v

/-- A load of `n` bytes meets an error that ECC cannot correct (R26, R362): in the memory, or in a line that stands in
the cache of a PLN and was filled with it. -/
def State.kEcc (s : State) (e a n : Nat) : Bool :=
  match spotOf (s.en e) e a with
  | some (.mem m o _) => s.eccIn m o n true
  | some (.ddr d) =>
    match (if isPln e then (s.en e).line d else none) with
    | some c => c.bad.any (fun i => decide (d % 64 ≤ i ∧ i < d % 64 + n))
    | none => s.eccIn .ddr d n true
  | _ => false

/-- A load of `n` bytes; none: it raises BUS. -/
def State.kLoad (s : State) (e a n : Nat) : Option (State × Nat) :=
  match spotOf (s.en e) e a with
  | some (.mem m o _) => some (s, s.load m o n)
  | some (.bar off) =>
    let m : Sys2Proof.Master := .eng (Fin.ofNat 16 e)
    if n = 4 ∧ s.readable m off = true then some ((s.busRead m off), (s.readWord m off).toNat) else none
  | some (.ddr d) => if s.pws.stopped then none else some (s.ddrLoad e d n)
  | none => none

/-- A store of `n` bytes; none: it raises BUS. -/
def State.kStore (s : State) (e a n v : Nat) : Option State :=
  match spotOf (s.en e) e a with
  | some (.mem m o ro) => if ro then none else some (s.put m o n v)
  | some (.bar off) =>
    if n = 4 then
      let t := s.busWrite (.eng (Fin.ofNat 16 e)) off (BitVec.ofNat 32 v) (s.risen off)
      if t.lastResp = .error then none else some t
    else none
  | some (.ddr d) => if s.pws.stopped then none else some (s.ddrStore e d n v)
  | none => none

/-- The address of a KM access (R350). -/
def kmAddr (x : Eng) (ra : Nat) (disp : BitVec 14) : Word := x.gpr ra + disp.signExtend 32

/-- A load of `n` bytes at `a` with the use `f` of what it gives (R350, R362). -/
def State.loadAt (s : State) (e : Nat) (a : Word) (n : Nat) (f : State → Nat → State) : KRes :=
  if a.toNat % n ≠ 0 then .exc 0x02 a
  else
    match s.kLoad e a.toNat n with
    | some (t, v) => if s.kEcc e a.toNat n then .exc 0x04 a else .done (f t v)
    | none => .exc 0x03 a

/-- A store of the low `n` bytes of `v` at `a`, and then `f`. -/
def State.storeAt (s : State) (e : Nat) (a : Word) (n v : Nat) (f : State → State) : KRes :=
  if a.toNat % n ≠ 0 then .exc 0x02 a
  else
    match s.kStore e a.toNat n v with
    | some t => .done (f t)
    | none => .exc 0x03 a

/-- An AMO (R351): `f t` gives the word to write, if any. -/
def State.amo (s : State) (e : Nat) (rd ra : Nat) (f : Word → Option Word) : KRes :=
  let a := (s.en e).gpr ra
  if a.toNat % 4 ≠ 0 then .exc 0x02 a
  else
    let go (s : State) (m : MemId) (o : Nat) : KRes :=
      let t := BitVec.ofNat 32 (s.load m o 4)
      let s := match f t with
        | some v => s.put m o 4 v.toNat
        | none => s
      .done (s.setEn e ((s.en e).setG rd t))
    match spotOf (s.en e) e a.toNat with
    | some (.mem .shared o _) => if s.eccIn .shared o 4 true then .exc 0x04 a else go s .shared o
    | some (.ddr d) =>
      if s.pws.stopped then .exc 0x03 a
      else if s.kEcc e a.toNat 4 then .exc 0x04 a
      else
        let s := if isPln e then let t := s.writeBack e d; t.setEn e ((t.en e).dropLine d) else s
        go s .ddr d
    | _ => .exc 0x03 a

/-- CACHE (R352): on a PLN, for an address in the DDR window. -/
def State.cacheOp (s : State) (e : Nat) (a : Word) (wb inv : Bool) : State :=
  match (if isPln e then spotOf (s.en e) e a.toNat else none) with
  | some (.ddr d) =>
    let s := if wb && !s.pws.stopped then s.writeBack e d else s
    if inv then s.setEn e ((s.en e).dropLine d) else s
  | _ => s

/-! ## System registers (R340, R385) -/

/-- PROFILE. -/
def profile (e : Nat) : Nat :=
  (hasFp32 e).toNat + 2 * (hasFp64 e).toNat + 4 * (isSdsp e).toNat + 8 * (isPln e).toNat + 16 * (hasDdr e).toNat

/-- What MFS reads; none: ILLEGAL. -/
def State.sysRead (s : State) (e num : Nat) : Option Word :=
  let x := s.en e
  match num with
  | 0x000 => some x.status
  | 0x001 => some x.epc
  | 0x002 => some x.estatus
  | 0x003 => some x.ecause
  | 0x004 => some x.eval
  | 0x005 => some x.evec
  | 0x010 => some (BitVec.ofNat 32 e)
  | 0x011 => some (if e = 15 then 0#32 else BitVec.ofNat 32 ((s.runningOn e).getD 0 + 1024 * s.graphMode.toNat))
  | 0x012 => some (BitVec.ofNat 32 (profile e))
  | 0x014 => some (BitVec.ofNat 32 (s.cycles e))
  | 0x015 => some x.cycH
  | 0x020 => if isSdsp e then some x.ipc else none
  | 0x021 => if isSdsp e then some x.istatus else none
  | 0x022 => if isSdsp e then some x.icause else none
  | 0x023 => if isSdsp e then some x.ivec else none
  | _ => none

/-- What MTS writes; none: ILLEGAL. A status word takes the bits that STATUS has on this engine, an address
drops its two low bits (log entry 24). -/
def Eng.sysWrite (x : Eng) (e num : Nat) (v : Word) : Option Eng :=
  let st := v &&& BitVec.ofNat 32 (statusMask e)
  match num with
  | 0x000 => some { x with status := st }
  | 0x001 => some { x with epc := pcOf v }
  | 0x002 => some { x with estatus := st }
  | 0x005 => some { x with evec := pcOf v }
  | 0x020 => if isSdsp e then some { x with ipc := pcOf v } else none
  | 0x021 => if isSdsp e then some { x with istatus := st } else none
  | 0x023 =>
    if isSdsp e ∧ (v = 0#32 ∨ (v.toNat % 4 = 0 ∧ v.toNat < progBytes e)) then some { x with ivec := v } else none
  | _ => none

/-! ## Interrupts (R381, R382) -/

/-- The line that SDSP `k` takes at this point. -/
def State.irqLine (s : State) (k : Nat) : Option Nat :=
  let e := k + 4
  let x := s.en e
  let pend := Nat.land (s.f (SDS.IRQ_PEND k)) (s.f (SDS.IMASK_MASK k))
  if s.atBoundary e && x.ie && !x.exc && decide (x.ivec ≠ 0#32) && decide (s.intDepth e < 15)
      && (s.runningOn e).isSome && !s.graphMode then
    (List.range 8).find? (fun i => pend.testBit i)
  else none

/-- Interrupt entry. -/
def State.interrupt (s : State) (k : Nat) : State :=
  match s.irqLine k with
  | none => s
  | some i =>
    let e := k + 4
    let x := (s.en e).settle
    let s := (s.setF ⟨SDS.IRQ k, i, 1⟩ 0).setF (SDS.STAT_INTDEPTH k) (s.intDepth e + 1)
    s.setEn e { x with
      ipc := x.pc, istatus := x.status, icause := BitVec.ofNat 32 i,
      status := x.status &&& ~~~2#32, pc := pcOf x.ivec }

end Sys2Proof.Machine
end

