-- ==== Sys2Proof/Machine/Kbase.lean ====
section
/-! DEFINITION. The base profile of the engines (spec/15_kloparam_base.md, R346 to R363): one meaning per
instruction over the execution of `Klo`. -/

namespace Sys2Proof.Machine

/-! ## Shapes -/

/-- g[rd] := v, an instruction of the integer group or an immediate one. -/
def State.kG (s : State) (e : Fin 16) (w : Word) (rd : Fin 32) (v : Eng → Word) : State :=
  s.klo e.val w .alu .base true (fun t => .done (t.setEn e.val ((t.en e.val).setG rd.val (v (t.en e.val)))))

/-- p[pd] := v. -/
def State.kP (s : State) (e : Fin 16) (w : Word) (good : Bool) (pd : Fin 4) (v : Eng → Bool) : State :=
  s.klo e.val w .alu .base good (fun t => .done (t.setEn e.val ((t.en e.val).setPred pd.val (v (t.en e.val)))))

/-- A KB branch to PC + 4 × ofs16 (R353). -/
def State.kB (s : State) (e : Fin 16) (w : Word) (ofs : BitVec 16) (c : Eng → Bool) : State :=
  s.klo e.val w .branch .base true (fun t => .branch (c (t.en e.val)) ((t.en e.val).pc + ofs.signExtend 32 * 4#32))

/-- The open flags of a floating result are free values (R355). -/
def State.sticky (s : State) (e : Nat) (r : FRes) : State :=
  let x := s.en e
  let m := r.sticky s.freeBool s.tickFree.freeBool
  let s := if r.ufOpen || r.nvOpen then s.tickFree.tickFree else s
  s.setEn e { x with status := x.status ||| BitVec.ofNat 32 m }

/-- e[rd] := the result of a floating operation, and its flags; a binary32 result clears the upper half. -/
def State.kF (s : State) (e : Fin 16) (w : Word) (n : Need) (rd : Fin 32) (r : Eng → FRes) : State :=
  s.klo e.val w .other n true (fun t =>
    let v := r (t.en e.val)
    let t := t.sticky e.val v
    .done (t.setEn e.val ((t.en e.val).setE rd.val (BitVec.ofNat 64 v.bits))))

/-- An operand of a floating operation. -/
def Eng.fop (x : Eng) (dbl : Bool) (r : Fin 32) : FV := (fmtOf dbl).un (x.fpr r.val).toNat

/-- A sign operation or copy: no exception, the payload kept (R355). -/
def fbits (dbl : Bool) (v : Wide) : Nat := v.toNat % 2 ^ (fmtOf dbl).len

def condition (c : Nat) (a b : Word) : Bool :=
  match c with
  | 0 => decide (a = b)
  | 1 => decide (a ≠ b)
  | 2 => a.slt b
  | 3 => !a.slt b
  | 4 => a.ult b
  | _ => !a.ult b

def countZeros (x : Word) (lead : Bool) : Word :=
  match (List.range 32).find? (fun i => x.getLsbD (if lead then 31 - i else i)) with
  | some i => BitVec.ofNat 32 i
  | none => 32#32

def countOnes (x : Word) : Word := BitVec.ofNat 32 ((List.range 32).filter (fun i => x.getLsbD i)).length

/-- Quotient and remainder (R347). -/
def kDiv (a b : Word) : Word := if b = 0#32 then 0xFFFFFFFF#32 else a.sdiv b
def kDivu (a b : Word) : Word := if b = 0#32 then 0xFFFFFFFF#32 else a / b
def kRem (a b : Word) : Word := if b = 0#32 then a else a.srem b
def kRemu (a b : Word) : Word := if b = 0#32 then a else a % b

def sxt (imm : BitVec 16) : Word := imm.signExtend 32
def zxt (imm : BitVec 16) : Word := imm.setWidth 32

/-! ## Integer group (R346, R347, R349) -/

def execAdd (e : Fin 16) (rd ra rb : Fin 32) (s : State) : Out := ok (s.kG e (k3 0 rd.val ra.val rb.val 0x01) rd (fun x => x.gpr ra.val + x.gpr rb.val))
def execSub (e : Fin 16) (rd ra rb : Fin 32) (s : State) : Out := ok (s.kG e (k3 0 rd.val ra.val rb.val 0x02) rd (fun x => x.gpr ra.val - x.gpr rb.val))
def execBand (e : Fin 16) (rd ra rb : Fin 32) (s : State) : Out := ok (s.kG e (k3 0 rd.val ra.val rb.val 0x03) rd (fun x => x.gpr ra.val &&& x.gpr rb.val))
def execBor (e : Fin 16) (rd ra rb : Fin 32) (s : State) : Out := ok (s.kG e (k3 0 rd.val ra.val rb.val 0x04) rd (fun x => x.gpr ra.val ||| x.gpr rb.val))
def execXor (e : Fin 16) (rd ra rb : Fin 32) (s : State) : Out := ok (s.kG e (k3 0 rd.val ra.val rb.val 0x05) rd (fun x => x.gpr ra.val ^^^ x.gpr rb.val))
def execNor (e : Fin 16) (rd ra rb : Fin 32) (s : State) : Out := ok (s.kG e (k3 0 rd.val ra.val rb.val 0x06) rd (fun x => ~~~(x.gpr ra.val ||| x.gpr rb.val)))
def execSll (e : Fin 16) (rd ra rb : Fin 32) (s : State) : Out := ok (s.kG e (k3 0 rd.val ra.val rb.val 0x08) rd (fun x => x.gpr ra.val <<< ((x.gpr rb.val).toNat % 32)))
def execSrl (e : Fin 16) (rd ra rb : Fin 32) (s : State) : Out := ok (s.kG e (k3 0 rd.val ra.val rb.val 0x09) rd (fun x => x.gpr ra.val >>> ((x.gpr rb.val).toNat % 32)))
def execSra (e : Fin 16) (rd ra rb : Fin 32) (s : State) : Out := ok (s.kG e (k3 0 rd.val ra.val rb.val 0x0A) rd (fun x => (x.gpr ra.val).sshiftRight ((x.gpr rb.val).toNat % 32)))
def execMul (e : Fin 16) (rd ra rb : Fin 32) (s : State) : Out := ok (s.kG e (k3 0 rd.val ra.val rb.val 0x10) rd (fun x => x.gpr ra.val * x.gpr rb.val))
def execMulh (e : Fin 16) (rd ra rb : Fin 32) (s : State) : Out := ok (s.kG e (k3 0 rd.val ra.val rb.val 0x11) rd (fun x => BitVec.ofInt 32 ((x.gpr ra.val).toInt * (x.gpr rb.val).toInt / 2 ^ 32)))
def execMulhu (e : Fin 16) (rd ra rb : Fin 32) (s : State) : Out := ok (s.kG e (k3 0 rd.val ra.val rb.val 0x12) rd (fun x => BitVec.ofNat 32 ((x.gpr ra.val).toNat * (x.gpr rb.val).toNat / 2 ^ 32)))
def execDiv (e : Fin 16) (rd ra rb : Fin 32) (s : State) : Out := ok (s.kG e (k3 0 rd.val ra.val rb.val 0x14) rd (fun x => kDiv (x.gpr ra.val) (x.gpr rb.val)))
def execDivu (e : Fin 16) (rd ra rb : Fin 32) (s : State) : Out := ok (s.kG e (k3 0 rd.val ra.val rb.val 0x15) rd (fun x => kDivu (x.gpr ra.val) (x.gpr rb.val)))
def execRem (e : Fin 16) (rd ra rb : Fin 32) (s : State) : Out := ok (s.kG e (k3 0 rd.val ra.val rb.val 0x16) rd (fun x => kRem (x.gpr ra.val) (x.gpr rb.val)))
def execRemu (e : Fin 16) (rd ra rb : Fin 32) (s : State) : Out := ok (s.kG e (k3 0 rd.val ra.val rb.val 0x17) rd (fun x => kRemu (x.gpr ra.val) (x.gpr rb.val)))
def execSlt (e : Fin 16) (rd ra rb : Fin 32) (s : State) : Out := ok (s.kG e (k3 0 rd.val ra.val rb.val 0x18) rd (fun x => if (x.gpr ra.val).slt (x.gpr rb.val) then 1#32 else 0#32))
def execSltu (e : Fin 16) (rd ra rb : Fin 32) (s : State) : Out := ok (s.kG e (k3 0 rd.val ra.val rb.val 0x19) rd (fun x => if (x.gpr ra.val).ult (x.gpr rb.val) then 1#32 else 0#32))
def execMin (e : Fin 16) (rd ra rb : Fin 32) (s : State) : Out := ok (s.kG e (k3 0 rd.val ra.val rb.val 0x1A) rd (fun x => if (x.gpr ra.val).slt (x.gpr rb.val) then x.gpr ra.val else x.gpr rb.val))
def execMax (e : Fin 16) (rd ra rb : Fin 32) (s : State) : Out := ok (s.kG e (k3 0 rd.val ra.val rb.val 0x1B) rd (fun x => if (x.gpr ra.val).slt (x.gpr rb.val) then x.gpr rb.val else x.gpr ra.val))
def execMinu (e : Fin 16) (rd ra rb : Fin 32) (s : State) : Out := ok (s.kG e (k3 0 rd.val ra.val rb.val 0x1C) rd (fun x => if (x.gpr ra.val).ult (x.gpr rb.val) then x.gpr ra.val else x.gpr rb.val))
def execMaxu (e : Fin 16) (rd ra rb : Fin 32) (s : State) : Out := ok (s.kG e (k3 0 rd.val ra.val rb.val 0x1D) rd (fun x => if (x.gpr ra.val).ult (x.gpr rb.val) then x.gpr rb.val else x.gpr ra.val))
def execSlli (e : Fin 16) (rd ra sh : Fin 32) (s : State) : Out := ok (s.kG e (k3 0 rd.val ra.val sh.val 0x0C) rd (fun x => x.gpr ra.val <<< sh.val))
def execSrli (e : Fin 16) (rd ra sh : Fin 32) (s : State) : Out := ok (s.kG e (k3 0 rd.val ra.val sh.val 0x0D) rd (fun x => x.gpr ra.val >>> sh.val))
def execSrai (e : Fin 16) (rd ra sh : Fin 32) (s : State) : Out := ok (s.kG e (k3 0 rd.val ra.val sh.val 0x0E) rd (fun x => (x.gpr ra.val).sshiftRight sh.val))
def execSel (e : Fin 16) (q : Fin 4) (rd ra rb : Fin 32) (s : State) : Out :=
  ok (s.kG e (k3 0 rd.val ra.val rb.val (0x20 + q.val)) rd (fun x => if x.pred q.val then x.gpr ra.val else x.gpr rb.val))
def execCmpp (e : Fin 16) (pd : Fin 4) (cond : Fin 8) (ra rb : Fin 32) (s : State) : Out :=
  ok (s.kP e (k3 0 (pd.val * 8 + cond.val) ra.val rb.val 0x24) (decide (cond.val < 6)) pd
    (fun x => condition cond.val (x.gpr ra.val) (x.gpr rb.val)))
def execPand (e : Fin 16) (pd pa pb : Fin 4) (s : State) : Out := ok (s.kP e (k3 0 pd.val pa.val pb.val 0x28) true pd (fun x => x.pred pa.val && x.pred pb.val))
def execPor (e : Fin 16) (pd pa pb : Fin 4) (s : State) : Out := ok (s.kP e (k3 0 pd.val pa.val pb.val 0x29) true pd (fun x => x.pred pa.val || x.pred pb.val))
def execPxor (e : Fin 16) (pd pa pb : Fin 4) (s : State) : Out := ok (s.kP e (k3 0 pd.val pa.val pb.val 0x2A) true pd (fun x => x.pred pa.val != x.pred pb.val))
def execPandn (e : Fin 16) (pd pa pb : Fin 4) (s : State) : Out := ok (s.kP e (k3 0 pd.val pa.val pb.val 0x2B) true pd (fun x => x.pred pa.val && !x.pred pb.val))
def execPnot (e : Fin 16) (pd pa : Fin 4) (s : State) : Out := ok (s.kP e (k3 0 pd.val pa.val 0 0x2C) true pd (fun x => !x.pred pa.val))
def execMfp (e : Fin 16) (rd : Fin 32) (s : State) : Out := ok (s.kG e (k3 0 rd.val 0 0 0x2D) rd (fun x => x.p.setWidth 32))
def execMtp (e : Fin 16) (ra : Fin 32) (s : State) : Out :=
  ok (s.klo e.val (k3 0 0 ra.val 0 0x2E) .alu .base true (fun t =>
    .done (t.setEn e.val { t.en e.val with p := ((t.en e.val).gpr ra.val).setWidth 4 })))
def execClz (e : Fin 16) (rd ra : Fin 32) (s : State) : Out := ok (s.kG e (k3 0 rd.val ra.val 0 0x30) rd (fun x => countZeros (x.gpr ra.val) true))
def execCtz (e : Fin 16) (rd ra : Fin 32) (s : State) : Out := ok (s.kG e (k3 0 rd.val ra.val 0 0x31) rd (fun x => countZeros (x.gpr ra.val) false))
def execPopc (e : Fin 16) (rd ra : Fin 32) (s : State) : Out := ok (s.kG e (k3 0 rd.val ra.val 0 0x32) rd (fun x => countOnes (x.gpr ra.val)))

/-! ## Immediate instructions and system registers (R340, R348, R349) -/

def execAddi (e : Fin 16) (rd ra : Fin 32) (imm : BitVec 16) (s : State) : Out :=
  ok (s.kG e (ki 0x01 rd.val ra.val imm.toNat) rd (fun x => x.gpr ra.val + sxt imm))
def execAndi (e : Fin 16) (rd ra : Fin 32) (imm : BitVec 16) (s : State) : Out :=
  ok (s.kG e (ki 0x02 rd.val ra.val imm.toNat) rd (fun x => x.gpr ra.val &&& zxt imm))
def execOri (e : Fin 16) (rd ra : Fin 32) (imm : BitVec 16) (s : State) : Out :=
  ok (s.kG e (ki 0x03 rd.val ra.val imm.toNat) rd (fun x => x.gpr ra.val ||| zxt imm))
def execXori (e : Fin 16) (rd ra : Fin 32) (imm : BitVec 16) (s : State) : Out :=
  ok (s.kG e (ki 0x04 rd.val ra.val imm.toNat) rd (fun x => x.gpr ra.val ^^^ zxt imm))
def execSlti (e : Fin 16) (rd ra : Fin 32) (imm : BitVec 16) (s : State) : Out :=
  ok (s.kG e (ki 0x06 rd.val ra.val imm.toNat) rd (fun x => if (x.gpr ra.val).slt (sxt imm) then 1#32 else 0#32))
def execLui (e : Fin 16) (rd : Fin 32) (imm : BitVec 16) (s : State) : Out :=
  ok (s.kG e (ki 0x05 rd.val 0 imm.toNat) rd (fun _ => zxt imm <<< 16))
def execCmppi (e : Fin 16) (pd : Fin 4) (cond : Fin 8) (ra : Fin 32) (imm : BitVec 16) (s : State) : Out :=
  ok (s.kP e (ki 0x07 (pd.val * 8 + cond.val) ra.val imm.toNat) (decide (cond.val < 6)) pd
    (fun x => condition cond.val (x.gpr ra.val) (sxt imm)))

/-- MFS: a read of CYCLE latches CYCLEH. -/
def execMfs (e : Fin 16) (rd : Fin 32) (imm : BitVec 16) (s : State) : Out :=
  let w := ki 0x08 rd.val 0 imm.toNat
  ok (s.klo e.val w .other .base true (fun t =>
    match t.sysRead e.val imm.toNat with
    | some v =>
      let x := t.en e.val
      let x := if imm.toNat = 0x014 then { x with cycH := BitVec.ofNat 32 (t.cycles e.val / 2 ^ 32) } else x
      .done (t.setEn e.val (x.setG rd.val v))
    | none => .exc 0x01 w))

def execMts (e : Fin 16) (ra : Fin 32) (imm : BitVec 16) (s : State) : Out :=
  let w := ki 0x09 0 ra.val imm.toNat
  ok (s.klo e.val w .other .base true (fun t =>
    match (t.en e.val).sysWrite e.val imm.toNat ((t.en e.val).gpr ra.val) with
    | some x => .done (t.setEn e.val x)
    | none => .exc 0x01 w))

def execTrap (e : Fin 16) (imm : BitVec 16) (s : State) : Out :=
  ok (s.klo e.val (ki 0x0B 0 0 imm.toNat) .other .base true (fun _ => .exc 0x06 (zxt imm)))

def execBrk (e : Fin 16) (s : State) : Out := ok (s.klo e.val (k3 0x0A 0 0 0 0x02) .other .base true (fun _ => .exc 0x07 0#32))

/-- ERET (R363). -/
def execEret (e : Fin 16) (s : State) : Out :=
  ok (s.klo e.val (k3 0x0A 0 0 0 0x01) .control .base true (fun t =>
    .jump (t.setEn e.val { t.en e.val with status := (t.en e.val).estatus }) (t.en e.val).epc))

/-- FENCE (R361): every access of the engine has completed already. -/
def execFence (e : Fin 16) (s : State) : Out := ok (s.klo e.val (k3 0x0A 0 0 0 0x03) .other .base true (fun t => .done t))

/-! ## Memory (R350 to R352) -/

/-- A load into g[rd]. -/
def State.kLd (s : State) (e : Fin 16) (w : Word) (rd ra : Fin 32) (sz : Fin 4) (disp : BitVec 14) (sx : Bool) : State :=
  s.klo e.val w .other .base (decide (sz.val < 3)) (fun t =>
    let n := 2 ^ sz.val
    t.loadAt e.val (kmAddr (t.en e.val) ra.val disp) n (fun u v =>
      u.setEn e.val ((u.en e.val).loadG (isSdsp e.val) rd.val
        (if sx then BitVec.ofInt 32 (signedOf (8 * n) v) else BitVec.ofNat 32 v))))

def execLd (e : Fin 16) (rd ra : Fin 32) (sz : Fin 4) (disp : BitVec 14) (s : State) : Out :=
  ok (s.kLd e (km 0x10 rd.val ra.val sz.val disp.toNat) rd ra sz disp true)
def execLdu (e : Fin 16) (rd ra : Fin 32) (sz : Fin 4) (disp : BitVec 14) (s : State) : Out :=
  ok (s.kLd e (km 0x11 rd.val ra.val sz.val disp.toNat) rd ra sz disp false)
def execSt (e : Fin 16) (rs ra : Fin 32) (sz : Fin 4) (disp : BitVec 14) (s : State) : Out :=
  ok (s.klo e.val (km 0x12 rs.val ra.val sz.val disp.toNat) .other .base (decide (sz.val < 3)) (fun t =>
    let x := t.en e.val
    t.storeAt e.val (kmAddr x ra.val disp) (2 ^ sz.val) (x.gpr rs.val).toNat id))

/-- LDF and STF: sz 3 needs binary64. -/
def execLdf (e : Fin 16) (rd ra : Fin 32) (sz : Fin 4) (disp : BitVec 14) (s : State) : Out :=
  ok (s.klo e.val (km 0x13 rd.val ra.val sz.val disp.toNat) .other (fpNeed (decide (sz.val = 3))) (decide (2 ≤ sz.val)) (fun t =>
    t.loadAt e.val (kmAddr (t.en e.val) ra.val disp) (2 ^ sz.val) (fun u v =>
      u.setEn e.val ((u.en e.val).setE rd.val (BitVec.ofNat 64 v)))))
def execStf (e : Fin 16) (rs ra : Fin 32) (sz : Fin 4) (disp : BitVec 14) (s : State) : Out :=
  ok (s.klo e.val (km 0x14 rs.val ra.val sz.val disp.toNat) .other (fpNeed (decide (sz.val = 3))) (decide (2 ≤ sz.val)) (fun t =>
    let x := t.en e.val
    t.storeAt e.val (kmAddr x ra.val disp) (2 ^ sz.val) (x.fpr rs.val).toNat id))

/-- An AMO (R351). -/
def State.kAmo (s : State) (e : Fin 16) (w : Word) (rd ra : Fin 32) (f : Eng → Word → Option Word) : State :=
  s.klo e.val w .other .base true (fun t => t.amo e.val rd.val ra.val (f (t.en e.val)))

def execAmoSwap (e : Fin 16) (rd ra rb : Fin 32) (s : State) : Out :=
  ok (s.kAmo e (k3 0x15 rd.val ra.val rb.val 0) rd ra (fun x _ => some (x.gpr rb.val)))
def execAmoAdd (e : Fin 16) (rd ra rb : Fin 32) (s : State) : Out :=
  ok (s.kAmo e (k3 0x15 rd.val ra.val rb.val 1) rd ra (fun x t => some (t + x.gpr rb.val)))
def execAmoAnd (e : Fin 16) (rd ra rb : Fin 32) (s : State) : Out :=
  ok (s.kAmo e (k3 0x15 rd.val ra.val rb.val 2) rd ra (fun x t => some (t &&& x.gpr rb.val)))
def execAmoOr (e : Fin 16) (rd ra rb : Fin 32) (s : State) : Out :=
  ok (s.kAmo e (k3 0x15 rd.val ra.val rb.val 3) rd ra (fun x t => some (t ||| x.gpr rb.val)))
def execAmoCas (e : Fin 16) (rd ra rb : Fin 32) (s : State) : Out :=
  ok (s.kAmo e (k3 0x15 rd.val ra.val rb.val 4) rd ra (fun x t => if t = x.gpr rd.val then some (x.gpr rb.val) else none))

/-- CACHE (R352). -/
def State.kCache (s : State) (e : Fin 16) (sz : Nat) (ra : Fin 32) (disp : BitVec 14) (wb inv : Bool) : State :=
  s.klo e.val (km 0x16 0 ra.val sz disp.toNat) .other .base true (fun t =>
    .done (t.cacheOp e.val (kmAddr (t.en e.val) ra.val disp) wb inv))
def execCacheWriteBack (e : Fin 16) (ra : Fin 32) (disp : BitVec 14) (s : State) : Out := ok (s.kCache e 0 ra disp true false)
def execCacheInvalidate (e : Fin 16) (ra : Fin 32) (disp : BitVec 14) (s : State) : Out := ok (s.kCache e 1 ra disp false true)
def execCacheWbInvalidate (e : Fin 16) (ra : Fin 32) (disp : BitVec 14) (s : State) : Out := ok (s.kCache e 2 ra disp true true)

/-! ## Branches and jumps (R353) -/

def execBp (e : Fin 16) (q : Fin 4) (ofs : BitVec 16) (s : State) : Out := ok (s.kB e (ki 0x18 q.val 0 ofs.toNat) ofs (fun x => x.pred q.val))
def execBnp (e : Fin 16) (q : Fin 4) (ofs : BitVec 16) (s : State) : Out := ok (s.kB e (ki 0x18 q.val 1 ofs.toNat) ofs (fun x => !x.pred q.val))
def execBz (e : Fin 16) (ra : Fin 32) (ofs : BitVec 16) (s : State) : Out := ok (s.kB e (ki 0x18 ra.val 2 ofs.toNat) ofs (fun x => decide (x.gpr ra.val = 0#32)))
def execBnz (e : Fin 16) (ra : Fin 32) (ofs : BitVec 16) (s : State) : Out := ok (s.kB e (ki 0x18 ra.val 3 ofs.toNat) ofs (fun x => decide (x.gpr ra.val ≠ 0#32)))
def execBltz (e : Fin 16) (ra : Fin 32) (ofs : BitVec 16) (s : State) : Out := ok (s.kB e (ki 0x18 ra.val 4 ofs.toNat) ofs (fun x => (x.gpr ra.val).slt 0#32))
def execBgez (e : Fin 16) (ra : Fin 32) (ofs : BitVec 16) (s : State) : Out := ok (s.kB e (ki 0x18 ra.val 5 ofs.toNat) ofs (fun x => !(x.gpr ra.val).slt 0#32))
def execBlez (e : Fin 16) (ra : Fin 32) (ofs : BitVec 16) (s : State) : Out := ok (s.kB e (ki 0x18 ra.val 6 ofs.toNat) ofs (fun x => (x.gpr ra.val).sle 0#32))
def execBgtz (e : Fin 16) (ra : Fin 32) (ofs : BitVec 16) (s : State) : Out := ok (s.kB e (ki 0x18 ra.val 7 ofs.toNat) ofs (fun x => !(x.gpr ra.val).sle 0#32))
def execBa (e : Fin 16) (ofs : BitVec 16) (s : State) : Out := ok (s.kB e (ki 0x18 0 8 ofs.toNat) ofs (fun _ => true))
def execJ (e : Fin 16) (ofs : BitVec 26) (s : State) : Out :=
  ok (s.klo e.val (kWord 0x1A ofs.toNat) .control .base true (fun t => .jump t ((t.en e.val).pc + ofs.signExtend 32 * 4#32)))
def execJl (e : Fin 16) (ofs : BitVec 26) (s : State) : Out :=
  ok (s.klo e.val (kWord 0x1B ofs.toNat) .control .base true (fun t =>
    let x := t.en e.val
    .jump (t.setEn e.val (x.setG 31 (x.pc + 4#32))) (x.pc + ofs.signExtend 32 * 4#32)))

/-- JALR: the target comes from the old g[ra]; a target that is no multiple of 4 raises ALIGN. -/
def execJalr (e : Fin 16) (rd ra : Fin 32) (imm : BitVec 16) (s : State) : Out :=
  ok (s.klo e.val (ki 0x19 rd.val ra.val imm.toNat) .control .base true (fun t =>
    let x := t.en e.val
    let a := x.gpr ra.val + sxt imm
    if a.toNat % 4 ≠ 0 then .exc 0x02 a else .jump (t.setEn e.val (x.setG rd.val (x.pc + 4#32))) a))

/-! ## Floating point (R355, R356) -/

def execFadd (e : Fin 16) (dbl : Bool) (rd ra rb : Fin 32) (s : State) : Out :=
  ok (s.kF e (kf 0x00 dbl rd.val ra.val rb.val) (fpNeed dbl) rd (fun x => (fmtOf dbl).add x.frm (x.fop dbl ra) (x.fop dbl rb)))
def execFsub (e : Fin 16) (dbl : Bool) (rd ra rb : Fin 32) (s : State) : Out :=
  ok (s.kF e (kf 0x01 dbl rd.val ra.val rb.val) (fpNeed dbl) rd (fun x => (fmtOf dbl).add x.frm (x.fop dbl ra) (x.fop dbl rb).neg))
def execFmul (e : Fin 16) (dbl : Bool) (rd ra rb : Fin 32) (s : State) : Out :=
  ok (s.kF e (kf 0x02 dbl rd.val ra.val rb.val) (fpNeed dbl) rd (fun x => (fmtOf dbl).mul x.frm (x.fop dbl ra) (x.fop dbl rb)))
def execFdiv (e : Fin 16) (dbl : Bool) (rd ra rb : Fin 32) (s : State) : Out :=
  ok (s.kF e (kf 0x03 dbl rd.val ra.val rb.val) (fpNeed dbl) rd (fun x => (fmtOf dbl).div x.frm (x.fop dbl ra) (x.fop dbl rb)))
def execFmin (e : Fin 16) (dbl : Bool) (rd ra rb : Fin 32) (s : State) : Out :=
  ok (s.kF e (kf 0x05 dbl rd.val ra.val rb.val) (fpNeed dbl) rd (fun x => (fmtOf dbl).minmax false (x.fpr ra.val).toNat (x.fpr rb.val).toNat))
def execFmax (e : Fin 16) (dbl : Bool) (rd ra rb : Fin 32) (s : State) : Out :=
  ok (s.kF e (kf 0x06 dbl rd.val ra.val rb.val) (fpNeed dbl) rd (fun x => (fmtOf dbl).minmax true (x.fpr ra.val).toNat (x.fpr rb.val).toNat))
def execFmac (e : Fin 16) (dbl : Bool) (rd ra rb : Fin 32) (s : State) : Out :=
  ok (s.kF e (kf 0x07 dbl rd.val ra.val rb.val) (fpNeed dbl) rd (fun x => (fmtOf dbl).fma x.frm (x.fop dbl ra) (x.fop dbl rb) (x.fop dbl rd)))
def execFnmac (e : Fin 16) (dbl : Bool) (rd ra rb : Fin 32) (s : State) : Out :=
  ok (s.kF e (kf 0x08 dbl rd.val ra.val rb.val) (fpNeed dbl) rd (fun x => (fmtOf dbl).fma x.frm (x.fop dbl ra).neg (x.fop dbl rb) (x.fop dbl rd)))
def execFsqrt (e : Fin 16) (dbl : Bool) (rd ra : Fin 32) (s : State) : Out :=
  ok (s.kF e (kf 0x04 dbl rd.val ra.val 0) (fpNeed dbl) rd (fun x => (fmtOf dbl).sqrt x.frm (x.fop dbl ra)))
def execFabs (e : Fin 16) (dbl : Bool) (rd ra : Fin 32) (s : State) : Out :=
  ok (s.kF e (kf 0x09 dbl rd.val ra.val 0) (fpNeed dbl) rd (fun x => FRes.exact (fbits dbl (x.fpr ra.val) % (fmtOf dbl).signBit)))
def execFneg (e : Fin 16) (dbl : Bool) (rd ra : Fin 32) (s : State) : Out :=
  ok (s.kF e (kf 0x0A dbl rd.val ra.val 0) (fpNeed dbl) rd (fun x => FRes.exact ((fbits dbl (x.fpr ra.val) + (fmtOf dbl).signBit) % (2 * (fmtOf dbl).signBit))))
def execFmov (e : Fin 16) (dbl : Bool) (rd ra : Fin 32) (s : State) : Out :=
  ok (s.kF e (kf 0x0B dbl rd.val ra.val 0) (fpNeed dbl) rd (fun x => FRes.exact (fbits dbl (x.fpr ra.val))))
def execFcvtp (e : Fin 16) (dbl : Bool) (rd ra : Fin 32) (s : State) : Out :=
  ok (s.kF e (kf 0x0C dbl rd.val ra.val 0) .fp64 rd (fun x => (fmtOf dbl).conv x.frm (x.fop (!dbl) ra)))
def execFcvtf (e : Fin 16) (dbl : Bool) (rd ra : Fin 32) (s : State) : Out :=
  ok (s.kF e (kf 0x0E dbl rd.val ra.val 0) (fpNeed dbl) rd (fun x => (fmtOf dbl).ofInt x.frm (x.gpr ra.val).toInt))

/-- FCVTW writes g[rd]. -/
def execFcvtw (e : Fin 16) (dbl : Bool) (rd ra : Fin 32) (s : State) : Out :=
  ok (s.klo e.val (kf 0x0D dbl rd.val ra.val 0) .other (fpNeed dbl) true (fun t =>
    let v := toWord (t.en e.val).frm ((t.en e.val).fop dbl ra)
    let t := t.sticky e.val v
    .done (t.setEn e.val ((t.en e.val).setG rd.val (BitVec.ofNat 32 v.bits)))))

/-- A move from or to one half of a floating register. -/
def State.kMv (s : State) (e : Fin 16) (fn : Nat) (rd ra : Fin 32) (f : Eng → Eng) : State :=
  s.klo e.val (kf fn false rd.val ra.val 0) .other .fp32 true (fun t => .done (t.setEn e.val (f (t.en e.val))))
def execFmvl (e : Fin 16) (rd ra : Fin 32) (s : State) : Out := ok (s.kMv e 0x0F rd ra (fun x => x.setG rd.val ((x.fpr ra.val).setWidth 32)))
def execFmvh (e : Fin 16) (rd ra : Fin 32) (s : State) : Out := ok (s.kMv e 0x10 rd ra (fun x => x.setG rd.val ((x.fpr ra.val >>> 32).setWidth 32)))
def execFmtl (e : Fin 16) (rd ra : Fin 32) (s : State) : Out :=
  ok (s.kMv e 0x11 rd ra (fun x => x.setE rd.val (x.fpr rd.val >>> 32 <<< 32 ||| (x.gpr ra.val).setWidth 64)))
def execFmth (e : Fin 16) (rd ra : Fin 32) (s : State) : Out :=
  ok (s.kMv e 0x12 rd ra (fun x => x.setE rd.val (((x.fpr rd.val).setWidth 32).setWidth 64 ||| (x.gpr ra.val).setWidth 64 <<< 32)))

/-- FCMPP (R356). -/
def execFcmpp (e : Fin 16) (dbl : Bool) (pd : Fin 4) (cond : Fin 8) (ra rb : Fin 32) (s : State) : Out :=
  ok (s.klo e.val (k3 0x21 (pd.val * 8 + cond.val) ra.val rb.val (32 * dbl.toNat)) .other (fpNeed dbl) (decide (cond.val < 5)) (fun t =>
    let x := t.en e.val
    let r := fcmp cond.val (x.fop dbl ra) (x.fop dbl rb)
    let x := x.setPred pd.val r.1
    .done (t.setEn e.val { x with status := if r.2 then x.status ||| 0x100#32 else x.status })))

/-! ## Dispatcher and time (R357 to R360) -/

/-- A non-zero tag that two of the four wait positions name. -/
def twaitDup (a b : Word) : Option Nat :=
  let l := [getBits 0 16 a, getBits 16 16 a, getBits 0 16 b, getBits 16 16 b]
  l.find? (fun t => decide (t ≠ 0) && decide (2 ≤ l.count t))

/-- TWAIT: not in a handler and not in an interrupt (R364, R383). -/
def execTwait (e : Fin 16) (ra rb : Fin 32) (s : State) : Out :=
  let w := k3 0x28 0 ra.val rb.val 0
  let x := s.en e.val
  ok (s.klo e.val w .control .clove (!x.exc && decide (s.intDepth e.val = 0)) (fun _ =>
    match twaitDup (x.gpr ra.val) (x.gpr rb.val) with
    | some t => .exc 0x08 (BitVec.ofNat 32 t)
    | none => .wait (x.gpr ra.val) (x.gpr rb.val)))

/-- A token posted by engine `e`; while Clove takes none, the engine waits (R329, R358). -/
def State.kPost (s : State) (e : Fin 16) (w : Word) (tag : Eng → Nat) (v : Eng → Word) : State :=
  s.klo e.val w .other .clove true (fun t =>
    if t.queueFull then .hold else .done (t.token (tag (t.en e.val)) (v (t.en e.val)) (500 + e.val)))
def execTpost (e : Fin 16) (ra rb : Fin 32) (s : State) : Out :=
  ok (s.kPost e (k3 0x28 0 ra.val rb.val 1) (fun x => getBits 0 16 (x.gpr ra.val)) (fun x => x.gpr rb.val))
def execTposti (e : Fin 16) (ra : Fin 32) (imm : BitVec 16) (s : State) : Out :=
  ok (s.kPost e (ki 0x29 0 ra.val imm.toNat) (fun _ => imm.toNat) (fun x => x.gpr ra.val))

/-- TREAD: on SAFC base 3 is Saffron's own counter (R360). -/
def execTread (e : Fin 16) (rd b rw : Fin 32) (s : State) : Out :=
  ok (s.klo e.val (k3 0x28 rd.val b.val rw.val 2) .other .base (decide (b.val < 4) && (decide (rd ≠ rw) || decide (rd.val = 0))) (fun t =>
    let own := t.tbu.safNs / 50 * 50
    let ns := if e.val = 15 ∧ b.val = 3 then BitVec.ofNat 32 own else t.ns b.val
    let wc := if e.val = 15 ∧ b.val = 3 then own / 2 ^ 32 % 256 else t.wc b.val
    .done (t.setEn e.val (((t.en e.val).setG rd.val ns).setG rw.val (BitVec.ofNat 32 wc)))))

end Sys2Proof.Machine
end

