-- ==== Sys2Proof/Machine/Ksig.lean ====
section
/-! DEFINITION. The signal profile of the SDSPs (spec/16_signal_profile.md, R370 to R386), and the interrupts
of R381. -/

namespace Sys2Proof.Machine

/-! ## Accumulators (R370 to R372) -/

/-- The fraction length F. -/
def fracLen (w24 : Bool) : Nat := if w24 then 23 else 15

/-- An operand: the low 16 or 24 bits of a general register, signed. -/
def Eng.mop (x : Eng) (w24 : Bool) (r : Fin 32) : Int := signedOf (fracLen w24 + 1) (x.gpr r.val).toNat

/-- The range of an accumulator. -/
def accClamp (w24 : Bool) (v : Int) : Int := satS (if w24 then 64 else 40) v

/-- Write an accumulator; a saturated result sets ASAT and counts. -/
def State.setAcc (s : State) (e : Fin 16) (i : Nat) (v : Int) : State :=
  let w := s.w24 e.val
  let k := e.val - 4
  let s := if accClamp w v = v then s else (s.raise (SDS.STAT_ASAT k)).bump (SDS.CNT_ASAT_CNT k)
  s.setEn e.val ((s.en e.val).setAcc i (BitVec.ofInt 64 (accClamp w v)))

/-- An instruction of the multiply or accumulator group with the new value of accumulator `i`. -/
def State.kA (s : State) (e : Fin 16) (w : Word) (i : Fin 4) (v : Eng → Bool → Int) : State :=
  s.klo e.val w .alu .signal true (fun t => .done (t.setAcc e i.val (v (t.en e.val) (t.w24 e.val))))

/-- The exact product of two operands. -/
def Eng.prod (x : Eng) (w24 : Bool) (a b : Fin 32) : Int := x.mop w24 a * x.mop w24 b

def execMpy (e : Fin 16) (acc : Fin 4) (ra rb : Fin 32) (s : State) : Out :=
  ok (s.kA e (km3 acc.val 0 ra.val rb.val) acc (fun x w => x.prod w ra rb))
def execMac (e : Fin 16) (acc : Fin 4) (ra rb : Fin 32) (s : State) : Out :=
  ok (s.kA e (km3 acc.val 1 ra.val rb.val) acc (fun x w => x.acc acc.val + x.prod w ra rb))
def execMsu (e : Fin 16) (acc : Fin 4) (ra rb : Fin 32) (s : State) : Out :=
  ok (s.kA e (km3 acc.val 2 ra.val rb.val) acc (fun x w => x.acc acc.val - x.prod w ra rb))
def execClra (e : Fin 16) (acd : Fin 4) (s : State) : Out := ok (s.kA e (ka 0 acd.val 0 0x0 0 0 0) acd (fun _ _ => 0))
def execNega (e : Fin 16) (acd : Fin 4) (s : State) : Out := ok (s.kA e (ka 0 acd.val 0 0x1 0 0 0) acd (fun x _ => -x.acc acd.val))
def execAdda (e : Fin 16) (acd acs : Fin 4) (s : State) : Out :=
  ok (s.kA e (ka 0 acd.val acs.val 0x2 0 0 0) acd (fun x _ => x.acc acd.val + x.acc acs.val))
def execSuba (e : Fin 16) (acd acs : Fin 4) (s : State) : Out :=
  ok (s.kA e (ka 0 acd.val acs.val 0x3 0 0 0) acd (fun x _ => x.acc acd.val - x.acc acs.val))

/-- v × 2^k with the floor. -/
def scale2 (v k : Int) : Int := if 0 ≤ k then v * (2 ^ k.toNat : Nat) else v / (2 ^ (-k).toNat : Nat)

def execSha (e : Fin 16) (acd : Fin 4) (k : BitVec 6) (s : State) : Out :=
  ok (s.kA e (ka 0 acd.val 0 0x4 0 0 k.toNat) acd (fun x _ => scale2 (x.acc acd.val) k.toInt))

/-- MVA: the accumulator times 2^(SCL − F), rounded and saturated. -/
def mvaRound (rnd w24 : Bool) (scl v : Int) : Int :=
  let sh := ((fracLen w24 : Int) - scl).toNat
  if rnd then roundHalfAway v (2 ^ sh) else v / (2 ^ sh : Nat)

def execMva (e : Fin 16) (rd : Fin 32) (acd : Fin 4) (scl : BitVec 3) (rnd : Bool) (s : State) : Out :=
  ok (s.klo e.val (ka rd.val acd.val 0 0x5 scl.toNat rnd.toNat 0) .alu .signal (sclOk scl) (fun t =>
    let w := t.w24 e.val
    let k := e.val - 4
    let r := mvaRound rnd w scl.toInt ((t.en e.val).acc acd.val)
    let v := satS (fracLen w + 1) r
    let t := if v = r then t else (t.raise (SDS.STAT_MSAT k)).bump (SDS.CNT_MSAT_CNT k)
    .done (t.setEn e.val ((t.en e.val).setG rd.val (BitVec.ofInt 32 v)))))

def execMvta (e : Fin 16) (acd : Fin 4) (ra : Fin 32) (s : State) : Out :=
  ok (s.kA e (ka ra.val acd.val 0 0x6 0 0 0) acd (fun x w => x.mop w ra * (2 ^ fracLen w : Nat)))

/-- g[rd] := half of an accumulator. -/
def State.kAG (s : State) (e : Fin 16) (w : Word) (rd : Fin 32) (v : Eng → Word) : State :=
  s.klo e.val w .alu .signal true (fun t => .done (t.setEn e.val ((t.en e.val).setG rd.val (v (t.en e.val)))))

def execMval (e : Fin 16) (rd : Fin 32) (acd : Fin 4) (s : State) : Out :=
  ok (s.kAG e (ka rd.val acd.val 0 0x7 0 0 0) rd (fun x => (x.accRaw acd.val).setWidth 32))
def execMvah (e : Fin 16) (rd : Fin 32) (acd : Fin 4) (s : State) : Out :=
  ok (s.kAG e (ka rd.val acd.val 0 0x8 0 0 0) rd (fun x => (x.accRaw acd.val >>> 32).setWidth 32))

/-- MTAL: the 64-bit value moves unchanged. -/
def execMtal (e : Fin 16) (acd : Fin 4) (ra : Fin 32) (s : State) : Out :=
  ok (s.klo e.val (ka ra.val acd.val 0 0x9 0 0 0) .alu .signal true (fun t =>
    let x := t.en e.val
    .done (t.setEn e.val (x.setAcc acd.val (x.accRaw acd.val >>> 32 <<< 32 ||| (x.gpr ra.val).setWidth 64)))))
def execMtah (e : Fin 16) (acd : Fin 4) (ra : Fin 32) (s : State) : Out :=
  ok (s.kA e (ka ra.val acd.val 0 0xA 0 0 0) acd (fun x _ =>
    (((x.accRaw acd.val).setWidth 32).setWidth 64 ||| (x.gpr ra.val).setWidth 64 <<< 32).toInt))

def execTsta (e : Fin 16) (pd : Fin 4) (cond : Fin 8) (acd : Fin 4) (s : State) : Out :=
  ok (s.klo e.val (ka (pd.val * 8 + cond.val) acd.val 0 0xB 0 0 0) .alu .signal (decide (cond.val < 4)) (fun t =>
    let v := (t.en e.val).acc acd.val
    let r := match cond.val with
      | 0 => decide (v = 0)
      | 1 => decide (v ≠ 0)
      | 2 => decide (v < 0)
      | _ => decide (0 ≤ v)
    .done (t.setEn e.val ((t.en e.val).setPred pd.val r))))

/-! ## Address registers (R373, R374) -/

/-- Does the address lie in bank D0, or D1. -/
def inD0 (a : Word) : Bool := decide (0x00100000 ≤ a.toNat ∧ a.toNat < 0x00110000)
def inD1 (a : Word) : Bool := decide (0x00140000 ≤ a.toNat ∧ a.toNat < 0x00150000)

/-- The loads of MACD: both words are read before anything is written. -/
def State.macdLoads (s : State) (e : Fin 16) (lx ly ax ay : Fin 8) : State :=
  let x := s.en e.val
  let a := x.ptr ax.val
  let b := x.ptr ay.val
  let v := BitVec.ofNat 32 (s.load (.data e) (a.toNat - 0x00100000) 4)
  let w := BitVec.ofNat 32 (s.load (.ydata e) (b.toNat - 0x00140000) 4)
  s.setEn e.val
    ((((x.loadG true (8 + lx.val) v).loadG true (8 + ly.val) w).setPt ax.val (a + x.step ax.val)).setPt ay.val
      (b + x.step ay.val))

def execMacd (e : Fin 16) (acc op : Fin 4) (mx my lx ly ax ay : Fin 8) (nl : Bool) (s : State) : Out :=
  let w := kWord 0x32 (acc.val * 2 ^ 24 + op.val * 2 ^ 22 + mx.val * 2 ^ 19 + my.val * 2 ^ 16 + lx.val * 2 ^ 13
    + ly.val * 2 ^ 10 + ax.val * 2 ^ 7 + ay.val * 2 ^ 4 + nl.toNat * 2 ^ 3)
  ok (s.klo e.val w .other .signal (macdOk acc.val op.val lx.val ly.val ax.val ay.val nl) (fun t =>
    let x := t.en e.val
    let a := x.ptr ax.val
    let b := x.ptr ay.val
    if !nl && decide (a.toNat % 4 ≠ 0) then .exc 0x02 a
    else if !nl && decide (b.toNat % 4 ≠ 0) then .exc 0x02 b
    else if !nl && !inD0 a then .exc 0x03 a
    else if !nl && !inD1 b then .exc 0x03 b
    else if !nl && t.kEcc e.val a.toNat 4 then .exc 0x04 a
    else if !nl && t.kEcc e.val b.toNat 4 then .exc 0x04 b
    else
      let p := x.prod (t.w24 e.val) (Fin.ofNat 32 (8 + mx.val)) (Fin.ofNat 32 (8 + my.val))
      let old := x.acc acc.val
      let t := if nl then t else t.macdLoads e lx ly ax ay
      .done (match op.val with
        | 0 => t.setAcc e acc.val p
        | 1 => t.setAcc e acc.val (old + p)
        | 2 => t.setAcc e acc.val (old - p)
        | _ => t)))

/-- The post-modification of pt_n by st_m, from the values the instruction found in `x` (R373, R379). -/
def State.postMod (s : State) (e : Nat) (x : Eng) (n m : Nat) : State :=
  s.setEn e ((s.en e).setPt n (x.ptr n + x.step m))

def execLdp (e : Fin 16) (rd : Fin 32) (n sm : Fin 8) (sz : Fin 4) (u : Bool) (s : State) : Out :=
  ok (s.klo e.val (kl 0x33 rd.val n.val sm.val sz.val u.toNat) .other .signal (decide (sz.val < 3)) (fun t =>
    let x := t.en e.val
    let b := 2 ^ sz.val
    t.loadAt e.val (x.ptr n.val) b (fun q v =>
      (q.setEn e.val ((q.en e.val).loadG true rd.val
        (if u then BitVec.ofNat 32 v else BitVec.ofInt 32 (signedOf (8 * b) v)))).postMod e.val x n.val sm.val)))

def execStp (e : Fin 16) (rs : Fin 32) (n sm : Fin 8) (sz : Fin 4) (s : State) : Out :=
  ok (s.klo e.val (kl 0x34 rs.val n.val sm.val sz.val 0) .other .signal (decide (sz.val < 3)) (fun t =>
    let x := t.en e.val
    t.storeAt e.val (x.ptr n.val) (2 ^ sz.val) (x.gpr rs.val).toNat (fun q => q.postMod e.val x n.val sm.val)))

/-- An instruction of the pointer group. -/
def State.kPt (s : State) (e : Fin 16) (w : Word) (f : Eng → Eng) : State :=
  s.klo e.val w .alu .signal true (fun t => .done (t.setEn e.val (f (t.en e.val))))

def execMvtp (e : Fin 16) (g : Fin 32) (n : Fin 8) (s : State) : Out :=
  ok (s.kPt e (kp g.val n.val 0 0) (fun x => x.groupPt n.val (x.gpr g.val)))
def execMvts (e : Fin 16) (g : Fin 32) (n : Fin 8) (s : State) : Out :=
  ok (s.kPt e (kp g.val n.val 1 0) (fun x => x.groupSt n.val (x.gpr g.val)))
def execMvfp (e : Fin 16) (g : Fin 32) (n : Fin 8) (s : State) : Out :=
  ok (s.kPt e (kp g.val n.val 2 0) (fun x => x.setG g.val (x.ptRaw n.val)))
def execMvfs (e : Fin 16) (g : Fin 32) (n : Fin 8) (s : State) : Out :=
  ok (s.kPt e (kp g.val n.val 3 0) (fun x => x.setG g.val (x.stRaw n.val)))

/-- ADDPS is of the pointer group and, at distance 1, a consumer of its old values (R379). -/
def execAddps (e : Fin 16) (n : Fin 8) (s : State) : Out :=
  ok (s.kPt e (kp 0 n.val 4 0) (fun x => x.groupPt n.val (x.ptr n.val + x.step n.val)))
def execAddpi (e : Fin 16) (n : Fin 8) (imm : BitVec 15) (s : State) : Out :=
  ok (s.kPt e (kp 0 n.val 5 imm.toNat) (fun x => x.groupPt n.val (x.ptRaw n.val + imm.signExtend 32)))

/-! ## Loops (R375 to R377) -/

def LoopCount.word (len : BitVec 14) : Sys2Proof.LoopCount → Word
  | .reg ra => kWord 0x36 (ra.val * 2 ^ 20 + len.toNat)
  | .imm c => kWord 0x36 (2 ^ 25 + c.toNat * 2 ^ 14 + len.toNat)

def execLoop (e : Fin 16) (cnt : Sys2Proof.LoopCount) (len : BitVec 14) (s : State) : Out :=
  let w := LoopCount.word len cnt
  ok (s.klo e.val w .control .signal (decide (len ≠ 0#14)) (fun t =>
    let x := t.en e.val
    let c := match cnt with
      | .reg ra => x.gpr ra.val
      | .imm c => c.setWidth 32
    let le := x.pc + len.setWidth 32 * 4#32
    let ls := x.pc + 4#32
    if c = 0#32 then .jump t (le + 4#32)
    else if x.lp.lc1 ≠ 0#32 then .exc 0x01 w
    else if x.lp.lc0 = 0#32 then
      .done (t.setEn e.val { x with lp := { x.lp with lc0 := c, ls0 := ls, le0 := le } })
    else if le.toNat < x.lp.le0.toNat then
      .done (t.setEn e.val { x with lp := { x.lp with lc1 := c, ls1 := ls, le1 := le } })
    else .exc 0x01 w))

/-- The loop register `k` of the loop-control group. -/
def Loops.reg (l : Loops) (k : Nat) : Word :=
  match k with
  | 0 => l.lc0
  | 1 => l.lc1
  | 2 => l.ls0
  | 3 => l.le0
  | 4 => l.ls1
  | _ => l.le1

def Loops.setReg (l : Loops) (k : Nat) (v : Word) : Loops :=
  match k with
  | 0 => { l with lc0 := v }
  | 1 => { l with lc1 := v }
  | 2 => { l with ls0 := v }
  | 3 => { l with le0 := v }
  | 4 => { l with ls1 := v }
  | _ => { l with le1 := v }

def execMfl (e : Fin 16) (g : Fin 32) (k : Fin 8) (s : State) : Out :=
  ok (s.klo e.val (kc g.val k.val 0) .control .signal (decide (k.val < 6)) (fun t =>
    .done (t.setEn e.val ((t.en e.val).setG g.val ((t.en e.val).lp.reg k.val)))))

/-- MTL: the loop-back test of the next instruction still uses the old registers (R379). -/
def execMtl (e : Fin 16) (g : Fin 32) (k : Fin 8) (s : State) : Out :=
  ok (s.klo e.val (kc g.val k.val 1) .control .signal (decide (k.val < 6)) (fun t =>
    let x := t.en e.val
    .done (t.setEn e.val { x with lp := x.lp.setReg k.val (x.gpr g.val), nextL := some x.lp })))

def execLpop (e : Fin 16) (s : State) : Out :=
  ok (s.klo e.val (kc 0 0 2) .control .signal true (fun t =>
    let x := t.en e.val
    .done (t.setEn e.val { x with lp :=
      if x.lp.lc1 ≠ 0#32 then { x.lp with lc1 := 0#32 } else { x.lp with lc0 := 0#32 } })))

/-! ## Interrupts (R381 to R383) -/

def execReti (e : Fin 16) (s : State) : Out :=
  let w := kWord 0x38 0
  ok (s.klo e.val w .control .signal true (fun t =>
    let d := t.intDepth e.val
    if d = 0 then .exc 0x01 w
    else
      let x := t.en e.val
      .jump ((t.setEn e.val { x with status := x.istatus }).setF (SDS.STAT_INTDEPTH (e.val - 4)) (d - 1)) x.ipc))

/-- INTERRUPT_ENTRY: SDSP `k` takes its lowest pending line where the conditions of R381 hold. -/
def execInterruptEntry (k : Fin 8) (s : State) : Out := ok (s.interrupt k.val)

end Sys2Proof.Machine
end

