-- ==== Sys2Proof/Machine/Kfetch.lean ====
section
/-! DEFINITION. An engine that runs a program: the word at its PC, read by the encoding tables (R343 to R359,
R386), is executed. A word that no table gives, or that has a bit set that must be 0, raises ILLEGAL (R344). -/

namespace Sys2Proof.Machine

/-- What a word stands for: the bits that must be 0 in it, and the instruction. -/
abbrev Pick := Option (Nat × (State → Out))

/-- Fields of a word. -/
def f32 (lo : Nat) (w : Word) : Fin 32 := Fin.ofNat 32 (getBits lo 5 w)
def f8 (lo : Nat) (w : Word) : Fin 8 := Fin.ofNat 8 (getBits lo 3 w)
def f4 (lo : Nat) (w : Word) : Fin 4 := Fin.ofNat 4 (getBits lo 2 w)
def imm16 (w : Word) : BitVec 16 := w.setWidth 16
def disp14 (w : Word) : BitVec 14 := w.setWidth 14
def ofs26 (w : Word) : BitVec 26 := w.setWidth 26

/-- Opcode 0x00 (R346). -/
def pickInteger (e : Fin 16) (w : Word) : Pick :=
  let rd := f32 21 w
  let ra := f32 16 w
  let rb := f32 11 w
  let a (f : Fin 16 → Fin 32 → Fin 32 → Fin 32 → State → Out) : Pick := some (0x7C0, f e rd ra rb)
  let p (f : Fin 16 → Fin 4 → Fin 4 → Fin 4 → State → Out) : Pick := some (0x039CE7C0, f e (f4 21 w) (f4 16 w) (f4 11 w))
  match getBits 0 6 w with
  | 0x01 => a execAdd
  | 0x02 => a execSub
  | 0x03 => a execBand
  | 0x04 => a execBor
  | 0x05 => a execXor
  | 0x06 => a execNor
  | 0x08 => a execSll
  | 0x09 => a execSrl
  | 0x0A => a execSra
  | 0x0C => a execSlli
  | 0x0D => a execSrli
  | 0x0E => a execSrai
  | 0x10 => a execMul
  | 0x11 => a execMulh
  | 0x12 => a execMulhu
  | 0x14 => a execDiv
  | 0x15 => a execDivu
  | 0x16 => a execRem
  | 0x17 => a execRemu
  | 0x18 => a execSlt
  | 0x19 => a execSltu
  | 0x1A => a execMin
  | 0x1B => a execMax
  | 0x1C => a execMinu
  | 0x1D => a execMaxu
  | 0x20 => some (0x7C0, execSel e 0 rd ra rb)
  | 0x21 => some (0x7C0, execSel e 1 rd ra rb)
  | 0x22 => some (0x7C0, execSel e 2 rd ra rb)
  | 0x23 => some (0x7C0, execSel e 3 rd ra rb)
  | 0x24 => some (0x7C0, execCmpp e (f4 24 w) (f8 21 w) ra rb)
  | 0x28 => p execPand
  | 0x29 => p execPor
  | 0x2A => p execPxor
  | 0x2B => p execPandn
  | 0x2C => some (0x039CFFC0, execPnot e (f4 21 w) (f4 16 w))
  | 0x2D => some (0x001FFFC0, execMfp e rd)
  | 0x2E => some (0x03E0FFC0, execMtp e ra)
  | 0x30 => some (0xFFC0, execClz e rd ra)
  | 0x31 => some (0xFFC0, execCtz e rd ra)
  | 0x32 => some (0xFFC0, execPopc e rd ra)
  | _ => none

/-- Opcode 0x15 (R351). -/
def pickAmo (e : Fin 16) (w : Word) : Pick :=
  let a (f : Fin 16 → Fin 32 → Fin 32 → Fin 32 → State → Out) : Pick := some (0, f e (f32 21 w) (f32 16 w) (f32 11 w))
  match getBits 0 11 w with
  | 0 => a execAmoSwap
  | 1 => a execAmoAdd
  | 2 => a execAmoAnd
  | 3 => a execAmoOr
  | 4 => a execAmoCas
  | _ => none

/-- Opcode 0x16 (R352). -/
def pickCache (e : Fin 16) (w : Word) : Pick :=
  match getBits 14 2 w with
  | 0 => some (0x03E00000, execCacheWriteBack e (f32 16 w) (disp14 w))
  | 1 => some (0x03E00000, execCacheInvalidate e (f32 16 w) (disp14 w))
  | 2 => some (0x03E00000, execCacheWbInvalidate e (f32 16 w) (disp14 w))
  | _ => none

/-- Opcode 0x18 (R353): BF stands in the place of ra. -/
def pickBranch (e : Fin 16) (w : Word) : Pick :=
  let r := f32 21 w
  match getBits 16 5 w with
  | 0 => some (0x03800000, execBp e (f4 21 w) (imm16 w))
  | 1 => some (0x03800000, execBnp e (f4 21 w) (imm16 w))
  | 2 => some (0, execBz e r (imm16 w))
  | 3 => some (0, execBnz e r (imm16 w))
  | 4 => some (0, execBltz e r (imm16 w))
  | 5 => some (0, execBgez e r (imm16 w))
  | 6 => some (0, execBlez e r (imm16 w))
  | 7 => some (0, execBgtz e r (imm16 w))
  | 8 => some (0x03E00000, execBa e (imm16 w))
  | _ => none

/-- Opcode 0x20 (R355). -/
def pickFloat (e : Fin 16) (w : Word) : Pick :=
  let d := w.getLsbD 5
  let rd := f32 21 w
  let ra := f32 16 w
  let rb := f32 11 w
  match getBits 0 5 w with
  | 0x00 => some (0x7C0, execFadd e d rd ra rb)
  | 0x01 => some (0x7C0, execFsub e d rd ra rb)
  | 0x02 => some (0x7C0, execFmul e d rd ra rb)
  | 0x03 => some (0x7C0, execFdiv e d rd ra rb)
  | 0x04 => some (0xFFC0, execFsqrt e d rd ra)
  | 0x05 => some (0x7C0, execFmin e d rd ra rb)
  | 0x06 => some (0x7C0, execFmax e d rd ra rb)
  | 0x07 => some (0x7C0, execFmac e d rd ra rb)
  | 0x08 => some (0x7C0, execFnmac e d rd ra rb)
  | 0x09 => some (0xFFC0, execFabs e d rd ra)
  | 0x0A => some (0xFFC0, execFneg e d rd ra)
  | 0x0B => some (0xFFC0, execFmov e d rd ra)
  | 0x0C => some (0xFFC0, execFcvtp e d rd ra)
  | 0x0D => some (0xFFC0, execFcvtw e d rd ra)
  | 0x0E => some (0xFFC0, execFcvtf e d rd ra)
  | 0x0F => some (0xFFE0, execFmvl e rd ra)
  | 0x10 => some (0xFFE0, execFmvh e rd ra)
  | 0x11 => some (0xFFE0, execFmtl e rd ra)
  | 0x12 => some (0xFFE0, execFmth e rd ra)
  | _ => none

/-- Opcode 0x28 (R357 to R359). -/
def pickDispatcher (e : Fin 16) (w : Word) : Pick :=
  match getBits 0 11 w with
  | 0 => some (0x03E00000, execTwait e (f32 16 w) (f32 11 w))
  | 1 => some (0x03E00000, execTpost e (f32 16 w) (f32 11 w))
  | 2 => some (0, execTread e (f32 21 w) (f32 16 w) (f32 11 w))
  | _ => none

/-- Opcode 0x30. -/
def pickMultiply (e : Fin 16) (w : Word) : Pick :=
  let a (f : Fin 16 → Fin 4 → Fin 32 → Fin 32 → State → Out) : Pick := some (0x002007FF, f e (f4 24 w) (f32 16 w) (f32 11 w))
  match getBits 22 2 w with
  | 0 => a execMpy
  | 1 => a execMac
  | 2 => a execMsu
  | _ => none

/-- Opcode 0x31. -/
def pickAccumulator (e : Fin 16) (w : Word) : Pick :=
  let r := f32 21 w
  let acd := f4 19 w
  let acs := f4 17 w
  match getBits 13 4 w with
  | 0x0 => some (0x03E61FFF, execClra e acd)
  | 0x1 => some (0x03E61FFF, execNega e acd)
  | 0x2 => some (0x03E01FFF, execAdda e acd acs)
  | 0x3 => some (0x03E01FFF, execSuba e acd acs)
  | 0x4 => some (0x03E61E07, execSha e acd (BitVec.ofNat 6 (getBits 3 6 w)))
  | 0x5 => some (0x000601FF, execMva e r acd (BitVec.ofNat 3 (getBits 10 3 w)) (w.getLsbD 9))
  | 0x6 => some (0x00061FFF, execMvta e acd r)
  | 0x7 => some (0x00061FFF, execMval e r acd)
  | 0x8 => some (0x00061FFF, execMvah e r acd)
  | 0x9 => some (0x00061FFF, execMtal e acd r)
  | 0xA => some (0x00061FFF, execMtah e acd r)
  | 0xB => some (0x00061FFF, execTsta e (f4 24 w) (f8 21 w) acd)
  | _ => none

/-- Opcode 0x35. -/
def pickPointer (e : Fin 16) (w : Word) : Pick :=
  let g := f32 21 w
  let n := f8 18 w
  match getBits 15 3 w with
  | 0 => some (0x7FFF, execMvtp e g n)
  | 1 => some (0x7FFF, execMvts e g n)
  | 2 => some (0x7FFF, execMvfp e g n)
  | 3 => some (0x7FFF, execMvfs e g n)
  | 4 => some (0x03E07FFF, execAddps e n)
  | 5 => some (0x03E00000, execAddpi e n (w.setWidth 15))
  | _ => none

/-- Opcode 0x36: a bit I set, an immediate count. -/
def pickLoop (e : Fin 16) (w : Word) : Pick :=
  if w.getLsbD 25 then some (0, execLoop e (.imm (BitVec.ofNat 11 (getBits 14 11 w))) (disp14 w))
  else some (0x000FC000, execLoop e (.reg (f32 20 w)) (disp14 w))

/-- Opcode 0x37. -/
def pickLoopControl (e : Fin 16) (w : Word) : Pick :=
  match getBits 16 2 w with
  | 0 => some (0xFFFF, execMfl e (f32 21 w) (f8 18 w))
  | 1 => some (0xFFFF, execMtl e (f32 21 w) (f8 18 w))
  | 2 => some (0x03FCFFFF, execLpop e)
  | _ => none

/-- The instruction of a word, by opcode (R345, R386). -/
def kPick (e : Fin 16) (w : Word) : Pick :=
  let rd := f32 21 w
  let ra := f32 16 w
  let sz := f4 14 w
  match getBits 26 6 w with
  | 0x00 => pickInteger e w
  | 0x01 => some (0, execAddi e rd ra (imm16 w))
  | 0x02 => some (0, execAndi e rd ra (imm16 w))
  | 0x03 => some (0, execOri e rd ra (imm16 w))
  | 0x04 => some (0, execXori e rd ra (imm16 w))
  | 0x05 => some (0x001F0000, execLui e rd (imm16 w))
  | 0x06 => some (0, execSlti e rd ra (imm16 w))
  | 0x07 => some (0, execCmppi e (f4 24 w) (f8 21 w) ra (imm16 w))
  | 0x08 => some (0x001F0000, execMfs e rd (imm16 w))
  | 0x09 => some (0x03E00000, execMts e ra (imm16 w))
  | 0x0A =>
    match getBits 0 11 w with
    | 1 => some (0x03FFF800, execEret e)
    | 2 => some (0x03FFF800, execBrk e)
    | 3 => some (0x03FFF800, execFence e)
    | _ => none
  | 0x0B => some (0x03FF0000, execTrap e (imm16 w))
  | 0x10 => some (0, execLd e rd ra sz (disp14 w))
  | 0x11 => some (0, execLdu e rd ra sz (disp14 w))
  | 0x12 => some (0, execSt e rd ra sz (disp14 w))
  | 0x13 => some (0, execLdf e rd ra sz (disp14 w))
  | 0x14 => some (0, execStf e rd ra sz (disp14 w))
  | 0x15 => pickAmo e w
  | 0x16 => pickCache e w
  | 0x18 => pickBranch e w
  | 0x19 => some (0, execJalr e rd ra (imm16 w))
  | 0x1A => some (0, execJ e (ofs26 w))
  | 0x1B => some (0, execJl e (ofs26 w))
  | 0x20 => pickFloat e w
  | 0x21 => some (0x7DF, execFcmpp e (w.getLsbD 5) (f4 24 w) (f8 21 w) ra (f32 11 w))
  | 0x28 => pickDispatcher e w
  | 0x29 => some (0x03E00000, execTposti e ra (imm16 w))
  | 0x30 => pickMultiply e w
  | 0x31 => pickAccumulator e w
  | 0x32 =>
    some (0x7, execMacd e (f4 24 w) (f4 22 w) (f8 19 w) (f8 16 w) (f8 13 w) (f8 10 w) (f8 7 w) (f8 4 w) (w.getLsbD 3))
  | 0x33 => some (0xFFF, execLdp e rd (f8 18 w) (f8 15 w) (f4 13 w) (w.getLsbD 12))
  | 0x34 => some (0x1FFF, execStp e rd (f8 18 w) (f8 15 w) (f4 13 w))
  | 0x35 => pickPointer e w
  | 0x36 => pickLoop e w
  | 0x37 => pickLoopControl e w
  | 0x38 => some (0x03FFFFFF, execReti e)
  | _ => none

/-- The engine executes the word `w`. -/
def State.runWord (s : State) (e : Fin 16) (w : Word) : Out :=
  let bad : Out := ok (s.klo e.val w .alu .base false (fun t => .done t))
  match kPick e w with
  | some (mask, f) => if Nat.land w.toNat mask = 0 then f s else bad
  | none => bad

/-- The word at the PC of engine `e`. -/
def State.pcWord (s : State) (e : Fin 16) : Word := BitVec.ofNat 32 (s.load (.prog e) (s.en e.val).pc.toNat 4)

/-- Is the next instruction of the engine a TWAIT, which waits for the tokens of its cycle (R321)? -/
def State.atTwait (s : State) (e : Fin 16) : Bool :=
  decide (getBits 26 6 (s.pcWord e) = 0x28) && decide (getBits 0 11 (s.pcWord e) = 0)

/-- The engine takes an interrupt, or executes the word at its PC. -/
def State.engineRun (s : State) (e : Fin 16) : Out :=
  if isSdsp e.val && (s.irqLine (e.val - 4)).isSome then ok (s.interrupt (e.val - 4)) else s.runWord e (s.pcWord e)

end Sys2Proof.Machine
end

