-- ==== Sys2Proof/Machine/Tick.lean ====
section
/-! DEFINITION. What the module does by itself while no command waits (log entry 21): what has fallen due, one
instruction of every engine that runs, the tokens and records of the tick, and then the next CLK_PWM tick
(R27, R31, R37). -/

namespace Sys2Proof.Machine

/-- Engine `e` starts its incoming thread. A context that Clove read with an error that ECC cannot correct gives the
thread the exception of a data load that meets one (R26, R362; log entry 124, DESIGN CHOICE). -/
def State.engineStart (s : State) (e : Nat) : State :=
  match s.incoming e with
  | some t =>
    let bad := !s.graphMode && !decide (s.resident e = some t) && s.eccIn .shared (s.ctxAddr t) 0x278 true
    let u := s.engineGo e
    if bad && decide (u.runningOn e = some t) then u.exception e 0x04 (BitVec.ofNat 32 (0x13000000 + s.ctxAddr t)) else u
  | none => s

/-- An event other than a command happens. -/
def State.happen (s : State) : Ev → State
  | .cmd c => { s with pending := [c] }
  | .legEdge p k high x => s.legTo p k (if high then .high else .low) x
  | .engineGo e => s.engineStart e
  | .graphDone => s.graphEnded
  | .fioFault b => s.raiseIf (s.fioCause b) (FIOB.STAT_FAULT b)
  | .safReport => s.safReport
  | .imgDone => s.imgEnd
  | .resetModule => s.resetModule
  | .portFrame p x => s.portFrame p x
  | .lpeOut k late => s.slotOut k late
  | .planCut => s.planCut
  | .rxTake k => s.rxTake k
  | .tpEnd k => s.tpEnd k
  | .switchTests => s.switchTests
  | .switchClose g hs => s.switchClose g hs

/-- Does engine `e` run a program now. An engine that HOLDUP stops goes on until its thread can be preempted, at most
for the 200 µs of R462. -/
def State.engineRuns (s : State) (e : Nat) : Bool :=
  if e = 15 then (s.en 15).run
  else (s.runningOn e).isSome && (!s.engStopped e || decide (s.now < s.pws.holdAt + holdDebounce + 50000))

/-- The next engine that has not been served in this tick, TWAITs only with `wait` (R321). `State.turn` holds the
engines served, as a mask. -/
def State.nextEngine (s : State) (wait : Bool) : Option (Fin 16) :=
  (List.finRange 16).find? (fun e => !s.turn.testBit e.val && s.engineRuns e.val && (s.atTwait e == wait))

/-- Engine `e` is served. -/
def State.serveEngine (s : State) (e : Fin 16) : Out := State.engineRun { s with turn := s.turn + 2 ^ e.val } e

/-- Insert a token behind every token of no higher rank. -/
def insertToken (k : Token) : List Token → List Token
  | [] => [k]
  | x :: xs => if k.rank < x.rank then k :: x :: xs else x :: insertToken k xs

/-- The tokens of one tick in the order of R321. -/
def tokenOrder (l : List Token) : List Token := l.foldl (fun acc k => insertToken k acc) []

/-- What Clove takes: the tokens of the tick. -/
def State.tokenRound (s : State) : State :=
  { s with clvIn := [], pending := (tokenOrder s.clvIn).map (fun k => .tokenArrive k.tag k.val (decide (k.rank < rankTb))) }

/-- The store loses energy in HOLDUP, by an open amount, reported every 1 ms; at the reserve of 5 mJ it is
exhausted (R463). -/
def State.storeDrop (s : State) : State :=
  if s.mstate = stHOLDUP ∧ (s.now - s.pws.holdAt) % 250000 = 0 then
    let t := (s.setF PWS.HOLD_E_STORE (s.freeNat % (s.f PWS.HOLD_E_STORE + 1))).tickFree
    if t.f PWS.HOLD_E_STORE ≤ 5 then t.sched 0 .storeExhausted else t
  else s

/-- The comparators that are due at this tick fire. -/
def State.pollTcmp (s : State) : State :=
  (List.finRange 128).foldl (fun (u : State) c => if s.tcmpDue c.val then u.sched 0 (.tcmpFire c none false) else u) s

/-- Gate lists whose time has come (R410). -/
def State.pollGates (s : State) : State :=
  (List.finRange 7).foldl (fun (u : State) p =>
    let u := if (s.gclPend p.val).any s.gclDue then u.sched 0 (.gclActivate p) else u
    if (s.gclOper p.val).any (fun g => s.cellAt (s.gateEnd p.val g)) then u.sched 0 (.gateIntervalEnd p) else u) s

/-- BBI passes one waiting frame to the switch per tick, the highest class first (R403, R406). -/
def State.pollBbi (s : State) : State :=
  match [7, 6, 5, 4, 3, 2, 1, 0].find? (fun tc => !(s.txQueue 6 tc).isEmpty) with
  | some tc => s.sched 0 (.frameTransmit 6 (.queued (Fin.ofNat 8 tc)))
  | none => s

/-- A recovery that waits for time goes on once there is time (R474). -/
def State.pollTime (s : State) : State :=
  if s.mstate = stRECOVERY ∧ s.pws.recStep = 5 ∧ s.timeGood = true then s.resched 0 .recoverySyncWaitEnd else s

/-- While no token arrives, Clove takes one parked token per cycle of its 1 GHz clock (R328). -/
def State.pollPark (s : State) : State :=
  if s.clvIn.isEmpty && (s.someParked || !s.clv.fifo.isEmpty) then
    { s with pending := s.pending ++ List.replicate 4 .overflowDrain }
  else s

/-- Is an ECC error in Saffron's memories (R26)? -/
def EccErr.inSaffron (e : Config.EccErr) : Bool :=
  let within (m : MemId) : Bool := decide (m.base ≤ e.addr) && decide (e.addr < m.base + m.size)
  decide (e.place = 0) && (within (.prog 15) || within (.data 15) || within (.ydata 15))

/-- A token in Clove's store that ECC cannot correct has an open value (R26; log entry 124, DESIGN CHOICE). -/
def State.storeEcc (s : State) (l : List Config.EccErr) : State :=
  let hit (i : Nat) : Bool := l.any (fun e => decide (e.place = 4) && decide (e.addr = i) && e.double)
  if (List.range s.clv.store.length).any hit then
    { s.tickFree with clv := { s.clv with store := s.clv.store.zipIdx.map (fun x =>
        if hit x.2 then { x.1 with val := s.freeWord } else x.1) } }
  else s

/-- ECC errors arise: one in Saffron's memories that cannot be corrected is its fault ECC (R26, R242). -/
def State.eccArise (s : State) : State :=
  let l := Config.eccErrors s.now
  let s := State.storeEcc { s with ecc := s.ecc ++ l.filter (fun e => !decide (e.place = 4)) } l
  if l.any (fun e => EccErr.inSaffron e && e.double) then s.faultRaise 0x04 scopeAll else s

/-- The next CLK_PWM tick; in OFF and SLEEP only the always-on domain runs. -/
def State.tick (s : State) : State :=
  let s := { s with now := s.now + 1, turn := 0, was := s.regs }
  let s := { s with moves := s.moves.filter (fun m => decide (m.cycle = s.ioCycle)) }
  if s.isIn [stOFF, stSLEEP] then s
  else
    let s := (((([0, 1, 2].foldl State.tickBase s).tickSafe).storeDrop).eccArise)
    (((((s.pollTcmp.pollGates).pollBbi).pollTime).tenTick).slotsNext).pollPark

/-- The order of what falls due in one tick: firings; causes of a transition as R22 ranks them; frames and period
starts, which lie before the tick and replace what the old period still holds (R57); the rest; the strobes; the slots
and generators, which take what was strobed in their tick (R54, R70). -/
def evOrder : Ev → Nat
  | .cmd (.tcmpFire _ _ _) => 0
  | .cmd .bothInputsLost => 1
  | .cmd .storeExhausted => 1
  | .cmd (.holdupInputReturn _) => 2
  | .cmd .pllRelock => 2
  | .cmd .pllLockTimeout => 2
  | .cmd .moduleWdtExpiry => 3
  | .cmd (.engineWdtExpiry _) => 3
  | .safReport => 4
  | .resetModule => 5
  | .portFrame _ _ => 6
  | .cmd (.dpwPeriodStart _ _ _) => 6
  | .cmd (.trgcFire _ _ _ _) => 8
  | .cmd (.lpeSlotStart _) => 9
  | .cmd (.lpeSlotEnd _) => 9
  | .cmd (.pgEvaluate _) => 9
  | .planCut => 10
  | _ => 7

/-- Of the events that are due, the one that happens next: the first in that order, then the oldest. -/
def State.nextDue (s : State) : Option Due :=
  (s.agenda.takeWhile (fun d => decide (d.t ≤ s.now))).foldl (fun (best : Option Due) d =>
    match best with
    | none => some d
    | some b => if evOrder d.ev < evOrder b.ev then some d else best) none

/-- One step with no command waiting. -/
def State.idle (s : State) : Out :=
  match s.nextDue with
  | some d => ok (State.happen { s with agenda := s.agenda.erase d } d.ev)
  | none => go
where
  go : Out :=
    match s.nextEngine false with
    | some e => s.serveEngine e
    | none =>
      if !s.clvIn.isEmpty then ok s.tokenRound
      else
        match s.nextEngine true with
        | some e => s.serveEngine e
        | none =>
          if !s.ansIn.isEmpty then ok { s with pending := List.replicate s.ansIn.length .recordAdmit }
          else ok s.tick

end Sys2Proof.Machine
end

