-- ==== Sys2Proof/Machine/Dispatch.lean ====
section
/-! DEFINITION. The dispatch: one arm per command, one meaning per arm. -/

namespace Sys2Proof.Machine

def exec (i : Instr) (s : State) : Host.Outcome State Fault Refusal :=
  match i with
  | .registerWrite m off size v hw => Sys2Proof.Machine.execRegisterWrite m off size v hw s
  | .inputGood inp mv => Sys2Proof.Machine.execInputGood inp mv s
  | .inputLost inp => Sys2Proof.Machine.execInputLost inp s
  | .bothInputsLost => Sys2Proof.Machine.execBothInputsLost s
  | .holdupInputReturn inp => Sys2Proof.Machine.execHoldupInputReturn inp s
  | .storeExhausted => Sys2Proof.Machine.execStoreExhausted s
  | .storeCharged mj => Sys2Proof.Machine.execStoreCharged mj s
  | .railsUp => Sys2Proof.Machine.execRailsUp s
  | .railFault rail => Sys2Proof.Machine.execRailFault rail s
  | .railFaultPersist rail => Sys2Proof.Machine.execRailFaultPersist rail s
  | .dieOvertemp => Sys2Proof.Machine.execDieOvertemp s
  | .dieCooled => Sys2Proof.Machine.execDieCooled s
  | .pllLockLoss frac => Sys2Proof.Machine.execPllLockLoss frac s
  | .pllRelock => Sys2Proof.Machine.execPllRelock s
  | .pllLockTimeout => Sys2Proof.Machine.execPllLockTimeout s
  | .moduleWdtExpiry => Sys2Proof.Machine.execModuleWdtExpiry s
  | .wdtKick m key => Sys2Proof.Machine.execWdtKick m key s
  | .engineWdtExpiry e => Sys2Proof.Machine.execEngineWdtExpiry e s
  | .wake => Sys2Proof.Machine.execWake s
  | .sleepStoreExhausted => Sys2Proof.Machine.execSleepStoreExhausted s
  | .onchipWipeDone good => Sys2Proof.Machine.execOnchipWipeDone good s
  | .imageLoad => Sys2Proof.Machine.execImageLoad s
  | .recoverySyncWaitEnd => Sys2Proof.Machine.execRecoverySyncWaitEnd s
  | .recoveryTimeout => Sys2Proof.Machine.execRecoveryTimeout s
  | .sleepCountRead m => Sys2Proof.Machine.execSleepCountRead m s
  | .tbWrap b => Sys2Proof.Machine.execTbWrap b s
  | .tbStep m b => Sys2Proof.Machine.execTbStep m b s
  | .tbRateWrite m b v => Sys2Proof.Machine.execTbRateWrite m b v s
  | .tbNsRead m b => Sys2Proof.Machine.execTbNsRead m b s
  | .timeextUpdate b hi wc => Sys2Proof.Machine.execTimeextUpdate b hi wc s
  | .tcmpFire c sw dis => Sys2Proof.Machine.execTcmpFire c sw dis s
  | .ppsInEdge frac => Sys2Proof.Machine.execPpsInEdge frac s
  | .ppsOutFall => Sys2Proof.Machine.execPpsOutFall s
  | .tenSrcChange => Sys2Proof.Machine.execTenSrcChange s
  | .ptpMessageReceive port b msg => Sys2Proof.Machine.execPtpMessageReceive port b msg s
  | .holdoverEnter b => Sys2Proof.Machine.execHoldoverEnter b s
  | .holdoverSyncLoss b => Sys2Proof.Machine.execHoldoverSyncLoss b s
  | .frameTransmit p what => Sys2Proof.Machine.execFrameTransmit p what s
  | .dpwPeriodStart p lead coin => Sys2Proof.Machine.execDpwPeriodStart p lead coin s
  | .standalonePeriodEnd p => Sys2Proof.Machine.execStandalonePeriodEnd p s
  | .deadtimeTurnOn p leg => Sys2Proof.Machine.execDeadtimeTurnOn p leg s
  | .trgcFire p n lead dest => Sys2Proof.Machine.execTrgcFire p n lead dest s
  | .trgPulseEnd p => Sys2Proof.Machine.execTrgPulseEnd p s
  | .dpwCommit m p => Sys2Proof.Machine.execDpwCommit m p s
  | .dpwCmpWrite m p leg v => Sys2Proof.Machine.execDpwCmpWrite m p leg v s
  | .dpwCfgWrite m p v => Sys2Proof.Machine.execDpwCfgWrite m p v s
  | .dpwPeriodWrite m p v => Sys2Proof.Machine.execDpwPeriodWrite m p v s
  | .dpwBridgeWrite m p v => Sys2Proof.Machine.execDpwBridgeWrite m p v s
  | .bridgeDelayedTransition p leg => Sys2Proof.Machine.execBridgeDelayedTransition p leg s
  | .tripSourceAssert src frac => Sys2Proof.Machine.execTripSourceAssert src frac s
  | .swTrip m n v => Sys2Proof.Machine.execSwTrip m n v s
  | .tripLatchClear m p v hw => Sys2Proof.Machine.execTripLatchClear m p v hw s
  | .trfSafeWrite m p v => Sys2Proof.Machine.execTrfSafeWrite m p v s
  | .trfCfgWrite m p v => Sys2Proof.Machine.execTrfCfgWrite m p v s
  | .caqFilterOutput ch bit => Sys2Proof.Machine.execCaqFilterOutput ch bit s
  | .caqChannelValid ch => Sys2Proof.Machine.execCaqChannelValid ch s
  | .caqComparatorEvent ch low => Sys2Proof.Machine.execCaqComparatorEvent ch low s
  | .caqStuck ch => Sys2Proof.Machine.execCaqStuck ch s
  | .caqLatRead m p => Sys2Proof.Machine.execCaqLatRead m p s
  | .caqGroupCfgWrite m g v => Sys2Proof.Machine.execCaqGroupCfgWrite m g v s
  | .caqPortCfgWrite m p v => Sys2Proof.Machine.execCaqPortCfgWrite m p v s
  | .pfbEdge p fa fb fz frac => Sys2Proof.Machine.execPfbEdge p fa fb fz frac s
  | .pfbStandstill p => Sys2Proof.Machine.execPfbStandstill p s
  | .pfbLoad m p => Sys2Proof.Machine.execPfbLoad m p s
  | .pfbAbsorb m p => Sys2Proof.Machine.execPfbAbsorb m p s
  | .pfbHome m p => Sys2Proof.Machine.execPfbHome m p s
  | .pfbCfgWrite m p ser v => Sys2Proof.Machine.execPfbCfgWrite m p ser v s
  | .pfbSnapshotRead m p pos => Sys2Proof.Machine.execPfbSnapshotRead m p pos s
  | .serialTransferEnd p r => Sys2Proof.Machine.execSerialTransferEnd p r s
  | .serialAckTimeout p => Sys2Proof.Machine.execSerialAckTimeout p s
  | .lpeSlotStart k => Sys2Proof.Machine.execLpeSlotStart k s
  | .lpeHookRead k n => Sys2Proof.Machine.execLpeHookRead k n s
  | .lpeSlotEnd k => Sys2Proof.Machine.execLpeSlotEnd k s
  | .lpeHookCommit m k n v => Sys2Proof.Machine.execLpeHookCommit m k n v s
  | .lpeSwap m k => Sys2Proof.Machine.execLpeSwap m k s
  | .lpeResetInt m k => Sys2Proof.Machine.execLpeResetInt m k s
  | .lpeBankWrite m k bank word v coin => Sys2Proof.Machine.execLpeBankWrite m k bank word v coin s
  | .pgEvaluate n => Sys2Proof.Machine.execPgEvaluate n s
  | .pgRetarget m n => Sys2Proof.Machine.execPgRetarget m n s
  | .pgFlush m n => Sys2Proof.Machine.execPgFlush m n s
  | .pgGearArm m n => Sys2Proof.Machine.execPgGearArm m n s
  | .pgLearn m n => Sys2Proof.Machine.execPgLearn m n s
  | .pgLearnEnd m n => Sys2Proof.Machine.execPgLearnEnd m n s
  | .pgKnotPush m n w7 => Sys2Proof.Machine.execPgKnotPush m n w7 s
  | .pgCfgWrite m n v => Sys2Proof.Machine.execPgCfgWrite m n v s
  | .pgWideWrite m n reg hi v => Sys2Proof.Machine.execPgWideWrite m n reg hi v s
  | .pgWideRead m n reg => Sys2Proof.Machine.execPgWideRead m n reg s
  | .chopperCompare p b => Sys2Proof.Machine.execChopperCompare p b s
  | .chopperTimerEnd p b => Sys2Proof.Machine.execChopperTimerEnd p b s
  | .stepperStandstill n => Sys2Proof.Machine.execStepperStandstill n s
  | .nmgSubmitWrite m v => Sys2Proof.Machine.execNmgSubmitWrite m v s
  | .loadStruct => Sys2Proof.Machine.execLoadStruct s
  | .solve => Sys2Proof.Machine.execSolve s
  | .refactor => Sys2Proof.Machine.execRefactor s
  | .abort => Sys2Proof.Machine.execAbort s
  | .nmgIterationEnd => Sys2Proof.Machine.execNmgIterationEnd s
  | .nmgBuildEnd => Sys2Proof.Machine.execNmgBuildEnd s
  | .nmgAutoRefactor => Sys2Proof.Machine.execNmgAutoRefactor s
  | .nmgEccError w => Sys2Proof.Machine.execNmgEccError w s
  | .planCycleStart => Sys2Proof.Machine.execPlanCycleStart s
  | .stateFrameReceive src p => Sys2Proof.Machine.execStateFrameReceive src p s
  | .snapshotEnd => Sys2Proof.Machine.execSnapshotEnd s
  | .planSolveSubmit ofs => Sys2Proof.Machine.execPlanSolveSubmit ofs s
  | .planSolutionReceived => Sys2Proof.Machine.execPlanSolutionReceived s
  | .planOutput parts => Sys2Proof.Machine.execPlanOutput parts s
  | .planDeadline => Sys2Proof.Machine.execPlanDeadline s
  | .cycleFrameReceive src p => Sys2Proof.Machine.execCycleFrameReceive src p s
  | .safetyCycleStart ppm contra => Sys2Proof.Machine.execSafetyCycleStart ppm contra s
  | .safetyOutputPoint => Sys2Proof.Machine.execSafetyOutputPoint s
  | .safetyCycleOverrun => Sys2Proof.Machine.execSafetyCycleOverrun s
  | .safetySupplyFault => Sys2Proof.Machine.execSafetySupplyFault s
  | .saffronStart no nc cover bGood => Sys2Proof.Machine.execSaffronStart no nc cover bGood s
  | .safParamWrite via idx ofs => Sys2Proof.Machine.execSafParamWrite via idx ofs s
  | .sealSample no nc cover => Sys2Proof.Machine.execSealSample no nc cover s
  | .coverOpen => Sys2Proof.Machine.execCoverOpen s
  | .safcDiagnostic code pass => Sys2Proof.Machine.execSafcDiagnostic code pass s
  | .siSample a b => Sys2Proof.Machine.execSiSample a b s
  | .siDiscrepancy si => Sys2Proof.Machine.execSiDiscrepancy si s
  | .testPulse k rb lowA lowB => Sys2Proof.Machine.execTestPulse k rb lowA lowB s
  | .degradedEnd => Sys2Proof.Machine.execDegradedEnd s
  | .stoReleaseCheck g good => Sys2Proof.Machine.execStoReleaseCheck g good s
  | .stogSwitchTest g hs good => Sys2Proof.Machine.execStogSwitchTest g hs good s
  | .stogOvercurrent g => Sys2Proof.Machine.execStogOvercurrent g s
  | .safeFrameReceive p => Sys2Proof.Machine.execSafeFrameReceive p s
  | .connTimeout c => Sys2Proof.Machine.execConnTimeout c s
  | .safRequestWrite m v => Sys2Proof.Machine.execSafRequestWrite m v s
  | .safEstCommit m p tag => Sys2Proof.Machine.execSafEstCommit m p tag s
  | .doorCfgWrite m d v => Sys2Proof.Machine.execDoorCfgWrite m d v s
  | .doorOpen m d seq => Sys2Proof.Machine.execDoorOpen m d seq s
  | .doorClose m d seq => Sys2Proof.Machine.execDoorClose m d seq s
  | .doorStop m d seq => Sys2Proof.Machine.execDoorStop m d seq s
  | .doorLearn m d seq => Sys2Proof.Machine.execDoorLearn m d seq s
  | .doorReset m d seq => Sys2Proof.Machine.execDoorReset m d seq s
  | .doorGrantTimeout d => Sys2Proof.Machine.execDoorGrantTimeout d s
  | .doorLockTimeout d => Sys2Proof.Machine.execDoorLockTimeout d s
  | .fioChcfgWrite m ch v => Sys2Proof.Machine.execFioChcfgWrite m ch v s
  | .fioInputSample raw => Sys2Proof.Machine.execFioInputSample raw s
  | .fioOutWrite m v => Sys2Proof.Machine.execFioOutWrite m v s
  | .fioOutset m v => Sys2Proof.Machine.execFioOutset m v s
  | .fioOutclr m v => Sys2Proof.Machine.execFioOutclr m v s
  | .fioChannelFault ch code => Sys2Proof.Machine.execFioChannelFault ch code s
  | .fioSupplySag b mv => Sys2Proof.Machine.execFioSupplySag b mv s
  | .fioSupplyRestore b mv => Sys2Proof.Machine.execFioSupplyRestore b mv s
  | .outRearm m b => Sys2Proof.Machine.execOutRearm m b s
  | .dlkOvercurrent d => Sys2Proof.Machine.execDlkOvercurrent d s
  | .capStart m => Sys2Proof.Machine.execCapStart m s
  | .capStop m => Sys2Proof.Machine.execCapStop m s
  | .capForce m => Sys2Proof.Machine.execCapForce m s
  | .capTrigger ev ns frac wc => Sys2Proof.Machine.execCapTrigger ev ns frac wc s
  | .capRecordCommit => Sys2Proof.Machine.execCapRecordCommit s
  | .capRearm => Sys2Proof.Machine.execCapRearm s
  | .capRdptrWrite m v => Sys2Proof.Machine.execCapRdptrWrite m v s
  | .tokenArrive tag v tb => Sys2Proof.Machine.execTokenArrive tag v tb s
  | .clvPost m tag => Sys2Proof.Machine.execClvPost m tag s
  | .threadStart m t => Sys2Proof.Machine.execThreadStart m t s
  | .threadHalt m t => Sys2Proof.Machine.execThreadHalt m t s
  | .threadFree m t => Sys2Proof.Machine.execThreadFree m t s
  | .contextFetchDone e => Sys2Proof.Machine.execContextFetchDone e s
  | .budgetExpiry t => Sys2Proof.Machine.execBudgetExpiry t s
  | .overflowDrain => Sys2Proof.Machine.execOverflowDrain s
  | .overflowTimeout => Sys2Proof.Machine.execOverflowTimeout s
  | .graphNodeLimit e => Sys2Proof.Machine.execGraphNodeLimit e s
  | .graphEnd m v => Sys2Proof.Machine.execGraphEnd m v s
  | .interruptEntry k => Sys2Proof.Machine.execInterruptEntry k s
  | .sdsIrqSet m k v => Sys2Proof.Machine.execSdsIrqSet m k v s
  | .add e rd ra rb => Sys2Proof.Machine.execAdd e rd ra rb s
  | .sub e rd ra rb => Sys2Proof.Machine.execSub e rd ra rb s
  | .band e rd ra rb => Sys2Proof.Machine.execBand e rd ra rb s
  | .bor e rd ra rb => Sys2Proof.Machine.execBor e rd ra rb s
  | .xor e rd ra rb => Sys2Proof.Machine.execXor e rd ra rb s
  | .nor e rd ra rb => Sys2Proof.Machine.execNor e rd ra rb s
  | .sll e rd ra rb => Sys2Proof.Machine.execSll e rd ra rb s
  | .srl e rd ra rb => Sys2Proof.Machine.execSrl e rd ra rb s
  | .sra e rd ra rb => Sys2Proof.Machine.execSra e rd ra rb s
  | .slli e rd ra sh => Sys2Proof.Machine.execSlli e rd ra sh s
  | .srli e rd ra sh => Sys2Proof.Machine.execSrli e rd ra sh s
  | .srai e rd ra sh => Sys2Proof.Machine.execSrai e rd ra sh s
  | .mul e rd ra rb => Sys2Proof.Machine.execMul e rd ra rb s
  | .mulh e rd ra rb => Sys2Proof.Machine.execMulh e rd ra rb s
  | .mulhu e rd ra rb => Sys2Proof.Machine.execMulhu e rd ra rb s
  | .div e rd ra rb => Sys2Proof.Machine.execDiv e rd ra rb s
  | .divu e rd ra rb => Sys2Proof.Machine.execDivu e rd ra rb s
  | .rem e rd ra rb => Sys2Proof.Machine.execRem e rd ra rb s
  | .remu e rd ra rb => Sys2Proof.Machine.execRemu e rd ra rb s
  | .slt e rd ra rb => Sys2Proof.Machine.execSlt e rd ra rb s
  | .sltu e rd ra rb => Sys2Proof.Machine.execSltu e rd ra rb s
  | .min e rd ra rb => Sys2Proof.Machine.execMin e rd ra rb s
  | .max e rd ra rb => Sys2Proof.Machine.execMax e rd ra rb s
  | .minu e rd ra rb => Sys2Proof.Machine.execMinu e rd ra rb s
  | .maxu e rd ra rb => Sys2Proof.Machine.execMaxu e rd ra rb s
  | .sel e q rd ra rb => Sys2Proof.Machine.execSel e q rd ra rb s
  | .cmpp e pd cond ra rb => Sys2Proof.Machine.execCmpp e pd cond ra rb s
  | .pand e pd pa pb => Sys2Proof.Machine.execPand e pd pa pb s
  | .por e pd pa pb => Sys2Proof.Machine.execPor e pd pa pb s
  | .pxor e pd pa pb => Sys2Proof.Machine.execPxor e pd pa pb s
  | .pandn e pd pa pb => Sys2Proof.Machine.execPandn e pd pa pb s
  | .pnot e pd pa => Sys2Proof.Machine.execPnot e pd pa s
  | .mfp e rd => Sys2Proof.Machine.execMfp e rd s
  | .mtp e ra => Sys2Proof.Machine.execMtp e ra s
  | .clz e rd ra => Sys2Proof.Machine.execClz e rd ra s
  | .ctz e rd ra => Sys2Proof.Machine.execCtz e rd ra s
  | .popc e rd ra => Sys2Proof.Machine.execPopc e rd ra s
  | .addi e rd ra imm => Sys2Proof.Machine.execAddi e rd ra imm s
  | .andi e rd ra imm => Sys2Proof.Machine.execAndi e rd ra imm s
  | .ori e rd ra imm => Sys2Proof.Machine.execOri e rd ra imm s
  | .xori e rd ra imm => Sys2Proof.Machine.execXori e rd ra imm s
  | .lui e rd imm => Sys2Proof.Machine.execLui e rd imm s
  | .slti e rd ra imm => Sys2Proof.Machine.execSlti e rd ra imm s
  | .cmppi e pd cond ra imm => Sys2Proof.Machine.execCmppi e pd cond ra imm s
  | .mfs e rd imm => Sys2Proof.Machine.execMfs e rd imm s
  | .mts e ra imm => Sys2Proof.Machine.execMts e ra imm s
  | .trap e imm => Sys2Proof.Machine.execTrap e imm s
  | .eret e => Sys2Proof.Machine.execEret e s
  | .brk e => Sys2Proof.Machine.execBrk e s
  | .fence e => Sys2Proof.Machine.execFence e s
  | .ld e rd ra sz disp => Sys2Proof.Machine.execLd e rd ra sz disp s
  | .ldu e rd ra sz disp => Sys2Proof.Machine.execLdu e rd ra sz disp s
  | .st e rs ra sz disp => Sys2Proof.Machine.execSt e rs ra sz disp s
  | .ldf e rd ra sz disp => Sys2Proof.Machine.execLdf e rd ra sz disp s
  | .stf e rs ra sz disp => Sys2Proof.Machine.execStf e rs ra sz disp s
  | .amoSwap e rd ra rb => Sys2Proof.Machine.execAmoSwap e rd ra rb s
  | .amoAdd e rd ra rb => Sys2Proof.Machine.execAmoAdd e rd ra rb s
  | .amoAnd e rd ra rb => Sys2Proof.Machine.execAmoAnd e rd ra rb s
  | .amoOr e rd ra rb => Sys2Proof.Machine.execAmoOr e rd ra rb s
  | .amoCas e rd ra rb => Sys2Proof.Machine.execAmoCas e rd ra rb s
  | .cacheWriteBack e ra disp => Sys2Proof.Machine.execCacheWriteBack e ra disp s
  | .cacheInvalidate e ra disp => Sys2Proof.Machine.execCacheInvalidate e ra disp s
  | .cacheWbInvalidate e ra disp => Sys2Proof.Machine.execCacheWbInvalidate e ra disp s
  | .bp e q ofs => Sys2Proof.Machine.execBp e q ofs s
  | .bnp e q ofs => Sys2Proof.Machine.execBnp e q ofs s
  | .bz e ra ofs => Sys2Proof.Machine.execBz e ra ofs s
  | .bnz e ra ofs => Sys2Proof.Machine.execBnz e ra ofs s
  | .bltz e ra ofs => Sys2Proof.Machine.execBltz e ra ofs s
  | .bgez e ra ofs => Sys2Proof.Machine.execBgez e ra ofs s
  | .blez e ra ofs => Sys2Proof.Machine.execBlez e ra ofs s
  | .bgtz e ra ofs => Sys2Proof.Machine.execBgtz e ra ofs s
  | .ba e ofs => Sys2Proof.Machine.execBa e ofs s
  | .j e ofs => Sys2Proof.Machine.execJ e ofs s
  | .jl e ofs => Sys2Proof.Machine.execJl e ofs s
  | .jalr e rd ra imm => Sys2Proof.Machine.execJalr e rd ra imm s
  | .fadd e dbl rd ra rb => Sys2Proof.Machine.execFadd e dbl rd ra rb s
  | .fsub e dbl rd ra rb => Sys2Proof.Machine.execFsub e dbl rd ra rb s
  | .fmul e dbl rd ra rb => Sys2Proof.Machine.execFmul e dbl rd ra rb s
  | .fdiv e dbl rd ra rb => Sys2Proof.Machine.execFdiv e dbl rd ra rb s
  | .fsqrt e dbl rd ra => Sys2Proof.Machine.execFsqrt e dbl rd ra s
  | .fmin e dbl rd ra rb => Sys2Proof.Machine.execFmin e dbl rd ra rb s
  | .fmax e dbl rd ra rb => Sys2Proof.Machine.execFmax e dbl rd ra rb s
  | .fmac e dbl rd ra rb => Sys2Proof.Machine.execFmac e dbl rd ra rb s
  | .fnmac e dbl rd ra rb => Sys2Proof.Machine.execFnmac e dbl rd ra rb s
  | .fabs e dbl rd ra => Sys2Proof.Machine.execFabs e dbl rd ra s
  | .fneg e dbl rd ra => Sys2Proof.Machine.execFneg e dbl rd ra s
  | .fmov e dbl rd ra => Sys2Proof.Machine.execFmov e dbl rd ra s
  | .fcvtp e dbl rd ra => Sys2Proof.Machine.execFcvtp e dbl rd ra s
  | .fcvtw e dbl rd ra => Sys2Proof.Machine.execFcvtw e dbl rd ra s
  | .fcvtf e dbl rd ra => Sys2Proof.Machine.execFcvtf e dbl rd ra s
  | .fmvl e rd ra => Sys2Proof.Machine.execFmvl e rd ra s
  | .fmvh e rd ra => Sys2Proof.Machine.execFmvh e rd ra s
  | .fmtl e rd ra => Sys2Proof.Machine.execFmtl e rd ra s
  | .fmth e rd ra => Sys2Proof.Machine.execFmth e rd ra s
  | .fcmpp e dbl pd cond ra rb => Sys2Proof.Machine.execFcmpp e dbl pd cond ra rb s
  | .twait e ra rb => Sys2Proof.Machine.execTwait e ra rb s
  | .tpost e ra rb => Sys2Proof.Machine.execTpost e ra rb s
  | .tposti e ra imm => Sys2Proof.Machine.execTposti e ra imm s
  | .tread e rd b rw => Sys2Proof.Machine.execTread e rd b rw s
  | .mpy e acc ra rb => Sys2Proof.Machine.execMpy e acc ra rb s
  | .mac e acc ra rb => Sys2Proof.Machine.execMac e acc ra rb s
  | .msu e acc ra rb => Sys2Proof.Machine.execMsu e acc ra rb s
  | .clra e acd => Sys2Proof.Machine.execClra e acd s
  | .nega e acd => Sys2Proof.Machine.execNega e acd s
  | .adda e acd acs => Sys2Proof.Machine.execAdda e acd acs s
  | .suba e acd acs => Sys2Proof.Machine.execSuba e acd acs s
  | .sha e acd k => Sys2Proof.Machine.execSha e acd k s
  | .mva e rd acd scl rnd => Sys2Proof.Machine.execMva e rd acd scl rnd s
  | .mvta e acd ra => Sys2Proof.Machine.execMvta e acd ra s
  | .mval e rd acd => Sys2Proof.Machine.execMval e rd acd s
  | .mvah e rd acd => Sys2Proof.Machine.execMvah e rd acd s
  | .mtal e acd ra => Sys2Proof.Machine.execMtal e acd ra s
  | .mtah e acd ra => Sys2Proof.Machine.execMtah e acd ra s
  | .tsta e pd cond acd => Sys2Proof.Machine.execTsta e pd cond acd s
  | .macd e acc op mx my lx ly ax ay nl => Sys2Proof.Machine.execMacd e acc op mx my lx ly ax ay nl s
  | .ldp e rd n sm sz u => Sys2Proof.Machine.execLdp e rd n sm sz u s
  | .stp e rs n sm sz => Sys2Proof.Machine.execStp e rs n sm sz s
  | .mvtp e g n => Sys2Proof.Machine.execMvtp e g n s
  | .mvts e g n => Sys2Proof.Machine.execMvts e g n s
  | .mvfp e g n => Sys2Proof.Machine.execMvfp e g n s
  | .mvfs e g n => Sys2Proof.Machine.execMvfs e g n s
  | .addps e n => Sys2Proof.Machine.execAddps e n s
  | .addpi e n imm => Sys2Proof.Machine.execAddpi e n imm s
  | .loop e cnt len => Sys2Proof.Machine.execLoop e cnt len s
  | .mfl e g sel => Sys2Proof.Machine.execMfl e g sel s
  | .mtl e g sel => Sys2Proof.Machine.execMtl e g sel s
  | .lpop e => Sys2Proof.Machine.execLpop e s
  | .reti e => Sys2Proof.Machine.execReti e s
  | .sqDoorbell m r v => Sys2Proof.Machine.execSqDoorbell m r v s
  | .cqDoorbell m r v => Sys2Proof.Machine.execCqDoorbell m r v s
  | .ringEnable m r v => Sys2Proof.Machine.execRingEnable m r v s
  | .sqeFetch r raw => Sys2Proof.Machine.execSqeFetch r raw s
  | .cqeWrite r good => Sys2Proof.Machine.execCqeWrite r good s
  | .msixCoalTimeout r => Sys2Proof.Machine.execMsixCoalTimeout r s
  | .pcieLinkLoss => Sys2Proof.Machine.execPcieLinkLoss s
  | .pciePerst => Sys2Proof.Machine.execPciePerst s
  | .nop via => Sys2Proof.Machine.execNop via s
  | .regRead via off cnt => Sys2Proof.Machine.execRegRead via off cnt s
  | .regWrite via off v => Sys2Proof.Machine.execRegWrite via off v s
  | .tokenPost via tag v => Sys2Proof.Machine.execTokenPost via tag v s
  | .moduleRun via => Sys2Proof.Machine.execModuleRun via s
  | .moduleStop via => Sys2Proof.Machine.execModuleStop via s
  | .moduleSleep via => Sys2Proof.Machine.execModuleSleep via s
  | .moduleResetSafe via => Sys2Proof.Machine.execModuleResetSafe via s
  | .moduleRestart via => Sys2Proof.Machine.execModuleRestart via s
  | .nmgSubmit via ofs => Sys2Proof.Machine.execNmgSubmit via ofs s
  | .idRead via ofs => Sys2Proof.Machine.execIdRead via ofs s
  | .idLogin via ofs => Sys2Proof.Machine.execIdLogin via ofs s
  | .idLogout via => Sys2Proof.Machine.execIdLogout via s
  | .idAttest via ofs chal => Sys2Proof.Machine.execIdAttest via ofs chal s
  | .lcChange via target ofs => Sys2Proof.Machine.execLcChange via target ofs s
  | .rcdExport via start cnt ofs => Sys2Proof.Machine.execRcdExport via start cnt ofs s
  | .rcdNonce via => Sys2Proof.Machine.execRcdNonce via s
  | .rcdClear via ofs => Sys2Proof.Machine.execRcdClear via ofs s
  | .imgErase via slot ofs => Sys2Proof.Machine.execImgErase via slot ofs s
  | .imgWrite via slot ofs src len => Sys2Proof.Machine.execImgWrite via slot ofs src len s
  | .imgCommit via slot len => Sys2Proof.Machine.execImgCommit via slot len s
  | .cfgWrite via ofs => Sys2Proof.Machine.execCfgWrite via ofs s
  | .cfgRead via ofs => Sys2Proof.Machine.execCfgRead via ofs s
  | .rcdFrameReceive src msg => Sys2Proof.Machine.execRcdFrameReceive src msg s
  | .rcdTimeout r n => Sys2Proof.Machine.execRcdTimeout r n s
  | .bbsFrameReceive p f rtag size => Sys2Proof.Machine.execBbsFrameReceive p f rtag size s
  | .bbsLinkDown p => Sys2Proof.Machine.execBbsLinkDown p s
  | .bbsLinkUp p speed preempt tx rx => Sys2Proof.Machine.execBbsLinkUp p speed preempt tx rx s
  | .gclCommit m p v => Sys2Proof.Machine.execGclCommit m p v s
  | .gclActivate p => Sys2Proof.Machine.execGclActivate p s
  | .gateIntervalEnd p => Sys2Proof.Machine.execGateIntervalEnd p s
  | .stateFrameSend => Sys2Proof.Machine.execStateFrameSend s
  | .hbReceive src pathB p => Sys2Proof.Machine.execHbReceive src pathB p s
  | .ckptFetchDone l ofs => Sys2Proof.Machine.execCkptFetchDone l ofs s
  | .ckptReceive src frag nfrag ck => Sys2Proof.Machine.execCkptReceive src frag nfrag ck s
  | .witnessLost => Sys2Proof.Machine.execWitnessLost s
  | .starveSs1Timeout n => Sys2Proof.Machine.execStarveSs1Timeout n s
  | .recordAdmit => Sys2Proof.Machine.execRecordAdmit s
  | .ansPost m v => Sys2Proof.Machine.execAnsPost m v s
  | .ansFlushTimer => Sys2Proof.Machine.execAnsFlushTimer s
  | .ansFlush good => Sys2Proof.Machine.execAnsFlush good s
  | .ansPtrRead m tail => Sys2Proof.Machine.execAnsPtrRead m tail s
  | .planFragmentDeadline plan => Sys2Proof.Machine.execPlanFragmentDeadline plan s
  | .tripInputRelease src => Sys2Proof.Machine.execTripInputRelease src s
  | .inputRestored inp mv => Sys2Proof.Machine.execInputRestored inp mv s
  | .pcieLinkUp rate width sris => Sys2Proof.Machine.execPcieLinkUp rate width sris s
  | .sfpModuleInsert p hot => Sys2Proof.Machine.execSfpModuleInsert p hot s
  | .frerRecoveryReset src cls => Sys2Proof.Machine.execFrerRecoveryReset src cls s
  | .addressTableAgeing mac => Sys2Proof.Machine.execAddressTableAgeing mac s
  | .sessionExpiry src r => Sys2Proof.Machine.execSessionExpiry src r s

end Sys2Proof.Machine
end

