-- ==== Sys2Proof/Safety.lean ====
section
/-! DEFINITION. What counts as a safe run of the block: every step of it answers a next state, and the data stays
in canonical form, so that equal contents are equal states. -/

namespace Sys2Proof.Machine

/-- `t` is the state `n` steps after `s`. -/
def stepsTo : Nat → State → State → Prop
  | 0, s, t => s = t
  | n + 1, s, t => ∃ u, step s = .next u ∧ stepsTo n u t

/-- `n` steps from `s` end in no fault and no refusal. -/
def safeFor (n : Nat) (s : State) : Prop := ∃ t, stepsTo n s t

/-- Memory, registers and banked words are in canonical form. -/
def State.canonical (s : State) : Bool :=
  Memory.wf s.mem && FMap.wf regReset s.regs && FMap.wf bankReset s.bank

/-! ## The execution of one instruction of an engine, in the terms of the claims -/

/-- The PC of engine `e` is in its program memory and a multiple of 4 (R338, R341), and no error that ECC cannot
correct stands in the word (R26, R362). -/
def State.fetches (s : State) (e : Fin 16) : Prop :=
  (s.en e.val).pc.toNat < progBytes e.val ∧ (s.en e.val).pc.toNat % 4 = 0
    ∧ s.eccIn (.prog e) (s.en e.val).pc.toNat 4 true = false

/-- Engine `e` may execute an instruction that stands at `k` and needs `n`: it fetches its word, the engine has the
profile (R337), and an SDSP may have the instruction at this place (R377, R378). -/
def State.canRun (s : State) (e : Fin 16) (k : Place) (n : Need) : Prop :=
  s.fetches e ∧ n.met e.val = true ∧ (s.en e.val).placeOk (isSdsp e.val) k = true

/-- What an instruction of the engines needs of its engine (R337, R345, R355, R360). -/
def needOf : Instr → Need
  | .mpy _ _ _ _ => .signal
  | .mac _ _ _ _ => .signal
  | .msu _ _ _ _ => .signal
  | .clra _ _ => .signal
  | .nega _ _ => .signal
  | .adda _ _ _ => .signal
  | .suba _ _ _ => .signal
  | .sha _ _ _ => .signal
  | .mva _ _ _ _ _ => .signal
  | .mvta _ _ _ => .signal
  | .mval _ _ _ => .signal
  | .mvah _ _ _ => .signal
  | .mtal _ _ _ => .signal
  | .mtah _ _ _ => .signal
  | .tsta _ _ _ _ => .signal
  | .macd _ _ _ _ _ _ _ _ _ _ => .signal
  | .ldp _ _ _ _ _ _ => .signal
  | .stp _ _ _ _ _ => .signal
  | .mvtp _ _ _ => .signal
  | .mvts _ _ _ => .signal
  | .mvfp _ _ _ => .signal
  | .mvfs _ _ _ => .signal
  | .addps _ _ => .signal
  | .addpi _ _ _ => .signal
  | .loop _ _ _ => .signal
  | .mfl _ _ _ => .signal
  | .mtl _ _ _ => .signal
  | .lpop _ => .signal
  | .reti _ => .signal
  | .fadd _ dbl _ _ _ => fpNeed dbl
  | .fsub _ dbl _ _ _ => fpNeed dbl
  | .fmul _ dbl _ _ _ => fpNeed dbl
  | .fdiv _ dbl _ _ _ => fpNeed dbl
  | .fmin _ dbl _ _ _ => fpNeed dbl
  | .fmax _ dbl _ _ _ => fpNeed dbl
  | .fmac _ dbl _ _ _ => fpNeed dbl
  | .fnmac _ dbl _ _ _ => fpNeed dbl
  | .fsqrt _ dbl _ _ => fpNeed dbl
  | .fabs _ dbl _ _ => fpNeed dbl
  | .fneg _ dbl _ _ => fpNeed dbl
  | .fmov _ dbl _ _ => fpNeed dbl
  | .fcvtw _ dbl _ _ => fpNeed dbl
  | .fcvtf _ dbl _ _ => fpNeed dbl
  | .fcmpp _ dbl _ _ _ _ => fpNeed dbl
  | .fcvtp _ _ _ _ => .fp64
  | .fmvl _ _ _ => .fp32
  | .fmvh _ _ _ => .fp32
  | .fmtl _ _ _ => .fp32
  | .fmth _ _ _ => .fp32
  | .ldf _ _ _ sz _ => fpNeed (decide (sz.val = 3))
  | .stf _ _ _ sz _ => fpNeed (decide (sz.val = 3))
  | .twait _ _ _ => .clove
  | .tpost _ _ _ => .clove
  | .tposti _ _ _ => .clove
  | _ => .base

/-- Engine `e` found itself in state `x`, executed an instruction that is no jump with the effects `y` on it, and
goes on to the next one; `completed` is what happens at the end of every instruction. -/
def State.retired (s : State) (e : Fin 16) (x y : Eng) : State :=
  (s.setEn e.val ({ y.shiftStale with busy := false }.advance x (isSdsp e.val))).completed e.val

/-- Engine `e` executed a jump to `a` with the effects `y` on it. -/
def State.jumped (s : State) (e : Fin 16) (y : Eng) (a : Word) : State :=
  (s.setEn e.val { y.shiftStale with busy := false, pc := pcOf a }).completed e.val

/-- `y` is `x` with `v` in the general register `rd`; g0 stays as it is (R338). -/
def Eng.wroteG (x y : Eng) (rd : Fin 32) (v : Word) : Prop :=
  y.gRaw rd.val = (if rd.val = 0 then 0#32 else v) ∧ (∀ r, r ≠ rd.val → y.gRaw r = x.gRaw r) ∧ y = { x with g := y.g }

/-- `y` is `x` with `v` in the floating register `rd`. -/
def Eng.wroteE (x y : Eng) (rd : Fin 32) (v : Wide) : Prop :=
  y.fpr rd.val = v ∧ (∀ r, r ≠ rd.val → y.fpr r = x.fpr r) ∧ y = { x with e := y.e }

/-- `y` is `x` with the truth value `b` in the predicate `pd`. -/
def Eng.wroteP (x y : Eng) (pd : Fin 4) (b : Bool) : Prop :=
  y.pred pd.val = b ∧ (∀ q : Fin 4, q ≠ pd → y.pred q.val = x.pred q.val) ∧ y = { x with p := y.p }

/-- `y` is `x` with `v` in accumulator `i`. -/
def Eng.wroteA (x y : Eng) (i : Fin 4) (v : Int) : Prop :=
  y.acc i.val = v ∧ (∀ j, j ≠ i.val → y.acc j = x.acc j) ∧ y = { x with ac := y.ac }

/-- The module answers master `m` at the register `off` now (R20, R24, R25, R391). -/
def State.reaches (s : State) (m : Sys2Proof.Master) (off : Nat) : Prop :=
  s.reach m off = true ∧ (m = .host → inSaf off = false) ∧ noWrite m off = false

/-- `t` is `s` but for the register at `off`. -/
def State.sameBut (s t : State) (offs : List Nat) : Prop :=
  (∀ o, o ∉ offs → t.rd o = s.rd o) ∧ t = { s with regs := t.regs }

/-- `t` is `s` but for the registers at `offs` and the answer to the access. -/
def State.wrote (s t : State) (offs : List Nat) : Prop := s.sameBut { t with lastResp := s.lastResp } offs

/-- The access only set the flag `F`. -/
def State.flagged (s t : State) (F : Field) : Prop := t.on F = true ∧ s.wrote t [F.off]

/-- The module ignored the access and made the record of R11 for it. -/
def State.turnedAway (s t : State) : Prop :=
  t = { s with lastResp := t.lastResp, ansIn := s.ansIn ++ [⟨s.time64 0, 0x1501#16, 0, 2, 0, 0, s.ownMod⟩] }

/-- `t` is what a cause of rank `r` in the order of R22 makes of `s`, with the effect `act` of the cause: nothing after
a transition of the same CLK_IO cycle that ranks before it; else its effect on the state without the transitions of the
cycle that rank behind it, where that effect is a transition, and else its effect on the state as it is. -/
def State.ranks (s t : State) (r : Nat) (act : State → State → Prop) : Prop :=
  (s.beaten r = true → t = s)
    ∧ (s.beaten r = false → ∃ w : State, act (s.unmoved r) w ∧ (w.moveKeys ≠ (s.unmoved r).moveKeys → t = w)
      ∧ (w.moveKeys = (s.unmoved r).moveKeys → act s t))

end Sys2Proof.Machine
end

