-- ==== Sys2Proof/Certificates/Slice0/Obligations.lean ====
section
/-! DEFINITION. The statements for the provers, in the order of OBLIGATIONS.json. -/

open Sys2Proof Sys2Proof.Machine

/-! ## The block as a whole -/

/-- For every command c and every state: with c at the front of the queue, a step is the execution of c on the
state with the rest of the queue; with an empty queue a step is what the module does by itself, which always
gives a next state (the model's choice, log entry 21). (00_scope.md; 95_what_each_step_holds.md). -/
def Obligations.StepRunsFrontCommand : Prop :=
  ∀ s : State, (∀ (c : Instr) (rest : List Instr), step { s with pending := c :: rest } = exec c { s with pending := rest })
    ∧ (s.pending = [] → step s = s.idle ∧ ∃ t : State, s.idle = .next t)

/-- Whatever the state and the operands, every command of the table gives a next state: a command that the
module turns away, ignores or answers with an error does so in a next state, and ordinary data ends no run. So
every run, from any state and of any length, goes on. (00_scope.md; 95_what_each_step_holds.md). -/
def Obligations.EveryCommandCompletes : Prop :=
  (∀ (c : Instr) (s : State), ∃ t : State, exec c s = .next t) ∧ ∀ (n : Nat) (s : State), safeFor n s

/-- After reset no command waits, memory and registers are in canonical form, and every register reads the value
that its table gives: among them the module state register of R476 with the state BOOT, the engine watchdogs at
1,000, the watchdog time left at 50,000, the PERIOD of comparator 0 at one frame, the rate class of every record
code, masked MSI-X vectors and the trip latches of every port at STO and STATE set (R73). No engine runs a
thread. (Where a table gives no value the model names one, log entry 3.) (00_scope.md;
21_power_startup_recovery.md, R476; 19_anise_recorder.md; 17_host_and_backbone.md, R400; 02_cell_time.md). -/
def Obligations.ResetState : Prop :=
  let s := State.reset
  s.pending = [] ∧ s.canonical = true ∧ (∀ o, s.rd o = regReset o) ∧ s.rd PWS.MODSTATE = 0x10002#32
    ∧ (∀ k : Fin 15, s.f (PWS.EWD_LIMIT k.val) = 1000 ∧ s.on (PWS.EWD_EXP k.val) = false) ∧ s.f PWS.WDSTAT_LEFT = 50000
    ∧ s.rd (TCMP.PERIOD 0) = 15625#32 ∧ (∀ k : Fin 256, s.f (ANS.CLASS_RATE k.val) = 100 ∧ s.f (ANS.CLASS_BURST k.val) = 16)
    ∧ (∀ n : Fin 64, s.on (MSIX.CTRL_MASK n.val) = true) ∧ (∀ p : Fin 96, s.rd (TRF.LATCH p.val) = 0x50#32)
    ∧ ∀ e : Fin 15, s.runningOn e.val = none

/-- For every instruction of the engines, with every operand its encoding can hold, and every engine and state:
executing the word that the encoding tables give it is executing that instruction. (That the tables are read
right is stated by the words of the specification's examples.) (15_kloparam_base.md, R343; 15_kloparam_base.md,
R345; 15_kloparam_base.md, R346; 15_kloparam_base.md, R353; 15_kloparam_base.md, R355; 16_signal_profile.md,
R386). -/
def Obligations.EncodingRoundTrip : Prop :=
  ∀ (i : Instr) (e : Fin 16) (s : State), i.engine = some e → s.runWord e i.word = exec i s

/-- A word that is the word of no instruction of the engines (an opcode, function or selector that no table
gives, or a bit set that must be 0) raises ILLEGAL with the word as EVAL on every engine that fetches its word,
and two different instructions of one engine have different words. (15_kloparam_base.md, R344;
15_kloparam_base.md, R362). -/
def Obligations.NoOtherWord : Prop :=
  (∀ (s : State) (e : Fin 16) (w : Word), s.fetches e →
      (∀ i : Instr, i.engine = some e → i.word ≠ w) → s.runWord e w = .next (s.exception e.val 0x01 w))
    ∧ ∀ (i j : Instr) (e : Fin 16), i.engine = some e → j.engine = some e → i.word = j.word → i = j

/-- The words of the worked examples stand for the instructions they are given for: ORI g8, g0, 0x0120; TWAIT
g8, g0; TREAD g9, 0, g10; SUB g11, g9, g12; ADDI g12, g9, 0; BA −4; MACD with acc 0, MAC, mx 2, my 3, lx 6, ly
7, ax 0, ay 4; and MVA g12, acc 0, SCL +1, rounded. (15_kloparam_base.md; 16_signal_profile.md). -/
def Obligations.WordExamples : Prop :=
  ∀ (s : State) (e : Fin 16),
    s.runWord e 0x0D000120#32 = exec (.ori e 8 0 0x0120#16) s ∧ s.runWord e 0xA0080000#32 = exec (.twait e 8 0) s
      ∧ s.runWord e 0xA1205002#32 = exec (.tread e 9 0 10) s ∧ s.runWord e 0x01696002#32 = exec (.sub e 11 9 12) s
      ∧ s.runWord e 0x05890000#32 = exec (.addi e 12 9 0#16) s ∧ s.runWord e 0x6008FFFC#32 = exec (.ba e 0xFFFC#16) s
      ∧ s.runWord e 0xC853DC40#32 = exec (.macd e 0 1 2 3 6 7 0 4 false) s
      ∧ s.runWord e 0xC580A600#32 = exec (.mva e 12 0 1#3 true) s

/-! ## The engines (R337 to R386) -/

/-- On every engine that may execute it, ADD, SUB, AND, OR, XOR, NOR, SLL, SRL, SRA, MUL, MULH, MULHU, SLT,
SLTU, MIN, MAX, MINU and MAXU write the result of R346 to g[rd] (a write to g0 is discarded, R338), every other
register of the engine keeps its value, and the engine goes on to the next instruction. The operands are the
registers as the instruction reads them (on an SDSP at distance 1 of a load, the value before it). ADDI and SLTI
use the sign-extended immediate, ANDI, ORI and XORI the zero-extended one, LUI writes imm16 << 16; SLLI, SRLI
and SRAI shift by the rb field; SEL takes g[ra] when its predicate is 1 and else g[rb]; MFP reads p3 to p0 into
bits 3 to 0 and MTP writes them; CLZ, CTZ and POPC count leading zeros, trailing zeros (32 for 0) and set bits.
Nothing else of the engine changes. (15_kloparam_base.md, R346; 15_kloparam_base.md, R338; 15_kloparam_base.md,
R348). -/
def Obligations.IntegerResults : Prop :=
  (
    ∀ (s : State) (e : Fin 16) (rd ra rb : Fin 32), s.canRun e .alu .base →
      let x := s.en e.val
      let a := x.gpr ra.val
      let b := x.gpr rb.val
      let gives (i : Instr) (v : Word) : Prop := ∃ y : Eng, exec i s = .next (s.retired e x y) ∧ x.wroteG y rd v
      gives (.add e rd ra rb) (a + b) ∧ gives (.sub e rd ra rb) (a - b)
        ∧ gives (.band e rd ra rb) (a &&& b) ∧ gives (.bor e rd ra rb) (a ||| b)
        ∧ gives (.xor e rd ra rb) (a ^^^ b) ∧ gives (.nor e rd ra rb) (~~~(a ||| b))
        ∧ gives (.sll e rd ra rb) (a <<< (b &&& 31#32)) ∧ gives (.srl e rd ra rb) (a >>> (b &&& 31#32))
        ∧ gives (.sra e rd ra rb) (a.sshiftRight' (b &&& 31#32))
        ∧ gives (.mul e rd ra rb) (a * b)
        ∧ gives (.mulh e rd ra rb) (((a.signExtend 64 * b.signExtend 64) >>> 32).setWidth 32)
        ∧ gives (.mulhu e rd ra rb) (((a.setWidth 64 * b.setWidth 64) >>> 32).setWidth 32)
        ∧ gives (.slt e rd ra rb) (if a.toInt < b.toInt then 1#32 else 0#32)
        ∧ gives (.sltu e rd ra rb) (if a.toNat < b.toNat then 1#32 else 0#32)
        ∧ gives (.min e rd ra rb) (if a.toInt ≤ b.toInt then a else b)
        ∧ gives (.max e rd ra rb) (if a.toInt ≤ b.toInt then b else a)
        ∧ gives (.minu e rd ra rb) (if a.toNat ≤ b.toNat then a else b)
        ∧ gives (.maxu e rd ra rb) (if a.toNat ≤ b.toNat then b else a))
  ∧
  (
    ∀ (s : State) (e : Fin 16) (rd ra rb : Fin 32) (imm : BitVec 16) (q : Fin 4), s.canRun e .alu .base →
      let x := s.en e.val
      let a := x.gpr ra.val
      let b := x.gpr rb.val
      let gives (i : Instr) (v : Word) : Prop := ∃ y : Eng, exec i s = .next (s.retired e x y) ∧ x.wroteG y rd v
      gives (.addi e rd ra imm) (a + imm.signExtend 32)
        ∧ gives (.andi e rd ra imm) (a &&& (0#16 ++ imm)) ∧ gives (.ori e rd ra imm) (a ||| (0#16 ++ imm))
        ∧ gives (.xori e rd ra imm) (a ^^^ (0#16 ++ imm)) ∧ gives (.lui e rd imm) (imm ++ 0#16)
        ∧ gives (.slti e rd ra imm) (if a.toInt < imm.toInt then 1#32 else 0#32)
        ∧ gives (.slli e rd ra rb) (a <<< rb.val) ∧ gives (.srli e rd ra rb) (a >>> rb.val)
        ∧ gives (.srai e rd ra rb) (a.sshiftRight rb.val)
        ∧ gives (.sel e q rd ra rb) (if x.p.getLsbD q.val then a else b)
        ∧ gives (.mfp e rd) (0#28 ++ x.p)
        ∧ exec (.mtp e ra) s = .next (s.retired e x { x with p := a.extractLsb' 0 4 })
        ∧ (∃ n : Nat, gives (.clz e rd ra) (BitVec.ofNat 32 n) ∧ n ≤ 32 ∧ (∀ j, j < n → a.getMsbD j = false)
            ∧ (n < 32 → a.getMsbD n = true))
        ∧ (∃ n : Nat, gives (.ctz e rd ra) (BitVec.ofNat 32 n) ∧ n ≤ 32 ∧ (∀ j, j < n → a.getLsbD j = false)
            ∧ (n < 32 → a.getLsbD n = true))
        ∧ gives (.popc e rd ra) (BitVec.ofNat 32 ((List.finRange 32).countP (fun j => a.getLsbD j.val))))

/-- DIV, DIVU, REM and REMU complete on every engine for all operands: by 0 the quotient is 0xFFFF_FFFF and the
remainder the dividend; 0x8000_0000 by −1 gives 0x8000_0000 and remainder 0; otherwise the quotient is rounded
toward zero and the remainder has the sign of the dividend. No other register of the engine changes. (R347). -/
def Obligations.EngineDivision : Prop :=
  ∀ (s : State) (e : Fin 16) (rd ra rb : Fin 32), s.canRun e .alu .base →
    let x := s.en e.val
    let a := x.gpr ra.val
    let b := x.gpr rb.val
    let gives (i : Instr) (P : Word → Prop) : Prop :=
      ∃ (v : Word) (y : Eng), exec i s = .next (s.retired e x y) ∧ x.wroteG y rd v ∧ P v
    gives (.div e rd ra rb) (fun q => (b = 0#32 → q = 0xFFFFFFFF#32)
        ∧ (a = 0x80000000#32 → b = 0xFFFFFFFF#32 → q = 0x80000000#32)
        ∧ (b ≠ 0#32 → ¬(a = 0x80000000#32 ∧ b = 0xFFFFFFFF#32) → q.toInt = a.toInt.tdiv b.toInt))
      ∧ gives (.divu e rd ra rb) (fun q => (b = 0#32 → q = 0xFFFFFFFF#32) ∧ (b ≠ 0#32 → q.toNat = a.toNat / b.toNat))
      ∧ gives (.rem e rd ra rb) (fun r => (b = 0#32 → r = a)
        ∧ (a = 0x80000000#32 → b = 0xFFFFFFFF#32 → r = 0#32) ∧ (b ≠ 0#32 → r.toInt = a.toInt.tmod b.toInt))
      ∧ gives (.remu e rd ra rb) (fun r => (b = 0#32 → r = a) ∧ (b ≠ 0#32 → r.toNat = a.toNat % b.toNat))

/-- CMPP and CMPPI write the predicate pd with EQ, NE, LT, GE (signed), LTU, GEU (unsigned) of g[ra] and g[rb],
or the sign-extended immediate; the conditions 6 and 7 raise ILLEGAL with the instruction word. PAND, POR, PXOR,
PANDN and PNOT write pd with the operation of R346. No other predicate or register changes.
(15_kloparam_base.md, R346; 15_kloparam_base.md, R349). -/
def Obligations.EnginePredicateResults : Prop :=
  ∀ (s : State) (e : Fin 16) (ra rb : Fin 32) (imm : BitVec 16) (pd pa pb : Fin 4), s.canRun e .alu .base →
    let x := s.en e.val
    let a := x.gpr ra.val
    let b := x.gpr rb.val
    let c : Word := imm.signExtend 32
    let p := x.p.getLsbD pa.val
    let q := x.p.getLsbD pb.val
    let gives (i : Instr) (v : Bool) : Prop := ∃ y : Eng, exec i s = .next (s.retired e x y) ∧ x.wroteP y pd v
    gives (.cmpp e pd 0 ra rb) (decide (a = b)) ∧ gives (.cmpp e pd 1 ra rb) (decide (a ≠ b))
      ∧ gives (.cmpp e pd 2 ra rb) (decide (a.toInt < b.toInt)) ∧ gives (.cmpp e pd 3 ra rb) (decide (b.toInt ≤ a.toInt))
      ∧ gives (.cmpp e pd 4 ra rb) (decide (a.toNat < b.toNat)) ∧ gives (.cmpp e pd 5 ra rb) (decide (b.toNat ≤ a.toNat))
      ∧ gives (.cmppi e pd 0 ra imm) (decide (a = c)) ∧ gives (.cmppi e pd 1 ra imm) (decide (a ≠ c))
      ∧ gives (.cmppi e pd 2 ra imm) (decide (a.toInt < imm.toInt)) ∧ gives (.cmppi e pd 3 ra imm) (decide (imm.toInt ≤ a.toInt))
      ∧ gives (.cmppi e pd 4 ra imm) (decide (a.toNat < c.toNat)) ∧ gives (.cmppi e pd 5 ra imm) (decide (c.toNat ≤ a.toNat))
      ∧ (∀ cond : Fin 8, 6 ≤ cond.val →
          exec (.cmpp e pd cond ra rb) s = .next (s.exception e.val 0x01 (Instr.cmpp e pd cond ra rb).word)
            ∧ exec (.cmppi e pd cond ra imm) s = .next (s.exception e.val 0x01 (Instr.cmppi e pd cond ra imm).word))
      ∧ gives (.pand e pd pa pb) (p && q) ∧ gives (.por e pd pa pb) (p || q) ∧ gives (.pxor e pd pa pb) (xor p q)
      ∧ gives (.pandn e pd pa pb) (p && !q) ∧ gives (.pnot e pd pa) (!p)

/-- MFS writes to g[rd] the register of its number: STATUS, EPC, ESTATUS, ECAUSE, EVAL, EVEC, ENGID, THREAD,
PROFILE, CYCLE (which latches bits 63 to 32 into CYCLEH), CYCLEH, and on an SDSP IPC, ISTATUS, ICAUSE and IVEC.
Every other number raises ILLEGAL with the instruction word. Nothing else changes. MTS writes g[ra] to STATUS
(reserved bits ignored, and IE on engines without the signal profile), EPC, ESTATUS, EVEC and on an SDSP IPC,
ISTATUS and IVEC; an IVEC that is neither 0 nor a multiple of 4 in program memory, a read-only register and
every other number raise ILLEGAL. That a saved status word takes only the bits of STATUS and that an address
drops its two low bits is the model's reading (log entry 24). (15_kloparam_base.md, R340; 16_signal_profile.md,
R385; 15_kloparam_base.md, R339). -/
def Obligations.SystemRegisters : Prop :=
  (
    ∀ (s : State) (e : Fin 16) (rd : Fin 32), s.canRun e .other .base →
      let x := s.en e.val
      let reads (num : BitVec 16) (v : Word) : Prop :=
        ∃ y : Eng, exec (.mfs e rd num) s = .next (s.retired e x y) ∧ x.wroteG y rd v
      let illegal (num : BitVec 16) : Prop :=
        exec (.mfs e rd num) s = .next (s.exception e.val 0x01 (Instr.mfs e rd num).word)
      reads 0x000#16 x.status ∧ reads 0x001#16 x.epc ∧ reads 0x002#16 x.estatus ∧ reads 0x003#16 x.ecause
        ∧ reads 0x004#16 x.eval ∧ reads 0x005#16 x.evec ∧ reads 0x010#16 (BitVec.ofNat 32 e.val)
        ∧ (e.val < 15 → ∀ t, s.runningOn e.val = some t → t < 1024 →
            reads 0x011#16 (BitVec.ofNat 32 (t + if s.graphMode then 1024 else 0)))
        ∧ reads 0x012#16 (if e.val < 4 then 0b11011#32 else if e.val < 12 then 0b00100#32
            else if e.val = 12 ∨ e.val = 14 then 0b10011#32 else if e.val = 13 then 0b10001#32 else 0b00001#32)
        ∧ (∃ y : Eng, exec (.mfs e rd 0x014#16) s = .next (s.retired e x y)
            ∧ y.gRaw rd.val = (if rd.val = 0 then 0#32 else BitVec.ofNat 32 (s.cycles e.val))
            ∧ y.cycH = BitVec.ofNat 32 (s.cycles e.val / 2 ^ 32)
            ∧ (∀ r, r ≠ rd.val → y.gRaw r = x.gRaw r) ∧ y = { x with g := y.g, cycH := y.cycH })
        ∧ reads 0x015#16 x.cycH
        ∧ (isSdsp e.val = true → reads 0x020#16 x.ipc ∧ reads 0x021#16 x.istatus ∧ reads 0x022#16 x.icause ∧ reads 0x023#16 x.ivec)
        ∧ (isSdsp e.val = false → illegal 0x020#16 ∧ illegal 0x021#16 ∧ illegal 0x022#16 ∧ illegal 0x023#16)
        ∧ (∀ num : BitVec 16, num.toNat ∉ [0x000, 0x001, 0x002, 0x003, 0x004, 0x005, 0x010, 0x011, 0x012, 0x014, 0x015,
            0x020, 0x021, 0x022, 0x023] → illegal num))
  ∧
  (
    ∀ (s : State) (e : Fin 16) (ra : Fin 32), s.canRun e .other .base →
      let x := s.en e.val
      let v := x.gpr ra.val
      let st : Word := v &&& (if isSdsp e.val then 0x31FF#32 else 0x31FD#32)
      let writes (num : BitVec 16) (y : Eng) : Prop := exec (.mts e ra num) s = .next (s.retired e x y)
      let illegal (num : BitVec 16) : Prop :=
        exec (.mts e ra num) s = .next (s.exception e.val 0x01 (Instr.mts e ra num).word)
      writes 0x000#16 { x with status := st } ∧ writes 0x001#16 { x with epc := v &&& ~~~3#32 }
        ∧ writes 0x002#16 { x with estatus := st } ∧ writes 0x005#16 { x with evec := v &&& ~~~3#32 }
        ∧ (isSdsp e.val = true → writes 0x020#16 { x with ipc := v &&& ~~~3#32 } ∧ writes 0x021#16 { x with istatus := st }
          ∧ ((v = 0#32 ∨ (v.toNat % 4 = 0 ∧ v.toNat < 0x10000)) → writes 0x023#16 { x with ivec := v })
          ∧ (¬(v = 0#32 ∨ (v.toNat % 4 = 0 ∧ v.toNat < 0x10000)) → illegal 0x023#16))
        ∧ (isSdsp e.val = false → illegal 0x020#16 ∧ illegal 0x021#16 ∧ illegal 0x023#16)
        ∧ (∀ num : BitVec 16, num.toNat ∉ [0x000, 0x001, 0x002, 0x005, 0x020, 0x021, 0x023] → illegal num))

/-- With STATUS.EXC = 0 and EVEC ≠ 0 (a multiple of 4), an exception of any cause saves the PC in EPC and STATUS
in ESTATUS, loads ECAUSE and EVAL, sets STATUS.EXC and goes to EVEC; no other register of the engine changes but
that values which an SDSP still had in flight settle, and what waits for a boundary happens then. TRAP takes it
with cause 0x06 and EVAL imm16, BREAK with cause 0x07 and EVAL 0. ERET puts EPC into PC and ESTATUS into STATUS
and changes nothing else. (R363). -/
def Obligations.ExceptionEntry : Prop :=
  ∀ (s : State) (e : Fin 16) (imm : BitVec 16),
    let x := s.en e.val
    let entered (code : Nat) (v : Word) : State :=
      let t := s.setEn e.val { x.settle with
        epc := x.pc, estatus := x.status, ecause := BitVec.ofNat 32 code, eval := v, status := x.status ||| 1#32,
        pc := x.evec, slot := none }
      if e.val < 15 then t.boundary e.val else t
    (x.status.getLsbD 0 = false → x.evec ≠ 0#32 → x.evec.toNat % 4 = 0 →
        (∀ code v, s.exception e.val code v = entered code v)
          ∧ (s.canRun e .other .base →
            exec (.trap e imm) s = .next (entered 0x06 (0#16 ++ imm)) ∧ exec (.brk e) s = .next (entered 0x07 0#32)))
      ∧ (s.canRun e .control .base → x.epc.toNat % 4 = 0 →
        exec (.eret e) s = .next ((s.setEn e.val { x.shiftStale with status := x.estatus, pc := x.epc, busy := false }).completed e.val))

/-- For every instruction of an engine: with the PC outside the engine's program memory (or no multiple of 4), or an
error in its word that ECC cannot correct, it raises FETCH with the fetch address; otherwise, when the encoding rules refuse its operands, or the engine lacks
what it needs, it raises ILLEGAL with its word. PLN, NSEQ and SVC have fp32 and fp64, CSEQ and SAFC fp32, the
SDSPs the signal profile only; Clove's instructions run on every engine but SAFC. (15_kloparam_base.md, R337;
15_kloparam_base.md, R342; 15_kloparam_base.md, R344; 15_kloparam_base.md, R360; 15_kloparam_base.md, R362;
16_signal_profile.md, R370). -/
def Obligations.ExceptionOrder : Prop :=
  (∀ (s : State) (i : Instr) (e : Fin 16), i.engine = some e →
    let x := s.en e.val
    ((progBytes e.val ≤ x.pc.toNat ∨ x.pc.toNat % 4 ≠ 0 ∨ s.eccIn (.prog e) x.pc.toNat 4 true = true) →
        exec i s = .next (s.exception e.val 0x05 x.pc))
      ∧ (s.fetches e → (i.wf = false ∨ (needOf i).met e.val = false) →
        exec i s = .next (s.exception e.val 0x01 i.word)))
    ∧ ∀ e : Fin 16, (Need.signal.met e.val = true ↔ 4 ≤ e.val ∧ e.val < 12)
      ∧ (Need.fp32.met e.val = true ↔ ¬(4 ≤ e.val ∧ e.val < 12))
      ∧ (Need.fp64.met e.val = true ↔ e.val < 4 ∨ e.val = 12 ∨ e.val = 14) ∧ (Need.clove.met e.val = true ↔ e.val ≠ 15)

/-- Where the address g[ra] + disp14 lies in a memory of the engine's map, an aligned LD sign-extends and LDU
zero-extends its 1, 2 or 4 bytes into g[rd], and LDF brings 4 bytes (the upper half 0) or 8 bytes into e[rd];
memory keeps every byte. On an SDSP the next instruction still reads the register as before the load. An address
that is no multiple of the size raises ALIGN with the address, one that the map gives nothing for raises BUS, and
bytes in which an error stands that ECC cannot correct raise ECC (R26, R362).
Where the address g[ra] + disp14 lies in a memory that the engine may write, an aligned ST stores the low 1, 2
or 4 bytes of g[rs] and STF 4 or 8 bytes of e[rs], and every other byte of memory reads as before; nothing else
of the module changes. A misaligned address raises ALIGN; a read-only memory of the map (program memory, the
capture ring) and an address with no memory raise BUS. (15_kloparam_base.md, R350; 15_kloparam_base.md, R341;
16_signal_profile.md, R379; 15_kloparam_base.md, R342). -/
def Obligations.EngineLoadsAndStores : Prop :=
  (
    ∀ (s : State) (e : Fin 16) (rd ra : Fin 32) (sz : Fin 4) (disp : BitVec 14),
      let x := s.en e.val
      let a := x.gpr ra.val + disp.signExtend 32
      let loaded (i : Instr) (v : Word) : Prop :=
        ∃ y : Eng, exec i s = .next (s.retired e x y) ∧ y.gRaw rd.val = (if rd.val = 0 then 0#32 else v)
          ∧ (∀ r, r ≠ rd.val → y.gRaw r = x.gRaw r) ∧ y = { x with g := y.g, nextG := y.nextG }
          ∧ (isSdsp e.val = true → y.shiftStale.gpr rd.val = x.gRaw rd.val)
          ∧ (isSdsp e.val = false → y.nextG = x.nextG)
      let bits (m : MemId) (o : Nat) : BitVec 64 :=
        s.byte m (o + 7) ++ s.byte m (o + 6) ++ s.byte m (o + 5) ++ s.byte m (o + 4) ++ s.byte m (o + 3) ++ s.byte m (o + 2)
          ++ s.byte m (o + 1) ++ s.byte m o
      let stops (i : Instr) : Prop :=
        (a.toNat % 2 ^ sz.val ≠ 0 → exec i s = .next (s.exception e.val 0x02 a))
          ∧ (a.toNat % 2 ^ sz.val = 0 → spotOf x e.val a.toNat = none → exec i s = .next (s.exception e.val 0x03 a))
      (s.canRun e .other .base → sz.val < 3 → stops (.ld e rd ra sz disp) ∧ stops (.ldu e rd ra sz disp)
          ∧ (a.toNat % 2 ^ sz.val = 0 → ∀ m o ro, spotOf x e.val a.toNat = some (.mem m o ro) → s.eccIn m o (2 ^ sz.val) true = true →
            exec (.ld e rd ra sz disp) s = .next (s.exception e.val 0x04 a) ∧ exec (.ldu e rd ra sz disp) s = .next (s.exception e.val 0x04 a))
          ∧ (a.toNat % 2 ^ sz.val = 0 → ∀ m o ro, spotOf x e.val a.toNat = some (.mem m o ro) → s.eccIn m o (2 ^ sz.val) true = false →
            loaded (.ld e rd ra sz disp) (((bits m o).setWidth (8 * 2 ^ sz.val)).signExtend 32)
              ∧ loaded (.ldu e rd ra sz disp) (((bits m o).setWidth (8 * 2 ^ sz.val)).setWidth 32)))
        ∧ (s.canRun e .other (if sz.val = 3 then .fp64 else .fp32) → 2 ≤ sz.val → stops (.ldf e rd ra sz disp)
          ∧ (a.toNat % 2 ^ sz.val = 0 → ∀ m o ro, spotOf x e.val a.toNat = some (.mem m o ro) →
            (s.eccIn m o (2 ^ sz.val) true = true → exec (.ldf e rd ra sz disp) s = .next (s.exception e.val 0x04 a))
              ∧ (s.eccIn m o (2 ^ sz.val) true = false → ∃ y : Eng, exec (.ldf e rd ra sz disp) s = .next (s.retired e x y)
                ∧ x.wroteE y rd (((bits m o).setWidth (8 * 2 ^ sz.val)).setWidth 64)))))
  ∧
  (
    ∀ (s : State) (e : Fin 16) (rs ra : Fin 32) (sz : Fin 4) (disp : BitVec 14),
      let x := s.en e.val
      let a := x.gpr ra.val + disp.signExtend 32
      let n := 2 ^ sz.val
      let stored (i : Instr) (v : Nat) : Prop :=
        ∀ m o, spotOf x e.val a.toNat = some (.mem m o false) → ∃ t : State, exec i s = .next (t.retired e x x)
          ∧ (∀ j, j < n → (t.byte m (o + j)).toNat = v / 256 ^ j % 256)
          ∧ (∀ m' b, m'.base + b < m.base + o ∨ m.base + o + n ≤ m'.base + b → t.byte m' b = s.byte m' b)
          ∧ t = { s with mem := t.mem, ecc := t.ecc }
      let stops (i : Instr) : Prop :=
        (a.toNat % n ≠ 0 → exec i s = .next (s.exception e.val 0x02 a))
          ∧ (a.toNat % n = 0 → (spotOf x e.val a.toNat = none ∨ ∃ m o, spotOf x e.val a.toNat = some (.mem m o true)) →
            exec i s = .next (s.exception e.val 0x03 a))
      (s.canRun e .other .base → sz.val < 3 →
          stops (.st e rs ra sz disp) ∧ (a.toNat % n = 0 → stored (.st e rs ra sz disp) (x.gpr rs.val).toNat))
        ∧ (s.canRun e .other (if sz.val = 3 then .fp64 else .fp32) → 2 ≤ sz.val →
          stops (.stf e rs ra sz disp) ∧ (a.toNat % n = 0 → stored (.stf e rs ra sz disp) (x.fpr rs.val).toNat)))

/-- The map that loads and stores use is that of R341: the engine's own program memory from 0 (read-only), its
data memory from 0x0010_0000, bank D1 of an SDSP from 0x0014_0000, BAR0 offsets from 0x1000_0000, the shared
SRAM window from 0x1300_0000, the capture ring from 0x1800_0000 (read-only, 4 MiB repeated), the factor SRAM on
NSEQ from 0x2000_0000, and the LPDDR5X from 0x8000_0000 on PLN, NSEQ, SVC and CSEQ, at DWIN × 2^31 plus the
offset, but for the top 8 MiB, which hold Clove's overflow queues (R327); SAFC has its own memories and the
registers of its ports, at addresses that the manual does not give (log entry 30), and what no line names has no
memory. (15_kloparam_base.md, R341; 14_clove_dispatcher.md, R327). -/
def Obligations.EngineAddressMap : Prop :=
  ∀ (x : Eng) (e : Fin 16) (a : Nat), a < 2 ^ 32 →
    (a < (MemId.prog e).size → spotOf x e.val a = some (.mem (.prog e) a true))
      ∧ (0x00100000 ≤ a → a < 0x00100000 + (MemId.data e).size → spotOf x e.val a = some (.mem (.data e) (a - 0x00100000) false))
      ∧ (4 ≤ e.val → e.val < 12 → 0x00140000 ≤ a → a < 0x00150000 → spotOf x e.val a = some (.mem (.ydata e) (a - 0x00140000) false))
      ∧ (e.val ≠ 15 → 0x10000000 ≤ a → a < 0x13000000 → spotOf x e.val a = some (.bar (a - 0x10000000)))
      ∧ (e.val ≠ 15 → 0x13000000 ≤ a → a < 0x14000000 → spotOf x e.val a = some (.mem .shared (a - 0x13000000) false))
      ∧ (e.val ≠ 15 → 0x18000000 ≤ a → a < 0x19000000 → spotOf x e.val a = some (.mem .capture ((a - 0x18000000) % 0x400000) true))
      ∧ (e.val = 12 → 0x20000000 ≤ a → a < 0x21000000 → spotOf x e.val a = some (.mem .factor (a - 0x20000000) false))
      ∧ (e.val < 4 ∨ e.val = 12 ∨ e.val = 13 ∨ e.val = 14 → 0x80000000 ≤ a →
          let d := (x.status.extractLsb' 12 2).toNat * 2 ^ 31 + (a - 0x80000000)
          (d < 0x1FF800000 → spotOf x e.val a = some (.ddr d)) ∧ (0x1FF800000 ≤ d → spotOf x e.val a = none))
      ∧ (e.val = 15 → 0x00140000 ≤ a →
          (∀ o, Config.safcPort a = some o → (PFB.CFG 0 ≤ o ∧ o < PFB.CFG 96) ∨ (0x01C00000 ≤ o ∧ o < 0x01E00000) →
            spotOf x e.val a = some (.bar o))
          ∧ ((∀ o, Config.safcPort a = some o → ¬(PFB.CFG 0 ≤ o ∧ o < PFB.CFG 96) ∧ ¬(0x01C00000 ≤ o ∧ o < 0x01E00000)) →
            spotOf x e.val a = none))
      ∧ (4 ≤ e.val → e.val < 12 → 0x20000000 ≤ a → spotOf x e.val a = none)
      ∧ (e.val ≠ 15 → 0x14000000 ≤ a → a < 0x18000000 → spotOf x e.val a = none)

/-- On an aligned address of the shared SRAM window, SWAP writes g[rb], ADD t + g[rb], AND t AND g[rb], OR t OR
g[rb], and CAS g[rb] only when t = g[rd], where t is the word read; then g[rd] := t. No other byte of memory and
no other register changes. A misaligned address raises ALIGN, every memory of the map but the shared SRAM and the
LPDDR5X raises BUS, and a word in which an error stands that ECC cannot correct raises ECC. On an engine without a data cache, and for an address outside the DDR window, CACHE
has no effect. On a PLN, invalidate drops the line that holds the address and changes no memory; write back
leaves the line clean and the 64 bytes of memory equal to it when it was dirty; both together write back and
then drop. FENCE changes nothing. (15_kloparam_base.md, R351; 15_kloparam_base.md, R352; 15_kloparam_base.md,
R361). -/
def Obligations.AtomicsCacheAndFence : Prop :=
  (
    ∀ (s : State) (e : Fin 16) (rd ra rb : Fin 32), s.canRun e .other .base →
      let x := s.en e.val
      let a := x.gpr ra.val
      let b := x.gpr rb.val
      let word (u : State) (o : Nat) : Word := u.byte .shared (o + 3) ++ u.byte .shared (o + 2) ++ u.byte .shared (o + 1) ++ u.byte .shared o
      let does (i : Instr) (new : Word → Word) : Prop :=
        (a.toNat % 4 ≠ 0 → exec i s = .next (s.exception e.val 0x02 a))
          ∧ (a.toNat % 4 = 0 → (spotOf x e.val a.toNat = none ∨ (∃ f, spotOf x e.val a.toNat = some (.bar f))
              ∨ ∃ m o ro, m ≠ .shared ∧ spotOf x e.val a.toNat = some (.mem m o ro)) →
            exec i s = .next (s.exception e.val 0x03 a))
          ∧ (a.toNat % 4 = 0 → ∀ o, spotOf x e.val a.toNat = some (.mem .shared o false) → s.eccIn .shared o 4 true = true →
            exec i s = .next (s.exception e.val 0x04 a))
          ∧ (a.toNat % 4 = 0 → ∀ o, spotOf x e.val a.toNat = some (.mem .shared o false) → s.eccIn .shared o 4 true = false →
            ∃ (t : State) (y : Eng), exec i s = .next (t.retired e x y) ∧ x.wroteG y rd (word s o) ∧ word t o = new (word s o)
              ∧ (∀ m b, m.base + b < o ∨ o + 4 ≤ m.base + b → t.byte m b = s.byte m b) ∧ t = { s with mem := t.mem, ecc := t.ecc })
      does (.amoSwap e rd ra rb) (fun _ => b) ∧ does (.amoAdd e rd ra rb) (fun t => t + b)
        ∧ does (.amoAnd e rd ra rb) (fun t => t &&& b) ∧ does (.amoOr e rd ra rb) (fun t => t ||| b)
        ∧ does (.amoCas e rd ra rb) (fun t => if t = x.gpr rd.val then b else t))
  ∧
  (
    ∀ (s : State) (e : Fin 16) (ra : Fin 32) (disp : BitVec 14), s.canRun e .other .base →
      let x := s.en e.val
      let a := x.gpr ra.val + disp.signExtend 32
      exec (.fence e) s = .next (s.retired e x x)
        ∧ ((4 ≤ e.val ∨ ∀ d, spotOf x e.val a.toNat ≠ some (.ddr d)) →
          exec (.cacheWriteBack e ra disp) s = .next (s.retired e x x)
            ∧ exec (.cacheInvalidate e ra disp) s = .next (s.retired e x x)
            ∧ exec (.cacheWbInvalidate e ra disp) s = .next (s.retired e x x))
        ∧ (e.val < 4 → ∀ d, spotOf x e.val a.toNat = some (.ddr d) →
          (∃ y : Eng, exec (.cacheInvalidate e ra disp) s = .next (s.retired e x y) ∧ y.line d = none ∧ y = { x with cache := y.cache }
              ∧ ∀ b, b / 64 ≠ d / 64 → y.line b = x.line b)
            ∧ (∀ c, x.line d = some c → s.pws.stopped = false →
              (∃ (t : State) (y : Eng), exec (.cacheWriteBack e ra disp) s = .next (t.retired e x y)
                  ∧ y.line d = some { c with dirty := false } ∧ y = { x with cache := y.cache } ∧ t = { s with mem := t.mem, ecc := t.ecc }
                  ∧ (c.dirty = true → ∀ j, j < 64 → (t.byte .ddr (c.addr + j)).toNat = c.data / 256 ^ j % 256)
                  ∧ (c.dirty = false → t = s))
                ∧ (∃ (t : State) (y : Eng), exec (.cacheWbInvalidate e ra disp) s = .next (t.retired e x y)
                  ∧ y.line d = none ∧ y = { x with cache := y.cache } ∧ t = { s with mem := t.mem, ecc := t.ecc }
                  ∧ (c.dirty = true → ∀ j, j < 64 → (t.byte .ddr (c.addr + j)).toNat = c.data / 256 ^ j % 256)))))

/-- A KB branch goes to PC + 4 × ofs16 when its condition holds and else to the instruction after it. On an SDSP
the target waits two delay slots: the two instructions after the branch execute in either case. BP and BNP test
a predicate, BZ, BNZ, BLTZ, BGEZ, BLEZ and BGTZ test g[S] against 0 (signed), BA is always taken. No register
changes. J and JL go to PC + 4 × ofs26, and JL writes g31 := PC + 4. JALR goes to g[ra] + imm16 computed from
the old g[ra] and writes g[rd] := PC + 4; a target that is no multiple of 4 raises ALIGN with the target and
leaves g[rd] unchanged (the exception is taken from the state before). (15_kloparam_base.md, R353;
16_signal_profile.md, R378). -/
def Obligations.BranchesAndJumps : Prop :=
  (
    ∀ (s : State) (e : Fin 16) (q : Fin 4) (ra : Fin 32) (ofs : BitVec 16), s.canRun e .branch .base →
      let x := s.en e.val
      let a := (x.gpr ra.val).toInt
      let target := x.pc + ofs.signExtend 32 * 4#32
      let branches (i : Instr) (c : Prop) : Prop :=
        (isSdsp e.val = false →
            (c → exec i s = .next ((s.setEn e.val { x.shiftStale with pc := target }).completed e.val))
              ∧ (¬c → exec i s = .next ((s.setEn e.val { x.shiftStale with pc := x.pc + 4#32 }).completed e.val)))
          ∧ (isSdsp e.val = true →
            (c → exec i s = .next ((s.setEn e.val { x.shiftStale with pc := x.pc + 4#32, slot := some (2, target) }).completed e.val))
              ∧ (¬c → exec i s = .next ((s.setEn e.val
                  { x.shiftStale with pc := x.pc + 4#32, slot := some (2, x.pc + 12#32) }).completed e.val)))
      branches (.bp e q ofs) (x.p.getLsbD q.val = true) ∧ branches (.bnp e q ofs) (x.p.getLsbD q.val = false)
        ∧ branches (.bz e ra ofs) (a = 0) ∧ branches (.bnz e ra ofs) (a ≠ 0) ∧ branches (.bltz e ra ofs) (a < 0)
        ∧ branches (.bgez e ra ofs) (0 ≤ a) ∧ branches (.blez e ra ofs) (a ≤ 0) ∧ branches (.bgtz e ra ofs) (0 < a)
        ∧ branches (.ba e ofs) True)
  ∧
  (
    ∀ (s : State) (e : Fin 16) (rd ra : Fin 32) (ofs : BitVec 26) (imm : BitVec 16), s.canRun e .control .base →
      let x := s.en e.val
      let far := x.pc + ofs.signExtend 32 * 4#32
      let a := x.gpr ra.val + imm.signExtend 32
      let goes (y : Eng) (target : Word) : State := (s.setEn e.val { y.shiftStale with busy := false, pc := target }).completed e.val
      exec (.j e ofs) s = .next (goes x far)
        ∧ (∃ y : Eng, exec (.jl e ofs) s = .next (goes y far) ∧ x.wroteG y 31 (x.pc + 4#32))
        ∧ (a.toNat % 4 = 0 → ∃ y : Eng, exec (.jalr e rd ra imm) s = .next (goes y a) ∧ x.wroteG y rd (x.pc + 4#32))
        ∧ (a.toNat % 4 ≠ 0 → exec (.jalr e rd ra imm) s = .next (s.exception e.val 0x02 a)))

/-- The canonical no-operation ORI g0, g0, 0 shows how an engine goes on: to PC + 4; in the first of two delay
slots to PC + 4 and in the last to the branch target; and on an SDSP at the LE of the innermost active level to
LS with LC counted down, or behind LE once LC was 1. Values in flight at distance 1 move on, and nothing else
changes. What happens at the end of every instruction of an engine below 15 changes nothing when the engine runs
no thread; and in thread mode, when no halt, requeue, stop or incoming thread waits, it changes nothing but the
due time of that engine's watchdog. On SAFC it changes nothing. (15_kloparam_base.md, R344;
16_signal_profile.md, R376; 16_signal_profile.md, R378; 14_clove_dispatcher.md, R326;
21_power_startup_recovery.md, R473). -/
def Obligations.Sequencing : Prop :=
  (
    ∀ (s : State) (e : Fin 16), s.canRun e .alu .base →
      let x := s.en e.val
      let goesOn (y : Eng) : Prop :=
        exec (.ori e 0 0 0#16) s = .next ((s.setEn e.val { y with busy := false }).completed e.val)
      (x.slot = none → isSdsp e.val = false → goesOn { x.shiftStale with pc := x.pc + 4#32 })
        ∧ (∀ n a, x.slot = some (n, a) → n ≤ 1 → a.toNat % 4 = 0 → goesOn { x.shiftStale with pc := a, slot := none })
        ∧ (∀ n a, x.slot = some (n, a) → 1 < n → goesOn { x.shiftStale with pc := x.pc + 4#32, slot := some (n - 1, a) })
        ∧ (x.slot = none → isSdsp e.val = true → x.staleL = none →
          (x.lp.lc1 = 0#32 → x.lp.lc0 = 0#32 → goesOn { x.shiftStale with pc := x.pc + 4#32 })
            ∧ (x.lp.lc1 ≠ 0#32 → x.pc ≠ x.lp.le1 → goesOn { x.shiftStale with pc := x.pc + 4#32 })
            ∧ (x.lp.lc1 ≠ 0#32 → x.pc = x.lp.le1 → x.lp.ls1.toNat % 4 = 0 → 1 < x.lp.lc1.toNat →
              goesOn { x.shiftStale with pc := x.lp.ls1, lp := { x.lp with lc1 := x.lp.lc1 - 1#32 } })
            ∧ (x.lp.lc1 = 1#32 → x.pc = x.lp.le1 →
              goesOn { x.shiftStale with pc := x.pc + 4#32, lp := { x.lp with lc1 := 0#32 } })
            ∧ (x.lp.lc1 = 0#32 → x.lp.lc0 ≠ 0#32 → x.pc = x.lp.le0 → x.lp.ls0.toNat % 4 = 0 → 1 < x.lp.lc0.toNat →
              goesOn { x.shiftStale with pc := x.lp.ls0, lp := { x.lp with lc0 := x.lp.lc0 - 1#32 } })
            ∧ (x.lp.lc1 = 0#32 → x.lp.lc0 = 1#32 → x.pc = x.lp.le0 →
              goesOn { x.shiftStale with pc := x.pc + 4#32, lp := { x.lp with lc0 := 0#32 } })))
  ∧
  (
    ∀ (s : State) (e : Fin 16),
      ((e.val = 15 ∨ s.runningOn e.val = none) → s.completed e.val = s)
        ∧ (e.val < 15 → s.graphMode = false → (s.en e.val).halt = false → (s.en e.val).requeue = false → s.engStopped e.val = false →
          s.incoming e.val = none → ∃ t : State, s.completed e.val = t ∧ t = { s with agenda := t.agenda }
            ∧ (t.agenda.filter (fun d => !decide (d.ev = .cmd (.engineWdtExpiry e)))
                = s.agenda.filter (fun d => !decide (d.ev = .cmd (.engineWdtExpiry e))))))

/-- FADD, FSUB, FMUL, FDIV, FSQRT, FMIN, FMAX, FMAC, FNMAC, FCVTP and FCVTF write to e[rd] the result of the
operation on the decoded operands, rounded once by STATUS.FRM in the precision P (a binary32 result clears the
upper half), and raise NX, OF and DZ exactly when the result does, UF and NV except where the specification
leaves tininess or the invalid product under a NaN addend open (free values, log entry 2). No flag is cleared
and nothing else of the engine changes. In both precisions: a NaN operand of a sum, product, quotient or square
root gives the canonical quiet NaN with NV only for a signalling one; infinity minus infinity, zero times
infinity, 0/0, infinity over infinity and the root of a negative number give it with NV; a finite non-zero
number over zero gives the infinity of the sign with DZ; and a finite number of the format converted to the
format is itself with no flag, in every rounding mode. (15_kloparam_base.md, R355; 15_kloparam_base.md, R339).
-/
def Obligations.FloatResults : Prop :=
  (
    ∀ (s : State) (e : Fin 16) (dbl : Bool) (rd ra rb : Fin 32),
      let x := s.en e.val
      let f := fmtOf dbl
      let rm := (x.status.extractLsb' 2 2).toNat
      let op (d : Bool) (r : Fin 32) : FV := (fmtOf d).un (x.fpr r.val).toNat
      let gives (i : Instr) (r : FRes) : Prop :=
        ∃ (y : Eng) (n : Nat), exec i s = .next ({ s with free := n }.retired e x y)
          ∧ y.fpr rd.val = BitVec.ofNat 64 r.bits ∧ (∀ q, q ≠ rd.val → y.fpr q = x.fpr q)
          ∧ y = { x with e := y.e, status := y.status }
          ∧ (∀ k, k < 4 ∨ 9 ≤ k → y.status.getLsbD k = x.status.getLsbD k)
          ∧ y.status.getLsbD 4 = (x.status.getLsbD 4 || r.nx) ∧ y.status.getLsbD 6 = (x.status.getLsbD 6 || r.ov)
          ∧ y.status.getLsbD 7 = (x.status.getLsbD 7 || r.dz)
          ∧ (r.ufOpen = false → y.status.getLsbD 5 = (x.status.getLsbD 5 || r.uf))
          ∧ (r.nvOpen = false → y.status.getLsbD 8 = (x.status.getLsbD 8 || r.nv))
          ∧ (r.ufOpen = false → r.nvOpen = false → n = s.free)
      (s.canRun e .other (if dbl then .fp64 else .fp32) →
          gives (.fadd e dbl rd ra rb) (f.add rm (op dbl ra) (op dbl rb))
            ∧ gives (.fsub e dbl rd ra rb) (f.add rm (op dbl ra) (op dbl rb).neg)
            ∧ gives (.fmul e dbl rd ra rb) (f.mul rm (op dbl ra) (op dbl rb))
            ∧ gives (.fdiv e dbl rd ra rb) (f.div rm (op dbl ra) (op dbl rb))
            ∧ gives (.fsqrt e dbl rd ra) (f.sqrt rm (op dbl ra))
            ∧ gives (.fmin e dbl rd ra rb) (f.minmax false (x.fpr ra.val).toNat (x.fpr rb.val).toNat)
            ∧ gives (.fmax e dbl rd ra rb) (f.minmax true (x.fpr ra.val).toNat (x.fpr rb.val).toNat)
            ∧ gives (.fmac e dbl rd ra rb) (f.fma rm (op dbl ra) (op dbl rb) (op dbl rd))
            ∧ gives (.fnmac e dbl rd ra rb) (f.fma rm (op dbl ra).neg (op dbl rb) (op dbl rd))
            ∧ gives (.fcvtf e dbl rd ra) (f.ofInt rm (x.gpr ra.val).toInt))
        ∧ (s.canRun e .other .fp64 → gives (.fcvtp e dbl rd ra) (f.conv rm (op (!dbl) ra))))
  ∧
  (
    ∀ (dbl : Bool) (rm : Nat) (b : FV),
      let f := fmtOf dbl
      let canonical : Nat := if dbl then 0x7FF8000000000000 else 0x7FC00000
      let invalid : FRes := { FRes.exact canonical with nv := true }
      (∀ sig, (f.add rm (.nan sig) b).bits = canonical ∧ (f.mul rm b (.nan sig)).bits = canonical ∧ (f.div rm (.nan sig) b).bits = canonical
          ∧ (f.sqrt rm (.nan sig)) = { FRes.exact canonical with nv := sig }
          ∧ (b ≠ .nan true → (f.add rm (.nan sig) b).nv = sig ∧ (f.mul rm b (.nan sig)).nv = sig ∧ (f.div rm (.nan sig) b).nv = sig))
        ∧ (∀ n, f.add rm (.inf n) (.inf (!n)) = invalid)
        ∧ (∀ n k e, f.mul rm (.inf n) (.fin k 0 e) = invalid ∧ f.mul rm (.fin k 0 e) (.inf n) = invalid)
        ∧ (∀ n k, f.div rm (.inf n) (.inf k) = invalid)
        ∧ (∀ n k e g, f.div rm (.fin n 0 e) (.fin k 0 g) = invalid)
        ∧ (∀ m e, m ≠ 0 → f.sqrt rm (.fin true m e) = invalid)
        ∧ (∀ n k m e g, m ≠ 0 → f.div rm (.fin n m e) (.fin k 0 g)
            = { FRes.exact (if n = k then f.infBits else f.signBit + f.infBits) with dz := true })
        ∧ (∀ w n m e, w < 2 ^ f.len → f.un w = .fin n m e → f.conv rm (.fin n m e) = FRes.exact w))

/-- FABS clears, FNEG inverts and FMOV copies the sign with the payload kept and no flag; FMVL and FMVH move a
half of e[ra] to g[rd], FMTL and FMTH move g[ra] into a half of e[rd] and leave the other. FCVTW writes the
integer rounded by FRM to g[rd]: 0 for a NaN and 0x7FFF_FFFF or 0x8000_0000 for an infinity, all with NV; the
result of a finite number differs from it by less than 1 unless it saturates. (15_kloparam_base.md, R355). -/
def Obligations.EngineFloatMoves : Prop :=
  ∀ (s : State) (e : Fin 16) (dbl : Bool) (rd ra : Fin 32),
    let x := s.en e.val
    let v := x.fpr ra.val
    let w : Word := v.setWidth 32
    let toE (i : Instr) (u : Wide) : Prop := ∃ y : Eng, exec i s = .next (s.retired e x y) ∧ x.wroteE y rd u
    let toG (i : Instr) (u : Word) : Prop := ∃ y : Eng, exec i s = .next (s.retired e x y) ∧ x.wroteG y rd u
    let nvSet : Eng := { x with status := x.status ||| 0x100#32 }
    let cvt (P : Word → Prop) : Prop := ∃ (y : Eng) (u : Word), exec (.fcvtw e dbl rd ra) s = .next (s.retired e x y) ∧ nvSet.wroteG y rd u ∧ P u
    (s.canRun e .other (if dbl then .fp64 else .fp32) →
        toE (.fabs e dbl rd ra) (if dbl then v &&& 0x7FFFFFFFFFFFFFFF#64 else (w &&& 0x7FFFFFFF#32).setWidth 64)
          ∧ toE (.fneg e dbl rd ra) (if dbl then v ^^^ 0x8000000000000000#64 else (w ^^^ 0x80000000#32).setWidth 64)
          ∧ toE (.fmov e dbl rd ra) (if dbl then v else w.setWidth 64)
          ∧ (∀ sig, (fmtOf dbl).un v.toNat = .nan sig → cvt (fun u => u = 0#32))
          ∧ ((fmtOf dbl).un v.toNat = .inf false → cvt (fun u => u = 0x7FFFFFFF#32))
          ∧ ((fmtOf dbl).un v.toNat = .inf true → cvt (fun u => u = 0x80000000#32))
          ∧ (∀ n m k, (fmtOf dbl).un v.toNat = .fin n m k → ∃ (y : Eng) (u st : Word), exec (.fcvtw e dbl rd ra) s = .next (s.retired e x y)
              ∧ ({ x with status := st } : Eng).wroteG y rd u
              ∧ (let q : Rat := (if n then -1 else 1) * (m : Rat) * (2 : Rat) ^ k
                 (-2147483648 ≤ q → q ≤ 2147483647 → u.toInt - 1 < q ∧ q < u.toInt + 1)
                   ∧ (q ≤ -2147483649 → u = 0x80000000#32) ∧ (2147483648 ≤ q → u = 0x7FFFFFFF#32))))
      ∧ (s.canRun e .other .fp32 →
        toG (.fmvl e rd ra) (v.extractLsb' 0 32) ∧ toG (.fmvh e rd ra) (v.extractLsb' 32 32)
          ∧ toE (.fmtl e rd ra) ((x.fpr rd.val).extractLsb' 32 32 ++ x.gpr ra.val)
          ∧ toE (.fmth e rd ra) (x.gpr ra.val ++ (x.fpr rd.val).extractLsb' 0 32))

/-- FCMPP writes the predicate pd: with a NaN operand EQ, LT and LE give 0 and UN and NE give 1; otherwise UN
gives 0, EQ, LT and LE follow the order of the values and NE is the contrary of EQ. LT and LE set NV for any
NaN, EQ, UN and NE only for a signalling one. The conditions 5 to 7 raise ILLEGAL. Nothing else of the engine
changes. (15_kloparam_base.md, R356). -/
def Obligations.EngineFloatCompare : Prop :=
  ∀ (s : State) (e : Fin 16) (dbl : Bool) (pd : Fin 4) (ra rb : Fin 32), s.canRun e .other (if dbl then .fp64 else .fp32) →
    let x := s.en e.val
    let a := (fmtOf dbl).un (x.fpr ra.val).toNat
    let b := (fmtOf dbl).un (x.fpr rb.val).toNat
    let nan : Prop := a.isNan = true ∨ b.isNan = true
    let sig : Prop := a = .nan true ∨ b = .nan true
    let gives (cond : Fin 8) (v : Prop) (nv : Prop) : Prop :=
      ∃ (y : Eng) (st : Word), exec (.fcmpp e dbl pd cond ra rb) s = .next (s.retired e x y) ∧ ({ x with status := st } : Eng).wroteP y pd (y.pred pd.val)
        ∧ (y.pred pd.val = true ↔ v) ∧ (nv → st = x.status ||| 0x100#32) ∧ (¬nv → st = x.status)
    gives 0 (¬nan ∧ a.lt b = false ∧ b.lt a = false) sig
      ∧ gives 1 (¬nan ∧ a.lt b = true) nan ∧ gives 2 (¬nan ∧ (a.lt b = true ∨ b.lt a = false)) nan
      ∧ gives 3 nan sig ∧ gives 4 (nan ∨ a.lt b = true ∨ b.lt a = true) sig
      ∧ (∀ cond : Fin 8, 5 ≤ cond.val →
          exec (.fcmpp e dbl pd cond ra rb) s = .next (s.exception e.val 0x01 (Instr.fcmpp e dbl pd cond ra rb).word))

/-- While Clove takes tokens, TPOST posts the tag g[ra] bits 15 to 0 with the value g[rb] and TPOSTI the tag
imm16 with the value g[ra], behind every token posted before, and the engine goes on; while an overflow queue is
full the instruction waits and nothing changes. TREAD writes the NS and the wrap count of one base to its two
registers, on SAFC from Saffron's own counter for TB_SAFE. A TWAIT that names one non-zero tag twice raises
TWAITARG with the tag; a TWAIT on one tag that the store does not hold puts the thread into WAITING, and with no
other thread ready the engine runs none. (15_kloparam_base.md, R357; 15_kloparam_base.md, R358;
15_kloparam_base.md, R359; 15_kloparam_base.md, R360; 14_clove_dispatcher.md, R319; 14_clove_dispatcher.md,
R329). -/
def Obligations.EngineTokens : Prop :=
  ∀ (s : State) (e : Fin 16) (rd ra rb : Fin 32) (imm : BitVec 16),
    let x := s.en e.val
    let posts (i : Instr) (tag : BitVec 16) (v : Word) : Prop :=
      (s.queueFull = true → exec i s = .next s)
        ∧ (s.queueFull = false → exec i s = .next ({ s with clvIn := s.clvIn ++ [(⟨tag, v, 500 + e.val⟩ : Token)] }.retired e x x))
    (s.canRun e .other .clove →
        posts (.tpost e ra rb) ((x.gpr ra.val).extractLsb' 0 16) (x.gpr rb.val) ∧ posts (.tposti e ra imm) imm (x.gpr ra.val))
      ∧ (s.canRun e .other .base → (rb ≠ rd ∨ rd.val = 0) → ∀ b : Fin 32, b.val < 4 → ∃ y : Eng, exec (.tread e rd b rb) s = .next (s.retired e x y)
          ∧ y = { x with g := y.g } ∧ (∀ r, r ≠ rd.val → r ≠ rb.val → y.gRaw r = x.gRaw r)
          ∧ (e.val ≠ 15 ∨ b.val ≠ 3 → y.gRaw rd.val = (if rd.val = 0 then 0#32 else s.rd (TB.NS b.val))
              ∧ y.gRaw rb.val = (if rb.val = 0 then 0#32 else BitVec.ofNat 32 (s.f (TB.STAT_WC b.val))))
          ∧ (e.val = 15 → b.val = 3 → y.gRaw rd.val = (if rd.val = 0 then 0#32 else BitVec.ofNat 32 (s.tbu.safNs / 50 * 50))
              ∧ y.gRaw rb.val = (if rb.val = 0 then 0#32 else BitVec.ofNat 32 (s.tbu.safNs / 50 * 50 / 2 ^ 32 % 256))))
      ∧ (s.canRun e .control .clove → x.status.getLsbD 0 = false → s.intDepth e.val = 0 →
        (∀ t : BitVec 16, t ≠ 0#16 → x.gpr ra.val = t ++ t → exec (.twait e ra rb) s = .next (s.exception e.val 0x08 (0#16 ++ t)))
          ∧ (∀ (t : Fin 1024) (tag : BitVec 16), tag ≠ 0#16 → x.gpr ra.val = 0#16 ++ tag → x.gpr rb.val = 0#32 →
            s.runningOn e.val = some t.val → s.graphMode = false → s.incoming e.val = none → s.clv.ready = [] →
            (∀ k ∈ s.clv.store, k.tag ≠ tag) →
            ∃ u : State, exec (.twait e ra rb) s = .next u ∧ u.thread t.val = 2 ∧ u.runningOn e.val = none
              ∧ u.waitTag t.val 0 = tag.toNat ∧ u.waitTag t.val 1 = 0 ∧ u.filled t.val 0 = false ∧ t.val ∈ u.clv.waiters))

/-! ## The signal profile (R370 to R386) -/

/-- MPY, MAC, MSU, CLRA, NEGA, ADDA, SUBA, SHA, MVTA and MTAH write to their accumulator the exact value of R372
(operands are the low 16 or 24 bits, signed; a right shift takes the floor) saturated to 40 bits in W16 and 64
bits in W24; when it saturates, ASAT is set and ASAT_CNT counts up to 65535, else the registers keep their
values. No other accumulator or register changes. MVA forms acd × 2^(SCL − F), takes the floor for R = 0 and the
nearest integer with ties away from zero for R = 1, saturates to 16 or 24 bits and sign-extends into g[rd]; a
saturating MVA sets MSAT and counts. MVAL and MVAH read the halves, MTAL replaces the low half unchanged
otherwise, and TSTA writes the predicate of acd against 0. SCL of −4, −3 or 3 and the conditions 4 to 7 raise
ILLEGAL. (16_signal_profile.md, R370; 16_signal_profile.md, R371; 16_signal_profile.md, R372;
16_signal_profile.md, R388; 16_signal_profile.md, R386). -/
def Obligations.Accumulators : Prop :=
  (
    ∀ (s : State) (e : Fin 16) (d c : Fin 4) (ra rb : Fin 32) (k : BitVec 6), s.canRun e .alu .signal →
      let x := s.en e.val
      let w : Bool := s.on (SDS.STAT_W (e.val - 4))
      let op (r : Fin 32) : Int := if w then ((x.gpr r.val).setWidth 24).toInt else ((x.gpr r.val).setWidth 16).toInt
      let F : Nat := if w then 23 else 15
      let top : Int := if w then 2 ^ 63 else 2 ^ 39
      let sat (v : Int) : Int := if v < -top then -top else if top - 1 < v then top - 1 else v
      let gives (i : Instr) (v : Int) : Prop :=
        ∃ (t : State) (y : Eng), exec i s = .next (t.retired e x y) ∧ x.wroteA y d (sat v) ∧ (sat v = v → t = s)
          ∧ (sat v ≠ v → s.sameBut t [SDS.STAT (e.val - 4), SDS.CNT (e.val - 4)] ∧ t.on (SDS.STAT_ASAT (e.val - 4)) = true
            ∧ t.f (SDS.CNT_ASAT_CNT (e.val - 4)) = min (s.f (SDS.CNT_ASAT_CNT (e.val - 4)) + 1) 65535
            ∧ t.f (SDS.CNT_MSAT_CNT (e.val - 4)) = s.f (SDS.CNT_MSAT_CNT (e.val - 4))
            ∧ t.f (SDS.STAT_INTDEPTH (e.val - 4)) = s.f (SDS.STAT_INTDEPTH (e.val - 4)))
      gives (.mpy e d ra rb) (op ra * op rb) ∧ gives (.mac e d ra rb) (x.acc d.val + op ra * op rb)
        ∧ gives (.msu e d ra rb) (x.acc d.val - op ra * op rb) ∧ gives (.clra e d) 0 ∧ gives (.nega e d) (-x.acc d.val)
        ∧ gives (.adda e d c) (x.acc d.val + x.acc c.val) ∧ gives (.suba e d c) (x.acc d.val - x.acc c.val)
        ∧ (0 ≤ k.toInt → gives (.sha e d k) (x.acc d.val * 2 ^ k.toInt.toNat))
        ∧ (k.toInt < 0 → gives (.sha e d k) (x.acc d.val / 2 ^ (-k.toInt).toNat))
        ∧ gives (.mvta e d ra) (op ra * 2 ^ F)
        ∧ gives (.mtah e d ra) ((x.gpr ra.val ++ (x.accRaw d.val).extractLsb' 0 32).toInt))
  ∧
  (
    ∀ (s : State) (e : Fin 16) (rd : Fin 32) (d : Fin 4) (pd : Fin 4) (scl : BitVec 3) (rnd : Bool), s.canRun e .alu .signal →
      let x := s.en e.val
      let w : Bool := s.on (SDS.STAT_W (e.val - 4))
      let v := x.acc d.val
      let den : Int := 2 ^ ((if w then 23 else 15 : Int) - scl.toInt).toNat
      let r : Int := if rnd = false then v / den else if 0 ≤ v then (2 * v + den) / (2 * den) else -((-(2 * v) + den) / (2 * den))
      let top : Int := if w then 2 ^ 23 else 2 ^ 15
      let sat : Int := if r < -top then -top else if top - 1 < r then top - 1 else r
      let toG (i : Instr) (u : Word) : Prop := ∃ y : Eng, exec i s = .next (s.retired e x y) ∧ x.wroteG y rd u
      let test (cond : Fin 8) (P : Prop) : Prop :=
        ∃ y : Eng, exec (.tsta e pd cond d) s = .next (s.retired e x y) ∧ x.wroteP y pd (y.pred pd.val) ∧ (y.pred pd.val = true ↔ P)
      (-2 ≤ scl.toInt → scl.toInt ≤ 2 → ∃ (t : State) (y : Eng), exec (.mva e rd d scl rnd) s = .next (t.retired e x y)
          ∧ x.wroteG y rd (BitVec.ofInt 32 sat) ∧ (sat = r → t = s)
          ∧ (sat ≠ r → s.sameBut t [SDS.STAT (e.val - 4), SDS.CNT (e.val - 4)] ∧ t.on (SDS.STAT_MSAT (e.val - 4)) = true
            ∧ t.f (SDS.CNT_MSAT_CNT (e.val - 4)) = min (s.f (SDS.CNT_MSAT_CNT (e.val - 4)) + 1) 65535
            ∧ t.f (SDS.CNT_ASAT_CNT (e.val - 4)) = s.f (SDS.CNT_ASAT_CNT (e.val - 4))))
        ∧ (¬(-2 ≤ scl.toInt ∧ scl.toInt ≤ 2) →
          exec (.mva e rd d scl rnd) s = .next (s.exception e.val 0x01 (Instr.mva e rd d scl rnd).word))
        ∧ toG (.mval e rd d) ((x.accRaw d.val).extractLsb' 0 32) ∧ toG (.mvah e rd d) ((x.accRaw d.val).extractLsb' 32 32)
        ∧ (∃ y : Eng, exec (.mtal e d rd) s = .next (s.retired e x y)
            ∧ x.wroteA y d (((x.accRaw d.val).extractLsb' 32 32 ++ x.gpr rd.val).toInt))
        ∧ test 0 (v = 0) ∧ test 1 (v ≠ 0) ∧ test 2 (v < 0) ∧ test 3 (0 ≤ v)
        ∧ ∀ cond : Fin 8, 4 ≤ cond.val → exec (.tsta e pd cond d) s = .next (s.exception e.val 0x01 (Instr.tsta e pd cond d).word))

/-- With NL = 0, lx ≠ ly, ax ≠ ay, aligned addresses and pt_ax in bank D0 and pt_ay in bank D1, MACD loads both
words, adds the steps to both pointers and multiplies the operands read before the loads into the accumulator
(MPY, MAC or MSU; NONE leaves it); no memory changes. With NL = 1 it only multiplies. An address outside its
bank raises BUS, the first in the order D0, D1, and a word with an error that ECC cannot correct raises ECC in the
same order (R362). The operand rules of R374 raise ILLEGAL. (16_signal_profile.md,
R374; 16_signal_profile.md, R379). -/
def Obligations.DoubleLoadMultiply : Prop :=
  ∀ (s : State) (e : Fin 16) (acc op : Fin 4) (mx my lx ly ax ay : Fin 8), s.canRun e .other .signal →
    let x := s.en e.val
    let a := x.ptr ax.val
    let b := x.ptr ay.val
    let w : Bool := s.on (SDS.STAT_W (e.val - 4))
    let opnd (r : Nat) : Int := if w then ((x.gpr r).setWidth 24).toInt else ((x.gpr r).setWidth 16).toInt
    let p := opnd (8 + mx.val) * opnd (8 + my.val)
    let v : Int := if op.val = 0 then p else if op.val = 1 then x.acc acc.val + p else x.acc acc.val - p
    let top : Int := if w then 2 ^ 63 else 2 ^ 39
    let word (m : MemId) (o : Nat) : Word := s.byte m (o + 3) ++ s.byte m (o + 2) ++ s.byte m (o + 1) ++ s.byte m o
    let i (nl : Bool) : Instr := .macd e acc op mx my lx ly ax ay nl
    let illegal (nl : Bool) : Prop := exec (i nl) s = .next (s.exception e.val 0x01 (i nl).word)
    let legal (nl : Bool) : Prop := (nl = false → lx ≠ ly ∧ ax ≠ ay) ∧ (op.val = 3 → nl = false ∧ acc.val = 0)
    (¬legal false → illegal false) ∧ (¬legal true → illegal true)
      ∧ (legal false → inD0 a = true → inD1 b = true → a.toNat % 4 = 0 → b.toNat % 4 = 0 →
        s.eccIn (.data e) (a.toNat - 0x00100000) 4 true = false → s.eccIn (.ydata e) (b.toNat - 0x00140000) 4 true = false → (op.val = 3 ∨ (-top ≤ v ∧ v < top)) →
        ∃ y : Eng, exec (i false) s = .next (s.retired e x y)
          ∧ y.gRaw (8 + lx.val) = word (.data e) (a.toNat - 0x00100000) ∧ y.gRaw (8 + ly.val) = word (.ydata e) (b.toNat - 0x00140000)
          ∧ (∀ r, r ≠ 8 + lx.val → r ≠ 8 + ly.val → y.gRaw r = x.gRaw r)
          ∧ y.ptRaw ax.val = a + x.step ax.val ∧ y.ptRaw ay.val = b + x.step ay.val
          ∧ (∀ n, n ≠ ax.val → n ≠ ay.val → y.ptRaw n = x.ptRaw n)
          ∧ (op.val ≠ 3 → y.acc acc.val = v) ∧ (∀ n, n ≠ acc.val ∨ op.val = 3 → y.acc n = x.acc n)
          ∧ y = { x with g := y.g, nextG := y.nextG, pt := y.pt, ac := y.ac })
      ∧ (legal true → (-top ≤ v ∧ v < top) →
        ∃ y : Eng, exec (i true) s = .next (s.retired e x y) ∧ x.wroteA y acc v)
      ∧ (legal false → a.toNat % 4 = 0 → b.toNat % 4 = 0 →
        (inD0 a = false → exec (i false) s = .next (s.exception e.val 0x03 a))
          ∧ (inD0 a = true → inD1 b = false → exec (i false) s = .next (s.exception e.val 0x03 b))
          ∧ (inD0 a = true → inD1 b = true → s.eccIn (.data e) (a.toNat - 0x00100000) 4 true = true →
            exec (i false) s = .next (s.exception e.val 0x04 a))
          ∧ (inD0 a = true → inD1 b = true → s.eccIn (.data e) (a.toNat - 0x00100000) 4 true = false →
            s.eccIn (.ydata e) (b.toNat - 0x00140000) 4 true = true → exec (i false) s = .next (s.exception e.val 0x04 b)))

/-- Where pt_n lies in a memory of the map and is aligned (and no error there that ECC cannot correct, which raises
ECC), LDP loads with sign or zero extension into g[rd] and
STP stores the low bytes of g[rs] (every other byte of memory reads as before); then pt_n := pt_n + st_m modulo
2^32 and nothing else changes. An exception (ALIGN, BUS, ILLEGAL for sz 3) changes no pointer: it is taken from
the state before. MVTP and MVTS write pt_n and st_n from g, MVFP and MVFS read them, ADDPS adds st_n and ADDPI a
sign-extended 15-bit immediate to pt_n modulo 2^32; no other register changes. The instruction after a write of
pt_n or st_n that addresses memory, or ADDPS, uses the old value, the one after it the new.
(16_signal_profile.md, R373; 16_signal_profile.md, R379; 16_signal_profile.md, R386). -/
def Obligations.Pointers : Prop :=
  (
    ∀ (s : State) (e : Fin 16) (rd : Fin 32) (n m : Fin 8) (sz : Fin 4) (u : Bool), s.canRun e .other .signal → sz.val < 3 →
      let x := s.en e.val
      let a := x.ptr n.val
      let bits (mm : MemId) (o : Nat) : Word := s.byte mm (o + 3) ++ s.byte mm (o + 2) ++ s.byte mm (o + 1) ++ s.byte mm o
      let v (mm : MemId) (o : Nat) : Word :=
        let b := (bits mm o).setWidth (8 * 2 ^ sz.val)
        if u then b.setWidth 32 else b.signExtend 32
      (a.toNat % 2 ^ sz.val ≠ 0 → exec (.ldp e rd n m sz u) s = .next (s.exception e.val 0x02 a)
          ∧ exec (.stp e rd n m sz) s = .next (s.exception e.val 0x02 a))
        ∧ (a.toNat % 2 ^ sz.val = 0 → spotOf x e.val a.toNat = none → exec (.ldp e rd n m sz u) s = .next (s.exception e.val 0x03 a)
          ∧ exec (.stp e rd n m sz) s = .next (s.exception e.val 0x03 a))
        ∧ (a.toNat % 2 ^ sz.val = 0 → ∀ mm o ro, spotOf x e.val a.toNat = some (.mem mm o ro) →
          (s.eccIn mm o (2 ^ sz.val) true = true → exec (.ldp e rd n m sz u) s = .next (s.exception e.val 0x04 a))
            ∧ (s.eccIn mm o (2 ^ sz.val) true = false → ∃ y : Eng, exec (.ldp e rd n m sz u) s = .next (s.retired e x y)
              ∧ y.gRaw rd.val = (if rd.val = 0 then 0#32 else v mm o) ∧ (∀ r, r ≠ rd.val → y.gRaw r = x.gRaw r)
              ∧ y.ptRaw n.val = a + x.step m.val ∧ (∀ q, q ≠ n.val → y.ptRaw q = x.ptRaw q)
              ∧ y = { x with g := y.g, nextG := y.nextG, pt := y.pt })
            ∧ (ro = true → exec (.stp e rd n m sz) s = .next (s.exception e.val 0x03 a))
            ∧ (ro = false → ∃ (t : State) (y : Eng), exec (.stp e rd n m sz) s = .next (t.retired e x y)
              ∧ (∀ j, j < 2 ^ sz.val → (t.byte mm (o + j)).toNat = (x.gpr rd.val).toNat / 256 ^ j % 256)
              ∧ (∀ m' b, m'.base + b < mm.base + o ∨ mm.base + o + 2 ^ sz.val ≤ m'.base + b → t.byte m' b = s.byte m' b)
              ∧ t = { s with mem := t.mem, ecc := t.ecc } ∧ y.ptRaw n.val = a + x.step m.val
              ∧ (∀ q, q ≠ n.val → y.ptRaw q = x.ptRaw q) ∧ y = { x with pt := y.pt })))
  ∧
  (
    ∀ (s : State) (e : Fin 16) (g : Fin 32) (n : Fin 8) (imm : BitVec 15), s.canRun e .alu .signal →
      let x := s.en e.val
      let writesPt (i : Instr) (v : Word) : Prop := ∃ y : Eng, exec i s = .next (s.retired e x y)
        ∧ y.ptRaw n.val = v ∧ (∀ q, q ≠ n.val → y.ptRaw q = x.ptRaw q) ∧ y = { x with pt := y.pt, nextP := y.nextP }
        ∧ y.shiftStale.ptr n.val = x.ptRaw n.val ∧ y.shiftStale.shiftStale.ptr n.val = v
      let writesSt (i : Instr) (v : Word) : Prop := ∃ y : Eng, exec i s = .next (s.retired e x y)
        ∧ y.stRaw n.val = v ∧ (∀ q, q ≠ n.val → y.stRaw q = x.stRaw q) ∧ y = { x with st := y.st, nextP := y.nextP }
        ∧ y.shiftStale.step n.val = x.stRaw n.val ∧ y.shiftStale.shiftStale.step n.val = v
      let reads (i : Instr) (v : Word) : Prop := ∃ y : Eng, exec i s = .next (s.retired e x y) ∧ x.wroteG y g v
      writesPt (.mvtp e g n) (x.gpr g.val) ∧ writesSt (.mvts e g n) (x.gpr g.val)
        ∧ reads (.mvfp e g n) (x.ptRaw n.val) ∧ reads (.mvfs e g n) (x.stRaw n.val)
        ∧ writesPt (.addps e n) (x.ptr n.val + x.step n.val) ∧ writesPt (.addpi e n imm) (x.ptRaw n.val + imm.signExtend 32))

/-- LOOP with count 0 continues behind the body and writes no level; with no active level it writes level 0
(LC0, LS0 = PC + 4, LE0 = PC + 4 × LEN), with level 0 active and its own LE before LE0 it writes level 1, and
otherwise it raises ILLEGAL, as does LEN 0. MFL reads and MTL writes one loop register (the selectors 6 and 7
raise ILLEGAL), LPOP clears the LC of the innermost active level. Nothing else changes. (16_signal_profile.md,
R375; 16_signal_profile.md, R376; 16_signal_profile.md, R386). -/
def Obligations.HardwareLoops : Prop :=
  ∀ (s : State) (e : Fin 16) (g : Fin 32) (c : BitVec 11) (len : BitVec 14), s.canRun e .control .signal →
    let x := s.en e.val
    let l := x.lp
    let le := x.pc + len.setWidth 32 * 4#32
    let starts (i : Instr) (cnt : Word) : Prop :=
      (len = 0#14 → exec i s = .next (s.exception e.val 0x01 i.word))
        ∧ (len ≠ 0#14 →
          (cnt = 0#32 → exec i s = .next ((s.setEn e.val { x.shiftStale with busy := false, pc := le + 4#32 }).completed e.val))
            ∧ (cnt ≠ 0#32 → l.lc0 = 0#32 → l.lc1 = 0#32 →
              exec i s = .next (s.retired e x { x with lp := { l with lc0 := cnt, ls0 := x.pc + 4#32, le0 := le } }))
            ∧ (cnt ≠ 0#32 → l.lc0 ≠ 0#32 → l.lc1 = 0#32 → le.toNat < l.le0.toNat →
              exec i s = .next (s.retired e x { x with lp := { l with lc1 := cnt, ls1 := x.pc + 4#32, le1 := le } }))
            ∧ (cnt ≠ 0#32 → (l.lc1 ≠ 0#32 ∨ (l.lc0 ≠ 0#32 ∧ l.le0.toNat ≤ le.toNat)) → exec i s = .next (s.exception e.val 0x01 i.word)))
    let regs : List Word := [l.lc0, l.lc1, l.ls0, l.le0, l.ls1, l.le1]
    starts (.loop e (.reg g) len) (x.gpr g.val) ∧ starts (.loop e (.imm c) len) (c.setWidth 32)
      ∧ (∀ k : Fin 8, 6 ≤ k.val → exec (.mfl e g k) s = .next (s.exception e.val 0x01 (Instr.mfl e g k).word)
          ∧ exec (.mtl e g k) s = .next (s.exception e.val 0x01 (Instr.mtl e g k).word))
      ∧ (∀ k : Fin 8, k.val < 6 → (∃ y : Eng, exec (.mfl e g k) s = .next (s.retired e x y) ∧ x.wroteG y g (regs.getD k.val 0#32))
          ∧ ∃ y : Eng, exec (.mtl e g k) s = .next (s.retired e x y) ∧ y = { x with lp := y.lp, nextL := some l }
            ∧ [y.lp.lc0, y.lp.lc1, y.lp.ls0, y.lp.le0, y.lp.ls1, y.lp.le1] = regs.set k.val (x.gpr g.val))
      ∧ exec (.lpop e) s = .next (s.retired e x
          { x with lp := if l.lc1 ≠ 0#32 then { l with lc1 := 0#32 } else { l with lc0 := 0#32 } })

/-- An interrupt is taken at a boundary exactly when an unmasked line is pending, IE = 1, EXC = 0, IVEC ≠ 0,
INTDEPTH < 15 and a thread runs: the lowest pending unmasked line; its PEND bit clears, IPC takes the address of
the next instruction, ISTATUS the status, ICAUSE the line, IE clears, PC goes to IVEC and INTDEPTH counts up.
RETI with INTDEPTH above 0 undoes it; at 0 it raises ILLEGAL. (R382). -/
def Obligations.SdspInterrupts : Prop :=
  (∀ (s : State) (k : Fin 8) (line : Fin 8),
    let e := k.val + 4
    let x := s.en e
    let pend (j : Nat) : Bool := (s.rd (SDS.IRQ k.val)).getLsbD j && (s.rd (SDS.IMASK k.val)).getLsbD j
    let may : Prop := s.atBoundary e = true ∧ x.status.getLsbD 1 = true ∧ x.status.getLsbD 0 = false ∧ x.ivec ≠ 0#32
      ∧ s.f (SDS.STAT_INTDEPTH k.val) < 15 ∧ (s.runningOn e).isSome = true ∧ s.graphMode = false
    (¬may ∨ (∀ j, j < 8 → pend j = false) → exec (.interruptEntry k) s = .next s)
      ∧ (may → pend line.val = true → (∀ j, j < line.val → pend j = false) → x.ivec.toNat % 4 = 0 →
        ∃ t : State, exec (.interruptEntry k) s = .next t
          ∧ t.en e = { x.settle with
              ipc := x.pc, istatus := x.status, icause := BitVec.ofNat 32 line.val, status := x.status &&& ~~~2#32, pc := x.ivec }
          ∧ (∀ f, f ≠ e → t.en f = s.en f)
          ∧ t.f (SDS.STAT_INTDEPTH k.val) = s.f (SDS.STAT_INTDEPTH k.val) + 1
          ∧ (∀ j, j < 8 → (t.rd (SDS.IRQ k.val)).getLsbD j = (decide (j ≠ line.val) && (s.rd (SDS.IRQ k.val)).getLsbD j))
          ∧ (∀ o, o ≠ SDS.IRQ k.val → o ≠ SDS.STAT k.val → t.rd o = s.rd o)
          ∧ t = { s with eng := t.eng, regs := t.regs }))
    ∧ ∀ (s : State) (e : Fin 16), s.canRun e .control .signal →
      let x := s.en e.val
      let D := SDS.STAT_INTDEPTH (e.val - 4)
      (s.f D = 0 → exec (.reti e) s = .next (s.exception e.val 0x01 (Instr.reti e).word))
        ∧ (s.f D ≠ 0 → x.ipc.toNat % 4 = 0 → ∃ t : State,
          exec (.reti e) s = .next ((t.setEn e.val { x.shiftStale with status := x.istatus, pc := x.ipc, busy := false }).completed e.val)
            ∧ t.f D = s.f D - 1 ∧ (∀ o, o ≠ SDS.STAT (e.val - 4) → t.rd o = s.rd o) ∧ t = { s with regs := t.regs })

/-! ## The blocks of the module -/

/-- TB_WRAP advances WC modulo 256, sets WRAPPED and posts the WRAP token 0xFF00 + b with the new WC. A RATE
write on TB_CELL or TB_GLOBAL is stored clamped to ±1,717,986 in RUN and ±17,179,869 elsewhere, with SLEW_CLAMP
when it was clamped; TB_LOCAL and TB_SAFE ignore it. A step is taken only from SVC, on TB_CELL not in RUN, and
waits two ticks; another master's sets STEP_REFUSED. A read of NS gives NS and takes the wrap count of the same
tick into the reader's WCS. Nothing else of the registers changes. (02_cell_time.md, R31; 02_cell_time.md, R32;
02_cell_time.md, R33; 02_cell_time.md, R35; 02_cell_time.md, R47). -/
def Obligations.TimeBaseCommands : Prop :=
  ∀ (s : State) (m : Sys2Proof.Master) (b : Fin 4) (v : Word),
    let lim : Int := if s.mstate = 5 then 1717986 else 17179869
    let c : Int := if v.toInt < -lim then -lim else if lim < v.toInt then lim else v.toInt
    (∃ t : State, exec (.tbWrap b) s = .next t ∧ t.f (TB.STAT_WC b.val) = (s.f (TB.STAT_WC b.val) + 1) % 256
        ∧ t.on (TB.STAT_WRAPPED b.val) = true ∧ (∀ o, o ≠ TB.STAT b.val → t.rd o = s.rd o)
        ∧ t = { s with regs := t.regs, clvIn := s.clvIn ++
          [(⟨BitVec.ofNat 16 (0xFF00 + b.val), BitVec.ofNat 32 ((s.f (TB.STAT_WC b.val) + 1) % 256), 0⟩ : Token)] })
      ∧ (s.reaches m (TB.RATE b.val) → ∃ t : State, exec (.tbRateWrite m b v) s = .next t ∧ t.lastResp = .done
        ∧ (2 ≤ b.val → t.regs = s.regs)
        ∧ (b.val < 2 → t.rdI (TB.RATE b.val) = c ∧ (c = v.toInt → s.sameBut { t with lastResp := s.lastResp } [TB.RATE b.val])
          ∧ (c ≠ v.toInt → t.on (TB.STAT_SLEW_CLAMP b.val) = true
            ∧ s.sameBut { t with lastResp := s.lastResp } [TB.RATE b.val, TB.STAT b.val])))
      ∧ (s.reaches m (TB.CTRL b.val) → ∃ t : State, exec (.tbStep m b) s = .next t
        ∧ (2 ≤ b.val → t.regs = s.regs ∧ t.tbase = s.tbase)
        ∧ (b.val < 2 → m ≠ .eng 14 → t.on (TB.STAT_STEP_REFUSED b.val) = true ∧ t.tbase = s.tbase
          ∧ ∀ o, o ≠ TB.STAT b.val → t.rd o = s.rd o)
        ∧ (b.val < 2 → m = .eng 14 → b.val = 0 → s.mstate = 5 → t.on (TB.STAT_STEP_REFUSED b.val) = true ∧ t.tbase = s.tbase
          ∧ t.ansIn.length = s.ansIn.length + 1)
        ∧ (b.val < 2 → m = .eng 14 → ¬(b.val = 0 ∧ s.mstate = 5) → s.on (TB.CTRL_STEP b.val) = false →
          t.on (TB.CTRL_STEP b.val) = true ∧ (t.tb b.val).stepAt = some (s.now + 2)
            ∧ ∀ o, o ≠ TB.CTRL b.val → t.rd o = s.rd o))
      ∧ (s.reaches m (TB.NS b.val) → ∃ t : State, exec (.tbNsRead m b) s = .next t
        ∧ t.lastResp = .data (s.rd (TB.NS b.val)) ∧ t.bankRd m (TB.WCS b.val) = BitVec.ofNat 32 (s.f (TB.STAT_WC b.val))
        ∧ t = { s with lastResp := t.lastResp, bank := t.bank })

/-- TCMP_FIRE of a comparator that is disabled or whose VALUE lies ahead of its base changes nothing. Every
other firing, of every comparator, counts FIRE_CNT modulo 65536, sets LATE exactly when VALUE was already reached
at the previous tick (without LATE the flag keeps its value), notes the event's time, VALUE or the firing tick of a
late one, posts with TOKEN = 1 the token of TAG with VALUE,
clears EN when PERIOD is 0, and else advances VALUE by PERIOD, once when that lies ahead of NS; a VALUE that
software writes in the same tick stands, and a cleared EN stays cleared, but for TCMP0 in RUN, where these writes
are ignored (R40). That the token's place among those of its tick follows the comparator's number is R321's order.
TCMP0 starts the 96 slots at 32 s ticks and the 128 generators at 4 n ticks after it. (02_cell_time.md, R37;
02_cell_time.md, R38; 02_cell_time.md, R39; 02_cell_time.md, R40; 07_loop_engine.md, R125;
08_profiles_and_stepping.md, R150). -/
def Obligations.ComparatorFiring : Prop :=
  (∀ (s : State) (c : Fin 128) (sw : Option Word) (dis : Bool),
    let ns := s.rd (TB.NS (s.f (TCMP.CTRL_BASE c.val)))
    let value := s.rd (TCMP.VALUE c.val)
    let per := (s.rd (TCMP.PERIOD c.val)).toNat
    let due : Prop := s.on (TCMP.CTRL_EN c.val) = true ∧ 0 ≤ (ns - value).toInt
    let late : Prop := 0 ≤ ((s.tb (s.f (TCMP.CTRL_BASE c.val))).prevNs - value).toInt
    let locked : Prop := c.val = 0 ∧ s.mstate = 5
    (¬due → exec (.tcmpFire c sw dis) s = .next s)
      ∧ (due →
        ∃ t : State, exec (.tcmpFire c sw dis) s = .next t
          ∧ t.f (TCMP.STAT_FIRE_CNT c.val) = (s.f (TCMP.STAT_FIRE_CNT c.val) + 1) % 65536
          ∧ t.lastEvent c.val = (if 0 ≤ ((s.tb (s.f (TCMP.CTRL_BASE c.val))).prevNs - value).toInt then ns else value)
          ∧ (late → t.on (TCMP.STAT_LATE c.val) = true) ∧ (¬late → t.on (TCMP.STAT_LATE c.val) = s.on (TCMP.STAT_LATE c.val))
          ∧ (s.on (TCMP.CTRL_TOKEN c.val) = true →
            (⟨BitVec.ofNat 16 (s.f (TCMP.CTRL_TAG c.val)), value, 16 + c.val⟩ : Token) ∈ t.clvIn)
          ∧ (per = 0 ∨ (dis = true ∧ ¬locked) → t.on (TCMP.CTRL_EN c.val) = false)
          ∧ (per ≠ 0 → dis = false ∨ locked → t.on (TCMP.CTRL_EN c.val) = true)
          ∧ (∀ w, sw = some w → ¬locked → t.rd (TCMP.VALUE c.val) = w)
          ∧ (sw = none ∨ locked → per = 0 → t.rd (TCMP.VALUE c.val) = value)
          ∧ (sw = none ∨ locked → 0 < per → per ≤ 2 ^ 31 → (ns - value).toInt < per →
            t.rd (TCMP.VALUE c.val) = value + BitVec.ofNat 32 per ∧ t.f (TCMP.STAT_SKIP c.val) = s.f (TCMP.STAT_SKIP c.val))))
    ∧ ∀ (s : State) (x : Nat), (∀ p : Fin 96, (⟨s.now + 32 * p.val, .cmd (.lpeSlotStart p)⟩ : Due) ∈ (s.frameFire x).agenda)
      ∧ ∀ n : Fin 128, (⟨s.now + 4 * n.val, .cmd (.pgEvaluate n)⟩ : Due) ∈ (s.frameFire x).agenda

/-- TIMEEXT_UPDATE leaves SEQ two higher with the new HI_BASE and WC_BASE. PPS_IN_EDGE stores NS, WC and the
fraction of TB_CELL, TB_GLOBAL and TB_LOCAL and sets PPS of each. PPS_OUT_FALL ends the pulse, TEN_SRC_CHANGE
puts the selected 10 MHz source in force. A message of another domain than the base's own, or over a transport
that the base does not have (UDP over IPv6; over IPv4 on TB_CELL), changes no register. A Sync that the base takes
outside HOLDOVER stores the saturated OFFSET and SYNC exactly when it lies within SYNC_WIN; in HOLDOVER OFFSET and
ADJ hold (that a Sync then changes no register at all is the model's reading, log entry 81). A grandmaster
selection sets GRANDMASTER and ends HOLDOVER; on TB_CELL an announced clock is the grandmaster unless this module is
capable and has the lower priority1, with the better of two equal ones as the message says (log entry 121).
HOLDOVER_ENTER sets HOLDOVER unless
the module is grandmaster itself, and HOLDOVER_SYNC_LOSS in holdover clears SYNC. (02_cell_time.md, R34;
02_cell_time.md, R41; 02_cell_time.md, R44; 02_cell_time.md, R45; 02_cell_time.md, R46). -/
def Obligations.TimeProtocolsAndOutputs : Prop :=
  ∀ (s : State) (b : Fin 4) (hi : Word) (wc : Byte) (frac : Fin 32) (port : Fin 6) (o : Fin 2) (h : PtpHdr) (ofs : Int)
      (iv : Nat) (self better : Bool) (p1 : Byte) (msg : PtpBody),
    let takes : Prop := h.domain.toNat = (s.tb o.val).domain ∧ (h.transport = .l2 ∨ (h.transport = .udp4 ∧ o.val = 1))
    (∃ t : State, exec (.timeextUpdate b hi wc) s = .next t ∧ t.rd (TIMEEXT.SEQ b.val) = s.rd (TIMEEXT.SEQ b.val) + 2#32
        ∧ t.rd (TIMEEXT.HI_BASE b.val) = hi ∧ t.f (TIMEEXT.WC_BASE_V b.val) = wc.toNat
        ∧ s.sameBut t [TIMEEXT.SEQ b.val, TIMEEXT.HI_BASE b.val, TIMEEXT.WC_BASE b.val])
      ∧ (∃ t : State, exec (.ppsInEdge frac) s = .next t ∧ (∀ a : Fin 3, t.rd (TB.PPSNS a.val) = s.rd (TB.NS a.val)
          ∧ t.f (TB.PPSFR_FRAC a.val) = frac.val ∧ t.f (TB.PPSFR_WC a.val) = s.f (TB.STAT_WC a.val)
          ∧ t.on (TB.STAT_PPS a.val) = true ∧ t.f (TB.STAT_WC a.val) = s.f (TB.STAT_WC a.val)))
      ∧ (∃ t : State, exec .ppsOutFall s = .next t ∧ t.tbu.pps = false ∧ t = { s with tbu := t.tbu })
      ∧ (∃ t : State, exec .tenSrcChange s = .next t ∧ t.tbu.tenSrc = s.f REFOUT.REG_TEN_SRC ∧ t = { s with tbu := t.tbu })
      ∧ (¬takes → ∃ t : State, exec (.ptpMessageReceive port o ⟨h, msg⟩) s = .next t ∧ t = { s with tbu := t.tbu })
      ∧ (takes → s.on (TIMEEXT.STATUS_HOLDOVER o.val) = true → ∃ t : State, exec (.ptpMessageReceive port o ⟨h, .sync ofs iv⟩) s = .next t
          ∧ t = { s with tbu := t.tbu })
      ∧ (takes → s.on (TIMEEXT.STATUS_HOLDOVER o.val) = false → ∃ t : State, exec (.ptpMessageReceive port o ⟨h, .sync ofs iv⟩) s = .next t
          ∧ (-(2 : Int) ^ 31 ≤ ofs → ofs < 2 ^ 31 → t.rdI (TIMEEXT.OFFSET o.val) = ofs)
          ∧ (ofs < -(2 : Int) ^ 31 → t.rdI (TIMEEXT.OFFSET o.val) = -(2 : Int) ^ 31)
          ∧ ((2 : Int) ^ 31 ≤ ofs → t.rdI (TIMEEXT.OFFSET o.val) = 2 ^ 31 - 1)
          ∧ (-(2 : Int) ^ 31 ≤ ofs → ofs < 2 ^ 31 →
            t.on (TIMEEXT.STATUS_SYNC o.val) = decide (ofs.natAbs ≤ (s.rd (TIMEEXT.SYNC_WIN o.val)).toNat)))
      ∧ (takes → ∃ t : State, exec (.ptpMessageReceive port o ⟨h, .grandmaster self iv⟩) s = .next t
          ∧ t.on (TIMEEXT.STATUS_GRANDMASTER o.val) = self ∧ t.on (TIMEEXT.STATUS_HOLDOVER o.val) = false)
      ∧ (takes → ∃ t : State, exec (.ptpMessageReceive port o ⟨h, .announce p1 better iv⟩) s = .next t
          ∧ t.on (TIMEEXT.STATUS_HOLDOVER o.val) = false
          ∧ (o = 0 → t.on (TIMEEXT.STATUS_GRANDMASTER o.val) = (s.tbu.gmCap &&
            (decide (s.tbu.prio1 < p1.toNat) || (decide (s.tbu.prio1 = p1.toNat) && better)))))
      ∧ (∃ t : State, exec (.holdoverEnter o) s = .next t
          ∧ (s.on (TIMEEXT.STATUS_GRANDMASTER o.val) = true → t = s)
          ∧ (s.on (TIMEEXT.STATUS_GRANDMASTER o.val) = false → t.on (TIMEEXT.STATUS_HOLDOVER o.val) = true
            ∧ t.rd (TIMEEXT.OFFSET o.val) = s.rd (TIMEEXT.OFFSET o.val) ∧ t.rd (TB.RATE o.val) = s.rd (TB.RATE o.val)))
      ∧ (∃ t : State, exec (.holdoverSyncLoss o) s = .next t
          ∧ (s.on (TIMEEXT.STATUS_HOLDOVER o.val) = true → t.on (TIMEEXT.STATUS_SYNC o.val) = false)
          ∧ (s.on (TIMEEXT.STATUS_HOLDOVER o.val) = false → t = s))

/-- With OWNER = SW, a CMP write stores the on-time and COMMIT marks the set new; with another owner they only
set OWN_ERR (but CMPD under DMODE = DUTY in 3PH is always software's). A PERIOD write is ignored on a loop-
locked port; on a stand-alone one it is stored, or refused with ERR_ARG outside 5 to 250 µs or where R51 forbids
it. A BRIDGE write acts only with OWNER = SW in 2HB. A CFG value that R51 refuses sets ERR_ARG and changes no
configuration; an acceptable one is stored in OFF outside a pair role, and in another mode only MODE := OFF with
the other fields as they are. DEADTIME_TURN_ON turns on the output of the leg that is commanded on and ends the
wait; with nothing pending it changes nothing. TRG_PULSE_END lets the trigger output fall. A delayed bridge
transition counts one short pulse and sets SHORT; with none delayed nothing happens. STANDALONE_PERIOD_END notes
the end of the period on a stand-alone port only. A DPW_PERIOD_START starts a period at its exact time in every mode:
in OFF the active period is the PERIOD shadow of a stand-alone port and else the frame, in 2HB that shadow or 2^K
frames, and in 3PH and 4LEG a set that was marked at least a tick before is loaded with its period: ACTIVE_VALID sets,
COMMIT and the mark clear. (03_drive_ports.md, R51; 03_drive_ports.md, R53;
03_drive_ports.md, R56; 03_drive_ports.md, R62; 03_drive_ports.md, R63; 03_drive_ports.md, R72;
03_drive_ports.md, R57; 03_drive_ports.md, R59; 03_drive_ports.md, R68; 03_drive_ports.md, R505). -/
def Obligations.DrivePorts : Prop :=
  (
    ∀ (s : State) (m : Sys2Proof.Master) (p : Fin 96) (k : Fin 4) (v : Word),
      let sw : Prop := s.f (DPW.CFG_OWNER p.val) = 2
      let brake : Prop := k.val = 3 ∧ s.f (DPW.CFG_MODE p.val) = 1 ∧ s.f (DPW.CFG_DMODE p.val) = 1
      let ownErr (t : State) : Prop := t.on (DPW.STAT_OWN_ERR p.val) = true ∧ (∀ o, o ≠ DPW.STAT p.val → t.rd o = s.rd o) ∧ t.dpw = s.dpw
      let per := v.toNat % 2 ^ 25
      let perBad : Prop := per < 40000 ∨ 2000000 < per ∨ ∃ j : Fin 4,
        per < 2 * (s.f (DPW.DT_DT p.val j.val) + 32 * max 1 (s.f (DPW.PULSE_MINPW p.val)))
      (s.reaches m (DPW.CTRL p.val) → ∃ t : State, exec (.dpwCommit m p) s = .next t ∧ (¬sw → ownErr t)
          ∧ (sw → t.on (DPW.CTRL_COMMIT p.val) = true ∧ t.dpwU p.val = { s.dpwU p.val with marked := true, markAt := s.now }
            ∧ (∀ o, o ≠ DPW.CTRL p.val → t.rd o = s.rd o)))
        ∧ (s.reaches m (DPW.CMP p.val k.val) → ∃ t : State, exec (.dpwCmpWrite m p k v) s = .next t ∧ (¬sw → ¬brake → ownErr t)
          ∧ (sw ∨ brake → t.f (DPW.CMP_TON p.val k.val) = v.toNat % 2 ^ 25 ∧ (∀ o, o ≠ DPW.CMP p.val k.val → t.rd o = s.rd o)
            ∧ t.leg = s.leg))
        ∧ (s.reaches m (DPW.PERIOD p.val) → ∃ t : State, exec (.dpwPeriodWrite m p v) s = .next t
          ∧ (s.on (DPW.CFG_SYNC p.val) = false → t.regs = s.regs)
          ∧ (s.on (DPW.CFG_SYNC p.val) = true → perBad → t.on (DPW.STAT_ERR_ARG p.val) = true
            ∧ t.rd (DPW.PERIOD p.val) = s.rd (DPW.PERIOD p.val))
          ∧ (s.on (DPW.CFG_SYNC p.val) = true → ¬perBad → t.f (DPW.PERIOD_PER p.val) = per
            ∧ ∀ o, o ≠ DPW.PERIOD p.val → t.rd o = s.rd o))
        ∧ (s.reaches m (DPW.BRIDGE p.val) → ∃ t : State, exec (.dpwBridgeWrite m p v) s = .next t
          ∧ (¬(sw ∧ s.f (DPW.CFG_MODE p.val) = 2) → ownErr t ∧ t.leg = s.leg)
          ∧ (sw → s.f (DPW.CFG_MODE p.val) = 2 → t.f ⟨DPW.BRIDGE p.val, 0, 4⟩ = v.toNat % 16
            ∧ ∀ o, o ≠ DPW.BRIDGE p.val → t.rd o = s.rd o))
        ∧ (s.reaches m (DPW.CFG p.val) → ∃ t : State, exec (.dpwCfgWrite m p v) s = .next t
          ∧ (s.cfgBad p.val v = true → t.on (DPW.STAT_ERR_ARG p.val) = true ∧ ∀ o, o ≠ DPW.STAT p.val → t.rd o = s.rd o)
          ∧ (s.cfgBad p.val v = false → s.f (DPW.CFG_MODE p.val) = 0 → s.f FOV.STAT_ROLE < 3 → s.f SYS.LC_STATE ≠ 4 →
            t.f (DPW.CFG_MODE p.val) = getBits 0 3 v ∧ t.f (DPW.CFG_OWNER p.val) = getBits 8 2 v
              ∧ (getBits 0 3 v ≠ 0 → t.on (DPW.STAT_ACTIVE_VALID p.val) = false ∧ t.on (DPW.CTRL_COMMIT p.val) = false
                ∧ ∀ j : Fin 4, (t.legU p.val j.val).hOn = false ∧ (t.legU p.val j.val).lOn = false))
          ∧ (s.cfgBad p.val v = false → s.f (DPW.CFG_MODE p.val) ≠ 0 → getBits 0 3 v ≠ 0 → t.regs = s.regs)))
  ∧
  (
    ∀ (s : State) (p : Fin 96) (k : Fin 4) (lead : Fin 33) (coin : Bool),
      let l := s.legU p.val k.val
      let mode := s.f (DPW.CFG_MODE p.val)
      let frame := 1000000 / 2 ^ s.f LPEG.GCFG_FLE
      let u := s.dpwU p.val
      let start := s.x - lead.val
      (∃ t : State, exec (.deadtimeTurnOn p k) s = .next t ∧ (l.pend = none → t = s)
          ∧ (l.pend ≠ none → (∀ q j, (q, j) ≠ (p, k) → t.legU (q : Fin 96).val (j : Fin 4).val = s.legU q.val j.val) ∧ t = { s with leg := t.leg }
            ∧ (l.lvl = .high → t.legU p.val k.val = { l with pend := none, hOn := true })
            ∧ (l.lvl = .low → t.legU p.val k.val = { l with pend := none, lOn := true })
            ∧ (l.lvl = .off → t.legU p.val k.val = { l with pend := none })))
        ∧ (∃ t : State, exec (.trgPulseEnd p) s = .next t ∧ t.f (DPW.PINS_TRG p.val) = 0 ∧ s.sameBut t [DPW.PINS p.val])
        ∧ (∃ t : State, exec (.bridgeDelayedTransition p k) s = .next t ∧ (l.delayed = none → t = s)
          ∧ (l.delayed ≠ none → t.on (DPW.STAT_SHORT p.val) = true
            ∧ t.f (DPW.STAT_SHORT_CNT p.val) = min (s.f (DPW.STAT_SHORT_CNT p.val) + 1) (2 ^ (DPW.STAT_SHORT_CNT p.val).w - 1)
            ∧ ∀ o, o ≠ DPW.STAT p.val → t.rd o = s.rd o))
        ∧ (∃ t : State, exec (.standalonePeriodEnd p) s = .next t ∧ (s.on (DPW.CFG_SYNC p.val) = false → t = s)
          ∧ (s.on (DPW.CFG_SYNC p.val) = true → t.dpwU p.val = { s.dpwU p.val with ended := true } ∧ t = { s with dpw := t.dpw }))
        ∧ (∃ t : State, exec (.dpwPeriodStart p lead coin) s = .next t
          ∧ (∀ q : Fin 96, t.f (DPW.CFG_MODE q.val) = s.f (DPW.CFG_MODE q.val)) ∧ (t.dpwU p.val).start = start
          ∧ (mode = 0 → t.f (DPW.PERACT_PER p.val) = (if s.on (DPW.CFG_SYNC p.val) then s.f (DPW.PERIOD_PER p.val) else frame))
          ∧ (mode = 2 → t.f (DPW.PERACT_PER p.val) =
            (if s.on (DPW.CFG_SYNC p.val) then s.f (DPW.PERIOD_PER p.val) else frame * 2 ^ s.f (DPW.CFG_K p.val)))
          ∧ (mode = 1 ∨ mode = 3 → u.marked = true → coin = false → 32 * u.markAt + 32 ≤ start →
            t.on (DPW.STAT_ACTIVE_VALID p.val) = true ∧ t.on (DPW.CTRL_COMMIT p.val) = false ∧ (t.dpwU p.val).marked = false
              ∧ t.f (DPW.PERACT_PER p.val) =
                (if s.on (DPW.CFG_SYNC p.val) then s.f (DPW.PERIOD_PER p.val) else frame * 2 ^ s.f (DPW.CFG_K p.val)))))

/-- When a source asserts, the latch bit of every port that it forces sets, for the maskable ones where
TRF_Pp_CFG enables it; no latch clears. A source inside the module (a DC-link comparator, Saffron's STO, the loss
of lock, the module state) asserts by its own state alone: the command changes nothing where that does not assert.
A release of FLT_N or TRIP_N opens the refusal window and clears no latch; the sources inside the module release
by themselves (R82), so a release command of theirs changes nothing. A port outside OFF with a maskable latch and no fixed one drives the SAFE word's
codes, and with a fixed latch no output is active. A SWTRIP write sets the SW latch of every port whose bit is
1. A latch write clears an unmasked source's bit only while its input is inactive and its window is over, else
the bit stays and CLR_REFUSED sets; the fixed latches never clear by a write. A SAFE word that R79 refuses sets
BAD_ARG and leaves the register; an acceptable one is stored in OFF and makes a record elsewhere. An enable
written in OFF is stored. (04_trip_fabric.md, R76; 04_trip_fabric.md, R77; 04_trip_fabric.md, R78;
04_trip_fabric.md, R81; 04_trip_fabric.md, R82; 04_trip_fabric.md, R79; 04_trip_fabric.md, R80). -/
def Obligations.Trips : Prop :=
  (
    (∀ (s : State) (i : TripInput) (frac : Fin 32),
      let asserts : Prop := match i with
        | .dcv g => (s.caqCh (192 + g.val)).hi = true
        | .sto g => s.on ⟨SAF.GSTO, g.val, 1⟩ = true
        | .pws => s.pws.unlocked = true
        | .modState => s.mstate ≠ 5 ∧ s.mstate ≠ 6
        | _ => True
      (¬asserts → exec (.tripSourceAssert i frac) s = .next s)
        ∧ (asserts → ∃ t : State, exec (.tripSourceAssert i frac) s = .next t
        ∧ (∀ p : Fin 96, p.val ∈ tripPorts i → (s.srcEnabled p.val (tripBit i) = true → t.latches p.val = s.latches p.val ||| tripBit i)
            ∧ (s.srcEnabled p.val (tripBit i) = false → t.latches p.val = s.latches p.val))
        ∧ (∀ p : Fin 96, p.val ∉ tripPorts i → t.latches p.val = s.latches p.val) ∧ (t.tripInU (tripKey i)).on = true))
      ∧ (∀ (s : State) (i : TripInput), ∃ t : State, exec (.tripInputRelease i) s = .next t
        ∧ (∀ p : Fin 96, t.latches p.val = s.latches p.val)
        ∧ ((∃ p, i = .flt p) ∨ i = .tripN → (s.tripInU (tripKey i)).on = true → t.tripInU (tripKey i) = ⟨false, some s.now⟩)
        ∧ ((∀ p, i ≠ .flt p) → i ≠ .tripN → t = s))
      ∧ ∀ (s : State) (p : Fin 96) (k : Fin 4) (high : Bool), s.f (DPW.CFG_MODE p.val) ≠ 0 →
        (16 ≤ s.latches p.val → s.padOn p.val k.val high = false)
          ∧ (s.latches p.val ≠ 0 → s.latches p.val < 16 →
            let code := (s.rd (TRF.SAFE p.val)).toNat % 65536 / 2 ^ (2 * (2 * (3 - k.val) + high.toNat)) % 4
            (code = 1 → s.padOn p.val k.val high = true) ∧ (code = 0 → s.padOn p.val k.val high = false)))
  ∧
  (
    ∀ (s : State) (m : Sys2Proof.Master) (p : Fin 96) (n : Fin 3) (v : Word),
      (s.reaches m (TRFG.SWTRIP n.val) → ∃ t : State, exec (.swTrip m n v) s = .next t
          ∧ (∀ b : Fin 32, t.latches (32 * n.val + b.val) = s.latches (32 * n.val + b.val) ||| (if v.getLsbD b.val then 8 else 0))
          ∧ ∀ q : Fin 96, q.val / 32 ≠ n.val → t.latches q.val = s.latches q.val)
        ∧ (s.reaches m (TRF.LATCH p.val) → ∃ t : State, exec (.tripLatchClear m p v 0#32) s = .next t
          ∧ (∀ j : Fin 4, v.getLsbD j.val = true → s.clearRefused p.val (2 ^ j.val) = false → (t.latches p.val).testBit j.val = false)
          ∧ (∀ j : Fin 4, v.getLsbD j.val = true → s.clearRefused p.val (2 ^ j.val) = true →
            (t.latches p.val).testBit j.val = (s.latches p.val).testBit j.val ∧ t.on (TRF.LATCH_CLR_REFUSED p.val) = true)
          ∧ (∀ j : Fin 4, v.getLsbD j.val = false → (t.latches p.val).testBit j.val = (s.latches p.val).testBit j.val)
          ∧ (∀ j, 4 ≤ j → (t.latches p.val).testBit j = (s.latches p.val).testBit j)
          ∧ ∀ q : Fin 96, q ≠ p → t.latches q.val = s.latches q.val)
        ∧ (s.reaches m (TRF.SAFE p.val) → ∃ t : State, exec (.trfSafeWrite m p v) s = .next t
          ∧ (safeBad v = true → t.on TRFG.ERR_BAD_ARG = true ∧ t.f TRFG.ERR_PORT = p.val ∧ t.rd (TRF.SAFE p.val) = s.rd (TRF.SAFE p.val))
          ∧ (safeBad v = false → s.f (DPW.CFG_MODE p.val) = 0 → t.f ⟨TRF.SAFE p.val, 0, 16⟩ = v.toNat % 65536
            ∧ ∀ o, o ≠ TRF.SAFE p.val → t.rd o = s.rd o)
          ∧ (safeBad v = false → s.f (DPW.CFG_MODE p.val) ≠ 0 → t.regs = s.regs ∧ t.ansIn.length = s.ansIn.length + 1))
        ∧ (s.reaches m (TRF.CFG p.val) → ∃ t : State, exec (.trfCfgWrite m p v) s = .next t
          ∧ (s.f (DPW.CFG_MODE p.val) ≠ 0 → t.regs = s.regs)
          ∧ (s.f (DPW.CFG_MODE p.val) = 0 → t.on (TRF.CFG_EN_FLT p.val) = v.getLsbD (TRF.CFG_EN_FLT p.val).lo
            ∧ t.on (TRF.CFG_EN_DCV p.val) = v.getLsbD (TRF.CFG_EN_DCV p.val).lo
            ∧ t.on (TRF.CFG_EN_TRIPN p.val) = v.getLsbD (TRF.CFG_EN_TRIPN p.val).lo)))

/-- RETARGET on a door's generator by another master than the door controller sets OWN_ERR only; a move whose
limits leave no motion sets ERR_ARG only; outside PROFILE, or during SS1, it is ignored as R11 says; otherwise
TGT and the MOVE registers of this tick wait as the newest commit. FLUSH waits for the update. GEAR_ARM during a
ramp is ignored; otherwise it replaces the armed change by GN_NEW, GD_NEW, MCHG and LRAMP. LEARN empties the
bins; LEARN_END writes the rounded mean of each bin of 64 or more samples, keeps the others with LEARN_INC, and
clears LEARNING, CAL_STALE and RESID; without LEARNING it does nothing. A refused CFG value sets ERR_ARG only;
from IDLE at rest, outside TRACK and SS1, an acceptable one is stored; with another source in force a change of
the other fields is ignored as R11 says. An _L write waits for its master; the same master's _H write stores
both words, without a pending _L the old _L stays; PLO ≥ PHI sets ERR_ARG; POS and GOFS never change by a write.
A read of _L gives it and takes _H, and for POS also VEL and ACC, into the reader's copies. A knot is ignored in
SS1, refused with KNOT_ERR outside SPLINE or with a reserved bit, with KNOT_LATE when its time has passed, and
one in order with the permitted distance joins a queue with room. (08_profiles_and_stepping.md, R151;
08_profiles_and_stepping.md, R152; 08_profiles_and_stepping.md, R157; 08_profiles_and_stepping.md, R166;
08_profiles_and_stepping.md, R172; 08_profiles_and_stepping.md, R175; 00_scope.md, R11;
08_profiles_and_stepping.md, R148; 08_profiles_and_stepping.md, R156; 02_cell_time.md, R35). -/
def Obligations.Generators : Prop :=
  (
    ∀ (s : State) (m : Sys2Proof.Master) (n : Fin 128), s.reaches m (PRG.CTRL n.val) →
      let u := s.pgU n.val
      let mv : Move := ⟨s.now, s.wide (PRG.TGT_L n.val), (s.rd (PRG.VMOVE n.val)).toNat, (s.rd (PRG.AMOVE n.val)).toNat,
        (s.rd (PRG.DMOVE n.val)).toNat⟩
      let foreign : Prop := s.f (PRG.CFG_OUT n.val) = 3 ∧ m ≠ .door
      let least (x y : Nat) : Nat := if x = 0 then y else min x y
      let lim (o : Nat) : Nat := (s.rd o).toNat
      let noMotion : Prop := min (least mv.v (lim (PRG.VMAX n.val))) (lim (PRG.VSLS n.val)) = 0 ∨ least mv.a (lim (PRG.AMAX n.val)) = 0
        ∨ least mv.d (lim (PRG.DMAX n.val)) = 0 ∨ lim (PRG.JMAX n.val) = 0
      (∃ t : State, exec (.pgRetarget m n) s = .next t
          ∧ (foreign → s.flagged t (PRG.STAT_OWN_ERR n.val)) ∧ (¬foreign → noMotion → s.flagged t (PRG.STAT_ERR_ARG n.val))
          ∧ (¬foreign → ¬noMotion → s.f (PRG.CFG_SRC n.val) ≠ 1 ∨ u.ss1 ≠ none → s.turnedAway t)
          ∧ (¬foreign → ¬noMotion → s.f (PRG.CFG_SRC n.val) = 1 → u.ss1 = none →
            t.on (PRG.CTRL_RETARGET n.val) = true ∧ t.pgU n.val = { u with pend := u.pend ++ [mv] }
              ∧ (∀ k, k ≠ n.val → t.pgU k = s.pgU k) ∧ s.wrote { t with pg := s.pg } [PRG.CTRL n.val]))
        ∧ (∃ t : State, exec (.pgFlush m n) s = .next t ∧ s.flagged t (PRG.CTRL_FLUSH n.val))
        ∧ (∃ t : State, exec (.pgGearArm m n) s = .next t
          ∧ (s.on (PRG.STAT_GEAR_RAMP n.val) = true → s.turnedAway t)
          ∧ (s.on (PRG.STAT_GEAR_RAMP n.val) = false → t.on (PRG.STAT_GEAR_ARMED n.val) = true
            ∧ s.wrote { t with pg := s.pg } [PRG.STAT n.val] ∧ (∀ k, k ≠ n.val → t.pgU k = s.pgU k)
            ∧ ∃ g : GearArm, t.pgU n.val = { u with arm := some g } ∧ g.gn = s.rdI (PRG.GN_NEW n.val)
              ∧ g.gd = lim (PRG.GD_NEW n.val) ∧ g.mchg = s.wide (PRG.MCHG_L n.val) ∧ g.lramp = lim (PRG.LRAMP n.val) ∧ g.sigma = none))
        ∧ (∃ t : State, exec (.pgLearn m n) s = .next t ∧ t.on (PRG.STAT_LEARNING n.val) = true
          ∧ (∀ k < 8, (t.pgU n.val).bins.getD k (1, 1) = (0, 0)) ∧ s.wrote { t with pg := s.pg } [PRG.STAT n.val])
        ∧ ∃ t : State, exec (.pgLearnEnd m n) s = .next t
          ∧ (s.on (PRG.STAT_LEARNING n.val) = false → s.wrote t [])
          ∧ (s.on (PRG.STAT_LEARNING n.val) = true → t.on (PRG.STAT_LEARNING n.val) = false ∧ t.on (PRG.STAT_CAL_STALE n.val) = false
            ∧ t.f (PRG.RESID_RESID n.val) = 0 ∧ t.pg = s.pg
            ∧ ∀ k : Fin 8, let b := u.bins.getD k.val (0, 0)
              let cal : Field := ⟨PRG.CAL n.val (k.val / 2), 16 * (k.val % 2), 16⟩
              (64 ≤ b.1 → t.f cal = (2 * b.2 + b.1) / (2 * b.1) % 65536)
                ∧ (b.1 < 64 → t.f cal = s.f cal ∧ t.on (PRG.STAT_LEARN_INC n.val) = true)))
  ∧
  (
    ∀ (s : State) (m : Sys2Proof.Master) (n : Fin 128) (v : Word) (r : PgWide),
      let u := s.pgU n.val
      let off := pgWideOff n.val r
      let lo := if s.bankRd m (wideMark off) = 0#32 then s.rd off else s.bankRd m off
      let new := signedOf 64 (v.toNat * 2 ^ 32 + lo.toNat)
      let w (i : Nat) : Word := if i = 7 then v else s.bankRd m (PRG.KNOT n.val i)
      let plain : Prop := getBits 1 31 (w 1) = 0 ∧ w 6 = 0#32 ∧ v = 0#32
      (s.reaches m (PRG.CFG n.val) → ∃ t : State, exec (.pgCfgWrite m n v) s = .next t
          ∧ (prgCfgBad n.val v = true → s.flagged t (PRG.STAT_ERR_ARG n.val))
          ∧ (prgCfgBad n.val v = false → s.f (PRG.CFG_SRC n.val) ≠ 0 → getBits 2 18 v ≠ getBits 2 18 (s.rd (PRG.CFG n.val)) → s.turnedAway t)
          ∧ (prgCfgBad n.val v = false → s.f (PRG.CFG_SRC n.val) = 0 → s.on (PRG.STAT_TRACK n.val) = false → u.ss1 = none → u.v = 0 → u.a = 0 →
            t.f ⟨PRG.CFG n.val, 0, 20⟩ = v.toNat % 2 ^ 20 ∧ s.wrote t [PRG.CFG n.val]))
        ∧ (s.reaches m off → ∃ t : State, exec (.pgWideWrite m n r false v) s = .next t ∧ t.regs = s.regs
          ∧ (r = .pos ∨ r = .gofs → s.wrote t [])
          ∧ (r ≠ .pos → r ≠ .gofs → t.bankRd m off = v ∧ t.bankRd m (wideMark off) ≠ 0#32))
        ∧ (s.reaches m (off + 4) → ∃ t : State, exec (.pgWideWrite m n r true v) s = .next t
          ∧ (r = .pos ∨ r = .gofs → s.wrote t [])
          ∧ ((r = .plo ∧ s.wide (PRG.PHI_L n.val) ≤ new) ∨ (r = .phi ∧ new ≤ s.wide (PRG.PLO_L n.val)) →
            s.flagged { t with bank := s.bank } (PRG.STAT_ERR_ARG n.val))
          ∧ (r = .tgt ∨ r = .mchg ∨ (r = .plo ∧ new < s.wide (PRG.PHI_L n.val)) ∨ (r = .phi ∧ s.wide (PRG.PLO_L n.val) < new) →
            t.rd off = lo ∧ t.rd (off + 4) = v ∧ t.bankRd m (wideMark off) = 0#32
            ∧ s.wrote { t with bank := s.bank, pg := s.pg } [off, off + 4] ∧ (∀ k, k ≠ n.val → t.pgU k = s.pgU k)
            ∧ t.pgU n.val = { u with limOld := (t.pgU n.val).limOld } ∧ (r = .tgt ∨ r = .mchg → t.pg = s.pg)))
        ∧ (s.reaches m off → ∃ t : State, exec (.pgWideRead m n r) s = .next t ∧ t.lastResp = .data (s.rd off)
          ∧ t.bankRd m (off + 4) = s.rd (off + 4) ∧ s.wrote { t with bank := s.bank } []
          ∧ (r = .pos → t.bankRd m (PRG.VEL n.val) = s.rd (PRG.VEL n.val) ∧ t.bankRd m (PRG.ACC n.val) = s.rd (PRG.ACC n.val)))
        ∧ (s.reaches m (PRG.KNOT n.val 7) → ∃ t : State, exec (.pgKnotPush m n v) s = .next t
          ∧ (u.ss1 ≠ none → s.turnedAway { t with bank := s.bank })
          ∧ (u.ss1 = none → ¬(u.src = 2 ∧ plain) → t.on (PRG.STAT_KNOT_ERR n.val) = true ∧ t.pg = s.pg
            ∧ t.f (PRG.CNT_KNOT_ERR_CNT n.val) = min (s.f (PRG.CNT_KNOT_ERR_CNT n.val) + 1) 65535)
          ∧ (u.ss1 = none → u.src = 2 → plain → u.queue ≠ [] → knotAhead (w 0).toNat u.tau ≤ 0 →
            t.on (PRG.STAT_KNOT_LATE n.val) = true ∧ t.pg = s.pg)
          ∧ ∀ l, u.ss1 = none → u.src = 2 → plain → u.queue.getLast? = some l → 0 < knotAhead (w 0).toNat u.tau → (w 1).getLsbD 0 = false →
            (s.frameUnits : Int) ≤ 8 * nsDiff (w 0).toNat l.t → nsDiff (w 0).toNat l.t ≤ 67108864 → u.qlen < 32 →
            t.regs = s.regs ∧ (∀ k, k ≠ n.val → t.pgU k = s.pgU k)
              ∧ t.pgU n.val = { u with pushed := (t.pgU n.val).pushed, queue := u.queue ++ [⟨(w 0).toNat, s.now,
              signedOf 64 ((w 3).toNat * 2 ^ 32 + (w 2).toNat) / 65536, (w 4).toInt / 16, (w 5).toInt / 16⟩] }))

/-- Every generator's evaluation completes. In TRACK an update of a generator that drives no coils drops queue,
target, commits and arming, clears RETARGET, takes SRC = IDLE and rests, at the sampled position for a LOOP output;
an idle PROFILE generator without a plan stays where it is, at rest. The chopper of a port that its generator drives
leaves ON for FAST at the first comparison after TBLANK that finds the reference reached, FAST for SLOW after
floor(TOFF × FAST / 100) ticks, and SLOW for ON; another comparison or end changes nothing. Standstill sets
STANDSTILL while VEL is 0, and both choppers rest in OFF and SHORT unless a stall has switched them off. (08_profiles_and_stepping.md, R160;
08_profiles_and_stepping.md, R168; 08_profiles_and_stepping.md, R169). -/
def Obligations.GeneratorUpdateAndStepping : Prop :=
  (∀ (s : State) (n : Fin 128), ∃ t : State, exec (.pgEvaluate n) s = .next t
      ∧ (s.f (PRG.CFG_OUT n.val) ≠ 1 → s.pgTracks n.val = true → t.on (PRG.STAT_TRACK n.val) = true ∧ t.f (PRG.CFG_SRC n.val) = 0 ∧ t.on (PRG.CTRL_RETARGET n.val) = false
        ∧ (t.pgU n.val).queue = [] ∧ (t.pgU n.val).target = none ∧ (t.pgU n.val).pend = [] ∧ (t.pgU n.val).arm = none
        ∧ (t.pgU n.val).v = 0 ∧ (t.pgU n.val).a = 0
        ∧ (t.pgU n.val).p = (if n.val < 96 ∧ s.f (PRG.CFG_OUT n.val) = 0 then (s.sampledPos n.val : Rat) / 65536 else (s.pgU n.val).p))
      ∧ (s.f (PRG.CFG_OUT n.val) ≠ 1 → s.pgTracks n.val = false → (s.pgU n.val).ss1 = none → s.f (PRG.CFG_SRC n.val) = 1 → (s.pgU n.val).src = 1 → (s.pgU n.val).pend = [] →
        (s.pgU n.val).doorStop = none → (s.pgU n.val).doorNext = none → (s.pgU n.val).target = none → (s.pgU n.val).plan = [] →
        (s.pgU n.val).safAt = none →
        t.on (PRG.STAT_TRACK n.val) = false ∧ (t.pgU n.val).p = (s.pgU n.val).p ∧ (t.pgU n.val).v = 0 ∧ (t.pgU n.val).a = 0))
    ∧ (∀ (s : State) (p : Fin 96) (b : Fin 2),
      let c := s.chop p.val b.val
      let off := s.f (PRG.CHOP_TOFF p.val)
      let fast := off * s.f (PRG.CHOP_FAST p.val) / 100
      (∃ t : State, exec (.chopperCompare p b) s = .next t
          ∧ (∀ x : Int, s.stepping p.val = true → s.coilValue p.val b.val = some x → c.st = .on → c.since + s.f (PRG.CHOP_TBLANK p.val) ≤ s.now →
            (c.ref.natAbs : Int) ≤ (if 0 < c.ref then x else -x) →
            t.chop p.val b.val = { c with st := .fast, since := s.now } ∧ (⟨s.now + fast, .cmd (.chopperTimerEnd p b)⟩ : Due) ∈ t.agenda)
          ∧ (s.stepping p.val = false ∨ s.coilValue p.val b.val = none ∨ c.st ≠ .on ∨ s.now < c.since + s.f (PRG.CHOP_TBLANK p.val) → t = s)
          ∧ (∀ x : Int, s.coilValue p.val b.val = some x → (if 0 < c.ref then x else -x) < c.ref.natAbs → t = s))
        ∧ ∃ t : State, exec (.chopperTimerEnd p b) s = .next t
          ∧ (s.stepping p.val = true → c.st = .fast →
            t.chop p.val b.val = { c with st := .slow } ∧ (⟨s.now + (c.since + off - s.now), .cmd (.chopperTimerEnd p b)⟩ : Due) ∈ t.agenda)
          ∧ (s.stepping p.val = true → c.st = .slow → t.chop p.val b.val = ⟨.on, s.now, c.ref⟩)
          ∧ (s.stepping p.val = false ∨ c.st ≠ .fast ∧ c.st ≠ .slow → t = s))
    ∧ ∀ (s : State) (n : Fin 96), ∃ t : State, exec (.stepperStandstill n) s = .next t
      ∧ (s.stepping n.val = false ∨ s.rdI (PRG.VEL n.val) ≠ 0 → t = s)
      ∧ (s.stepping n.val = true → s.rdI (PRG.VEL n.val) = 0 → t.on (PRG.STAT_STANDSTILL n.val) = true
        ∧ (s.f (PRG.CFG_STANDMODE n.val) = 1 ∨ s.f (PRG.CFG_STANDMODE n.val) = 2 →
          (s.chop n.val 0).st ≠ .off → (s.chop n.val 0).st ≠ .parked → ∀ b : Fin 2, (t.chop n.val b.val).st = .rest ∧ (t.chop n.val b.val).ref = (s.chop n.val b.val).ref))

/-- A bit of a channel that is not sampled, or at a tick at which the group's clock gives no bit, does nothing; else
it enters the channel's stream, and a phase channel's value is the calibrated sinc³ value, saturated, with CAL as
it stood at the rise of that DSCK period: a later write acts from the next period on. Once the filter has filled
VALID sets, in a set that a strobe of the same tick latched too. A comparator output that is 0 rises once 2 × OSR_C bits have entered and the sinc² value reaches the
threshold, sets its flag and the level, and with TRIP = 1 the SW latch of its port; at another time the event does
nothing. After STUCK + 1 equal bits a stream that is not stuck sets STUCK, clears VALID and makes a record.
A trigger compare with CAQ = 1 latches the strobe's NS, with PAD = 1
raises P##_TRG, with CAP = 1 triggers the Capture Engine; with no bit set it does nothing. A read of LAT0 gives
it and takes LAT1 to LAT3 of the same set into the reader's copies. A group's CFG value outside R89 sets ERR_ARG
only; an acceptable one is ignored as R11 says while a port of the group runs or in RUN or SAFE, and else
stored. A port's CFG with a reserved OSR sets ERR_ARG only; with the port running a change of PAIR, OSR, COSR is
ignored; a change that only concerns TRIP is stored and restarts no channel. (05_current_sensing.md, R90;
05_current_sensing.md, R91; 05_current_sensing.md, R93; 05_current_sensing.md, R94; 05_current_sensing.md, R98;
03_drive_ports.md, R68; 03_drive_ports.md, R69; 05_current_sensing.md, R89; 05_current_sensing.md, R97;
02_cell_time.md, R35; 00_scope.md, R11). -/
def Obligations.CurrentSensing : Prop :=
  (
    (∀ (s : State) (ch : Fin 204) (bit low : Bool),
      let c := s.caqCh ch.val
      let k := s.chOsr ch.val
      let kc := s.chCosr ch.val
      let bits := (bit :: c.bits).take 768
      let x := satS 16 (phaseValue 3 k (filterSum (sinc3Weight (2 ^ k)) (3 * 2 ^ k - 2) bits))
      let y := satS 16 (phaseValue 2 kc (filterSum (sinc2Weight (2 ^ kc)) (2 * 2 ^ kc - 1) c.bits))
      let cal := CAQ.CAL (ch.val / 2) (ch.val % 2)
      let th := CAQ.TH (ch.val / 2) (ch.val % 2)
      let value (w : Word) : Int := satS 16 ((x - signedOf 16 (getBits 0 16 w)) * getBits 16 16 w / 16384)
      let off : Prop := s.chOn ch.val = false
      let rise := s.bitRise (chGroup ch.val)
      let filled : Prop := 3 * 2 ^ k ≤ c.n
      let due := s.cmpDue ch.val low
      let stuck : Prop := ¬off ∧ c.stuck = false ∧ s.f (CAQG.CFG_STUCK (chGroup ch.val)) + 1 ≤ c.run
      (∃ t : State, exec (.caqFilterOutput ch bit) s = .next t ∧ (off ∨ rise = none → t = s)
          ∧ (∀ r, rise = some r → ¬off → c.stuck = false → (t.caqCh ch.val).bits = bits ∧ (t.caqCh ch.val).n = c.n + 1
            ∧ (∀ j, j ≠ ch.val → t.caqCh j = s.caqCh j)
            ∧ (ch.val < 192 → ((∀ o ∈ s.caqOld, o.off ≠ cal) → (t.caqCh ch.val).val = value (s.rd cal))
              ∧ (∀ o, s.caqOld = [o] → o.off = cal → r ≤ o.tick → (t.caqCh ch.val).val = value o.old)
              ∧ (c.n + 1 = 3 * 2 ^ k → s.on (chValidF ch.val) = false →
                (⟨s.now, .cmd (.caqChannelValid ch)⟩ : Due) ∈ t.agenda))))
        ∧ (∃ t : State, exec (.caqChannelValid ch) s = .next t ∧ (off ∨ c.stuck = true ∨ ¬filled → t = s)
          ∧ (¬off → c.stuck = false → filled → t.on (chValidF ch.val) = true
            ∧ ((∀ q ∈ chPorts ch.val, (s.caqCh (2 * q)).strobed ≠ some s.now) → s.sameBut t [(chValidF ch.val).off])
            ∧ (ch.val < 192 → ch.val % 2 = 0 → c.strobed = some s.now → s.f (CAQ.CFG_PAIR (ch.val / 2)) = 0 →
              t.on (CAQ.LAT3_VA (ch.val / 2)) = true)))
        ∧ (∃ t : State, exec (.caqComparatorEvent ch low) s = .next t ∧ (due = false → t = s)
          ∧ (due = true → (if low then (t.caqCh ch.val).lo else (t.caqCh ch.val).hi) = true ∧ t.on (chCmpF ch.val low) = true)
          ∧ (due = true → ch.val < 192 → s.on (CAQ.CFG_TRIP (ch.val / 2)) = true → (t.latches (ch.val / 2)).testBit 3 = true)
          ∧ (due = true → ch.val < 192 → s.on (CAQ.CFG_TRIP (ch.val / 2)) = false →
            t.ansIn.length = s.ansIn.length + 1 ∧ s.sameBut { t with ansIn := s.ansIn, caq := s.caq } [CAQ.STAT (ch.val / 2)]))
        ∧ (off → due = false) ∧ ((if low then c.lo else c.hi) = true → due = false) ∧ (c.n < 2 * 2 ^ kc → due = false)
        ∧ (¬off → ch.val < 192 → 2 * 2 ^ kc ≤ c.n → (∀ o ∈ s.caqOld, o.off ≠ th) → (if low then c.lo else c.hi) = false →
          due = (if low then decide (y ≤ s.fi ⟨th, 16, 16⟩) else decide (s.fi ⟨th, 0, 16⟩ ≤ y)))
        ∧ ∃ t : State, exec (.caqStuck ch) s = .next t ∧ (¬stuck → t = s)
          ∧ (stuck → (t.caqCh ch.val).stuck = true ∧ t.on (chValidF ch.val) = false ∧ t.ansIn.length = s.ansIn.length + 1
            ∧ t.f (if ch.val < 192 then ⟨CAQ.STAT (ch.val / 2), 1 + ch.val % 2, 1⟩ else CAQG.STAT_STUCK (chGroup ch.val)) = 1))
      ∧ ∀ (s : State) (p : Fin 96) (n : Fin 4) (lead : Fin 32) (dest : BitVec 4), ∃ t : State, exec (.trgcFire p n lead dest) s = .next t
        ∧ (n ≠ 0 → dest = 0#4 → t = s)
        ∧ (n ≠ 0 → dest.getLsbD 0 = true → t.rd (CAQ.LAT2 p.val) = s.ns 0 ∧ t.f (CAQ.LAT3_WC p.val) = s.wc 0)
        ∧ (n ≠ 0 → dest.getLsbD 0 = false → t.rd (CAQ.LAT2 p.val) = s.rd (CAQ.LAT2 p.val))
        ∧ (n ≠ 0 → dest.getLsbD 3 = true → t.f (DPW.PINS_TRG p.val) = 1
          ∧ (⟨s.now + max 1 (s.f (DPW.PULSE_TRGW p.val)), .cmd (.trgPulseEnd p)⟩ : Due) ∈ t.agenda)
        ∧ (n ≠ 0 → dest.getLsbD 2 = true → ∃ ns frac wc, (⟨s.now, .cmd (.capTrigger (.trgc p) ns frac wc)⟩ : Due) ∈ t.agenda))
  ∧
  (
    ∀ (s : State) (m : Sys2Proof.Master) (p : Fin 96) (g : Fin 12) (v : Word),
      let n := getBits 1 6 v
      let bad : Prop := n < 12 ∨ 50 < n ∨ n ≤ getBits 7 6 v ∨ 4 < getBits 13 3 v ∨ getBits 18 8 v < 8
      let busy : Prop := (∃ j : Fin 8, s.f (DPW.CFG_MODE (8 * g.val + j.val)) ≠ 0) ∨ s.mstate = 5 ∨ s.mstate = 6
      let old := s.rd (CAQ.CFG p.val)
      (s.reaches m (CAQ.LAT0 p.val) → ∃ t : State, exec (.caqLatRead m p) s = .next t ∧ t.lastResp = .data (s.rd (CAQ.LAT0 p.val))
          ∧ t.bankRd m (CAQ.LAT1 p.val) = s.rd (CAQ.LAT1 p.val) ∧ t.bankRd m (CAQ.LAT2 p.val) = s.rd (CAQ.LAT2 p.val)
          ∧ t.bankRd m (CAQ.LAT3 p.val) = s.rd (CAQ.LAT3 p.val) ∧ s.wrote { t with bank := s.bank } [])
        ∧ (s.reaches m (CAQG.CFG g.val) → ∃ t : State, exec (.caqGroupCfgWrite m g v) s = .next t
          ∧ (bad → s.flagged t (CAQG.STAT_ERR_ARG g.val)) ∧ (¬bad → busy → s.turnedAway t)
          ∧ (¬bad → ¬busy → t.f ⟨CAQG.CFG g.val, 0, 26⟩ = v.toNat % 2 ^ 26))
        ∧ (s.reaches m (CAQ.CFG p.val) → ∃ t : State, exec (.caqPortCfgWrite m p v) s = .next t
          ∧ (4 < getBits 4 3 v → s.flagged t (CAQ.STAT_ERR_ARG p.val))
          ∧ (getBits 4 3 v ≤ 4 → getBits 2 7 v ≠ getBits 2 7 old → s.f (DPW.CFG_MODE p.val) ≠ 0 → s.turnedAway t)
          ∧ (getBits 4 3 v ≤ 4 → getBits 2 7 v = getBits 2 7 old ∨ s.f (DPW.CFG_MODE p.val) = 0 →
            t.f ⟨CAQ.CFG p.val, 0, 10⟩ = v.toNat % 2 ^ 10)
          ∧ (getBits 4 3 v ≤ 4 → getBits 0 9 v = getBits 0 9 old → t.caq = s.caq ∧ s.wrote t [CAQ.CFG p.val])))

/-- In QUAD a step of the Gray sequence in the remembered direction, or with none remembered, moves POS by one
within SL_LO and SL_HI, with the excess in OVERRUN, clears STILL and takes the edge time, NS of TB_CELL at the
first of the three equal samples, two ticks ago; from the second
counted edge SPEED is valid. A pin that changed within the last three samples keeps its level. An edge against the remembered direction leaves POS, sets REV_SETTLE and clears
SPEED and SPEED_VALID. A sample in which A and B both change only counts an error and sets QERR. Levels that
change neither A nor B change no register, but that a strobe of the same tick latches its set again. In TOOTH a gap recognised under R108 moves POS by N + 1 teeth and is
a reference event. (06_position_feedback.md, R103; 06_position_feedback.md, R104; 06_position_feedback.md, R105;
06_position_feedback.md, R106; 06_position_feedback.md, R108; 06_position_feedback.md, R110;
06_position_feedback.md, R113; 06_position_feedback.md, R114; 06_position_feedback.md, R115). -/
def Obligations.FeedbackEdges : Prop :=
  ∀ (s : State) (p : Fin 96) (fa fb fz : Bool) (frac : Fin 32), ∃ t : State, exec (.pfbEdge p fa fb fz frac) s = .next t ∧
    let u := s.pfbU p.val
    let d := (grayPos fa fb + 4 - grayPos u.fa u.fb) % 4
    let neg := (decide (d = 3) != s.on (PFB.CFG_DIRINV p.val))
    let clamp (x : Int) : Int := if x < s.rdI (PFB.SL_LO p.val) then s.rdI (PFB.SL_LO p.val)
      else if s.rdI (PFB.SL_HI p.val) < x then s.rdI (PFB.SL_HI p.val) else x
    let moved (step : Int) : Prop := let new := s.rdI (PFB.POS p.val) + step
      t.rdI (PFB.POS p.val) = clamp new ∧ t.fi (PFB.OVR_V p.val) = (if clamp new = new then s.fi (PFB.OVR_V p.val)
        else satS 16 (s.fi (PFB.OVR_V p.val) + (new - clamp new))) ∧ (clamp new ≠ new → t.on (PFB.STAT_LIMIT p.val) = true)
    let delta := (edgeTime s.edgeWc s.edgeNs frac.val + 2 ^ 43 - u.tEdge) % 2 ^ 43
    let keeps : Prop := t.rd (PFB.POS p.val) = s.rd (PFB.POS p.val) ∧ t.rd (PFB.OVR p.val) = s.rd (PFB.OVR p.val)
    let old (x : Option Nat) : Prop := ∀ a, x = some a → a + 3 ≤ s.now
    ((∀ x, u.posCmds = some x → x.tick ≠ s.now) →
      (∀ a, u.faAt = some a → s.now < a + 3 → (t.pfbU p.val).fa = u.fa)
      ∧ (∀ a, u.fbAt = some a → s.now < a + 3 → (t.pfbU p.val).fb = u.fb)
      ∧ (∀ a, u.fzAt = some a → s.now < a + 3 → (t.pfbU p.val).fz = u.fz)
      ∧ (old u.faAt → old u.fbAt → old u.fzAt →
    (s.f (PFB.CFG_MODE p.val) = 1 → s.f (PFB.CFG_REF p.val) = 0 → d = 1 ∨ d = 3 → u.dir = none ∨ u.dir = some neg →
        moved (if neg then -1 else 1) ∧ t.on (PFB.STAT_STILL p.val) = false ∧ t.on (PFB.STAT_DIR p.val) = neg
          ∧ t.rd (PFB.EDGENS p.val) = (s.tb 0).prev2Ns ∧ t.f (PFB.EDGEFR_FRAC p.val) = frac.val ∧ (t.pfbU p.val).dir = some neg
          ∧ (u.n = 0 → t.rd (PFB.SPEED p.val) = s.rd (PFB.SPEED p.val))
          ∧ (0 < u.n → t.on (PFB.STAT_SPEED_VALID p.val) = true ∧ t.on (PFB.STAT_REV_SETTLE p.val) = false
            ∧ t.rdI (PFB.SPEED p.val) = speedOf (if neg then -1 else 1) delta))
      ∧ (s.f (PFB.CFG_MODE p.val) = 1 → d = 1 ∨ d = 3 → u.dir = some (!neg) → keeps ∧ t.on (PFB.STAT_REV_SETTLE p.val) = true
        ∧ t.rd (PFB.SPEED p.val) = 0#32 ∧ t.on (PFB.STAT_SPEED_VALID p.val) = false ∧ (t.pfbU p.val).dir = some neg ∧ (t.pfbU p.val).n = 0)
      ∧ (s.f (PFB.CFG_MODE p.val) = 1 → d = 2 → keeps ∧ t.on (PFB.STAT_QERR p.val) = true
        ∧ t.f (PFB.CNT_ERR_CNT p.val) = min (s.f (PFB.CNT_ERR_CNT p.val) + 1) 65535)
      ∧ (s.f (PFB.CFG_MODE p.val) = 1 → d = 0 → u.strobed ≠ some s.now → t.regs = s.regs)
      ∧ (u.strobed = some s.now → u.lastBit = none → t.rd (PFB.LAT0 p.val) = t.rd (PFB.POS p.val)
        ∧ t.rd (PFB.LAT2 p.val) = t.rd (PFB.EDGENS p.val))
      ∧ (s.f (PFB.CFG_MODE p.val) = 2 → fa ≠ u.fa → fa = !s.on (PFB.CFG_TEDGE p.val) → s.f (PFB.CFG_REF p.val) = 1 → 2 ≤ u.n →
        s.on (PFB.CTRL_HOME p.val) = false → s.on (PFB.STAT_HOMED p.val) = false → s.f (PFB.TCFG_GAP_RATIO p.val) * u.per12 < 192 * delta →
        ∀ dir, u.dir = none ∨ u.dir = some dir → s.on (PFB.CFG_DIRSRC p.val) = true →
        (decide (fb = s.on (PFB.CFG_DIR_POL p.val)) != s.on (PFB.CFG_DIRINV p.val)) = dir →
        moved (if dir then -((s.f (PFB.CFG_GAP_N p.val) : Int) + 1) else (s.f (PFB.CFG_GAP_N p.val) : Int) + 1)
          ∧ t.on (PFB.STAT_REF_SEEN p.val) = true ∧ t.f (PFB.CNT_IDX_CNT p.val) = (s.f (PFB.CNT_IDX_CNT p.val) + 1) % 65536)))

/-- LOAD and ABSORB act in OFF or on a forced port and are else ignored as R11 says: LOAD gives POS :=
clamp(SETPOS) with the excess in OVERRUN and sets HOMED, ABSORB does the same with POS + OVERRUN and clears
OVR_SAT. HOME stays armed. A refused CFG or SERCFG sets ERR_ARG only, a running port ignores it, otherwise the
unit restarts: POS, OVERRUN and SPEED 0, HOMED 0, STILL 1, no direction. A read of POS or of LAT0 takes its set
into the reader's copies. PFB_STANDSTILL, outside OFF, sets STILL and clears SPEED, SPEED_VALID and REV_SETTLE.
A failed transfer sets its flag, clears SPEED_VALID, counts an error and leaves POS; the first valid reading
after a restart places POS, a later one moves it by the unwrapped step, which DIRINV turns round (the model's
reading of R104, log entry 103); without a transfer, or before its last bit is sampled, nothing happens.
(06_position_feedback.md, R101; 06_position_feedback.md, R107; 06_position_feedback.md, R114;
06_position_feedback.md, R116; 06_position_feedback.md, R120; 06_position_feedback.md, R121; 02_cell_time.md,
R35; 00_scope.md, R11). -/
def Obligations.FeedbackCommands : Prop :=
  ∀ (s : State) (m : Sys2Proof.Master) (p : Fin 96) (ser : Bool) (v : Word) (r : SerFrame),
    let lo := s.rdI (PFB.SL_LO p.val)
    let hi := s.rdI (PFB.SL_HI p.val)
    let clamp (x : Int) : Int := if x < lo then lo else if hi < x then hi else x
    let pos := s.rdI (PFB.POS p.val)
    let ovr := s.fi (PFB.OVR_V p.val)
    let placed (t : State) (x : Int) : Prop := t.rdI (PFB.POS p.val) = clamp x ∧ t.fi (PFB.OVR_V p.val) = satS 16 (x - clamp x)
    let mayPlace : Prop := s.f (DPW.CFG_MODE p.val) = 0 ∨ s.forced p.val = true
    let keeps (t : State) : Prop := t.rd (PFB.POS p.val) = s.rd (PFB.POS p.val) ∧ t.rd (PFB.OVR p.val) = s.rd (PFB.OVR p.val)
      ∧ t.rd (PFB.EDGENS p.val) = s.rd (PFB.EDGENS p.val)
    let failed (t : State) : Prop := keeps t ∧ t.on (PFB.STAT_SPEED_VALID p.val) = false ∧ t.on (PFB.SERSTAT_BUSY p.val) = false
      ∧ t.f (PFB.CNT_ERR_CNT p.val) = min (s.f (PFB.CNT_ERR_CNT p.val) + 1) 65535
    let turned (x : Int) : Int := if s.on (PFB.CFG_DIRINV p.val) then -x else x
    let mode := s.f (PFB.CFG_MODE p.val)
    let bits := s.f (PFB.SERCFG_BITS p.val)
    let raw := r.raw.toNat % 2 ^ bits
    let ck := s.f (PFB.SERCFG_CKDIV p.val)
    let lastIn : Prop := if mode = 3 then (s.pfbU p.val).xferAt + 1 + (ck - ck / 2) + bits * ck + s.f (PFB.SERTM_SDLY p.val) ≤ s.now
      else ∃ a, (s.pfbU p.val).startAt = some a ∧ a + (bits + 9) * ck ≤ s.now
    let cfg := if ser then PFB.SERCFG p.val else PFB.CFG p.val
    let bad := if ser then serCfgBad v else pfbCfgBad v
    (s.reaches m (PFB.CTRL p.val) →
        (∃ t : State, exec (.pfbLoad m p) s = .next t ∧ (¬mayPlace → s.turnedAway t)
          ∧ (mayPlace → placed t (s.rdI (PFB.SETPOS p.val)) ∧ t.on (PFB.STAT_HOMED p.val) = true
            ∧ s.wrote { t with pfb := s.pfb } [PFB.POS p.val, PFB.OVR p.val, PFB.STAT p.val]))
        ∧ (∃ t : State, exec (.pfbAbsorb m p) s = .next t ∧ (¬mayPlace → s.turnedAway t)
          ∧ (mayPlace → placed t (pos + ovr) ∧ t.on (PFB.STAT_OVR_SAT p.val) = false
            ∧ s.wrote { t with pfb := s.pfb } [PFB.POS p.val, PFB.OVR p.val, PFB.STAT p.val]))
        ∧ ∃ t : State, exec (.pfbHome m p) s = .next t ∧ s.flagged t (PFB.CTRL_HOME p.val))
      ∧ (s.reaches m cfg → ∃ t : State, exec (.pfbCfgWrite m p ser v) s = .next t
        ∧ (bad = true → s.flagged t (PFB.STAT_ERR_ARG p.val))
        ∧ (bad = false → s.f (DPW.CFG_MODE p.val) ≠ 0 → s.turnedAway t)
        ∧ (bad = false → s.f (DPW.CFG_MODE p.val) = 0 → t.rd (PFB.POS p.val) = 0#32 ∧ t.f (PFB.OVR_V p.val) = 0
          ∧ t.rd (PFB.SPEED p.val) = 0#32 ∧ t.on (PFB.STAT_HOMED p.val) = false ∧ t.on (PFB.STAT_STILL p.val) = true
          ∧ (t.pfbU p.val).dir = none ∧ (ser = false → t.f (PFB.CFG_MODE p.val) = getBits 0 3 v)))
      ∧ (s.reaches m (PFB.POS p.val) → ∃ t : State, exec (.pfbSnapshotRead m p true) s = .next t ∧ t.lastResp = .data (s.rd (PFB.POS p.val))
        ∧ (∀ o ∈ [PFB.OVR p.val, PFB.SPEED p.val, PFB.EDGENS p.val, PFB.EDGEFR p.val], t.bankRd m o = s.rd o)
        ∧ s.wrote { t with bank := s.bank } [])
      ∧ (s.reaches m (PFB.LAT0 p.val) → ∃ t : State, exec (.pfbSnapshotRead m p false) s = .next t ∧ t.lastResp = .data (s.rd (PFB.LAT0 p.val))
        ∧ (∀ o ∈ [PFB.LAT1 p.val, PFB.LAT2 p.val, PFB.LAT3 p.val, PFB.LAT4 p.val, PFB.LAT5 p.val], t.bankRd m o = s.rd o)
        ∧ s.wrote { t with bank := s.bank } [])
      ∧ (∃ t : State, exec (.pfbStandstill p) s = .next t ∧ (mode = 0 → t = s)
        ∧ (mode ≠ 0 → keeps t ∧ t.on (PFB.STAT_STILL p.val) = true ∧ t.rd (PFB.SPEED p.val) = 0#32
          ∧ t.on (PFB.STAT_SPEED_VALID p.val) = false ∧ t.on (PFB.STAT_REV_SETTLE p.val) = false))
      ∧ (∃ t : State, exec (.serialTransferEnd p r) s = .next t ∧ (s.on (PFB.SERSTAT_BUSY p.val) = false ∨ ¬lastIn → t = s)
        ∧ (s.on (PFB.SERSTAT_BUSY p.val) = true → lastIn → mode = 3 → (s.pfbU p.val).fzStart = false → failed t ∧ t.on (PFB.SERSTAT_LINE_ERR p.val) = true)
        ∧ (s.on (PFB.SERSTAT_BUSY p.val) = true → lastIn → mode = 4 → r.crc.toNat ≠ bissCrc bits raw r.nE r.nW →
          failed t ∧ t.on (PFB.SERSTAT_CRC_ERR p.val) = true)
        ∧ (s.on (PFB.SERSTAT_BUSY p.val) = true → lastIn → mode = 4 → r.crc.toNat = bissCrc bits raw r.nE r.nW → r.nE = false →
          failed t ∧ t.on (PFB.SERSTAT_NE p.val) = true)
        ∧ (s.on (PFB.SERSTAT_BUSY p.val) = true → lastIn → mode = 4 → r.crc.toNat = bissCrc bits raw r.nE r.nW → r.nE = true →
          t.rd (PFB.SERRAW p.val) = BitVec.ofNat 32 raw ∧ t.f (PFB.SERSTAT_FAILS p.val) = 0 ∧ t.on (PFB.SERSTAT_BUSY p.val) = false
            ∧ ((s.pfbU p.val).rPrev = none → placed t raw)
            ∧ ∀ q, (s.pfbU p.val).rPrev = some q → t.rdI (PFB.POS p.val) = clamp (pos + turned (signedOf bits ((raw + 2 ^ bits - q) % 2 ^ bits)))))
      ∧ ∃ t : State, exec (.serialAckTimeout p) s = .next t
        ∧ (s.on (PFB.SERSTAT_BUSY p.val) = false ∨ mode ≠ 4 ∨ (s.pfbU p.val).startAt ≠ none → t = s)
        ∧ (s.on (PFB.SERSTAT_BUSY p.val) = true → mode = 4 → (s.pfbU p.val).startAt = none → failed t ∧ t.on (PFB.SERSTAT_ACK_TO p.val) = true)

/-- At a slot start a requested swap takes place whether the slot runs or not, and RUNNING follows R125. A
running slot whose topology does not match CAQ.PAIR sets CFG_ERR. Otherwise, with no swap or reset requested,
HOLD_SRC is the first cause of R142 in table order, HELD says whether there is one, and every cause but TRIP
sets the port's SW latch. A fresh hook gives its committed value and is remembered; a stale one sets HK_STALE
and follows its policy; a slot that is held or does not run reads no hook. At its end a held slot marks the set
of half the period, a slot with a mismatch writes nothing, and the on-times of the others lie within the period,
each pair of DC2 summing to it. SWAP and RESET_INT stay requested until the next slot start. A write of
HKINn_TAG commits HKINn_VAL together with the tag. A bank word out of range sets ERR_ARG only; one to the active
bank, or to the incoming bank in the tick of the swap, sets BANK_ERR only; another is stored and ends an
uncorrectable error of that word and of no other. (07_loop_engine.md, R125; 07_loop_engine.md, R126;
07_loop_engine.md, R136; 07_loop_engine.md, R138; 07_loop_engine.md, R141; 07_loop_engine.md, R142;
07_loop_engine.md, R137; 07_loop_engine.md, R145; 07_loop_engine.md, R146). -/
def Obligations.LoopEngine : Prop :=
  (
    ∀ (s : State) (k : Fin 96) (n : Fin 3),
      let runs := s.slotRuns k.val
      let fits : Prop := s.foc3 k.val = decide (s.f (CAQ.CFG_PAIR k.val) ≠ 3)
      let u := s.slotU k.val
      let usesPos : Prop := s.f (LPE.CFG_CASC k.val) ≠ 0 ∨ (s.foc3 k.val = true ∧ s.on (LPE.HOOK_ANG k.val) = false)
      let noPos : Prop := s.on (PFB.LAT1_VALID k.val) = false ∨ s.on (PFB.LAT1_FAULT k.val) = true
      let noCurrent : Prop := s.on (CAQ.LAT3_VA k.val) = false ∨ s.on (CAQ.LAT3_VB k.val) = false
        ∨ (s.foc3 k.val = true ∧ s.on (CAQ.LAT3_VC k.val) = false)
      let ecc : Prop := u.ecc = true ∨ (∃ w ∈ u.badWords, w / 32 = s.actBank k.val)
        ∨ ∃ e ∈ s.ecc, e.double = true ∧ ((e.place = 1 ∧ e.addr / 64 = 2 * k.val + s.actBank k.val) ∨ (e.place = 2 ∧ e.addr = k.val))
      let tripped : Prop := s.on (DPW.STAT_FORCED k.val) = true ∨ s.latches k.val ≠ 0
      (∃ t : State, exec (.lpeSlotStart k) s = .next t
          ∧ t.f (LPE.STAT_ACT_BANK k.val) = (if s.on (LPE.CTRL_SWAP k.val) then 1 - s.actBank k.val else s.actBank k.val)
          ∧ t.on (LPE.CTRL_SWAP k.val) = false ∧ t.on (LPE.CTRL_RESET_INT k.val) = false
          ∧ t.on (LPE.STAT_RUNNING k.val) = runs ∧ (runs = false → t.on (LPE.STAT_HELD k.val) = false)
          ∧ (runs = true → ¬fits → t.on (LPE.STAT_CFG_ERR k.val) = true)
          ∧ (runs = true → fits → s.on (LPE.CTRL_SWAP k.val) = false → s.on (LPE.CTRL_RESET_INT k.val) = false →
            let c := t.f (LPE.STAT_HOLD_SRC k.val)
            t.on (LPE.STAT_HELD k.val) = decide (c ≠ 0) ∧ (s.lpe.frameBad = true → c = 5)
              ∧ (s.lpe.frameBad = false → ecc → c = 4) ∧ (s.lpe.frameBad = false → ¬ecc → usesPos → noPos → c = 2)
              ∧ (s.lpe.frameBad = false → ¬ecc → ¬(usesPos ∧ noPos) → noCurrent → c = 3)
              ∧ (s.lpe.frameBad = false → ¬ecc → ¬(usesPos ∧ noPos) → ¬noCurrent → c = if tripped then 1 else 0)
              ∧ (2 ≤ c → (t.latches k.val).testBit 3 = true)))
        ∧ (∃ t : State, exec (.lpeHookRead k n) s = .next t ∧
          let pick {α : Type} (a b c : α) : α := if n.val = 0 then a else if n.val = 1 then b else c
          let got := pick (t.slotU k.val).h1 (t.slotU k.val).h2 (t.slotU k.val).h3
          let com := pick u.com1 u.com2 u.com3
          let last := pick u.last1 u.last2 u.last3
          let reads : Prop := u.running = true ∧ u.mism = false ∧ s.on (LPE.STAT_HELD k.val) = false
          let fresh : Prop := s.f (LPE.HKIN_TAG_V k.val n.val) = u.fc % 256
          let policy := getBits (6 + 2 * n.val) 2 u.inp.hook
          (¬reads → t = s)
            ∧ (reads → fresh → got = .val com ∧ pick (t.slotU k.val).last1 (t.slotU k.val).last2 (t.slotU k.val).last3 = some com ∧ t.regs = s.regs)
            ∧ (reads → ¬fresh → t.on (LPE.STAT_HK_STALE k.val) = true ∧ (policy = 1 → got = .zero) ∧ (2 ≤ policy → got = .bypass)
              ∧ (policy = 0 → got = (match last with | some w => .val w | none => .zero))))
        ∧ ∃ t : State, exec (.lpeSlotEnd k) s = .next t ∧
          let per := s.portPeriod k.val
          let ton (j : Nat) : Nat := t.f (DPW.CMP_TON k.val j)
          (u.running = false ∨ u.mism = true → t.regs = s.regs)
            ∧ (u.running = true → u.mism = false → per < 2 ^ 25 → (t.dpwU k.val).marked = true
              ∧ (s.on (LPE.STAT_HELD k.val) = true → ton 0 = per / 2 ∧ ton 1 = per / 2 ∧ ton 2 = per / 2)
              ∧ (s.on (LPE.STAT_HELD k.val) = false → ton 0 ≤ per ∧ ton 1 ≤ per ∧ ton 2 ≤ per)
              ∧ (s.on (LPE.STAT_HELD k.val) = false → u.inp.foc = false → ton 0 + ton 1 = per ∧ ton 2 + ton 3 = per)))
  ∧
  (
    ∀ (s : State) (m : Sys2Proof.Master) (k : Fin 96) (n : Fin 3) (bank : Fin 2) (w : Fin 22) (v : Word) (coin : Bool),
      let u := s.slotU k.val
      let off := bankOff k.val bank.val (4 * w.val)
      (s.reaches m (LPE.CTRL k.val) → (∃ t : State, exec (.lpeSwap m k) s = .next t ∧ s.flagged t (LPE.CTRL_SWAP k.val))
          ∧ ∃ t : State, exec (.lpeResetInt m k) s = .next t ∧ s.flagged t (LPE.CTRL_RESET_INT k.val))
        ∧ (s.reaches m (LPE.HKIN_TAG k.val n.val) → ∃ t : State, exec (.lpeHookCommit m k n v) s = .next t
          ∧ t.f (LPE.HKIN_TAG_V k.val n.val) = v.toNat % 256
          ∧ (n.val = 0 → t.slotU k.val = { u with com1 := s.rd (LPE.HKIN_VAL k.val 0) })
          ∧ (n.val = 1 → t.slotU k.val = { u with com2 := s.rd (LPE.HKIN_VAL k.val 1) })
          ∧ (n.val = 2 → t.slotU k.val = { u with com3 := s.rd (LPE.HKIN_VAL k.val 2) })
          ∧ (∀ j, j ≠ k.val → t.slotU j = s.slotU j) ∧ s.wrote { t with slot := s.slot } [LPE.HKIN_TAG k.val n.val])
        ∧ (s.reaches m off → ∃ t : State, exec (.lpeBankWrite m k bank w v coin) s = .next t
          ∧ (bankBadValue w.val v = true → s.flagged t (LPE.STAT_ERR_ARG k.val))
          ∧ (bankBadValue w.val v = false → s.actBank k.val = bank.val ∨ coin = true → s.flagged t (LPE.STAT_BANK_ERR k.val))
          ∧ (bankBadValue w.val v = false → s.actBank k.val ≠ bank.val → coin = false →
            s.wrote { t with slot := s.slot, ecc := s.ecc } [off] ∧ (∀ e ∈ t.ecc, e.place = 1 → e.addr ≠ 64 * (2 * k.val + bank.val) + w.val)
              ∧ (∀ e ∈ t.ecc, e ∈ s.ecc) ∧ (t.slotU k.val).badWords = u.badWords.filter (fun x => decide (x ≠ 32 * bank.val + w.val))
              ∧ (w.val < 4 → t.f ⟨off, 0, 16⟩ = v.toNat % 65536))))

/-- A submission with an offset that is no multiple of 64 or lies beyond the window sets ERR_ARG; an unknown
opcode completes with BAD_OPCODE, a SOLVE with room joins the queue, and one that meets a full queue sets QFULL
and completes with NO_RESOURCE, unless a fault that R9 puts before that answers first. At the head of the queue LOAD_STRUCT starts a build in its slot and completes
with ACCEPTED, REFACTOR starts one in the slot that is not ACTIVE, or waits for its count with REFAC_PEND, SOLVE
makes its slot ACTIVE and runs or ends at once, and without a slot completes with BUSY or ILLEGAL_STATE. The
refusals come in the order of R9: a bad argument gives BAD_ARG, the wrong module state or the ACTIVE slot
ILLEGAL_STATE, a block, parameter block or change list with an error that ECC cannot correct, or a block with a
wrong CRC, INTEGRITY, and then its content BAD_ARG. ABORT marks the running solve
and with BUILD = 1 drops the build; a rebuilding that waited for that build starts. Each completion stands in the descriptor and goes out as a token. An
iteration's end counts the iteration, and the solve goes on or ends with LAST and CNT.SOLVES written; an aborted
solve ends. A build's end leaves its slot PENDING or, failed, EMPTY, and counts it; an uncorrectable error in
the slot makes it fail. A pending refactorisation starts in the slot that is not ACTIVE once its count is
reached, in a module state in which builds run. A corrected memory error sets ECC_CORR only; an uncorrectable one in
a slot sets ECC_BAD and ECC_UNC, makes a record and ends the solve that runs there with FACTOR_ERR; the ACTIVE
structure is then built anew in the other slot, a PENDING one in its own (the model's choice, log entry 105), at
once or at the end of the running build. One in the iterates ends the running solve with FACTOR_ERR. Without a run, a build or a
request nothing happens. (09_nutmeg_solver.md, R180; 09_nutmeg_solver.md, R182; 09_nutmeg_solver.md, R183;
09_nutmeg_solver.md, R184; 09_nutmeg_solver.md, R185; 09_nutmeg_solver.md, R187; 09_nutmeg_solver.md, R203;
09_nutmeg_solver.md, R179; 09_nutmeg_solver.md, R199; 09_nutmeg_solver.md, R204; 09_nutmeg_solver.md, R207). -/
def Obligations.Solver : Prop :=
  (
    ∀ (s : State) (c : NmgCmd) (rest : List NmgCmd),
      let answered (t : State) (res : Nat) : Prop := (t.byte .shared (c.ofs + 32)).toNat = res
        ∧ (c.b 4 2 ≠ 0 → (⟨BitVec.ofNat 16 (c.b 4 2), BitVec.ofNat 32 (c.b 2 2 + res * 2 ^ 16 + 15 * 2 ^ 24), 300⟩ : Token) ∈ t.clvIn)
      let may : Prop := s.mstate = 4 ∨ s.mstate = 5 ∨ s.mstate = 6
      let head (op : Nat) : Prop := s.nmg.queue = c :: rest ∧ s.nmg.run = none ∧ c.op = op
      let h := s.nmgHdr c.src
      let auxBad : Prop := h.native = true ∧ (61440 < c.len ∨ windowBytes < c.aux + 4 * c.len)
      let corrupt : Prop := s.nmgBlockEcc h = true ∨ s.nmgCrcGood h = false
      let open_ : Prop := c.badArg = false ∧ ¬auxBad ∧ may ∧ (c.slot < 2 → s.f (NMG.SLOT_STAT_STATE c.slot) ≠ 3)
      let hdr (k : Nat) : NmgHdr := s.nmgHdr (s.nmgSlot k).blk
      let named := s.solveNamed (c.b 8 4)
      let argBad : Prop := c.badArg = true ∨ ∃ k, named = some k ∧ solveArgBad c (hdr k) = true
      let maySolve : Prop := s.mstate = 4 ∨ s.mstate = 5
      let spoilt (k : Nat) : Prop := s.eccIn .shared c.src (if (hdr k).native then 4 * c.len else 8 * c.len) true = true
      let wrong (k : Nat) : Prop := (hdr k).native = false ∧ ∃ i, i < c.len ∧ s.changeBad (hdr k) c.src i = true
      let sound (k : Nat) : Prop := s.on (NMG.SLOT_STAT_ECC_BAD k) = false
      (head 1 → ∃ t : State, exec .loadStruct s = .next t ∧ t.nmg.queue = rest
          ∧ (c.badArg = true ∨ auxBad → answered t 3)
          ∧ (c.badArg = false → ¬auxBad → ¬may ∨ (c.slot < 2 ∧ s.f (NMG.SLOT_STAT_STATE c.slot) = 3) → answered t 6)
          ∧ (open_ → h.beyond = true → answered t 3)
          ∧ (open_ → h.beyond = false → corrupt → answered t 9)
          ∧ (open_ → h.beyond = false → ¬corrupt → h.vbBeyond = true ∨ s.nmgBlockBad h = true → answered t 3)
          ∧ (open_ → h.beyond = false → ¬corrupt → h.vbBeyond = false → s.nmgBlockBad h = false → s.nmg.build = none → s.nmg.pend = [] →
            (∃ j : Fin 2, s.f (NMG.SLOT_STAT_STATE j.val) ≠ 3) → answered t 1 ∧ t.on NMG.STAT_BUILD = true ∧ t.on NMG.STAT_REFAC_PEND = false
              ∧ ∃ j : Fin 2, (c.slot < 2 → j.val = c.slot) ∧ s.f (NMG.SLOT_STAT_STATE j.val) ≠ 3 ∧ t.f (NMG.SLOT_STAT_STATE j.val) = 1
                ∧ t.f (NMG.SLOT_STAT_GEN j.val) = (s.f (NMG.SLOT_STAT_GEN j.val) + 1) % 65536))
        ∧ (head 3 → ∃ t : State, exec .refactor s = .next t ∧ t.nmg.queue = rest
          ∧ (c.badArg = true → answered t 3)
          ∧ (c.badArg = false → ¬may ∨ s.slotIn 3 = none ∨ s.slotIn 3 = some c.slot → answered t 6)
          ∧ ∀ a, c.badArg = false → may → s.slotIn 3 = some a → c.slot ≠ a → s.nmg.build = none → s.nmg.pend = [] → answered t 1
            ∧ (s.refacCount = true → t.f (NMG.SLOT_STAT_STATE (1 - a)) = 1 ∧ t.on NMG.STAT_BUILD = true ∧ t.on NMG.STAT_REFAC_PEND = false)
            ∧ (s.refacCount = false → t.on NMG.STAT_REFAC_PEND = true ∧ t.nmg.build = none ∧ t.nmg.pend = [c]))
        ∧ (head 2 → ∃ t : State, exec .solve s = .next t ∧ t.nmg.queue = rest
          ∧ (argBad → answered t 3) ∧ (¬argBad → ¬maySolve → answered t 6) ∧ (¬argBad → named = none → answered t 6)
          ∧ (∀ k, ¬argBad → maySolve → s.solveSlot (c.b 8 4) = .inr 2 → named = some k →
            (spoilt k → answered t 9) ∧ (¬spoilt k → wrong k → answered t 3) ∧ (¬spoilt k → ¬wrong k → answered t 2))
          ∧ (∀ k, ¬argBad → maySolve → s.solveSlot (c.b 8 4) = .inl k → sound k →
            (spoilt k → answered t 9) ∧ (¬spoilt k → wrong k → answered t 3))
          ∧ ∀ k, ¬argBad → maySolve → s.solveSlot (c.b 8 4) = .inl k → ¬sound k ∨ (¬spoilt k ∧ ¬wrong k) →
            (s.f (NMG.SLOT_STAT_STATE k) = 3 → s.f (NMG.SLOT_STAT_STATE (1 - k)) ≠ 3) → t.f (NMG.SLOT_STAT_STATE k) = 3 ∧ (s.f (NMG.SLOT_STAT_STATE k) = 2 → t.f (NMG.SLOT_STAT_STATE (1 - k)) ≠ 3)
              ∧ (¬sound k → t.f NMG.LAST_STATUS = 7 ∧ t.nmg.run = none)
              ∧ ((∃ r, t.nmg.run = some r ∧ r.cmd = c ∧ r.slot = k ∧ r.iter = 0)
                ∨ (t.nmg.run = none ∧ t.f NMG.LAST_ITER = 0 ∧ (t.f NMG.LAST_STATUS = 3 ∨ t.f NMG.LAST_STATUS = 5 ∨ t.f NMG.LAST_STATUS = 7))))
        ∧ (s.nmg.aborts = c :: rest → ∃ t : State, exec .abort s = .next t ∧ t.nmg.aborts = rest ∧ t.nmg.queue = s.nmg.queue
          ∧ (c.badArg = true → answered t 3) ∧ (c.badArg = false → ¬may → answered t 6)
          ∧ (c.badArg = false → may → answered t 0 ∧ t.nmg.run = s.nmg.run.map (fun (r : NmgSolve) => { r with abort := true })
            ∧ (c.b 1 1 / 2 % 2 = 0 → s.nmg.build ≠ none ∨ s.nmg.eccPend = none → t.nmg.build = s.nmg.build)
            ∧ (c.b 1 1 / 2 % 2 = 1 → s.nmg.eccPend = none →
              t.nmg.build = none ∧ ∀ b, s.nmg.build = some b → b.slot < 2 → t.f (NMG.SLOT_STAT_STATE b.slot) = 0)
            ∧ (∀ (b : NmgBuild) (k : Fin 2), c.b 1 1 / 2 % 2 = 1 → s.nmg.build = some b → b.slot = 1 - k.val → s.nmg.eccPend = some k.val →
              s.on (NMG.SLOT_STAT_ECC_BAD k.val) = true → s.f (NMG.SLOT_STAT_STATE k.val) = 3 →
              t.f (NMG.SLOT_STAT_STATE (1 - k.val)) = 1 ∧ t.on NMG.STAT_BUILD = true)))
        ∧ ∀ (m : Sys2Proof.Master) (v : Word), s.reaches m NMG.SUBMIT → ∃ t : State, exec (.nmgSubmitWrite m v) s = .next t
          ∧ (v.toNat % 64 ≠ 0 → s.flagged t NMG.STAT_ERR_ARG)
          ∧ (v.toNat % 64 = 0 → c = ⟨v.toNat % 2 ^ 24, s.load .shared (v.toNat % 2 ^ 24) 64, .none⟩ →
            (c.op = 0 ∨ 4 < c.op → answered t 4 ∧ t.nmg = s.nmg)
              ∧ (c.op = 2 → s.nmg.queue.length < 16 → t.nmg.queue = s.nmg.queue ++ [c])
              ∧ (c.op = 2 → 16 ≤ s.nmg.queue.length → (argBad → answered t 3) ∧ (¬argBad → ¬maySolve ∨ named = none → answered t 6)
                ∧ ∀ k, ¬argBad → maySolve → s.solveSlot (c.b 8 4) = .inl k → (sound k → spoilt k → answered t 9)
                  ∧ (¬sound k ∨ (¬spoilt k ∧ ¬wrong k) → answered t 8 ∧ t.on NMG.STAT_QFULL = true ∧ t.nmg = s.nmg))
              ∧ (c.op = 4 → t.nmg.aborts = s.nmg.aborts ++ [c] ∧ (⟨s.now, .cmd .abort⟩ : Due) ∈ t.agenda)))
  ∧
  (
    ∀ s : State,
      let may : Prop := s.mstate = 4 ∨ s.mstate = 5 ∨ s.mstate = 6
      (∃ t : State, exec .nmgIterationEnd s = .next t ∧ (s.nmg.run = none → t = s)
          ∧ ∀ r, s.nmg.run = some r → ((∃ q, t.nmg.run = some q ∧ q.iter = r.iter + 1 ∧ q.slot = r.slot ∧ r.abort = false)
            ∨ (t.nmg.run = none ∧ t.f NMG.LAST_ITER = (r.iter + 1) % 65536 ∧ t.f NMG.CNT_SOLVES = (s.f NMG.CNT_SOLVES + 1) % 65536)))
        ∧ (∃ t : State, exec .nmgBuildEnd s = .next t ∧ (s.nmg.build = none → t = s)
          ∧ ∀ b, s.nmg.build = some b → b.slot < 2 → t.f NMG.CNT_BUILDS = (s.f NMG.CNT_BUILDS + 1) % 65536
            ∧ (s.nmg.eccPend = none → t.nmg.build = none ∧ t.on NMG.STAT_BUILD = false
              ∧ (t.f (NMG.SLOT_STAT_STATE b.slot) = 0 ∨ t.f (NMG.SLOT_STAT_STATE b.slot) = 2)
              ∧ (s.on (NMG.SLOT_STAT_ECC_BAD b.slot) = true → t.f (NMG.SLOT_STAT_STATE b.slot) = 0))
            ∧ ∀ k : Fin 2, s.nmg.eccPend = some k.val → b.slot = 1 - k.val → s.on (NMG.SLOT_STAT_ECC_BAD k.val) = true →
              s.f (NMG.SLOT_STAT_STATE k.val) = 3 → s.f (NMG.SLOT_STAT_STATE (1 - k.val)) = 1 → may →
              t.f (NMG.SLOT_STAT_STATE (1 - k.val)) = 1 ∧ t.on NMG.STAT_BUILD = true)
        ∧ (∃ t : State, exec .nmgAutoRefactor s = .next t
          ∧ (s.on NMG.STAT_REFAC_PEND = false ∨ s.refacCount = false ∨ s.nmg.build ≠ none ∨ ¬may → t = s)
          ∧ ∀ a, s.on NMG.STAT_REFAC_PEND = true → s.refacCount = true → s.nmg.build = none → may → s.slotIn 3 = some a →
            t.f (NMG.SLOT_STAT_STATE (1 - a)) = 1 ∧ t.f (NMG.SLOT_STAT_STATE a) = 3 ∧ t.on NMG.STAT_REFAC_PEND = false ∧ t.on NMG.STAT_BUILD = true)
        ∧ (∃ t : State, exec (.nmgEccError .corrected) s = .next t ∧ t.on NMG.STAT_ECC_CORR = true ∧ s.sameBut t [NMG.STAT])
        ∧ (∃ t : State, exec (.nmgEccError .iterate) s = .next t ∧ t.on NMG.STAT_ECC_UNC = true ∧ t.nmg.run = none
          ∧ ∀ r, s.nmg.run = some r → t.f NMG.LAST_STATUS = 7)
        ∧ ∀ k : Fin 2, ∃ t : State, exec (.nmgEccError (.slot k)) s = .next t ∧ t.on NMG.STAT_ECC_UNC = true
          ∧ (s.nmg.run = none → s.f (NMG.SLOT_STAT_STATE k.val) < 2 → s.nmg.eccPend = none → t.on (NMG.SLOT_STAT_ECC_BAD k.val) = true
            ∧ t.ansIn.length = s.ansIn.length + 1 ∧ t.nmg = s.nmg)
          ∧ (s.nmg.run = none → 2 ≤ s.f (NMG.SLOT_STAT_STATE k.val) → s.nmg.build ≠ none → t.on (NMG.SLOT_STAT_ECC_BAD k.val) = true
            ∧ t.ansIn.length = s.ansIn.length + 1 ∧ t.nmg = { s.nmg with eccPend := some k.val })
          ∧ (s.nmg.run = none → s.f (NMG.SLOT_STAT_STATE k.val) = 3 → s.f (NMG.SLOT_STAT_STATE (1 - k.val)) ≠ 3 → s.nmg.build = none → may →
            t.on (NMG.SLOT_STAT_ECC_BAD k.val) = true ∧ t.f (NMG.SLOT_STAT_STATE (1 - k.val)) = 1 ∧ t.on NMG.STAT_BUILD = true)
          ∧ (s.nmg.run = none → s.f (NMG.SLOT_STAT_STATE k.val) = 2 → s.nmg.build = none → may →
            t.f (NMG.SLOT_STAT_STATE k.val) = 1 ∧ t.on NMG.STAT_BUILD = true)
          ∧ (∀ r, s.nmg.run = some r → r.slot = k.val → t.nmg.run = none ∧ t.f NMG.LAST_STATUS = 7))

/-- A cycle starts only in RUN, with EN and a planning role, at the event time of the comparator's firing, with its
deadline at P − LATE_MARGIN and the last time for the completion token TPOST before. The snapshot's end takes every
local joint from the strobe set of the cycle (where SNAPW ends before that strobe the one in force, the model's
choice, log entry 107) and sets STATE_OLD where a
worker's frame is missing. A SOLVE is submitted with DTAG and the time left, or the cycle is missed; a solution
counts only with VALID and FEAS, in time. The output takes the knots of every mapped joint, knot 0 with REPLACE and
the last one at rest, and goes out part by part (a command brings as many as it says, the model's choice, log entry
107), arms first; after the last part the cycle is a used one: it sets PLC_PLAN to its number, clears MISS_RUN
and withdraws PLAN_SLS after REL_N used cycles. A missed cycle ends, counts in MISSES and MISS_RUN, sets
SOLVE_LATE or PLAN_INVALID, makes a record and requests PLAN_SLS at the third in a row. Each phase acts only in
its turn. A complete STATE frame becomes the newest of its worker when none was there; a module that does not
plan ignores it. A worker ignores a CYCLE frame of another sender than its manager and counts it; without time
synchronisation the plan is dropped; a complete plan in time, based on the plan in force, for ports in SPLINE,
is applied whole and PLC_PLAN shows it; else it is dropped whole. A plan that lacks fragments as TB_CELL reaches
T0 − 50 µs is dropped, and none before. A drop sets PLAN_DROP, counts, makes a record and pushes nothing.
(10_planning_cycle.md,
R213; 10_planning_cycle.md, R215; 10_planning_cycle.md, R216; 10_planning_cycle.md, R220; 10_planning_cycle.md,
R221; 10_planning_cycle.md, R222; 10_planning_cycle.md, R223; 10_planning_cycle.md, R224; 10_planning_cycle.md,
R226; 18_manager_workers_failover.md, R418; 18_manager_workers_failover.md, R419). -/
def Obligations.Planning : Prop :=
  (
    ∀ (s : State) (ofs : Word) (n : Nat),
      let missed (t : State) (F : Field) : Prop := t.plc.phase = 0 ∧ t.plc.used = 0 ∧ t.on F = true
        ∧ t.f PLC.CNT_MISSES = min (s.f PLC.CNT_MISSES + 1) 65535 ∧ t.f PLC.STAT_MISS_RUN = min (s.f PLC.STAT_MISS_RUN + 1) 31
        ∧ t.ansIn.length = s.ansIn.length + 1 ∧ (s.f PLC.STAT_MISS_RUN = 2 → t.on PLC.STAT_SLS_REQ = true ∧ t.on SAF.REQ_PLAN_SLS = true)
      let late := PLC.STAT_SOLVE_LATE
      let invalid := PLC.STAT_PLAN_INVALID
      let flags := s.load .shared (s.load .shared (s.plc.desc + 24) 4 + 4) 4
      let status := s.load .shared (s.plc.desc + 33) 1
      let mayStart : Prop := s.mstate = 5 ∧ s.plans = true ∧ s.on PLC.CFG_EN = true
      let margin := 1000 * s.f PLC.CFG_LATE_MARGIN
      let inTime : Prop := s.now < s.plc.at_ + (s.planP - margin) / 4
      let u := if s.plc.phase = 4 then s.planKnots else s
      let parts := u.plc.todo.length
      (∃ t : State, exec .planCycleStart s = .next t ∧ (¬mayStart → t = s)
          ∧ (mayStart → s.plc.phase = 0 → s.fov.promote = false → s.fov.takeover = false → t.plc.phase = 1 ∧ t.regs = s.regs
            ∧ t.plc.t0 = s.lastEvent (s.f PLC.CFG_TSEL) ∧ t.plc.at_ = s.now
            ∧ (⟨s.now + (s.planP - margin) / 4, .cmd .planDeadline⟩ : Due) ∈ t.agenda
            ∧ (⟨s.now + (s.planP - 1000 * (s.f PLC.CFG_LATE_MARGIN + s.f PLC.CFG_TPOST)) / 4, .planCut⟩ : Due) ∈ t.agenda))
        ∧ (∃ t : State, exec .snapshotEnd s = .next t ∧ (s.plc.phase ≠ 1 → t = s)
          ∧ (s.plc.phase = 1 → t.plc.phase = 2 ∧ (s.allStates = false → t.on PLC.STAT_STATE_OLD = true)
            ∧ ∀ j ∈ s.mapped, s.localJ j = true →
              (∀ e, s.plc.strobes.find? (fun x => decide (x.1 = s.jPort j)) = some e → (⟨j, e.2.1, e.2.2⟩ : SnapJoint) ∈ t.snap)
                ∧ ((∀ e ∈ s.plc.strobes, e.1 ≠ s.jPort j) →
                  (⟨j, s.sampledPos (s.jPort j), s.rdI (PFB.LAT4 (s.jPort j))⟩ : SnapJoint) ∈ t.snap)))
        ∧ (∃ t : State, exec (.planSolveSubmit ofs) s = .next t ∧ (s.plc.phase ≠ 2 → t = s)
          ∧ (s.plc.phase = 2 → s.planCap < 1 → missed t late)
          ∧ (s.plc.phase = 2 → 1 ≤ s.planCap → t.plc.phase = 3 ∧ t.plc.desc = ofs.toNat
            ∧ t.load .shared (ofs.toNat + 4) 2 = s.f PLC.TAGS_DTAG ∧ t.load .shared (ofs.toNat + 30) 2 = s.planCap.toNat % 65536))
        ∧ (∃ t : State, exec .planSolutionReceived s = .next t ∧ (s.plc.phase ≠ 3 → t = s)
          ∧ (s.plc.phase = 3 → status = 15 → missed t late)
          ∧ (s.plc.phase = 3 → status ≠ 15 → s.planCap < 0 → missed t late)
          ∧ (s.plc.phase = 3 → status ≠ 15 → 0 ≤ s.planCap → flags % 4 ≠ 3 → missed t invalid)
          ∧ (s.plc.phase = 3 → status ≠ 15 → 0 ≤ s.planCap → flags % 4 = 3 →
            t.plc = { s.plc with phase := 4, status := status, cand := s.nmg.warm } ∧ s.sameBut { t with plc := s.plc } [PLC.LAST]))
        ∧ (∃ t : State, exec (.planOutput n) s = .next t ∧ (s.plc.phase < 4 → t = s)
          ∧ (4 ≤ s.plc.phase → ¬inTime → missed t invalid)
          ∧ (4 ≤ s.plc.phase → inTime → n < parts → t.plc.phase = u.plc.phase ∧ t.plc.todo = u.plc.todo.drop n ∧ t.rd PLC.PLAN = s.rd PLC.PLAN)
          ∧ (4 ≤ s.plc.phase → inTime → parts ≤ n → t.plc.phase = 0 ∧ t.rd PLC.PLAN = u.plc.num ∧ t.f PLC.STAT_MISS_RUN = 0
            ∧ t.plc.next = u.plc.next ∧ t.plc.used = s.plc.used + 1 ∧ (t.plc.plans.head?.map (·.num)) = some u.plc.num
            ∧ (s.on PLC.STAT_SLS_REQ = true → s.f PLC.REL_REL_N ≤ s.plc.used + 1 → t.on PLC.STAT_SLS_REQ = false))
          ∧ (s.plc.phase = 4 → (s.mapped ≠ [] → 0 < parts) ∧ u.plc.phase = 5 ∧ u.plc.num = s.plc.next
            ∧ u.plc.next = (if s.plc.next = 0xFFFFFFFF#32 then 1#32 else s.plc.next + 1#32) ∧ u.plc.blocks.map (·.j) = s.mapped
            ∧ ∀ b ∈ u.plc.blocks, let w (i k : Nat) : Word := (b.knots.getD i []).getD k 0xFFFFFFFF#32
              b.knots.length = s.planJ + 1 ∧ w 0 1 = 1#32 ∧ w s.planJ 4 = 0#32 ∧ w s.planJ 5 = 0#32))
        ∧ ∃ t : State, exec .planDeadline s = .next t ∧ (s.plc.phase = 0 → t = s) ∧ (4 ≤ s.plc.phase → missed t invalid)
          ∧ (s.plc.phase ≠ 0 → s.plc.phase < 4 → missed t late))
  ∧
  (
    ∀ (s : State) (src : Fin 64) (l : List Byte) (plan : Word),
      let word (o : Nat) : Word := BitVec.ofNat 32 (leNat (sub l o 4))
      let nrec := leNat (sub l 8 1)
      let dropped (t : State) : Prop := t.on PLC.STAT_PLAN_DROP = true ∧ t.f PLC.CNT_DROPS = min (s.f PLC.CNT_DROPS + 1) 65535
        ∧ t.ansIn.length = s.ansIn.length + 1 ∧ t.pg = s.pg ∧ t.rd PLC.PLAN = s.rd PLC.PLAN
      let timed : Prop := s.on (TIMEEXT.STATUS_SYNC 0) = true ∨ s.on (TIMEEXT.STATUS_GRANDMASTER 0) = true
      let blocks := blocksOf (leNat (sub l 14 1)) (l.drop 16)
      let unknown : Prop := ∀ f ∈ s.plc.frags, f.plan = word 0 → f.t0 ≠ word 8
      let gathers (f : PlanFrags) : Bool := decide (f.plan = plan) && decide (f.nfrag ≠ 0)
      (∃ t : State, exec (.stateFrameReceive src l) s = .next t ∧ t.regs = s.regs ∧ (s.plans = false → t = s)
          ∧ (s.plans = true → 12 + 16 * nrec ≤ l.length → leNat (sub l 9 1) = 0 → leNat (sub l 10 1) = 1 →
            s.plc.coming.get noSt src.val = none → s.stFrame src.val = none → ∃ f, t.stFrame src.val = some f ∧ f.t0 = word 0 ∧ f.applied = word 4
              ∧ f.joints = stJoints l nrec))
        ∧ (∃ t : State, exec (.cycleFrameReceive src l) s = .next t ∧ (s.isWorker = false → t = s)
          ∧ (s.isWorker = true → s.planSource ≠ some src.val → t.f FOV.CNT_FOREIGN = min (s.f FOV.CNT_FOREIGN + 1) 65535 ∧ s.sameBut t [FOV.CNT])
          ∧ (s.isWorker = true → s.planSource = some src.val → unknown → ¬timed → dropped t)
          ∧ (s.isWorker = true → s.planSource = some src.val → unknown → timed → leNat (sub l 13 1) = 1 →
            let fits : Prop := 0 < s.fragLeft (word 8) ∧ word 4 = s.rd PLC.PLAN ∧ ∀ b ∈ blocks, b.port < 96 ∧ s.f (PRG.CFG_SRC b.port) = 2
            (fits → t.rd PLC.PLAN = word 0) ∧ (¬fits → dropped t)))
        ∧ ∃ t : State, exec (.planFragmentDeadline plan) s = .next t ∧ ((∀ f ∈ s.plc.frags, gathers f = false) → t = s)
          ∧ ∀ f, s.plc.frags.filter gathers = [f] →
            (s.fragLeft f.t0 ≤ 0 → dropped t) ∧ (0 < s.fragLeft f.t0 → t = { s with agenda := t.agenda }))

/-- A missed output point and a supply fault put all twelve groups in STO at once, the latches of their ports
with them, and raise a class A fault of scope ALL. A cycle start counts the cycle, takes the requests and the
demands of the inputs and arms
the watch at 1.2 ms; the output point comes within 0.8 ms and the next start after 1 ms of Saffron's own clock; more than 200 ppm raise
CLOCK, and a readback that contradicts its switch raises SWITCH. An output point ends the watch, and outside RUN and
SAFE every group is in STO after it; a fault of scope ALL is reported. A failed
release check leaves the group in STO with SWITCH; the first good one goes on to the HS switch, the second
withdraws STO. A test opens one switch of a released pair for at most 200 µs, and the test of the LS switch follows
1 ms later; a pair in STO, or one with a switch open, is not tested. A good test ends the switch's fault (log entry
109); one failed switch sets SWFAIL and starts degraded mode, or SS1 everywhere once it has been used;
both raise SWITCH. An overcurrent opens the switches and raises OVERCURRENT. A failed diagnostic raises its fault: of
scope ALL for the cell's own, of the arm's scope for a joint or a pair, and of class B for one switch, an estimate or
a test output, which ends when the diagnostic passes again.
(11_saffron_safety.md,
R232; 11_saffron_safety.md, R233; 11_saffron_safety.md, R234; 11_saffron_safety.md, R242; 11_saffron_safety.md,
R245; 11_saffron_safety.md, R253; 11_saffron_safety.md, R254; 11_saffron_safety.md, R255). -/
def Obligations.SaffronShutOff : Prop :=
  ∀ (s : State) (g : Fin 12) (ppm : Int) (contra : BitVec 12) (hs good : Bool) (c : Fin 9) (p : Fin 96) (k : Fin 4),
    let active (t : State) (c arm : Nat) : Prop := ∃ f ∈ t.saf.faults, f.code = c ∧ f.arm = arm
    let activeB (t : State) (c unit : Nat) : Prop := ∃ f ∈ t.saf.faults, f.code = c ∧ f.arm = 17 ∧ f.unit = unit
    let allSto (t : State) : Prop := ∀ j : Fin 12, t.groupIn j.val = true
    let hardware (t : State) (c : Nat) : Prop := allSto t ∧ t.saf.hard = true ∧ active t c 16
      ∧ ∀ p : Fin 96, s.groupIn (p.val / 8) = false → (t.latches p.val) &&& tripBit (.sto g) = tripBit (.sto g)
    let classB (t : State) (c unit : Nat) : Prop := activeB t c unit
      ∧ (s.on SAF.STAT_DEG_USED = false → t.on SAF.STAT_DEGRADED = true ∧ t.on SAF.STAT_DEG_USED = true)
      ∧ (s.on SAF.STAT_DEG_USED = true → t.saf.ss1All = true)
    let stage := s.relStage g.val
    let old := s.saf.swBad.get (fun _ => 0) g.val
    let mine := if hs then 1 else 2
    let switch := 2 * g.val + hs.toNat
    (∃ t : State, exec .safetyCycleOverrun s = .next t ∧ hardware t 7)
      ∧ (∃ t : State, exec .safetySupplyFault s = .next t ∧ hardware t 6)
      ∧ (∃ t : State, exec (.safetyCycleStart ppm contra) s = .next t ∧ t.f SAF.STAT_CYCLE = (s.f SAF.STAT_CYCLE + 1) % 65536
        ∧ t.saf.req = s.rd SAF.REQ ∧ t.saf.dem = s.demandMask ∧ t.saf.takenAt = s.now ∧ (200 < ppm.natAbs → active t 5 16)
        ∧ (contra.getLsbD g.val = true → active t 12 (s.groupScope g.val))
        ∧ (∃ d, d ≤ 200000 ∧ (⟨s.now + d, .cmd .safetyOutputPoint⟩ : Due) ∈ t.agenda)
        ∧ (⟨s.now + 300000, .cmd .safetyCycleOverrun⟩ : Due) ∈ t.agenda
        ∧ (⟨s.now + s.cycleTicks, .cmd (.safetyCycleStart 0 0#12)⟩ : Due) ∈ t.agenda)
      ∧ (∃ t : State, exec .safetyOutputPoint s = .next t ∧ t.saf.ss1All = false ∧ t.saf.ack = 0 ∧ t.saf.lastMod = s.mstate
        ∧ (∀ d ∈ t.agenda, d.ev ≠ .cmd .safetyCycleOverrun) ∧ (s.mstate ≠ 5 → s.mstate ≠ 6 → allSto t)
        ∧ ((∃ f ∈ s.saf.faults, f.arm = 16) → t.on SAF.STAT_REPORT = true ∧ (s.mstate = 5 → (⟨s.now, .safReport⟩ : Due) ∈ t.agenda)))
      ∧ (∃ t : State, exec (.stoReleaseCheck g good) s = .next t ∧ (stage = 0 → t = s)
        ∧ (stage ≠ 0 → good = false → t.groupIn g.val = true ∧ t.relStage g.val = 0 ∧ t.switches g.val = 0 ∧ active t 12 (s.groupScope g.val))
        ∧ (stage = 1 → good = true → t.relStage g.val = 2 ∧ t.switches g.val = 3 ∧ t.regs = s.regs)
        ∧ (2 ≤ stage → good = true → t.groupIn g.val = false ∧ t.relStage g.val = 0))
      ∧ (∃ t : State, exec (.stogSwitchTest g hs good) s = .next t ∧ (s.groupIn g.val = true ∨ s.switches g.val ≠ 3 → t = s)
        ∧ (s.groupIn g.val = false → s.switches g.val = 3 → t.switches g.val = (if hs then 2 else 1) ∧ t.groupIn g.val = false
          ∧ ∃ d, d ≤ 50000 ∧ (⟨s.now + d, .switchClose g.val hs⟩ : Due) ∈ t.agenda
            ∧ (hs = true → (⟨s.now + (d + 250000), .cmd (.stogSwitchTest g false true)⟩ : Due) ∈ t.agenda))
        ∧ (s.groupIn g.val = false → s.switches g.val = 3 → good = true → ¬activeB t 13 switch
          ∧ (old = mine → t.on (bitAt SAF.GSTO_SWFAIL g.val) = false))
        ∧ (s.groupIn g.val = false → s.switches g.val = 3 → good = false → t.on (bitAt SAF.GSTO_SWFAIL g.val) = true
          ∧ (old ||| mine = 3 → active t 12 (s.groupScope g.val)) ∧ (old ||| mine ≠ 3 → ¬activeB s 13 switch → classB t 13 switch)))
      ∧ (∃ t : State, exec (.stogOvercurrent g) s = .next t ∧ t.switches g.val = 0 ∧ active t 16 (s.groupScope g.val))
      ∧ (∃ t : State, exec (.safcDiagnostic (.cell c) good) s = .next t ∧ (good = true → t = s)
        ∧ (good = false → c.val = 5 ∨ c.val = 6 → hardware t (c.val + 1)) ∧ (good = false → active t (c.val + 1) 16))
      ∧ (∃ t : State, exec (.safcDiagnostic (.plaus p) good) s = .next t ∧ (good = true → t = s)
        ∧ (good = false → active t 10 (s.groupScope (p.val / 8))))
      ∧ (∃ t : State, exec (.safcDiagnostic (.feedback p) good) s = .next t ∧ (good = true → t = s)
        ∧ (good = false → active t 11 (s.groupScope (p.val / 8))))
      ∧ (∃ t : State, exec (.safcDiagnostic (.switch g) good) s = .next t ∧ (good = true → t = s)
        ∧ (good = false → active t 12 (s.groupScope g.val)))
      ∧ (∃ t : State, exec (.safcDiagnostic (.overcurrent g) good) s = .next t ∧ (good = true → t = s)
        ∧ (good = false → t.switches g.val = 0 ∧ active t 16 (s.groupScope g.val)))
      ∧ ∀ (d : SafDiag) (code unit : Nat),
        (d = .switchOne g hs ∧ code = 13 ∧ unit = switch) ∨ (d = .estLost p ∧ code = 14 ∧ unit = p.val) ∨ (d = .tp k ∧ code = 15 ∧ unit = k.val) →
        ∃ t : State, exec (.safcDiagnostic d good) s = .next t ∧ (good = true → ¬activeB t code unit)
          ∧ (good = false → ¬activeB s code unit → classB t code unit)

/-- A start admits the set that S1 selects exactly when the contacts agree, VERSION, INDEX, CRC, signature and
fields are right, no error that ECC cannot correct stands in it (R26) and the CRC's low byte equals positions 5 to
12; else it raises a fault of scope ALL. In RUN
the second differing S1 sample clears SEAL_OK and commands SS1 on all arms from the next cycle on; contacts that
disagree, or CRC positions that are not those of the admitted set, are the fault SEAL. Without an admitted set no input is
sampled; else a channel takes a new level after two equal samples outside its test window, and an input is
demanded by either channel. A disagreement that lasts raises the input fault and the demand. A test pulse that
its readback contradicts raises TP, a good one ends it (log entry 109); a channel that stays high in it faults its
input, and with a set the next pulse follows after T_TPP. The end of degraded mode
commands SS1 on every arm. (11_saffron_safety.md, R239; 11_saffron_safety.md, R240; 11_saffron_safety.md, R245;
11_saffron_safety.md, R247; 11_saffron_safety.md, R248; 11_saffron_safety.md, R249; 11_saffron_safety.md, R250).
-/
def Obligations.SaffronStartAndInputs : Prop :=
  ∀ (s : State) (no nc : BitVec 12) (cover used : Bool) (a b : BitVec 16) (i : Fin 16) (k : Fin 4),
    let idx := no.toNat % 16
    let p := s.setAt idx
    let bytes := s.setBytes .mram (mramSets + idx * 0x10000)
    let crc := crc32 (bytes.take 0xFFFC)
    let admitted : Prop := no ^^^ nc = 0xFFF#12 ∧ p.u 0 4 = 1 ∧ p.u 4 1 = idx ∧ p.u 0xFFFC 4 = crc ∧ p.good = true
      ∧ ecdsaGood (s.saf.keys.get (fun _ => []) idx) ((bytes.drop 0x100).take 0xFEFC) (sub bytes 0x40 96) = true ∧ crc % 256 = no.toNat / 16
      ∧ s.eccIn .mram (mramSets + idx * 0x10000) 0x10000 true = false
    let differs : Prop := no.toNat ≠ s.saf.s1 ∨ no ^^^ nc ≠ 0xFFF#12
    let crcGood : Prop := s.psetOk = false ∨ (s.rd SAF.PSET).toNat % 256 = no.toNat / 16
    let x := s.siIn i.val
    let func := s.pset.func i.val
    let tpA := s.pset.u (oINPUT i.val + 4) 1
    let tpB := s.pset.u (oINPUT i.val + 5) 1
    let av := a.getLsbD i.val
    let bv := b.getLsbD i.val
    (∃ t : State, exec (.saffronStart no nc cover used) s = .next t ∧ t.saf.started = true ∧ t.f SAF.STAT_PSET = idx
        ∧ (admitted → t.on SAF.STAT_PSET_OK = true ∧ t.rd SAF.PSET = BitVec.ofNat 32 crc ∧ t.saf.faults = [])
        ∧ (¬admitted → t.on SAF.STAT_PSET_OK = false ∧ ∃ f ∈ t.saf.faults, f.arm = 16 ∧ (f.code = 8 ∨ f.code = 9))
        ∧ (s.on SAF.STAT_DEG_USED = true → used = false → t.on SAF.STAT_DEG_USED = true))
      ∧ (∃ t : State, exec (.sealSample no nc cover) s = .next t ∧ t.saf.cover = cover
        ∧ (s.mstate ≠ 5 → t = { s with saf := { s.saf with cover := cover } })
        ∧ (s.mstate = 5 → ¬differs → t.saf.s1Diff = 0 ∧ (crcGood → t.regs = s.regs))
        ∧ (s.mstate = 5 → differs → s.saf.s1Diff = 1 → s.saf.sealBad = false → t.saf.sealBad = true ∧ t.saf.ss1Next = true
          ∧ t.on SAF.STAT_SEAL_OK = false ∧ (no ^^^ nc = 0xFFF#12 → crcGood → t.ansIn.length = s.ansIn.length + 1))
        ∧ (s.mstate = 5 → no ^^^ nc ≠ 0xFFF#12 ∨ ¬crcGood → ∃ f ∈ t.saf.faults, f.code = 8 ∧ f.arm = 16))
      ∧ (∃ t : State, exec (.siSample a b) s = .next t ∧ (s.psetOk = false → t = s)
        ∧ (s.psetOk = true → func = 0 → t.siIn i.val = x)
        ∧ (s.psetOk = true → func ≠ 0 → s.inWindow tpA = false → s.inWindow tpB = false →
          (t.siIn i.val).a = (if av = x.sa then av else x.a) ∧ (t.siIn i.val).b = (if bv = x.sb then bv else x.b)
            ∧ (t.siIn i.val).sa = av ∧ (t.siIn i.val).sb = bv
            ∧ (x.flt = false → (t.siIn i.val).dem = siDemand (s.siAnti i.val) (t.siIn i.val).a (t.siIn i.val).b)
            ∧ t.on (bitAt SAF.SI_DEMAND i.val) = (t.siIn i.val).dem))
      ∧ (∃ t : State, exec (.siDiscrepancy i) s = .next t ∧ (siDisagree (s.siAnti i.val) x.a x.b = false → t = s)
        ∧ (siDisagree (s.siAnti i.val) x.a x.b = true → x.flt = false → (t.siIn i.val).flt = true ∧ (t.siIn i.val).dem = true
          ∧ t.on (bitAt SAF.SIFLT_FAULT i.val) = true ∧ t.on (bitAt SAF.SI_DEMAND i.val) = true ∧ t.ansIn.length = s.ansIn.length + 1))
      ∧ (∃ t : State, exec (.testPulse k used a b) s = .next t ∧ t.on (bitAt SAF.SI_TPOK k.val) = used ∧ t.saf.tpAt.get none3 k.val = some s.now
        ∧ (used = false → ∃ f ∈ t.saf.faults, f.code = 15 ∧ f.arm = 17 ∧ f.unit = k.val)
        ∧ (used = true → ∀ f ∈ t.saf.faults, f.code = 15 → f.arm = 17 → f.unit ≠ k.val)
        ∧ (s.psetOk = true → (⟨s.now + s.pset.u (oGLOBAL + 0x10) 2 * 250000, .cmd (.testPulse k true 0xFFFF#16 0xFFFF#16)⟩ : Due) ∈ t.agenda)
        ∧ (s.psetOk = true → func ≠ 0 → (tpA = k.val ∧ av = false) ∨ (tpB = k.val ∧ bv = false) → (t.siIn i.val).flt = true))
      ∧ ∃ t : State, exec .degradedEnd s = .next t ∧ (s.on SAF.STAT_DEGRADED = false → t = s)
        ∧ (s.on SAF.STAT_DEGRADED = true → t.saf.ss1All = true ∧ t.f SAF.DEG_REMAIN = 0)

/-- A SAFE frame of no connection is dropped. One of a connection that is malformed, or not later in SEQ and TS,
counts as rejected and changes nothing else; a good one is used, sets V, counts a gap as lost and re-arms T_WD.
A connection that times out loses V, makes a record and commands SS1 on its AFFECT arms from the next cycle on. A request write stores
PLAN_SLS, FOV_SS1 and UNLOCK; a write of the tag commits the estimate with it. An overcurrent switches a door
output off until Saffron switches it on again. (11_saffron_safety.md, R266; 11_saffron_safety.md, R267;
11_saffron_safety.md, R269; 22_connectors_electrical.md, R494). -/
def Obligations.SaffronFramesAndRequests : Prop :=
  ∀ (s : State) (m : Sys2Proof.Master) (l : List Byte) (c : Fin 32) (d : Fin 8) (p : Fin 96) (v : Word),
    let id := leNat (sub l 0 2)
    let n := leNat (sub l 3 1)
    let len := 16 + 20 * n
    let seq := BitVec.ofNat 32 (leNat (sub l 4 4))
    let ts := BitVec.ofNat 32 (leNat (sub l 8 4))
    let found := (List.range 32).find? (fun j => s.psetOk && decide (id ≠ 0) && decide (s.pset.connId j = id))
    let formed : Prop := s.pset.u (oCONN c.val + 2) 1 = leNat (sub l 2 1) ∧ n ≤ 64 ∧ l.length = len + 4
      ∧ safeCrc id (l.take len) = leNat (sub l len 4)
    let later : Prop := ∀ f, s.connFrame c.val = some f → 0 < (seq - f.seq).toInt ∧ 0 < (ts - f.ts).toInt
    (∃ t : State, exec (.safeFrameReceive l) s = .next t ∧ (found = none → t = s)
        ∧ (found = some c.val → ¬(formed ∧ later) → t.f (SAF.CONNC_REJECTED c.val) = min (s.f (SAF.CONNC_REJECTED c.val) + 1) 65535
          ∧ s.sameBut t [SAF.CONNC c.val])
        ∧ (found = some c.val → formed → later → t.on (connBit c.val) = true
          ∧ (∃ f, t.connFrame c.val = some f ∧ f.seq = seq ∧ f.ts = ts ∧ f.at_ = s.now ∧ f.caps.length = n)
          ∧ (⟨s.now + s.pset.u (oCONN c.val + 4) 2 * 250000, .cmd (.connTimeout c)⟩ : Due) ∈ t.agenda
          ∧ (∀ f, s.connFrame c.val = some f → seq - f.seq ≠ 1#32 → t.f (SAF.CONNC_LOST c.val) = min (s.f (SAF.CONNC_LOST c.val) + 1) 65535)))
      ∧ (∃ t : State, exec (.connTimeout c) s = .next t ∧ (s.on (connBit c.val) = false → t = s)
        ∧ (s.on (connBit c.val) = true → t.on (connBit c.val) = false ∧ t.ansIn.length = s.ansIn.length + 1
          ∧ t.saf.maskNext = s.saf.maskNext ||| s.pset.u (oCONN c.val + 6) 2))
      ∧ (∃ t : State, exec (.dlkOvercurrent d) s = .next t ∧ (s.dlk d.val = false → t = s)
        ∧ (s.dlk d.val = true → t.dlk d.val = false ∧ t.saf.dlkCut.testBit d.val = true ∧ s.sameBut { t with saf := s.saf } [SAF.DOOR]))
      ∧ (s.reaches m SAF.REQ → ∃ t : State, exec (.safRequestWrite m v) s = .next t ∧ t.on SAF.REQ_PLAN_SLS = v.getLsbD 0
        ∧ t.on SAF.REQ_FOV_SS1 = v.getLsbD 1 ∧ t.f SAF.REQ_UNLOCK = getBits 8 8 v ∧ s.wrote t [SAF.REQ])
      ∧ (s.reaches m (SAF.EST_TAG p.val) → ∃ t : State, exec (.safEstCommit m p v) s = .next t
        ∧ t.f (SAF.EST_TAG_V p.val) = v.toNat % 256 ∧ (t.sfJoint p.val) = { s.sfJoint p.val with est := s.rdI (SAF.EST p.val) }
        ∧ (∀ q, q ≠ p.val → t.sfJoint q = s.sfJoint q))

/-- OPEN, CLOSE, STOP, LEARN and RESET outside RUN, on a disabled door or in a state that does not take them
complete with ILLEGAL_STATE and a record, and change nothing else. OPEN from CLOSED_LOCKED sets the unlock
request, enters UNLOCKING, starts a cycle and the T_GRANT wait; from STOPPED or CLOSING it enters OPENING with a
move to POS_OP at VRUN, which counts as every commit does (R152); in OPEN it is done at once. CLOSE enters CLOSING with a move to POS_CL at VRUN, or is
done at once. Limits that break R285 send the door to FAULT. STOP from UNLOCKING withdraws the request and
enters LOCKING, else it asks for a jerk-limited stop. LEARN arms learning. RESET goes by CLOSED_LOCKED. A CFG
value outside R278 sets ERR_ARG only, one in a locked state is ignored as R11 says, a change of EN leaves
CLOSED_LOCKED with nothing requested. Without a grant OPEN ends with SAFETY_REFUSED; a lock that does not follow
sends the door to FAULT with LOCK_TO. (12_doors_and_field_io.md, R278; 12_doors_and_field_io.md, R281;
12_doors_and_field_io.md, R282; 12_doors_and_field_io.md, R283; 12_doors_and_field_io.md, R284;
12_doors_and_field_io.md, R285; 12_doors_and_field_io.md, R287; 12_doors_and_field_io.md, R289;
12_doors_and_field_io.md, R300; 00_scope.md, R11). -/
def Obligations.DoorCommands : Prop :=
  ∀ (s : State) (m : Sys2Proof.Master) (d : Fin 8) (seq : BitVec 16) (v : Word),
    let st := s.f (DOR.STAT_STATE d.val)
    let p := s.f (DOR.CFG_PORT d.val)
    let may (l : List Nat) : Prop := s.mstate = 5 ∧ s.on (DOR.CFG_EN d.val) = true ∧ st ∈ l
    let result (t : State) (c : Nat) : Prop := t.f (DOR.RES_RESULT d.val) = c ∧ t.f (DOR.RES_SEQ d.val) = seq.toNat
    let refused (t : State) : Prop := result t 6 ∧ t.ansIn.length = s.ansIn.length + 1
      ∧ s.wrote { t with ansIn := s.ansIn } [DOR.RES d.val]
    let at_ (t : State) (c : Nat) : Prop := t.f (DOR.STAT_STATE d.val) = c
    let asks (t : State) : Bool := t.on (doorBit SAF.REQ_UNLOCK d.val)
    let shut : Bool := s.on (doorBit SAF.DOOR_CLOSED_LOCKED d.val)
    let w (o : Nat) : Nat := (s.rd o).toNat
    let least (x y : Nat) : Nat := if x = 0 then y else min x y
    let noMotion : Prop := min (least (w (DOR.VRUN d.val)) (w (PRG.VMAX p))) (w (PRG.VSLS p)) = 0 ∨ least (w (PRG.AMOVE p)) (w (PRG.AMAX p)) = 0
      ∨ least (w (PRG.DMOVE p)) (w (PRG.DMAX p)) = 0 ∨ w (PRG.JMAX p) = 0
    let mayMove : Prop := ¬noMotion ∧ s.f (PRG.CFG_SRC p) = 1 ∧ (s.pgU p).ss1 = none
    let moves (t : State) (goal : Int) : Prop := t.on (PRG.CTRL_RETARGET p) = true
      ∧ (⟨s.now, goal * 65536, (s.rd (DOR.VRUN d.val)).toNat, (s.rd (PRG.AMOVE p)).toNat, (s.rd (PRG.DMOVE p)).toNat⟩ : Move) ∈ (t.pgU p).pend
    let faulted (t : State) : Prop := at_ t 8 ∧ asks t = true ∧ (t.pgU p).doorStop = some true
    let goes (t : State) (c : Nat) (goal : Int) : Prop :=
      (s.doorLimits d.val p = true → at_ t c ∧ result t 1 ∧ (mayMove → moves t goal) ∧ (noMotion → t.on (PRG.STAT_ERR_ARG p) = true))
        ∧ (s.doorLimits d.val p = false → faulted t ∧ result t 7 ∧ t.on (DOR.STAT_ERR_ARG d.val) = true)
    let u := s.doorU d.val
    (s.reaches m (DOR.CMD d.val) →
        (∃ t : State, exec (.doorOpen m d seq) s = .next t ∧ (¬may [0, 3, 4, 7] → refused t)
          ∧ (may [3] → at_ t 3 ∧ result t 0) ∧ (may [4, 7] → goes t 2 (s.rdI (DOR.POSOP d.val)))
          ∧ (may [0] → at_ t 1 ∧ result t 1 ∧ asks t = true ∧ (∃ c, (t.doorU d.val).cyc = some c ∧ c.ns = s.ns 0 ∧ c.obst = 0)
            ∧ (⟨s.now + s.f (DOR.TIME_T_GRANT d.val) * 2500000, .cmd (.doorGrantTimeout d)⟩ : Due) ∈ t.agenda))
        ∧ (∃ t : State, exec (.doorClose m d seq) s = .next t ∧ (¬may [0, 2, 3, 7] → refused t)
          ∧ (may [0] → at_ t 0 ∧ result t 0) ∧ (may [2, 3, 7] → goes t 4 (s.rdI (DOR.POSCL d.val))))
        ∧ (∃ t : State, exec (.doorStop m d seq) s = .next t ∧ (¬may [1, 2, 4, 6] → refused t)
          ∧ (may [1, 2, 4, 6] → result t 1 ∧ t.f (DOR.STAT_STOP_CAUSE d.val) = 1)
          ∧ (may [1] → at_ t 5 ∧ asks t = false
            ∧ (⟨s.now + s.f (DOR.TIME_T_LOCK d.val) * 2500000, .cmd (.doorLockTimeout d)⟩ : Due) ∈ t.agenda)
          ∧ (may [2, 4, 6] → at_ t st ∧ (t.pgU p).doorStop = some false))
        ∧ (∃ t : State, exec (.doorLearn m d seq) s = .next t ∧ (¬may [0, 3, 7] → refused t)
          ∧ (may [0, 3, 7] → at_ t st ∧ result t 0 ∧ t.on (DOR.STAT_LEARNING d.val) = true))
        ∧ ∃ t : State, exec (.doorReset m d seq) s = .next t ∧ (¬may [8] ∨ s.doorCause d.val = true → refused t)
          ∧ (may [8] → s.doorCause d.val = false → result t 0 ∧ at_ t (if shut then 0 else 7) ∧ (shut = true → asks t = false)))
      ∧ (s.reaches m (DOR.CFG d.val) → ∃ t : State, exec (.doorCfgWrite m d v) s = .next t
        ∧ let open_ : Prop := s.on (DOR.CFG_EN d.val) = true ∧ st ≠ 0 ∧ st ≠ 7 ∧ st ≠ 8
          (s.doorCfgBad d.val v = true → s.flagged t (DOR.STAT_ERR_ARG d.val)) ∧ (s.doorCfgBad d.val v = false → open_ → s.turnedAway t)
          ∧ (s.doorCfgBad d.val v = false → ¬open_ → t.f ⟨DOR.CFG d.val, 0, 12⟩ = v.toNat % 4096
            ∧ (v.getLsbD 0 = s.on (DOR.CFG_EN d.val) → s.wrote t [DOR.CFG d.val])
            ∧ (v.getLsbD 0 ≠ s.on (DOR.CFG_EN d.val) → at_ t 0 ∧ asks t = false ∧ (t.doorU d.val).cmd = none)))
      ∧ (∃ t : State, exec (.doorGrantTimeout d) s = .next t ∧ let dlk : Bool := s.on (doorBit SAF.DOOR_DLK d.val)
          (dlk = true → t = s)
          ∧ (dlk = false → st = 1 → u.granted = false → at_ t 0 ∧ asks t = false ∧ (t.doorU d.val).cmd = none
            ∧ ∀ c q, u.cmd = some (c, q) → t.f (DOR.RES_RESULT d.val) = 0x0A ∧ t.f (DOR.RES_SEQ d.val) = q % 65536)
          ∧ (dlk = false → st = 5 → u.regrant = true → faulted t))
      ∧ ∃ t : State, exec (.doorLockTimeout d) s = .next t
        ∧ let late : Prop := (st = 1 ∧ u.granted = true ∧ shut = true) ∨ (st = 5 ∧ u.regrant = false ∧ shut = false)
          (¬late → t = s) ∧ (late → faulted t ∧ t.on (DOR.STAT_LOCK_TO d.val) = true)

/-- A CHCFG write with MODE 0b11 is refused; else it takes effect at once, and a channel that leaves or enters
OUTPUT is off. OUT, OUTSET and OUTCLR write, set and clear bits of FIO_OUT; in READY, RUN and SAFE an output
whose bit was written drives FIO_OUT unless it is switched off. An input takes a new level in FIO_IN, inverted
by INV, once it has been equal for the filter time of samples of 50 µs, and keeps it before. A channel fault that has
lasted its time sets its bit, its code and the bank's FAULT, makes a record and switches an output off or reads an input 0. A
supply below 18.0 V for 1 ms forces the bank's outputs off, freezes its inputs and clears VALID; 10 ms at 19.2 V later SAG clears and
the inputs resume while OUTOFF stays. OUT_REARM clears OUTOFF, is refused while SAG = 1, and lets the good
outputs drive FIO_OUT. (12_doors_and_field_io.md, R290; 12_doors_and_field_io.md, R291;
12_doors_and_field_io.md, R292; 12_doors_and_field_io.md, R293; 12_doors_and_field_io.md, R294;
12_doors_and_field_io.md, R295; 12_doors_and_field_io.md, R296; 12_doors_and_field_io.md, R299). -/
def Obligations.FieldChannels : Prop :=
  ∀ (s : State) (m : Sys2Proof.Master) (c : Fin 32) (b : Fin 2) (code : Fin 4) (mv : BitVec 16) (v : Word),
    let mode := s.f (FIO.CHCFG_MODE c.val)
    let act (t : State) : Bool := (t.rd FIO.OUTACT).getLsbD c.val
    let out (t : State) : Bool := (t.rd FIO.OUT).getLsbD c.val
    let level (t : State) : Bool := (t.rd FIO.IN).getLsbD c.val
    let follows : Prop := s.mstate = 4 ∨ s.mstate = 5 ∨ s.mstate = 6
    let off : Prop := s.on (FIOB.STAT_OUTOFF (c.val / 16)) = true ∨ s.fio.tripped.getLsbD c.val = true
    let drives (t : State) : Prop := (mode ≠ 2 ∨ off → act t = false) ∧ (mode = 2 → ¬off → follows → act t = out t)
    let raw := v.getLsbD c.val
    let may : Prop := (mode = 2 ∧ act s = true ∧ code ≠ 0) ∨ (mode = 1 ∧ code = 2 ∧ s.on (FIO.CHCFG_WB_EN c.val) = true)
    let lasted : Prop := s.fio.since.get (fun _ => 0) c.val + (if code = 1 then 1250000 else if code = 2 then 5000000 else 0) ≤ s.now
    let since := s.fio.vfAt.get (fun _ => 0) b.val
    let due : Prop := ∀ t, s.fio.sampleAt = some t → t + 12500 ≤ s.now
    (s.reaches m (FIO.CHCFG c.val) → ∃ t : State, exec (.fioChcfgWrite m c v) s = .next t
        ∧ (getBits 0 2 v = 3 → t = { s with lastResp := t.lastResp })
        ∧ (getBits 0 2 v ≠ 3 → t.f ⟨FIO.CHCFG c.val, 0, 9⟩ = v.toNat % 512 ∧ (mode ≠ 2 ∨ getBits 0 2 v ≠ 2 → act t = false)
          ∧ (getBits 0 2 v ≠ 1 → level t = false)
          ∧ (mode = 1 → getBits 0 2 v = 1 → t.on (FIO.CHCFG_INV c.val) ≠ s.on (FIO.CHCFG_INV c.val) →
            level t = ((s.fio.level.getLsbD c.val != t.on (FIO.CHCFG_INV c.val)) && !(s.rd FIO.CHFLT).getLsbD c.val))
          ∧ s.wrote { t with fio := s.fio, agenda := s.agenda } [FIO.CHCFG c.val, FIO.IN, FIO.OUTACT]))
      ∧ (s.reaches m FIO.OUT → ∃ t : State, exec (.fioOutWrite m v) s = .next t ∧ t.rd FIO.OUT = v ∧ drives t
        ∧ s.wrote { t with fio := s.fio } [FIO.OUT, FIO.OUTACT])
      ∧ (s.reaches m FIO.OUTSET → ∃ t : State, exec (.fioOutset m v) s = .next t ∧ t.rd FIO.OUT = s.rd FIO.OUT ||| v
        ∧ (raw = true → drives t) ∧ s.wrote { t with fio := s.fio } [FIO.OUT, FIO.OUTACT])
      ∧ (s.reaches m FIO.OUTCLR → ∃ t : State, exec (.fioOutclr m v) s = .next t ∧ t.rd FIO.OUT = s.rd FIO.OUT &&& ~~~v
        ∧ (raw = true → drives t) ∧ s.wrote { t with fio := s.fio } [FIO.OUT, FIO.OUTACT])
      ∧ (∃ t : State, exec (.fioInputSample v) s = .next t ∧ t.rd FIO.OUTACT = s.rd FIO.OUTACT ∧ (¬due → t = s)
        ∧ (mode ≠ 1 ∨ s.on (FIOB.STAT_VALID (c.val / 16)) = false → level t = level s)
        ∧ (due → mode = 1 → s.on (FIOB.STAT_VALID (c.val / 16)) = true →
          let n := s.fio.cnt.get (fun _ => 0) c.val
          let need := 5 * (s.f (FIO.CHCFG_FILT c.val) + 1) + 1
          (s.fio.cand.getLsbD c.val = raw → need ≤ n + 1 →
              level t = ((raw != s.on (FIO.CHCFG_INV c.val)) && !(s.rd FIO.CHFLT).getLsbD c.val))
            ∧ (s.fio.cand.getLsbD c.val = raw → n + 1 < need → level t = level s ∧ t.fio.cnt.get (fun _ => 0) c.val = n + 1)
            ∧ (s.fio.cand.getLsbD c.val ≠ raw → level t = level s ∧ t.fio.cnt.get (fun _ => 0) c.val = 1)))
      ∧ (∃ t : State, exec (.fioChannelFault c code) s = .next t ∧ (¬may ∨ ¬lasted → t = s)
        ∧ (may → lasted → (t.rd FIO.CHFLT).getLsbD c.val = true ∧ t.f ⟨FIO.CAUSE (c.val / 16), 2 * (c.val % 16), 2⟩ = code.val
          ∧ t.on (FIOB.STAT_FAULT (c.val / 16)) = true ∧ t.on (FIOB.STAT_CHFAULT (c.val / 16)) = true
          ∧ t.ansIn.length = s.ansIn.length + 1 ∧ (mode = 2 → act t = false) ∧ (mode = 1 → level t = false)))
      ∧ (∃ t : State, exec (.fioSupplySag b mv) s = .next t ∧ t.f (FIOB.VF_V b.val) = mv.toNat ∧ t.rd FIO.IN = s.rd FIO.IN
        ∧ (18000 ≤ mv.toNat ∨ s.now < since + 250000 → s.sameBut t [FIOB.VF b.val])
        ∧ (mv.toNat < 18000 → since + 250000 ≤ s.now → t.on (FIOB.STAT_FAULT b.val) = true ∧ t.on (FIOB.STAT_SAG b.val) = true ∧ t.on (FIOB.STAT_OUTOFF b.val) = true
          ∧ t.on (FIOB.STAT_VALID b.val) = false ∧ (c.val / 16 = b.val → act t = false)))
      ∧ (∃ t : State, exec (.fioSupplyRestore b mv) s = .next t ∧ t.f (FIOB.VF_V b.val) = mv.toNat ∧ t.rd FIO.IN = s.rd FIO.IN
        ∧ (mv.toNat < 19200 ∨ s.now < since + 2500000 → s.sameBut t [FIOB.VF b.val])
        ∧ (19200 ≤ mv.toNat → since + 2500000 ≤ s.now → t.on (FIOB.STAT_SAG b.val) = false ∧ t.on (FIOB.STAT_VALID b.val) = true
          ∧ t.on (FIOB.STAT_OUTOFF b.val) = s.on (FIOB.STAT_OUTOFF b.val) ∧ t.rd FIO.OUTACT = s.rd FIO.OUTACT))
      ∧ (s.reaches m (FIOB.CTRL b.val) → ∃ t : State, exec (.outRearm m b) s = .next t
        ∧ (s.on (FIOB.STAT_SAG b.val) = true → s.flagged t (FIOB.STAT_REARM_REFUSED b.val))
        ∧ (s.on (FIOB.STAT_SAG b.val) = false → t.on (FIOB.STAT_OUTOFF b.val) = false
          ∧ (c.val / 16 = b.val → mode = 2 → (s.rd FIO.CHFLT).getLsbD c.val = false → follows → act t = out t)))

/-- START leaves IDLE alone when it is not IDLE, is refused with ERR_ARG without channel, with crossed
thresholds of an EDGE or WINDOW probe, or over 1 MiB, is ignored as R11 says outside READY, RUN and SAFE, and
else arms with DEC := DEC_MIN, or waits for room. FORCE and a trigger of the selected source are accepted in
FILL and ARMED, with PRE_SHORT where samples lack, and counted as missed in POST; a trigger of another source
does nothing. STOP ends a record in POST with TRUNC and its commit, discards any other partial record, and wins
over a trigger accepted in its tick, whose record is none, complete or not. The end of the hold-off re-arms. A commit writes the oldest complete record at WRPTR
into the ring, advances WRPTR, sets REC and counts it. RDPTR takes a multiple of 64 up to WRPTR, else ERR_ARG.
(13_capture_engine.md, R303; 13_capture_engine.md, R304; 13_capture_engine.md, R305; 13_capture_engine.md, R306;
13_capture_engine.md, R307; 13_capture_engine.md, R308; 13_capture_engine.md, R310; 13_capture_engine.md, R311;
00_scope.md, R11). -/
def Obligations.CaptureEngine : Prop :=
  ∀ (s : State) (m : Sys2Proof.Master) (ev : CapEvent) (ns : Word) (frac : Fin 32) (wc : Byte) (v : Word),
    let st := s.f CAP.STAT_STATE
    let mode := s.f CAP.CFG_MODE
    let pre := s.f CAP.LEN_PRE
    let nch := s.capChans.length
    let rows := (if mode = 2 then 0 else pre) + s.f CAP.LEN_POST
    let size := (64 + 4 * nch * rows + 32 * nch + 63) / 64 * 64
    let fill := (s.rd CAP.WRPTR - s.rd CAP.RDPTR).toNat + (s.cap.dones.map CapDone.size).foldl (· + ·) 0
    let bad : Prop := nch = 0 ∨ 1048576 < size
      ∨ (s.f CAP.TRIG_SRC = 0 ∧ (s.f CAP.TRIG_KIND = 1 ∨ s.f CAP.TRIG_KIND = 2) ∧ s.rdI CAP.THHI < s.rdI CAP.THLO)
    let serves : Prop := s.mstate = 4 ∨ s.mstate = 5 ∨ s.mstate = 6
    let armed (t : State) : Prop :=
      (fill + size ≤ 4194304 → t.f CAP.STAT_STATE = (if mode = 2 then 3 else if pre = 0 then 2 else 1) ∧ t.cap.live = true ∧ t.cap.rows = [])
        ∧ (4194304 < fill + size → t.f CAP.STAT_STATE = 5 ∧ t.on CAP.STAT_NO_ROOM = true)
    let fresh : Prop := mode ≠ 2 ∧ s.cap.trigAt ≠ some s.now ∧ s.cap.rowAt ≠ some s.now ∧ 1 ≤ s.f CAP.LEN_POST
    let taken (t : State) (src : Nat) : Prop :=
      (fresh → st = 1 ∨ st = 2 → t.f CAP.STAT_STATE = 3 ∧ t.cap.npre = min pre s.cap.rows.length
          ∧ t.cap.short = decide (s.cap.rows.length < pre) ∧ ∃ g, t.cap.trig = some g ∧ g.src = src)
        ∧ (fresh → st = 3 → t.f CAP.STAT_STATE = 3 ∧ t.f CAP.CNT_MISSED = min (s.f CAP.CNT_MISSED + 1) 65535
          ∧ t.cap.missed = s.cap.missed + 1)
    (s.reaches m CAP.CTRL →
        (∃ t : State, exec (.capStart m) s = .next t ∧ (st ≠ 0 → t = { s with lastResp := t.lastResp })
          ∧ (st = 0 → bad → s.flagged t CAP.STAT_ERR_ARG) ∧ (st = 0 → ¬bad → ¬serves → s.turnedAway t)
          ∧ (st = 0 → ¬bad → serves → armed t ∧ t.cap.seq = 0 ∧ (4 * fill ≤ 3 * 4194304 → t.f CAP.STAT_DEC = s.f CAP.CFG_DEC_MIN)))
        ∧ (∃ t : State, exec (.capForce m) s = .next t ∧ taken t 5)
        ∧ ∃ t : State, exec (.capStop m) s = .next t ∧ (st = 0 → t = { s with lastResp := t.lastResp })
          ∧ (st ≠ 0 → t.f CAP.STAT_STATE = 0 ∧ t.cap.rows = [])
          ∧ (st ≠ 0 → st ≠ 3 → s.cap.accAt ≠ some s.now → t.cap.dones = s.cap.dones)
          ∧ (st = 3 → s.cap.live = true → s.cap.rows ≠ [] → s.cap.accAt ≠ some s.now → t.on CAP.STAT_TRUNC = true
            ∧ (∃ d, t.cap.dones = s.cap.dones ++ [d] ∧ d.rows = s.cap.rows.reverse ∧ d.seq = s.cap.seq ∧ d.npre = s.cap.npre)
            ∧ ∃ a, s.now ≤ a ∧ (⟨a, .cmd .capRecordCommit⟩ : Due) ∈ t.agenda)
          ∧ (st ≠ 0 → s.cap.accAt = some s.now → t.f CAP.CNT_MISSED = min (s.f CAP.CNT_MISSED + 1) 65535
            ∧ (s.cap.madeAt ≠ some s.now → t.cap.dones = s.cap.dones)
            ∧ (s.cap.madeAt = some s.now → t.cap.dones = s.cap.dones.dropLast)))
      ∧ (∃ t : State, exec (.capTrigger ev ns frac wc) s = .next t ∧ (s.capSelects ev = false → t = s)
        ∧ (s.capSelects ev = true → taken t (if ev = .force then 5 else s.f CAP.TRIG_SRC)))
      ∧ (∃ t : State, exec .capRearm s = .next t ∧ (st ≠ 4 ∨ s.cap.rearmAt ≠ some s.now → t = s)
        ∧ (st = 4 → s.cap.rearmAt = some s.now → armed t))
      ∧ (∃ t : State, exec .capRecordCommit s = .next t ∧ (s.cap.dones = [] → t = s)
        ∧ ∀ d ds, s.cap.dones = d :: ds → t.cap.dones = ds ∧ t.on CAP.STAT_REC = true
          ∧ t.rd CAP.WRPTR = s.rd CAP.WRPTR + BitVec.ofNat 32 d.size ∧ t.f CAP.CNT_RECORDS = (s.f CAP.CNT_RECORDS + 1) % 65536
          ∧ (d.bytes.length ≤ 4194304 → ∀ i, i < d.bytes.length →
            t.byte .capture (((s.rd CAP.WRPTR).toNat + i) % 4194304) = d.bytes.getD i 0#8)
          ∧ (s.f CAP.TOKEN_TAG ≠ 0 → ∃ k ∈ t.clvIn, k.tag = BitVec.ofNat 16 (s.f CAP.TOKEN_TAG) ∧ k.val = BitVec.ofNat 32 d.seq))
      ∧ (s.reaches m CAP.RDPTR → ∃ t : State, exec (.capRdptrWrite m v) s = .next t
        ∧ let good : Prop := v.toNat % 64 = 0 ∧ (v - s.rd CAP.RDPTR).toNat ≤ (s.rd CAP.WRPTR - s.rd CAP.RDPTR).toNat
          (¬good → s.flagged t CAP.STAT_ERR_ARG) ∧ (good → t.rd CAP.RDPTR = v ∧ s.wrote t [CAP.RDPTR]))

/-- While no queue is full and the input FIFO is empty, a token of tag 0, or of the time tags from another source, is
discarded and counted; one behind parked tokens of its queue is parked; one that a waiting thread's unfilled position names fills it, and the thread becomes READY with its
last position; else it is stored, or with a full store parked. While a queue is full the token waits in the
FIFO, whose 64th entry escalates. A token that the planner waits for starts its knots phase too. A drain admits the oldest head by the same cases, and a head that none admits
stays. A queue that is still full after 1 ms sets OVF_FULL, makes a record and acts as a module watchdog expiry.
A write of POST_TAG posts the master's POST_VAL. In graph mode a node beyond its limit ends the graph with
INTEGRITY. (14_clove_dispatcher.md, R318; 14_clove_dispatcher.md, R319; 14_clove_dispatcher.md, R321;
14_clove_dispatcher.md, R327; 14_clove_dispatcher.md, R328; 14_clove_dispatcher.md, R329;
14_clove_dispatcher.md, R333). -/
def Obligations.CloveTokens : Prop :=
  ∀ (s : State) (m : Sys2Proof.Master) (tag : BitVec 16) (v : Word) (tb : Bool) (e : Fin 15),
    let q := tag.toNat % 8
    let refused : Prop := tag = 0#16 ∨ (tb = false ∧ 0xFF00 ≤ tag.toNat ∧ tag.toNat ≤ 0xFF07)
    let nutmeg : Prop := s.f NMG.TAGS_CMD_TAG = tag.toNat
    let flows : Prop := s.queueFull = false ∧ s.clv.fifo = []
    let behind : Prop := s.f (CLV.PARK_V q) ≠ 0
    let parked (t : State) : Prop := t.clv.park = s.clv.park ++ [⟨tag, v, 0⟩] ∧ t.f (CLV.PARK_V q) = s.f (CLV.PARK_V q) + 1
      ∧ t.on CLV.STAT_STORE_FULL = true ∧ t.on CLV.STAT_PARKED = true ∧ t.clv.store = s.clv.store
    let escalates (t : State) : Prop := t.on CLV.STAT_OVF_FULL = true ∧ t.ansIn.length = s.ansIn.length + 1
      ∧ (⟨s.now, .cmd .moduleWdtExpiry⟩ : Due) ∈ t.agenda
    let solved : Prop := s.plc.phase = 3 ∧ tag.toNat = s.f PLC.TAGS_DTAG
    (∃ t x : State, exec (.tokenArrive tag v tb) s = .next x ∧ x = { t with agenda := x.agenda } ∧ (¬solved → x = t)
        ∧ (solved → (⟨s.now, .cmd .planSolutionReceived⟩ : Due) ∈ x.agenda)
        ∧ (flows → refused → t.on CLV.STAT_POST_ERR = true ∧ t.f CLV.CNT_POST_ERR_CNT = min (s.f CLV.CNT_POST_ERR_CNT + 1) 65535
          ∧ s.sameBut t [CLV.STAT, CLV.CNT])
        ∧ (flows → ¬refused → ¬nutmeg → behind → parked t)
        ∧ (flows → ¬refused → ¬nutmeg → ¬behind → ∀ w i, s.waiterFor tag.toNat = some (w, i) → t.clv.store = s.clv.store ∧ t.clv.park = s.clv.park
          ∧ t.clv.vals.get zeroW (4 * w + i) = v
          ∧ ((∃ j, j < 4 ∧ j ≠ i ∧ s.waitTag w j ≠ 0 ∧ s.filled w j = false) → t.filled w i = true ∧ t.clv.ready = s.clv.ready
            ∧ s.sameBut { t with clv := s.clv } [CLVT.STAT w])
          ∧ ((∀ j, j < 4 → j ≠ i → s.waitTag w j = 0 ∨ s.filled w j = true) → t.thread w = 3
            ∧ t.f (CLVT.STAT_ACT w) = (s.f (CLVT.STAT_ACT w) + 1) % 65536))
        ∧ (flows → ¬refused → ¬nutmeg → ¬behind → s.waiterFor tag.toNat = none → s.clv.store.length < 4096 →
          t.clv.store = s.clv.store ++ [⟨tag, v, 0⟩] ∧ t.f CLV.STORE_V = s.clv.store.length + 1 ∧ s.sameBut { t with clv := s.clv } [CLV.STORE])
        ∧ (flows → ¬refused → ¬nutmeg → ¬behind → s.waiterFor tag.toNat = none → 4096 ≤ s.clv.store.length → parked t)
        ∧ (¬flows → (∃ r, t.clv.fifo = s.clv.fifo ++ [⟨tag, v, r⟩]) ∧ (s.clv.fifo.length = 63 → escalates t)
          ∧ (s.clv.fifo.length ≠ 63 → t = { s with clv := { s.clv with fifo := t.clv.fifo } })))
      ∧ (∃ t : State, exec .overflowDrain s = .next t
        ∧ (s.clv.park = [] → s.clv.fifo = [] → t = s)
        ∧ ∀ k, s.clv.park = [k] → s.clv.fifo = [] → s.f NMG.TAGS_CMD_TAG ≠ k.tag.toNat → s.waiterFor k.tag.toNat = none →
          (4096 ≤ s.clv.store.length → t = s)
            ∧ (s.clv.store.length < 4096 → t.clv.park = [] ∧ t.clv.store = s.clv.store ++ [k] ∧ t.f CLV.STORE_V = s.clv.store.length + 1
              ∧ t.f (CLV.PARK_V (k.tag.toNat % 8)) = s.f (CLV.PARK_V (k.tag.toNat % 8)) - 1))
      ∧ (∃ t : State, exec .overflowTimeout s = .next t ∧ (s.queueFull = false → t = s) ∧ (s.queueFull = true → escalates t))
      ∧ (s.reaches m CLV.POST_TAG → ∃ t : State, exec (.clvPost m v) s = .next t
        ∧ t = { s with lastResp := t.lastResp, clvIn := s.clvIn ++ [⟨v.setWidth 16, s.bankRd m CLV.POST_VAL, 2000 + m.idx⟩] })
      ∧ ∃ t : State, exec (.graphNodeLimit e) s = .next t ∧ (s.runningOn e.val = none ∨ s.graphMode = false → t = s)
        ∧ ∀ w, s.runningOn e.val = some w → s.graphMode = true → t.on CLV.STAT_GRAPH_ERR = true ∧ t.clv.gend = some 9
          ∧ t.runningOn e.val = none ∧ t.thread w = 0 ∧ t.ansIn.length = s.ansIn.length + 1

/-- In graph mode and in a state it does not name, a thread command is ignored as R11 says. START with affinity
0 sets ERR_ARG only; else the thread becomes READY, its activations count, and where no engine holds or runs a
context its area holds PC = ENTRY and zeros. HALT makes the thread HALTED and counts the values it discards; a
running one stops at its next boundary. FREE frees a halted thread. A context that arrives stands in the local
slot, that of a thread which only comes next too, and that of the incoming thread swaps in within 24 engine cycles where no thread runs. A spent budget sets BUDGET_OVR and BUDGET, makes
a record, and requeues or halts the thread at its next boundary. A write of GEND with a value that is no result
code sets ERR_ARG, one outside graph mode is ignored as R11 says; the first one stops further nodes with its result. IRQSET raises pending bits.
(14_clove_dispatcher.md, R316; 14_clove_dispatcher.md, R317; 14_clove_dispatcher.md, R322;
14_clove_dispatcher.md, R323; 14_clove_dispatcher.md, R325; 14_clove_dispatcher.md, R326;
14_clove_dispatcher.md, R334; 14_clove_dispatcher.md, R335; 14_clove_dispatcher.md, R336; 16_signal_profile.md,
R381). -/
def Obligations.CloveThreads : Prop :=
  ∀ (s : State) (m : Sys2Proof.Master) (w : Fin 1024) (e : Fin 15) (k : Fin 8) (v : Word),
    let st := s.thread w.val
    let area := s.f CLV.CTXBASE_V + w.val * 1024
    let n := ((List.range 4).filter (fun i => s.filled w.val i)).length
    (s.reaches m (CLVT.CTRL w.val) →
        (∃ t : State, exec (.threadStart m w) s = .next t ∧ (s.graphMode = true → s.turnedAway t)
          ∧ (s.graphMode = false → s.f (CLVT.CFG_AFF w.val) = 0 → s.flagged t CLV.STAT_ERR_ARG)
          ∧ (s.graphMode = false → s.f (CLVT.CFG_AFF w.val) ≠ 0 → 1 < st → s.turnedAway t)
          ∧ (s.graphMode = false → s.f (CLVT.CFG_AFF w.val) ≠ 0 → st ≤ 1 → t.thread w.val = 3
            ∧ t.f (CLVT.STAT_ACT w.val) = (s.f (CLVT.STAT_ACT w.val) + 1) % 65536
            ∧ ((∀ f : Fin 15, s.engThread f.val = none ∧ s.resident f.val = none) →
              t.f (CLVT.RUN_V w.val) = 0 ∧ t.load .shared (area + 0x180) 4 = (s.rd (CLVT.ENTRY w.val)).toNat
              ∧ ∀ i, i < 0x278 → i < 0x180 ∨ 0x184 ≤ i → t.byte .shared (area + i) = 0#8)))
        ∧ (∃ t : State, exec (.threadHalt m w) s = .next t
          ∧ (s.graphMode = true ∨ st < 2 ∨ 4 < st → s.turnedAway t)
          ∧ (s.graphMode = false → 2 ≤ st → st ≤ 4 → (∀ f : Fin 15, s.runningOn f.val ≠ some w.val) → t.thread w.val = 1
            ∧ t.f (CLVT.STAT_FILLED w.val) = 0 ∧ t.f CLV.CNT_DISCARD = min (s.f CLV.CNT_DISCARD + n) 65535)
          ∧ ∀ f, s.graphMode = false → 2 ≤ st → st ≤ 4 → s.engineOf w.val = some f →
            (s.atBoundary f = true → t.thread w.val = 1)
              ∧ (s.atBoundary f = false → t = { s with lastResp := t.lastResp, eng := t.eng } ∧ (t.en f).halt = true))
        ∧ ∃ t : State, exec (.threadFree m w) s = .next t ∧ (s.graphMode = true ∨ st ≠ 1 → s.turnedAway t)
          ∧ (s.graphMode = false → st = 1 → t.thread w.val = 0 ∧ s.wrote t [CLVT.STAT w.val]))
      ∧ (∃ t : State, exec (.contextFetchDone e) s = .next t ∧ (s.incoming e.val = none → s.fetching e.val = none → t = s)
        ∧ (∀ u, s.incoming e.val = none → s.fetching e.val = some u → s.on (CLV.ENG_KEEP_V e.val) = false → u < 1024 →
          t.fetching e.val = none ∧ t.f (CLV.ENG_SLOT_T e.val) = u ∧ t.on (CLV.ENG_SLOT_V e.val) = true)
        ∧ (∀ u, s.incoming e.val = some u → s.fetched e.val = true → t = s)
        ∧ ∀ u, s.incoming e.val = some u → s.fetched e.val = false → t.fetched e.val = true
          ∧ (s.runningOn e.val = none → s.on (CLV.ENG_KEEP_V e.val) = false → u < 1024 →
            t.f (CLV.ENG_SLOT_T e.val) = u ∧ t.on (CLV.ENG_SLOT_V e.val) = true)
          ∧ (s.runningOn e.val = none → (⟨s.now + ticksFor e.val 24, .engineGo e.val⟩ : Due) ∈ t.agenda))
      ∧ (∃ t : State, exec (.budgetExpiry w) s = .next t ∧ (s.engineOf w.val = none → t = s)
        ∧ ∀ f, s.engineOf w.val = some f → t.on (CLVT.STAT_BUDGET_OVR w.val) = true ∧ t.on CLV.STAT_BUDGET = true
          ∧ t.ansIn.length = s.ansIn.length + 1
          ∧ (s.atBoundary f = false → t.thread w.val = s.thread w.val
            ∧ (if s.on (CLVT.CFG_BUDGET_ACT w.val) then (t.en f).halt else (t.en f).requeue) = true)
          ∧ (s.atBoundary f = true → s.on (CLVT.CFG_BUDGET_ACT w.val) = true → t.thread w.val = 1)
          ∧ (s.mayPreempt f = true → s.on (CLVT.CFG_BUDGET_ACT w.val) = false → (s.en f).halt = false → s.engStopped f = false →
            t.thread w.val = 3))
      ∧ (s.reaches m CLV.GEND → ∃ t : State, exec (.graphEnd m v) s = .next t ∧ (11 < v.toNat % 256 → s.flagged t CLV.STAT_ERR_ARG)
        ∧ (v.toNat % 256 ≤ 11 → s.graphMode = false → s.turnedAway t)
        ∧ (v.toNat % 256 ≤ 11 → s.graphMode = true → s.clv.gend.isSome = true → t = { s with lastResp := t.lastResp })
        ∧ (v.toNat % 256 ≤ 11 → s.graphMode = true → s.clv.gend = none → t.clv.gend = some (v.toNat % 256) ∧ t.clv.ready = [] ∧ t.clv.waiters = []
          ∧ t.regs = s.regs ∧ ((∀ f : Fin 15, s.runningOn f.val = none) → (⟨s.now, .graphDone⟩ : Due) ∈ t.agenda)))
      ∧ (s.reaches m (SDS.IRQSET k.val) → ∃ t : State, exec (.sdsIrqSet m k v) s = .next t
        ∧ t.f (SDS.IRQ_PEND k.val) = (s.f (SDS.IRQ_PEND k.val)) ||| (getBits (SDS.IRQ_PEND k.val).lo (SDS.IRQ_PEND k.val).w v)
        ∧ s.wrote t [SDS.IRQ k.val])

/-- The only waiting record takes a token of its bucket, carries the bucket's drops as suppressed count and
enters the buffer with the next index; without a token it is dropped and counted in the bucket; without room it
is counted in LOST; where records were lost and two places are free a LOST record goes ahead of it; class ANS
bypasses the buckets. Severity FAULT or SAFETY or half a buffer asks for a flush. A good flush moves the covered
records to the log, oldest first, and counts; a failed one keeps a record in the buffer, sets FLUSH_ERR and
makes FLUSH_FAIL. The timer asks for a flush. RCD_EXPORT copies records in index order from TAIL on, and refuses
with BAD_ARG, ILLEGAL_STATE or, over a record with an error that ECC cannot correct (R26), INTEGRITY. A record
carries the module number that its SOURCE shows. POSTCODE posts the master's record or is refused with ERR_ARG. A read of HEAD_L
or TAIL_L takes the high half along. (19_anise_recorder.md, R431; 19_anise_recorder.md, R434;
19_anise_recorder.md, R435; 19_anise_recorder.md, R436; 19_anise_recorder.md, R437; 19_anise_recorder.md, R439;
19_anise_recorder.md, R440; 02_cell_time.md, R35). -/
def Obligations.RecorderAdmission : Prop :=
  ∀ (s : State) (m : Sys2Proof.Master) (r : Rec) (good tail : Bool) (via : Via) (start : Wide) (cnt ofs v : Word),
    let buf := s.ans.buf
    let n := buf.length
    let lost := s.f ANS.CNT_LOST
    let first := s.ansHead - n
    let k := (s.bucketOf r).1
    let b := fillBucket s.now (s.bucketOf r).2.1 (s.bucketOf r).2.2 (s.ans.buckets.get noBucket k)
    let ans : Prop := r.code.toNat / 256 = 0x13
    let passes : Prop := ans ∨ 2500000000 ≤ b.level
    let entered : Rec := if ans then r else { r with sup := min b.drops 4095 }
    let hasRoom : Prop := n < 16384 ∧ (lost ≠ 0 → n < 16383)
    let asks (t : State) : Prop := t.on ANS.STAT_FLUSHING = true ∧ t.ans.flushTo = some t.ansHead
      ∧ (s.on ANS.STAT_FLUSHING = false → ∃ d, d ≤ 5000000 ∧ (⟨s.now + d, .cmd (.ansFlush true)⟩ : Due) ∈ t.agenda)
    let from_ := max start.toNat s.ansTail
    let num := min cnt.toNat (s.ansHead - from_)
    let badArg : Prop := s.ansHead < start.toNat ∨ cnt.toNat = 0 ∨ 32768 < cnt.toNat ∨ 0x1000000 < ofs.toNat + 32 * cnt.toNat
    let serves : Prop := s.mstate = 4 ∨ s.mstate = 5 ∨ s.mstate = 6
    let spoilt : Prop := ∃ i, i < num ∧ s.recordBad (from_ + i) = true
    let done (t : State) (res val : Nat) : Prop := via ≠ .none → t.cqes = s.cqes ++ [⟨via, res, BitVec.ofNat 64 val, true, none⟩]
    let src := s.bankRd m ANS.POSTSRC
    let post (i : Nat) : Nat := (s.bankRd m (ANS.POSTP i)).toNat
    let low := if tail then ANS.TAIL_L else ANS.HEAD_L
    (∃ t : State, exec .recordAdmit s = .next t ∧ (s.ansIn = [] → t = s)
        ∧ (s.ansIn = [r] → t.ansIn = []
          ∧ (¬passes → t.ans.buf = buf ∧ t.ansHead = s.ansHead ∧ ∃ x, t.ans.buckets.get noBucket k = some x ∧ x.drops = b.drops + 1)
          ∧ (passes → ¬ans → ∃ x, t.ans.buckets.get noBucket k = some x ∧ x.drops = 0 ∧ x.level + 2500000000 = b.level)
          ∧ (passes → ¬hasRoom → t.ans.buf = buf ∧ t.ansHead = s.ansHead ∧ t.f ANS.CNT_LOST = min (lost + 1) 65535 ∧ t.on ANS.STAT_LOST = true)
          ∧ (passes → hasRoom → lost = 0 → t.ans.buf = buf ++ [entered] ∧ t.ansHead = (s.ansHead + 1) % 2 ^ 48
            ∧ t.f ANS.STAT_FILL = n + 1)
          ∧ (passes → hasRoom → lost ≠ 0 → (∃ x, t.ans.buf = buf ++ [x, entered] ∧ x.code = 0x1302#16 ∧ x.payload.toNat = lost)
            ∧ t.f ANS.CNT_LOST = 0 ∧ t.f ANS.STAT_FILL = n + 2)
          ∧ (passes → hasRoom → r.sev = 4 ∨ r.sev = 5 ∨ 8191 ≤ n → asks t)))
      ∧ (∃ t : State, exec (.ansFlush good) s = .next t ∧ t.on ANS.STAT_FLUSHING = false ∧ t.ans.flushTo = none
        ∧ (s.ans.flushTo = some s.ansHead → n ≤ s.ansHead → n ≤ 16384 → good = true → t.ans.buf = [] ∧ t.f ANS.STAT_FILL = 0
          ∧ t.f ANS.CNT_FLUSHES = (s.f ANS.CNT_FLUSHES + 1) % 65536
          ∧ ∀ i x, buf[i]? = some x → t.load .mram ((first + i) % 786432 * 32) 32 = x.nat)
        ∧ (good = false → t.on ANS.STAT_FLUSH_ERR = true ∧ t.ansIn.length = s.ansIn.length + 1 ∧ (∃ j, t.ans.buf = buf.drop j)
          ∧ (s.ans.flushTo = some s.ansHead → n ≤ s.ansHead → buf ≠ [] → t.ans.buf ≠ [])))
      ∧ (∃ t : State, exec .ansFlushTimer s = .next t ∧ asks t ∧ t.ans.buf = buf)
      ∧ (∃ t : State, exec (.rcdExport via start cnt ofs) s = .next t ∧ (badArg → done t 3 0 ∧ t.mem = s.mem)
        ∧ (¬badArg → ¬serves → done t 6 0 ∧ t.mem = s.mem ∧ t.ansIn.length = s.ansIn.length + 1)
        ∧ (¬badArg → serves → spoilt → done t 9 0 ∧ t.mem = s.mem)
        ∧ (¬badArg → serves → ¬spoilt → done t 0 (from_ % 2 ^ 48 + num % 32768 * 2 ^ 48) ∧ s.sameBut { t with mem := s.mem, ecc := s.ecc, cqes := s.cqes, agenda := s.agenda } []
          ∧ (∀ i, i < num → t.load .shared (ofs.toNat + 32 * i) 32 = s.recordAt (from_ + i))
          ∧ ∀ a, a < ofs.toNat ∨ ofs.toNat + 32 * num ≤ a → a < 0x1000000 → t.byte .shared a = s.byte .shared a))
      ∧ (s.reaches m ANS.POSTCODE → ∃ t : State, exec (.ansPost m v) s = .next t
        ∧ let refused : Prop := getBits 0 16 v < 0x8000 ∨ 5 < getBits 16 4 src
          (refused → s.flagged t ANS.STAT_ERR_ARG)
          ∧ (¬refused → ∃ x, t = { s with lastResp := t.lastResp, ansIn := s.ansIn ++ [x] } ∧ x.time = s.time64 0 ∧ x.code = v.setWidth 16
            ∧ x.unit = getBits 0 10 src ∧ x.sev = getBits 16 4 src ∧ x.mod = s.f BBS.GCFG_MOD
            ∧ x.payload.toNat = post 0 + 2 ^ 32 * post 1 + 2 ^ 64 * post 2 + 2 ^ 96 * post 3))
      ∧ (s.reaches m low → ∃ t : State, exec (.ansPtrRead m tail) s = .next t ∧ t.lastResp = .data (s.rd low)
        ∧ t.bankRd m (low + 4) = s.rd (low + 4) ∧ s.wrote { t with bank := s.bank } [])

/-- ID READ writes the device and the manufacturing certificate and gives a fresh nonce; LOGIN with a good token
opens the session of its submitter and uses up the nonce, a bad one completes with NOT_AUTHORISED and a record;
LOGOUT ends the session; ATTEST writes the challenge and the module's identity. A region beyond the window is
BAD_ARG, a state that does not serve them ILLEGAL_STATE. A session ends once NOT_AFTER has passed. RCD_NONCE
gives a fresh nonce; RCD_CLEAR with it and the CLEAR right erases the log, and index 0 is CLEARED with the
erased count. LC_CHANGE with a good token and the right goes to the listed state, burns WIPE_PEND, ends every
session, takes one toggle between OPERATIONAL and SERVICE and asks for a flush and a reset; NOT_AUTHORISED,
BAD_ARG, ILLEGAL_STATE and NO_RESOURCE refuse it with nothing changed. (20_identity_lifecycle.md, R445;
20_identity_lifecycle.md, R446; 20_identity_lifecycle.md, R451; 20_identity_lifecycle.md, R452;
20_identity_lifecycle.md, R453; 20_identity_lifecycle.md, R454; 19_anise_recorder.md, R438;
17_host_and_backbone.md, R398). -/
def Obligations.IdentityAndLifecycle : Prop :=
  ∀ (s : State) (via : Via) (ofs : Word) (chal : List Byte) (target : Byte) (src : Option (Fin 64)) (r : Fin 16),
    let o := ofs.toNat
    let fits (n : Nat) : Prop := o + n ≤ 0x1000000
    let answers (t : State) (res val : Nat) : Prop := via ≠ .none → t.cqes = s.cqes ++ [⟨via, res, BitVec.ofNat 64 val, true, none⟩]
    let same (t : State) : Prop := t = { s with cqes := t.cqes, agenda := t.agenda, ansIn := t.ansIn }
    let fails (t : State) (res : Nat) : Prop := answers t res 0 ∧ same t
    let mayRead : Prop := (s.served = true ∨ s.romService = true) ∧ s.lc ≠ 0
    let may : Prop := s.served = true ∧ (s.lc = 1 ∨ s.lc = 2 ∨ s.lc = 3)
    let login := s.tokenChain o 1 0 s.ident.nonce (fun _ => s.anchorDigest)
    let clear := s.tokenChain o 0 0 s.ident.rcdNonce (fun _ => s.anchorDigest)
    let dst := target.toNat
    let change := s.tokenChain o 2 dst s.ident.nonce (fun ch => if s.lc = 1 then lastDigest ch else s.anchorDigest)
    let listed : Prop := (s.lc = 1 ∧ dst = 2) ∨ (s.lc = 2 ∧ dst = 3) ∨ (s.lc = 3 ∧ dst = 2) ∨ ((s.lc = 2 ∨ s.lc = 3) ∧ dst = 4)
    let toggle : Prop := (s.lc = 2 ∧ dst = 3) ∨ (s.lc = 3 ∧ dst = 2)
    let holds (ch : List (List Byte)) : Prop := (s.lc = 1 → dst = 2 → certRights (ch.getLastD []) = 127)
      ∧ (toggle → (certRights (ch.headD [])).testBit 4 = true)
      ∧ ((s.lc = 2 ∨ s.lc = 3) → dst = 4 → (certRights (ch.headD [])).testBit 5 = true)
    let key := (match src with | some m => m.val | none => 64) * 16 + r.val
    let sess := s.ident.sess.get noSession key
    (∃ t : State, exec (.idRead via ofs) s = .next t ∧ (¬fits 640 → fails t 3) ∧ (fits 640 → ¬mayRead → fails t 6)
        ∧ (fits 640 → mayRead → ∃ n, n < 2 ^ 64 ∧ answers t 0 n ∧ t.ident = { s.ident with nonce := some n } ∧ t.regs = s.regs
          ∧ ∀ i, i < 320 → t.byte .shared (o + i) = deviceCert.getD i 0#8 ∧ t.byte .shared (o + 320 + i) = makerCert.getD i 0#8))
      ∧ (∃ t : State, exec (.idLogin via ofs) s = .next t ∧ (¬fits 128 → fails t 3)
        ∧ (fits 128 → login = none → fails t 5 ∧ t.ansIn.length = s.ansIn.length + 1)
        ∧ (via ≠ .none → fits 128 → ∀ ch, login = some ch → (¬may → fails t 6)
          ∧ (may → answers t 0 0 ∧ t.ident.nonce = none ∧ t.mem = s.mem
            ∧ ∃ x, t.session via = some x ∧ x.leaf = ch.headD [] ∧ ∀ c ∈ ch, x.notAfter ≤ certNotAfter c)))
      ∧ (∃ t : State, exec (.idLogout via) s = .next t ∧ (¬may → fails t 6)
        ∧ (may → answers t 0 0 ∧ t.session via = none ∧ t.mem = s.mem ∧ s.sameBut { t with ident := s.ident, cqes := s.cqes, agenda := s.agenda } [SYS.SESS]))
      ∧ (∃ t : State, exec (.idAttest via ofs chal) s = .next t ∧ (chal.length ≠ 32 ∨ ¬fits 144 → fails t 3)
        ∧ (chal.length = 32 → fits 144 → ¬mayRead → fails t 6)
        ∧ (chal.length = 32 → fits 144 → mayRead → answers t 0 0 ∧ t.regs = s.regs ∧ t.ident = s.ident
          ∧ (∀ i, i < 32 → t.byte .shared (o + i) = chal.getD i 0#8) ∧ (t.byte .shared (o + 32)).toNat = s.lc
          ∧ (s.romService = false → (t.byte .shared (o + 33)).toNat = s.f SYS.BOOT_SLOT ∧ t.load .shared (o + 36) 4 = (s.rd SYS.IMGVER).toNat)))
      ∧ (∃ t : State, exec (.sessionExpiry src r) s = .next t ∧ (sess = none → t = s)
        ∧ ∀ x, sess = some x → (x.notAfter < (s.time64 1).toNat → t.ident.sess.get noSession key = none
            ∧ (src = none → t.on ⟨SYS.SESS, r.val, 1⟩ = false))
          ∧ ((s.time64 1).toNat ≤ x.notAfter → t = { s with agenda := t.agenda }))
      ∧ (∃ t : State, exec (.rcdNonce via) s = .next t ∧ (s.served = false → fails t 6)
        ∧ (s.served = true → ∃ n, n < 2 ^ 64 ∧ answers t 0 n ∧ t.ident = { s.ident with rcdNonce := some n } ∧ t.regs = s.regs ∧ t.mem = s.mem))
      ∧ (∃ t : State, exec (.rcdClear via ofs) s = .next t ∧ (¬fits 128 → fails t 3) ∧ (fits 128 → clear = none → fails t 5)
        ∧ (fits 128 → ∀ ch, clear = some ch → let right := (certRights (ch.headD [])).testBit 0
          let here : Prop := s.mstate = 4 ∧ (s.lc = 2 ∨ s.lc = 3)
          (right = false → fails t 5) ∧ (right = true → ¬here → fails t 6)
            ∧ (right = true → here → answers t 0 0 ∧ t.ident.rcdNonce = none ∧ t.ansHead = 1 ∧ t.ansTail = 0
              ∧ (∃ x, t.ans.buf = [x] ∧ x.code = 0x1301#16 ∧ x.payload.toNat / 2 ^ 64 = s.ansHead % 2 ^ 48)
              ∧ (∀ a, a < 786432 * 32 → t.byte .mram a = 0#8) ∧ ∀ a, 786432 * 32 ≤ a → a < 0x2000000 → t.byte .mram a = s.byte .mram a)))
      ∧ ∃ t : State, exec (.lcChange via target ofs) s = .next t ∧ (¬fits 128 → fails t 3)
        ∧ (fits 128 → change = none → fails t 5 ∧ t.ansIn.length = s.ansIn.length + 1)
        ∧ (fits 128 → ∀ ch, change = some ch → (¬holds ch → fails t 5 ∧ t.ansIn.length = s.ansIn.length + 1)
          ∧ (holds ch → ¬listed → fails t 3) ∧ (holds ch → listed → s.mstate ≠ 4 → fails t 6)
          ∧ (holds ch → listed → s.mstate = 4 → toggle → s.f SYS.LC_TOGGLES_LEFT = 0 → fails t 8)
          ∧ (holds ch → listed → s.mstate = 4 → (toggle → s.f SYS.LC_TOGGLES_LEFT ≠ 0) → answers t 0 0 ∧ t.lc = dst
            ∧ t.on SYS.LC_WIPE_PEND = true ∧ t.ident.nonce = none ∧ t.ident.sess = ⟨[]⟩ ∧ t.ident.restart = some 4
            ∧ t.f SYS.LC_TOGGLES_LEFT = s.f SYS.LC_TOGGLES_LEFT - (if toggle then 1 else 0) ∧ t.mem = s.mem
            ∧ (s.lc = 1 → t.anchorDigest = lastDigest ch)
            ∧ ∃ x, t.ansIn = s.ansIn ++ [x] ∧ x.code = 0x1510#16 ∧ x.payload.toNat = s.lc + 256 * dst))

/-- IMG, CFG_WRITE and SAF_PARAM_WRITE complete with NOT_AUTHORISED where the session lacks their right. An
argument out of range is BAD_ARG; a state of the module or of the lifecycle that does not permit them, and the
slot booted from, ILLEGAL_STATE; a running IMG or LC_CHANGE BUSY. An accepted IMG command runs and completes
within 800 ms. CFG_WRITE stores a record whose CRC and content are good into the MRAM and answers with its CRC,
a bad CRC, or an error that ECC cannot correct in the record (R26), is INTEGRITY and a record that breaks R16 BAD_ARG; CFG_READ writes the record in force.
SAF_PARAM_WRITE stores a set whose CRC, signer, signature and content are good. (20_identity_lifecycle.md, R446;
20_identity_lifecycle.md, R449; 20_identity_lifecycle.md, R451; 18_manager_workers_failover.md, R416;
18_manager_workers_failover.md, R417; 11_saffron_safety.md, R238; 00_scope.md, R9). -/
def Obligations.StoredImagesAndRecords : Prop :=
  ∀ (s : State) (via : Via) (ofs src len : Word) (slot idx : Byte) (fn : Fin 3),
    let o := ofs.toNat
    let whole : Prop := o + 0x10000 ≤ 0x1000000
    let answers (t : State) (res val : Nat) : Prop := via ≠ .none → t.cqes = s.cqes ++ [⟨via, res, BitVec.ofNat 64 val, true, none⟩]
    let same (t : State) : Prop := t = { s with cqes := t.cqes, agenda := t.agenda, ansIn := t.ansIn }
    let fails (t : State) (res : Nat) : Prop := answers t res 0 ∧ same t
    let owned : Prop := s.lc = 2 ∨ s.lc = 3
    let bad : Prop := 1 < slot.toNat ∨ (fn = 0 ∧ (o % 0x100000 ≠ 0 ∨ 0x10000000 ≤ o))
      ∨ (fn = 1 ∧ (o < 0x1000 ∨ o % 256 ≠ 0 ∨ src.toNat % 256 ≠ 0 ∨ len.toNat % 256 ≠ 0 ∨ 0x100000 < len.toNat
        ∨ 0x10000000 < o + len.toNat ∨ 0x1000000 < src.toNat + len.toNat)) ∨ (fn = 2 ∧ 0xFFFF000 < len.toNat)
    let here : Prop := s.served = true ∧ owned ∧ slot.toNat ≠ s.f SYS.BOOT_SLOT
    let busy : Prop := s.ident.img.isSome = true ∨ s.ident.restart.isSome = true
    let x := s.load .shared o 0x10000
    let crc := blkNat x 0xFFFC 4
    let copied (t : State) (a : Nat) : Prop := (∀ i, i < 0x10000 → t.byte .mram (a + i) = s.byte .shared (o + i))
      ∧ (∀ i, i < a ∨ a + 0x10000 ≤ i → t.byte .mram i = s.byte .mram i) ∧ t.regs = s.regs
    let leaf := match s.session via with | some y => y.leaf | none => []
    let signed : Prop := leBytes (blkNat x 0x10 20) 20 = certKeyId leaf
      ∧ ecdsaGood (certKey leaf) (sub (leBytes x 0x10000) 0x100 0xFEFC) (sub (leBytes x 0x10000) 0x40 96) = true
    let content : Prop := PSet.good x = true ∧ blkNat x 4 1 = idx.toNat
    let intact : Prop := s.eccIn .shared o 0x10000 true = false ∧ crc32 (leBytes x 0xFFFC) = crc
    let image (t : State) : Prop := (s.hasRight via 3 = false → fails t 5) ∧ (s.hasRight via 3 = true → bad → fails t 3)
        ∧ (s.hasRight via 3 = true → ¬bad → ¬here → fails t 6) ∧ (s.hasRight via 3 = true → ¬bad → here → busy → fails t 2)
        ∧ (s.hasRight via 3 = true → ¬bad → here → ¬busy → t.cqes = s.cqes ∧ t.mem = s.mem ∧ t.regs = s.regs
          ∧ (∃ p, t.ident.img = some p ∧ p.fn = fn.val ∧ p.slot = slot.toNat ∧ p.via = via ∧ (fn ≠ 2 → p.ofs = o)
            ∧ (fn = 1 → p.src = src.toNat) ∧ (fn ≠ 0 → p.len = len.toNat))
          ∧ ∃ d, d ≤ 200000000 ∧ (⟨s.now + d, .imgDone⟩ : Due) ∈ t.agenda)
    (fn = 0 → ∃ t : State, exec (.imgErase via slot ofs) s = .next t ∧ image t)
      ∧ (fn = 1 → ∃ t : State, exec (.imgWrite via slot ofs src len) s = .next t ∧ image t)
      ∧ (fn = 2 → ∃ t : State, exec (.imgCommit via slot len) s = .next t ∧ image t)
      ∧ (∃ t : State, exec (.cfgWrite via ofs) s = .next t ∧ (s.hasRight via 2 = false → fails t 5)
        ∧ (s.hasRight via 2 = true → ¬whole → fails t 3) ∧ (s.hasRight via 2 = true → whole → ¬(s.mstate = 4 ∧ owned) → fails t 6)
        ∧ (s.hasRight via 2 = true → whole → s.mstate = 4 → owned → (¬intact → fails t 9) ∧ (intact → bcrGood x = false → fails t 3)
          ∧ (intact → bcrGood x = true → answers t 0 crc ∧ copied t mramBcr)))
      ∧ (∃ t : State, exec (.cfgRead via ofs) s = .next t ∧ (¬whole → fails t 3) ∧ (whole → s.served = false → fails t 6)
        ∧ (whole → s.served = true → answers t 0 (s.bcr 0xFFFC 4) ∧ t.regs = s.regs
          ∧ ∀ i, i < 0x10000 → (t.byte .shared (o + i)).toNat = s.bcr i 1))
      ∧ ∃ t : State, exec (.safParamWrite via idx ofs) s = .next t ∧ (s.hasRight via 1 = false → fails t 5)
        ∧ (s.hasRight via 1 = true → 15 < idx.toNat ∨ ¬whole → fails t 3)
        ∧ (s.hasRight via 1 = true → idx.toNat ≤ 15 → whole → (¬(s.lc = 3 ∧ s.mstate = 4) → fails t 6)
          ∧ (s.lc = 3 → s.mstate = 4 → (¬intact → fails t 9)
            ∧ (intact → ¬signed → fails t 5) ∧ (intact → signed → ¬content → fails t 3)
            ∧ (intact → signed → content → answers t 0 crc ∧ copied t (mramSets + idx.toNat * 0x10000)
              ∧ t.saf.keys.get (fun _ => []) idx.toNat = certKey leaf)))

/-- A transition of R21 sets STATE, PREV, CAUSE and CHANGED, sets GRAPH for BOOT, TEST and RECOVERY, and makes a
TRANSITION record; the rings are up in READY, RUN, SAFE and HOLDUP and disabled elsewhere; HOLDUP and RECOVERY
put every group in STO. A hold-up enters HOLDUP, counts it, clears STORE_OK and stops the shed units. A recovery
enters RECOVERY at its first step with every thread FREE, and counts. A reset enters BOOT with MRAM and NOR
flash kept, every other memory wiped and every session ended. Power off leaves OFF with nothing due and an empty
store. A transition that a cause of a higher rank undoes leaves every register as it was before it, where nothing
has written one since. (01_cell_and_module.md, R20; 01_cell_and_module.md, R21; 01_cell_and_module.md, R22; 14_clove_dispatcher.md, R330;
17_host_and_backbone.md, R398; 20_identity_lifecycle.md, R446; 20_identity_lifecycle.md, R455;
21_power_startup_recovery.md, R462; 21_power_startup_recovery.md, R463; 21_power_startup_recovery.md, R474). -/
def Obligations.ModuleTransitions : Prop :=
  ∀ (s : State) (st : Fin 9) (cause before : Nat), cause < 256 →
    let shows (t : State) (x : Nat) : Prop := t.mstate = x ∧ t.f PWS.MODSTATE_PREV = s.mstate ∧ t.f PWS.MODSTATE_CAUSE = cause
      ∧ t.on PWS.MODSTATE_CHANGED = true
    let allSto (t : State) : Prop := ∀ g : Fin 12, t.groupIn g.val = true
    let keeps (t : State) : Prop := (∀ a, a < 0x2000000 → t.byte .mram a = s.byte .mram a) ∧ (∀ a, a < 0x20000000 → t.byte .nor a = s.byte .nor a)
      ∧ (∀ a, a < 0x1000000 → t.byte .shared a = 0#8 ∧ t.byte .factor a = 0#8) ∧ (∀ a, a < 0x200000000 → t.byte .ddr a = 0#8)
      ∧ (∀ a, a < 0x400000 → t.byte .capture a = 0#8) ∧ t.ident.sess = ⟨[]⟩ ∧ t.pending = s.pending ∧ t.now = s.now
    let t := s.moveTo st.val cause
    let up : Prop := st.val = 4 ∨ st.val = 5 ∨ st.val = 6 ∨ st.val = 7
    (shows t st.val ∧ t.on PWS.MODSTATE_GRAPH = (decide (st.val = 2 ∨ st.val = 3 ∨ st.val = 8) || (decide (st.val = 7) && s.on PWS.MODSTATE_GRAPH))
        ∧ (∃ x ∈ t.ansIn, x.code = 0x1601#16) ∧ (up → t.on HQ.GSTAT_RINGS_UP = true)
        ∧ (¬up → t.on HQ.GSTAT_RINGS_UP = false ∧ ∀ r : Fin 16, t.on (RP.CFG_EN r.val) = false)
        ∧ (st.val = 7 ∨ st.val = 8 → allSto t))
      ∧ (cause = 1 → shows (s.holdup before) 7 ∧ (s.holdup before).f PWS.CNT_HOLDUPS = min (s.f PWS.CNT_HOLDUPS + 1) 65535
        ∧ (s.holdup before).on PWS.STAT_STORE_OK = false ∧ (s.holdup before).pws.stopped = true ∧ (s.holdup before).pws.holdFrom = s.mstate)
      ∧ (shows (s.toRecovery cause) 8 ∧ (s.toRecovery cause).pws.recStep = 1 ∧ (∀ w : Fin 1024, (s.toRecovery cause).thread w.val = 0)
        ∧ (s.toRecovery cause).f PWS.CNT_RECOVERIES = min (s.f PWS.CNT_RECOVERIES + 1) 65535)
      ∧ (∀ rails, shows (s.bootReset cause rails) 2 ∧ keeps (s.bootReset cause rails))
      ∧ (∀ mv : ModMove, (∀ o, s.rd o = mv.became.regs.get regReset o) → ∀ o, (s.undo mv).rd o = mv.was.regs.get regReset o)
      ∧ shows (s.powerOff cause) 0 ∧ keeps (s.powerOff cause) ∧ (s.powerOff cause).agenda = [] ∧ (s.powerOff cause).f PWS.HOLD_E_STORE = 0
        ∧ (s.powerOff cause).on PWS.STAT_STORE_OK = false

/-- An input shows its voltage; from 19.2 V on it counts as good, starts the module from OFF with a cool die,
and in HOLDUP ends the hold-up after 1 ms more. A lost input clears its flag and leaves a record, or with no
other good input leads to the hold-up at once, before any other cause of the same CLK_IO cycle. A hold-up ends in SAFE, from a state with graphs in RECOVERY,
with its length shown and recorded; the loss of both inputs turns the door locks off and ends a return that runs. A charged store shows its energy; an exhausted one in HOLDUP, and in SLEEP
without input, leads to OFF, from where a good input starts it again. SLEEP ends by a wake through a reset that shows the source and the length of sleep.
The cover sets its flag and makes a record. (21_power_startup_recovery.md, R459; 21_power_startup_recovery.md,
R461; 21_power_startup_recovery.md, R462; 21_power_startup_recovery.md, R463; 21_power_startup_recovery.md,
R464; 21_power_startup_recovery.md, R465; 21_power_startup_recovery.md, R466; 11_saffron_safety.md, R241;
01_cell_and_module.md, R21; 01_cell_and_module.md, R22). -/
def Obligations.SupplyInputsAndHoldup : Prop :=
  ∀ (s : State) (inp : Fin 2) (mv : Nat) (mj : BitVec 16) (restored : Bool),
    let okF := if inp = 0 then PWS.STAT_A_OK else PWS.STAT_B_OK
    let other := if inp = 0 then PWS.STAT_B_OK else PWS.STAT_A_OK
    let vin := if inp = 0 then PWS.VIN_VA else PWS.VIN_VB
    let m := s.mstate
    let none_ : Prop := s.on PWS.STAT_A_OK = false ∧ s.on PWS.STAT_B_OK = false
    (∃ t : State, exec (if restored then .inputRestored inp mv else .inputGood inp mv) s = .next t
        ∧ (m ≠ 0 → t.f vin = min (mv / 10) 65535 ∧ s.sameBut { t with agenda := s.agenda } [PWS.VIN, PWS.STAT]
          ∧ (mv < 19200 → t.on okF = s.on okF) ∧ (19200 ≤ mv → t.on okF = true)
          ∧ (19200 ≤ mv → m = 7 → (⟨s.now + 250000, .cmd (.holdupInputReturn inp)⟩ : Due) ∈ t.agenda)
          ∧ (m ≠ 7 ∨ mv < 19200 → t.agenda = s.agenda))
        ∧ (m = 0 → 19200 ≤ mv → s.pws.hot = false → ∃ u : State, u.on okF = true ∧ s.sameBut u [PWS.VIN, PWS.STAT]
          ∧ t = (u.bootReset 1 false).transition))
      ∧ (∃ t : State, exec (.inputLost inp) s = .next t ∧ (s.on okF = false → t = s)
        ∧ (s.on okF = true → t.on okF = false ∧ t.on other = s.on other ∧ s.sameBut { t with agenda := s.agenda, ansIn := s.ansIn } [PWS.STAT]
          ∧ (s.on other = false → (⟨s.now, .cmd .bothInputsLost⟩ : Due) ∈ t.agenda)
          ∧ (s.on other = true → 1 < m → t.on PWS.STAT_INPUT_LOST = true ∧ t.ansIn.length = s.ansIn.length + 1)))
      ∧ (∃ t : State, exec .bothInputsLost s = .next t ∧ ∃ u : State, s.sameBut { u with agenda := s.agenda } [PWS.STAT, SAF.DOOR] ∧ u.on PWS.STAT_A_OK = false ∧ u.on PWS.STAT_B_OK = false
        ∧ u.f SAF.DOOR_DLK = 0 ∧ (∀ d, d ∈ u.agenda ↔ d ∈ s.agenda ∧ ∀ i, d.ev ≠ .cmd (.holdupInputReturn i))
        ∧ u.ranks t 1 (fun x w => (1 < x.mstate → x.mstate < 9 → x.mstate ≠ 7 → w = x.holdup 5000) ∧ (x.mstate = 0 ∨ x.mstate = 7 → w = x)
          ∧ (x.mstate = 1 → x.sameBut w [PWS.STAT] ∧ w.on PWS.STAT_STORE_OK = false)))
      ∧ (∃ t : State, exec (.holdupInputReturn inp) s = .next t ∧ (m ≠ 7 → t = s)
        ∧ (m = 7 → ∃ u : State, let ms := (s.now - s.pws.holdAt) / 250000
          u.on okF = true ∧ u.f PWS.HOLD_T_LAST = min ms 65535 ∧ u.pws = { s.pws with stopped := false }
            ∧ s.sameBut { u with ansIn := s.ansIn, pws := s.pws } [PWS.STAT, PWS.HOLD] ∧ (∃ x, u.ansIn = s.ansIn ++ [x] ∧ x.code = 0x1611#16)
            ∧ (s.pws.holdFrom = 4 ∨ s.pws.holdFrom = 5 ∨ s.pws.holdFrom = 6 → t = (List.range 12).foldl State.pick (u.moveTo 6 1))
            ∧ (s.pws.holdFrom < 4 ∨ 6 < s.pws.holdFrom → t = u.toRecovery 1)))
      ∧ (∃ t : State, exec (.storeCharged mj) s = .next t ∧ t.f PWS.HOLD_E_STORE = mj.toNat ∧ t.on PWS.STAT_STORE_OK = true
        ∧ s.sameBut t [PWS.HOLD, PWS.STAT])
      ∧ (∃ t : State, exec .storeExhausted s = .next t
        ∧ s.ranks t 1 (fun x w => (x.mstate ≠ 7 → w = x) ∧ (x.mstate = 7 → w = (x.powerOff 1).tryStart)))
      ∧ (∃ t : State, exec .sleepStoreExhausted s = .next t ∧ (m = 1 → none_ → t = s.powerOff 1) ∧ (m ≠ 1 ∨ ¬none_ → t = s))
      ∧ (∃ t : State, exec .wake s = .next t ∧ (m ≠ 1 → t = s)
        ∧ (m = 1 → let sec := (s.now - s.pws.sleepAt) / 250000000
          ∃ (u : State) (r : Rec), u.f PWS.STAT_WAKE_SRC = 1 ∧ u.rd PWS.SLPDUR = BitVec.ofNat 32 sec ∧ s.sameBut u [PWS.STAT, PWS.SLPDUR]
            ∧ r.code = 0x1614#16 ∧ r.payload.toNat = sec % 2 ^ 32
            ∧ let w := (u.bootReset 7 false).judgeRec r
              t = if w.anyInput then w.transition else w.transition.holdup 0))
      ∧ ∃ t : State, exec .coverOpen s = .next t ∧ (m = 0 → t = s)
        ∧ (m ≠ 0 → t.on SAF.STAT_COVER_OPEN = true ∧ t.saf.cover = true ∧ ∃ x ∈ t.ansIn, x.code = 0x0F21#16)
        ∧ (1 < m → t.ansIn.length = s.ansIn.length + 1 ∧ s.sameBut { t with ansIn := s.ansIn, saf := s.saf } [SAF.STAT])

/-- A rail fault and an overtemperature set RAIL_FLT, make a record and lead to RECOVERY, in HOLDUP to OFF; one
that lasts 10 ms leads to OFF and to a new start where an input is good. A lost PLL lock puts every group in STO and
waits 10 ms; a relock leads to RECOVERY, none to OFF. An expired engine watchdog sets its flags, makes a record,
resets the engine and halts its thread, in graph mode ends the graph with TIMEOUT; that of SVC, and the module
watchdog, set MWDT and lead to RECOVERY. Only SVC's two keys within 10 µs restart the module watchdog for 50 ms;
any other key sets KICK_ERR. A read of the sleep counter takes its high half along. Of the causes of one CLK_IO
cycle the first in the order of R22 alone acts. (01_cell_and_module.md, R21; 01_cell_and_module.md, R22;
01_cell_and_module.md, R28; 21_power_startup_recovery.md, R460; 21_power_startup_recovery.md, R472;
21_power_startup_recovery.md, R473; 21_power_startup_recovery.md, R476; 22_connectors_electrical.md, R480;
01_cell_and_module.md, R12). -/
def Obligations.RailsClockAndWatchdogs : Prop :=
  ∀ (s : State) (m : Sys2Proof.Master) (rail : Fin 7) (rail8 : Fin 8) (frac : Fin 32) (e : Fin 16) (key : Word),
    let st := s.mstate
    let watched : Prop := st = 2 ∨ st = 3 ∨ st = 4 ∨ st = 5 ∨ st = 6
    let wdt (x : State) : Prop := x.mstate = 2 ∨ x.mstate = 3 ∨ x.mstate = 4 ∨ x.mstate = 5 ∨ x.mstate = 6
    let failed (x : State) : Prop := x.mstate = 8 ∧ x.pws.recStep ≠ 0
    let faultOf (cause : Nat) (x w : State) : Prop := (wdt x → w = x.toRecovery cause) ∧ (failed x → w = x.recAgain cause)
      ∧ (¬wdt x → ¬failed x → w = x)
    let fault (t : State) (hot : Bool) (k : Nat) : Prop := (st < 2 → t = { s with pws := { s.pws with hot := hot } })
      ∧ (2 ≤ st → ∃ u : State, u.pws = { s.pws with hot := hot, rails := (s.pws.rails.filter (fun x => !decide (x.1 = k))) ++ [(k, s.now)] }
        ∧ u.on PWS.STAT_RAIL_FLT = true ∧ s.sameBut { u with pws := s.pws, ansIn := s.ansIn } [PWS.STAT]
        ∧ (∃ x, u.ansIn = s.ansIn ++ [x] ∧ x.code = 0x1613#16) ∧ (st ≠ 7 → u.ranks t 2 (faultOf 9))
        ∧ (st = 7 → u.ranks t 2 (fun x w => w = (x.powerOff 9).tryStart)))
    let overdue : Prop := ∃ x ∈ s.pws.rails, x.1 = rail8.val ∧ x.2 + 2500000 ≤ s.now
    (∃ t : State, exec (.railFault rail) s = .next t ∧ fault t s.pws.hot rail.val)
      ∧ (∃ t : State, exec .dieOvertemp s = .next t ∧ fault t true 7)
      ∧ (∃ t : State, exec (.railFaultPersist rail8) s = .next t ∧ (¬overdue → t = s)
        ∧ (overdue → s.ranks t 2 (fun x w => (wdt x ∨ x.mstate = 8 → w = (x.powerOff 9).tryStart) ∧ (¬wdt x → x.mstate ≠ 8 → w = x))))
      ∧ (∃ t : State, exec .dieCooled s = .next t
        ∧ let u : State := { s with pws := { s.pws with hot := false, rails := s.pws.rails.filter (fun x => !decide (x.1 = 7)) } }
          (st ≠ 0 ∨ s.anyInput = false → t = u) ∧ (st = 0 → s.anyInput = true → t = (u.bootReset 1 false).transition))
      ∧ (∃ t : State, exec (.pllLockLoss frac) s = .next t ∧ (st < 2 → t = s)
        ∧ (2 ≤ st → t.pws.unlocked = true ∧ (∀ g : Fin 12, t.groupIn g.val = true)
          ∧ (⟨s.now + 2500000, .cmd .pllLockTimeout⟩ : Due) ∈ t.agenda))
      ∧ (∃ t : State, exec .pllRelock s = .next t ∧ (s.pws.unlocked = false → t = s)
        ∧ (s.pws.unlocked = true → ∃ u : State, u.pws = { s.pws with unlocked := false }
          ∧ (∀ d ∈ u.agenda, d.ev ≠ .cmd .pllLockTimeout)
          ∧ u.ranks t 2 (fun x w => (wdt x ∨ failed x → w = x.toRecovery 8) ∧ (¬wdt x → ¬failed x → w = x))))
      ∧ (∃ t : State, exec .pllLockTimeout s = .next t ∧ (s.pws.unlocked = false → t = s)
        ∧ (s.pws.unlocked = true → s.ranks t 2 (fun x w => w = (x.powerOff 8).tryStart)))
      ∧ (∃ t : State, exec (.engineWdtExpiry e) s = .next t ∧ (s.runningOn e.val = none ∨ e.val = 15 → t = s)
        ∧ ∀ w, s.runningOn e.val = some w → e.val < 14 → t.on (PWS.EWD_EXP e.val) = true ∧ t.on PWS.STAT_EWDT = true
          ∧ t.ansIn.length = s.ansIn.length + 1 ∧ t.en e.val = { Eng.reset with evec := (s.en e.val).evec, cyc0 := s.now }
          ∧ (s.graphMode = false → t.thread w = 1) ∧ (s.graphMode = true → t.clv.gend = some 7))
      ∧ (∀ w, s.runningOn 14 = some w → watched → ∃ t u : State, exec (.engineWdtExpiry 14) s = .next t ∧ u.on PWS.STAT_MWDT = true
        ∧ u.on (PWS.EWD_EXP 14) = true ∧ t = u.moduleFault 2)
      ∧ (∃ t : State, exec .moduleWdtExpiry s = .next t ∧ (¬watched → t = s)
        ∧ (watched → ∃ u : State, u.on PWS.STAT_MWDT = true ∧ s.sameBut u [PWS.STAT] ∧ u.ranks t 3 (faultOf 2)))
      ∧ (s.reaches m PWS.WDKICK → ∃ t : State, exec (.wdtKick m key) s = .next t
        ∧ let k := getBits 0 16 key
          let second : Prop := k = 0xA5E8 ∧ ∃ x, s.pws.key = some x ∧ s.now - x ≤ 2500
          (m = .eng 14 → k = 0x5A17 → t = { s with lastResp := t.lastResp, pws := { s.pws with key := some s.now } })
            ∧ (m = .eng 14 → second → watched → t.pws.key = none ∧ (⟨s.now + 12500000, .cmd .moduleWdtExpiry⟩ : Due) ∈ t.agenda
              ∧ (∀ d ∈ t.agenda, d.ev = .cmd .moduleWdtExpiry → d.t = s.now + 12500000) ∧ t.regs = s.regs)
            ∧ (m ≠ .eng 14 ∨ (k ≠ 0x5A17 ∧ ¬second) → t.on PWS.STAT_KICK_ERR = true ∧ t.ansIn.length = s.ansIn.length + 1))
      ∧ (s.reaches m PWS.SLEEP_L → ∃ t : State, exec (.sleepCountRead m) s = .next t
        ∧ let n := (s.pws.slept + (if st = 1 then s.now - s.pws.sleepAt else 0)) * 32768 / 250000000 % 2 ^ 48
          t.lastResp = .data (BitVec.ofNat 32 n) ∧ getBits 0 16 (t.bankRd m PWS.SLEEP_H) = n / 2 ^ 32)

/-- Good rails start the wipe in BOOT. A good wipe clears shared SRAM and factor memory, in BOOT the capture
ring too, reads the boot configuration record once after a reset, and starts the graph of the die ROM; a failed one leads to RECOVERY. The image step of BOOT loads the
first candidate that passes and goes to TEST, else to RECOVERY; in RECOVERY it starts the self-test, or holds
with NO_IMAGE. A recovery that waits for time goes to READY when it ends, one that takes too long fails.
MODULE_RUN is refused with ILLEGAL_STATE outside READY, without role, lifecycle, store or time or by a wrong
comparator, with BAD_ARG by a bad joint map, and else enters RUN; MODULE_STOP leaves RUN at standstill;
MODULE_RESET_SAFE leaves SAFE without faults; MODULE_SLEEP and MODULE_RESTART ask for a flush first; in other
states they complete with ILLEGAL_STATE. (01_cell_and_module.md, R20; 01_cell_and_module.md, R21;
20_identity_lifecycle.md, R450; 20_identity_lifecycle.md, R451; 20_identity_lifecycle.md, R457;
10_planning_cycle.md, R213; 10_planning_cycle.md, R227; 21_power_startup_recovery.md, R461;
21_power_startup_recovery.md, R467; 21_power_startup_recovery.md, R468; 21_power_startup_recovery.md, R474). -/
def Obligations.StartUpAndModuleCommands : Prop :=
  ∀ (s : State) (via : Via) (good : Bool),
    let m := s.mstate
    let step := s.pws.recStep
    let answers (u t : State) (res : Nat) : Prop := via ≠ .none → t.cqes = u.cqes ++ [⟨via, res, BitVec.ofNat 64 0, true, none⟩]
    let refused (t : State) : Prop := answers s t 6 ∧ t.ansIn.length = s.ansIn.length + 1
      ∧ t = { s with cqes := t.cqes, agenda := t.agenda, ansIn := t.ansIn }
    let waits (t : State) (to_ : Nat) : Prop := answers s t 0 ∧ t.ident = { s.ident with restart := some to_ } ∧ t.mstate = m
      ∧ t.on ANS.STAT_FLUSHING = true ∧ t.ansIn.length = s.ansIn.length + 1
    let wiped (u : State) : Prop := (∀ a, a < 0x1000000 → u.byte .shared a = 0#8 ∧ u.byte .factor a = 0#8)
      ∧ (m = 2 → ∀ a, a < 0x400000 → u.byte .capture a = 0#8) ∧ u.regs = s.regs ∧ u.pws = { s.pws with recStep := 2 }
    let lacks : Prop := s.f FOV.STAT_ROLE = 0 ∨ (s.lc ≠ 2 ∧ s.lc ≠ 3) ∨ s.on PWS.STAT_STORE_OK = false
      ∨ (s.on (TIMEEXT.STATUS_SYNC 0) = false ∧ s.on (TIMEEXT.STATUS_GRANDMASTER 0) = false)
    let still : Prop := ∀ n : Fin 96, s.axisStill n.val = true
    let noPlan : Prop := (s.isManager = true ∨ s.isPair = true) ∧ s.planTcmpGood (s.f PLC.CFG_TSEL) = false
    let late : Prop := s.beaten 5 = true
    (∃ t : State, exec .railsUp s = .next t ∧ (m = 2 → step = 0 → t = { s with pws := { s.pws with recStep := 1 } })
        ∧ (m ≠ 2 ∨ step ≠ 0 → t = s))
      ∧ (∃ t : State, exec (.onchipWipeDone good) s = .next t ∧ ((m ≠ 2 ∧ m ≠ 8) ∨ step ≠ 1 → t = s)
        ∧ (step = 1 → good = true → ∃ u : State, wiped u ∧ let w := if s.fov.read then u else u.bcrLoad
          (m = 2 → t = w.romGraph 0) ∧ (m = 8 → t = w.romGraph 1))
        ∧ (step = 1 → good = false → ∃ u : State, s.sameBut u [CLV.STAT] ∧ u.f CLV.STAT_GRESULT = 9
          ∧ (m = 2 → t = u.toRecovery 0x0A) ∧ (m = 8 → t = u.recAgain 0x0A)))
      ∧ (∃ t : State, exec .imageLoad s = .next t ∧ (step ≠ 3 → t = s)
        ∧ let passes (k : Nat) : Prop := s.imageCheck k (s.load .nor (k * 0x10000000 + 8) 4) false = 0
          (step = 3 → (∀ k ∈ s.candidates, ¬passes k) → ∃ u : State, (s.candidates = [] → u = s)
            ∧ (s.candidates ≠ [] → u.on SYS.BOOT_FALLBACK = true ∧ s.sameBut { u with ansIn := s.ansIn } [SYS.BOOT]
              ∧ ∃ x, u.ansIn = s.ansIn ++ [x] ∧ x.code = 0x1511#16)
            ∧ (m = 2 → t = u.toRecovery 6)
            ∧ (m = 8 → ∃ v : State, v.on PWS.STAT_NO_IMAGE = true ∧ u.sameBut v [PWS.STAT] ∧ t = v.recHold))
          ∧ (step = 3 → ∀ k l, s.candidates = k :: l → passes k → ∃ u : State, u.f SYS.BOOT_SLOT = k % 2 ∧ u.on SYS.BOOT_FALLBACK = false
            ∧ u.rd SYS.IMGVER = BitVec.ofNat 32 (s.load .nor (k * 0x10000000 + 0x1010) 4)
            ∧ (m = 2 → t = State.testGraph { u.moveTo 3 6 with pws := { (u.moveTo 3 6).pws with recStep := 0 } })
            ∧ (m = 8 → t = State.testGraph { u with pws := { u.pws with recStep := 4 } })))
      ∧ (∃ t : State, exec .recoverySyncWaitEnd s = .next t ∧ (m = 8 → step = 5 → t = s.toReady 0x0A) ∧ (m ≠ 8 ∨ step ≠ 5 → t = s))
      ∧ (∃ t : State, exec .recoveryTimeout s = .next t ∧ (m = 8 → step ≠ 0 → step ≠ 5 → t = s.recAgain 0x0A)
        ∧ (m ≠ 8 ∨ step = 0 ∨ step = 5 → t = s))
      ∧ (∃ t : State, exec (.moduleRun via) s = .next t ∧ (m ≠ 4 ∨ s.ident.restart.isSome = true ∨ late → refused t)
        ∧ (m = 4 → s.ident.restart = none → ¬late → let no := s.runRefusal
          (lacks ∨ noPlan → no.1 = true) ∧ (no.1 = false → s.mapBad = true → answers s t 3 ∧ t.on PLC.STAT_MAP_ERR = true ∧ t.mstate = 4)
            ∧ (no.1 = false → s.mapBad = false → t = (s.moveTo 5 4).cmdDone via 0)
            ∧ (no.1 = true → answers s t 6 ∧ t.ansIn.length = s.ansIn.length + 1 ∧ (∀ F ∈ no.2, t.on F = true)
              ∧ (∀ F ∈ no.2, F = PLC.STAT_ERR_ARG ∨ F = FOV.STAT_ERR_ARG) ∧ (noPlan → t.on PLC.STAT_ERR_ARG = true)
              ∧ s.sameBut { t with cqes := s.cqes, agenda := s.agenda, ansIn := s.ansIn } (no.2.map Field.off))))
      ∧ (∃ t : State, exec (.moduleStop via) s = .next t ∧ (m = 5 → still → ¬late → t = (s.moveTo 4 4).cmdDone via 0)
        ∧ (m ≠ 5 ∨ ¬still ∨ late → refused t))
      ∧ (∃ t : State, exec (.moduleResetSafe via) s = .next t ∧ (m = 6 → s.saf.faults = [] → ¬late → t = (s.moveTo 4 4).cmdDone via 0)
        ∧ (m ≠ 6 ∨ s.saf.faults ≠ [] ∨ late → refused t))
      ∧ (∃ t : State, exec (.moduleSleep via) s = .next t ∧ (m = 4 → waits t 256) ∧ (m ≠ 4 → refused t))
      ∧ ∃ t : State, exec (.moduleRestart via) s = .next t ∧ (m = 4 ∨ m = 6 → waits t 4) ∧ (m ≠ 4 → m ≠ 6 → refused t)

/-- A doorbell index outside the ring, beyond its entries or of a disabled ring sets DB_ERR only; else it moves
the SQ tail or the CQ head. While a ring is enabled only EN := 0 acts, and the ring stops; enabling it starts
both indices at 0 with PHASE 1; a size code outside 4 to 12 sets ERR_ARG only. Only the ring whose turn it is
takes an entry: SQHEAD and CMD_CNT advance, it is in flight, and a FENCE behind commands in flight holds it; an
entry of format 2 for this module starts its command, or completes with BAD_OPCODE. A failed read or completion
write stops the ring with DMA_ERR. A completion is written at CQTAIL with the command's CID, the result, PHASE,
SQ head and value, and PHASE toggles at the wrap. A coalescing time signals the vector of a ring with
unsignalled completions. (17_host_and_backbone.md, R392; 17_host_and_backbone.md, R393; 17_host_and_backbone.md,
R394; 17_host_and_backbone.md, R395; 17_host_and_backbone.md, R396; 17_host_and_backbone.md, R397;
17_host_and_backbone.md, R398; 17_host_and_backbone.md, R399; 17_host_and_backbone.md, R400;
17_host_and_backbone.md, R413; 00_scope.md, R9). -/
def Obligations.HostRings : Prop :=
  ∀ (s : State) (m : Sys2Proof.Master) (r : Fin 16) (v : Word) (l : List Byte),
    let u := s.ringU r.val
    let size := 2 ^ s.f (RP.CFG_LOG2SIZE r.val)
    let i := getBits 0 12 v
    let ahead (a b : Nat) : Nat := (a + size - b % size) % size
    let en : Bool := s.on (RP.CFG_EN r.val)
    let head := s.f (RP.SQHEAD_V r.val)
    let tail := s.f (RP.CQTAIL_TAIL r.val)
    let badSq : Prop := size ≤ i ∨ en = false ∨ size ≤ ahead u.tail head + ahead i u.tail
    let badCq : Prop := size ≤ i ∨ en = false ∨ ahead tail u.cqHead < ahead i u.cqHead
    let badCfg : Prop := getBits 3 4 v < 4 ∨ 12 < getBits 3 4 v
    let stops (t : State) : Prop := t.on (RP.CFG_EN r.val) = false ∧ (t.ringU r.val) = Ring.reset
      ∧ t.ident.sess.get noSession (1024 + r.val) = none ∧ ∀ c ∈ t.cqes, ∀ n, c.via ≠ .ring r n
    let broken (t : State) : Prop := stops t ∧ t.on (RP.STAT_DMA_ERR r.val) = true ∧ t.on HQ.GSTAT_DMA_ERR = true
      ∧ t.ansIn.length = s.ansIn.length + 1
    let q := if s.on (RP.CFG_FORMAT r.val) then sqe1 l else sqe2 l
    let h := (head + 1) % size
    let num := BitVec.ofNat 16 ((s.f (RP.STAT_CMD_CNT r.val) + 1) % 65536)
    let plain : Prop := s.on (RP.CFG_FORMAT r.val) = false ∧ s.on (RP.CFG_TARGET r.val) = false ∧ s.romService = false
    let first := s.cqes.find? (fun (c : Cqe) => decide (viaRing c.via = some r.val))
    (s.reaches m (RP.SQDB r.val) → ∃ t : State, exec (.sqDoorbell m r v) s = .next t
        ∧ (badSq → s.flagged t (RP.STAT_DB_ERR r.val)) ∧ (¬badSq → t.ringU r.val = { u with tail := i } ∧ t.regs = s.regs))
      ∧ (s.reaches m (RP.CQDB r.val) → ∃ t : State, exec (.cqDoorbell m r v) s = .next t
        ∧ (badCq → s.flagged t (RP.STAT_DB_ERR r.val))
        ∧ (¬badCq → t.ringU r.val = { u with cqHead := i } ∧ s.wrote { t with ring := s.ring, agenda := s.agenda } [RP.STAT r.val]))
      ∧ (s.reaches m (RP.CFG r.val) → ∃ t : State, exec (.ringEnable m r v) s = .next t
        ∧ (badCfg → s.flagged t (RP.STAT_ERR_ARG r.val))
        ∧ (¬badCfg → en = true → v = s.rd (RP.CFG r.val) → t = { s with lastResp := t.lastResp })
        ∧ (¬badCfg → en = true → v.getLsbD 0 = false → stops t)
        ∧ (¬badCfg → en = false → v.getLsbD 0 = true → t.rd (RP.CFG r.val) = v ∧ t.f (RP.SQHEAD_V r.val) = 0
          ∧ t.f (RP.CQTAIL_TAIL r.val) = 0 ∧ t.on (RP.CQTAIL_PHASE r.val) = true ∧ t.ringU r.val = Ring.reset))
      ∧ (∃ t : State, exec (.sqeFetch r none) s = .next t ∧ (s.ringTurn ≠ some r.val → t = s) ∧ (s.ringTurn = some r.val → broken t))
      ∧ (∃ t : State, exec (.sqeFetch r (some l)) s = .next t ∧ (s.ringTurn ≠ some r.val → t = s)
        ∧ (s.ringTurn = some r.val → s.f (RP.CFG_LOG2SIZE r.val) ≤ 12 → t.f (RP.SQHEAD_V r.val) = h ∧ t.f (RP.STAT_CMD_CNT r.val) = (s.f (RP.STAT_CMD_CNT r.val) + 1) % 65536
          ∧ (t.ringU r.val).flight = u.flight ++ [⟨num, q.cid, h, 2⟩] ∧ t.hqNext = (r.val + 1) % 16
          ∧ (q.flags.testBit 0 = true → u.flight ≠ [] → (t.ringU r.val).held = some l ∧ t.agenda = s.agenda ∧ t.cqes = s.cqes)
          ∧ (plain → q.flags = 0 → q.rsvd = 0 → q.module = 0xFF → q.op ∉ hostCodes →
            t.cqes = s.cqes ++ [⟨.ring r num, 4, 0#64, true, none⟩])
          ∧ (plain → q.flags = 0 → q.rsvd = 0 → q.module = 0xFF → q.op ∈ hostCodes → ∀ c, q.command (.ring r num) false = some c →
            (⟨s.now, .cmd c⟩ : Due) ∈ t.agenda ∧ t.cqes = s.cqes)))
      ∧ (∃ t : State, exec (.cqeWrite r false) s = .next t ∧ (first = none → t = s)
        ∧ ∀ c n, first = some c → c.via = .ring r n → broken t)
      ∧ (∃ t : State, exec (.cqeWrite r true) s = .next t ∧ (first = none → t = s)
        ∧ ∀ c n x, s.f (RP.CFG_LOG2SIZE r.val) ≤ 12 → first = some c → c.via = .ring r n → u.flight.find? (fun y => decide (y.n = n)) = some x →
          t.f (RP.CQTAIL_TAIL r.val) = (tail + 1) % size
            ∧ t.on (RP.CQTAIL_PHASE r.val) = (if (tail + 1) % size = 0 then !s.on (RP.CQTAIL_PHASE r.val) else s.on (RP.CQTAIL_PHASE r.val))
            ∧ (t.ringU r.val).flight = flightAfter n c.final u.flight
            ∧ let e := t.host.get (fun _ => 0) (r.val * 4096 + tail)
              e % 65536 = x.cid.toNat ∧ e / 65536 % 256 = c.res % 256 ∧ e / 2 ^ 24 % 2 = (s.on (RP.CQTAIL_PHASE r.val)).toNat
                ∧ e / 2 ^ 32 % 65536 = x.head % 65536 ∧ e / 2 ^ 64 = c.val.toNat)
      ∧ ∃ t : State, exec (.msixCoalTimeout r) s = .next t
        ∧ let vec := s.f (RP.CFG_VEC r.val)
          let due : Prop := en = true ∧ s.on (RP.CFG_IEN r.val) = true ∧ 0 < u.unsig
          (¬due → t = s) ∧ (due → (t.ringU r.val) = { u with unsig := 0 }
            ∧ (s.on (MSIX.CTRL_MASK vec) = true → t.on ⟨MSIXP.PBA (vec / 32), vec % 32, 1⟩ = true)
            ∧ (s.on (MSIX.CTRL_MASK vec) = false → t.msixSent.get (fun _ => 0) vec = s.msixSent.get (fun _ => 0) vec + 1 ∧ t.regs = s.regs))

/-- NOP completes with OK while the rings are up, else with ILLEGAL_STATE. TOKEN_POST refuses tag 0 and the time
tags with BAD_ARG and else posts in READY, RUN and SAFE; NMG_SUBMIT refuses an offset outside the window or its
grid with BAD_ARG and else queues its descriptor. A forwarded entry starts its command or completes with
BAD_OPCODE; the completion of a forwarded command goes to its ring and ends the wait, and one that nothing waits
for is counted as late; without one the command completes with TIMEOUT. A lost link stops every ring and makes a
record; PERST# resets the vectors too; a trained link shows its rate and width. (17_host_and_backbone.md, R389;
17_host_and_backbone.md, R398; 17_host_and_backbone.md, R399; 17_host_and_backbone.md, R401;
17_host_and_backbone.md, R402; 17_host_and_backbone.md, R413; 22_connectors_electrical.md, R489). -/
def Obligations.HostCommandsAndLink : Prop :=
  ∀ (s : State) (via : Via) (tag cid : BitVec 16) (v ofs : Word) (src : Fin 64) (r : Fin 16) (l : List Byte) (res : Byte) (val : Wide)
      (rate width : Fin 3) (sris : Bool),
    let answers (t : State) (c : Nat) : Prop := via ≠ .none → t.cqes = s.cqes ++ [⟨via, c, 0#64, true, none⟩]
    let same (t : State) : Prop := t = { s with cqes := t.cqes, agenda := t.agenda, ansIn := t.ansIn }
    let up : Prop := s.mstate = 4 ∨ s.mstate = 5 ∨ s.mstate = 6 ∨ s.mstate = 7
    let serves : Prop := s.mstate = 4 ∨ s.mstate = 5 ∨ s.mstate = 6
    let badTag : Prop := tag = 0#16 ∨ (0xFF00 ≤ tag.toNat ∧ tag.toNat ≤ 0xFF07)
    let badOfs : Prop := ofs.toNat % 64 ≠ 0 ∨ 16777216 ≤ ofs.toNat
    let d : NmgCmd := ⟨ofs.toNat, s.load .shared ofs.toNat 64, via⟩
    let q := sqe2 l
    let fwd : Via := .rcd src r cid
    let waits (n : Nat) : Prop := ∃ x ∈ s.bbs.fwd, x.1 = r.val ∧ x.2.1 = cid ∧ x.2.2 = n
    let stopped (t : State) : Prop := ∀ k : Fin 16, t.on (RP.CFG_EN k.val) = false ∧ t.ringU k.val = Ring.reset
    let lost (t : State) : Prop := t.on HQ.GSTAT_LINK_UP = false ∧ t.on HQ.GSTAT_LINK_LOST = true ∧ stopped t
      ∧ t.ansIn.length = s.ansIn.length + 1
    (∃ t : State, exec (.nop via) s = .next t ∧ same t ∧ (up ∨ s.romService = true → answers t 0) ∧ (¬up → s.romService = false → answers t 6))
      ∧ (∃ t : State, exec (.tokenPost via tag v) s = .next t ∧ (badTag → answers t 3 ∧ same t) ∧ (¬badTag → ¬serves → answers t 6 ∧ same t)
        ∧ (¬badTag → serves → answers t 0 ∧ (∃ k, t.clvIn = s.clvIn ++ [k] ∧ k.tag = tag ∧ k.val = v) ∧ same { t with clvIn := s.clvIn }))
      ∧ (∃ t : State, exec (.nmgSubmit via ofs) s = .next t ∧ (badOfs → answers t 3 ∧ same t) ∧ (¬badOfs → ¬serves → answers t 6 ∧ same t)
        ∧ (¬badOfs → serves → d.op = 2 → s.nmg.queue.length < 16 → t.nmg.queue = s.nmg.queue ++ [d])
        ∧ (¬badOfs → serves → d.op = 4 → t.nmg.aborts = s.nmg.aborts ++ [d] ∧ (⟨s.now, .cmd .abort⟩ : Due) ∈ t.agenda))
      ∧ (∃ t : State, exec (.rcdFrameReceive src (.sqe r cid l)) s = .next t ∧ (¬up → t = s)
        ∧ (up → q.op ∉ hostCodes → t.cqes = s.cqes ++ [⟨fwd, 4, 0#64, true, none⟩] ∧ same t)
        ∧ (up → q.op ∈ hostCodes → q.flags < 2 → q.rsvd = 0 → ∀ c, q.command fwd false = some c →
          (⟨s.now, .cmd c⟩ : Due) ∈ t.agenda ∧ t.cqes = s.cqes ∧ same t))
      ∧ (∃ t : State, exec (.rcdFrameReceive src (.cqe r cid res val)) s = .next t
        ∧ (¬waits src.val → t.f BBS.DROP_LATE = min (s.f BBS.DROP_LATE + 1) 1023 ∧ s.sameBut t [BBS.DROP])
        ∧ (waits src.val → t.cqes = s.cqes ++ [⟨.ring r cid, res.toNat, val, decide (res ≠ 1#8), some src.val⟩] ∧ t.regs = s.regs
          ∧ (res = 1#8 → t.bbs = s.bbs ∧ (⟨s.now + s.f BBS.RCDTO_V * 250000, .cmd (.rcdTimeout r cid)⟩ : Due) ∈ t.agenda)
          ∧ (res ≠ 1#8 → t.bbs.fwd = fwdDrop r.val cid s.bbs.fwd ∧ ∀ e ∈ t.agenda, e.ev ≠ .cmd (.rcdTimeout r cid))))
      ∧ (∃ t : State, exec (.rcdTimeout r cid) s = .next t ∧ ((∀ n, ¬waits n) → t = s)
        ∧ ∀ n, waits n → t.cqes = s.cqes ++ [⟨.ring r cid, 7, 0#64, true, none⟩] ∧ t.bbs.fwd = fwdDrop r.val cid s.bbs.fwd ∧ t.regs = s.regs)
      ∧ (∃ t : State, exec .pcieLinkLoss s = .next t ∧ (s.mstate < 2 → t = s) ∧ (2 ≤ s.mstate → lost t))
      ∧ (∃ t : State, exec .pciePerst s = .next t ∧ (s.mstate < 2 → t = s)
        ∧ (2 ≤ s.mstate → lost t ∧ ∀ k : Fin 64, t.on (MSIX.CTRL_MASK k.val) = true ∧ t.rd (MSIX.DATA k.val) = 0#32))
      ∧ ∃ t : State, exec (.pcieLinkUp rate width sris) s = .next t ∧ (s.mstate < 2 → t = s)
        ∧ (2 ≤ s.mstate → t.f HQ.GSTAT_RATE = rate.val ∧ t.f HQ.GSTAT_WIDTH = 2 ^ width.val ∧ t.on HQ.GSTAT_LINK_UP = true
          ∧ t.on HQ.GSTAT_SRIS = sris ∧ s.sameBut t [HQ.GSTAT])

/-- A write stores RW bits, clears W1C bits that carry 1 unless the hardware sets them in the same clock, sets
W1S bits that carry 1, and keeps every other bit. In OFF and SLEEP nothing is answered. A host write in the
Saffron range is answered with an error and a record of code SAF_WRITE; another size than 32 bits and an offset
without register with an error. A write in the window stores its four bytes in shared SRAM. A host write in BAR2
stores in the LPDDR5X within its base, one in BAR4 is discarded and sets BAR4_WR, both once READY has been
entered. REG_READ and REG_WRITE complete with BAD_ARG for an offset that is none and a count that is not 1 or 2,
with ILLEGAL_STATE outside READY, RUN and SAFE, REG_READ with INTEGRITY over an error that ECC cannot correct, and else
with OK and the words read. A flag that has come up in the tick of a REG_WRITE stays. (00_scope.md, R3;
00_scope.md, R4; 00_scope.md, R5; 00_scope.md, R6; 01_cell_and_module.md, R20;
01_cell_and_module.md, R24; 01_cell_and_module.md, R25; 17_host_and_backbone.md, R390; 17_host_and_backbone.md,
R391; 17_host_and_backbone.md, R401; 02_cell_time.md, R48; 14_clove_dispatcher.md, R327). -/
def Obligations.RegisterAccess : Prop :=
  ∀ (s : State) (m : Sys2Proof.Master) (via : Via) (off size : Nat) (o v old hw : Word) (cnt : Byte) (row : RegRow) (i : Fin 32),
    let rw := row.rw.testBit i.val
    let w1c := row.w1c.testBit i.val
    let w1s := row.w1s.testBit i.val
    let w := regWrite row old v hw
    let errs (t : State) : Prop := t = { s with lastResp := .error }
    let saf : Prop := 0x01C00000 ≤ off ∧ off < 0x01E00000
    let window : Prop := 0x03000000 ≤ off ∧ off < 0x04000000
    let answers (t : State) (c val : Nat) : Prop := via ≠ .none → t.cqes = s.cqes ++ [⟨via, c, BitVec.ofNat 64 val, true, none⟩]
    let serves : Prop := s.mstate = 4 ∨ s.mstate = 5 ∨ s.mstate = 6
    let a := o.toNat
    let badRead : Prop := (cnt ≠ 1#8 ∧ cnt ≠ 2#8) ∨ hasReg a = false ∨ (cnt = 2#8 ∧ hasReg (a + 4) = false)
    let spoilt : Prop := s.readBad a = true ∨ (cnt = 2#8 ∧ s.readBad (a + 4) = true)
    let inSafO : Prop := 0x01C00000 ≤ a ∧ a < 0x01E00000
    let bar2 := s.f ⟨HQ.BAR2BASE, 0, 5⟩ * 2 ^ 28 + (off - 0x10000000)
    let hostUp : Prop := s.pws.readyOnce = true ∧ s.romService = false ∧ 2 ≤ s.mstate
    ((rw = true → w1c = false → w1s = false → w.getLsbD i.val = v.getLsbD i.val)
        ∧ (w1c = true → rw = false → w1s = false → w.getLsbD i.val = ((old.getLsbD i.val && !v.getLsbD i.val) || hw.getLsbD i.val))
        ∧ (w1s = true → rw = false → w1c = false → w.getLsbD i.val = (old.getLsbD i.val || v.getLsbD i.val))
        ∧ (rw = false → w1c = false → w1s = false → w.getLsbD i.val = old.getLsbD i.val))
      ∧ (∃ t : State, exec (.registerWrite m off size v hw) s = .next t
        ∧ (s.mstate < 2 → errs t)
        ∧ (2 ≤ s.mstate → m = .host → saf → t = { s with lastResp := .error, ansIn := t.ansIn }
          ∧ ∃ x, t.ansIn = s.ansIn ++ [x] ∧ x.code = 0x1502#16)
        ∧ (off < 0x10000000 → ¬(m = .host ∧ saf) → size ≠ 4 ∨ hasReg off = false ∨ s.reach m off = false ∨ noWrite m off = true → errs t)
        ∧ (s.reaches m off → size = 4 → off % 4 = 0 → window → t.load .shared (off - 0x03000000) 4 = v.toNat ∧ t.lastResp = .done
          ∧ (∀ b, b < off - 0x03000000 ∨ off - 0x03000000 + 4 ≤ b → b < 0x1000000 → t.byte .shared b = s.byte .shared b)
          ∧ t = { s with mem := t.mem, ecc := t.ecc, lastResp := t.lastResp })
        ∧ (m = .host → 0x10000000 ≤ off → off < 0x20000000 → size ≤ 4 →
          (hostUp → s.pws.stopped = false → bar2 + size ≤ 0x200000000 - 0x800000 → t.load .ddr bar2 size = v.toNat % 256 ^ size ∧ t.lastResp = .done)
            ∧ (¬hostUp ∨ s.pws.stopped = true ∨ 0x200000000 - 0x800000 < bar2 + size → errs t))
        ∧ (m = .host → 0x20000000 ≤ off → off < 0x21000000 → (¬hostUp → errs t)
          ∧ (hostUp → t.on HQ.GSTAT_BAR4_WR = true ∧ t.lastResp = .done ∧ s.wrote t [HQ.GSTAT])))
      ∧ (∃ t : State, exec (.regRead via o cnt) s = .next t
        ∧ (badRead → answers t 3 0) ∧ (¬badRead → ¬serves → answers t 6 0 ∧ t.ansIn.length = s.ansIn.length + 1)
        ∧ (¬badRead → serves → spoilt → answers t 9 0)
        ∧ (¬badRead → serves → ¬spoilt → cnt = 1#8 → answers t 0 (s.readWord .host a).toNat)
        ∧ (¬badRead → serves → ¬spoilt → cnt = 2#8 → ∃ lo hi : Word, lo = s.readWord .host a ∧ answers t 0 (hi.toNat * 2 ^ 32 + lo.toNat)
          ∧ hi = (s.readTakes .host a).readWord .host (a + 4))
        ∧ t.mem = s.mem ∧ (badRead ∨ ¬serves → t.regs = s.regs))
      ∧ ∃ t : State, exec (.regWrite via o v) s = .next t
        ∧ (inSafO → answers t 3 0 ∧ (∃ x, t.ansIn = s.ansIn ++ [x] ∧ x.code = 0x1502#16) ∧ t.regs = s.regs)
        ∧ (¬inSafO → hasReg a = false → answers t 3 0 ∧ t.regs = s.regs ∧ t.mem = s.mem)
        ∧ (¬inSafO → hasReg a = true → ¬serves → answers t 6 0 ∧ t.regs = s.regs ∧ t.mem = s.mem)
        ∧ (hasReg a = true → serves → s.pws.readyOnce = true → 0x03000000 ≤ a → a < 0x04000000 → answers t 0 0
          ∧ t.load .shared (a - 0x03000000) 4 = v.toNat ∧ t.regs = s.regs)
        ∧ (serves → a = PWS.STAT → regRow a = some row → answers t 0 0
          ∧ t.rd a = regWrite row (s.rd a) v (s.rd a &&& ~~~(s.was.get regReset a)))

/-- The first frame of a class leaves an up port, with its egress time, when no higher class may start and its
gate fits it; of a preemptable one a fragment leaves, and the rest waits; an own Sync message leaves with the egress time
on its own base, and a relayed message with the time it stayed added to its correction. A frame on a port that is down is
nothing; another is stamped with its time of arrival in 125 ps; one of a size that the port does not support, or with a
wrong header, is dropped, counted and recorded; one in excess of its class is counted; one of another EtherType waits in
Q47, a good one in the queue of its class, and a duplicate of its stream is counted and not delivered; the first frame of
a receive queue becomes the command for the one that reads it. A frame of BBI that is no stream waits at every linked
port. A lost link clears the port's state with a record, a new
one of a rate that the port has and CFG.SPEED allows shows speed and latencies. A module above 1 W keeps its port down. A commit checks the list and makes it pending, from the first
instant of its grid at least 2 µs ahead; a pending list takes effect once its cycle begins; an entry that ends
gives way to the next, the last to the next cycle. A reset of a stream and the ageing of an address forget them.
(17_host_and_backbone.md, R403; 17_host_and_backbone.md, R404; 02_cell_time.md, R43;
17_host_and_backbone.md, R406; 17_host_and_backbone.md, R407; 17_host_and_backbone.md, R408;
17_host_and_backbone.md, R409; 17_host_and_backbone.md, R410; 17_host_and_backbone.md, R411;
17_host_and_backbone.md, R412; 17_host_and_backbone.md, R414; 22_connectors_electrical.md, R487). -/
def Obligations.BackboneSwitch : Prop :=
  ∀ (s : State) (m : Sys2Proof.Master) (p : Fin 7) (p6 : Fin 6) (p4 : Fin 4) (tc cls : Fin 8) (f : CellFrame) (rtag : Option (BitVec 16))
      (size came : Nat) (hot pre one : Bool) (speed : Fin 5) (tx rx v : Word) (src : Fin 64) (mac : BitVec 48) (b : Fin 2) (tr : PtpTransport) (corr : Int),
    let up (k : Nat) : Prop := s.on (BBP.CFG_EN k) = true ∧ s.on (BBP.STAT_LINK k) = true
    let may : Prop := up p.val ∧ s.mayStart p.val tc.val = true ∧ ∀ c : Fin 8, tc < c → s.mayStart p.val c.val = false
    let key := f.src.toNat % 64 * 8 + f.cls.toNat
    let streamed : Prop := s.classFrer f.cls.toNat = true ∧ p6.val < 4
    let n := getBits 0 9 v
    let list := (List.range n).map (fun k => (s.f (BBP.GCL_GATES p.val k), s.f (BBP.GCL_INTERVAL p.val k)))
    let ct := s.f (BBP.GCLCYC_V p.val)
    let badList : Prop := (list.map (·.2)).sum ≠ ct ∨ ∃ e ∈ list, e.2 < 100
    let soon := s.cellNs + 2000
    let base := s.wc 0 * 2 ^ 32 + (s.rd (BBP.GCLBASE p.val)).toNat
    let egress (k : Nat) : Nat := (s.baseTime k + s.f (BBP.TXLAT_V p.val)) % 2 ^ 43
    let stream := f.src.toNat % 64 * 8 + f.cls.toNat % 8
    let fits : Prop := 64 ≤ size ∧ size ≤ 1522
    let cell : Prop := fits ∧ f.etype = 0x88B5#16
    let within : Prop := s.excess p6.val stream size = false
    let sameIn (t : State) : Prop := s.sameBut { t with bbs := s.bbs, agenda := s.agenda, ansIn := s.ansIn } [BBS.DROP]
    let waits (t : State) (k : Nat) : Prop := t.rxQueue k = s.rxQueue k ++ [f] ∧ (∀ j, j ≠ k → t.rxQueue j = s.rxQueue j)
      ∧ t.regs = s.regs ∧ t.ansIn = s.ansIn
    let sends : Prop := up p.val ∧ p.val < 6 ∧ (tr = .l2 ∨ (tr = .udp4 ∧ b = 1))
      ∧ ∀ left, s.gateLeft p.val 7 = some left → 84 * byteTime (s.f (BBP.STAT_SPEED_ACT p.val)) ≤ left * 10
    let leaves (t : State) (w : WireFrame) : Prop := t.bbs.wire.get (fun _ => none) p.val = some w
      ∧ t = { s with bbs := { s.bbs with wire := t.bbs.wire } }
    (∃ t : State, exec (.frameTransmit p (.sync b tr one)) s = .next t ∧ (¬sends → t = s)
        ∧ (sends → leaves t (.sync b (decide (tr = .udp4)) one (BitVec.ofNat 32 (egress b.val / 8)) (egress b.val / 2 ^ 35) (egress b.val % 8))))
      ∧ (∃ t : State, exec (.frameTransmit p (.relay b tr came corr)) s = .next t ∧ (¬sends → t = s)
        ∧ (sends → leaves t (.relay b (decide (tr = .udp4)) (corr + ((egress b.val + 2 ^ 43 - came % 2 ^ 43) % 2 ^ 43 : Nat)))))
      ∧ (p.val < 6 → ∃ t : State, exec (.frameTransmit p (.queued tc)) s = .next t ∧ (s.txQueue p.val tc.val = [] ∨ ¬may → t = s)
        ∧ ∀ x l n, s.txQueue p.val tc.val = x :: l → may → s.mayLeave p.val tc.val = some n → t.regs = s.regs
          ∧ let whole := frameBytes x.frame.n x.rtag.isSome
            let g : CellFrame := if x.sent = 0 then { x.frame with tx := BitVec.ofNat 32 (egress 0 / 8) } else x.frame
            let out (w : WireFrame) : Prop := t.bbs.wire.get (fun _ => none) p.val = some w
            (x.sent = 0 → n = whole → out (.cell g)) ∧ (x.sent ≠ 0 ∨ n < whole → out (.fragment g x.sent n))
              ∧ (whole ≤ x.sent + n → t.txQueue p.val tc.val = l)
              ∧ (x.sent + n < whole → t.txQueue p.val tc.val = { x with frame := g, sent := x.sent + n } :: l))
      ∧ (∃ t : State, exec (.bbsFrameReceive p6 f rtag size) s = .next t ∧ (¬up p6.val → t = s)
        ∧ (up p6.val → t.bbs.ingress.get (fun _ => 0) p6.val = (s.baseTime 0 + 2 ^ 43 - s.f (BBP.RXLAT_V p6.val)) % 2 ^ 43)
        ∧ (up p6.val → fits → f.etype ≠ 0x88B5#16 → waits t 47)
        ∧ (up p6.val → cell → ¬within → t.f BBS.DROP_METER = min (s.f BBS.DROP_METER + 1) 1023 ∧ s.sameBut { t with bbs := s.bbs } [BBS.DROP])
        ∧ (up p6.val → ¬fits ∨ (cell ∧ within ∧ s.headerGood f = false) → t.f BBS.DROP_HDR = min (s.f BBS.DROP_HDR + 1) 4095
          ∧ t.ansIn.length = s.ansIn.length + 1 ∧ sameIn t)
        ∧ (up p6.val → cell → within → s.headerGood f = true → rtag = none ∨ ¬streamed → waits t (39 + f.cls.toNat)
          ∧ (⟨s.now, .rxTake (39 + f.cls.toNat)⟩ : Due) ∈ t.agenda)
        ∧ (up p6.val → cell → within → s.headerGood f = true → streamed → ∀ q, rtag = some q → (frerStep (s.bbs.frer.get noFrer key) q).pass = false →
          t.f (BBP.FRER_DISC p6.val) = min (s.f (BBP.FRER_DISC p6.val) + 1) 65535 ∧ t.ansIn = s.ansIn ∧ t.bbs.rxq = s.bbs.rxq
            ∧ ∀ d ∈ t.agenda, d ∈ s.agenda ∨ d.ev = .cmd (.addressTableAgeing f.mac)))
      ∧ (∀ k l, s.rxQueue k = f :: l → (s.rxTake k).rxQueue k = l ∧ (f.etype = 0x88B5#16 → f.src.toNat = src.val →
        let dueNow (c : Instr) : Prop := (⟨s.now, .cmd c⟩ : Due) ∈ (s.rxTake k).agenda
        (∀ y, f.body = .bytes y → (f.cls = 1#8 → dueNow (.cycleFrameReceive src y))
            ∧ (f.cls = 2#8 → dueNow (.stateFrameReceive src y)) ∧ (f.cls = 3#8 → dueNow (.safeFrameReceive y))
            ∧ (f.cls = 5#8 → ∃ b, dueNow (.hbReceive src b y)))
          ∧ (∀ i k c, f.body = .ckpt i k c → f.cls = 4#8 → dueNow (.ckptReceive src i k c))
          ∧ ∀ x, f.body = .rcd x → f.cls = 6#8 → dueNow (.rcdFrameReceive src x)))
      ∧ (∀ x l, s.txQueue 6 tc.val = x :: l → x.ports = [] → s.classFrer x.frame.cls.toNat = false →
        ∃ t : State, exec (.frameTransmit 6 (.queued tc)) s = .next t ∧ t.txQueue 6 tc.val = l ∧ t.regs = s.regs
          ∧ ∀ k : Fin 6, t.txQueue k.val tc.val = s.txQueue k.val tc.val ++ (if s.on (BBP.STAT_LINK k.val) = true then [x] else []))
      ∧ (∃ t : State, exec (.bbsLinkDown p6) s = .next t ∧ (s.on (BBP.STAT_LINK p6.val) = false → t = s)
        ∧ (s.on (BBP.STAT_LINK p6.val) = true → t.on (BBP.STAT_LINK p6.val) = false ∧ t.f (BBP.STAT_SPEED_ACT p6.val) = 0
          ∧ t.on (BBP.STAT_PREEMPT_ACT p6.val) = false ∧ t.ansIn.length = s.ansIn.length + 1
          ∧ s.sameBut { t with ansIn := s.ansIn } [BBP.STAT p6.val]))
      ∧ (∃ t : State, exec (.bbsLinkUp p6 speed pre tx rx) s = .next t
        ∧ let blocked : Prop := speed = 0 ∨ speed.val ∉ portSpeeds p6.val
            ∨ (s.f (BBP.CFG_SPEED p6.val) ≠ 0 ∧ s.f (BBP.CFG_SPEED p6.val) ≠ speed.val) ∨ s.on (BBP.CFG_EN p6.val) = false ∨ s.bbs.sfpOff.testBit p6.val = true ∨ s.mstate < 2
          (blocked → t = s) ∧ (¬blocked → t.on (BBP.STAT_LINK p6.val) = true ∧ t.f (BBP.STAT_SPEED_ACT p6.val) = speed.val
            ∧ t.on (BBP.STAT_PREEMPT_ACT p6.val) = (pre && s.on (BBP.CFG_PREEMPT p6.val)) ∧ t.f (BBP.TXLAT_V p6.val) = tx.toNat % 2 ^ 24
            ∧ t.f (BBP.RXLAT_V p6.val) = rx.toNat % 2 ^ 24 ∧ s.sameBut t [BBP.STAT p6.val, BBP.TXLAT p6.val, BBP.RXLAT p6.val]))
      ∧ (∃ t : State, exec (.sfpModuleInsert p4 hot) s = .next t ∧ t.bbs.sfpOff.testBit p4.val = hot
        ∧ (hot = true → t.on (BBP.STAT_LINK p4.val) = false ∧ t.ansIn.length = s.ansIn.length + 1) ∧ (hot = false → t.regs = s.regs))
      ∧ (s.reaches m (BBP.GCLCTRL p.val) → ∃ t : State, exec (.gclCommit m p v) s = .next t
        ∧ (4 ≤ p.val ∨ n = 0 ∨ 256 < n → s.flagged t (BBP.STAT_ERR_ARG p.val))
        ∧ (p.val < 4 → 1 ≤ n → n ≤ 256 → t.f (BBP.GCLCTRL_LEN p.val) = n
          ∧ (v.getLsbD 9 = false ∨ badList → t.gclPend p.val = s.gclPend p.val)
          ∧ (v.getLsbD 9 = true → badList → t.on (BBP.STAT_GCL_ERR p.val) = true)
          ∧ (v.getLsbD 9 = true → ¬badList → t.on (BBP.STAT_GCL_PEND p.val) = true ∧ ∃ g, t.gclPend p.val = some g ∧ g.list = list ∧ g.ct = ct
            ∧ ∃ k, g.start = (base + k * ct) % 2 ^ 40 ∧ soon ≤ base + k * ct ∧ (k ≠ 0 → base + k * ct < soon + ct))))
      ∧ (∃ t : State, exec (.gclActivate p) s = .next t ∧ (s.gclPend p.val = none → t = s)
        ∧ ∀ g, s.gclPend p.val = some g → (s.gclDue g = false → t = s)
          ∧ (s.gclDue g = true → t.gclOper p.val = some g ∧ t.gclPend p.val = none ∧ t.f (BBP.GCLOPER_ENTRY p.val) = 0
            ∧ t.on (BBP.GCLOPER_OPER_VALID p.val) = true ∧ t.on (BBP.STAT_GCL_PEND p.val) = false))
      ∧ (∃ t : State, exec (.gateIntervalEnd p) s = .next t ∧ (s.gclOper p.val = none → t = s)
        ∧ ∀ g, s.gclOper p.val = some g → let k := s.f (BBP.GCLOPER_ENTRY p.val) + 1
          (s.cellAt (s.gateEnd p.val g) = false → t = s)
            ∧ (s.cellAt (s.gateEnd p.val g) = true → k < g.list.length → k < 512 → t.f (BBP.GCLOPER_ENTRY p.val) = k ∧ t.gclOper p.val = some g)
            ∧ (s.cellAt (s.gateEnd p.val g) = true → g.list.length ≤ k → t.f (BBP.GCLOPER_ENTRY p.val) = 0
              ∧ t.gclOper p.val = some { g with start := (g.start + g.ct) % 2 ^ 40 }))
      ∧ (∃ t : State, exec (.frerRecoveryReset src cls) s = .next t ∧ t.bbs.frer.get noFrer (src.val * 8 + cls.val) = none
        ∧ t = { s with bbs := { s.bbs with frer := t.bbs.frer } })
      ∧ ∃ t : State, exec (.addressTableAgeing mac) s = .next t ∧ (∀ x ∈ t.bbs.fdb, x.1 ≠ mac) ∧ (∀ x ∈ s.bbs.fdb, x.1 ≠ mac → x ∈ t.bbs.fdb)
        ∧ t = { s with bbs := { s.bbs with fdb := t.bbs.fdb } }

/-- A worker sends the state of its covered ports in one fragment, above 90 ports in two; no other module sends
one. Starvation of 100 ms on an assigned generator asks for SS1 with a record, where it is not requested yet. A heartbeat of a watched unit is
remembered on its path with its epoch and flags; a higher epoch is obeyed: the pair unit that it names becomes
ACTIVE, an ACTIVE one that it does not name is fenced; a lower epoch changes no epoch. Where the witness is silent
REDUNDANT falls, and a pair unit shows WIT_LOST with a record. The witness keeps the last sixteen complete checkpoints. A promoted unit
takes plan number, miss run and history from the newest checkpoint it has fetched.
(18_manager_workers_failover.md, R418; 18_manager_workers_failover.md, R420; 18_manager_workers_failover.md,
R421; 18_manager_workers_failover.md, R422; 18_manager_workers_failover.md, R424;
18_manager_workers_failover.md, R426; 18_manager_workers_failover.md, R427). -/
def Obligations.FailOver : Prop :=
  ∀ (s : State) (g : Fin 128) (src : Fin 64) (pathB : Bool) (l : List Byte) (frag nfrag : Nat) (c : Ckpt) (cs : List Ckpt) (ofs : Word),
    let ports := s.covered.length
    let roles : Prop := s.isWorker = true ∨ s.isManager = true ∨ s.isActive = true
    let starves : Prop := roles ∧ s.f (PRG.CFG_SRC g.val) = 2 ∧ s.on (PRG.STAT_STARVED g.val) = true
      ∧ s.on FOV.STAT_SS1_REQ = false
    let known : Prop := (src.val ∈ s.pairMods ∨ s.witnessMod = some src.val) ∧ src.val ≠ s.ownMod
    let epoch := BitVec.ofNat 32 (leNat (sub l 4 4))
    let active := leNat (sub l 8 1)
    let higher : Prop := (s.rd FOV.EPOCH).toNat < epoch.toNat
    let part (t : State) : Nat := t.f FOV.STAT_PART
    let gone : Prop := ∃ w, s.witnessMod = some w ∧ s.silent w = true ∧ w ≠ s.ownMod
    let shows : Prop := s.isPair = true ∧ s.on FOV.STAT_WIT_LOST = false
    let keeps : Prop := s.isWitness = true ∧ src.val ∈ s.pairMods
    (∃ t : State, exec .stateFrameSend s = .next t ∧ (s.isWorker = false ∨ ports = 0 → t = s)
        ∧ (s.isWorker = true → t = { s with bbs := t.bbs }
          ∧ t.bbs.hseq.get zeroW 2 = s.bbs.hseq.get zeroW 2 + BitVec.ofNat 32 (if ports = 0 then 0 else if ports ≤ 90 then 1 else 2)))
      ∧ (∃ t : State, exec (.starveSs1Timeout g) s = .next t ∧ (¬starves → t = s)
        ∧ (starves → t.on SAF.REQ_FOV_SS1 = true ∧ t.on FOV.STAT_SS1_REQ = true ∧ t.ansIn.length = s.ansIn.length + 1
          ∧ s.sameBut { t with ansIn := s.ansIn } [SAF.REQ, FOV.STAT]))
      ∧ (∃ t : State, exec (.hbReceive src pathB l) s = .next t ∧ (¬known → t = s)
        ∧ (known → s.isWitness = false →
          (t.hbRec src.val).epoch = epoch ∧ (t.hbRec src.val).active = active ∧ (t.hbRec src.val).flags = leNat (sub l 10 1)
            ∧ (t.hbRec src.val).atA = (if pathB then (s.hbRec src.val).atA else some s.now)
            ∧ (t.hbRec src.val).atB = (if pathB then some s.now else (s.hbRec src.val).atB)
            ∧ (¬higher → t.rd FOV.EPOCH = s.rd FOV.EPOCH ∧ part t = part s)
            ∧ (higher → t.rd FOV.EPOCH = epoch ∧ (active < 64 → t.f FOV.ACTIVE_MOD = active ∧ t.on FOV.ACTIVE_VALID = true))
            ∧ (higher → s.isPair = true → active = s.ownMod → part t = 1)
            ∧ (higher → s.isActive = true → active ≠ s.ownMod → part t = 4 ∧ t.on FOV.STAT_FENCED = true)
            ∧ (higher → s.isPair = true → s.isActive = false → active ≠ s.ownMod → part t = part s)))
      ∧ (∃ t : State, exec .witnessLost s = .next t ∧ (¬gone → t = s)
        ∧ (gone → t.on FOV.STAT_REDUNDANT = false ∧ s.sameBut { t with ansIn := s.ansIn } [FOV.STAT]
          ∧ (shows → t.on FOV.STAT_WIT_LOST = true ∧ t.ansIn.length = s.ansIn.length + 1)
          ∧ (¬shows → t.on FOV.STAT_WIT_LOST = s.on FOV.STAT_WIT_LOST ∧ t.ansIn = s.ansIn)))
      ∧ (∃ t : State, exec (.ckptReceive src frag nfrag c) s = .next t ∧ (¬keeps → t = s)
        ∧ (keeps → nfrag ≤ 1 → t.fov.ckpts = (c :: s.fov.ckpts).take 16 ∧ t.fov.coming = none ∧ t.rd FOV.CKPT = c.plan)
        ∧ (keeps → 2 ≤ nfrag → s.fov.coming = none → t.fov.ckpts = s.fov.ckpts ∧ t.fov.coming = some (c, nfrag, [frag]) ∧ t.regs = s.regs))
      ∧ ∃ t : State, exec (.ckptFetchDone cs ofs) s = .next t ∧ (¬(s.isActive = true ∧ s.fov.promote = true) → t = s)
        ∧ (s.isActive = true → s.fov.promote = true → t.fov.promote = false ∧ t.fov.takeover = true ∧ t.fov.ckpts = cs.take 16
          ∧ (cs = [] → t.regs = s.regs ∧ t.plc = s.plc)
          ∧ ∀ k ks, cs = k :: ks → t.rd PLC.PLAN = k.plan ∧ t.f PLC.STAT_MISS_RUN = k.missRun % 32 ∧ t.plc.next = nextPlan k.plan
            ∧ t.plc.plans.length = min cs.length 16 ∧ t.on SAF.REQ_PLAN_SLS = k.slsReq)

/-- Under conditions on the state and the operands alone, these commands complete with their own effect: a due
comparator counts; Saffron's cycle start counts the cycle and its output point notes the module's state, while an
overrun or a supply fault is the hardware fault that puts every group in STO; the start, samples, pulses, checks and
frames of Saffron note what they bring; door commands taken set their result, waits end where the spec says; field
inputs, outputs and supplies move their registers; the capture engine arms, stops and writes its record; tokens are
stored or counted; the recorder flushes; a register takes a write; a period starts and ends, an output turns on, a
trigger pulse falls; latches set by software, clear, and take their enables and SAFE word; a current set is read, a group
and a port are configured; a bank word, a hook and a swap are written; a generator takes CFG, wide words and a knot, and a
chopper goes ON; Nutmeg's iterations, builds and refactorisations end or start; a late plan is dropped; an image command
starts; supply inputs and the store set their status. (02_cell_time.md, R37;
11_saffron_safety.md, R232; 11_saffron_safety.md, R244; 11_saffron_safety.md, R248; 11_saffron_safety.md, R254;
11_saffron_safety.md, R267; 12_doors_and_field_io.md, R284; 12_doors_and_field_io.md, R296;
13_capture_engine.md, R303; 14_clove_dispatcher.md, R327; 19_anise_recorder.md, R436; 21_power_startup_recovery.md, R463). -/
def Obligations.OwnEffects : Prop :=
  (∀ (s : State) (c : Fin 128) (sw : Option Word) (dis : Bool), s.on (TCMP.CTRL_EN c.val) = true →
      0 ≤ (s.rd (TB.NS (s.f (TCMP.CTRL_BASE c.val))) - s.rd (TCMP.VALUE c.val)).toInt →
      ∃ t : State, exec (.tcmpFire c sw dis) s = .next t ∧ t.f (TCMP.STAT_FIRE_CNT c.val) = (s.f (TCMP.STAT_FIRE_CNT c.val) + 1) % 65536)
    ∧ (∀ (s : State) (g : Fin 12) (ppm : Int) (contra no nc : BitVec 12) (hs good cover used : Bool) (a b : BitVec 16)
        (i : Fin 16) (k : Fin 4),
      let failed (t : State) (c : Nat) : Prop := t.saf.hard = true ∧ (∀ j : Fin 12, t.groupIn j.val = true) ∧ ∃ f ∈ t.saf.faults, f.code = c
      let x := s.siIn i.val
      (∃ t : State, exec (.safetyCycleStart ppm contra) s = .next t ∧ t.f SAF.STAT_CYCLE = (s.f SAF.STAT_CYCLE + 1) % 65536)
        ∧ (∃ t : State, exec .safetyOutputPoint s = .next t ∧ t.saf.lastMod = s.mstate ∧ ∀ d ∈ t.agenda, d.ev ≠ .cmd .safetyCycleOverrun)
        ∧ (∃ t : State, exec .safetyCycleOverrun s = .next t ∧ failed t 7)
        ∧ (∃ t : State, exec .safetySupplyFault s = .next t ∧ failed t 6)
        ∧ (∃ t : State, exec (.safcDiagnostic (.cell 5) false) s = .next t ∧ failed t 6)
        ∧ (s.relStage g.val = 1 → ∃ t : State, exec (.stoReleaseCheck g true) s = .next t ∧ t.relStage g.val = 2)
        ∧ (s.groupIn g.val = false → s.switches g.val = 3 → ∃ t : State, exec (.stogSwitchTest g hs good) s = .next t ∧ t.switches g.val = (if hs then 2 else 1))
        ∧ (∃ t : State, exec (.stogOvercurrent g) s = .next t ∧ t.switches g.val = 0)
        ∧ (∃ t : State, exec (.saffronStart no nc cover used) s = .next t ∧ t.saf.started = true ∧ t.f SAF.STAT_PSET = no.toNat % 16)
        ∧ (∃ t : State, exec (.sealSample no nc cover) s = .next t ∧ t.saf.cover = cover)
        ∧ (s.psetOk = true → s.pset.func i.val ≠ 0 → s.inWindow (s.pset.u (oINPUT i.val + 4) 1) = false →
          s.inWindow (s.pset.u (oINPUT i.val + 5) 1) = false →
          ∃ t : State, exec (.siSample a b) s = .next t ∧ (t.siIn i.val).sa = a.getLsbD i.val ∧ (t.siIn i.val).sb = b.getLsbD i.val)
        ∧ (siDisagree (s.siAnti i.val) x.a x.b = true → x.flt = false →
          ∃ t : State, exec (.siDiscrepancy i) s = .next t ∧ (t.siIn i.val).flt = true ∧ (t.siIn i.val).dem = true)
        ∧ (∃ t : State, exec (.testPulse k used a b) s = .next t ∧ t.on (bitAt SAF.SI_TPOK k.val) = used)
        ∧ (s.on SAF.STAT_DEGRADED = true → ∃ t : State, exec .degradedEnd s = .next t ∧ t.saf.ss1All = true))
    ∧ (∀ (s : State) (m : Sys2Proof.Master) (l : List Byte) (c : Fin 32) (d : Fin 8) (p : Fin 96) (v : Word),
      let id := leNat (sub l 0 2)
      let n := leNat (sub l 3 1)
      ((List.range 32).find? (fun j => s.psetOk && decide (id ≠ 0) && decide (s.pset.connId j = id)) = some c.val →
          s.pset.u (oCONN c.val + 2) 1 = leNat (sub l 2 1) → n ≤ 64 → l.length = 16 + 20 * n + 4 →
          safeCrc id (l.take (16 + 20 * n)) = leNat (sub l (16 + 20 * n) 4) → s.connFrame c.val = none →
          ∃ t : State, exec (.safeFrameReceive l) s = .next t ∧ t.on (connBit c.val) = true)
        ∧ (s.on (connBit c.val) = true → ∃ t : State, exec (.connTimeout c) s = .next t ∧ t.on (connBit c.val) = false)
        ∧ (s.dlk d.val = true → ∃ t : State, exec (.dlkOvercurrent d) s = .next t ∧ t.dlk d.val = false)
        ∧ (s.reaches m SAF.REQ → ∃ t : State, exec (.safRequestWrite m v) s = .next t ∧ t.f SAF.REQ_UNLOCK = getBits 8 8 v)
        ∧ (s.reaches m (SAF.EST_TAG p.val) → ∃ t : State, exec (.safEstCommit m p v) s = .next t ∧ (t.sfJoint p.val).est = s.rdI (SAF.EST p.val)))
    ∧ (∀ (s : State) (m : Sys2Proof.Master) (d : Fin 8) (seq : BitVec 16) (v : Word),
      let st := s.f (DOR.STAT_STATE d.val)
      let does (i : Instr) (c : Nat) : Prop := ∃ t : State, exec i s = .next t ∧ t.f (DOR.RES_RESULT d.val) = c ∧ t.f (DOR.RES_SEQ d.val) = seq.toNat
      (s.reaches m (DOR.CMD d.val) → s.mstate = 5 → s.on (DOR.CFG_EN d.val) = true →
          (st = 0 → does (.doorOpen m d seq) 1) ∧ (st = 0 → does (.doorClose m d seq) 0) ∧ (st = 2 ∨ st = 4 ∨ st = 6 → does (.doorStop m d seq) 1)
            ∧ (st = 0 → does (.doorLearn m d seq) 0) ∧ (st = 8 → s.doorCause d.val = false → does (.doorReset m d seq) 0))
        ∧ (s.reaches m (DOR.CFG d.val) → s.doorCfgBad d.val v = false → s.on (DOR.CFG_EN d.val) = false →
          ∃ t : State, exec (.doorCfgWrite m d v) s = .next t ∧ t.f ⟨DOR.CFG d.val, 0, 12⟩ = v.toNat % 4096)
        ∧ (s.on (doorBit SAF.DOOR_DLK d.val) = false → st = 1 → (s.doorU d.val).granted = false →
          ∃ t : State, exec (.doorGrantTimeout d) s = .next t ∧ t.f (DOR.STAT_STATE d.val) = 0)
        ∧ (st = 1 → (s.doorU d.val).granted = true → s.on (doorBit SAF.DOOR_CLOSED_LOCKED d.val) = true →
          ∃ t : State, exec (.doorLockTimeout d) s = .next t ∧ t.on (DOR.STAT_LOCK_TO d.val) = true))
    ∧ (∀ (s : State) (m : Sys2Proof.Master) (c : Fin 32) (b : Fin 2) (code : Fin 4) (mv : BitVec 16) (v : Word),
      let mode := s.f (FIO.CHCFG_MODE c.val)
      (s.reaches m (FIO.CHCFG c.val) → getBits 0 2 v ≠ 3 →
          ∃ t : State, exec (.fioChcfgWrite m c v) s = .next t ∧ t.f ⟨FIO.CHCFG c.val, 0, 9⟩ = v.toNat % 512)
        ∧ (s.reaches m FIO.OUT → ∃ t : State, exec (.fioOutWrite m v) s = .next t ∧ t.rd FIO.OUT = v)
        ∧ (s.reaches m FIO.OUTSET → ∃ t : State, exec (.fioOutset m v) s = .next t ∧ t.rd FIO.OUT = s.rd FIO.OUT ||| v)
        ∧ (s.reaches m FIO.OUTCLR → ∃ t : State, exec (.fioOutclr m v) s = .next t ∧ t.rd FIO.OUT = s.rd FIO.OUT &&& ~~~v)
        ∧ (s.fioSampleDue = true → mode = 1 → s.on (FIOB.STAT_VALID (c.val / 16)) = true → s.fio.cand.getLsbD c.val ≠ v.getLsbD c.val →
          ∃ t : State, exec (.fioInputSample v) s = .next t ∧ t.fio.cnt.get (fun _ => 0) c.val = 1)
        ∧ (mode = 2 → (s.rd FIO.OUTACT).getLsbD c.val = true → code = 3 → s.fio.since.get (fun _ => 0) c.val ≤ s.now →
          ∃ t : State, exec (.fioChannelFault c code) s = .next t ∧ (t.rd FIO.CHFLT).getLsbD c.val = true ∧ (t.rd FIO.OUTACT).getLsbD c.val = false)
        ∧ (∃ t : State, exec (.fioSupplySag b mv) s = .next t ∧ t.f (FIOB.VF_V b.val) = mv.toNat)
        ∧ (∃ t : State, exec (.fioSupplyRestore b mv) s = .next t ∧ t.f (FIOB.VF_V b.val) = mv.toNat)
        ∧ (s.reaches m (FIOB.CTRL b.val) → s.on (FIOB.STAT_SAG b.val) = false →
          ∃ t : State, exec (.outRearm m b) s = .next t ∧ t.on (FIOB.STAT_OUTOFF b.val) = false))
    ∧ (∀ (s : State) (m : Sys2Proof.Master) (ev : CapEvent) (ns v : Word) (frac : Fin 32) (wc : Byte),
      let st := s.f CAP.STAT_STATE
      let posts (i : Instr) : Prop := ∃ t : State, exec i s = .next t ∧ t.f CAP.STAT_STATE = 3
      let fills : Prop := (st = 1 ∨ st = 2) ∧ s.f CAP.CFG_MODE ≠ 2 ∧ s.cap.trigAt ≠ some s.now ∧ s.cap.rowAt ≠ some s.now ∧ 1 ≤ s.f CAP.LEN_POST
      let size := (64 + 4 * s.capChans.length * (s.f CAP.LEN_PRE + s.f CAP.LEN_POST) + 32 * s.capChans.length + 63) / 64 * 64
      (s.reaches m CAP.CTRL → st = 0 → s.mstate = 5 → s.capChans ≠ [] → s.f CAP.CFG_MODE ≠ 2 → 1 ≤ s.f CAP.LEN_PRE → s.f CAP.TRIG_SRC ≠ 0 →
          size ≤ 1048576 → s.rd CAP.WRPTR = s.rd CAP.RDPTR → s.cap.dones = [] →
          ∃ t : State, exec (.capStart m) s = .next t ∧ t.f CAP.STAT_STATE = 1 ∧ t.cap.live = true)
        ∧ (s.reaches m CAP.CTRL → st ≠ 0 → ∃ t : State, exec (.capStop m) s = .next t ∧ t.f CAP.STAT_STATE = 0)
        ∧ (s.reaches m CAP.CTRL → fills → posts (.capForce m)) ∧ (s.capSelects ev = true → fills → posts (.capTrigger ev ns frac wc))
        ∧ (st = 4 → s.cap.rearmAt = some s.now → s.f CAP.CFG_MODE = 2 → ∃ t : State, exec .capRearm s = .next t ∧ (t.f CAP.STAT_STATE = 3 ∨ t.f CAP.STAT_STATE = 5))
        ∧ (∀ d ds, s.cap.dones = d :: ds → ∃ t : State, exec .capRecordCommit s = .next t ∧ t.cap.dones = ds ∧ t.on CAP.STAT_REC = true)
        ∧ (s.reaches m CAP.RDPTR → v.toNat % 64 = 0 → (v - s.rd CAP.RDPTR).toNat ≤ (s.rd CAP.WRPTR - s.rd CAP.RDPTR).toNat →
          ∃ t : State, exec (.capRdptrWrite m v) s = .next t ∧ t.rd CAP.RDPTR = v))
    ∧ (∀ (s : State) (m : Sys2Proof.Master) (tag : BitVec 16) (v : Word) (tb good : Bool) (e : Fin 15) (r : Rec),
      (s.queueFull = false → s.clv.fifo = [] → tag ≠ 0#16 → tag.toNat < 0xFF00 → s.f NMG.TAGS_CMD_TAG ≠ tag.toNat → s.f (CLV.PARK_V (tag.toNat % 8)) = 0 →
          s.waiterFor tag.toNat = none → s.clv.store.length < 4096 →
          ∃ t : State, exec (.tokenArrive tag v tb) s = .next t ∧ t.clv.store = s.clv.store ++ [⟨tag, v, 0⟩])
        ∧ (s.queueFull = true → ∃ t : State, exec .overflowTimeout s = .next t ∧ t.on CLV.STAT_OVF_FULL = true)
        ∧ (∀ k, s.clv.park = [k] → s.clv.fifo = [] → s.f NMG.TAGS_CMD_TAG ≠ k.tag.toNat → s.waiterFor k.tag.toNat = none → s.clv.store.length < 4096 →
          ∃ t : State, exec .overflowDrain s = .next t ∧ t.clv.park = [] ∧ t.clv.store = s.clv.store ++ [k])
        ∧ (s.reaches m CLV.POST_TAG → ∃ t : State, exec (.clvPost m v) s = .next t
          ∧ t.clvIn = s.clvIn ++ [⟨v.setWidth 16, s.bankRd m CLV.POST_VAL, 2000 + m.idx⟩])
        ∧ (∀ w, s.runningOn e.val = some w → s.graphMode = true → ∃ t : State, exec (.graphNodeLimit e) s = .next t ∧ t.clv.gend = some 9)
        ∧ (s.ansIn = [r] → ∃ t : State, exec .recordAdmit s = .next t ∧ t.ansIn = [])
        ∧ (∃ t : State, exec (.ansFlush good) s = .next t ∧ t.on ANS.STAT_FLUSHING = false ∧ t.ans.flushTo = none)
        ∧ (∃ t : State, exec .ansFlushTimer s = .next t ∧ t.on ANS.STAT_FLUSHING = true)
        ∧ (s.reaches m ANS.POSTCODE → 0x8000 ≤ getBits 0 16 v → getBits 16 4 (s.bankRd m ANS.POSTSRC) ≤ 5 →
          ∃ (t : State) (x : Rec), exec (.ansPost m v) s = .next t ∧ t.ansIn = s.ansIn ++ [x] ∧ x.code = v.setWidth 16)
        ∧ (s.reaches m ANS.HEAD_L → ∃ t : State, exec (.ansPtrRead m false) s = .next t ∧ t.lastResp = .data (s.rd ANS.HEAD_L)))
    ∧ (∀ (s : State) (m : Sys2Proof.Master) (p : Fin 96) (k : Fin 4) (n : Fin 3) (g : Fin 12) (o : Nat) (v hw : Word) (row : RegRow) (lead : Fin 33)
        (coin : Bool),
      let l := s.legU p.val k.val
      let off : Prop := s.f (DPW.CFG_MODE p.val) = 0
      let osr := getBits 1 6 v
      let grpGood : Prop := 12 ≤ osr ∧ osr ≤ 50 ∧ getBits 7 6 v < osr ∧ getBits 13 3 v ≤ 4 ∧ 8 ≤ getBits 18 8 v
      let quiet : Prop := (∀ j : Fin 8, s.f (DPW.CFG_MODE (8 * g.val + j.val)) = 0) ∧ s.mstate ≠ 5 ∧ s.mstate ≠ 6
      (o < 0x400000 → s.reaches m (0x03000000 + 4 * o) → ∃ t : State, exec (.registerWrite m (0x03000000 + 4 * o) 4 v hw) s = .next t
          ∧ t.load .shared (4 * o) 4 = v.toNat ∧ t.regs = s.regs)
        ∧ (s.reaches m PWS.STAT → regRow PWS.STAT = some row → ∃ t : State, exec (.registerWrite m PWS.STAT 4 v hw) s = .next t
          ∧ t.rd PWS.STAT = regWrite row (s.rd PWS.STAT) v hw ∧ s.wrote t [PWS.STAT])
        ∧ (off → ∃ t : State, exec (.dpwPeriodStart p lead coin) s = .next t ∧ (t.dpwU p.val).start = s.x - lead.val
          ∧ t.f (DPW.PERACT_PER p.val) = (if s.on (DPW.CFG_SYNC p.val) then s.f (DPW.PERIOD_PER p.val) else 1000000 / 2 ^ s.f LPEG.GCFG_FLE))
        ∧ (s.on (DPW.CFG_SYNC p.val) = true → ∃ t : State, exec (.standalonePeriodEnd p) s = .next t ∧ (t.dpwU p.val).ended = true)
        ∧ (l.pend ≠ none → l.lvl = .high → ∃ t : State, exec (.deadtimeTurnOn p k) s = .next t ∧ t.legU p.val k.val = { l with pend := none, hOn := true })
        ∧ (∃ t : State, exec (.trgPulseEnd p) s = .next t ∧ t.f (DPW.PINS_TRG p.val) = 0 ∧ s.sameBut t [DPW.PINS p.val])
        ∧ (l.delayed ≠ none → ∃ t : State, exec (.bridgeDelayedTransition p k) s = .next t ∧ t.on (DPW.STAT_SHORT p.val) = true)
        ∧ (s.reaches m (TRFG.SWTRIP n.val) → ∃ t : State, exec (.swTrip m n v) s = .next t
          ∧ ∀ b : Fin 32, v.getLsbD b.val = true → (t.latches (32 * n.val + b.val)).testBit 3 = true)
        ∧ (s.reaches m (TRF.LATCH p.val) → v.getLsbD k.val = true → s.clearRefused p.val (2 ^ k.val) = false →
          ∃ t : State, exec (.tripLatchClear m p v 0#32) s = .next t ∧ (t.latches p.val).testBit k.val = false)
        ∧ (s.reaches m (TRF.SAFE p.val) → safeBad v = false → off →
          ∃ t : State, exec (.trfSafeWrite m p v) s = .next t ∧ t.f ⟨TRF.SAFE p.val, 0, 16⟩ = v.toNat % 65536)
        ∧ (s.reaches m (TRF.CFG p.val) → off →
          ∃ t : State, exec (.trfCfgWrite m p v) s = .next t ∧ t.on (TRF.CFG_EN_FLT p.val) = v.getLsbD (TRF.CFG_EN_FLT p.val).lo)
        ∧ (s.reaches m (CAQ.LAT0 p.val) → ∃ t : State, exec (.caqLatRead m p) s = .next t ∧ t.lastResp = .data (s.rd (CAQ.LAT0 p.val)))
        ∧ (s.reaches m (CAQG.CFG g.val) → grpGood → quiet →
          ∃ t : State, exec (.caqGroupCfgWrite m g v) s = .next t ∧ t.f ⟨CAQG.CFG g.val, 0, 26⟩ = v.toNat % 2 ^ 26)
        ∧ (s.reaches m (CAQ.CFG p.val) → getBits 4 3 v ≤ 4 → off →
          ∃ t : State, exec (.caqPortCfgWrite m p v) s = .next t ∧ t.f ⟨CAQ.CFG p.val, 0, 10⟩ = v.toNat % 2 ^ 10))
    ∧ (∀ (s : State) (m : Sys2Proof.Master) (k : Fin 96) (g : Fin 128) (n : Fin 3) (b bank : Fin 2) (w : Fin 22) (v : Word) (r : PgWide),
      let word := bankOff k.val bank.val (4 * w.val)
      let wide := pgWideOff g.val r
      let u := s.pgU g.val
      let x (i : Nat) : Word := if i = 7 then v else s.bankRd m (PRG.KNOT g.val i)
      let plain : Prop := getBits 1 31 (x 1) = 0 ∧ x 6 = 0#32 ∧ v = 0#32
      (s.reaches m (LPE.CTRL k.val) → (∃ t : State, exec (.lpeSwap m k) s = .next t ∧ t.on (LPE.CTRL_SWAP k.val) = true)
          ∧ ∃ t : State, exec (.lpeResetInt m k) s = .next t ∧ t.on (LPE.CTRL_RESET_INT k.val) = true)
        ∧ (s.reaches m (LPE.HKIN_TAG k.val n.val) → ∃ t : State, exec (.lpeHookCommit m k n v) s = .next t ∧ t.f (LPE.HKIN_TAG_V k.val n.val) = v.toNat % 256)
        ∧ (s.reaches m word → bankBadValue w.val v = false → s.actBank k.val ≠ bank.val →
          ∃ t : State, exec (.lpeBankWrite m k bank w v false) s = .next t ∧ s.wrote { t with slot := s.slot, ecc := s.ecc } [word]
            ∧ (w.val < 4 → t.f ⟨word, 0, 16⟩ = v.toNat % 65536))
        ∧ (s.reaches m (PRG.CFG g.val) → prgCfgBad g.val v = false → s.f (PRG.CFG_SRC g.val) = 0 → s.on (PRG.STAT_TRACK g.val) = false → u.ss1 = none →
          u.v = 0 → u.a = 0 → ∃ t : State, exec (.pgCfgWrite m g v) s = .next t ∧ t.f ⟨PRG.CFG g.val, 0, 20⟩ = v.toNat % 2 ^ 20)
        ∧ (s.reaches m wide → r ≠ .pos → r ≠ .gofs → ∃ t : State, exec (.pgWideWrite m g r false v) s = .next t ∧ t.bankRd m wide = v)
        ∧ (s.reaches m wide → ∃ t : State, exec (.pgWideRead m g r) s = .next t ∧ t.lastResp = .data (s.rd wide) ∧ t.bankRd m (wide + 4) = s.rd (wide + 4))
        ∧ (∀ q, s.reaches m (PRG.KNOT g.val 7) → u.ss1 = none → u.src = 2 → plain → u.queue.getLast? = some q → 0 < knotAhead (x 0).toNat u.tau →
          (x 1).getLsbD 0 = false → (s.frameUnits : Int) ≤ 8 * nsDiff (x 0).toNat q.t → nsDiff (x 0).toNat q.t ≤ 67108864 → u.qlen < 32 →
          ∃ t : State, exec (.pgKnotPush m g v) s = .next t ∧ ((t.pgU g.val).queue.map (·.t)) = u.queue.map (·.t) ++ [(x 0).toNat])
        ∧ (s.stepping k.val = true → (s.chop k.val b.val).st = .slow →
          ∃ t : State, exec (.chopperTimerEnd k b) s = .next t ∧ t.chop k.val b.val = ⟨.on, s.now, (s.chop k.val b.val).ref⟩))
    ∧ (∀ (s : State) (via : Via) (slot : Byte) (ofs src len plan : Word),
      let may : Prop := s.mstate = 4 ∨ s.mstate = 5 ∨ s.mstate = 6
      let o := ofs.toNat
      let free : Prop := s.hasRight via 3 = true ∧ slot.toNat ≤ 1 ∧ s.served = true ∧ (s.lc = 2 ∨ s.lc = 3) ∧ slot.toNat ≠ s.f SYS.BOOT_SLOT
        ∧ s.ident.img = none ∧ s.ident.restart = none
      let starts (t : State) (fn : Nat) : Prop := ∃ q, t.ident.img = some q ∧ q.fn = fn ∧ q.slot = slot.toNat ∧ q.via = via
      (∀ r, s.nmg.run = some r → ∃ t : State, exec .nmgIterationEnd s = .next t
          ∧ ((∃ q, t.nmg.run = some q ∧ q.iter = r.iter + 1) ∨ (t.nmg.run = none ∧ t.f NMG.LAST_ITER = (r.iter + 1) % 65536)))
        ∧ (∀ b, s.nmg.build = some b → b.slot < 2 → ∃ t : State, exec .nmgBuildEnd s = .next t ∧ t.f NMG.CNT_BUILDS = (s.f NMG.CNT_BUILDS + 1) % 65536)
        ∧ (∀ a, s.on NMG.STAT_REFAC_PEND = true → s.refacCount = true → s.nmg.build = none → may → s.slotIn 3 = some a →
          ∃ t : State, exec .nmgAutoRefactor s = .next t ∧ t.f (NMG.SLOT_STAT_STATE (1 - a)) = 1 ∧ t.on NMG.STAT_BUILD = true)
        ∧ (∃ t : State, exec (.nmgEccError .corrected) s = .next t ∧ t.on NMG.STAT_ECC_CORR = true ∧ s.sameBut t [NMG.STAT])
        ∧ (∀ f, s.plc.frags.filter (fun f => decide (f.plan = plan) && decide (f.nfrag ≠ 0)) = [f] → s.fragLeft f.t0 ≤ 0 →
          ∃ t : State, exec (.planFragmentDeadline plan) s = .next t ∧ t.on PLC.STAT_PLAN_DROP = true)
        ∧ (free → o % 0x100000 = 0 → o < 0x10000000 → ∃ t : State, exec (.imgErase via slot ofs) s = .next t ∧ starts t 0)
        ∧ (free → 0x1000 ≤ o → o % 256 = 0 → src.toNat % 256 = 0 → len.toNat % 256 = 0 → len.toNat ≤ 0x100000 → o + len.toNat ≤ 0x10000000 →
          src.toNat + len.toNat ≤ 0x1000000 → ∃ t : State, exec (.imgWrite via slot ofs src len) s = .next t ∧ starts t 1)
        ∧ (free → len.toNat ≤ 0xFFFF000 → ∃ t : State, exec (.imgCommit via slot len) s = .next t ∧ starts t 2))
    ∧ ∀ (s : State) (inp : Fin 2) (mv : Nat) (mj : BitVec 16),
      let okF := if inp = 0 then PWS.STAT_A_OK else PWS.STAT_B_OK
      (s.mstate ≠ 0 → 19200 ≤ mv → (∃ t : State, exec (.inputGood inp mv) s = .next t ∧ t.on okF = true)
          ∧ ∃ t : State, exec (.inputRestored inp mv) s = .next t ∧ t.on okF = true)
        ∧ (s.on okF = true → ∃ t : State, exec (.inputLost inp) s = .next t ∧ t.on okF = false)
        ∧ (∃ t : State, exec (.storeCharged mj) s = .next t ∧ t.f PWS.HOLD_E_STORE = mj.toNat)
        ∧ (s.mstate ≠ 0 → ∃ t : State, exec .coverOpen s = .next t ∧ t.on SAF.STAT_COVER_OPEN = true)
end

