-- ==== Sys2Proof/Laws/Maps.lean ====
section
/-! SUPPORT. Laws of the finite maps and of the fields of a word: a read after a write to the same place gives
the value written, a write leaves every other place alone, and the canonical form is kept. -/

namespace Sys2Proof.Machine

variable {α : Type}

/-! ## Cells -/

theorem find?_insertCell_same (k : Nat) (v : α) (l : List (Nat × α)) (h : ∀ c ∈ l, c.1 ≠ k) :
    (insertCell k v l).find? (fun c => c.1 == k) = some (k, v) := by
  induction l with
  | nil => simp [insertCell]
  | cons c cs ih =>
    have hc : c.1 ≠ k := h c (by simp)
    have hs : ∀ d ∈ cs, d.1 ≠ k := fun d hd => h d (List.mem_cons_of_mem _ hd)
    unfold insertCell
    split
    · simp
    · simp [hc, ih hs]

theorem find?_insertCell_ne (k j : Nat) (v : α) (l : List (Nat × α)) (hj : j ≠ k) :
    (insertCell k v l).find? (fun c => c.1 == j) = l.find? (fun c => c.1 == j) := by
  induction l with
  | nil => simp [insertCell, Ne.symm hj]
  | cons c cs ih =>
    unfold insertCell
    split
    · simp [Ne.symm hj]
    · simp [List.find?_cons, ih]

theorem find?_filter_ne (k j : Nat) (l : List (Nat × α)) (hj : j ≠ k) :
    (l.filter (fun c => !(c.1 == k))).find? (fun c => c.1 == j) = l.find? (fun c => c.1 == j) := by
  induction l with
  | nil => rfl
  | cons c cs ih =>
    by_cases hc : c.1 = k
    · have : c.1 ≠ j := fun h => hj (h.symm.trans hc)
      simp [List.filter_cons, hc, ih, List.find?_cons, Ne.symm hj]
    · simp [List.filter_cons, hc, List.find?_cons, ih]

theorem filter_insertCell (k : Nat) (v : α) (l : List (Nat × α)) :
    (insertCell k v l).filter (fun c => !(c.1 == k)) = l.filter (fun c => !(c.1 == k)) := by
  induction l with
  | nil => simp [insertCell]
  | cons c cs ih =>
    unfold insertCell
    split
    · simp [List.filter_cons]
    · simp [List.filter_cons, ih]

theorem mem_insertCell (k : Nat) (v : α) (l : List (Nat × α)) (c : Nat × α) :
    c ∈ insertCell k v l ↔ c = (k, v) ∨ c ∈ l := by
  induction l with
  | nil => simp [insertCell]
  | cons d ds ih =>
    unfold insertCell
    split
    · simp
    · simp only [List.mem_cons, ih]; tauto

theorem pairwise_insertCell (k : Nat) (v : α) (l : List (Nat × α)) (h : ∀ c ∈ l, c.1 ≠ k)
    (hp : l.Pairwise (fun a b => a.1 < b.1)) : (insertCell k v l).Pairwise (fun a b => a.1 < b.1) := by
  induction l with
  | nil => simp [insertCell]
  | cons c cs ih =>
    rw [List.pairwise_cons] at hp
    have hc : c.1 ≠ k := h c (by simp)
    unfold insertCell
    split
    · rename_i hk
      refine List.pairwise_cons.2 ⟨fun a ha => ?_, List.pairwise_cons.2 hp⟩
      rcases List.mem_cons.1 ha with rfl | ha
      · exact hk
      · exact lt_trans hk (hp.1 a ha)
    · rename_i hk
      refine List.pairwise_cons.2 ⟨fun a ha => ?_, ih (fun d hd => h d (List.mem_cons_of_mem _ hd)) hp.2⟩
      rcases (mem_insertCell k v cs a).1 ha with rfl | ha
      · show c.1 < k; omega
      · exact hp.1 a ha

/-! ## Maps -/

variable [DecidableEq α] (d : Nat → α) (m : FMap α)

theorem FMap.get_set_same (k : Nat) (v : α) : (m.set d k v).get d k = v := by
  have hn : ∀ c ∈ m.cells.filter (fun c => !(c.1 == k)), c.1 ≠ k := by
    intro c hc; simpa using (List.mem_filter.1 hc).2
  unfold FMap.set FMap.get
  by_cases hv : v = d k
  · have : (m.cells.filter (fun c => !(c.1 == k))).find? (fun c => c.1 == k) = none := by
      rw [List.find?_eq_none]; intro c hc; simpa using hn c hc
    simp [hv, this]
  · simp only [hv, if_false, find?_insertCell_same k v _ hn]

theorem FMap.get_set_ne (k j : Nat) (v : α) (hj : j ≠ k) : (m.set d k v).get d j = m.get d j := by
  unfold FMap.set FMap.get
  by_cases hv : v = d k
  · simp only [hv, if_true, find?_filter_ne k j _ hj]
  · simp only [hv, if_false, find?_insertCell_ne k j v _ hj, find?_filter_ne k j _ hj]

theorem FMap.get_set (k j : Nat) (v : α) : (m.set d k v).get d j = if j = k then v else m.get d j := by
  by_cases h : j = k
  · subst h; simp [FMap.get_set_same]
  · simp [h, FMap.get_set_ne d m k j v h]

theorem FMap.set_set (k : Nat) (v w : α) : (m.set d k v).set d k w = m.set d k w := by
  have h : (m.set d k v).cells.filter (fun c => !(c.1 == k)) = m.cells.filter (fun c => !(c.1 == k)) := by
    unfold FMap.set
    by_cases hv : v = d k
    · simp [hv]
    · simp [hv, filter_insertCell]
  show (let rest := (m.set d k v).cells.filter (fun c => !(c.1 == k)); if w = d k then FMap.mk rest else ⟨insertCell k w rest⟩) = _
  simp only [h]
  rfl

theorem FMap.get_empty (k : Nat) : (FMap.mk ([] : List (Nat × α))).get d k = d k := rfl

theorem FMap.wf_empty : FMap.wf d (⟨[]⟩ : FMap α) = true := rfl

theorem FMap.wf_filter (p : Nat × α → Bool) (h : FMap.wf d m = true) : FMap.wf d ⟨m.cells.filter p⟩ = true := by
  unfold FMap.wf at h ⊢
  simp only [Bool.and_eq_true, decide_eq_true_eq, List.all_eq_true] at h ⊢
  exact ⟨h.1.filter _, fun c hc => h.2 c (List.mem_filter.1 hc).1⟩

/-- A write keeps the canonical form. -/
theorem FMap.wf_set (k : Nat) (v : α) (h : FMap.wf d m = true) : FMap.wf d (m.set d k v) = true := by
  have hr := FMap.wf_filter d m (fun c => !(c.1 == k)) h
  have hn : ∀ c ∈ m.cells.filter (fun c => !(c.1 == k)), c.1 ≠ k := by
    intro c hc; simpa using (List.mem_filter.1 hc).2
  unfold FMap.set
  by_cases hv : v = d k
  · simpa [hv] using hr
  · simp only [hv, if_false]
    unfold FMap.wf at hr ⊢
    simp only [Bool.and_eq_true, decide_eq_true_eq, List.all_eq_true] at hr ⊢
    refine ⟨pairwise_insertCell k v _ hn hr.1, fun c hc => ?_⟩
    rcases (mem_insertCell k v _ c).1 hc with rfl | hc
    · simpa using hv
    · exact hr.2 c hc

/-! ## Fields of a word -/

/-- The word of `putBits` as a number: what lies below, the new bits, what lies above. -/
theorem putBits_toNat (lo w : Nat) (x : Word) (v : Nat) (h : lo + w ≤ 32) :
    (putBits lo w x v).toNat = x.toNat % 2 ^ lo + 2 ^ lo * (v % 2 ^ w + 2 ^ w * (x.toNat / 2 ^ (lo + w))) := by
  unfold putBits getBits
  have hx := x.isLt
  have hq : x.toNat / 2 ^ lo / 2 ^ w = x.toNat / 2 ^ (lo + w) := by rw [Nat.div_div_eq_div_mul, pow_add]
  have e1 : x.toNat = x.toNat % 2 ^ lo + 2 ^ lo * (x.toNat / 2 ^ lo % 2 ^ w + 2 ^ w * (x.toNat / 2 ^ (lo + w))) := by
    rw [← hq, Nat.mod_add_div (x.toNat / 2 ^ lo) (2 ^ w), Nat.mod_add_div]
  have hp : 2 ^ (lo + w) * 2 ^ (32 - (lo + w)) = 2 ^ 32 := by rw [← pow_add]; congr 1; omega
  have hlt : x.toNat / 2 ^ (lo + w) < 2 ^ (32 - (lo + w)) := by
    rw [Nat.div_lt_iff_lt_mul (Nat.two_pow_pos _), Nat.mul_comm, hp]; exact hx
  have h1 : x.toNat % 2 ^ lo < 2 ^ lo := Nat.mod_lt _ (Nat.two_pow_pos _)
  have h2 : v % 2 ^ w < 2 ^ w := Nat.mod_lt _ (Nat.two_pow_pos _)
  have e2 : x.toNat - x.toNat / 2 ^ lo % 2 ^ w * 2 ^ lo + v % 2 ^ w * 2 ^ lo
      = x.toNat % 2 ^ lo + 2 ^ lo * (v % 2 ^ w + 2 ^ w * (x.toNat / 2 ^ (lo + w))) := by
    generalize hA : x.toNat / 2 ^ lo % 2 ^ w = A at *
    generalize x.toNat / 2 ^ (lo + w) = B at *
    generalize x.toNat % 2 ^ lo = C at *
    rw [e1]
    have : 2 ^ lo * (A + 2 ^ w * B) = A * 2 ^ lo + 2 ^ lo * (2 ^ w * B) := by ring
    rw [this, Nat.mul_add, Nat.mul_comm (2 ^ lo) (v % 2 ^ w)]
    omega
  rw [BitVec.toNat_ofNat, e2, Nat.mod_eq_of_lt]
  generalize x.toNat / 2 ^ (lo + w) = B at *
  generalize x.toNat % 2 ^ lo = C at *
  have h3 : v % 2 ^ w + 2 ^ w * B + 1 ≤ 2 ^ w * 2 ^ (32 - (lo + w)) := by
    have h4 : 2 ^ w * B + 2 ^ w ≤ 2 ^ w * 2 ^ (32 - (lo + w)) := by
      have h5 : 2 ^ w * B + 2 ^ w = 2 ^ w * (B + 1) := by ring
      rw [h5]
      exact Nat.mul_le_mul_left _ hlt
    exact Nat.le_trans (by omega) h4
  generalize v % 2 ^ w = V at *
  calc C + 2 ^ lo * (V + 2 ^ w * B) < 2 ^ lo * (V + 2 ^ w * B + 1) := by
        rw [Nat.mul_succ, Nat.add_comm]; exact Nat.add_lt_add_left h1 _
    _ ≤ 2 ^ lo * (2 ^ w * 2 ^ (32 - (lo + w))) := Nat.mul_le_mul_left _ h3
    _ = 2 ^ 32 := by rw [← hp, pow_add]; ring

/-- A field read back after a write of it. -/
theorem getBits_putBits_same (lo w : Nat) (x : Word) (v : Nat) (h : lo + w ≤ 32) :
    getBits lo w (putBits lo w x v) = v % 2 ^ w := by
  unfold getBits
  rw [putBits_toNat lo w x v h, Nat.add_mul_div_left _ _ (Nat.two_pow_pos lo),
    Nat.div_eq_of_lt (Nat.mod_lt _ (Nat.two_pow_pos lo)), Nat.zero_add, Nat.add_mul_mod_self_left, Nat.mod_mod]

/-- A write of a field leaves the fields beside it. -/
theorem getBits_putBits_ne (lo w lo' w' : Nat) (x : Word) (v : Nat) (h : lo + w ≤ 32)
    (hd : lo' + w' ≤ lo ∨ lo + w ≤ lo') : getBits lo' w' (putBits lo w x v) = getBits lo' w' x := by
  unfold getBits
  rw [putBits_toNat lo w x v h]
  rcases hd with hd | hd
  · have key : ∀ N : Nat, N / 2 ^ lo' % 2 ^ w' = N % 2 ^ lo / 2 ^ lo' % 2 ^ w' := by
      intro N
      have : 2 ^ lo = 2 ^ lo' * (2 ^ w' * 2 ^ (lo - lo' - w')) := by
        rw [← pow_add, ← pow_add]; congr 1; omega
      rw [this, Nat.mod_mul_right_div_self, Nat.mod_mul_right_mod]
    rw [key, key x.toNat, Nat.add_mul_mod_self_left, Nat.mod_mod]
  · have key : ∀ N : Nat, N / 2 ^ lo' = N / 2 ^ (lo + w) / 2 ^ (lo' - (lo + w)) := by
      intro N
      rw [Nat.div_div_eq_div_mul, ← pow_add]; congr 2; omega
    rw [key, key x.toNat]
    congr 2
    have h1 : x.toNat % 2 ^ lo < 2 ^ lo := Nat.mod_lt _ (Nat.two_pow_pos _)
    have h2 : v % 2 ^ w < 2 ^ w := Nat.mod_lt _ (Nat.two_pow_pos _)
    rw [pow_add, ← Nat.div_div_eq_div_mul, Nat.add_mul_div_left _ _ (Nat.two_pow_pos lo), Nat.div_eq_of_lt h1,
      Nat.zero_add, Nat.add_mul_div_left _ _ (Nat.two_pow_pos w), Nat.div_eq_of_lt h2, Nat.zero_add]

/-! ## Registers -/

variable (s : State)

@[simp] theorem State.rd_wr_same (o : Nat) (v : Word) : (s.wr o v).rd o = v := FMap.get_set_same _ _ _ _
theorem State.rd_wr_ne (o k : Nat) (v : Word) (h : k ≠ o) : (s.wr o v).rd k = s.rd k := FMap.get_set_ne _ _ _ _ _ h
theorem State.rd_wr (o k : Nat) (v : Word) : (s.wr o v).rd k = if k = o then v else s.rd k := FMap.get_set _ _ _ _ _

theorem State.rd_setF_ne (F : Field) (v k : Nat) (h : k ≠ F.off) : (s.setF F v).rd k = s.rd k := s.rd_wr_ne _ _ _ h

/-- A field read back after a write of it. -/
theorem State.f_setF_same (F : Field) (v : Nat) (h : F.lo + F.w ≤ 32) : (s.setF F v).f F = v % 2 ^ F.w := by
  unfold State.f State.setF
  rw [State.rd_wr_same, getBits_putBits_same _ _ _ _ h]

/-- A write of a field leaves every other field: of another register, or beside it in the same one. -/
theorem State.f_setF_ne (F G : Field) (v : Nat) (h : F.lo + F.w ≤ 32)
    (hd : G.off ≠ F.off ∨ G.lo + G.w ≤ F.lo ∨ F.lo + F.w ≤ G.lo) : (s.setF F v).f G = s.f G := by
  unfold State.f State.setF
  by_cases ho : G.off = F.off
  · rcases hd with hd | hd
    · exact absurd ho hd
    · rw [ho, State.rd_wr_same, getBits_putBits_ne _ _ _ _ _ _ h hd]
  · rw [State.rd_wr_ne _ _ _ _ ho]

theorem State.f_wr_ne (o : Nat) (v : Word) (G : Field) (h : G.off ≠ o) : (s.wr o v).f G = s.f G := by
  unfold State.f; rw [State.rd_wr_ne _ _ _ _ h]

theorem State.on_setF_ne (F G : Field) (v : Nat) (h : F.lo + F.w ≤ 32)
    (hd : G.off ≠ F.off ∨ G.lo + G.w ≤ F.lo ∨ F.lo + F.w ≤ G.lo) : (s.setF F v).on G = s.on G := by
  unfold State.on; rw [s.f_setF_ne F G v h hd]

/-- A flag that has been raised is on. -/
theorem State.on_raise (F : Field) (h : F.lo + F.w ≤ 32) (hw : 0 < F.w) : (s.raise F).on F = true := by
  have h1 : (1 : Nat) % 2 ^ F.w = 1 := Nat.mod_eq_of_lt (Nat.one_lt_two_pow (by omega))
  unfold State.on State.raise
  rw [s.f_setF_same F 1 h, h1]; rfl

/-- A flag reads what was written into it. -/
theorem State.on_flag (F : Field) (b : Bool) (h : F.lo + F.w ≤ 32) (hw : 0 < F.w) : (s.flag F b).on F = b := by
  have h1 : (1 : Nat) % 2 ^ F.w = 1 := Nat.mod_eq_of_lt (Nat.one_lt_two_pow (by omega))
  unfold State.on State.flag
  rw [s.f_setF_same F _ h]
  cases b <;> simp [h1]

/-! ## Memory -/

theorem State.byte_setByte (mm m' : MemId) (a b : Nat) (v : Byte) :
    (s.setByte mm a v).byte m' b = if m'.base + b = mm.base + a then v else s.byte m' b := FMap.get_set _ _ _ _ _

@[simp] theorem State.byte_setByte_same (mm : MemId) (a : Nat) (v : Byte) : (s.setByte mm a v).byte mm a = v := by
  simp [State.byte_setByte]

/-- Memory keeps its canonical form under a write of one byte. -/
theorem State.mem_wf_setByte (mm : MemId) (a : Nat) (v : Byte) (h : Memory.wf s.mem = true) :
    Memory.wf (s.setByte mm a v).mem = true := FMap.wf_set _ _ _ _ h

theorem State.mem_wf_put (mm : MemId) (n : Nat) : ∀ (s : State) (a v : Nat), Memory.wf s.mem = true →
    Memory.wf (s.put mm a n v).mem = true := by
  induction n with
  | zero => intro s a v h; exact h
  | succ n ih => intro s a v h; exact ih _ _ _ (s.mem_wf_setByte mm a _ h)

theorem State.mem_wf_putBytes (mm : MemId) (l : List Byte) : ∀ (s : State) (a : Nat), Memory.wf s.mem = true →
    Memory.wf (s.putBytes mm a l).mem = true := by
  induction l with
  | nil => intro s a h; exact h
  | cons b bs ih => intro s a h; exact ih _ _ (s.mem_wf_setByte mm a _ h)

theorem State.mem_wf_fillRange (lo hi : Nat) (keep : Nat → Bool) (h : Memory.wf s.mem = true) :
    Memory.wf (s.fillRange lo hi keep).mem = true := FMap.wf_filter _ _ _ h

theorem State.mem_wf_wipe (mm : MemId) (h : Memory.wf s.mem = true) : Memory.wf (s.wipe mm).mem = true :=
  s.mem_wf_fillRange _ _ _ h

theorem reset_mem_wf : Memory.wf State.reset.mem = true := rfl

end Sys2Proof.Machine
end

