-- ==== Sys2Proof/Laws/Engine.lean ====
section
/-! SUPPORT. What the execution of one instruction of an engine can do: the engine file as a map, register writes
read back, and one lemma for each way an instruction ends (R337 to R365). -/

namespace Sys2Proof.Machine

variable {s t : State} {x y : Eng}

theorem State.en_setEn_same (s : State) (e : Nat) (x : Eng) : (s.setEn e x).en e = x := FMap.get_set_same _ _ _ _

theorem State.en_setEn_ne (s : State) (e f : Nat) (x : Eng) (h : f ≠ e) : (s.setEn e x).en f = s.en f :=
  FMap.get_set_ne _ _ _ _ _ h

theorem State.setEn_setEn (s : State) (e : Nat) (x y : Eng) : (s.setEn e x).setEn e y = s.setEn e y := by
  simp only [State.setEn, FMap.set_set]

theorem Eng.gRaw_setG_same (x : Eng) (r : Nat) (v : Word) : (x.setG r v).gRaw r = if r = 0 then 0#32 else v := by
  unfold Eng.gRaw Eng.setG
  split
  · rfl
  · exact FMap.get_set_same _ _ _ _

theorem Eng.gRaw_setG_ne (x : Eng) (r q : Nat) (v : Word) (h : q ≠ r) : (x.setG r v).gRaw q = x.gRaw q := by
  unfold Eng.gRaw Eng.setG
  split
  · rfl
  · split
    · rfl
    · exact FMap.get_set_ne _ _ _ _ _ h

theorem Eng.wroteG_setG (x : Eng) (rd : Fin 32) (v : Word) : x.wroteG (x.setG rd.val v) rd v := by
  refine ⟨x.gRaw_setG_same _ _, fun r h => x.gRaw_setG_ne _ _ _ h, ?_⟩
  unfold Eng.setG
  split <;> rfl

theorem Eng.wroteE_setE (x : Eng) (rd : Fin 32) (v : Wide) : x.wroteE (x.setE rd.val v) rd v :=
  ⟨FMap.get_set_same _ _ _ _, fun _ h => FMap.get_set_ne _ _ _ _ _ h, rfl⟩

theorem Eng.pred_setPred (x : Eng) (i j : Fin 4) (b : Bool) :
    (x.setPred i.val b).pred j.val = if j = i then b else x.pred j.val := by
  unfold Eng.pred Eng.setPred
  simp only
  generalize x.p = p
  revert p i j b
  decide

theorem Eng.wroteP_setPred (x : Eng) (pd : Fin 4) (b : Bool) : x.wroteP (x.setPred pd.val b) pd b := by
  refine ⟨by rw [x.pred_setPred]; simp, fun q h => by rw [x.pred_setPred]; simp [h], rfl⟩

theorem Eng.wroteA_setAcc (x : Eng) (i : Fin 4) (v : Wide) : x.wroteA (x.setAcc i.val v) i v.toInt :=
  ⟨congrArg BitVec.toInt (FMap.get_set_same _ _ _ _), fun _ h => congrArg BitVec.toInt (FMap.get_set_ne _ _ _ _ _ h), rfl⟩

theorem State.fetches.fetchBad {e : Fin 16} (h : s.fetches e) : s.fetchBad e.val = false := by
  obtain ⟨h1, h2, h3⟩ := h
  have he : Fin.ofNat 16 e.val = e := by ext; simp
  simp [State.fetchBad, h2, h3, h1]

/-- An instruction that raises no exception and is no jump. -/
theorem State.klo_done (e : Fin 16) (w : Word) (k : Place) (n : Need) (body : State → KRes) (h : s.canRun e k n)
    (hb : body (s.setEn e.val { s.en e.val with busy := true }) = .done t) (hy : (t.en e.val).busy = true) :
    s.klo e.val w k n true body = t.retired e (s.en e.val) (t.en e.val) := by
  obtain ⟨h1, h3, h4⟩ := h
  unfold State.klo
  simp only [h1.fetchBad, h3, h4, Bool.and_true, Bool.not_true, Bool.false_eq_true, if_false, hb]
  unfold State.over_ State.retired
  simp only [hy, if_true]

/-- A jump. -/
theorem State.klo_jump (e : Fin 16) (w : Word) (k : Place) (n : Need) (body : State → KRes) (a : Word) (h : s.canRun e k n)
    (hb : body (s.setEn e.val { s.en e.val with busy := true }) = .jump t a) (hy : (t.en e.val).busy = true) :
    s.klo e.val w k n true body = t.jumped e (t.en e.val) a := by
  obtain ⟨h1, h3, h4⟩ := h
  unfold State.klo
  simp only [h1.fetchBad, h3, h4, Bool.and_true, Bool.not_true, Bool.false_eq_true, if_false, hb]
  unfold State.over_ State.jumped
  simp only [hy, if_true]

/-- An exception of the body. -/
theorem State.klo_exc (e : Fin 16) (w : Word) (k : Place) (n : Need) (body : State → KRes) (c : Nat) (v : Word)
    (h : s.canRun e k n) (hb : body (s.setEn e.val { s.en e.val with busy := true }) = .exc c v) :
    s.klo e.val w k n true body = s.exception e.val c v := by
  obtain ⟨h1, h3, h4⟩ := h
  unfold State.klo
  simp only [h1.fetchBad, h3, h4, Bool.and_true, Bool.not_true, Bool.false_eq_true, if_false, hb]

/-- FETCH comes before ILLEGAL (R362). -/
theorem State.klo_fetch (e : Fin 16) (w : Word) (k : Place) (n : Need) (good : Bool) (body : State → KRes)
    (h : ¬s.fetches e) : s.klo e.val w k n good body = s.exception e.val 0x05 (s.en e.val).pc := by
  have he : Fin.ofNat 16 e.val = e := by ext; simp
  have hb : s.fetchBad e.val = true := by
    by_contra hn
    simp only [State.fetchBad, he, Bool.not_eq_true, Bool.or_eq_false_iff, decide_eq_false_iff_not, Nat.not_le, ne_eq,
      not_not] at hn
    exact h ⟨hn.1.1, hn.1.2, hn.2⟩
  unfold State.klo
  rw [if_pos hb]

theorem State.klo_illegal (e : Fin 16) (w : Word) (k : Place) (n : Need) (good : Bool) (body : State → KRes)
    (h1 : s.fetches e) (h : n.met e.val = false ∨ good = false ∨ (s.en e.val).placeOk (isSdsp e.val) k = false) :
    s.klo e.val w k n good body = s.exception e.val 0x01 w := by
  unfold State.klo
  rw [if_neg (by simp [h1.fetchBad]), if_pos]
  rcases h with h | h | h <;> simp [h]

/-- An instruction that only computes on the engine's own registers. -/
theorem State.klo_own (e : Fin 16) (w : Word) (k : Place) (n : Need) (f : Eng → Eng) (h : s.canRun e k n)
    (hf : ∀ x : Eng, f { x with busy := true } = { f x with busy := true }) :
    s.klo e.val w k n true (fun t => .done (t.setEn e.val (f (t.en e.val))))
      = s.retired e (s.en e.val) (f (s.en e.val)) := by
  rw [State.klo_done (t := s.setEn e.val { f (s.en e.val) with busy := true }) e w k n _ h]
  · rw [State.en_setEn_same]
    unfold State.retired
    rw [State.setEn_setEn]
    rfl
  · simp only [State.en_setEn_same, State.setEn_setEn, hf]
  · rw [State.en_setEn_same]

/-! ## Shapes -/

theorem Eng.setG_busy (x : Eng) (b : Bool) (r : Nat) (v : Word) :
    ({ x with busy := b } : Eng).setG r v = { x.setG r v with busy := b } := by
  unfold Eng.setG
  split <;> rfl

/-- g[rd] := v. -/
theorem State.kG_eq (e : Fin 16) (w : Word) (rd : Fin 32) (v : Eng → Word) (h : s.canRun e .alu .base)
    (hv : ∀ x : Eng, v { x with busy := true } = v x) :
    s.kG e w rd v = s.retired e (s.en e.val) ((s.en e.val).setG rd.val (v (s.en e.val))) :=
  State.klo_own e w .alu .base (fun x => x.setG rd.val (v x)) h (fun x => by rw [Eng.setG_busy, hv])

/-- p[pd] := v. -/
theorem State.kP_eq (e : Fin 16) (w : Word) (pd : Fin 4) (v : Eng → Bool) (h : s.canRun e .alu .base)
    (hv : ∀ x : Eng, v { x with busy := true } = v x) :
    s.kP e w true pd v = s.retired e (s.en e.val) ((s.en e.val).setPred pd.val (v (s.en e.val))) :=
  State.klo_own e w .alu .base (fun x => x.setPred pd.val (v x)) h (fun x => by rw [hv]; rfl)

/-- A conditional branch. -/
theorem State.kB_eq (e : Fin 16) (w : Word) (ofs : BitVec 16) (c : Eng → Bool) (h : s.canRun e .branch .base) :
    s.kB e w ofs c =
      (let x := s.en e.val
       let a := x.pc + ofs.signExtend 32 * 4#32
       let taken := c { x with busy := true }
       if isSdsp e.val then
        (s.setEn e.val { x.shiftStale with pc := x.pc + 4#32, slot := some (2, if taken then a else x.pc + 12#32) }).completed e.val
       else (s.setEn e.val { x.shiftStale with pc := if taken then pcOf a else x.pc + 4#32 }).completed e.val) := by
  obtain ⟨h1, h3, h4⟩ := h
  unfold State.kB State.klo
  simp only [h1.fetchBad, h3, h4, Bool.and_true, Bool.not_true, Bool.false_eq_true, if_false, State.en_setEn_same]

/-- An address that is a multiple of 4 is what the PC takes. -/
theorem pcOf_aligned (a : Word) (h : a.toNat % 4 = 0) : pcOf a = a := by
  unfold pcOf
  have : a = (a >>> 2) <<< 2 := by
    apply BitVec.eq_of_toNat_eq
    rw [BitVec.toNat_shiftLeft, BitVec.toNat_ushiftRight, Nat.shiftLeft_eq, Nat.shiftRight_eq_div_pow]
    have := a.isLt
    omega
  rw [this]
  generalize a >>> 2 = b
  ext i hi
  rw [BitVec.getElem_and, BitVec.getElem_shiftLeft]
  by_cases h2 : i < 2
  · simp [h2]
  · have : ∀ j : Fin 32, 2 ≤ j.val → (0xFFFFFFFC#32).getLsbD j.val = true := by decide
    have h3 := this ⟨i, hi⟩ (Nat.le_of_not_lt h2)
    rw [BitVec.getLsbD_eq_getElem hi] at h3
    rw [h3, Bool.and_true]

end Sys2Proof.Machine
end

