-- ==== Sys2Proof/Laws/Moves.lean ====
section
/-! SUPPORT. What undoing a transition of the module leaves (R22): every cell of a map that nothing has changed since is
as before it, and the memory keeps its canonical form. -/

namespace Sys2Proof.Machine

variable {α : Type} [DecidableEq α] (d : Nat → α)

/-- Putting back, over any list of keys, gives each cell either its old value or the one it has. -/
theorem FMap.get_putBack_fold (a b : FMap α) (l : List Nat) (j : Nat) : ∀ u : FMap α,
    (l.foldl (fun u k => if u.get d k = b.get d k then u.set d k (a.get d k) else u) u).get d j
      = if j ∈ l ∧ u.get d j = b.get d j then a.get d j else u.get d j := by
  induction l with
  | nil => intro u; simp
  | cons k l ih =>
    intro u
    rw [List.foldl_cons, ih]
    by_cases hk : u.get d k = b.get d k
    · simp only [hk, if_true, FMap.get_set]
      by_cases hj : j = k
      · subst hj; simp [hk]
      · simp [hj]
    · simp only [hk, if_false]
      by_cases hj : j = k
      · subst hj; simp [hk]
      · simp [hj]

/-- Where nothing has changed the map since, it reads as before. -/
theorem FMap.get_putBack (a b c : FMap α) (h : ∀ j, c.get d j = b.get d j) (k : Nat) :
    (FMap.putBack d a b c).get d k = a.get d k := by
  unfold FMap.putBack
  rw [FMap.get_putBack_fold]
  split
  · rfl
  · rename_i hk
    have hk : k ∉ (a.cells ++ b.cells).map Prod.fst := fun m => hk ⟨m, h k⟩
    have none_ (m : FMap α) (hm : k ∉ m.cells.map Prod.fst) : m.get d k = d k := by
      have : m.cells.find? (fun c => c.1 == k) = none := by
        rw [List.find?_eq_none]
        intro x hx
        simp only [beq_iff_eq]
        exact fun e => hm (List.mem_map.2 ⟨x, hx, e⟩)
      simp [FMap.get, this]
    rw [List.map_append, List.mem_append, not_or] at hk
    rw [h k, none_ b hk.2, none_ a hk.1]

theorem FMap.wf_putBack_fold (a b : FMap α) (l : List Nat) : ∀ u : FMap α, FMap.wf d u = true →
    FMap.wf d (l.foldl (fun u k => if u.get d k = b.get d k then u.set d k (a.get d k) else u) u) = true := by
  induction l with
  | nil => exact fun _ h => h
  | cons k l ih =>
    intro u h
    rw [List.foldl_cons]
    refine ih _ ?_
    split
    · exact FMap.wf_set d u k _ h
    · exact h

theorem FMap.wf_putBack (a b c : FMap α) (h : FMap.wf d c = true) : FMap.wf d (FMap.putBack d a b c) = true :=
  FMap.wf_putBack_fold d a b _ c h

theorem State.mem_wf_undo (c : State) (m : ModMove) (h : Memory.wf c.mem = true) : Memory.wf (c.undo m).mem = true :=
  FMap.wf_putBack _ _ _ _ h

end Sys2Proof.Machine
end

