-- ==== Sys2Proof/Laws/State.lean ====
section
/-! SUPPORT. What each named update of the state leaves as it was: one lemma per update and field, and one per
update and reader. All hold by unfolding. -/

namespace Sys2Proof.Machine

variable (s : State)


/-! wr -/

@[simp] theorem State.wr_pending (o : Nat) (v : Word) : (s.wr o v).pending = s.pending := rfl
@[simp] theorem State.wr_now (o : Nat) (v : Word) : (s.wr o v).now = s.now := rfl
@[simp] theorem State.wr_moves (o : Nat) (v : Word) : (s.wr o v).moves = s.moves := rfl
@[simp] theorem State.wr_free (o : Nat) (v : Word) : (s.wr o v).free = s.free := rfl
@[simp] theorem State.wr_lastResp (o : Nat) (v : Word) : (s.wr o v).lastResp = s.lastResp := rfl
@[simp] theorem State.wr_was (o : Nat) (v : Word) : (s.wr o v).was = s.was := rfl
@[simp] theorem State.wr_bank (o : Nat) (v : Word) : (s.wr o v).bank = s.bank := rfl
@[simp] theorem State.wr_mem (o : Nat) (v : Word) : (s.wr o v).mem = s.mem := rfl
@[simp] theorem State.wr_agenda (o : Nat) (v : Word) : (s.wr o v).agenda = s.agenda := rfl
@[simp] theorem State.wr_clvIn (o : Nat) (v : Word) : (s.wr o v).clvIn = s.clvIn := rfl
@[simp] theorem State.wr_ansIn (o : Nat) (v : Word) : (s.wr o v).ansIn = s.ansIn := rfl
@[simp] theorem State.wr_tbase (o : Nat) (v : Word) : (s.wr o v).tbase = s.tbase := rfl
@[simp] theorem State.wr_tbu (o : Nat) (v : Word) : (s.wr o v).tbu = s.tbu := rfl
@[simp] theorem State.wr_dpw (o : Nat) (v : Word) : (s.wr o v).dpw = s.dpw := rfl
@[simp] theorem State.wr_leg (o : Nat) (v : Word) : (s.wr o v).leg = s.leg := rfl
@[simp] theorem State.wr_tripIn (o : Nat) (v : Word) : (s.wr o v).tripIn = s.tripIn := rfl
@[simp] theorem State.wr_caq (o : Nat) (v : Word) : (s.wr o v).caq = s.caq := rfl
@[simp] theorem State.wr_caqOld (o : Nat) (v : Word) : (s.wr o v).caqOld = s.caqOld := rfl
@[simp] theorem State.wr_ecc (o : Nat) (v : Word) : (s.wr o v).ecc = s.ecc := rfl
@[simp] theorem State.wr_dsck (o : Nat) (v : Word) : (s.wr o v).dsck = s.dsck := rfl
@[simp] theorem State.wr_pfb (o : Nat) (v : Word) : (s.wr o v).pfb = s.pfb := rfl
@[simp] theorem State.wr_hbDue (o : Nat) (v : Word) : (s.wr o v).hbDue = s.hbDue := rfl
@[simp] theorem State.wr_slot (o : Nat) (v : Word) : (s.wr o v).slot = s.slot := rfl
@[simp] theorem State.wr_lpe (o : Nat) (v : Word) : (s.wr o v).lpe = s.lpe := rfl
@[simp] theorem State.wr_pg (o : Nat) (v : Word) : (s.wr o v).pg = s.pg := rfl
@[simp] theorem State.wr_cap (o : Nat) (v : Word) : (s.wr o v).cap = s.cap := rfl
@[simp] theorem State.wr_msixSent (o : Nat) (v : Word) : (s.wr o v).msixSent = s.msixSent := rfl
@[simp] theorem State.wr_door (o : Nat) (v : Word) : (s.wr o v).door = s.door := rfl
@[simp] theorem State.wr_fio (o : Nat) (v : Word) : (s.wr o v).fio = s.fio := rfl
@[simp] theorem State.wr_cqes (o : Nat) (v : Word) : (s.wr o v).cqes = s.cqes := rfl
@[simp] theorem State.wr_nmg (o : Nat) (v : Word) : (s.wr o v).nmg = s.nmg := rfl
@[simp] theorem State.wr_snap (o : Nat) (v : Word) : (s.wr o v).snap = s.snap := rfl
@[simp] theorem State.wr_eng (o : Nat) (v : Word) : (s.wr o v).eng = s.eng := rfl
@[simp] theorem State.wr_clv (o : Nat) (v : Word) : (s.wr o v).clv = s.clv := rfl
@[simp] theorem State.wr_saf (o : Nat) (v : Word) : (s.wr o v).saf = s.saf := rfl
@[simp] theorem State.wr_plc (o : Nat) (v : Word) : (s.wr o v).plc = s.plc := rfl
@[simp] theorem State.wr_ident (o : Nat) (v : Word) : (s.wr o v).ident = s.ident := rfl
@[simp] theorem State.wr_ring (o : Nat) (v : Word) : (s.wr o v).ring = s.ring := rfl
@[simp] theorem State.wr_hqNext (o : Nat) (v : Word) : (s.wr o v).hqNext = s.hqNext := rfl
@[simp] theorem State.wr_turn (o : Nat) (v : Word) : (s.wr o v).turn = s.turn := rfl
@[simp] theorem State.wr_host (o : Nat) (v : Word) : (s.wr o v).host = s.host := rfl
@[simp] theorem State.wr_bbs (o : Nat) (v : Word) : (s.wr o v).bbs = s.bbs := rfl
@[simp] theorem State.wr_fov (o : Nat) (v : Word) : (s.wr o v).fov = s.fov := rfl
@[simp] theorem State.wr_ans (o : Nat) (v : Word) : (s.wr o v).ans = s.ans := rfl
@[simp] theorem State.wr_pws (o : Nat) (v : Word) : (s.wr o v).pws = s.pws := rfl
@[simp] theorem State.wr_byte (o : Nat) (v : Word) (mm : MemId) (j : Nat) : (s.wr o v).byte mm j = s.byte mm j := rfl
@[simp] theorem State.wr_en (o : Nat) (v : Word) (f : Nat) : (s.wr o v).en f = s.en f := rfl
@[simp] theorem State.wr_bankRd (o : Nat) (v : Word) (mm : Master) (k : Nat) : (s.wr o v).bankRd mm k = s.bankRd mm k := rfl

/-! setF -/

@[simp] theorem State.setF_pending (F : Field) (v : Nat) : (s.setF F v).pending = s.pending := rfl
@[simp] theorem State.setF_now (F : Field) (v : Nat) : (s.setF F v).now = s.now := rfl
@[simp] theorem State.setF_moves (F : Field) (v : Nat) : (s.setF F v).moves = s.moves := rfl
@[simp] theorem State.setF_free (F : Field) (v : Nat) : (s.setF F v).free = s.free := rfl
@[simp] theorem State.setF_lastResp (F : Field) (v : Nat) : (s.setF F v).lastResp = s.lastResp := rfl
@[simp] theorem State.setF_was (F : Field) (v : Nat) : (s.setF F v).was = s.was := rfl
@[simp] theorem State.setF_bank (F : Field) (v : Nat) : (s.setF F v).bank = s.bank := rfl
@[simp] theorem State.setF_mem (F : Field) (v : Nat) : (s.setF F v).mem = s.mem := rfl
@[simp] theorem State.setF_agenda (F : Field) (v : Nat) : (s.setF F v).agenda = s.agenda := rfl
@[simp] theorem State.setF_clvIn (F : Field) (v : Nat) : (s.setF F v).clvIn = s.clvIn := rfl
@[simp] theorem State.setF_ansIn (F : Field) (v : Nat) : (s.setF F v).ansIn = s.ansIn := rfl
@[simp] theorem State.setF_tbase (F : Field) (v : Nat) : (s.setF F v).tbase = s.tbase := rfl
@[simp] theorem State.setF_tbu (F : Field) (v : Nat) : (s.setF F v).tbu = s.tbu := rfl
@[simp] theorem State.setF_dpw (F : Field) (v : Nat) : (s.setF F v).dpw = s.dpw := rfl
@[simp] theorem State.setF_leg (F : Field) (v : Nat) : (s.setF F v).leg = s.leg := rfl
@[simp] theorem State.setF_tripIn (F : Field) (v : Nat) : (s.setF F v).tripIn = s.tripIn := rfl
@[simp] theorem State.setF_caq (F : Field) (v : Nat) : (s.setF F v).caq = s.caq := rfl
@[simp] theorem State.setF_caqOld (F : Field) (v : Nat) : (s.setF F v).caqOld = s.caqOld := rfl
@[simp] theorem State.setF_ecc (F : Field) (v : Nat) : (s.setF F v).ecc = s.ecc := rfl
@[simp] theorem State.setF_dsck (F : Field) (v : Nat) : (s.setF F v).dsck = s.dsck := rfl
@[simp] theorem State.setF_pfb (F : Field) (v : Nat) : (s.setF F v).pfb = s.pfb := rfl
@[simp] theorem State.setF_hbDue (F : Field) (v : Nat) : (s.setF F v).hbDue = s.hbDue := rfl
@[simp] theorem State.setF_slot (F : Field) (v : Nat) : (s.setF F v).slot = s.slot := rfl
@[simp] theorem State.setF_lpe (F : Field) (v : Nat) : (s.setF F v).lpe = s.lpe := rfl
@[simp] theorem State.setF_pg (F : Field) (v : Nat) : (s.setF F v).pg = s.pg := rfl
@[simp] theorem State.setF_cap (F : Field) (v : Nat) : (s.setF F v).cap = s.cap := rfl
@[simp] theorem State.setF_msixSent (F : Field) (v : Nat) : (s.setF F v).msixSent = s.msixSent := rfl
@[simp] theorem State.setF_door (F : Field) (v : Nat) : (s.setF F v).door = s.door := rfl
@[simp] theorem State.setF_fio (F : Field) (v : Nat) : (s.setF F v).fio = s.fio := rfl
@[simp] theorem State.setF_cqes (F : Field) (v : Nat) : (s.setF F v).cqes = s.cqes := rfl
@[simp] theorem State.setF_nmg (F : Field) (v : Nat) : (s.setF F v).nmg = s.nmg := rfl
@[simp] theorem State.setF_snap (F : Field) (v : Nat) : (s.setF F v).snap = s.snap := rfl
@[simp] theorem State.setF_eng (F : Field) (v : Nat) : (s.setF F v).eng = s.eng := rfl
@[simp] theorem State.setF_clv (F : Field) (v : Nat) : (s.setF F v).clv = s.clv := rfl
@[simp] theorem State.setF_saf (F : Field) (v : Nat) : (s.setF F v).saf = s.saf := rfl
@[simp] theorem State.setF_plc (F : Field) (v : Nat) : (s.setF F v).plc = s.plc := rfl
@[simp] theorem State.setF_ident (F : Field) (v : Nat) : (s.setF F v).ident = s.ident := rfl
@[simp] theorem State.setF_ring (F : Field) (v : Nat) : (s.setF F v).ring = s.ring := rfl
@[simp] theorem State.setF_hqNext (F : Field) (v : Nat) : (s.setF F v).hqNext = s.hqNext := rfl
@[simp] theorem State.setF_turn (F : Field) (v : Nat) : (s.setF F v).turn = s.turn := rfl
@[simp] theorem State.setF_host (F : Field) (v : Nat) : (s.setF F v).host = s.host := rfl
@[simp] theorem State.setF_bbs (F : Field) (v : Nat) : (s.setF F v).bbs = s.bbs := rfl
@[simp] theorem State.setF_fov (F : Field) (v : Nat) : (s.setF F v).fov = s.fov := rfl
@[simp] theorem State.setF_ans (F : Field) (v : Nat) : (s.setF F v).ans = s.ans := rfl
@[simp] theorem State.setF_pws (F : Field) (v : Nat) : (s.setF F v).pws = s.pws := rfl
@[simp] theorem State.setF_byte (F : Field) (v : Nat) (mm : MemId) (j : Nat) : (s.setF F v).byte mm j = s.byte mm j := rfl
@[simp] theorem State.setF_en (F : Field) (v : Nat) (f : Nat) : (s.setF F v).en f = s.en f := rfl
@[simp] theorem State.setF_bankRd (F : Field) (v : Nat) (mm : Master) (k : Nat) : (s.setF F v).bankRd mm k = s.bankRd mm k := rfl

/-! setFi -/

@[simp] theorem State.setFi_pending (F : Field) (v : Int) : (s.setFi F v).pending = s.pending := rfl
@[simp] theorem State.setFi_now (F : Field) (v : Int) : (s.setFi F v).now = s.now := rfl
@[simp] theorem State.setFi_moves (F : Field) (v : Int) : (s.setFi F v).moves = s.moves := rfl
@[simp] theorem State.setFi_free (F : Field) (v : Int) : (s.setFi F v).free = s.free := rfl
@[simp] theorem State.setFi_lastResp (F : Field) (v : Int) : (s.setFi F v).lastResp = s.lastResp := rfl
@[simp] theorem State.setFi_was (F : Field) (v : Int) : (s.setFi F v).was = s.was := rfl
@[simp] theorem State.setFi_bank (F : Field) (v : Int) : (s.setFi F v).bank = s.bank := rfl
@[simp] theorem State.setFi_mem (F : Field) (v : Int) : (s.setFi F v).mem = s.mem := rfl
@[simp] theorem State.setFi_agenda (F : Field) (v : Int) : (s.setFi F v).agenda = s.agenda := rfl
@[simp] theorem State.setFi_clvIn (F : Field) (v : Int) : (s.setFi F v).clvIn = s.clvIn := rfl
@[simp] theorem State.setFi_ansIn (F : Field) (v : Int) : (s.setFi F v).ansIn = s.ansIn := rfl
@[simp] theorem State.setFi_tbase (F : Field) (v : Int) : (s.setFi F v).tbase = s.tbase := rfl
@[simp] theorem State.setFi_tbu (F : Field) (v : Int) : (s.setFi F v).tbu = s.tbu := rfl
@[simp] theorem State.setFi_dpw (F : Field) (v : Int) : (s.setFi F v).dpw = s.dpw := rfl
@[simp] theorem State.setFi_leg (F : Field) (v : Int) : (s.setFi F v).leg = s.leg := rfl
@[simp] theorem State.setFi_tripIn (F : Field) (v : Int) : (s.setFi F v).tripIn = s.tripIn := rfl
@[simp] theorem State.setFi_caq (F : Field) (v : Int) : (s.setFi F v).caq = s.caq := rfl
@[simp] theorem State.setFi_caqOld (F : Field) (v : Int) : (s.setFi F v).caqOld = s.caqOld := rfl
@[simp] theorem State.setFi_ecc (F : Field) (v : Int) : (s.setFi F v).ecc = s.ecc := rfl
@[simp] theorem State.setFi_dsck (F : Field) (v : Int) : (s.setFi F v).dsck = s.dsck := rfl
@[simp] theorem State.setFi_pfb (F : Field) (v : Int) : (s.setFi F v).pfb = s.pfb := rfl
@[simp] theorem State.setFi_hbDue (F : Field) (v : Int) : (s.setFi F v).hbDue = s.hbDue := rfl
@[simp] theorem State.setFi_slot (F : Field) (v : Int) : (s.setFi F v).slot = s.slot := rfl
@[simp] theorem State.setFi_lpe (F : Field) (v : Int) : (s.setFi F v).lpe = s.lpe := rfl
@[simp] theorem State.setFi_pg (F : Field) (v : Int) : (s.setFi F v).pg = s.pg := rfl
@[simp] theorem State.setFi_cap (F : Field) (v : Int) : (s.setFi F v).cap = s.cap := rfl
@[simp] theorem State.setFi_msixSent (F : Field) (v : Int) : (s.setFi F v).msixSent = s.msixSent := rfl
@[simp] theorem State.setFi_door (F : Field) (v : Int) : (s.setFi F v).door = s.door := rfl
@[simp] theorem State.setFi_fio (F : Field) (v : Int) : (s.setFi F v).fio = s.fio := rfl
@[simp] theorem State.setFi_cqes (F : Field) (v : Int) : (s.setFi F v).cqes = s.cqes := rfl
@[simp] theorem State.setFi_nmg (F : Field) (v : Int) : (s.setFi F v).nmg = s.nmg := rfl
@[simp] theorem State.setFi_snap (F : Field) (v : Int) : (s.setFi F v).snap = s.snap := rfl
@[simp] theorem State.setFi_eng (F : Field) (v : Int) : (s.setFi F v).eng = s.eng := rfl
@[simp] theorem State.setFi_clv (F : Field) (v : Int) : (s.setFi F v).clv = s.clv := rfl
@[simp] theorem State.setFi_saf (F : Field) (v : Int) : (s.setFi F v).saf = s.saf := rfl
@[simp] theorem State.setFi_plc (F : Field) (v : Int) : (s.setFi F v).plc = s.plc := rfl
@[simp] theorem State.setFi_ident (F : Field) (v : Int) : (s.setFi F v).ident = s.ident := rfl
@[simp] theorem State.setFi_ring (F : Field) (v : Int) : (s.setFi F v).ring = s.ring := rfl
@[simp] theorem State.setFi_hqNext (F : Field) (v : Int) : (s.setFi F v).hqNext = s.hqNext := rfl
@[simp] theorem State.setFi_turn (F : Field) (v : Int) : (s.setFi F v).turn = s.turn := rfl
@[simp] theorem State.setFi_host (F : Field) (v : Int) : (s.setFi F v).host = s.host := rfl
@[simp] theorem State.setFi_bbs (F : Field) (v : Int) : (s.setFi F v).bbs = s.bbs := rfl
@[simp] theorem State.setFi_fov (F : Field) (v : Int) : (s.setFi F v).fov = s.fov := rfl
@[simp] theorem State.setFi_ans (F : Field) (v : Int) : (s.setFi F v).ans = s.ans := rfl
@[simp] theorem State.setFi_pws (F : Field) (v : Int) : (s.setFi F v).pws = s.pws := rfl
@[simp] theorem State.setFi_byte (F : Field) (v : Int) (mm : MemId) (j : Nat) : (s.setFi F v).byte mm j = s.byte mm j := rfl
@[simp] theorem State.setFi_en (F : Field) (v : Int) (f : Nat) : (s.setFi F v).en f = s.en f := rfl
@[simp] theorem State.setFi_bankRd (F : Field) (v : Int) (mm : Master) (k : Nat) : (s.setFi F v).bankRd mm k = s.bankRd mm k := rfl

/-! flag -/

@[simp] theorem State.flag_pending (F : Field) (b : Bool) : (s.flag F b).pending = s.pending := rfl
@[simp] theorem State.flag_now (F : Field) (b : Bool) : (s.flag F b).now = s.now := rfl
@[simp] theorem State.flag_moves (F : Field) (b : Bool) : (s.flag F b).moves = s.moves := rfl
@[simp] theorem State.flag_free (F : Field) (b : Bool) : (s.flag F b).free = s.free := rfl
@[simp] theorem State.flag_lastResp (F : Field) (b : Bool) : (s.flag F b).lastResp = s.lastResp := rfl
@[simp] theorem State.flag_was (F : Field) (b : Bool) : (s.flag F b).was = s.was := rfl
@[simp] theorem State.flag_bank (F : Field) (b : Bool) : (s.flag F b).bank = s.bank := rfl
@[simp] theorem State.flag_mem (F : Field) (b : Bool) : (s.flag F b).mem = s.mem := rfl
@[simp] theorem State.flag_agenda (F : Field) (b : Bool) : (s.flag F b).agenda = s.agenda := rfl
@[simp] theorem State.flag_clvIn (F : Field) (b : Bool) : (s.flag F b).clvIn = s.clvIn := rfl
@[simp] theorem State.flag_ansIn (F : Field) (b : Bool) : (s.flag F b).ansIn = s.ansIn := rfl
@[simp] theorem State.flag_tbase (F : Field) (b : Bool) : (s.flag F b).tbase = s.tbase := rfl
@[simp] theorem State.flag_tbu (F : Field) (b : Bool) : (s.flag F b).tbu = s.tbu := rfl
@[simp] theorem State.flag_dpw (F : Field) (b : Bool) : (s.flag F b).dpw = s.dpw := rfl
@[simp] theorem State.flag_leg (F : Field) (b : Bool) : (s.flag F b).leg = s.leg := rfl
@[simp] theorem State.flag_tripIn (F : Field) (b : Bool) : (s.flag F b).tripIn = s.tripIn := rfl
@[simp] theorem State.flag_caq (F : Field) (b : Bool) : (s.flag F b).caq = s.caq := rfl
@[simp] theorem State.flag_caqOld (F : Field) (b : Bool) : (s.flag F b).caqOld = s.caqOld := rfl
@[simp] theorem State.flag_ecc (F : Field) (b : Bool) : (s.flag F b).ecc = s.ecc := rfl
@[simp] theorem State.flag_dsck (F : Field) (b : Bool) : (s.flag F b).dsck = s.dsck := rfl
@[simp] theorem State.flag_pfb (F : Field) (b : Bool) : (s.flag F b).pfb = s.pfb := rfl
@[simp] theorem State.flag_hbDue (F : Field) (b : Bool) : (s.flag F b).hbDue = s.hbDue := rfl
@[simp] theorem State.flag_slot (F : Field) (b : Bool) : (s.flag F b).slot = s.slot := rfl
@[simp] theorem State.flag_lpe (F : Field) (b : Bool) : (s.flag F b).lpe = s.lpe := rfl
@[simp] theorem State.flag_pg (F : Field) (b : Bool) : (s.flag F b).pg = s.pg := rfl
@[simp] theorem State.flag_cap (F : Field) (b : Bool) : (s.flag F b).cap = s.cap := rfl
@[simp] theorem State.flag_msixSent (F : Field) (b : Bool) : (s.flag F b).msixSent = s.msixSent := rfl
@[simp] theorem State.flag_door (F : Field) (b : Bool) : (s.flag F b).door = s.door := rfl
@[simp] theorem State.flag_fio (F : Field) (b : Bool) : (s.flag F b).fio = s.fio := rfl
@[simp] theorem State.flag_cqes (F : Field) (b : Bool) : (s.flag F b).cqes = s.cqes := rfl
@[simp] theorem State.flag_nmg (F : Field) (b : Bool) : (s.flag F b).nmg = s.nmg := rfl
@[simp] theorem State.flag_snap (F : Field) (b : Bool) : (s.flag F b).snap = s.snap := rfl
@[simp] theorem State.flag_eng (F : Field) (b : Bool) : (s.flag F b).eng = s.eng := rfl
@[simp] theorem State.flag_clv (F : Field) (b : Bool) : (s.flag F b).clv = s.clv := rfl
@[simp] theorem State.flag_saf (F : Field) (b : Bool) : (s.flag F b).saf = s.saf := rfl
@[simp] theorem State.flag_plc (F : Field) (b : Bool) : (s.flag F b).plc = s.plc := rfl
@[simp] theorem State.flag_ident (F : Field) (b : Bool) : (s.flag F b).ident = s.ident := rfl
@[simp] theorem State.flag_ring (F : Field) (b : Bool) : (s.flag F b).ring = s.ring := rfl
@[simp] theorem State.flag_hqNext (F : Field) (b : Bool) : (s.flag F b).hqNext = s.hqNext := rfl
@[simp] theorem State.flag_turn (F : Field) (b : Bool) : (s.flag F b).turn = s.turn := rfl
@[simp] theorem State.flag_host (F : Field) (b : Bool) : (s.flag F b).host = s.host := rfl
@[simp] theorem State.flag_bbs (F : Field) (b : Bool) : (s.flag F b).bbs = s.bbs := rfl
@[simp] theorem State.flag_fov (F : Field) (b : Bool) : (s.flag F b).fov = s.fov := rfl
@[simp] theorem State.flag_ans (F : Field) (b : Bool) : (s.flag F b).ans = s.ans := rfl
@[simp] theorem State.flag_pws (F : Field) (b : Bool) : (s.flag F b).pws = s.pws := rfl
@[simp] theorem State.flag_byte (F : Field) (b : Bool) (mm : MemId) (j : Nat) : (s.flag F b).byte mm j = s.byte mm j := rfl
@[simp] theorem State.flag_en (F : Field) (b : Bool) (f : Nat) : (s.flag F b).en f = s.en f := rfl
@[simp] theorem State.flag_bankRd (F : Field) (b : Bool) (mm : Master) (k : Nat) : (s.flag F b).bankRd mm k = s.bankRd mm k := rfl

/-! raise -/

@[simp] theorem State.raise_pending (F : Field) : (s.raise F).pending = s.pending := rfl
@[simp] theorem State.raise_now (F : Field) : (s.raise F).now = s.now := rfl
@[simp] theorem State.raise_moves (F : Field) : (s.raise F).moves = s.moves := rfl
@[simp] theorem State.raise_free (F : Field) : (s.raise F).free = s.free := rfl
@[simp] theorem State.raise_lastResp (F : Field) : (s.raise F).lastResp = s.lastResp := rfl
@[simp] theorem State.raise_was (F : Field) : (s.raise F).was = s.was := rfl
@[simp] theorem State.raise_bank (F : Field) : (s.raise F).bank = s.bank := rfl
@[simp] theorem State.raise_mem (F : Field) : (s.raise F).mem = s.mem := rfl
@[simp] theorem State.raise_agenda (F : Field) : (s.raise F).agenda = s.agenda := rfl
@[simp] theorem State.raise_clvIn (F : Field) : (s.raise F).clvIn = s.clvIn := rfl
@[simp] theorem State.raise_ansIn (F : Field) : (s.raise F).ansIn = s.ansIn := rfl
@[simp] theorem State.raise_tbase (F : Field) : (s.raise F).tbase = s.tbase := rfl
@[simp] theorem State.raise_tbu (F : Field) : (s.raise F).tbu = s.tbu := rfl
@[simp] theorem State.raise_dpw (F : Field) : (s.raise F).dpw = s.dpw := rfl
@[simp] theorem State.raise_leg (F : Field) : (s.raise F).leg = s.leg := rfl
@[simp] theorem State.raise_tripIn (F : Field) : (s.raise F).tripIn = s.tripIn := rfl
@[simp] theorem State.raise_caq (F : Field) : (s.raise F).caq = s.caq := rfl
@[simp] theorem State.raise_caqOld (F : Field) : (s.raise F).caqOld = s.caqOld := rfl
@[simp] theorem State.raise_ecc (F : Field) : (s.raise F).ecc = s.ecc := rfl
@[simp] theorem State.raise_dsck (F : Field) : (s.raise F).dsck = s.dsck := rfl
@[simp] theorem State.raise_pfb (F : Field) : (s.raise F).pfb = s.pfb := rfl
@[simp] theorem State.raise_hbDue (F : Field) : (s.raise F).hbDue = s.hbDue := rfl
@[simp] theorem State.raise_slot (F : Field) : (s.raise F).slot = s.slot := rfl
@[simp] theorem State.raise_lpe (F : Field) : (s.raise F).lpe = s.lpe := rfl
@[simp] theorem State.raise_pg (F : Field) : (s.raise F).pg = s.pg := rfl
@[simp] theorem State.raise_cap (F : Field) : (s.raise F).cap = s.cap := rfl
@[simp] theorem State.raise_msixSent (F : Field) : (s.raise F).msixSent = s.msixSent := rfl
@[simp] theorem State.raise_door (F : Field) : (s.raise F).door = s.door := rfl
@[simp] theorem State.raise_fio (F : Field) : (s.raise F).fio = s.fio := rfl
@[simp] theorem State.raise_cqes (F : Field) : (s.raise F).cqes = s.cqes := rfl
@[simp] theorem State.raise_nmg (F : Field) : (s.raise F).nmg = s.nmg := rfl
@[simp] theorem State.raise_snap (F : Field) : (s.raise F).snap = s.snap := rfl
@[simp] theorem State.raise_eng (F : Field) : (s.raise F).eng = s.eng := rfl
@[simp] theorem State.raise_clv (F : Field) : (s.raise F).clv = s.clv := rfl
@[simp] theorem State.raise_saf (F : Field) : (s.raise F).saf = s.saf := rfl
@[simp] theorem State.raise_plc (F : Field) : (s.raise F).plc = s.plc := rfl
@[simp] theorem State.raise_ident (F : Field) : (s.raise F).ident = s.ident := rfl
@[simp] theorem State.raise_ring (F : Field) : (s.raise F).ring = s.ring := rfl
@[simp] theorem State.raise_hqNext (F : Field) : (s.raise F).hqNext = s.hqNext := rfl
@[simp] theorem State.raise_turn (F : Field) : (s.raise F).turn = s.turn := rfl
@[simp] theorem State.raise_host (F : Field) : (s.raise F).host = s.host := rfl
@[simp] theorem State.raise_bbs (F : Field) : (s.raise F).bbs = s.bbs := rfl
@[simp] theorem State.raise_fov (F : Field) : (s.raise F).fov = s.fov := rfl
@[simp] theorem State.raise_ans (F : Field) : (s.raise F).ans = s.ans := rfl
@[simp] theorem State.raise_pws (F : Field) : (s.raise F).pws = s.pws := rfl
@[simp] theorem State.raise_byte (F : Field) (mm : MemId) (j : Nat) : (s.raise F).byte mm j = s.byte mm j := rfl
@[simp] theorem State.raise_en (F : Field) (f : Nat) : (s.raise F).en f = s.en f := rfl
@[simp] theorem State.raise_bankRd (F : Field) (mm : Master) (k : Nat) : (s.raise F).bankRd mm k = s.bankRd mm k := rfl

/-! bump -/

@[simp] theorem State.bump_pending (F : Field) (n : Nat) : (s.bump F n).pending = s.pending := rfl
@[simp] theorem State.bump_now (F : Field) (n : Nat) : (s.bump F n).now = s.now := rfl
@[simp] theorem State.bump_moves (F : Field) (n : Nat) : (s.bump F n).moves = s.moves := rfl
@[simp] theorem State.bump_free (F : Field) (n : Nat) : (s.bump F n).free = s.free := rfl
@[simp] theorem State.bump_lastResp (F : Field) (n : Nat) : (s.bump F n).lastResp = s.lastResp := rfl
@[simp] theorem State.bump_was (F : Field) (n : Nat) : (s.bump F n).was = s.was := rfl
@[simp] theorem State.bump_bank (F : Field) (n : Nat) : (s.bump F n).bank = s.bank := rfl
@[simp] theorem State.bump_mem (F : Field) (n : Nat) : (s.bump F n).mem = s.mem := rfl
@[simp] theorem State.bump_agenda (F : Field) (n : Nat) : (s.bump F n).agenda = s.agenda := rfl
@[simp] theorem State.bump_clvIn (F : Field) (n : Nat) : (s.bump F n).clvIn = s.clvIn := rfl
@[simp] theorem State.bump_ansIn (F : Field) (n : Nat) : (s.bump F n).ansIn = s.ansIn := rfl
@[simp] theorem State.bump_tbase (F : Field) (n : Nat) : (s.bump F n).tbase = s.tbase := rfl
@[simp] theorem State.bump_tbu (F : Field) (n : Nat) : (s.bump F n).tbu = s.tbu := rfl
@[simp] theorem State.bump_dpw (F : Field) (n : Nat) : (s.bump F n).dpw = s.dpw := rfl
@[simp] theorem State.bump_leg (F : Field) (n : Nat) : (s.bump F n).leg = s.leg := rfl
@[simp] theorem State.bump_tripIn (F : Field) (n : Nat) : (s.bump F n).tripIn = s.tripIn := rfl
@[simp] theorem State.bump_caq (F : Field) (n : Nat) : (s.bump F n).caq = s.caq := rfl
@[simp] theorem State.bump_caqOld (F : Field) (n : Nat) : (s.bump F n).caqOld = s.caqOld := rfl
@[simp] theorem State.bump_ecc (F : Field) (n : Nat) : (s.bump F n).ecc = s.ecc := rfl
@[simp] theorem State.bump_dsck (F : Field) (n : Nat) : (s.bump F n).dsck = s.dsck := rfl
@[simp] theorem State.bump_pfb (F : Field) (n : Nat) : (s.bump F n).pfb = s.pfb := rfl
@[simp] theorem State.bump_hbDue (F : Field) (n : Nat) : (s.bump F n).hbDue = s.hbDue := rfl
@[simp] theorem State.bump_slot (F : Field) (n : Nat) : (s.bump F n).slot = s.slot := rfl
@[simp] theorem State.bump_lpe (F : Field) (n : Nat) : (s.bump F n).lpe = s.lpe := rfl
@[simp] theorem State.bump_pg (F : Field) (n : Nat) : (s.bump F n).pg = s.pg := rfl
@[simp] theorem State.bump_cap (F : Field) (n : Nat) : (s.bump F n).cap = s.cap := rfl
@[simp] theorem State.bump_msixSent (F : Field) (n : Nat) : (s.bump F n).msixSent = s.msixSent := rfl
@[simp] theorem State.bump_door (F : Field) (n : Nat) : (s.bump F n).door = s.door := rfl
@[simp] theorem State.bump_fio (F : Field) (n : Nat) : (s.bump F n).fio = s.fio := rfl
@[simp] theorem State.bump_cqes (F : Field) (n : Nat) : (s.bump F n).cqes = s.cqes := rfl
@[simp] theorem State.bump_nmg (F : Field) (n : Nat) : (s.bump F n).nmg = s.nmg := rfl
@[simp] theorem State.bump_snap (F : Field) (n : Nat) : (s.bump F n).snap = s.snap := rfl
@[simp] theorem State.bump_eng (F : Field) (n : Nat) : (s.bump F n).eng = s.eng := rfl
@[simp] theorem State.bump_clv (F : Field) (n : Nat) : (s.bump F n).clv = s.clv := rfl
@[simp] theorem State.bump_saf (F : Field) (n : Nat) : (s.bump F n).saf = s.saf := rfl
@[simp] theorem State.bump_plc (F : Field) (n : Nat) : (s.bump F n).plc = s.plc := rfl
@[simp] theorem State.bump_ident (F : Field) (n : Nat) : (s.bump F n).ident = s.ident := rfl
@[simp] theorem State.bump_ring (F : Field) (n : Nat) : (s.bump F n).ring = s.ring := rfl
@[simp] theorem State.bump_hqNext (F : Field) (n : Nat) : (s.bump F n).hqNext = s.hqNext := rfl
@[simp] theorem State.bump_turn (F : Field) (n : Nat) : (s.bump F n).turn = s.turn := rfl
@[simp] theorem State.bump_host (F : Field) (n : Nat) : (s.bump F n).host = s.host := rfl
@[simp] theorem State.bump_bbs (F : Field) (n : Nat) : (s.bump F n).bbs = s.bbs := rfl
@[simp] theorem State.bump_fov (F : Field) (n : Nat) : (s.bump F n).fov = s.fov := rfl
@[simp] theorem State.bump_ans (F : Field) (n : Nat) : (s.bump F n).ans = s.ans := rfl
@[simp] theorem State.bump_pws (F : Field) (n : Nat) : (s.bump F n).pws = s.pws := rfl
@[simp] theorem State.bump_byte (F : Field) (n : Nat) (mm : MemId) (j : Nat) : (s.bump F n).byte mm j = s.byte mm j := rfl
@[simp] theorem State.bump_en (F : Field) (n : Nat) (f : Nat) : (s.bump F n).en f = s.en f := rfl
@[simp] theorem State.bump_bankRd (F : Field) (n : Nat) (mm : Master) (k : Nat) : (s.bump F n).bankRd mm k = s.bankRd mm k := rfl

/-! bumpMod -/

@[simp] theorem State.bumpMod_pending (F : Field) (n : Nat) : (s.bumpMod F n).pending = s.pending := rfl
@[simp] theorem State.bumpMod_now (F : Field) (n : Nat) : (s.bumpMod F n).now = s.now := rfl
@[simp] theorem State.bumpMod_moves (F : Field) (n : Nat) : (s.bumpMod F n).moves = s.moves := rfl
@[simp] theorem State.bumpMod_free (F : Field) (n : Nat) : (s.bumpMod F n).free = s.free := rfl
@[simp] theorem State.bumpMod_lastResp (F : Field) (n : Nat) : (s.bumpMod F n).lastResp = s.lastResp := rfl
@[simp] theorem State.bumpMod_was (F : Field) (n : Nat) : (s.bumpMod F n).was = s.was := rfl
@[simp] theorem State.bumpMod_bank (F : Field) (n : Nat) : (s.bumpMod F n).bank = s.bank := rfl
@[simp] theorem State.bumpMod_mem (F : Field) (n : Nat) : (s.bumpMod F n).mem = s.mem := rfl
@[simp] theorem State.bumpMod_agenda (F : Field) (n : Nat) : (s.bumpMod F n).agenda = s.agenda := rfl
@[simp] theorem State.bumpMod_clvIn (F : Field) (n : Nat) : (s.bumpMod F n).clvIn = s.clvIn := rfl
@[simp] theorem State.bumpMod_ansIn (F : Field) (n : Nat) : (s.bumpMod F n).ansIn = s.ansIn := rfl
@[simp] theorem State.bumpMod_tbase (F : Field) (n : Nat) : (s.bumpMod F n).tbase = s.tbase := rfl
@[simp] theorem State.bumpMod_tbu (F : Field) (n : Nat) : (s.bumpMod F n).tbu = s.tbu := rfl
@[simp] theorem State.bumpMod_dpw (F : Field) (n : Nat) : (s.bumpMod F n).dpw = s.dpw := rfl
@[simp] theorem State.bumpMod_leg (F : Field) (n : Nat) : (s.bumpMod F n).leg = s.leg := rfl
@[simp] theorem State.bumpMod_tripIn (F : Field) (n : Nat) : (s.bumpMod F n).tripIn = s.tripIn := rfl
@[simp] theorem State.bumpMod_caq (F : Field) (n : Nat) : (s.bumpMod F n).caq = s.caq := rfl
@[simp] theorem State.bumpMod_caqOld (F : Field) (n : Nat) : (s.bumpMod F n).caqOld = s.caqOld := rfl
@[simp] theorem State.bumpMod_ecc (F : Field) (n : Nat) : (s.bumpMod F n).ecc = s.ecc := rfl
@[simp] theorem State.bumpMod_dsck (F : Field) (n : Nat) : (s.bumpMod F n).dsck = s.dsck := rfl
@[simp] theorem State.bumpMod_pfb (F : Field) (n : Nat) : (s.bumpMod F n).pfb = s.pfb := rfl
@[simp] theorem State.bumpMod_hbDue (F : Field) (n : Nat) : (s.bumpMod F n).hbDue = s.hbDue := rfl
@[simp] theorem State.bumpMod_slot (F : Field) (n : Nat) : (s.bumpMod F n).slot = s.slot := rfl
@[simp] theorem State.bumpMod_lpe (F : Field) (n : Nat) : (s.bumpMod F n).lpe = s.lpe := rfl
@[simp] theorem State.bumpMod_pg (F : Field) (n : Nat) : (s.bumpMod F n).pg = s.pg := rfl
@[simp] theorem State.bumpMod_cap (F : Field) (n : Nat) : (s.bumpMod F n).cap = s.cap := rfl
@[simp] theorem State.bumpMod_msixSent (F : Field) (n : Nat) : (s.bumpMod F n).msixSent = s.msixSent := rfl
@[simp] theorem State.bumpMod_door (F : Field) (n : Nat) : (s.bumpMod F n).door = s.door := rfl
@[simp] theorem State.bumpMod_fio (F : Field) (n : Nat) : (s.bumpMod F n).fio = s.fio := rfl
@[simp] theorem State.bumpMod_cqes (F : Field) (n : Nat) : (s.bumpMod F n).cqes = s.cqes := rfl
@[simp] theorem State.bumpMod_nmg (F : Field) (n : Nat) : (s.bumpMod F n).nmg = s.nmg := rfl
@[simp] theorem State.bumpMod_snap (F : Field) (n : Nat) : (s.bumpMod F n).snap = s.snap := rfl
@[simp] theorem State.bumpMod_eng (F : Field) (n : Nat) : (s.bumpMod F n).eng = s.eng := rfl
@[simp] theorem State.bumpMod_clv (F : Field) (n : Nat) : (s.bumpMod F n).clv = s.clv := rfl
@[simp] theorem State.bumpMod_saf (F : Field) (n : Nat) : (s.bumpMod F n).saf = s.saf := rfl
@[simp] theorem State.bumpMod_plc (F : Field) (n : Nat) : (s.bumpMod F n).plc = s.plc := rfl
@[simp] theorem State.bumpMod_ident (F : Field) (n : Nat) : (s.bumpMod F n).ident = s.ident := rfl
@[simp] theorem State.bumpMod_ring (F : Field) (n : Nat) : (s.bumpMod F n).ring = s.ring := rfl
@[simp] theorem State.bumpMod_hqNext (F : Field) (n : Nat) : (s.bumpMod F n).hqNext = s.hqNext := rfl
@[simp] theorem State.bumpMod_turn (F : Field) (n : Nat) : (s.bumpMod F n).turn = s.turn := rfl
@[simp] theorem State.bumpMod_host (F : Field) (n : Nat) : (s.bumpMod F n).host = s.host := rfl
@[simp] theorem State.bumpMod_bbs (F : Field) (n : Nat) : (s.bumpMod F n).bbs = s.bbs := rfl
@[simp] theorem State.bumpMod_fov (F : Field) (n : Nat) : (s.bumpMod F n).fov = s.fov := rfl
@[simp] theorem State.bumpMod_ans (F : Field) (n : Nat) : (s.bumpMod F n).ans = s.ans := rfl
@[simp] theorem State.bumpMod_pws (F : Field) (n : Nat) : (s.bumpMod F n).pws = s.pws := rfl
@[simp] theorem State.bumpMod_byte (F : Field) (n : Nat) (mm : MemId) (j : Nat) : (s.bumpMod F n).byte mm j = s.byte mm j := rfl
@[simp] theorem State.bumpMod_en (F : Field) (n : Nat) (f : Nat) : (s.bumpMod F n).en f = s.en f := rfl
@[simp] theorem State.bumpMod_bankRd (F : Field) (n : Nat) (mm : Master) (k : Nat) : (s.bumpMod F n).bankRd mm k = s.bankRd mm k := rfl

/-! wrI -/

@[simp] theorem State.wrI_pending (o : Nat) (v : Int) : (s.wrI o v).pending = s.pending := rfl
@[simp] theorem State.wrI_now (o : Nat) (v : Int) : (s.wrI o v).now = s.now := rfl
@[simp] theorem State.wrI_moves (o : Nat) (v : Int) : (s.wrI o v).moves = s.moves := rfl
@[simp] theorem State.wrI_free (o : Nat) (v : Int) : (s.wrI o v).free = s.free := rfl
@[simp] theorem State.wrI_lastResp (o : Nat) (v : Int) : (s.wrI o v).lastResp = s.lastResp := rfl
@[simp] theorem State.wrI_was (o : Nat) (v : Int) : (s.wrI o v).was = s.was := rfl
@[simp] theorem State.wrI_bank (o : Nat) (v : Int) : (s.wrI o v).bank = s.bank := rfl
@[simp] theorem State.wrI_mem (o : Nat) (v : Int) : (s.wrI o v).mem = s.mem := rfl
@[simp] theorem State.wrI_agenda (o : Nat) (v : Int) : (s.wrI o v).agenda = s.agenda := rfl
@[simp] theorem State.wrI_clvIn (o : Nat) (v : Int) : (s.wrI o v).clvIn = s.clvIn := rfl
@[simp] theorem State.wrI_ansIn (o : Nat) (v : Int) : (s.wrI o v).ansIn = s.ansIn := rfl
@[simp] theorem State.wrI_tbase (o : Nat) (v : Int) : (s.wrI o v).tbase = s.tbase := rfl
@[simp] theorem State.wrI_tbu (o : Nat) (v : Int) : (s.wrI o v).tbu = s.tbu := rfl
@[simp] theorem State.wrI_dpw (o : Nat) (v : Int) : (s.wrI o v).dpw = s.dpw := rfl
@[simp] theorem State.wrI_leg (o : Nat) (v : Int) : (s.wrI o v).leg = s.leg := rfl
@[simp] theorem State.wrI_tripIn (o : Nat) (v : Int) : (s.wrI o v).tripIn = s.tripIn := rfl
@[simp] theorem State.wrI_caq (o : Nat) (v : Int) : (s.wrI o v).caq = s.caq := rfl
@[simp] theorem State.wrI_caqOld (o : Nat) (v : Int) : (s.wrI o v).caqOld = s.caqOld := rfl
@[simp] theorem State.wrI_ecc (o : Nat) (v : Int) : (s.wrI o v).ecc = s.ecc := rfl
@[simp] theorem State.wrI_dsck (o : Nat) (v : Int) : (s.wrI o v).dsck = s.dsck := rfl
@[simp] theorem State.wrI_pfb (o : Nat) (v : Int) : (s.wrI o v).pfb = s.pfb := rfl
@[simp] theorem State.wrI_hbDue (o : Nat) (v : Int) : (s.wrI o v).hbDue = s.hbDue := rfl
@[simp] theorem State.wrI_slot (o : Nat) (v : Int) : (s.wrI o v).slot = s.slot := rfl
@[simp] theorem State.wrI_lpe (o : Nat) (v : Int) : (s.wrI o v).lpe = s.lpe := rfl
@[simp] theorem State.wrI_pg (o : Nat) (v : Int) : (s.wrI o v).pg = s.pg := rfl
@[simp] theorem State.wrI_cap (o : Nat) (v : Int) : (s.wrI o v).cap = s.cap := rfl
@[simp] theorem State.wrI_msixSent (o : Nat) (v : Int) : (s.wrI o v).msixSent = s.msixSent := rfl
@[simp] theorem State.wrI_door (o : Nat) (v : Int) : (s.wrI o v).door = s.door := rfl
@[simp] theorem State.wrI_fio (o : Nat) (v : Int) : (s.wrI o v).fio = s.fio := rfl
@[simp] theorem State.wrI_cqes (o : Nat) (v : Int) : (s.wrI o v).cqes = s.cqes := rfl
@[simp] theorem State.wrI_nmg (o : Nat) (v : Int) : (s.wrI o v).nmg = s.nmg := rfl
@[simp] theorem State.wrI_snap (o : Nat) (v : Int) : (s.wrI o v).snap = s.snap := rfl
@[simp] theorem State.wrI_eng (o : Nat) (v : Int) : (s.wrI o v).eng = s.eng := rfl
@[simp] theorem State.wrI_clv (o : Nat) (v : Int) : (s.wrI o v).clv = s.clv := rfl
@[simp] theorem State.wrI_saf (o : Nat) (v : Int) : (s.wrI o v).saf = s.saf := rfl
@[simp] theorem State.wrI_plc (o : Nat) (v : Int) : (s.wrI o v).plc = s.plc := rfl
@[simp] theorem State.wrI_ident (o : Nat) (v : Int) : (s.wrI o v).ident = s.ident := rfl
@[simp] theorem State.wrI_ring (o : Nat) (v : Int) : (s.wrI o v).ring = s.ring := rfl
@[simp] theorem State.wrI_hqNext (o : Nat) (v : Int) : (s.wrI o v).hqNext = s.hqNext := rfl
@[simp] theorem State.wrI_turn (o : Nat) (v : Int) : (s.wrI o v).turn = s.turn := rfl
@[simp] theorem State.wrI_host (o : Nat) (v : Int) : (s.wrI o v).host = s.host := rfl
@[simp] theorem State.wrI_bbs (o : Nat) (v : Int) : (s.wrI o v).bbs = s.bbs := rfl
@[simp] theorem State.wrI_fov (o : Nat) (v : Int) : (s.wrI o v).fov = s.fov := rfl
@[simp] theorem State.wrI_ans (o : Nat) (v : Int) : (s.wrI o v).ans = s.ans := rfl
@[simp] theorem State.wrI_pws (o : Nat) (v : Int) : (s.wrI o v).pws = s.pws := rfl
@[simp] theorem State.wrI_byte (o : Nat) (v : Int) (mm : MemId) (j : Nat) : (s.wrI o v).byte mm j = s.byte mm j := rfl
@[simp] theorem State.wrI_en (o : Nat) (v : Int) (f : Nat) : (s.wrI o v).en f = s.en f := rfl
@[simp] theorem State.wrI_bankRd (o : Nat) (v : Int) (mm : Master) (k : Nat) : (s.wrI o v).bankRd mm k = s.bankRd mm k := rfl

/-! wrN -/

@[simp] theorem State.wrN_pending (o : Nat) (v : Nat) : (s.wrN o v).pending = s.pending := rfl
@[simp] theorem State.wrN_now (o : Nat) (v : Nat) : (s.wrN o v).now = s.now := rfl
@[simp] theorem State.wrN_moves (o : Nat) (v : Nat) : (s.wrN o v).moves = s.moves := rfl
@[simp] theorem State.wrN_free (o : Nat) (v : Nat) : (s.wrN o v).free = s.free := rfl
@[simp] theorem State.wrN_lastResp (o : Nat) (v : Nat) : (s.wrN o v).lastResp = s.lastResp := rfl
@[simp] theorem State.wrN_was (o : Nat) (v : Nat) : (s.wrN o v).was = s.was := rfl
@[simp] theorem State.wrN_bank (o : Nat) (v : Nat) : (s.wrN o v).bank = s.bank := rfl
@[simp] theorem State.wrN_mem (o : Nat) (v : Nat) : (s.wrN o v).mem = s.mem := rfl
@[simp] theorem State.wrN_agenda (o : Nat) (v : Nat) : (s.wrN o v).agenda = s.agenda := rfl
@[simp] theorem State.wrN_clvIn (o : Nat) (v : Nat) : (s.wrN o v).clvIn = s.clvIn := rfl
@[simp] theorem State.wrN_ansIn (o : Nat) (v : Nat) : (s.wrN o v).ansIn = s.ansIn := rfl
@[simp] theorem State.wrN_tbase (o : Nat) (v : Nat) : (s.wrN o v).tbase = s.tbase := rfl
@[simp] theorem State.wrN_tbu (o : Nat) (v : Nat) : (s.wrN o v).tbu = s.tbu := rfl
@[simp] theorem State.wrN_dpw (o : Nat) (v : Nat) : (s.wrN o v).dpw = s.dpw := rfl
@[simp] theorem State.wrN_leg (o : Nat) (v : Nat) : (s.wrN o v).leg = s.leg := rfl
@[simp] theorem State.wrN_tripIn (o : Nat) (v : Nat) : (s.wrN o v).tripIn = s.tripIn := rfl
@[simp] theorem State.wrN_caq (o : Nat) (v : Nat) : (s.wrN o v).caq = s.caq := rfl
@[simp] theorem State.wrN_caqOld (o : Nat) (v : Nat) : (s.wrN o v).caqOld = s.caqOld := rfl
@[simp] theorem State.wrN_ecc (o : Nat) (v : Nat) : (s.wrN o v).ecc = s.ecc := rfl
@[simp] theorem State.wrN_dsck (o : Nat) (v : Nat) : (s.wrN o v).dsck = s.dsck := rfl
@[simp] theorem State.wrN_pfb (o : Nat) (v : Nat) : (s.wrN o v).pfb = s.pfb := rfl
@[simp] theorem State.wrN_hbDue (o : Nat) (v : Nat) : (s.wrN o v).hbDue = s.hbDue := rfl
@[simp] theorem State.wrN_slot (o : Nat) (v : Nat) : (s.wrN o v).slot = s.slot := rfl
@[simp] theorem State.wrN_lpe (o : Nat) (v : Nat) : (s.wrN o v).lpe = s.lpe := rfl
@[simp] theorem State.wrN_pg (o : Nat) (v : Nat) : (s.wrN o v).pg = s.pg := rfl
@[simp] theorem State.wrN_cap (o : Nat) (v : Nat) : (s.wrN o v).cap = s.cap := rfl
@[simp] theorem State.wrN_msixSent (o : Nat) (v : Nat) : (s.wrN o v).msixSent = s.msixSent := rfl
@[simp] theorem State.wrN_door (o : Nat) (v : Nat) : (s.wrN o v).door = s.door := rfl
@[simp] theorem State.wrN_fio (o : Nat) (v : Nat) : (s.wrN o v).fio = s.fio := rfl
@[simp] theorem State.wrN_cqes (o : Nat) (v : Nat) : (s.wrN o v).cqes = s.cqes := rfl
@[simp] theorem State.wrN_nmg (o : Nat) (v : Nat) : (s.wrN o v).nmg = s.nmg := rfl
@[simp] theorem State.wrN_snap (o : Nat) (v : Nat) : (s.wrN o v).snap = s.snap := rfl
@[simp] theorem State.wrN_eng (o : Nat) (v : Nat) : (s.wrN o v).eng = s.eng := rfl
@[simp] theorem State.wrN_clv (o : Nat) (v : Nat) : (s.wrN o v).clv = s.clv := rfl
@[simp] theorem State.wrN_saf (o : Nat) (v : Nat) : (s.wrN o v).saf = s.saf := rfl
@[simp] theorem State.wrN_plc (o : Nat) (v : Nat) : (s.wrN o v).plc = s.plc := rfl
@[simp] theorem State.wrN_ident (o : Nat) (v : Nat) : (s.wrN o v).ident = s.ident := rfl
@[simp] theorem State.wrN_ring (o : Nat) (v : Nat) : (s.wrN o v).ring = s.ring := rfl
@[simp] theorem State.wrN_hqNext (o : Nat) (v : Nat) : (s.wrN o v).hqNext = s.hqNext := rfl
@[simp] theorem State.wrN_turn (o : Nat) (v : Nat) : (s.wrN o v).turn = s.turn := rfl
@[simp] theorem State.wrN_host (o : Nat) (v : Nat) : (s.wrN o v).host = s.host := rfl
@[simp] theorem State.wrN_bbs (o : Nat) (v : Nat) : (s.wrN o v).bbs = s.bbs := rfl
@[simp] theorem State.wrN_fov (o : Nat) (v : Nat) : (s.wrN o v).fov = s.fov := rfl
@[simp] theorem State.wrN_ans (o : Nat) (v : Nat) : (s.wrN o v).ans = s.ans := rfl
@[simp] theorem State.wrN_pws (o : Nat) (v : Nat) : (s.wrN o v).pws = s.pws := rfl
@[simp] theorem State.wrN_byte (o : Nat) (v : Nat) (mm : MemId) (j : Nat) : (s.wrN o v).byte mm j = s.byte mm j := rfl
@[simp] theorem State.wrN_en (o : Nat) (v : Nat) (f : Nat) : (s.wrN o v).en f = s.en f := rfl
@[simp] theorem State.wrN_bankRd (o : Nat) (v : Nat) (mm : Master) (k : Nat) : (s.wrN o v).bankRd mm k = s.bankRd mm k := rfl

/-! bankWr -/

@[simp] theorem State.bankWr_pending (m : Master) (o : Nat) (v : Word) : (s.bankWr m o v).pending = s.pending := by unfold State.bankWr; rfl
@[simp] theorem State.bankWr_now (m : Master) (o : Nat) (v : Word) : (s.bankWr m o v).now = s.now := by unfold State.bankWr; rfl
@[simp] theorem State.bankWr_moves (m : Master) (o : Nat) (v : Word) : (s.bankWr m o v).moves = s.moves := by unfold State.bankWr; rfl
@[simp] theorem State.bankWr_free (m : Master) (o : Nat) (v : Word) : (s.bankWr m o v).free = s.free := by unfold State.bankWr; rfl
@[simp] theorem State.bankWr_lastResp (m : Master) (o : Nat) (v : Word) : (s.bankWr m o v).lastResp = s.lastResp := by unfold State.bankWr; rfl
@[simp] theorem State.bankWr_was (m : Master) (o : Nat) (v : Word) : (s.bankWr m o v).was = s.was := by unfold State.bankWr; rfl
@[simp] theorem State.bankWr_regs (m : Master) (o : Nat) (v : Word) : (s.bankWr m o v).regs = s.regs := by unfold State.bankWr; rfl
@[simp] theorem State.bankWr_mem (m : Master) (o : Nat) (v : Word) : (s.bankWr m o v).mem = s.mem := by unfold State.bankWr; rfl
@[simp] theorem State.bankWr_agenda (m : Master) (o : Nat) (v : Word) : (s.bankWr m o v).agenda = s.agenda := by unfold State.bankWr; rfl
@[simp] theorem State.bankWr_clvIn (m : Master) (o : Nat) (v : Word) : (s.bankWr m o v).clvIn = s.clvIn := by unfold State.bankWr; rfl
@[simp] theorem State.bankWr_ansIn (m : Master) (o : Nat) (v : Word) : (s.bankWr m o v).ansIn = s.ansIn := by unfold State.bankWr; rfl
@[simp] theorem State.bankWr_tbase (m : Master) (o : Nat) (v : Word) : (s.bankWr m o v).tbase = s.tbase := by unfold State.bankWr; rfl
@[simp] theorem State.bankWr_tbu (m : Master) (o : Nat) (v : Word) : (s.bankWr m o v).tbu = s.tbu := by unfold State.bankWr; rfl
@[simp] theorem State.bankWr_dpw (m : Master) (o : Nat) (v : Word) : (s.bankWr m o v).dpw = s.dpw := by unfold State.bankWr; rfl
@[simp] theorem State.bankWr_leg (m : Master) (o : Nat) (v : Word) : (s.bankWr m o v).leg = s.leg := by unfold State.bankWr; rfl
@[simp] theorem State.bankWr_tripIn (m : Master) (o : Nat) (v : Word) : (s.bankWr m o v).tripIn = s.tripIn := by unfold State.bankWr; rfl
@[simp] theorem State.bankWr_caq (m : Master) (o : Nat) (v : Word) : (s.bankWr m o v).caq = s.caq := by unfold State.bankWr; rfl
@[simp] theorem State.bankWr_caqOld (m : Master) (o : Nat) (v : Word) : (s.bankWr m o v).caqOld = s.caqOld := by unfold State.bankWr; rfl
@[simp] theorem State.bankWr_ecc (m : Master) (o : Nat) (v : Word) : (s.bankWr m o v).ecc = s.ecc := by unfold State.bankWr; rfl
@[simp] theorem State.bankWr_dsck (m : Master) (o : Nat) (v : Word) : (s.bankWr m o v).dsck = s.dsck := by unfold State.bankWr; rfl
@[simp] theorem State.bankWr_pfb (m : Master) (o : Nat) (v : Word) : (s.bankWr m o v).pfb = s.pfb := by unfold State.bankWr; rfl
@[simp] theorem State.bankWr_hbDue (m : Master) (o : Nat) (v : Word) : (s.bankWr m o v).hbDue = s.hbDue := by unfold State.bankWr; rfl
@[simp] theorem State.bankWr_slot (m : Master) (o : Nat) (v : Word) : (s.bankWr m o v).slot = s.slot := by unfold State.bankWr; rfl
@[simp] theorem State.bankWr_lpe (m : Master) (o : Nat) (v : Word) : (s.bankWr m o v).lpe = s.lpe := by unfold State.bankWr; rfl
@[simp] theorem State.bankWr_pg (m : Master) (o : Nat) (v : Word) : (s.bankWr m o v).pg = s.pg := by unfold State.bankWr; rfl
@[simp] theorem State.bankWr_cap (m : Master) (o : Nat) (v : Word) : (s.bankWr m o v).cap = s.cap := by unfold State.bankWr; rfl
@[simp] theorem State.bankWr_msixSent (m : Master) (o : Nat) (v : Word) : (s.bankWr m o v).msixSent = s.msixSent := by unfold State.bankWr; rfl
@[simp] theorem State.bankWr_door (m : Master) (o : Nat) (v : Word) : (s.bankWr m o v).door = s.door := by unfold State.bankWr; rfl
@[simp] theorem State.bankWr_fio (m : Master) (o : Nat) (v : Word) : (s.bankWr m o v).fio = s.fio := by unfold State.bankWr; rfl
@[simp] theorem State.bankWr_cqes (m : Master) (o : Nat) (v : Word) : (s.bankWr m o v).cqes = s.cqes := by unfold State.bankWr; rfl
@[simp] theorem State.bankWr_nmg (m : Master) (o : Nat) (v : Word) : (s.bankWr m o v).nmg = s.nmg := by unfold State.bankWr; rfl
@[simp] theorem State.bankWr_snap (m : Master) (o : Nat) (v : Word) : (s.bankWr m o v).snap = s.snap := by unfold State.bankWr; rfl
@[simp] theorem State.bankWr_eng (m : Master) (o : Nat) (v : Word) : (s.bankWr m o v).eng = s.eng := by unfold State.bankWr; rfl
@[simp] theorem State.bankWr_clv (m : Master) (o : Nat) (v : Word) : (s.bankWr m o v).clv = s.clv := by unfold State.bankWr; rfl
@[simp] theorem State.bankWr_saf (m : Master) (o : Nat) (v : Word) : (s.bankWr m o v).saf = s.saf := by unfold State.bankWr; rfl
@[simp] theorem State.bankWr_plc (m : Master) (o : Nat) (v : Word) : (s.bankWr m o v).plc = s.plc := by unfold State.bankWr; rfl
@[simp] theorem State.bankWr_ident (m : Master) (o : Nat) (v : Word) : (s.bankWr m o v).ident = s.ident := by unfold State.bankWr; rfl
@[simp] theorem State.bankWr_ring (m : Master) (o : Nat) (v : Word) : (s.bankWr m o v).ring = s.ring := by unfold State.bankWr; rfl
@[simp] theorem State.bankWr_hqNext (m : Master) (o : Nat) (v : Word) : (s.bankWr m o v).hqNext = s.hqNext := by unfold State.bankWr; rfl
@[simp] theorem State.bankWr_turn (m : Master) (o : Nat) (v : Word) : (s.bankWr m o v).turn = s.turn := by unfold State.bankWr; rfl
@[simp] theorem State.bankWr_host (m : Master) (o : Nat) (v : Word) : (s.bankWr m o v).host = s.host := by unfold State.bankWr; rfl
@[simp] theorem State.bankWr_bbs (m : Master) (o : Nat) (v : Word) : (s.bankWr m o v).bbs = s.bbs := by unfold State.bankWr; rfl
@[simp] theorem State.bankWr_fov (m : Master) (o : Nat) (v : Word) : (s.bankWr m o v).fov = s.fov := by unfold State.bankWr; rfl
@[simp] theorem State.bankWr_ans (m : Master) (o : Nat) (v : Word) : (s.bankWr m o v).ans = s.ans := by unfold State.bankWr; rfl
@[simp] theorem State.bankWr_pws (m : Master) (o : Nat) (v : Word) : (s.bankWr m o v).pws = s.pws := by unfold State.bankWr; rfl
@[simp] theorem State.bankWr_rd (m : Master) (o : Nat) (v : Word) (k : Nat) : (s.bankWr m o v).rd k = s.rd k := by unfold State.rd State.bankWr; rfl
@[simp] theorem State.bankWr_f (m : Master) (o : Nat) (v : Word) (G : Field) : (s.bankWr m o v).f G = s.f G := by unfold State.f; rw [State.bankWr_rd]
@[simp] theorem State.bankWr_fi (m : Master) (o : Nat) (v : Word) (G : Field) : (s.bankWr m o v).fi G = s.fi G := by unfold State.fi; rw [State.bankWr_f]
@[simp] theorem State.bankWr_on (m : Master) (o : Nat) (v : Word) (G : Field) : (s.bankWr m o v).on G = s.on G := by unfold State.on; rw [State.bankWr_f]
@[simp] theorem State.bankWr_rdI (m : Master) (o : Nat) (v : Word) (k : Nat) : (s.bankWr m o v).rdI k = s.rdI k := by unfold State.rdI; rw [State.bankWr_rd]
@[simp] theorem State.bankWr_mstate (m : Master) (o : Nat) (v : Word) : (s.bankWr m o v).mstate = s.mstate := by unfold State.mstate; rw [State.bankWr_f]
@[simp] theorem State.bankWr_isIn (m : Master) (o : Nat) (v : Word) (l : List Nat) : (s.bankWr m o v).isIn l = s.isIn l := by unfold State.isIn; rw [State.bankWr_mstate]
@[simp] theorem State.bankWr_ns (m : Master) (o : Nat) (v : Word) (b : Nat) : (s.bankWr m o v).ns b = s.ns b := by unfold State.ns; rw [State.bankWr_rd]
@[simp] theorem State.bankWr_wc (m : Master) (o : Nat) (v : Word) (b : Nat) : (s.bankWr m o v).wc b = s.wc b := by unfold State.wc; rw [State.bankWr_f]
@[simp] theorem State.bankWr_byte (m : Master) (o : Nat) (v : Word) (mm : MemId) (j : Nat) : (s.bankWr m o v).byte mm j = s.byte mm j := by unfold State.byte State.bankWr; rfl
@[simp] theorem State.bankWr_en (m : Master) (o : Nat) (v : Word) (f : Nat) : (s.bankWr m o v).en f = s.en f := by unfold State.en State.bankWr; rfl

/-! setByte -/

@[simp] theorem State.setByte_pending (m : MemId) (a : Nat) (v : Byte) : (s.setByte m a v).pending = s.pending := rfl
@[simp] theorem State.setByte_now (m : MemId) (a : Nat) (v : Byte) : (s.setByte m a v).now = s.now := rfl
@[simp] theorem State.setByte_moves (m : MemId) (a : Nat) (v : Byte) : (s.setByte m a v).moves = s.moves := rfl
@[simp] theorem State.setByte_free (m : MemId) (a : Nat) (v : Byte) : (s.setByte m a v).free = s.free := rfl
@[simp] theorem State.setByte_lastResp (m : MemId) (a : Nat) (v : Byte) : (s.setByte m a v).lastResp = s.lastResp := rfl
@[simp] theorem State.setByte_was (m : MemId) (a : Nat) (v : Byte) : (s.setByte m a v).was = s.was := rfl
@[simp] theorem State.setByte_regs (m : MemId) (a : Nat) (v : Byte) : (s.setByte m a v).regs = s.regs := rfl
@[simp] theorem State.setByte_bank (m : MemId) (a : Nat) (v : Byte) : (s.setByte m a v).bank = s.bank := rfl
@[simp] theorem State.setByte_agenda (m : MemId) (a : Nat) (v : Byte) : (s.setByte m a v).agenda = s.agenda := rfl
@[simp] theorem State.setByte_clvIn (m : MemId) (a : Nat) (v : Byte) : (s.setByte m a v).clvIn = s.clvIn := rfl
@[simp] theorem State.setByte_ansIn (m : MemId) (a : Nat) (v : Byte) : (s.setByte m a v).ansIn = s.ansIn := rfl
@[simp] theorem State.setByte_tbase (m : MemId) (a : Nat) (v : Byte) : (s.setByte m a v).tbase = s.tbase := rfl
@[simp] theorem State.setByte_tbu (m : MemId) (a : Nat) (v : Byte) : (s.setByte m a v).tbu = s.tbu := rfl
@[simp] theorem State.setByte_dpw (m : MemId) (a : Nat) (v : Byte) : (s.setByte m a v).dpw = s.dpw := rfl
@[simp] theorem State.setByte_leg (m : MemId) (a : Nat) (v : Byte) : (s.setByte m a v).leg = s.leg := rfl
@[simp] theorem State.setByte_tripIn (m : MemId) (a : Nat) (v : Byte) : (s.setByte m a v).tripIn = s.tripIn := rfl
@[simp] theorem State.setByte_caq (m : MemId) (a : Nat) (v : Byte) : (s.setByte m a v).caq = s.caq := rfl
@[simp] theorem State.setByte_caqOld (m : MemId) (a : Nat) (v : Byte) : (s.setByte m a v).caqOld = s.caqOld := rfl
@[simp] theorem State.setByte_ecc (m : MemId) (a : Nat) (v : Byte) : (s.setByte m a v).ecc
    = s.ecc.filter (fun e => !(decide (e.place = 0) && decide (e.addr = m.base + a))) := rfl
@[simp] theorem State.setByte_dsck (m : MemId) (a : Nat) (v : Byte) : (s.setByte m a v).dsck = s.dsck := rfl
@[simp] theorem State.setByte_pfb (m : MemId) (a : Nat) (v : Byte) : (s.setByte m a v).pfb = s.pfb := rfl
@[simp] theorem State.setByte_hbDue (m : MemId) (a : Nat) (v : Byte) : (s.setByte m a v).hbDue = s.hbDue := rfl
@[simp] theorem State.setByte_slot (m : MemId) (a : Nat) (v : Byte) : (s.setByte m a v).slot = s.slot := rfl
@[simp] theorem State.setByte_lpe (m : MemId) (a : Nat) (v : Byte) : (s.setByte m a v).lpe = s.lpe := rfl
@[simp] theorem State.setByte_pg (m : MemId) (a : Nat) (v : Byte) : (s.setByte m a v).pg = s.pg := rfl
@[simp] theorem State.setByte_cap (m : MemId) (a : Nat) (v : Byte) : (s.setByte m a v).cap = s.cap := rfl
@[simp] theorem State.setByte_msixSent (m : MemId) (a : Nat) (v : Byte) : (s.setByte m a v).msixSent = s.msixSent := rfl
@[simp] theorem State.setByte_door (m : MemId) (a : Nat) (v : Byte) : (s.setByte m a v).door = s.door := rfl
@[simp] theorem State.setByte_fio (m : MemId) (a : Nat) (v : Byte) : (s.setByte m a v).fio = s.fio := rfl
@[simp] theorem State.setByte_cqes (m : MemId) (a : Nat) (v : Byte) : (s.setByte m a v).cqes = s.cqes := rfl
@[simp] theorem State.setByte_nmg (m : MemId) (a : Nat) (v : Byte) : (s.setByte m a v).nmg = s.nmg := rfl
@[simp] theorem State.setByte_snap (m : MemId) (a : Nat) (v : Byte) : (s.setByte m a v).snap = s.snap := rfl
@[simp] theorem State.setByte_eng (m : MemId) (a : Nat) (v : Byte) : (s.setByte m a v).eng = s.eng := rfl
@[simp] theorem State.setByte_clv (m : MemId) (a : Nat) (v : Byte) : (s.setByte m a v).clv = s.clv := rfl
@[simp] theorem State.setByte_saf (m : MemId) (a : Nat) (v : Byte) : (s.setByte m a v).saf = s.saf := rfl
@[simp] theorem State.setByte_plc (m : MemId) (a : Nat) (v : Byte) : (s.setByte m a v).plc = s.plc := rfl
@[simp] theorem State.setByte_ident (m : MemId) (a : Nat) (v : Byte) : (s.setByte m a v).ident = s.ident := rfl
@[simp] theorem State.setByte_ring (m : MemId) (a : Nat) (v : Byte) : (s.setByte m a v).ring = s.ring := rfl
@[simp] theorem State.setByte_hqNext (m : MemId) (a : Nat) (v : Byte) : (s.setByte m a v).hqNext = s.hqNext := rfl
@[simp] theorem State.setByte_turn (m : MemId) (a : Nat) (v : Byte) : (s.setByte m a v).turn = s.turn := rfl
@[simp] theorem State.setByte_host (m : MemId) (a : Nat) (v : Byte) : (s.setByte m a v).host = s.host := rfl
@[simp] theorem State.setByte_bbs (m : MemId) (a : Nat) (v : Byte) : (s.setByte m a v).bbs = s.bbs := rfl
@[simp] theorem State.setByte_fov (m : MemId) (a : Nat) (v : Byte) : (s.setByte m a v).fov = s.fov := rfl
@[simp] theorem State.setByte_ans (m : MemId) (a : Nat) (v : Byte) : (s.setByte m a v).ans = s.ans := rfl
@[simp] theorem State.setByte_pws (m : MemId) (a : Nat) (v : Byte) : (s.setByte m a v).pws = s.pws := rfl
@[simp] theorem State.setByte_rd (m : MemId) (a : Nat) (v : Byte) (k : Nat) : (s.setByte m a v).rd k = s.rd k := rfl
@[simp] theorem State.setByte_f (m : MemId) (a : Nat) (v : Byte) (G : Field) : (s.setByte m a v).f G = s.f G := rfl
@[simp] theorem State.setByte_fi (m : MemId) (a : Nat) (v : Byte) (G : Field) : (s.setByte m a v).fi G = s.fi G := rfl
@[simp] theorem State.setByte_on (m : MemId) (a : Nat) (v : Byte) (G : Field) : (s.setByte m a v).on G = s.on G := rfl
@[simp] theorem State.setByte_rdI (m : MemId) (a : Nat) (v : Byte) (k : Nat) : (s.setByte m a v).rdI k = s.rdI k := rfl
@[simp] theorem State.setByte_mstate (m : MemId) (a : Nat) (v : Byte) : (s.setByte m a v).mstate = s.mstate := rfl
@[simp] theorem State.setByte_isIn (m : MemId) (a : Nat) (v : Byte) (l : List Nat) : (s.setByte m a v).isIn l = s.isIn l := rfl
@[simp] theorem State.setByte_ns (m : MemId) (a : Nat) (v : Byte) (b : Nat) : (s.setByte m a v).ns b = s.ns b := rfl
@[simp] theorem State.setByte_wc (m : MemId) (a : Nat) (v : Byte) (b : Nat) : (s.setByte m a v).wc b = s.wc b := rfl
@[simp] theorem State.setByte_en (m : MemId) (a : Nat) (v : Byte) (f : Nat) : (s.setByte m a v).en f = s.en f := rfl
@[simp] theorem State.setByte_bankRd (m : MemId) (a : Nat) (v : Byte) (mm : Master) (k : Nat) : (s.setByte m a v).bankRd mm k = s.bankRd mm k := rfl

/-! tickFree -/

@[simp] theorem State.tickFree_pending : (s.tickFree).pending = s.pending := rfl
@[simp] theorem State.tickFree_now : (s.tickFree).now = s.now := rfl
@[simp] theorem State.tickFree_moves : (s.tickFree).moves = s.moves := rfl
@[simp] theorem State.tickFree_lastResp : (s.tickFree).lastResp = s.lastResp := rfl
@[simp] theorem State.tickFree_was : (s.tickFree).was = s.was := rfl
@[simp] theorem State.tickFree_regs : (s.tickFree).regs = s.regs := rfl
@[simp] theorem State.tickFree_bank : (s.tickFree).bank = s.bank := rfl
@[simp] theorem State.tickFree_mem : (s.tickFree).mem = s.mem := rfl
@[simp] theorem State.tickFree_agenda : (s.tickFree).agenda = s.agenda := rfl
@[simp] theorem State.tickFree_clvIn : (s.tickFree).clvIn = s.clvIn := rfl
@[simp] theorem State.tickFree_ansIn : (s.tickFree).ansIn = s.ansIn := rfl
@[simp] theorem State.tickFree_tbase : (s.tickFree).tbase = s.tbase := rfl
@[simp] theorem State.tickFree_tbu : (s.tickFree).tbu = s.tbu := rfl
@[simp] theorem State.tickFree_dpw : (s.tickFree).dpw = s.dpw := rfl
@[simp] theorem State.tickFree_leg : (s.tickFree).leg = s.leg := rfl
@[simp] theorem State.tickFree_tripIn : (s.tickFree).tripIn = s.tripIn := rfl
@[simp] theorem State.tickFree_caq : (s.tickFree).caq = s.caq := rfl
@[simp] theorem State.tickFree_caqOld : (s.tickFree).caqOld = s.caqOld := rfl
@[simp] theorem State.tickFree_ecc : (s.tickFree).ecc = s.ecc := rfl
@[simp] theorem State.tickFree_dsck : (s.tickFree).dsck = s.dsck := rfl
@[simp] theorem State.tickFree_pfb : (s.tickFree).pfb = s.pfb := rfl
@[simp] theorem State.tickFree_hbDue : (s.tickFree).hbDue = s.hbDue := rfl
@[simp] theorem State.tickFree_slot : (s.tickFree).slot = s.slot := rfl
@[simp] theorem State.tickFree_lpe : (s.tickFree).lpe = s.lpe := rfl
@[simp] theorem State.tickFree_pg : (s.tickFree).pg = s.pg := rfl
@[simp] theorem State.tickFree_cap : (s.tickFree).cap = s.cap := rfl
@[simp] theorem State.tickFree_msixSent : (s.tickFree).msixSent = s.msixSent := rfl
@[simp] theorem State.tickFree_door : (s.tickFree).door = s.door := rfl
@[simp] theorem State.tickFree_fio : (s.tickFree).fio = s.fio := rfl
@[simp] theorem State.tickFree_cqes : (s.tickFree).cqes = s.cqes := rfl
@[simp] theorem State.tickFree_nmg : (s.tickFree).nmg = s.nmg := rfl
@[simp] theorem State.tickFree_snap : (s.tickFree).snap = s.snap := rfl
@[simp] theorem State.tickFree_eng : (s.tickFree).eng = s.eng := rfl
@[simp] theorem State.tickFree_clv : (s.tickFree).clv = s.clv := rfl
@[simp] theorem State.tickFree_saf : (s.tickFree).saf = s.saf := rfl
@[simp] theorem State.tickFree_plc : (s.tickFree).plc = s.plc := rfl
@[simp] theorem State.tickFree_ident : (s.tickFree).ident = s.ident := rfl
@[simp] theorem State.tickFree_ring : (s.tickFree).ring = s.ring := rfl
@[simp] theorem State.tickFree_hqNext : (s.tickFree).hqNext = s.hqNext := rfl
@[simp] theorem State.tickFree_turn : (s.tickFree).turn = s.turn := rfl
@[simp] theorem State.tickFree_host : (s.tickFree).host = s.host := rfl
@[simp] theorem State.tickFree_bbs : (s.tickFree).bbs = s.bbs := rfl
@[simp] theorem State.tickFree_fov : (s.tickFree).fov = s.fov := rfl
@[simp] theorem State.tickFree_ans : (s.tickFree).ans = s.ans := rfl
@[simp] theorem State.tickFree_pws : (s.tickFree).pws = s.pws := rfl
@[simp] theorem State.tickFree_rd (k : Nat) : (s.tickFree).rd k = s.rd k := rfl
@[simp] theorem State.tickFree_f (G : Field) : (s.tickFree).f G = s.f G := rfl
@[simp] theorem State.tickFree_fi (G : Field) : (s.tickFree).fi G = s.fi G := rfl
@[simp] theorem State.tickFree_on (G : Field) : (s.tickFree).on G = s.on G := rfl
@[simp] theorem State.tickFree_rdI (k : Nat) : (s.tickFree).rdI k = s.rdI k := rfl
@[simp] theorem State.tickFree_mstate : (s.tickFree).mstate = s.mstate := rfl
@[simp] theorem State.tickFree_isIn (l : List Nat) : (s.tickFree).isIn l = s.isIn l := rfl
@[simp] theorem State.tickFree_ns (b : Nat) : (s.tickFree).ns b = s.ns b := rfl
@[simp] theorem State.tickFree_wc (b : Nat) : (s.tickFree).wc b = s.wc b := rfl
@[simp] theorem State.tickFree_byte (mm : MemId) (j : Nat) : (s.tickFree).byte mm j = s.byte mm j := rfl
@[simp] theorem State.tickFree_en (f : Nat) : (s.tickFree).en f = s.en f := rfl
@[simp] theorem State.tickFree_bankRd (mm : Master) (k : Nat) : (s.tickFree).bankRd mm k = s.bankRd mm k := rfl

/-! due -/

@[simp] theorem State.due_pending (dt : Nat) (e : Ev) : (s.due dt e).pending = s.pending := rfl
@[simp] theorem State.due_now (dt : Nat) (e : Ev) : (s.due dt e).now = s.now := rfl
@[simp] theorem State.due_moves (dt : Nat) (e : Ev) : (s.due dt e).moves = s.moves := rfl
@[simp] theorem State.due_free (dt : Nat) (e : Ev) : (s.due dt e).free = s.free := rfl
@[simp] theorem State.due_lastResp (dt : Nat) (e : Ev) : (s.due dt e).lastResp = s.lastResp := rfl
@[simp] theorem State.due_was (dt : Nat) (e : Ev) : (s.due dt e).was = s.was := rfl
@[simp] theorem State.due_regs (dt : Nat) (e : Ev) : (s.due dt e).regs = s.regs := rfl
@[simp] theorem State.due_bank (dt : Nat) (e : Ev) : (s.due dt e).bank = s.bank := rfl
@[simp] theorem State.due_mem (dt : Nat) (e : Ev) : (s.due dt e).mem = s.mem := rfl
@[simp] theorem State.due_clvIn (dt : Nat) (e : Ev) : (s.due dt e).clvIn = s.clvIn := rfl
@[simp] theorem State.due_ansIn (dt : Nat) (e : Ev) : (s.due dt e).ansIn = s.ansIn := rfl
@[simp] theorem State.due_tbase (dt : Nat) (e : Ev) : (s.due dt e).tbase = s.tbase := rfl
@[simp] theorem State.due_tbu (dt : Nat) (e : Ev) : (s.due dt e).tbu = s.tbu := rfl
@[simp] theorem State.due_dpw (dt : Nat) (e : Ev) : (s.due dt e).dpw = s.dpw := rfl
@[simp] theorem State.due_leg (dt : Nat) (e : Ev) : (s.due dt e).leg = s.leg := rfl
@[simp] theorem State.due_tripIn (dt : Nat) (e : Ev) : (s.due dt e).tripIn = s.tripIn := rfl
@[simp] theorem State.due_caq (dt : Nat) (e : Ev) : (s.due dt e).caq = s.caq := rfl
@[simp] theorem State.due_caqOld (dt : Nat) (e : Ev) : (s.due dt e).caqOld = s.caqOld := rfl
@[simp] theorem State.due_ecc (dt : Nat) (e : Ev) : (s.due dt e).ecc = s.ecc := rfl
@[simp] theorem State.due_dsck (dt : Nat) (e : Ev) : (s.due dt e).dsck = s.dsck := rfl
@[simp] theorem State.due_pfb (dt : Nat) (e : Ev) : (s.due dt e).pfb = s.pfb := rfl
@[simp] theorem State.due_hbDue (dt : Nat) (e : Ev) : (s.due dt e).hbDue = s.hbDue := rfl
@[simp] theorem State.due_slot (dt : Nat) (e : Ev) : (s.due dt e).slot = s.slot := rfl
@[simp] theorem State.due_lpe (dt : Nat) (e : Ev) : (s.due dt e).lpe = s.lpe := rfl
@[simp] theorem State.due_pg (dt : Nat) (e : Ev) : (s.due dt e).pg = s.pg := rfl
@[simp] theorem State.due_cap (dt : Nat) (e : Ev) : (s.due dt e).cap = s.cap := rfl
@[simp] theorem State.due_msixSent (dt : Nat) (e : Ev) : (s.due dt e).msixSent = s.msixSent := rfl
@[simp] theorem State.due_door (dt : Nat) (e : Ev) : (s.due dt e).door = s.door := rfl
@[simp] theorem State.due_fio (dt : Nat) (e : Ev) : (s.due dt e).fio = s.fio := rfl
@[simp] theorem State.due_cqes (dt : Nat) (e : Ev) : (s.due dt e).cqes = s.cqes := rfl
@[simp] theorem State.due_nmg (dt : Nat) (e : Ev) : (s.due dt e).nmg = s.nmg := rfl
@[simp] theorem State.due_snap (dt : Nat) (e : Ev) : (s.due dt e).snap = s.snap := rfl
@[simp] theorem State.due_eng (dt : Nat) (e : Ev) : (s.due dt e).eng = s.eng := rfl
@[simp] theorem State.due_clv (dt : Nat) (e : Ev) : (s.due dt e).clv = s.clv := rfl
@[simp] theorem State.due_saf (dt : Nat) (e : Ev) : (s.due dt e).saf = s.saf := rfl
@[simp] theorem State.due_plc (dt : Nat) (e : Ev) : (s.due dt e).plc = s.plc := rfl
@[simp] theorem State.due_ident (dt : Nat) (e : Ev) : (s.due dt e).ident = s.ident := rfl
@[simp] theorem State.due_ring (dt : Nat) (e : Ev) : (s.due dt e).ring = s.ring := rfl
@[simp] theorem State.due_hqNext (dt : Nat) (e : Ev) : (s.due dt e).hqNext = s.hqNext := rfl
@[simp] theorem State.due_turn (dt : Nat) (e : Ev) : (s.due dt e).turn = s.turn := rfl
@[simp] theorem State.due_host (dt : Nat) (e : Ev) : (s.due dt e).host = s.host := rfl
@[simp] theorem State.due_bbs (dt : Nat) (e : Ev) : (s.due dt e).bbs = s.bbs := rfl
@[simp] theorem State.due_fov (dt : Nat) (e : Ev) : (s.due dt e).fov = s.fov := rfl
@[simp] theorem State.due_ans (dt : Nat) (e : Ev) : (s.due dt e).ans = s.ans := rfl
@[simp] theorem State.due_pws (dt : Nat) (e : Ev) : (s.due dt e).pws = s.pws := rfl
@[simp] theorem State.due_rd (dt : Nat) (e : Ev) (k : Nat) : (s.due dt e).rd k = s.rd k := rfl
@[simp] theorem State.due_f (dt : Nat) (e : Ev) (G : Field) : (s.due dt e).f G = s.f G := rfl
@[simp] theorem State.due_fi (dt : Nat) (e : Ev) (G : Field) : (s.due dt e).fi G = s.fi G := rfl
@[simp] theorem State.due_on (dt : Nat) (e : Ev) (G : Field) : (s.due dt e).on G = s.on G := rfl
@[simp] theorem State.due_rdI (dt : Nat) (e : Ev) (k : Nat) : (s.due dt e).rdI k = s.rdI k := rfl
@[simp] theorem State.due_mstate (dt : Nat) (e : Ev) : (s.due dt e).mstate = s.mstate := rfl
@[simp] theorem State.due_isIn (dt : Nat) (e : Ev) (l : List Nat) : (s.due dt e).isIn l = s.isIn l := rfl
@[simp] theorem State.due_ns (dt : Nat) (e : Ev) (b : Nat) : (s.due dt e).ns b = s.ns b := rfl
@[simp] theorem State.due_wc (dt : Nat) (e : Ev) (b : Nat) : (s.due dt e).wc b = s.wc b := rfl
@[simp] theorem State.due_byte (dt : Nat) (e : Ev) (mm : MemId) (j : Nat) : (s.due dt e).byte mm j = s.byte mm j := rfl
@[simp] theorem State.due_en (dt : Nat) (e : Ev) (f : Nat) : (s.due dt e).en f = s.en f := rfl
@[simp] theorem State.due_bankRd (dt : Nat) (e : Ev) (mm : Master) (k : Nat) : (s.due dt e).bankRd mm k = s.bankRd mm k := rfl

/-! sched -/

@[simp] theorem State.sched_pending (dt : Nat) (c : Instr) : (s.sched dt c).pending = s.pending := rfl
@[simp] theorem State.sched_now (dt : Nat) (c : Instr) : (s.sched dt c).now = s.now := rfl
@[simp] theorem State.sched_moves (dt : Nat) (c : Instr) : (s.sched dt c).moves = s.moves := rfl
@[simp] theorem State.sched_free (dt : Nat) (c : Instr) : (s.sched dt c).free = s.free := rfl
@[simp] theorem State.sched_lastResp (dt : Nat) (c : Instr) : (s.sched dt c).lastResp = s.lastResp := rfl
@[simp] theorem State.sched_was (dt : Nat) (c : Instr) : (s.sched dt c).was = s.was := rfl
@[simp] theorem State.sched_regs (dt : Nat) (c : Instr) : (s.sched dt c).regs = s.regs := rfl
@[simp] theorem State.sched_bank (dt : Nat) (c : Instr) : (s.sched dt c).bank = s.bank := rfl
@[simp] theorem State.sched_mem (dt : Nat) (c : Instr) : (s.sched dt c).mem = s.mem := rfl
@[simp] theorem State.sched_clvIn (dt : Nat) (c : Instr) : (s.sched dt c).clvIn = s.clvIn := rfl
@[simp] theorem State.sched_ansIn (dt : Nat) (c : Instr) : (s.sched dt c).ansIn = s.ansIn := rfl
@[simp] theorem State.sched_tbase (dt : Nat) (c : Instr) : (s.sched dt c).tbase = s.tbase := rfl
@[simp] theorem State.sched_tbu (dt : Nat) (c : Instr) : (s.sched dt c).tbu = s.tbu := rfl
@[simp] theorem State.sched_dpw (dt : Nat) (c : Instr) : (s.sched dt c).dpw = s.dpw := rfl
@[simp] theorem State.sched_leg (dt : Nat) (c : Instr) : (s.sched dt c).leg = s.leg := rfl
@[simp] theorem State.sched_tripIn (dt : Nat) (c : Instr) : (s.sched dt c).tripIn = s.tripIn := rfl
@[simp] theorem State.sched_caq (dt : Nat) (c : Instr) : (s.sched dt c).caq = s.caq := rfl
@[simp] theorem State.sched_caqOld (dt : Nat) (c : Instr) : (s.sched dt c).caqOld = s.caqOld := rfl
@[simp] theorem State.sched_ecc (dt : Nat) (c : Instr) : (s.sched dt c).ecc = s.ecc := rfl
@[simp] theorem State.sched_dsck (dt : Nat) (c : Instr) : (s.sched dt c).dsck = s.dsck := rfl
@[simp] theorem State.sched_pfb (dt : Nat) (c : Instr) : (s.sched dt c).pfb = s.pfb := rfl
@[simp] theorem State.sched_hbDue (dt : Nat) (c : Instr) : (s.sched dt c).hbDue = s.hbDue := rfl
@[simp] theorem State.sched_slot (dt : Nat) (c : Instr) : (s.sched dt c).slot = s.slot := rfl
@[simp] theorem State.sched_lpe (dt : Nat) (c : Instr) : (s.sched dt c).lpe = s.lpe := rfl
@[simp] theorem State.sched_pg (dt : Nat) (c : Instr) : (s.sched dt c).pg = s.pg := rfl
@[simp] theorem State.sched_cap (dt : Nat) (c : Instr) : (s.sched dt c).cap = s.cap := rfl
@[simp] theorem State.sched_msixSent (dt : Nat) (c : Instr) : (s.sched dt c).msixSent = s.msixSent := rfl
@[simp] theorem State.sched_door (dt : Nat) (c : Instr) : (s.sched dt c).door = s.door := rfl
@[simp] theorem State.sched_fio (dt : Nat) (c : Instr) : (s.sched dt c).fio = s.fio := rfl
@[simp] theorem State.sched_cqes (dt : Nat) (c : Instr) : (s.sched dt c).cqes = s.cqes := rfl
@[simp] theorem State.sched_nmg (dt : Nat) (c : Instr) : (s.sched dt c).nmg = s.nmg := rfl
@[simp] theorem State.sched_snap (dt : Nat) (c : Instr) : (s.sched dt c).snap = s.snap := rfl
@[simp] theorem State.sched_eng (dt : Nat) (c : Instr) : (s.sched dt c).eng = s.eng := rfl
@[simp] theorem State.sched_clv (dt : Nat) (c : Instr) : (s.sched dt c).clv = s.clv := rfl
@[simp] theorem State.sched_saf (dt : Nat) (c : Instr) : (s.sched dt c).saf = s.saf := rfl
@[simp] theorem State.sched_plc (dt : Nat) (c : Instr) : (s.sched dt c).plc = s.plc := rfl
@[simp] theorem State.sched_ident (dt : Nat) (c : Instr) : (s.sched dt c).ident = s.ident := rfl
@[simp] theorem State.sched_ring (dt : Nat) (c : Instr) : (s.sched dt c).ring = s.ring := rfl
@[simp] theorem State.sched_hqNext (dt : Nat) (c : Instr) : (s.sched dt c).hqNext = s.hqNext := rfl
@[simp] theorem State.sched_turn (dt : Nat) (c : Instr) : (s.sched dt c).turn = s.turn := rfl
@[simp] theorem State.sched_host (dt : Nat) (c : Instr) : (s.sched dt c).host = s.host := rfl
@[simp] theorem State.sched_bbs (dt : Nat) (c : Instr) : (s.sched dt c).bbs = s.bbs := rfl
@[simp] theorem State.sched_fov (dt : Nat) (c : Instr) : (s.sched dt c).fov = s.fov := rfl
@[simp] theorem State.sched_ans (dt : Nat) (c : Instr) : (s.sched dt c).ans = s.ans := rfl
@[simp] theorem State.sched_pws (dt : Nat) (c : Instr) : (s.sched dt c).pws = s.pws := rfl
@[simp] theorem State.sched_rd (dt : Nat) (c : Instr) (k : Nat) : (s.sched dt c).rd k = s.rd k := rfl
@[simp] theorem State.sched_f (dt : Nat) (c : Instr) (G : Field) : (s.sched dt c).f G = s.f G := rfl
@[simp] theorem State.sched_fi (dt : Nat) (c : Instr) (G : Field) : (s.sched dt c).fi G = s.fi G := rfl
@[simp] theorem State.sched_on (dt : Nat) (c : Instr) (G : Field) : (s.sched dt c).on G = s.on G := rfl
@[simp] theorem State.sched_rdI (dt : Nat) (c : Instr) (k : Nat) : (s.sched dt c).rdI k = s.rdI k := rfl
@[simp] theorem State.sched_mstate (dt : Nat) (c : Instr) : (s.sched dt c).mstate = s.mstate := rfl
@[simp] theorem State.sched_isIn (dt : Nat) (c : Instr) (l : List Nat) : (s.sched dt c).isIn l = s.isIn l := rfl
@[simp] theorem State.sched_ns (dt : Nat) (c : Instr) (b : Nat) : (s.sched dt c).ns b = s.ns b := rfl
@[simp] theorem State.sched_wc (dt : Nat) (c : Instr) (b : Nat) : (s.sched dt c).wc b = s.wc b := rfl
@[simp] theorem State.sched_byte (dt : Nat) (c : Instr) (mm : MemId) (j : Nat) : (s.sched dt c).byte mm j = s.byte mm j := rfl
@[simp] theorem State.sched_en (dt : Nat) (c : Instr) (f : Nat) : (s.sched dt c).en f = s.en f := rfl
@[simp] theorem State.sched_bankRd (dt : Nat) (c : Instr) (mm : Master) (k : Nat) : (s.sched dt c).bankRd mm k = s.bankRd mm k := rfl

/-! undue -/

@[simp] theorem State.undue_pending (p : Ev → Bool) : (s.undue p).pending = s.pending := rfl
@[simp] theorem State.undue_now (p : Ev → Bool) : (s.undue p).now = s.now := rfl
@[simp] theorem State.undue_moves (p : Ev → Bool) : (s.undue p).moves = s.moves := rfl
@[simp] theorem State.undue_free (p : Ev → Bool) : (s.undue p).free = s.free := rfl
@[simp] theorem State.undue_lastResp (p : Ev → Bool) : (s.undue p).lastResp = s.lastResp := rfl
@[simp] theorem State.undue_was (p : Ev → Bool) : (s.undue p).was = s.was := rfl
@[simp] theorem State.undue_regs (p : Ev → Bool) : (s.undue p).regs = s.regs := rfl
@[simp] theorem State.undue_bank (p : Ev → Bool) : (s.undue p).bank = s.bank := rfl
@[simp] theorem State.undue_mem (p : Ev → Bool) : (s.undue p).mem = s.mem := rfl
@[simp] theorem State.undue_clvIn (p : Ev → Bool) : (s.undue p).clvIn = s.clvIn := rfl
@[simp] theorem State.undue_ansIn (p : Ev → Bool) : (s.undue p).ansIn = s.ansIn := rfl
@[simp] theorem State.undue_tbase (p : Ev → Bool) : (s.undue p).tbase = s.tbase := rfl
@[simp] theorem State.undue_tbu (p : Ev → Bool) : (s.undue p).tbu = s.tbu := rfl
@[simp] theorem State.undue_dpw (p : Ev → Bool) : (s.undue p).dpw = s.dpw := rfl
@[simp] theorem State.undue_leg (p : Ev → Bool) : (s.undue p).leg = s.leg := rfl
@[simp] theorem State.undue_tripIn (p : Ev → Bool) : (s.undue p).tripIn = s.tripIn := rfl
@[simp] theorem State.undue_caq (p : Ev → Bool) : (s.undue p).caq = s.caq := rfl
@[simp] theorem State.undue_caqOld (p : Ev → Bool) : (s.undue p).caqOld = s.caqOld := rfl
@[simp] theorem State.undue_ecc (p : Ev → Bool) : (s.undue p).ecc = s.ecc := rfl
@[simp] theorem State.undue_dsck (p : Ev → Bool) : (s.undue p).dsck = s.dsck := rfl
@[simp] theorem State.undue_pfb (p : Ev → Bool) : (s.undue p).pfb = s.pfb := rfl
@[simp] theorem State.undue_hbDue (p : Ev → Bool) : (s.undue p).hbDue = s.hbDue := rfl
@[simp] theorem State.undue_slot (p : Ev → Bool) : (s.undue p).slot = s.slot := rfl
@[simp] theorem State.undue_lpe (p : Ev → Bool) : (s.undue p).lpe = s.lpe := rfl
@[simp] theorem State.undue_pg (p : Ev → Bool) : (s.undue p).pg = s.pg := rfl
@[simp] theorem State.undue_cap (p : Ev → Bool) : (s.undue p).cap = s.cap := rfl
@[simp] theorem State.undue_msixSent (p : Ev → Bool) : (s.undue p).msixSent = s.msixSent := rfl
@[simp] theorem State.undue_door (p : Ev → Bool) : (s.undue p).door = s.door := rfl
@[simp] theorem State.undue_fio (p : Ev → Bool) : (s.undue p).fio = s.fio := rfl
@[simp] theorem State.undue_cqes (p : Ev → Bool) : (s.undue p).cqes = s.cqes := rfl
@[simp] theorem State.undue_nmg (p : Ev → Bool) : (s.undue p).nmg = s.nmg := rfl
@[simp] theorem State.undue_snap (p : Ev → Bool) : (s.undue p).snap = s.snap := rfl
@[simp] theorem State.undue_eng (p : Ev → Bool) : (s.undue p).eng = s.eng := rfl
@[simp] theorem State.undue_clv (p : Ev → Bool) : (s.undue p).clv = s.clv := rfl
@[simp] theorem State.undue_saf (p : Ev → Bool) : (s.undue p).saf = s.saf := rfl
@[simp] theorem State.undue_plc (p : Ev → Bool) : (s.undue p).plc = s.plc := rfl
@[simp] theorem State.undue_ident (p : Ev → Bool) : (s.undue p).ident = s.ident := rfl
@[simp] theorem State.undue_ring (p : Ev → Bool) : (s.undue p).ring = s.ring := rfl
@[simp] theorem State.undue_hqNext (p : Ev → Bool) : (s.undue p).hqNext = s.hqNext := rfl
@[simp] theorem State.undue_turn (p : Ev → Bool) : (s.undue p).turn = s.turn := rfl
@[simp] theorem State.undue_host (p : Ev → Bool) : (s.undue p).host = s.host := rfl
@[simp] theorem State.undue_bbs (p : Ev → Bool) : (s.undue p).bbs = s.bbs := rfl
@[simp] theorem State.undue_fov (p : Ev → Bool) : (s.undue p).fov = s.fov := rfl
@[simp] theorem State.undue_ans (p : Ev → Bool) : (s.undue p).ans = s.ans := rfl
@[simp] theorem State.undue_pws (p : Ev → Bool) : (s.undue p).pws = s.pws := rfl
@[simp] theorem State.undue_rd (p : Ev → Bool) (k : Nat) : (s.undue p).rd k = s.rd k := rfl
@[simp] theorem State.undue_f (p : Ev → Bool) (G : Field) : (s.undue p).f G = s.f G := rfl
@[simp] theorem State.undue_fi (p : Ev → Bool) (G : Field) : (s.undue p).fi G = s.fi G := rfl
@[simp] theorem State.undue_on (p : Ev → Bool) (G : Field) : (s.undue p).on G = s.on G := rfl
@[simp] theorem State.undue_rdI (p : Ev → Bool) (k : Nat) : (s.undue p).rdI k = s.rdI k := rfl
@[simp] theorem State.undue_mstate (p : Ev → Bool) : (s.undue p).mstate = s.mstate := rfl
@[simp] theorem State.undue_isIn (p : Ev → Bool) (l : List Nat) : (s.undue p).isIn l = s.isIn l := rfl
@[simp] theorem State.undue_ns (p : Ev → Bool) (b : Nat) : (s.undue p).ns b = s.ns b := rfl
@[simp] theorem State.undue_wc (p : Ev → Bool) (b : Nat) : (s.undue p).wc b = s.wc b := rfl
@[simp] theorem State.undue_byte (p : Ev → Bool) (mm : MemId) (j : Nat) : (s.undue p).byte mm j = s.byte mm j := rfl
@[simp] theorem State.undue_en (p : Ev → Bool) (f : Nat) : (s.undue p).en f = s.en f := rfl
@[simp] theorem State.undue_bankRd (p : Ev → Bool) (mm : Master) (k : Nat) : (s.undue p).bankRd mm k = s.bankRd mm k := rfl

/-! cancel -/

@[simp] theorem State.cancel_pending (c : Instr) : (s.cancel c).pending = s.pending := rfl
@[simp] theorem State.cancel_now (c : Instr) : (s.cancel c).now = s.now := rfl
@[simp] theorem State.cancel_moves (c : Instr) : (s.cancel c).moves = s.moves := rfl
@[simp] theorem State.cancel_free (c : Instr) : (s.cancel c).free = s.free := rfl
@[simp] theorem State.cancel_lastResp (c : Instr) : (s.cancel c).lastResp = s.lastResp := rfl
@[simp] theorem State.cancel_was (c : Instr) : (s.cancel c).was = s.was := rfl
@[simp] theorem State.cancel_regs (c : Instr) : (s.cancel c).regs = s.regs := rfl
@[simp] theorem State.cancel_bank (c : Instr) : (s.cancel c).bank = s.bank := rfl
@[simp] theorem State.cancel_mem (c : Instr) : (s.cancel c).mem = s.mem := rfl
@[simp] theorem State.cancel_clvIn (c : Instr) : (s.cancel c).clvIn = s.clvIn := rfl
@[simp] theorem State.cancel_ansIn (c : Instr) : (s.cancel c).ansIn = s.ansIn := rfl
@[simp] theorem State.cancel_tbase (c : Instr) : (s.cancel c).tbase = s.tbase := rfl
@[simp] theorem State.cancel_tbu (c : Instr) : (s.cancel c).tbu = s.tbu := rfl
@[simp] theorem State.cancel_dpw (c : Instr) : (s.cancel c).dpw = s.dpw := rfl
@[simp] theorem State.cancel_leg (c : Instr) : (s.cancel c).leg = s.leg := rfl
@[simp] theorem State.cancel_tripIn (c : Instr) : (s.cancel c).tripIn = s.tripIn := rfl
@[simp] theorem State.cancel_caq (c : Instr) : (s.cancel c).caq = s.caq := rfl
@[simp] theorem State.cancel_caqOld (c : Instr) : (s.cancel c).caqOld = s.caqOld := rfl
@[simp] theorem State.cancel_ecc (c : Instr) : (s.cancel c).ecc = s.ecc := rfl
@[simp] theorem State.cancel_dsck (c : Instr) : (s.cancel c).dsck = s.dsck := rfl
@[simp] theorem State.cancel_pfb (c : Instr) : (s.cancel c).pfb = s.pfb := rfl
@[simp] theorem State.cancel_hbDue (c : Instr) : (s.cancel c).hbDue = s.hbDue := rfl
@[simp] theorem State.cancel_slot (c : Instr) : (s.cancel c).slot = s.slot := rfl
@[simp] theorem State.cancel_lpe (c : Instr) : (s.cancel c).lpe = s.lpe := rfl
@[simp] theorem State.cancel_pg (c : Instr) : (s.cancel c).pg = s.pg := rfl
@[simp] theorem State.cancel_cap (c : Instr) : (s.cancel c).cap = s.cap := rfl
@[simp] theorem State.cancel_msixSent (c : Instr) : (s.cancel c).msixSent = s.msixSent := rfl
@[simp] theorem State.cancel_door (c : Instr) : (s.cancel c).door = s.door := rfl
@[simp] theorem State.cancel_fio (c : Instr) : (s.cancel c).fio = s.fio := rfl
@[simp] theorem State.cancel_cqes (c : Instr) : (s.cancel c).cqes = s.cqes := rfl
@[simp] theorem State.cancel_nmg (c : Instr) : (s.cancel c).nmg = s.nmg := rfl
@[simp] theorem State.cancel_snap (c : Instr) : (s.cancel c).snap = s.snap := rfl
@[simp] theorem State.cancel_eng (c : Instr) : (s.cancel c).eng = s.eng := rfl
@[simp] theorem State.cancel_clv (c : Instr) : (s.cancel c).clv = s.clv := rfl
@[simp] theorem State.cancel_saf (c : Instr) : (s.cancel c).saf = s.saf := rfl
@[simp] theorem State.cancel_plc (c : Instr) : (s.cancel c).plc = s.plc := rfl
@[simp] theorem State.cancel_ident (c : Instr) : (s.cancel c).ident = s.ident := rfl
@[simp] theorem State.cancel_ring (c : Instr) : (s.cancel c).ring = s.ring := rfl
@[simp] theorem State.cancel_hqNext (c : Instr) : (s.cancel c).hqNext = s.hqNext := rfl
@[simp] theorem State.cancel_turn (c : Instr) : (s.cancel c).turn = s.turn := rfl
@[simp] theorem State.cancel_host (c : Instr) : (s.cancel c).host = s.host := rfl
@[simp] theorem State.cancel_bbs (c : Instr) : (s.cancel c).bbs = s.bbs := rfl
@[simp] theorem State.cancel_fov (c : Instr) : (s.cancel c).fov = s.fov := rfl
@[simp] theorem State.cancel_ans (c : Instr) : (s.cancel c).ans = s.ans := rfl
@[simp] theorem State.cancel_pws (c : Instr) : (s.cancel c).pws = s.pws := rfl
@[simp] theorem State.cancel_rd (c : Instr) (k : Nat) : (s.cancel c).rd k = s.rd k := rfl
@[simp] theorem State.cancel_f (c : Instr) (G : Field) : (s.cancel c).f G = s.f G := rfl
@[simp] theorem State.cancel_fi (c : Instr) (G : Field) : (s.cancel c).fi G = s.fi G := rfl
@[simp] theorem State.cancel_on (c : Instr) (G : Field) : (s.cancel c).on G = s.on G := rfl
@[simp] theorem State.cancel_rdI (c : Instr) (k : Nat) : (s.cancel c).rdI k = s.rdI k := rfl
@[simp] theorem State.cancel_mstate (c : Instr) : (s.cancel c).mstate = s.mstate := rfl
@[simp] theorem State.cancel_isIn (c : Instr) (l : List Nat) : (s.cancel c).isIn l = s.isIn l := rfl
@[simp] theorem State.cancel_ns (c : Instr) (b : Nat) : (s.cancel c).ns b = s.ns b := rfl
@[simp] theorem State.cancel_wc (c : Instr) (b : Nat) : (s.cancel c).wc b = s.wc b := rfl
@[simp] theorem State.cancel_byte (c : Instr) (mm : MemId) (j : Nat) : (s.cancel c).byte mm j = s.byte mm j := rfl
@[simp] theorem State.cancel_en (c : Instr) (f : Nat) : (s.cancel c).en f = s.en f := rfl
@[simp] theorem State.cancel_bankRd (c : Instr) (mm : Master) (k : Nat) : (s.cancel c).bankRd mm k = s.bankRd mm k := rfl

/-! resched -/

@[simp] theorem State.resched_pending (dt : Nat) (c : Instr) : (s.resched dt c).pending = s.pending := rfl
@[simp] theorem State.resched_now (dt : Nat) (c : Instr) : (s.resched dt c).now = s.now := rfl
@[simp] theorem State.resched_moves (dt : Nat) (c : Instr) : (s.resched dt c).moves = s.moves := rfl
@[simp] theorem State.resched_free (dt : Nat) (c : Instr) : (s.resched dt c).free = s.free := rfl
@[simp] theorem State.resched_lastResp (dt : Nat) (c : Instr) : (s.resched dt c).lastResp = s.lastResp := rfl
@[simp] theorem State.resched_was (dt : Nat) (c : Instr) : (s.resched dt c).was = s.was := rfl
@[simp] theorem State.resched_regs (dt : Nat) (c : Instr) : (s.resched dt c).regs = s.regs := rfl
@[simp] theorem State.resched_bank (dt : Nat) (c : Instr) : (s.resched dt c).bank = s.bank := rfl
@[simp] theorem State.resched_mem (dt : Nat) (c : Instr) : (s.resched dt c).mem = s.mem := rfl
@[simp] theorem State.resched_clvIn (dt : Nat) (c : Instr) : (s.resched dt c).clvIn = s.clvIn := rfl
@[simp] theorem State.resched_ansIn (dt : Nat) (c : Instr) : (s.resched dt c).ansIn = s.ansIn := rfl
@[simp] theorem State.resched_tbase (dt : Nat) (c : Instr) : (s.resched dt c).tbase = s.tbase := rfl
@[simp] theorem State.resched_tbu (dt : Nat) (c : Instr) : (s.resched dt c).tbu = s.tbu := rfl
@[simp] theorem State.resched_dpw (dt : Nat) (c : Instr) : (s.resched dt c).dpw = s.dpw := rfl
@[simp] theorem State.resched_leg (dt : Nat) (c : Instr) : (s.resched dt c).leg = s.leg := rfl
@[simp] theorem State.resched_tripIn (dt : Nat) (c : Instr) : (s.resched dt c).tripIn = s.tripIn := rfl
@[simp] theorem State.resched_caq (dt : Nat) (c : Instr) : (s.resched dt c).caq = s.caq := rfl
@[simp] theorem State.resched_caqOld (dt : Nat) (c : Instr) : (s.resched dt c).caqOld = s.caqOld := rfl
@[simp] theorem State.resched_ecc (dt : Nat) (c : Instr) : (s.resched dt c).ecc = s.ecc := rfl
@[simp] theorem State.resched_dsck (dt : Nat) (c : Instr) : (s.resched dt c).dsck = s.dsck := rfl
@[simp] theorem State.resched_pfb (dt : Nat) (c : Instr) : (s.resched dt c).pfb = s.pfb := rfl
@[simp] theorem State.resched_hbDue (dt : Nat) (c : Instr) : (s.resched dt c).hbDue = s.hbDue := rfl
@[simp] theorem State.resched_slot (dt : Nat) (c : Instr) : (s.resched dt c).slot = s.slot := rfl
@[simp] theorem State.resched_lpe (dt : Nat) (c : Instr) : (s.resched dt c).lpe = s.lpe := rfl
@[simp] theorem State.resched_pg (dt : Nat) (c : Instr) : (s.resched dt c).pg = s.pg := rfl
@[simp] theorem State.resched_cap (dt : Nat) (c : Instr) : (s.resched dt c).cap = s.cap := rfl
@[simp] theorem State.resched_msixSent (dt : Nat) (c : Instr) : (s.resched dt c).msixSent = s.msixSent := rfl
@[simp] theorem State.resched_door (dt : Nat) (c : Instr) : (s.resched dt c).door = s.door := rfl
@[simp] theorem State.resched_fio (dt : Nat) (c : Instr) : (s.resched dt c).fio = s.fio := rfl
@[simp] theorem State.resched_cqes (dt : Nat) (c : Instr) : (s.resched dt c).cqes = s.cqes := rfl
@[simp] theorem State.resched_nmg (dt : Nat) (c : Instr) : (s.resched dt c).nmg = s.nmg := rfl
@[simp] theorem State.resched_snap (dt : Nat) (c : Instr) : (s.resched dt c).snap = s.snap := rfl
@[simp] theorem State.resched_eng (dt : Nat) (c : Instr) : (s.resched dt c).eng = s.eng := rfl
@[simp] theorem State.resched_clv (dt : Nat) (c : Instr) : (s.resched dt c).clv = s.clv := rfl
@[simp] theorem State.resched_saf (dt : Nat) (c : Instr) : (s.resched dt c).saf = s.saf := rfl
@[simp] theorem State.resched_plc (dt : Nat) (c : Instr) : (s.resched dt c).plc = s.plc := rfl
@[simp] theorem State.resched_ident (dt : Nat) (c : Instr) : (s.resched dt c).ident = s.ident := rfl
@[simp] theorem State.resched_ring (dt : Nat) (c : Instr) : (s.resched dt c).ring = s.ring := rfl
@[simp] theorem State.resched_hqNext (dt : Nat) (c : Instr) : (s.resched dt c).hqNext = s.hqNext := rfl
@[simp] theorem State.resched_turn (dt : Nat) (c : Instr) : (s.resched dt c).turn = s.turn := rfl
@[simp] theorem State.resched_host (dt : Nat) (c : Instr) : (s.resched dt c).host = s.host := rfl
@[simp] theorem State.resched_bbs (dt : Nat) (c : Instr) : (s.resched dt c).bbs = s.bbs := rfl
@[simp] theorem State.resched_fov (dt : Nat) (c : Instr) : (s.resched dt c).fov = s.fov := rfl
@[simp] theorem State.resched_ans (dt : Nat) (c : Instr) : (s.resched dt c).ans = s.ans := rfl
@[simp] theorem State.resched_pws (dt : Nat) (c : Instr) : (s.resched dt c).pws = s.pws := rfl
@[simp] theorem State.resched_rd (dt : Nat) (c : Instr) (k : Nat) : (s.resched dt c).rd k = s.rd k := rfl
@[simp] theorem State.resched_f (dt : Nat) (c : Instr) (G : Field) : (s.resched dt c).f G = s.f G := rfl
@[simp] theorem State.resched_fi (dt : Nat) (c : Instr) (G : Field) : (s.resched dt c).fi G = s.fi G := rfl
@[simp] theorem State.resched_on (dt : Nat) (c : Instr) (G : Field) : (s.resched dt c).on G = s.on G := rfl
@[simp] theorem State.resched_rdI (dt : Nat) (c : Instr) (k : Nat) : (s.resched dt c).rdI k = s.rdI k := rfl
@[simp] theorem State.resched_mstate (dt : Nat) (c : Instr) : (s.resched dt c).mstate = s.mstate := rfl
@[simp] theorem State.resched_isIn (dt : Nat) (c : Instr) (l : List Nat) : (s.resched dt c).isIn l = s.isIn l := rfl
@[simp] theorem State.resched_ns (dt : Nat) (c : Instr) (b : Nat) : (s.resched dt c).ns b = s.ns b := rfl
@[simp] theorem State.resched_wc (dt : Nat) (c : Instr) (b : Nat) : (s.resched dt c).wc b = s.wc b := rfl
@[simp] theorem State.resched_byte (dt : Nat) (c : Instr) (mm : MemId) (j : Nat) : (s.resched dt c).byte mm j = s.byte mm j := rfl
@[simp] theorem State.resched_en (dt : Nat) (c : Instr) (f : Nat) : (s.resched dt c).en f = s.en f := rfl
@[simp] theorem State.resched_bankRd (dt : Nat) (c : Instr) (mm : Master) (k : Nat) : (s.resched dt c).bankRd mm k = s.bankRd mm k := rfl

/-! record -/

@[simp] theorem State.record_pending (cls code unit sev : Nat) (p : BitVec 128) : (s.record cls code unit sev p).pending = s.pending := rfl
@[simp] theorem State.record_now (cls code unit sev : Nat) (p : BitVec 128) : (s.record cls code unit sev p).now = s.now := rfl
@[simp] theorem State.record_moves (cls code unit sev : Nat) (p : BitVec 128) : (s.record cls code unit sev p).moves = s.moves := rfl
@[simp] theorem State.record_free (cls code unit sev : Nat) (p : BitVec 128) : (s.record cls code unit sev p).free = s.free := rfl
@[simp] theorem State.record_lastResp (cls code unit sev : Nat) (p : BitVec 128) : (s.record cls code unit sev p).lastResp = s.lastResp := rfl
@[simp] theorem State.record_was (cls code unit sev : Nat) (p : BitVec 128) : (s.record cls code unit sev p).was = s.was := rfl
@[simp] theorem State.record_regs (cls code unit sev : Nat) (p : BitVec 128) : (s.record cls code unit sev p).regs = s.regs := rfl
@[simp] theorem State.record_bank (cls code unit sev : Nat) (p : BitVec 128) : (s.record cls code unit sev p).bank = s.bank := rfl
@[simp] theorem State.record_mem (cls code unit sev : Nat) (p : BitVec 128) : (s.record cls code unit sev p).mem = s.mem := rfl
@[simp] theorem State.record_agenda (cls code unit sev : Nat) (p : BitVec 128) : (s.record cls code unit sev p).agenda = s.agenda := rfl
@[simp] theorem State.record_clvIn (cls code unit sev : Nat) (p : BitVec 128) : (s.record cls code unit sev p).clvIn = s.clvIn := rfl
@[simp] theorem State.record_tbase (cls code unit sev : Nat) (p : BitVec 128) : (s.record cls code unit sev p).tbase = s.tbase := rfl
@[simp] theorem State.record_tbu (cls code unit sev : Nat) (p : BitVec 128) : (s.record cls code unit sev p).tbu = s.tbu := rfl
@[simp] theorem State.record_dpw (cls code unit sev : Nat) (p : BitVec 128) : (s.record cls code unit sev p).dpw = s.dpw := rfl
@[simp] theorem State.record_leg (cls code unit sev : Nat) (p : BitVec 128) : (s.record cls code unit sev p).leg = s.leg := rfl
@[simp] theorem State.record_tripIn (cls code unit sev : Nat) (p : BitVec 128) : (s.record cls code unit sev p).tripIn = s.tripIn := rfl
@[simp] theorem State.record_caq (cls code unit sev : Nat) (p : BitVec 128) : (s.record cls code unit sev p).caq = s.caq := rfl
@[simp] theorem State.record_caqOld (cls code unit sev : Nat) (p : BitVec 128) : (s.record cls code unit sev p).caqOld = s.caqOld := rfl
@[simp] theorem State.record_ecc (cls code unit sev : Nat) (p : BitVec 128) : (s.record cls code unit sev p).ecc = s.ecc := rfl
@[simp] theorem State.record_dsck (cls code unit sev : Nat) (p : BitVec 128) : (s.record cls code unit sev p).dsck = s.dsck := rfl
@[simp] theorem State.record_pfb (cls code unit sev : Nat) (p : BitVec 128) : (s.record cls code unit sev p).pfb = s.pfb := rfl
@[simp] theorem State.record_hbDue (cls code unit sev : Nat) (p : BitVec 128) : (s.record cls code unit sev p).hbDue = s.hbDue := rfl
@[simp] theorem State.record_slot (cls code unit sev : Nat) (p : BitVec 128) : (s.record cls code unit sev p).slot = s.slot := rfl
@[simp] theorem State.record_lpe (cls code unit sev : Nat) (p : BitVec 128) : (s.record cls code unit sev p).lpe = s.lpe := rfl
@[simp] theorem State.record_pg (cls code unit sev : Nat) (p : BitVec 128) : (s.record cls code unit sev p).pg = s.pg := rfl
@[simp] theorem State.record_cap (cls code unit sev : Nat) (p : BitVec 128) : (s.record cls code unit sev p).cap = s.cap := rfl
@[simp] theorem State.record_msixSent (cls code unit sev : Nat) (p : BitVec 128) : (s.record cls code unit sev p).msixSent = s.msixSent := rfl
@[simp] theorem State.record_door (cls code unit sev : Nat) (p : BitVec 128) : (s.record cls code unit sev p).door = s.door := rfl
@[simp] theorem State.record_fio (cls code unit sev : Nat) (p : BitVec 128) : (s.record cls code unit sev p).fio = s.fio := rfl
@[simp] theorem State.record_cqes (cls code unit sev : Nat) (p : BitVec 128) : (s.record cls code unit sev p).cqes = s.cqes := rfl
@[simp] theorem State.record_nmg (cls code unit sev : Nat) (p : BitVec 128) : (s.record cls code unit sev p).nmg = s.nmg := rfl
@[simp] theorem State.record_snap (cls code unit sev : Nat) (p : BitVec 128) : (s.record cls code unit sev p).snap = s.snap := rfl
@[simp] theorem State.record_eng (cls code unit sev : Nat) (p : BitVec 128) : (s.record cls code unit sev p).eng = s.eng := rfl
@[simp] theorem State.record_clv (cls code unit sev : Nat) (p : BitVec 128) : (s.record cls code unit sev p).clv = s.clv := rfl
@[simp] theorem State.record_saf (cls code unit sev : Nat) (p : BitVec 128) : (s.record cls code unit sev p).saf = s.saf := rfl
@[simp] theorem State.record_plc (cls code unit sev : Nat) (p : BitVec 128) : (s.record cls code unit sev p).plc = s.plc := rfl
@[simp] theorem State.record_ident (cls code unit sev : Nat) (p : BitVec 128) : (s.record cls code unit sev p).ident = s.ident := rfl
@[simp] theorem State.record_ring (cls code unit sev : Nat) (p : BitVec 128) : (s.record cls code unit sev p).ring = s.ring := rfl
@[simp] theorem State.record_hqNext (cls code unit sev : Nat) (p : BitVec 128) : (s.record cls code unit sev p).hqNext = s.hqNext := rfl
@[simp] theorem State.record_turn (cls code unit sev : Nat) (p : BitVec 128) : (s.record cls code unit sev p).turn = s.turn := rfl
@[simp] theorem State.record_host (cls code unit sev : Nat) (p : BitVec 128) : (s.record cls code unit sev p).host = s.host := rfl
@[simp] theorem State.record_bbs (cls code unit sev : Nat) (p : BitVec 128) : (s.record cls code unit sev p).bbs = s.bbs := rfl
@[simp] theorem State.record_fov (cls code unit sev : Nat) (p : BitVec 128) : (s.record cls code unit sev p).fov = s.fov := rfl
@[simp] theorem State.record_ans (cls code unit sev : Nat) (p : BitVec 128) : (s.record cls code unit sev p).ans = s.ans := rfl
@[simp] theorem State.record_pws (cls code unit sev : Nat) (p : BitVec 128) : (s.record cls code unit sev p).pws = s.pws := rfl
@[simp] theorem State.record_rd (cls code unit sev : Nat) (p : BitVec 128) (k : Nat) : (s.record cls code unit sev p).rd k = s.rd k := rfl
@[simp] theorem State.record_f (cls code unit sev : Nat) (p : BitVec 128) (G : Field) : (s.record cls code unit sev p).f G = s.f G := rfl
@[simp] theorem State.record_fi (cls code unit sev : Nat) (p : BitVec 128) (G : Field) : (s.record cls code unit sev p).fi G = s.fi G := rfl
@[simp] theorem State.record_on (cls code unit sev : Nat) (p : BitVec 128) (G : Field) : (s.record cls code unit sev p).on G = s.on G := rfl
@[simp] theorem State.record_rdI (cls code unit sev : Nat) (p : BitVec 128) (k : Nat) : (s.record cls code unit sev p).rdI k = s.rdI k := rfl
@[simp] theorem State.record_mstate (cls code unit sev : Nat) (p : BitVec 128) : (s.record cls code unit sev p).mstate = s.mstate := rfl
@[simp] theorem State.record_isIn (cls code unit sev : Nat) (p : BitVec 128) (l : List Nat) : (s.record cls code unit sev p).isIn l = s.isIn l := rfl
@[simp] theorem State.record_ns (cls code unit sev : Nat) (p : BitVec 128) (b : Nat) : (s.record cls code unit sev p).ns b = s.ns b := rfl
@[simp] theorem State.record_wc (cls code unit sev : Nat) (p : BitVec 128) (b : Nat) : (s.record cls code unit sev p).wc b = s.wc b := rfl
@[simp] theorem State.record_byte (cls code unit sev : Nat) (p : BitVec 128) (mm : MemId) (j : Nat) : (s.record cls code unit sev p).byte mm j = s.byte mm j := rfl
@[simp] theorem State.record_en (cls code unit sev : Nat) (p : BitVec 128) (f : Nat) : (s.record cls code unit sev p).en f = s.en f := rfl
@[simp] theorem State.record_bankRd (cls code unit sev : Nat) (p : BitVec 128) (mm : Master) (k : Nat) : (s.record cls code unit sev p).bankRd mm k = s.bankRd mm k := rfl

/-! recordStat -/

@[simp] theorem State.recordStat_pending (cls code unit sev st : Nat) : (s.recordStat cls code unit sev st).pending = s.pending := rfl
@[simp] theorem State.recordStat_now (cls code unit sev st : Nat) : (s.recordStat cls code unit sev st).now = s.now := rfl
@[simp] theorem State.recordStat_moves (cls code unit sev st : Nat) : (s.recordStat cls code unit sev st).moves = s.moves := rfl
@[simp] theorem State.recordStat_free (cls code unit sev st : Nat) : (s.recordStat cls code unit sev st).free = s.free := rfl
@[simp] theorem State.recordStat_lastResp (cls code unit sev st : Nat) : (s.recordStat cls code unit sev st).lastResp = s.lastResp := rfl
@[simp] theorem State.recordStat_was (cls code unit sev st : Nat) : (s.recordStat cls code unit sev st).was = s.was := rfl
@[simp] theorem State.recordStat_regs (cls code unit sev st : Nat) : (s.recordStat cls code unit sev st).regs = s.regs := rfl
@[simp] theorem State.recordStat_bank (cls code unit sev st : Nat) : (s.recordStat cls code unit sev st).bank = s.bank := rfl
@[simp] theorem State.recordStat_mem (cls code unit sev st : Nat) : (s.recordStat cls code unit sev st).mem = s.mem := rfl
@[simp] theorem State.recordStat_agenda (cls code unit sev st : Nat) : (s.recordStat cls code unit sev st).agenda = s.agenda := rfl
@[simp] theorem State.recordStat_clvIn (cls code unit sev st : Nat) : (s.recordStat cls code unit sev st).clvIn = s.clvIn := rfl
@[simp] theorem State.recordStat_tbase (cls code unit sev st : Nat) : (s.recordStat cls code unit sev st).tbase = s.tbase := rfl
@[simp] theorem State.recordStat_tbu (cls code unit sev st : Nat) : (s.recordStat cls code unit sev st).tbu = s.tbu := rfl
@[simp] theorem State.recordStat_dpw (cls code unit sev st : Nat) : (s.recordStat cls code unit sev st).dpw = s.dpw := rfl
@[simp] theorem State.recordStat_leg (cls code unit sev st : Nat) : (s.recordStat cls code unit sev st).leg = s.leg := rfl
@[simp] theorem State.recordStat_tripIn (cls code unit sev st : Nat) : (s.recordStat cls code unit sev st).tripIn = s.tripIn := rfl
@[simp] theorem State.recordStat_caq (cls code unit sev st : Nat) : (s.recordStat cls code unit sev st).caq = s.caq := rfl
@[simp] theorem State.recordStat_caqOld (cls code unit sev st : Nat) : (s.recordStat cls code unit sev st).caqOld = s.caqOld := rfl
@[simp] theorem State.recordStat_ecc (cls code unit sev st : Nat) : (s.recordStat cls code unit sev st).ecc = s.ecc := rfl
@[simp] theorem State.recordStat_dsck (cls code unit sev st : Nat) : (s.recordStat cls code unit sev st).dsck = s.dsck := rfl
@[simp] theorem State.recordStat_pfb (cls code unit sev st : Nat) : (s.recordStat cls code unit sev st).pfb = s.pfb := rfl
@[simp] theorem State.recordStat_hbDue (cls code unit sev st : Nat) : (s.recordStat cls code unit sev st).hbDue = s.hbDue := rfl
@[simp] theorem State.recordStat_slot (cls code unit sev st : Nat) : (s.recordStat cls code unit sev st).slot = s.slot := rfl
@[simp] theorem State.recordStat_lpe (cls code unit sev st : Nat) : (s.recordStat cls code unit sev st).lpe = s.lpe := rfl
@[simp] theorem State.recordStat_pg (cls code unit sev st : Nat) : (s.recordStat cls code unit sev st).pg = s.pg := rfl
@[simp] theorem State.recordStat_cap (cls code unit sev st : Nat) : (s.recordStat cls code unit sev st).cap = s.cap := rfl
@[simp] theorem State.recordStat_msixSent (cls code unit sev st : Nat) : (s.recordStat cls code unit sev st).msixSent = s.msixSent := rfl
@[simp] theorem State.recordStat_door (cls code unit sev st : Nat) : (s.recordStat cls code unit sev st).door = s.door := rfl
@[simp] theorem State.recordStat_fio (cls code unit sev st : Nat) : (s.recordStat cls code unit sev st).fio = s.fio := rfl
@[simp] theorem State.recordStat_cqes (cls code unit sev st : Nat) : (s.recordStat cls code unit sev st).cqes = s.cqes := rfl
@[simp] theorem State.recordStat_nmg (cls code unit sev st : Nat) : (s.recordStat cls code unit sev st).nmg = s.nmg := rfl
@[simp] theorem State.recordStat_snap (cls code unit sev st : Nat) : (s.recordStat cls code unit sev st).snap = s.snap := rfl
@[simp] theorem State.recordStat_eng (cls code unit sev st : Nat) : (s.recordStat cls code unit sev st).eng = s.eng := rfl
@[simp] theorem State.recordStat_clv (cls code unit sev st : Nat) : (s.recordStat cls code unit sev st).clv = s.clv := rfl
@[simp] theorem State.recordStat_saf (cls code unit sev st : Nat) : (s.recordStat cls code unit sev st).saf = s.saf := rfl
@[simp] theorem State.recordStat_plc (cls code unit sev st : Nat) : (s.recordStat cls code unit sev st).plc = s.plc := rfl
@[simp] theorem State.recordStat_ident (cls code unit sev st : Nat) : (s.recordStat cls code unit sev st).ident = s.ident := rfl
@[simp] theorem State.recordStat_ring (cls code unit sev st : Nat) : (s.recordStat cls code unit sev st).ring = s.ring := rfl
@[simp] theorem State.recordStat_hqNext (cls code unit sev st : Nat) : (s.recordStat cls code unit sev st).hqNext = s.hqNext := rfl
@[simp] theorem State.recordStat_turn (cls code unit sev st : Nat) : (s.recordStat cls code unit sev st).turn = s.turn := rfl
@[simp] theorem State.recordStat_host (cls code unit sev st : Nat) : (s.recordStat cls code unit sev st).host = s.host := rfl
@[simp] theorem State.recordStat_bbs (cls code unit sev st : Nat) : (s.recordStat cls code unit sev st).bbs = s.bbs := rfl
@[simp] theorem State.recordStat_fov (cls code unit sev st : Nat) : (s.recordStat cls code unit sev st).fov = s.fov := rfl
@[simp] theorem State.recordStat_ans (cls code unit sev st : Nat) : (s.recordStat cls code unit sev st).ans = s.ans := rfl
@[simp] theorem State.recordStat_pws (cls code unit sev st : Nat) : (s.recordStat cls code unit sev st).pws = s.pws := rfl
@[simp] theorem State.recordStat_rd (cls code unit sev st : Nat) (k : Nat) : (s.recordStat cls code unit sev st).rd k = s.rd k := rfl
@[simp] theorem State.recordStat_f (cls code unit sev st : Nat) (G : Field) : (s.recordStat cls code unit sev st).f G = s.f G := rfl
@[simp] theorem State.recordStat_fi (cls code unit sev st : Nat) (G : Field) : (s.recordStat cls code unit sev st).fi G = s.fi G := rfl
@[simp] theorem State.recordStat_on (cls code unit sev st : Nat) (G : Field) : (s.recordStat cls code unit sev st).on G = s.on G := rfl
@[simp] theorem State.recordStat_rdI (cls code unit sev st : Nat) (k : Nat) : (s.recordStat cls code unit sev st).rdI k = s.rdI k := rfl
@[simp] theorem State.recordStat_mstate (cls code unit sev st : Nat) : (s.recordStat cls code unit sev st).mstate = s.mstate := rfl
@[simp] theorem State.recordStat_isIn (cls code unit sev st : Nat) (l : List Nat) : (s.recordStat cls code unit sev st).isIn l = s.isIn l := rfl
@[simp] theorem State.recordStat_ns (cls code unit sev st : Nat) (b : Nat) : (s.recordStat cls code unit sev st).ns b = s.ns b := rfl
@[simp] theorem State.recordStat_wc (cls code unit sev st : Nat) (b : Nat) : (s.recordStat cls code unit sev st).wc b = s.wc b := rfl
@[simp] theorem State.recordStat_byte (cls code unit sev st : Nat) (mm : MemId) (j : Nat) : (s.recordStat cls code unit sev st).byte mm j = s.byte mm j := rfl
@[simp] theorem State.recordStat_en (cls code unit sev st : Nat) (f : Nat) : (s.recordStat cls code unit sev st).en f = s.en f := rfl
@[simp] theorem State.recordStat_bankRd (cls code unit sev st : Nat) (mm : Master) (k : Nat) : (s.recordStat cls code unit sev st).bankRd mm k = s.bankRd mm k := rfl

/-! sysIllegal -/

@[simp] theorem State.sysIllegal_pending : (s.sysIllegal).pending = s.pending := rfl
@[simp] theorem State.sysIllegal_now : (s.sysIllegal).now = s.now := rfl
@[simp] theorem State.sysIllegal_moves : (s.sysIllegal).moves = s.moves := rfl
@[simp] theorem State.sysIllegal_free : (s.sysIllegal).free = s.free := rfl
@[simp] theorem State.sysIllegal_lastResp : (s.sysIllegal).lastResp = s.lastResp := rfl
@[simp] theorem State.sysIllegal_was : (s.sysIllegal).was = s.was := rfl
@[simp] theorem State.sysIllegal_regs : (s.sysIllegal).regs = s.regs := rfl
@[simp] theorem State.sysIllegal_bank : (s.sysIllegal).bank = s.bank := rfl
@[simp] theorem State.sysIllegal_mem : (s.sysIllegal).mem = s.mem := rfl
@[simp] theorem State.sysIllegal_agenda : (s.sysIllegal).agenda = s.agenda := rfl
@[simp] theorem State.sysIllegal_clvIn : (s.sysIllegal).clvIn = s.clvIn := rfl
@[simp] theorem State.sysIllegal_tbase : (s.sysIllegal).tbase = s.tbase := rfl
@[simp] theorem State.sysIllegal_tbu : (s.sysIllegal).tbu = s.tbu := rfl
@[simp] theorem State.sysIllegal_dpw : (s.sysIllegal).dpw = s.dpw := rfl
@[simp] theorem State.sysIllegal_leg : (s.sysIllegal).leg = s.leg := rfl
@[simp] theorem State.sysIllegal_tripIn : (s.sysIllegal).tripIn = s.tripIn := rfl
@[simp] theorem State.sysIllegal_caq : (s.sysIllegal).caq = s.caq := rfl
@[simp] theorem State.sysIllegal_caqOld : (s.sysIllegal).caqOld = s.caqOld := rfl
@[simp] theorem State.sysIllegal_ecc : (s.sysIllegal).ecc = s.ecc := rfl
@[simp] theorem State.sysIllegal_dsck : (s.sysIllegal).dsck = s.dsck := rfl
@[simp] theorem State.sysIllegal_pfb : (s.sysIllegal).pfb = s.pfb := rfl
@[simp] theorem State.sysIllegal_hbDue : (s.sysIllegal).hbDue = s.hbDue := rfl
@[simp] theorem State.sysIllegal_slot : (s.sysIllegal).slot = s.slot := rfl
@[simp] theorem State.sysIllegal_lpe : (s.sysIllegal).lpe = s.lpe := rfl
@[simp] theorem State.sysIllegal_pg : (s.sysIllegal).pg = s.pg := rfl
@[simp] theorem State.sysIllegal_cap : (s.sysIllegal).cap = s.cap := rfl
@[simp] theorem State.sysIllegal_msixSent : (s.sysIllegal).msixSent = s.msixSent := rfl
@[simp] theorem State.sysIllegal_door : (s.sysIllegal).door = s.door := rfl
@[simp] theorem State.sysIllegal_fio : (s.sysIllegal).fio = s.fio := rfl
@[simp] theorem State.sysIllegal_cqes : (s.sysIllegal).cqes = s.cqes := rfl
@[simp] theorem State.sysIllegal_nmg : (s.sysIllegal).nmg = s.nmg := rfl
@[simp] theorem State.sysIllegal_snap : (s.sysIllegal).snap = s.snap := rfl
@[simp] theorem State.sysIllegal_eng : (s.sysIllegal).eng = s.eng := rfl
@[simp] theorem State.sysIllegal_clv : (s.sysIllegal).clv = s.clv := rfl
@[simp] theorem State.sysIllegal_saf : (s.sysIllegal).saf = s.saf := rfl
@[simp] theorem State.sysIllegal_plc : (s.sysIllegal).plc = s.plc := rfl
@[simp] theorem State.sysIllegal_ident : (s.sysIllegal).ident = s.ident := rfl
@[simp] theorem State.sysIllegal_ring : (s.sysIllegal).ring = s.ring := rfl
@[simp] theorem State.sysIllegal_hqNext : (s.sysIllegal).hqNext = s.hqNext := rfl
@[simp] theorem State.sysIllegal_turn : (s.sysIllegal).turn = s.turn := rfl
@[simp] theorem State.sysIllegal_host : (s.sysIllegal).host = s.host := rfl
@[simp] theorem State.sysIllegal_bbs : (s.sysIllegal).bbs = s.bbs := rfl
@[simp] theorem State.sysIllegal_fov : (s.sysIllegal).fov = s.fov := rfl
@[simp] theorem State.sysIllegal_ans : (s.sysIllegal).ans = s.ans := rfl
@[simp] theorem State.sysIllegal_pws : (s.sysIllegal).pws = s.pws := rfl
@[simp] theorem State.sysIllegal_rd (k : Nat) : (s.sysIllegal).rd k = s.rd k := rfl
@[simp] theorem State.sysIllegal_f (G : Field) : (s.sysIllegal).f G = s.f G := rfl
@[simp] theorem State.sysIllegal_fi (G : Field) : (s.sysIllegal).fi G = s.fi G := rfl
@[simp] theorem State.sysIllegal_on (G : Field) : (s.sysIllegal).on G = s.on G := rfl
@[simp] theorem State.sysIllegal_rdI (k : Nat) : (s.sysIllegal).rdI k = s.rdI k := rfl
@[simp] theorem State.sysIllegal_mstate : (s.sysIllegal).mstate = s.mstate := rfl
@[simp] theorem State.sysIllegal_isIn (l : List Nat) : (s.sysIllegal).isIn l = s.isIn l := rfl
@[simp] theorem State.sysIllegal_ns (b : Nat) : (s.sysIllegal).ns b = s.ns b := rfl
@[simp] theorem State.sysIllegal_wc (b : Nat) : (s.sysIllegal).wc b = s.wc b := rfl
@[simp] theorem State.sysIllegal_byte (mm : MemId) (j : Nat) : (s.sysIllegal).byte mm j = s.byte mm j := rfl
@[simp] theorem State.sysIllegal_en (f : Nat) : (s.sysIllegal).en f = s.en f := rfl
@[simp] theorem State.sysIllegal_bankRd (mm : Master) (k : Nat) : (s.sysIllegal).bankRd mm k = s.bankRd mm k := rfl

/-! token -/

@[simp] theorem State.token_pending (tag : Nat) (v : Word) (r : Nat) : (s.token tag v r).pending = s.pending := rfl
@[simp] theorem State.token_now (tag : Nat) (v : Word) (r : Nat) : (s.token tag v r).now = s.now := rfl
@[simp] theorem State.token_moves (tag : Nat) (v : Word) (r : Nat) : (s.token tag v r).moves = s.moves := rfl
@[simp] theorem State.token_free (tag : Nat) (v : Word) (r : Nat) : (s.token tag v r).free = s.free := rfl
@[simp] theorem State.token_lastResp (tag : Nat) (v : Word) (r : Nat) : (s.token tag v r).lastResp = s.lastResp := rfl
@[simp] theorem State.token_was (tag : Nat) (v : Word) (r : Nat) : (s.token tag v r).was = s.was := rfl
@[simp] theorem State.token_regs (tag : Nat) (v : Word) (r : Nat) : (s.token tag v r).regs = s.regs := rfl
@[simp] theorem State.token_bank (tag : Nat) (v : Word) (r : Nat) : (s.token tag v r).bank = s.bank := rfl
@[simp] theorem State.token_mem (tag : Nat) (v : Word) (r : Nat) : (s.token tag v r).mem = s.mem := rfl
@[simp] theorem State.token_agenda (tag : Nat) (v : Word) (r : Nat) : (s.token tag v r).agenda = s.agenda := rfl
@[simp] theorem State.token_ansIn (tag : Nat) (v : Word) (r : Nat) : (s.token tag v r).ansIn = s.ansIn := rfl
@[simp] theorem State.token_tbase (tag : Nat) (v : Word) (r : Nat) : (s.token tag v r).tbase = s.tbase := rfl
@[simp] theorem State.token_tbu (tag : Nat) (v : Word) (r : Nat) : (s.token tag v r).tbu = s.tbu := rfl
@[simp] theorem State.token_dpw (tag : Nat) (v : Word) (r : Nat) : (s.token tag v r).dpw = s.dpw := rfl
@[simp] theorem State.token_leg (tag : Nat) (v : Word) (r : Nat) : (s.token tag v r).leg = s.leg := rfl
@[simp] theorem State.token_tripIn (tag : Nat) (v : Word) (r : Nat) : (s.token tag v r).tripIn = s.tripIn := rfl
@[simp] theorem State.token_caq (tag : Nat) (v : Word) (r : Nat) : (s.token tag v r).caq = s.caq := rfl
@[simp] theorem State.token_caqOld (tag : Nat) (v : Word) (r : Nat) : (s.token tag v r).caqOld = s.caqOld := rfl
@[simp] theorem State.token_ecc (tag : Nat) (v : Word) (r : Nat) : (s.token tag v r).ecc = s.ecc := rfl
@[simp] theorem State.token_dsck (tag : Nat) (v : Word) (r : Nat) : (s.token tag v r).dsck = s.dsck := rfl
@[simp] theorem State.token_pfb (tag : Nat) (v : Word) (r : Nat) : (s.token tag v r).pfb = s.pfb := rfl
@[simp] theorem State.token_hbDue (tag : Nat) (v : Word) (r : Nat) : (s.token tag v r).hbDue = s.hbDue := rfl
@[simp] theorem State.token_slot (tag : Nat) (v : Word) (r : Nat) : (s.token tag v r).slot = s.slot := rfl
@[simp] theorem State.token_lpe (tag : Nat) (v : Word) (r : Nat) : (s.token tag v r).lpe = s.lpe := rfl
@[simp] theorem State.token_pg (tag : Nat) (v : Word) (r : Nat) : (s.token tag v r).pg = s.pg := rfl
@[simp] theorem State.token_cap (tag : Nat) (v : Word) (r : Nat) : (s.token tag v r).cap = s.cap := rfl
@[simp] theorem State.token_msixSent (tag : Nat) (v : Word) (r : Nat) : (s.token tag v r).msixSent = s.msixSent := rfl
@[simp] theorem State.token_door (tag : Nat) (v : Word) (r : Nat) : (s.token tag v r).door = s.door := rfl
@[simp] theorem State.token_fio (tag : Nat) (v : Word) (r : Nat) : (s.token tag v r).fio = s.fio := rfl
@[simp] theorem State.token_cqes (tag : Nat) (v : Word) (r : Nat) : (s.token tag v r).cqes = s.cqes := rfl
@[simp] theorem State.token_nmg (tag : Nat) (v : Word) (r : Nat) : (s.token tag v r).nmg = s.nmg := rfl
@[simp] theorem State.token_snap (tag : Nat) (v : Word) (r : Nat) : (s.token tag v r).snap = s.snap := rfl
@[simp] theorem State.token_eng (tag : Nat) (v : Word) (r : Nat) : (s.token tag v r).eng = s.eng := rfl
@[simp] theorem State.token_clv (tag : Nat) (v : Word) (r : Nat) : (s.token tag v r).clv = s.clv := rfl
@[simp] theorem State.token_saf (tag : Nat) (v : Word) (r : Nat) : (s.token tag v r).saf = s.saf := rfl
@[simp] theorem State.token_plc (tag : Nat) (v : Word) (r : Nat) : (s.token tag v r).plc = s.plc := rfl
@[simp] theorem State.token_ident (tag : Nat) (v : Word) (r : Nat) : (s.token tag v r).ident = s.ident := rfl
@[simp] theorem State.token_ring (tag : Nat) (v : Word) (r : Nat) : (s.token tag v r).ring = s.ring := rfl
@[simp] theorem State.token_hqNext (tag : Nat) (v : Word) (r : Nat) : (s.token tag v r).hqNext = s.hqNext := rfl
@[simp] theorem State.token_turn (tag : Nat) (v : Word) (r : Nat) : (s.token tag v r).turn = s.turn := rfl
@[simp] theorem State.token_host (tag : Nat) (v : Word) (r : Nat) : (s.token tag v r).host = s.host := rfl
@[simp] theorem State.token_bbs (tag : Nat) (v : Word) (r : Nat) : (s.token tag v r).bbs = s.bbs := rfl
@[simp] theorem State.token_fov (tag : Nat) (v : Word) (r : Nat) : (s.token tag v r).fov = s.fov := rfl
@[simp] theorem State.token_ans (tag : Nat) (v : Word) (r : Nat) : (s.token tag v r).ans = s.ans := rfl
@[simp] theorem State.token_pws (tag : Nat) (v : Word) (r : Nat) : (s.token tag v r).pws = s.pws := rfl
@[simp] theorem State.token_rd (tag : Nat) (v : Word) (r : Nat) (k : Nat) : (s.token tag v r).rd k = s.rd k := rfl
@[simp] theorem State.token_f (tag : Nat) (v : Word) (r : Nat) (G : Field) : (s.token tag v r).f G = s.f G := rfl
@[simp] theorem State.token_fi (tag : Nat) (v : Word) (r : Nat) (G : Field) : (s.token tag v r).fi G = s.fi G := rfl
@[simp] theorem State.token_on (tag : Nat) (v : Word) (r : Nat) (G : Field) : (s.token tag v r).on G = s.on G := rfl
@[simp] theorem State.token_rdI (tag : Nat) (v : Word) (r : Nat) (k : Nat) : (s.token tag v r).rdI k = s.rdI k := rfl
@[simp] theorem State.token_mstate (tag : Nat) (v : Word) (r : Nat) : (s.token tag v r).mstate = s.mstate := rfl
@[simp] theorem State.token_isIn (tag : Nat) (v : Word) (r : Nat) (l : List Nat) : (s.token tag v r).isIn l = s.isIn l := rfl
@[simp] theorem State.token_ns (tag : Nat) (v : Word) (r : Nat) (b : Nat) : (s.token tag v r).ns b = s.ns b := rfl
@[simp] theorem State.token_wc (tag : Nat) (v : Word) (r : Nat) (b : Nat) : (s.token tag v r).wc b = s.wc b := rfl
@[simp] theorem State.token_byte (tag : Nat) (v : Word) (r : Nat) (mm : MemId) (j : Nat) : (s.token tag v r).byte mm j = s.byte mm j := rfl
@[simp] theorem State.token_en (tag : Nat) (v : Word) (r : Nat) (f : Nat) : (s.token tag v r).en f = s.en f := rfl
@[simp] theorem State.token_bankRd (tag : Nat) (v : Word) (r : Nat) (mm : Master) (k : Nat) : (s.token tag v r).bankRd mm k = s.bankRd mm k := rfl

/-! answer -/

@[simp] theorem State.answer_pending (r : Resp) : (s.answer r).pending = s.pending := rfl
@[simp] theorem State.answer_now (r : Resp) : (s.answer r).now = s.now := rfl
@[simp] theorem State.answer_moves (r : Resp) : (s.answer r).moves = s.moves := rfl
@[simp] theorem State.answer_free (r : Resp) : (s.answer r).free = s.free := rfl
@[simp] theorem State.answer_regs (r : Resp) : (s.answer r).regs = s.regs := rfl
@[simp] theorem State.answer_bank (r : Resp) : (s.answer r).bank = s.bank := rfl
@[simp] theorem State.answer_mem (r : Resp) : (s.answer r).mem = s.mem := rfl
@[simp] theorem State.answer_agenda (r : Resp) : (s.answer r).agenda = s.agenda := rfl
@[simp] theorem State.answer_clvIn (r : Resp) : (s.answer r).clvIn = s.clvIn := rfl
@[simp] theorem State.answer_ansIn (r : Resp) : (s.answer r).ansIn = s.ansIn := rfl
@[simp] theorem State.answer_tbase (r : Resp) : (s.answer r).tbase = s.tbase := rfl
@[simp] theorem State.answer_tbu (r : Resp) : (s.answer r).tbu = s.tbu := rfl
@[simp] theorem State.answer_dpw (r : Resp) : (s.answer r).dpw = s.dpw := rfl
@[simp] theorem State.answer_leg (r : Resp) : (s.answer r).leg = s.leg := rfl
@[simp] theorem State.answer_tripIn (r : Resp) : (s.answer r).tripIn = s.tripIn := rfl
@[simp] theorem State.answer_caq (r : Resp) : (s.answer r).caq = s.caq := rfl
@[simp] theorem State.answer_caqOld (r : Resp) : (s.answer r).caqOld = s.caqOld := rfl
@[simp] theorem State.answer_ecc (r : Resp) : (s.answer r).ecc = s.ecc := rfl
@[simp] theorem State.answer_dsck (r : Resp) : (s.answer r).dsck = s.dsck := rfl
@[simp] theorem State.answer_pfb (r : Resp) : (s.answer r).pfb = s.pfb := rfl
@[simp] theorem State.answer_hbDue (r : Resp) : (s.answer r).hbDue = s.hbDue := rfl
@[simp] theorem State.answer_slot (r : Resp) : (s.answer r).slot = s.slot := rfl
@[simp] theorem State.answer_lpe (r : Resp) : (s.answer r).lpe = s.lpe := rfl
@[simp] theorem State.answer_pg (r : Resp) : (s.answer r).pg = s.pg := rfl
@[simp] theorem State.answer_cap (r : Resp) : (s.answer r).cap = s.cap := rfl
@[simp] theorem State.answer_msixSent (r : Resp) : (s.answer r).msixSent = s.msixSent := rfl
@[simp] theorem State.answer_door (r : Resp) : (s.answer r).door = s.door := rfl
@[simp] theorem State.answer_fio (r : Resp) : (s.answer r).fio = s.fio := rfl
@[simp] theorem State.answer_cqes (r : Resp) : (s.answer r).cqes = s.cqes := rfl
@[simp] theorem State.answer_nmg (r : Resp) : (s.answer r).nmg = s.nmg := rfl
@[simp] theorem State.answer_snap (r : Resp) : (s.answer r).snap = s.snap := rfl
@[simp] theorem State.answer_eng (r : Resp) : (s.answer r).eng = s.eng := rfl
@[simp] theorem State.answer_clv (r : Resp) : (s.answer r).clv = s.clv := rfl
@[simp] theorem State.answer_saf (r : Resp) : (s.answer r).saf = s.saf := rfl
@[simp] theorem State.answer_plc (r : Resp) : (s.answer r).plc = s.plc := rfl
@[simp] theorem State.answer_ident (r : Resp) : (s.answer r).ident = s.ident := rfl
@[simp] theorem State.answer_ring (r : Resp) : (s.answer r).ring = s.ring := rfl
@[simp] theorem State.answer_hqNext (r : Resp) : (s.answer r).hqNext = s.hqNext := rfl
@[simp] theorem State.answer_turn (r : Resp) : (s.answer r).turn = s.turn := rfl
@[simp] theorem State.answer_host (r : Resp) : (s.answer r).host = s.host := rfl
@[simp] theorem State.answer_bbs (r : Resp) : (s.answer r).bbs = s.bbs := rfl
@[simp] theorem State.answer_fov (r : Resp) : (s.answer r).fov = s.fov := rfl
@[simp] theorem State.answer_ans (r : Resp) : (s.answer r).ans = s.ans := rfl
@[simp] theorem State.answer_pws (r : Resp) : (s.answer r).pws = s.pws := rfl
@[simp] theorem State.answer_rd (r : Resp) (k : Nat) : (s.answer r).rd k = s.rd k := rfl
@[simp] theorem State.answer_f (r : Resp) (G : Field) : (s.answer r).f G = s.f G := rfl
@[simp] theorem State.answer_fi (r : Resp) (G : Field) : (s.answer r).fi G = s.fi G := rfl
@[simp] theorem State.answer_on (r : Resp) (G : Field) : (s.answer r).on G = s.on G := rfl
@[simp] theorem State.answer_rdI (r : Resp) (k : Nat) : (s.answer r).rdI k = s.rdI k := rfl
@[simp] theorem State.answer_mstate (r : Resp) : (s.answer r).mstate = s.mstate := rfl
@[simp] theorem State.answer_isIn (r : Resp) (l : List Nat) : (s.answer r).isIn l = s.isIn l := rfl
@[simp] theorem State.answer_ns (r : Resp) (b : Nat) : (s.answer r).ns b = s.ns b := rfl
@[simp] theorem State.answer_wc (r : Resp) (b : Nat) : (s.answer r).wc b = s.wc b := rfl
@[simp] theorem State.answer_byte (r : Resp) (mm : MemId) (j : Nat) : (s.answer r).byte mm j = s.byte mm j := rfl
@[simp] theorem State.answer_en (r : Resp) (f : Nat) : (s.answer r).en f = s.en f := rfl
@[simp] theorem State.answer_bankRd (r : Resp) (mm : Master) (k : Nat) : (s.answer r).bankRd mm k = s.bankRd mm k := rfl

/-! setEn -/

@[simp] theorem State.setEn_pending (e : Nat) (x : Eng) : (s.setEn e x).pending = s.pending := rfl
@[simp] theorem State.setEn_now (e : Nat) (x : Eng) : (s.setEn e x).now = s.now := rfl
@[simp] theorem State.setEn_moves (e : Nat) (x : Eng) : (s.setEn e x).moves = s.moves := rfl
@[simp] theorem State.setEn_free (e : Nat) (x : Eng) : (s.setEn e x).free = s.free := rfl
@[simp] theorem State.setEn_lastResp (e : Nat) (x : Eng) : (s.setEn e x).lastResp = s.lastResp := rfl
@[simp] theorem State.setEn_was (e : Nat) (x : Eng) : (s.setEn e x).was = s.was := rfl
@[simp] theorem State.setEn_regs (e : Nat) (x : Eng) : (s.setEn e x).regs = s.regs := rfl
@[simp] theorem State.setEn_bank (e : Nat) (x : Eng) : (s.setEn e x).bank = s.bank := rfl
@[simp] theorem State.setEn_mem (e : Nat) (x : Eng) : (s.setEn e x).mem = s.mem := rfl
@[simp] theorem State.setEn_agenda (e : Nat) (x : Eng) : (s.setEn e x).agenda = s.agenda := rfl
@[simp] theorem State.setEn_clvIn (e : Nat) (x : Eng) : (s.setEn e x).clvIn = s.clvIn := rfl
@[simp] theorem State.setEn_ansIn (e : Nat) (x : Eng) : (s.setEn e x).ansIn = s.ansIn := rfl
@[simp] theorem State.setEn_tbase (e : Nat) (x : Eng) : (s.setEn e x).tbase = s.tbase := rfl
@[simp] theorem State.setEn_tbu (e : Nat) (x : Eng) : (s.setEn e x).tbu = s.tbu := rfl
@[simp] theorem State.setEn_dpw (e : Nat) (x : Eng) : (s.setEn e x).dpw = s.dpw := rfl
@[simp] theorem State.setEn_leg (e : Nat) (x : Eng) : (s.setEn e x).leg = s.leg := rfl
@[simp] theorem State.setEn_tripIn (e : Nat) (x : Eng) : (s.setEn e x).tripIn = s.tripIn := rfl
@[simp] theorem State.setEn_caq (e : Nat) (x : Eng) : (s.setEn e x).caq = s.caq := rfl
@[simp] theorem State.setEn_caqOld (e : Nat) (x : Eng) : (s.setEn e x).caqOld = s.caqOld := rfl
@[simp] theorem State.setEn_ecc (e : Nat) (x : Eng) : (s.setEn e x).ecc = s.ecc := rfl
@[simp] theorem State.setEn_dsck (e : Nat) (x : Eng) : (s.setEn e x).dsck = s.dsck := rfl
@[simp] theorem State.setEn_pfb (e : Nat) (x : Eng) : (s.setEn e x).pfb = s.pfb := rfl
@[simp] theorem State.setEn_hbDue (e : Nat) (x : Eng) : (s.setEn e x).hbDue = s.hbDue := rfl
@[simp] theorem State.setEn_slot (e : Nat) (x : Eng) : (s.setEn e x).slot = s.slot := rfl
@[simp] theorem State.setEn_lpe (e : Nat) (x : Eng) : (s.setEn e x).lpe = s.lpe := rfl
@[simp] theorem State.setEn_pg (e : Nat) (x : Eng) : (s.setEn e x).pg = s.pg := rfl
@[simp] theorem State.setEn_cap (e : Nat) (x : Eng) : (s.setEn e x).cap = s.cap := rfl
@[simp] theorem State.setEn_msixSent (e : Nat) (x : Eng) : (s.setEn e x).msixSent = s.msixSent := rfl
@[simp] theorem State.setEn_door (e : Nat) (x : Eng) : (s.setEn e x).door = s.door := rfl
@[simp] theorem State.setEn_fio (e : Nat) (x : Eng) : (s.setEn e x).fio = s.fio := rfl
@[simp] theorem State.setEn_cqes (e : Nat) (x : Eng) : (s.setEn e x).cqes = s.cqes := rfl
@[simp] theorem State.setEn_nmg (e : Nat) (x : Eng) : (s.setEn e x).nmg = s.nmg := rfl
@[simp] theorem State.setEn_snap (e : Nat) (x : Eng) : (s.setEn e x).snap = s.snap := rfl
@[simp] theorem State.setEn_clv (e : Nat) (x : Eng) : (s.setEn e x).clv = s.clv := rfl
@[simp] theorem State.setEn_saf (e : Nat) (x : Eng) : (s.setEn e x).saf = s.saf := rfl
@[simp] theorem State.setEn_plc (e : Nat) (x : Eng) : (s.setEn e x).plc = s.plc := rfl
@[simp] theorem State.setEn_ident (e : Nat) (x : Eng) : (s.setEn e x).ident = s.ident := rfl
@[simp] theorem State.setEn_ring (e : Nat) (x : Eng) : (s.setEn e x).ring = s.ring := rfl
@[simp] theorem State.setEn_hqNext (e : Nat) (x : Eng) : (s.setEn e x).hqNext = s.hqNext := rfl
@[simp] theorem State.setEn_turn (e : Nat) (x : Eng) : (s.setEn e x).turn = s.turn := rfl
@[simp] theorem State.setEn_host (e : Nat) (x : Eng) : (s.setEn e x).host = s.host := rfl
@[simp] theorem State.setEn_bbs (e : Nat) (x : Eng) : (s.setEn e x).bbs = s.bbs := rfl
@[simp] theorem State.setEn_fov (e : Nat) (x : Eng) : (s.setEn e x).fov = s.fov := rfl
@[simp] theorem State.setEn_ans (e : Nat) (x : Eng) : (s.setEn e x).ans = s.ans := rfl
@[simp] theorem State.setEn_pws (e : Nat) (x : Eng) : (s.setEn e x).pws = s.pws := rfl
@[simp] theorem State.setEn_rd (e : Nat) (x : Eng) (k : Nat) : (s.setEn e x).rd k = s.rd k := rfl
@[simp] theorem State.setEn_f (e : Nat) (x : Eng) (G : Field) : (s.setEn e x).f G = s.f G := rfl
@[simp] theorem State.setEn_fi (e : Nat) (x : Eng) (G : Field) : (s.setEn e x).fi G = s.fi G := rfl
@[simp] theorem State.setEn_on (e : Nat) (x : Eng) (G : Field) : (s.setEn e x).on G = s.on G := rfl
@[simp] theorem State.setEn_rdI (e : Nat) (x : Eng) (k : Nat) : (s.setEn e x).rdI k = s.rdI k := rfl
@[simp] theorem State.setEn_mstate (e : Nat) (x : Eng) : (s.setEn e x).mstate = s.mstate := rfl
@[simp] theorem State.setEn_isIn (e : Nat) (x : Eng) (l : List Nat) : (s.setEn e x).isIn l = s.isIn l := rfl
@[simp] theorem State.setEn_ns (e : Nat) (x : Eng) (b : Nat) : (s.setEn e x).ns b = s.ns b := rfl
@[simp] theorem State.setEn_wc (e : Nat) (x : Eng) (b : Nat) : (s.setEn e x).wc b = s.wc b := rfl
@[simp] theorem State.setEn_byte (e : Nat) (x : Eng) (mm : MemId) (j : Nat) : (s.setEn e x).byte mm j = s.byte mm j := rfl
@[simp] theorem State.setEn_bankRd (e : Nat) (x : Eng) (mm : Master) (k : Nat) : (s.setEn e x).bankRd mm k = s.bankRd mm k := rfl

end Sys2Proof.Machine
end

