-- ==== Sys2Proof/Tests/Slice0.lean ====
section
/-! SUPPORT. The author's tests: the checks of WellFormed, words written out from the encodings of the
specification, and for every statement of Obligations.lean states and operands that meet its hypotheses. -/

namespace Sys2Proof.Tests

/- One test after another: each `decide +kernel` waits for the kernel, and a thread that waits keeps its stack. -/
set_option Elab.async false

open Sys2Proof Sys2Proof.Machine

/-- The next state of an outcome. -/
def nx (o : Out) : State :=
  match o with
  | .next t => t
  | _ => State.reset

/-- The reset state with fields written. -/
def fs (l : List (Field × Nat)) : State := l.foldl (fun s p => s.setF p.1 p.2) State.reset

/-- The reset state with registers written. -/
def rs (l : List (Nat × Word)) : State := l.foldl (fun s p => s.wr p.1 p.2) State.reset

/-- The reset state with the engine `e` changed. -/
def es (e : Nat) (f : Eng → Eng) : State := State.reset.setEn e (f Eng.reset)

/-! ## Well-formedness: one refused operand for each check -/

theorem test_wf_size : (Instr.registerWrite .host 0 3 0#32 0#32).wf = false := by decide
theorem test_wf_sqe : (Instr.sqeFetch 0 (some [0#8])).wf = false := by decide
theorem test_wf_chal : (Instr.idAttest .none 0 [0#8]).wf = false := by decide
theorem test_wf_cmpp : (Instr.cmpp 0 0 6 0 0).wf = false := by decide
theorem test_wf_cmppi : (Instr.cmppi 0 0 7 0 0#16).wf = false := by decide
theorem test_wf_fcmpp : (Instr.fcmpp 0 true 0 5 0 0).wf = false := by decide
theorem test_wf_tsta : (Instr.tsta 4 0 4 0).wf = false := by decide
theorem test_wf_ld : (Instr.ld 0 0 0 3 0#14).wf = false := by decide
theorem test_wf_ldu : (Instr.ldu 0 0 0 3 0#14).wf = false := by decide
theorem test_wf_st : (Instr.st 0 0 0 3 0#14).wf = false := by decide
theorem test_wf_ldf : (Instr.ldf 0 0 0 1 0#14).wf = false := by decide
theorem test_wf_stf : (Instr.stf 0 0 0 1 0#14).wf = false := by decide
theorem test_wf_ldp : (Instr.ldp 4 0 0 0 3 false).wf = false := by decide
theorem test_wf_stp : (Instr.stp 4 0 0 0 3).wf = false := by decide
theorem test_wf_tread : (Instr.tread 0 1 4 2).wf = false ∧ (Instr.tread 0 1 0 1).wf = false := by decide
theorem test_wf_mva : (Instr.mva 4 0 0 3#3 false).wf = false ∧ (Instr.mva 4 0 0 5#3 false).wf = false := by decide
theorem test_wf_macd : (Instr.macd 4 0 0 0 0 1 1 0 4 false).wf = false ∧ (Instr.macd 4 0 0 0 0 1 2 4 4 false).wf = false
    ∧ (Instr.macd 4 0 3 0 0 1 2 0 4 true).wf = false ∧ (Instr.macd 4 1 3 0 0 1 2 0 4 false).wf = false := by decide
theorem test_wf_loop : (Instr.loop 4 (.reg 0) 0#14).wf = false := by decide
theorem test_wf_mfl : (Instr.mfl 4 0 6).wf = false ∧ (Instr.mtl 4 0 7).wf = false := by decide

/-! ## Words of the instructions, from the worked examples of spec/15 and spec/16 and field by field from R343 to
R359 and R386 -/

theorem test_word_ori : (Instr.ori 0 8 0 0x0120#16).word = 0x0D000120#32 := by decide
theorem test_word_twait : (Instr.twait 0 8 0).word = 0xA0080000#32 := by decide
theorem test_word_tread : (Instr.tread 0 9 0 10).word = 0xA1205002#32 := by decide
theorem test_word_sub : (Instr.sub 0 11 9 12).word = 0x01696002#32 := by decide
theorem test_word_ba : (Instr.ba 0 0xFFFC#16).word = 0x6008FFFC#32 := by decide
theorem test_word_macd : (Instr.macd 4 0 1 2 3 6 7 0 4 false).word = 0xC853DC40#32 := by decide
theorem test_word_mva : (Instr.mva 4 12 0 1#3 true).word = 0xC580A600#32 := by decide
theorem test_word_ld : (Instr.ld 0 1 2 1 4#14).word = 0b010000_00001_00010_01_00000000000100#32 := by decide
theorem test_word_amo : (Instr.amoCas 0 1 2 3).word = 0b010101_00001_00010_00011_00000000100#32 := by decide
theorem test_word_cache : (Instr.cacheInvalidate 0 2 64#14).word = 0b010110_00000_00010_01_00000001000000#32 := by decide
theorem test_word_fadd : (Instr.fadd 0 true 1 2 3).word = 0b100000_00001_00010_00011_00000_1_00000#32 := by decide
theorem test_word_fcmpp : (Instr.fcmpp 0 true 2 1 2 3).word = 0b100001_10_001_00010_00011_00000_1_00000#32 := by decide
theorem test_word_mfs : (Instr.mfs 0 3 0x014#16).word = 0b001000_00011_00000_0000000000010100#32 := by decide
theorem test_word_trap : (Instr.trap 0 5#16).word = 0b001011_00000_00000_0000000000000101#32 := by decide
theorem test_word_mac : (Instr.mac 4 2 3 4).word = 0b110000_10_01_0_00011_00100_00000000000#32 := by decide
theorem test_word_ldp : (Instr.ldp 4 3 1 2 1 true).word = 0b110011_00011_001_010_01_1_000000000000#32 := by decide
theorem test_word_mvtp : (Instr.mvtp 4 3 5).word = 0b110101_00011_101_000_000000000000000#32 := by decide
theorem test_word_loop : (Instr.loop 4 (.imm 7#11) 9#14).word = 0b110110_1_00000000111_00000000001001#32 := by decide
theorem test_word_mtl : (Instr.mtl 4 3 4).word = 0b110111_00011_100_01_0000000000000000#32 := by decide

/-! ## Hypotheses of the statements about the engines -/

theorem test_engines_can_run : ∀ e : Fin 16, State.reset.canRun e .alu .base ∧ State.reset.canRun e .other .base
    ∧ State.reset.canRun e .control .base ∧ State.reset.canRun e .branch .base := by
  unfold State.canRun State.fetches; decide +kernel
theorem test_signal_engines_can_run : ∀ e : Fin 16, 4 ≤ e.val → e.val < 12 → State.reset.canRun e .alu .signal
    ∧ State.reset.canRun e .other .signal ∧ State.reset.canRun e .control .signal := by
  unfold State.canRun State.fetches; decide +kernel
theorem test_float_engines_can_run : State.reset.canRun 0 .other .fp64 ∧ State.reset.canRun 13 .other .fp32
    ∧ State.reset.canRun 12 .other .fp64 ∧ State.reset.canRun 14 .other .fp64 ∧ State.reset.canRun 15 .other .fp32 := by
  unfold State.canRun State.fetches; decide +kernel
theorem test_dispatcher_engines_can_run : State.reset.canRun 0 .other .clove ∧ State.reset.canRun 4 .control .clove := by
  unfold State.canRun State.fetches; decide +kernel

/-- The reset state with an ECC error at byte `a` of a memory. -/
def eccAt (m : MemId) (a : Nat) (double : Bool) : State := { State.reset with ecc := [⟨0, m.base + a, double⟩] }

theorem test_ecc : (eccAt (.prog 0) 3 true).fetchBad 0 = true ∧ ¬(eccAt (.prog 0) 3 true).fetches 0
    ∧ (eccAt (.prog 0) 3 true).eccIn (.prog 0) 0 4 true = true ∧ (eccAt (.prog 0) 3 false).eccIn (.prog 0) 0 4 true = false
    ∧ (eccAt .shared 7 true).eccIn .shared 4 4 true = true ∧ (eccAt .shared 8 true).eccIn .shared 4 4 true = false
    ∧ (eccAt (.data 4) 0 true).eccIn (.data 4) 0 4 true = true ∧ (eccAt (.ydata 4) 0 true).eccIn (.ydata 4) 0 4 true = true
    ∧ ((eccAt .shared 7 true).put .shared 7 1 0).ecc = [] := by
  unfold State.fetches; decide +kernel

/-- Two operands in g1 and g2 of PLN0. -/
def ops (a b : Word) : State := es 0 (fun x => (x.setG 1 a).setG 2 b)

theorem test_EngineDivision :
    ((nx (exec (.div 0 3 1 2) (ops 0x80000000#32 0xFFFFFFFF#32))).en 0).gRaw 3 = 0x80000000#32
      ∧ ((nx (exec (.div 0 3 1 2) (ops 7#32 0#32))).en 0).gRaw 3 = 0xFFFFFFFF#32
      ∧ ((nx (exec (.rem 0 3 1 2) (ops 0xFFFFFFF9#32 2#32))).en 0).gRaw 3 = 0xFFFFFFFF#32 := by decide +kernel
theorem test_SystemRegisters_thread : (fs [(CLV.ENG_RUN_V 0, 1), (CLV.ENG_RUN_T 0, 1023)]).runningOn 0 = some 1023 := by
  decide +kernel
theorem test_SystemRegisters_ivec : (0xFFFC#32).toNat % 4 = 0 ∧ (0xFFFC#32).toNat < 0x10000
    ∧ ¬((0x10000#32 : Word) = 0#32 ∨ ((0x10000#32).toNat % 4 = 0 ∧ (0x10000#32).toNat < 0x10000)) := by decide
theorem test_ExceptionEntry : (es 0 (fun x => { x with evec := 0x100#32 })).canRun 0 .other .base
    ∧ ((es 0 (fun x => { x with evec := 0x100#32 })).en 0).status.getLsbD 0 = false
    ∧ ((es 0 (fun x => { x with evec := 0x100#32 })).en 0).evec.toNat % 4 = 0 := by
  unfold State.canRun State.fetches; decide +kernel
theorem test_ExceptionOrder : (∃ i : Instr, i.engine = some 0 ∧ i.wf = false) ∧ (∃ i : Instr, i.engine = some 0 ∧ (needOf i).met 0 = false)
    ∧ progBytes 0 ≤ ((es 0 (fun x => { x with pc := 0x80000000#32 })).en 0).pc.toNat :=
  ⟨⟨.cmpp 0 0 6 0 0, by decide⟩, ⟨.reti 0, by decide⟩, by decide +kernel⟩
theorem test_LoadsAndStores_spots :
    spotOf Eng.reset 0 0x100000 = some (.mem (.data 0) 0 false) ∧ spotOf Eng.reset 0 0 = some (.mem (.prog 0) 0 true)
      ∧ spotOf Eng.reset 0 0x14000000 = none ∧ spotOf Eng.reset 0 0x13000000 = some (.mem .shared 0 false)
      ∧ spotOf Eng.reset 0 0x13FFFFFC = some (.mem .shared 0xFFFFFC false) ∧ spotOf Eng.reset 0 0x10000000 = some (.bar 0)
      ∧ spotOf Eng.reset 0 0x80000040 = some (.ddr 0x40) ∧ spotOf Eng.reset 12 0x20FFFFFF = some (.mem .factor 0xFFFFFF false)
      ∧ spotOf Eng.reset 14 0x140000 = none ∧ spotOf Eng.reset 4 0x14FFFF = some (.mem (.ydata 4) 0xFFFF false)
      ∧ spotOf { Eng.reset with status := 0x3000#32 } 0 0xFFFFFFFF = none := by decide +kernel
theorem test_AtomicsCacheAndFence :
    ((nx (exec (.amoAdd 0 3 1 2) (ops 0x13000000#32 5#32))).byte .shared 0) = 5#8
      ∧ ((es 0 (fun x => { x with cache := [⟨0x40, true, 1, []⟩] })).en 0).line 0x40 = some ⟨0x40, true, 1, []⟩
      ∧ State.reset.pws.stopped = false := by decide +kernel
theorem test_Sequencing_slot : (es 4 (fun x => { x with slot := some (2, 8#32) })).canRun 4 .alu .base
    ∧ (es 4 (fun x => { x with slot := some (1, 8#32) })).canRun 4 .alu .base := by
  unfold State.canRun State.fetches; decide +kernel
theorem test_Sequencing_loops : ∀ l ∈ [(⟨0#32, 0#32, 0#32, 0#32, 0#32, 0#32⟩ : Loops), ⟨1#32, 0#32, 0#32, 0#32, 0#32, 0#32⟩,
      ⟨2#32, 0#32, 0#32, 0#32, 0#32, 0#32⟩, ⟨2#32, 1#32, 0#32, 0#32, 0#32, 0#32⟩, ⟨2#32, 2#32, 0#32, 0#32, 0#32, 0#32⟩,
      ⟨2#32, 2#32, 0#32, 0#32, 0#32, 8#32⟩],
    (es 4 (fun x => { x with lp := l })).canRun 4 .alu .base ∧ ((es 4 (fun x => { x with lp := l })).en 4).staleL = none := by
  unfold State.canRun State.fetches; decide +kernel
theorem test_Sequencing_end : State.reset.runningOn 0 = none ∧ (fs [(CLV.STAT_MODE, 0)]).graphMode = false ∧ (State.reset.en 0).halt = false
    ∧ (State.reset.en 0).requeue = false ∧ State.reset.engStopped 0 = false ∧ State.reset.incoming 0 = none := by decide +kernel
theorem test_BranchesAndJumps : (0x100#32 + (3#16).signExtend 32).toNat % 4 ≠ 0 ∧ (0x100#32 + (4#16).signExtend 32).toNat % 4 = 0 := by
  decide
theorem test_FloatResults : fmt32.un 0x7F800001 = .nan true ∧ fmt32.un 0x7FC00000 = .nan false ∧ fmt32.un 0x7F800000 = .inf false
    ∧ fmt32.un 0xFF800000 = .inf true ∧ (∃ m k, fmt64.un 0x3FF0000000000000 = .fin false m k) ∧ (FV.fin true 1 0 : FV) ≠ .nan true := by
  refine ⟨by decide +kernel, by decide +kernel, by decide +kernel, by decide +kernel, ⟨_, _, rfl⟩, by decide⟩
theorem test_FloatResults_sum : ((nx (exec (.fadd 0 false 3 1 2)
    (es 0 (fun x => (x.setE 1 0x3F800000#64).setE 2 0x40000000#64)))).en 0).fpr 3 = 0x40400000#64 := by decide +kernel
theorem test_EngineTokens : State.reset.queueFull = false
    ∧ (es 0 (fun x => x.setG 1 0x00050005#32)).canRun 0 .control .clove ∧ (0x00050005#32 : Word) = (5#16 ++ 5#16 : Word)
    ∧ State.reset.intDepth 0 = 0 ∧ State.reset.clv.ready = [] ∧ State.reset.clv.store = []
    ∧ (fs [(CLV.ENG_RUN_V 0, 1)]).runningOn 0 = some 0 := by
  unfold State.canRun State.fetches; decide +kernel
theorem test_EngineTokens_wait :
    let s := (fs [(CLV.STAT_MODE, 0), (CLV.ENG_RUN_V 0, 1), (CLV.ENG_RUN_T 0, 9)]).setEn 0 (Eng.reset.setG 1 0x00000005#32)
    s.canRun 0 .control .clove ∧ (s.en 0).status.getLsbD 0 = false ∧ s.intDepth 0 = 0 ∧ (s.en 0).gpr 1 = (0#16 ++ 5#16 : Word)
      ∧ (s.en 0).gpr 2 = 0#32 ∧ s.runningOn 0 = some 9 ∧ s.graphMode = false ∧ s.incoming 0 = none ∧ s.clv.ready = []
      ∧ s.clv.store = [] := by
  unfold State.canRun State.fetches; decide +kernel
theorem test_Accumulators : (2#3).toInt = 2 ∧ (6#3 : BitVec 3).toInt = -2 ∧ ¬(-2 ≤ (3#3 : BitVec 3).toInt ∧ (3#3 : BitVec 3).toInt ≤ 2)
    ∧ (63#6 : BitVec 6).toInt < 0 := by decide
theorem test_DoubleLoadMultiply_ecc : let s (m : MemId) (f : Eng → Eng) : State := { es 4 f with ecc := [⟨0, m.base, true⟩] }
    let f (x : Eng) : Eng := (x.setPt 0 0x100000#32).setPt 1 0x140000#32
    ((s (.data 4) f).en 4).ptr 1 = 0x140000#32 ∧ (s (.data 4) f).eccIn (.data 4) 0 4 true = true ∧ (s (.data 4) f).eccIn (.ydata 4) 0 4 true = false
      ∧ (s (.ydata 4) f).eccIn (.data 4) 0 4 true = false ∧ (s (.ydata 4) f).eccIn (.ydata 4) 0 4 true = true := by decide +kernel
theorem test_DoubleLoadMultiply : inD0 0x100000#32 = true ∧ inD1 0x140000#32 = true ∧ inD0 0x140000#32 = false ∧ inD1 0x150000#32 = false := by
  decide +kernel
theorem test_Pointers : ((es 4 (fun x => x.setPt 0 0x100002#32)).en 4).ptr 0 = 0x100002#32
    ∧ spotOf (((es 4 (fun x => x.setPt 0 0x100002#32)).en 4)) 4 0x100002 = some (.mem (.data 4) 2 false)
    ∧ spotOf Eng.reset 4 0x90000000 = none ∧ spotOf Eng.reset 4 0xFFFC = some (.mem (.prog 4) 0xFFFC true) := by decide +kernel
theorem test_HardwareLoops : ((nx (exec (.loop 4 (.imm 3#11) 2#14) State.reset)).en 4).lp.lc0 = 3#32
    ∧ ((nx (exec (.loop 4 (.imm 3#11) 2#14) State.reset)).en 4).lp.le0 = 8#32
    ∧ (es 4 (fun x => { x with lp := ⟨1#32, 0#32, 0#32, 0x40#32, 0#32, 0#32⟩ })).canRun 4 .control .signal
    ∧ (es 4 (fun x => { x with lp := ⟨1#32, 0#32, 0#32, 4#32, 0#32, 0#32⟩ })).canRun 4 .control .signal := by
  unfold State.canRun State.fetches; decide +kernel

/-- SDSP0 with line 3 pending and unmasked, a handler and a running thread. -/
def irq : State :=
  (fs [(CLV.STAT_MODE, 0), (CLV.ENG_RUN_V 4, 1), (⟨SDS.IRQ 0, 0, 8⟩, 8), (⟨SDS.IMASK 0, 0, 8⟩, 8)]).setEn 4
    { Eng.reset with status := 2#32, ivec := 0x100#32 }

theorem test_SdspInterrupts : irq.atBoundary 4 = true ∧ (irq.en 4).status.getLsbD 1 = true ∧ (irq.en 4).ivec ≠ 0#32
    ∧ irq.f (SDS.STAT_INTDEPTH 0) < 15 ∧ (irq.runningOn 4).isSome = true ∧ irq.graphMode = false
    ∧ (irq.rd (SDS.IRQ 0)).getLsbD 3 = true ∧ (irq.rd (SDS.IMASK 0)).getLsbD 3 = true ∧ (irq.rd (SDS.IRQ 0)).getLsbD 2 = false
    ∧ ((nx (exec (.interruptEntry 0) irq)).en 4).pc = 0x100#32
    ∧ (nx (exec (.interruptEntry 0) irq)).f (SDS.STAT_INTDEPTH 0) = 1 := by decide +kernel

/-! ## Hypotheses of the statements about the blocks of the module -/

/-- SVC. -/
def svc : Sys2Proof.Master := .eng 14

theorem test_TimeBaseCommands : State.reset.reaches svc (TB.RATE 0) ∧ State.reset.reaches svc (TB.RATE 2) ∧ State.reset.reaches svc (TB.CTRL 1)
    ∧ State.reset.reaches svc (TB.NS 3) ∧ (fs [(PWS.MODSTATE_STATE, 5)]).reaches svc (TB.CTRL 0) ∧ (fs [(PWS.MODSTATE_STATE, 5)]).mstate = 5
    ∧ State.reset.on (TB.CTRL_STEP 0) = false ∧ ¬((0 : Fin 4).val = 0 ∧ State.reset.mstate = 5) := by
  unfold State.reaches; decide +kernel
theorem test_TimeBaseCommands_clamp : (nx (exec (.tbRateWrite svc 0 17179870#32) State.reset)).rdI (TB.RATE 0) = 17179869
    ∧ (nx (exec (.tbRateWrite svc 0 17179869#32) State.reset)).on (TB.STAT_SLEW_CLAMP 0) = false := by decide +kernel

/-- Comparator 1 enabled on TB_CELL at 0, with a period. -/
def cmp (per : Nat) (prev : Word) : State :=
  (fs [(TCMP.CTRL_EN 1, 1), (⟨TCMP.PERIOD 1, 0, 32⟩, per)]).setTb 0 { TimeBase.reset with prevNs := prev }

theorem test_ComparatorFiring : ∀ x ∈ [((0 : Nat), 0#32), (64, 0xFFFFFFFC#32)],
    (cmp x.1 x.2).on (TCMP.CTRL_EN 1) = true ∧ 0 ≤ ((cmp x.1 x.2).rd (TB.NS 0) - (cmp x.1 x.2).rd (TCMP.VALUE 1)).toInt
      ∧ ((cmp x.1 x.2).setF (TCMP.CTRL_TOKEN 1) 1).on (TCMP.CTRL_TOKEN 1) = true ∧ ((cmp x.1 x.2).rd (TCMP.PERIOD 1)).toNat = x.1 := by
  decide +kernel
theorem test_ComparatorFiring_locked : let s := fs [(TCMP.CTRL_EN 0, 1), (PWS.MODSTATE_STATE, 5)]
    s.mstate = 5 ∧ s.on (TCMP.CTRL_EN 0) = true ∧ (nx (exec (.tcmpFire 1 (some 7#32) true) (cmp 64 0#32))).rd (TCMP.VALUE 1) = 7#32 := by decide +kernel
theorem test_ComparatorFiring_late : (nx (exec (.tcmpFire 1 none false) (cmp 64 0#32))).on (TCMP.STAT_LATE 1) = true
    ∧ (nx (exec (.tcmpFire 1 none false) (cmp 64 0xFFFFFFFC#32))).on (TCMP.STAT_LATE 1) = false
    ∧ (nx (exec (.tcmpFire 1 none false) (cmp 64 0#32))).rd (TCMP.VALUE 1) = 64#32 := by decide +kernel
theorem test_TimeProtocolsAndOutputs : (fs [(TIMEEXT.STATUS_GRANDMASTER 0, 1)]).on (TIMEEXT.STATUS_GRANDMASTER 0) = true
    ∧ State.reset.on (TIMEEXT.STATUS_GRANDMASTER 0) = false ∧ (fs [(TIMEEXT.STATUS_HOLDOVER 0, 1)]).on (TIMEEXT.STATUS_HOLDOVER 0) = true := by
  decide +kernel
theorem test_TimeProtocols_window :
    let s := fs [(TIMEEXT.STATUS_GRANDMASTER 0, 1)]
    let sync (d : BitVec 8) (t : PtpTransport) (ofs : Int) : State := nx (exec (.ptpMessageReceive 0 0 ⟨⟨d, t⟩, .sync ofs 8⟩) s)
    (sync 0#8 .l2 1000).on (TIMEEXT.STATUS_SYNC 0) = true ∧ (sync 0#8 .l2 1001).on (TIMEEXT.STATUS_SYNC 0) = false
      ∧ (sync 0#8 .l2 1000).rdI (TIMEEXT.OFFSET 0) = 1000 ∧ (sync 1#8 .l2 1000).rdI (TIMEEXT.OFFSET 0) = 0
      ∧ (sync 0#8 .udp4 1000).rdI (TIMEEXT.OFFSET 0) = 0 ∧ (s.tb 0).domain = 0 := by decide +kernel

/-- Port 0 in 3PH, software's. -/
def drive (mode owner sync : Nat) : State := fs [(DPW.CFG_MODE 0, mode), (DPW.CFG_OWNER 0, owner), (DPW.CFG_SYNC 0, sync)]

theorem test_DrivePorts_access : State.reset.reaches svc (DPW.CTRL 0) ∧ State.reset.reaches svc (DPW.CMP 95 3)
    ∧ State.reset.reaches svc (DPW.PERIOD 0) ∧ State.reset.reaches svc (DPW.BRIDGE 0) ∧ State.reset.reaches svc (DPW.CFG 95) := by
  unfold State.reaches; decide +kernel
theorem test_DrivePorts_sets : (drive 1 2 1).f (DPW.CFG_OWNER 0) = 2 ∧ (drive 2 2 0).f (DPW.CFG_MODE 0) = 2
    ∧ (fs [(DPW.CFG_MODE 0, 1), (DPW.CFG_DMODE 0, 1)]).f (DPW.CFG_DMODE 0) = 1 ∧ (drive 1 2 1).on (DPW.CFG_SYNC 0) = true
    ∧ State.reset.on (DPW.CFG_SYNC 0) = false ∧ State.reset.cfgBad 0 4#32 = true ∧ State.reset.cfgBad 0 0x201#32 = false
    ∧ State.reset.f FOV.STAT_ROLE < 3 ∧ State.reset.f SYS.LC_STATE ≠ 4 := by decide +kernel
theorem test_DrivePorts_period : ∀ v ∈ [(39999, true), (40000, false), (2000000, false), (2000001, true)],
    (nx (exec (.dpwPeriodWrite svc 0 (BitVec.ofNat 32 v.1)) (drive 0 2 1))).on (DPW.STAT_ERR_ARG 0) = v.2 := by decide +kernel
theorem test_DrivePorts_timing : ((State.reset.setLeg 0 1 { Leg.reset with lvl := .high, pend := some 4 }).legU 0 1).pend ≠ none
    ∧ ((State.reset.setLeg 0 1 { Leg.reset with delayed := some .low }).legU 0 1).delayed ≠ none
    ∧ State.reset.f (DPW.CFG_MODE 0) = 0 := by decide +kernel
theorem test_Trips_sources : State.reset.srcEnabled 0 1 = true ∧ (rs [(TRF.CFG 0, 0#32)]).srcEnabled 0 1 = false
    ∧ (0 : Nat) ∈ tripPorts (.flt 0) ∧ (1 : Nat) ∉ tripPorts (.flt 0) ∧ 16 ≤ tripBit .pws
    ∧ ((nx (exec (.tripSourceAssert .tripN 0) State.reset)).tripInU (tripKey .tripN)).on = true := by decide +kernel
theorem test_Trips_inside : ((State.reset.setCaq 192 { CaqCh.reset with hi := true }).caqCh 192).hi = true ∧ State.reset.on ⟨SAF.GSTO, 11, 1⟩ = true
    ∧ State.reset.pws.unlocked = false ∧ State.reset.mstate ≠ 5 ∧ State.reset.mstate ≠ 6
    ∧ ((nx (exec (.tripSourceAssert .modState 0) State.reset)).tripInU (tripKey .modState)).on = true
    ∧ (nx (exec (.tripSourceAssert .pws 0) State.reset)).latches 0 = State.reset.latches 0
    ∧ ((nx (exec (.tripSourceAssert (.flt 0) 0) State.reset)).tripInU (tripKey (.flt 0))).on = true := by decide +kernel
theorem test_Trips_pads : (drive 1 2 0).f (DPW.CFG_MODE 0) ≠ 0 ∧ 16 ≤ (drive 1 2 0).latches 0
    ∧ ((drive 1 2 0).wr (TRF.LATCH 0) 1#32).latches 0 < 16
    ∧ (((drive 1 2 0).wr (TRF.LATCH 0) 1#32).wr (TRF.SAFE 0) 0x4000#32).padOn 0 0 false = false
    ∧ (((drive 1 2 0).wr (TRF.LATCH 0) 1#32).wr (TRF.SAFE 0) 0x4000#32).padOn 0 0 true = true := by decide +kernel
theorem test_Trips_writes : State.reset.reaches svc (TRFG.SWTRIP 2) ∧ State.reset.reaches svc (TRF.LATCH 0)
    ∧ State.reset.reaches svc (TRF.SAFE 95) ∧ State.reset.reaches svc (TRF.CFG 0) ∧ safeBad 5#32 = true ∧ safeBad 0#32 = false
    ∧ State.reset.clearRefused 0 8 = false ∧ (nx (exec (.tripSourceAssert (.flt 0) 0) State.reset)).clearRefused 0 1 = true := by
  unfold State.reaches; decide +kernel

/-- Generator 0 with nonzero limits and move registers. -/
def pgen (src : Nat) : State :=
  [(PRG.VMAX 0), (PRG.VSLS 0), (PRG.AMAX 0), (PRG.DMAX 0), (PRG.JMAX 0)].foldl (fun s o => s.wr o 100#32) (fs [(PRG.CFG_SRC 0, src)])

theorem test_Generators_commits : (pgen 1).reaches svc (PRG.CTRL 0) ∧ (pgen 1).f (PRG.CFG_SRC 0) = 1 ∧ ((pgen 1).pgU 0).ss1 = none
    ∧ (rs [(PRG.CFG 0, 0xC#32)]).f (PRG.CFG_OUT 0) = 3 ∧ (pgen 0).f (PRG.CFG_OUT 0) ≠ 3 ∧ State.reset.rd (PRG.JMAX 1) = 0#32
    ∧ (pgen 1).on (PRG.STAT_GEAR_RAMP 0) = false ∧ (fs [(PRG.STAT_GEAR_RAMP 0, 1)]).on (PRG.STAT_GEAR_RAMP 0) = true
    ∧ (fs [(PRG.STAT_LEARNING 0, 1)]).on (PRG.STAT_LEARNING 0) = true ∧ (pgen 1).on (PRG.STAT_LEARNING 0) = false := by
  unfold State.reaches; decide +kernel
theorem test_Generators_retarget : (nx (exec (.pgRetarget svc 0) (pgen 1))).on (PRG.CTRL_RETARGET 0) = true
    ∧ ((nx (exec (.pgRetarget svc 0) (pgen 1))).pgU 0).pend ≠ [] := by decide +kernel
theorem test_Generators_learn : (nx (exec (.pgLearnEnd svc 0)
    ((fs [(PRG.STAT_LEARNING 0, 1)]).setPg 0 { PgUnit.reset with bins := [(64, 96)] }))).f ⟨PRG.CAL 0 0, 0, 16⟩ = 2 := by decide +kernel
theorem test_Generators_registers : State.reset.reaches svc (PRG.CFG 0) ∧ State.reset.reaches svc (pgWideOff 0 .plo)
    ∧ State.reset.reaches svc (pgWideOff 0 .tgt + 4) ∧ State.reset.reaches svc (PRG.KNOT 127 7) ∧ prgCfgBad 96 0#32 = true
    ∧ prgCfgBad 0 1#32 = false ∧ prgCfgBad 0 0x90#32 = true ∧ prgCfgBad 0 0x1000#32 = true ∧ prgCfgBad 0 0x3000#32 = false := by
  unfold State.reaches; decide +kernel

/-- Generator 0 in SPLINE with one knot in the queue. -/
def spline : State := State.reset.setPg 0 { PgUnit.reset with src := 2, queue := [⟨20000, 0, 0, 0, 0⟩] }

theorem test_Generators_knots : (spline.pgU 0).queue.getLast? = some ⟨20000, 0, 0, 0, 0⟩ ∧ (spline.pgU 0).ss1 = none
    ∧ (spline.pgU 0).src = 2 ∧ 0 < knotAhead 145000 (spline.pgU 0).tau ∧ (spline.frameUnits : Int) ≤ 8 * nsDiff 145000 20000
    ∧ nsDiff 145000 20000 ≤ 67108864 ∧ (spline.pgU 0).qlen < 32 ∧ knotAhead 0 (spline.pgU 0).tau ≤ 0 := by decide +kernel
theorem test_GeneratorUpdate : State.reset.f (PRG.CFG_OUT 0) ≠ 1 ∧ State.reset.pgTracks 0 = true
    ∧ ((rs [(TRF.LATCH 0, 0#32)]).setF PWS.MODSTATE_STATE 5 |>.setF (DPW.CFG_MODE 0) 1 |>.setF (PRG.CFG_SRC 0) 1).pgTracks 0 = false := by
  decide +kernel
theorem test_GeneratorUpdate_drives : let s := fs [(PRG.CFG_OUT 0, 1), (DPW.CFG_SYNC 0, 1), (DPW.CFG_OWNER 0, 1), (DPW.CFG_MODE 0, 2), (CAQ.CFG_PAIR 0, 3)]
    s.stepping 0 = true ∧ ((nx (exec (.chopperTimerEnd 0 1) (s.setChop 0 1 ⟨.slow, 0, 5⟩))).chop 0 1).st = .on
      ∧ s.rdI (PRG.VEL 0) = 0 := by decide +kernel
theorem test_GeneratorUpdate_chopper : (State.reset.setChop 0 0 ⟨.on, 0, 5⟩).stepping 0 = false
    ∧ ((State.reset.setChop 0 1 ⟨.slow, 0, 5⟩).chop 0 1).st = .slow := by decide +kernel

/-! ## Hypotheses of the statements about sensing, feedback and the loops -/

/-- Group 0 with channel A of port 0, group 11, and 47 bits in channel 0. -/
def sensing : State :=
  (fs [(CAQG.CFG_EN 0, 1), (CAQG.CFG_EN 11, 1), (CAQ.CFG_EN_A 0, 1), (CAQ.CFG_OSR 0, 0)]).setCaq 0 { CaqCh.reset with n := 47 }

theorem test_CurrentSensing_channels : sensing.chOn 0 = true ∧ sensing.chOn 1 = false ∧ sensing.chOn 203 = true ∧ State.reset.chOn 203 = false
    ∧ (sensing.caqCh 0).stuck = false ∧ (sensing.caqCh 0).n + 1 = 3 * 2 ^ sensing.chOsr 0
    ∧ ((sensing.setCaq 0 { CaqCh.reset with stuck := true }).caqCh 0).stuck = true ∧ sensing.on (CAQ.CFG_TRIP 0) = false
    ∧ (sensing.setF (CAQ.CFG_TRIP 0) 1).on (CAQ.CFG_TRIP 0) = true := by decide +kernel
/-- The same after the first DSCK rise at tick 0, 8 ticks of sampling and value later. -/
def sampled (n run : Nat) : State :=
  { sensing with now := 8, dsck := ⟨[(0, 2)]⟩ }.setCaq 0 { CaqCh.reset with n := n, run := run, bits := List.replicate n true }

theorem test_CurrentSensing_bits : (sampled 47 0).bitRise 0 = some 0 ∧ sensing.bitRise 0 = none ∧ (sampled 47 0).chOn 0 = true
    ∧ ((nx (exec (.caqFilterOutput 0 true) (sampled 47 0))).caqCh 0).n = 48 ∧ (sampled 32 0).cmpDue 0 false = true ∧ (sampled 0 0).cmpDue 0 false = false
    ∧ (sampled 0 256).f (CAQG.CFG_STUCK 0) + 1 ≤ 256 ∧ ¬((sampled 0 0).f (CAQG.CFG_STUCK 0) + 1 ≤ 0)
    ∧ (∀ o ∈ (sampled 0 0).caqOld, o.off ≠ CAQ.CAL 0 0) ∧ 3 * 2 ^ (sampled 48 0).chOsr 0 ≤ ((sampled 48 0).caqCh 0).n := by decide +kernel
theorem test_CurrentSensing_reads : State.reset.reaches svc (CAQ.LAT0 95) ∧ State.reset.reaches svc (CAQG.CFG 11)
    ∧ State.reset.reaches svc (CAQ.CFG 95) ∧ (drive 1 2 0).f (DPW.CFG_MODE 0) ≠ 0 ∧ State.reset.f (DPW.CFG_MODE 0) = 0
    ∧ (fs [(PWS.MODSTATE_STATE, 5)]).mstate = 5 ∧ (fs [(PWS.MODSTATE_STATE, 6)]).mstate = 6
    ∧ (∀ j : Fin 8, State.reset.f (DPW.CFG_MODE j.val) = 0) ∧ State.reset.mstate = 2 := by
  unfold State.reaches; decide +kernel
theorem test_CurrentSensing_group : ∀ x ∈ [((12 : Nat), 11, 4, 8, false), (50, 0, 0, 255, false), (11, 0, 0, 8, true), (51, 0, 0, 8, true),
      (12, 12, 0, 8, true), (12, 0, 5, 8, true), (12, 0, 0, 7, true)],
    (nx (exec (.caqGroupCfgWrite svc 0 (BitVec.ofNat 32 (x.1 * 2 + x.2.1 * 2 ^ 7 + x.2.2.1 * 2 ^ 13 + x.2.2.2.1 * 2 ^ 18))) State.reset)).on
      (CAQG.STAT_ERR_ARG 0) = x.2.2.2.2 := by decide +kernel
theorem test_CurrentSensing_port :
    (nx (exec (.caqPortCfgWrite svc 0 0x40#32) State.reset)).on (CAQ.STAT_ERR_ARG 0) = false
      ∧ (nx (exec (.caqPortCfgWrite svc 0 0x50#32) State.reset)).on (CAQ.STAT_ERR_ARG 0) = true
      ∧ getBits 2 7 0x40#32 ≠ getBits 2 7 (State.reset.rd (CAQ.CFG 0)) := by decide +kernel

/-- Feedback unit 0 in a mode, with its memory. -/
def fbk (mode : Nat) (u : PfbUnit) : State :=
  (fs [(PFB.CFG_MODE 0, mode), (PFB.CFG_REF 0, mode - 1), (PFB.CFG_DIRSRC 0, 1), (PFB.CFG_TEDGE 0, 0)]).setPfb 0 u

theorem test_FeedbackEdges_quad : (grayPos true false + 4 - grayPos false false) % 4 = 1 ∧ (grayPos false true + 4 - grayPos false false) % 4 = 3
    ∧ (grayPos true true + 4 - grayPos false false) % 4 = 2 ∧ (fbk 1 PfbUnit.reset).f (PFB.CFG_MODE 0) = 1
    ∧ (fbk 1 PfbUnit.reset).f (PFB.CFG_REF 0) = 0 ∧ ((fbk 1 PfbUnit.reset).pfbU 0).dir = none
    ∧ ((fbk 1 { PfbUnit.reset with dir := some true, n := 1 }).pfbU 0).dir = some true
    ∧ 0 < ((fbk 1 { PfbUnit.reset with dir := some true, n := 1 }).pfbU 0).n ∧ ((fbk 1 PfbUnit.reset).pfbU 0).posCmds = none
    ∧ ((fbk 1 PfbUnit.reset).pfbU 0).faAt = none := by decide +kernel
theorem test_FeedbackEdges_filter : let s (t : Nat) := { fbk 1 { PfbUnit.reset with faAt := some 1 } with now := t }
    ((s 3).pfbU 0).faAt = some 1 ∧ (s 3).now < 1 + 3 ∧ 1 + 3 ≤ (s 4).now ∧ ((nx (exec (.pfbEdge 0 true false false 5) (s 3))).pfbU 0).fa = false
      ∧ ((nx (exec (.pfbEdge 0 true false false 5) (s 4))).pfbU 0).fa = true := by decide +kernel
theorem test_FeedbackEdges_tooth : let s := fbk 2 { PfbUnit.reset with n := 2 }
    s.f (PFB.CFG_MODE 0) = 2 ∧ true ≠ (s.pfbU 0).fa ∧ true = !s.on (PFB.CFG_TEDGE 0) ∧ s.f (PFB.CFG_REF 0) = 1 ∧ 2 ≤ (s.pfbU 0).n
      ∧ s.on (PFB.CTRL_HOME 0) = false ∧ s.on (PFB.STAT_HOMED 0) = false ∧ s.on (PFB.CFG_DIRSRC 0) = true ∧ (s.pfbU 0).dir = none
      ∧ s.f (PFB.TCFG_GAP_RATIO 0) * (s.pfbU 0).per12 < 192 * ((edgeTime s.edgeWc s.edgeNs 0 + 2 ^ 43 - (s.pfbU 0).tEdge) % 2 ^ 43) := by
  decide +kernel

theorem test_FeedbackEdges_strobe : let s := fbk 1 { PfbUnit.reset with strobed := some 0 }
    (s.pfbU 0).strobed = some s.now ∧ (s.pfbU 0).lastBit = none ∧ ((fbk 1 PfbUnit.reset).pfbU 0).strobed ≠ some (fbk 1 PfbUnit.reset).now
      ∧ (nx (exec (.pfbEdge 0 true false false 5) s)).rdI (PFB.LAT0 0) = 1 := by decide +kernel

theorem test_FeedbackCommands_access : State.reset.reaches svc (PFB.CTRL 95) ∧ State.reset.reaches svc (PFB.SERCFG 0)
    ∧ State.reset.reaches svc (PFB.CFG 95) ∧ State.reset.reaches svc (PFB.POS 0) ∧ State.reset.reaches svc (PFB.LAT0 95)
    ∧ ((drive 1 2 0).wr (TRF.LATCH 0) 0#32).f (DPW.CFG_MODE 0) ≠ 0 ∧ ((drive 1 2 0).wr (TRF.LATCH 0) 0#32).forced 0 = false
    ∧ (drive 1 2 0).forced 0 = true ∧ State.reset.f (DPW.CFG_MODE 0) = 0 ∧ State.reset.f (PFB.CFG_MODE 0) = 0 := by
  unfold State.reaches; decide +kernel
theorem test_FeedbackCommands_cfg : pfbCfgBad 4#32 = false ∧ pfbCfgBad 5#32 = true ∧ pfbCfgBad 0x30#32 = true ∧ pfbCfgBad 0xC0#32 = true
    ∧ pfbCfgBad 0x81#32 = true ∧ pfbCfgBad 0x82#32 = false ∧ pfbCfgBad 0x42#32 = true ∧ pfbCfgBad 0x142#32 = false
    ∧ serCfgBad (25#32 + 0x2000#32 + 0x20000#32) = false ∧ serCfgBad (24#32 + 0x2000#32 + 0x20000#32) = true
    ∧ serCfgBad (1000#32 + 0x8000#32 + 0x20000#32) = false ∧ serCfgBad (1001#32 + 0x8000#32 + 0x20000#32) = true
    ∧ serCfgBad (25#32 + 0x1C00#32 + 0x20000#32) = true ∧ serCfgBad (25#32 + 0x8400#32 + 0x20000#32) = true
    ∧ serCfgBad (25#32 + 0x2000#32) = true := by decide +kernel

/-- Serial unit 0 with a transfer whose start bit came at tick 0, of 8 bits of 25 ticks, at tick 425. -/
def serial (mode : Nat) (q : Option Nat) : State :=
  { fs [(PFB.CFG_MODE 0, mode), (PFB.SERSTAT_BUSY 0, 1), (PFB.SERCFG_BITS 0, 8), (PFB.SERCFG_CKDIV 0, 25)] with now := 425 }.setPfb 0
    { PfbUnit.reset with rPrev := q, startAt := some 0 }

theorem test_FeedbackCommands_serial : (serial 3 none).on (PFB.SERSTAT_BUSY 0) = true ∧ (serial 3 none).f (PFB.CFG_MODE 0) = 3
    ∧ (serial 4 none).f (PFB.CFG_MODE 0) = 4 ∧ (serial 4 none).f (PFB.SERCFG_BITS 0) = 8 ∧ ((serial 4 none).pfbU 0).rPrev = none
    ∧ ((serial 4 (some 255)).pfbU 0).rPrev = some 255 ∧ (0#6).toNat ≠ bissCrc 8 5 true true
    ∧ (∀ b : Bool, (BitVec.ofNat 6 (bissCrc 8 5 b true)).toNat = bissCrc 8 5 b true) ∧ State.reset.on (PFB.SERSTAT_BUSY 0) = false
    ∧ (serial 3 none).f (PFB.SERCFG_CKDIV 0) = 25 ∧ ((serial 3 none).pfbU 0).xferAt + 1 + (25 - 25 / 2) + 8 * 25 + (serial 3 none).f (PFB.SERTM_SDLY 0) ≤ (serial 3 none).now
    ∧ ((serial 3 none).pfbU 0).fzStart = false ∧ ((serial 4 none).pfbU 0).startAt = some 0 ∧ 0 + (8 + 9) * 25 ≤ (serial 4 none).now
    ∧ ¬(0 + (8 + 9) * 25 ≤ { serial 4 none with now := 424 }.now) ∧ (((serial 4 none).setPfb 0 PfbUnit.reset).pfbU 0).startAt = none := by
  decide +kernel
theorem test_FeedbackCommands_reading :
    (nx (exec (.serialTransferEnd 0 ⟨5#32, true, true, BitVec.ofNat 6 (bissCrc 8 5 true true)⟩) (serial 4 (some 255)))).rdI (PFB.POS 0) = 6
      ∧ (nx (exec (.serialTransferEnd 0 ⟨5#32, true, true, BitVec.ofNat 6 (bissCrc 8 5 true true)⟩)
        ((serial 4 (some 255)).setF (PFB.CFG_DIRINV 0) 1))).rdI (PFB.POS 0) = -6 := by decide +kernel

/-- Slot 0 on a running port, with its memory. -/
def looped (mode pair : Nat) (u : LpeSlot) : State :=
  (fs [(PWS.MODSTATE_STATE, 5), (LPE.CFG_EN 0, 1), (DPW.CFG_MODE 0, mode), (DPW.CFG_SYNC 0, 0), (DPW.CFG_OWNER 0, 0),
    (CAQ.CFG_PAIR 0, pair)]).setSlot 0 u

theorem test_LoopEngine_start : (looped 1 0 LpeSlot.reset).slotRuns 0 = true ∧ State.reset.slotRuns 0 = false
    ∧ (looped 1 0 LpeSlot.reset).foc3 0 = decide ((looped 1 0 LpeSlot.reset).f (CAQ.CFG_PAIR 0) ≠ 3)
    ∧ (looped 3 3 LpeSlot.reset).foc3 0 = decide ((looped 3 3 LpeSlot.reset).f (CAQ.CFG_PAIR 0) ≠ 3)
    ∧ (looped 1 3 LpeSlot.reset).foc3 0 ≠ decide ((looped 1 3 LpeSlot.reset).f (CAQ.CFG_PAIR 0) ≠ 3)
    ∧ (looped 1 0 LpeSlot.reset).on (LPE.CTRL_SWAP 0) = false ∧ (looped 1 0 LpeSlot.reset).on (LPE.CTRL_RESET_INT 0) = false
    ∧ (looped 1 0 LpeSlot.reset).lpe.frameBad = false ∧ (looped 1 0 { LpeSlot.reset with ecc := true }).lpe.frameBad = false := by decide +kernel
theorem test_LoopEngine_causes : let src (s : State) := (nx (exec (.lpeSlotStart 0) s)).f (LPE.STAT_HOLD_SRC 0)
    let good := [(PFB.LAT1_VALID 0, 1), (CAQ.LAT3_VA 0, 1), (CAQ.LAT3_VB 0, 1), (CAQ.LAT3_VC 0, 1)].foldl (fun s p => s.setF p.1 p.2)
      ((looped 1 0 LpeSlot.reset).wr (TRF.LATCH 0) 0#32)
    src good = 0 ∧ src (good.wr (TRF.LATCH 0) 1#32) = 1 ∧ src (good.setF (PFB.LAT1_VALID 0) 0) = 2 ∧ src (good.setF (CAQ.LAT3_VC 0) 0) = 3
      ∧ src (good.setSlot 0 { LpeSlot.reset with ecc := true }) = 4 ∧ src { good with ecc := [⟨1, 5, true⟩] } = 4
      ∧ src { good with ecc := [⟨1, 69, true⟩] } = 0 ∧ src { good with ecc := [⟨2, 0, true⟩] } = 4 ∧ src { good with ecc := [⟨1, 5, false⟩] } = 0 ∧ src { good with lpe := ⟨false, true⟩ } = 5 := by decide +kernel
theorem test_LoopEngine_hooks : let s (p : Word) := looped 1 0 { LpeSlot.reset with running := true, inp := { SlotIn.reset with hook := p } }
    ((s 0#32).slotU 0).running = true ∧ ((s 0#32).slotU 0).mism = false ∧ (s 0#32).on (LPE.STAT_HELD 0) = false
      ∧ (s 0#32).f (LPE.HKIN_TAG_V 0 0) = ((s 0#32).slotU 0).fc % 256
      ∧ ((s 0#32).setF (LPE.HKIN_TAG_V 0 0) 255).f (LPE.HKIN_TAG_V 0 0) ≠ ((s 0#32).slotU 0).fc % 256
      ∧ (∀ j ∈ [0, 1, 2, 3], getBits 6 2 (((s (BitVec.ofNat 32 (64 * j))).slotU 0).inp.hook) = j)
      ∧ (s 0#32).portPeriod 0 < 2 ^ 25 ∧ ((s 0#32).setF (LPE.STAT_HELD 0) 1).on (LPE.STAT_HELD 0) = true := by decide +kernel
theorem test_LoopEngine_writes : State.reset.reaches svc (LPE.CTRL 95) ∧ State.reset.reaches svc (LPE.HKIN_TAG 95 2)
    ∧ State.reset.reaches svc (bankOff 95 1 84) ∧ State.reset.reaches svc (bankOff 0 0 0) ∧ bankBadValue 0 0x80000#32 = false
    ∧ bankBadValue 0 0x90000#32 = true ∧ bankBadValue 21 0x7FFF#32 = false ∧ bankBadValue 21 0x8000#32 = true
    ∧ State.reset.actBank 0 = 0 ∧ (fs [(LPE.STAT_ACT_BANK 0, 1)]).actBank 0 = 1 := by
  unfold State.reaches; decide +kernel

/-! ## Hypotheses of the statements about the solver and planning -/

/-- A command: opcode, slot, structure tag, SRC_OFS. -/
def ncmd (op slot stag src : Nat) : NmgCmd := ⟨0, op + slot * 2 ^ 48 + stag * 2 ^ 64 + src * 2 ^ 96, .none⟩

/-- A solver state: its queue, in RUN, slot 0 in a state. -/
def solver (q : List NmgCmd) (st : Nat) : State :=
  { fs [(PWS.MODSTATE_STATE, 5), (NMG.SLOT_STAT_STATE 0, st)] with nmg := { Nmg.reset with queue := q } }

/-- A structure block of one variable and one row at 0x1000, with its CRC. -/
def blockAt (s : State) : State :=
  let s := [(0x1000, 1), (0x100C, 1), (0x100E, 1), (0x1018, 0x80), (0x101C, 0x80), (0x1020, 0x80), (0x1024, 0x80), (0x1028, 0x88), (0x102C, 0x80),
    (0x1030, 0x80), (0x1034, 0x80), (0x1044, 0x80), (0x104C, 0x80), (0x108A, 1)].foldl (fun s p => s.put .shared p.1 1 p.2) s
  s.put .shared 0x105C 4 (crc32 (s.nmgBytes (s.nmgHdr 0x1000)))

theorem test_Solver_load : let c := ncmd 1 0 0 0x1000
    let s := blockAt (solver [c] 0)
    s.nmg.queue = c :: [] ∧ s.nmg.run = none ∧ c.op = 1 ∧ c.badArg = false ∧ (s.nmgHdr c.src).beyond = false
      ∧ (s.nmgHdr c.src).native = true ∧ ¬(61440 < c.len) ∧ ¬(windowBytes < c.aux + 4 * c.len) ∧ c.slot < 2
      ∧ s.f (NMG.SLOT_STAT_STATE c.slot) ≠ 3 ∧ s.nmgCrcGood (s.nmgHdr c.src) = true ∧ s.nmgBlockBad (s.nmgHdr c.src) = false
      ∧ s.nmg.build = none ∧ s.nmg.pend = [] := by decide +kernel
theorem test_Solver_arguments : (ncmd 1 2 0 0).badArg = true ∧ (ncmd 1 15 0 0).badArg = false ∧ (ncmd 1 0 0 0xFFFFA0).badArg = false
    ∧ (ncmd 1 0 0 0xFFFFA1).badArg = true ∧ (ncmd 2 0 0 0).badArg = false ∧ (ncmd 3 1 0 0).badArg = false ∧ (ncmd 4 0 0 0).badArg = false
    ∧ ((State.reset.put .shared 0x101B 1 1).nmgHdr 0x1000).beyond = true ∧ (solver [] 3).f (NMG.SLOT_STAT_STATE 0) = 3 := by decide +kernel
theorem test_Solver_refactor : let s := solver [ncmd 3 1 0 0] 3
    s.slotIn 3 = some 0 ∧ (ncmd 3 1 0 0).slot ≠ 0 ∧ (ncmd 3 0 0 0).slot = 0 ∧ s.refacCount = true
      ∧ ({ s with nmg := { s.nmg with since := some 0 } }.setF NMG.CFG_REFAC_MIN 1).refacCount = false ∧ (solver [] 0).slotIn 3 = none := by
  decide +kernel
theorem test_Solver_solve : (solver [ncmd 2 0 0 0] 3).solveSlot ((ncmd 2 0 0 0).b 8 4) = .inl 0 ∧ (solver [] 2).solveSlot 0 = .inl 0
    ∧ (solver [] 0).solveSlot 0 = .inr 6 ∧ (solver [] 1).solveSlot 0 = .inr 2
    ∧ solveArgBad (ncmd 2 0 0 0) ((solver [] 3).nmgHdr ((solver [] 3).nmgSlot 0).blk) = false
    ∧ ((solver [] 3).nmgHdr ((solver [] 3).nmgSlot 0).blk).native = true ∧ (solver [] 2).f (NMG.SLOT_STAT_STATE 0) = 2 := by decide +kernel
theorem test_Solver_abort : let c : NmgCmd := ⟨0, 4 + 2 * 256, .none⟩
    c.badArg = false ∧ c.b 1 1 / 2 % 2 = 1 ∧ (ncmd 4 0 0 0).b 1 1 / 2 % 2 = 0
      ∧ { solver [] 0 with nmg := { Nmg.reset with aborts := [c], build := some ⟨0, 0, [], 0, 0, 0⟩ } }.nmg.aborts = c :: [] := by decide +kernel
theorem test_Solver_submit : State.reset.reaches svc NMG.SUBMIT
    ∧ (⟨0x40, (solver [] 0).load .shared 0x40 64, .none⟩ : NmgCmd).op = 0
    ∧ (⟨0x40, ((solver [] 0).put .shared 0x40 1 2).load .shared 0x40 64, .none⟩ : NmgCmd).op = 2
    ∧ (⟨0x40, ((solver [] 0).put .shared 0x40 1 4).load .shared 0x40 64, .none⟩ : NmgCmd).op = 4
    ∧ (⟨0x40, ((solver [] 0).put .shared 0x40 1 5).load .shared 0x40 64, .none⟩ : NmgCmd).op = 5
    ∧ (solver (List.replicate 15 (ncmd 2 0 0 0)) 0).nmg.queue.length < 16 ∧ 16 ≤ (solver (List.replicate 16 (ncmd 2 0 0 0)) 0).nmg.queue.length := by
  unfold State.reaches; decide +kernel

theorem test_Solver_named : (solver [] 3).solveNamed 0 = some 0 ∧ (solver [] 1).solveNamed 0 = some 0 ∧ (solver [] 0).solveNamed 0 = none
    ∧ (solver [] 3).on (NMG.SLOT_STAT_ECC_BAD 0) = false ∧ ((solver [] 3).setF (NMG.SLOT_STAT_ECC_BAD 0) 1).on (NMG.SLOT_STAT_ECC_BAD 0) = true
    ∧ solveArgBad ⟨0, 2 + 61441 * 2 ^ 128, .none⟩ ((solver [] 3).nmgHdr ((solver [] 3).nmgSlot 0).blk) = true
    ∧ (eccAt .shared 8 true).eccIn .shared 8 4 true = true ∧ (solver [] 3).eccIn .shared 8 0 true = false
    ∧ (State.reset.put .shared 0x1004 1 5).changeBad (State.reset.nmgHdr 0x2000) 0x1000 0 = true
    ∧ { solver [] 3 with nmg := { Nmg.reset with eccPend := some 1 } }.nmg.eccPend = some 1 := by decide +kernel

/-- A running solve in slot 0. -/
def solving (abort : Bool) : NmgSolve :=
  { cmd := ncmd 2 0 0 0, slot := 0, buf := 0, at_ := 0, ns := 0#32, wc := 0, asm := 0, iter := 0, maxIter := 10, cap := 100, x := [], z := [],
    y := [], w := [], xc := [], yc := [], warm := 0, vm := 0, rm := 0, swapped := false, clipped := false, stale := false, abort := abort,
    nfWhere := 0, nfIdx := 0, feas := false, chk := none, viol := [], cross := false }

theorem test_Solver_events : { solver [] 3 with nmg := { Nmg.reset with run := some (solving true) } }.nmg.run = some (solving true)
    ∧ (solving false).slot = 0 ∧ (⟨1, 0, [], 0, 0, 0⟩ : NmgBuild).slot < 2 ∧ (fs [(NMG.SLOT_STAT_ECC_BAD 1, 1)]).on (NMG.SLOT_STAT_ECC_BAD 1) = true
    ∧ ((solver [] 3).setF NMG.STAT_REFAC_PEND 1).on NMG.STAT_REFAC_PEND = true ∧ ((solver [] 3).setF NMG.STAT_REFAC_PEND 1).refacCount = true
    ∧ ((solver [] 3).setF NMG.STAT_REFAC_PEND 1).slotIn 3 = some 0 ∧ (solver [] 3).nmg.build = none ∧ (solver [] 3).nmg.run = none
    ∧ (solver [] 3).f (NMG.SLOT_STAT_STATE 1) ≠ 3 := by decide +kernel

/-- A manager in RUN in a phase of its cycle. -/
def planner (phase : Nat) : State :=
  { fs [(PWS.MODSTATE_STATE, 5), (FOV.STAT_ROLE, 1), (PLC.CFG_EN, 1), (PLCJ.JMAP_EN 0, 1), (PLCJ.JMAP_EN 255, 1), (PLCJ.JMAP_MOD 255, 9)]
    with plc := { Plc.reset with phase := phase } }

theorem test_Planning_cycle : (planner 0).mstate = 5 ∧ (planner 0).plans = true ∧ (planner 0).on PLC.CFG_EN = true ∧ (planner 0).plc.phase = 0
    ∧ (planner 0).fov.promote = false ∧ (planner 0).fov.takeover = false ∧ (planner 1).allStates = false ∧ (0 : Nat) ∈ (planner 1).mapped
    ∧ (planner 1).localJ 0 = true ∧ 1 ≤ (planner 2).planCap ∧ { planner 2 with now := 10000000 }.planCap < 0
    ∧ ((planner 4).setF PLC.STAT_MISS_RUN 2).f PLC.STAT_MISS_RUN = 2 ∧ State.reset.plans = false := by decide +kernel
theorem test_Planning_solution : let s (st flags : Nat) := ((planner 3).put .shared 33 1 st).put .shared 4 1 flags
    let status (s : State) := s.load .shared (s.plc.desc + 33) 1
    let flags (s : State) := s.load .shared (s.load .shared (s.plc.desc + 24) 4 + 4) 4
    status (s 15 0) = 15 ∧ status (s 0 3) ≠ 15 ∧ flags (s 0 3) % 4 = 3 ∧ flags (s 0 1) % 4 ≠ 3 ∧ 0 ≤ (s 0 3).planCap := by decide +kernel
theorem test_Planning_output : let s := ((planner 4).setF PLC.STAT_SLS_REQ 1).setF PLC.REL_REL_N 1
    s.on PLC.STAT_SLS_REQ = true ∧ s.f PLC.REL_REL_N ≤ s.plc.used + 1 ∧ s.plc.next ≠ 0xFFFFFFFF#32 := by decide +kernel
theorem test_Planning_parts : let s := { planner 5 with plc := { (planner 5).plc with todo := [.arm 0, .arm 1], strobes := [(0, 7, 9)] } }
    s.now < s.plc.at_ + (s.planP - 1000 * s.f PLC.CFG_LATE_MARGIN) / 4 ∧ s.plc.todo.length = 2
      ∧ s.plc.strobes.find? (fun x => decide (x.1 = s.jPort 0)) = some (0, 7, 9)
      ∧ (nx (exec (.planOutput 1) s)).plc.todo.length = 1 ∧ (nx (exec (.planOutput 2) s)).plc.phase = 0
      ∧ (nx (exec (.planOutput 1) { s with now := 1000000000 })).on PLC.STAT_PLAN_INVALID = true := by decide +kernel
theorem test_Planning_state : let l : List Byte := List.replicate 10 0#8 ++ [1#8, 0#8]
    12 + 16 * leNat (sub l 8 1) ≤ l.length ∧ leNat (sub l 9 1) = 0 ∧ leNat (sub l 10 1) = 1 ∧ (planner 0).plc.coming.get noSt 63 = none
      ∧ (planner 0).stFrame 63 = none := by decide +kernel

/-- A worker whose manager is module 5. -/
def worker : State :=
  { fs [(FOV.STAT_ROLE, 2), (TIMEEXT.STATUS_SYNC 0, 1), (PRG.CFG_SRC 95, 2)] with
    fov := { Fov.reset with bcr := 2 ^ 80 + 5 * 2 ^ 512 + 2 ^ 520 }, plc := { Plc.reset with frags := [⟨7#32, 0#32, 50000#32, 2, []⟩] } }

/-- A CYCLE frame of one fragment with one block without knots. -/
def cycle (t0 port : Nat) : List Byte := leBytes (1 + t0 * 2 ^ 64 + 2 ^ 104 + 2 ^ 112 + port * 2 ^ 144) 20

theorem test_Planning_worker : worker.isWorker = true ∧ worker.planSource = some 5 ∧ (∀ f ∈ worker.plc.frags, f.plan ≠ 1#32)
    ∧ worker.on (TIMEEXT.STATUS_SYNC 0) = true ∧ State.reset.on (TIMEEXT.STATUS_SYNC 0) = false ∧ leNat (sub (cycle 50001 95) 13 1) = 1
    ∧ BitVec.ofNat 32 (leNat (sub (cycle 50001 95) 0 4)) = 1#32 ∧ BitVec.ofNat 32 (leNat (sub (cycle 50001 95) 8 4)) = 50001#32
    ∧ 0 < worker.fragLeft 50001#32 ∧ ¬(0 < worker.fragLeft 50000#32) ∧ BitVec.ofNat 32 (leNat (sub (cycle 50001 95) 4 4)) = worker.rd PLC.PLAN
    ∧ blocksOf (leNat (sub (cycle 50001 95) 14 1)) ((cycle 50001 95).drop 16) = [⟨0, 95, []⟩] ∧ worker.f (PRG.CFG_SRC 95) = 2
    ∧ worker.plc.frags.find? (fun x => decide (x.plan = 7#32)) = some ⟨7#32, 0#32, 50000#32, 2, []⟩ := by decide +kernel
theorem test_Planning_fragment : worker.plc.frags.filter (fun f => decide (f.plan = 7#32) && decide (f.nfrag ≠ 0)) = [⟨7#32, 0#32, 50000#32, 2, []⟩]
    ∧ worker.fragLeft 50000#32 ≤ 0 := by decide +kernel
theorem test_Planning_worker_frames : (nx (exec (.cycleFrameReceive 5 (cycle 50001 95)) worker)).rd PLC.PLAN = 1#32
    ∧ (nx (exec (.cycleFrameReceive 5 (cycle 50000 95)) worker)).on PLC.STAT_PLAN_DROP = true
    ∧ (nx (exec (.cycleFrameReceive 5 (cycle 50001 96)) worker)).on PLC.STAT_PLAN_DROP = true := by decide +kernel

/-! ## Hypotheses of the statements about Saffron, the doors, the field channels and the Capture Engine -/

/-- Saffron with faults, release stages and failed switches, and group 0 out of STO. -/
def saffron (l : List (Field × Nat)) (x : Saf) : State := { (fs l).setF (bitAt SAF.GSTO_STO 0) 0 with saf := x }

theorem test_SaffronShutOff : (saffron [] Saf.reset).groupIn 0 = false ∧ State.reset.groupIn 0 = true ∧ State.reset.groupIn 11 = true
    ∧ (saffron [] { Saf.reset with rel := ⟨[(0, 1), (11, 2)]⟩ }).relStage 0 = 1 ∧ (saffron [] { Saf.reset with rel := ⟨[(0, 1), (11, 2)]⟩ }).relStage 11 = 2
    ∧ State.reset.relStage 0 = 0 ∧ (saffron [] { Saf.reset with swBad := ⟨[(0, 2)]⟩ }).saf.swBad.get (fun _ => 0) 0 ||| 1 = 3
    ∧ (saffron [] Saf.reset).saf.swBad.get (fun _ => 0) 0 ||| 1 ≠ 3 ∧ (∀ f ∈ State.reset.saf.faults, ¬(f.code = 13 ∧ f.arm = 17))
    ∧ State.reset.on SAF.STAT_DEG_USED = false ∧ (saffron [(SAF.STAT_DEG_USED, 1)] Saf.reset).on SAF.STAT_DEG_USED = true
    ∧ (∃ f ∈ (saffron [(PWS.MODSTATE_STATE, 5)] { Saf.reset with faults := [⟨5, 16, 0, true, 0⟩] }).saf.faults, f.arm = 16)
    ∧ (saffron [(PWS.MODSTATE_STATE, 5)] Saf.reset).mstate = 5 ∧ State.reset.mstate ≠ 5 ∧ State.reset.mstate ≠ 6 := by decide +kernel
theorem test_SaffronShutOff_switch : let s := (saffron [] Saf.reset).setSwitches 0 3
    s.switches 0 = 3 ∧ s.groupIn 0 = false ∧ State.reset.switches 0 ≠ 3 ∧ (nx (exec (.stogSwitchTest 0 true false) s)).on SAF.STAT_DEGRADED = true
    ∧ (nx (exec (.stogSwitchTest 0 true true) s)).switches 0 = 2
    ∧ (nx (exec (.stoReleaseCheck 11 true) (saffron [] { Saf.reset with rel := ⟨[(0, 1), (11, 2)]⟩ }))).groupIn 11 = false := by decide +kernel

/-- An admitted set in which input 0 has function 1, its channels on test outputs 0 and 4, and connection 0 the identifier 7. -/
def parSet : Nat := 2 ^ (8 * oINPUT 0) + 4 * 2 ^ (8 * (oINPUT 0 + 5)) + 7 * 2 ^ (8 * oCONN 0) + 2 ^ (8 * (oCONN 0 + 4))

/-- Saffron with that set and a state of input 0. -/
def inputs (x : SiIn) : State := saffron [(SAF.STAT_PSET_OK, 1)] { Saf.reset with set := parSet, si := ⟨[(0, x)]⟩ }

theorem test_SaffronStartAndInputs : (inputs SiIn.reset).psetOk = true ∧ State.reset.psetOk = false ∧ (inputs SiIn.reset).pset.func 0 ≠ 0
    ∧ (inputs SiIn.reset).pset.func 1 = 0 ∧ (inputs SiIn.reset).pset.u (oINPUT 0 + 4) 1 = 0 ∧ (inputs SiIn.reset).pset.u (oINPUT 0 + 5) 1 = 4
    ∧ (inputs SiIn.reset).inWindow 0 = false ∧ (inputs SiIn.reset).inWindow 4 = false ∧ ((inputs SiIn.reset).siIn 0).flt = false
    ∧ siDisagree ((inputs { SiIn.reset with a := true }).siAnti 0) true false = true ∧ siDisagree ((inputs SiIn.reset).siAnti 0) false false = false
    ∧ (saffron [(SAF.STAT_DEGRADED, 1)] Saf.reset).on SAF.STAT_DEGRADED = true ∧ (inputs SiIn.reset).on SAF.STAT_DEGRADED = false := by decide +kernel
theorem test_SaffronStartAndInputs_seal : let s := saffron [(PWS.MODSTATE_STATE, 5)] { Saf.reset with s1 := 5, s1Diff := 1 }
    s.mstate = 5 ∧ (5#12).toNat = s.saf.s1 ∧ 5#12 ^^^ 0xFFA#12 = 0xFFF#12 ∧ (6#12).toNat ≠ s.saf.s1 ∧ 5#12 ^^^ 0xFFB#12 ≠ 0xFFF#12
      ∧ s.saf.s1Diff = 1 ∧ s.saf.sealBad = false ∧ (fs [(SAF.STAT_DEG_USED, 1)]).on SAF.STAT_DEG_USED = true := by decide +kernel
theorem test_SaffronStartAndInputs_sample :
    ((nx (exec (.siSample 1#16 1#16) (inputs { SiIn.reset with sa := true, sb := true }))).siIn 0).a = true
      ∧ ((nx (exec (.siSample 1#16 1#16) (inputs SiIn.reset))).siIn 0).a = false
      ∧ ((nx (exec (.testPulse 0 true 0#16 0#16) (inputs SiIn.reset))).siIn 0).flt = true := by decide +kernel

/-- A SAFE frame of connection 7 without capsules, with SEQ and TS. -/
def safeBytes (seq : Nat) : List Byte :=
  let l := leBytes (7 + seq * 2 ^ 32 + seq * 2 ^ 64) 16
  l ++ leBytes (safeCrc 7 l) 4

theorem test_SaffronFrames : let s := inputs SiIn.reset
    let s1 := { s with saf := { s.saf with conn := ⟨[(0, some ⟨0, 3#32, 3#32, [], [], 0⟩)]⟩ } }
    (List.range 32).find? (fun j => s.psetOk && decide (7 ≠ 0) && decide (s.pset.connId j = 7)) = some 0
      ∧ (List.range 32).find? (fun j => s.psetOk && decide (8 ≠ 0) && decide (s.pset.connId j = 8)) = none
      ∧ leNat (sub (safeBytes 5) 0 2) = 7 ∧ s.pset.u (oCONN 0 + 2) 1 = leNat (sub (safeBytes 5) 2 1) ∧ leNat (sub (safeBytes 5) 3 1) = 0
      ∧ (safeBytes 5).length = 20 ∧ safeCrc 7 ((safeBytes 5).take 16) = leNat (sub (safeBytes 5) 16 4) ∧ s.connFrame 0 = none
      ∧ s1.connFrame 0 = some ⟨0, 3#32, 3#32, [], [], 0⟩ ∧ 0 < (5#32 - 3#32 : Word).toInt ∧ (5#32 - 3#32 : Word) ≠ 1#32 := by decide +kernel
theorem test_SaffronFrames_received : let s := inputs SiIn.reset
    let s1 := { s with saf := { s.saf with conn := ⟨[(0, some ⟨0, 3#32, 3#32, [], [], 0⟩)]⟩ } }
    (nx (exec (.safeFrameReceive (safeBytes 5)) s1)).f (SAF.CONNC_LOST 0) = 1
      ∧ (nx (exec (.safeFrameReceive (safeBytes 3)) s1)).f (SAF.CONNC_REJECTED 0) = 1
      ∧ (nx (exec (.safeFrameReceive (safeBytes 5)) s)).on (connBit 0) = true := by decide +kernel
theorem test_SaffronFrames_requests : (fs [(connBit 31, 1)]).on (connBit 31) = true ∧ State.reset.on (connBit 31) = false
    ∧ (fs [(bitAt SAF.DOOR_DLK 7, 1)]).dlk 7 = true ∧ State.reset.dlk 7 = false ∧ State.reset.reaches svc SAF.REQ
    ∧ State.reset.reaches svc (SAF.EST_TAG 95) := by
  unfold State.reaches; decide +kernel

/-- Door 0 in RUN, enabled, in a state, with limits that R285 accepts or not. -/
def doorAt (st : Nat) (good : Bool) : State :=
  (fs [(PWS.MODSTATE_STATE, 5), (DOR.CFG_EN 0, 1), (DOR.STAT_STATE 0, st), (PFB.STAT_VALID 0, 1), (PFB.STAT_FAULT 0, 0)]).wr (DOR.VRUN 0)
    (if good then 0#32 else 0xFFFFFFFF#32) |>.wr (DOR.VREV 0) 0#32

theorem test_DoorCommands : ∀ st ∈ [0, 1, 2, 3, 4, 5, 6, 7, 8], (doorAt st true).mstate = 5 ∧ (doorAt st true).on (DOR.CFG_EN 0) = true
    ∧ (doorAt st true).f (DOR.STAT_STATE 0) = st ∧ (doorAt st true).doorLimits 0 0 = true ∧ (doorAt st false).doorLimits 0 0 = false
    ∧ (doorAt st true).doorCause 0 = false ∧ (doorAt st false).doorCause 0 = true := by decide +kernel
theorem test_DoorCommands_access : State.reset.reaches svc (DOR.CMD 7) ∧ State.reset.reaches svc (DOR.CFG 7)
    ∧ (doorAt 0 true).doorCfgBad 0 0x100#32 = false ∧ (doorAt 0 true).doorCfgBad 0 0#32 = true ∧ (doorAt 0 true).doorCfgBad 0 0x1BE#32 = false
    ∧ (doorAt 0 true).doorCfgBad 0 0x1C0#32 = true := by
  unfold State.reaches; decide +kernel
theorem test_DoorCommands_waits : let d (g r : Bool) (st : Nat) := (doorAt st true).setDoor 0 { Door.reset with granted := g, regrant := r, cmd := some (1, 9) }
    (d false false 1).on (doorBit SAF.DOOR_DLK 0) = false ∧ ((d false false 1).doorU 0).granted = false ∧ ((d false false 1).doorU 0).cmd = some (1, 9)
      ∧ ((d true true 5).doorU 0).regrant = true ∧ ((d true false 1).doorU 0).granted = true
      ∧ ((d true false 1).setF (doorBit SAF.DOOR_CLOSED_LOCKED 0) 1).on (doorBit SAF.DOOR_CLOSED_LOCKED 0) = true
      ∧ ((d true false 5).setF (doorBit SAF.DOOR_CLOSED_LOCKED 0) 0).on (doorBit SAF.DOOR_CLOSED_LOCKED 0) = false
      ∧ ((d true false 5).setF (doorBit SAF.DOOR_DLK 0) 1).on (doorBit SAF.DOOR_DLK 0) = true := by decide +kernel

/-- Channels 0 and 31 in a mode, in READY. -/
def field (mode : Nat) (x : Fio) : State :=
  { fs [(PWS.MODSTATE_STATE, 4), (FIO.CHCFG_MODE 0, mode), (FIO.CHCFG_MODE 31, mode), (FIOB.STAT_OUTOFF 0, 0), (FIOB.STAT_OUTOFF 1, 0),
      (FIOB.STAT_SAG 0, 0), (FIOB.STAT_VALID 0, 1), (FIO.CHCFG_WB_EN 0, 1)] with fio := x }

theorem test_FieldChannels : (field 2 Fio.reset).f (FIO.CHCFG_MODE 31) = 2 ∧ (field 2 Fio.reset).mstate = 4 ∧ (field 2 Fio.reset).on (FIOB.STAT_OUTOFF 1) = false
    ∧ (field 2 Fio.reset).fio.tripped.getLsbD 31 = false ∧ (field 2 { Fio.reset with tripped := 1#32 }).fio.tripped.getLsbD 0 = true
    ∧ (((field 2 Fio.reset).wr FIO.OUTACT 1#32).rd FIO.OUTACT).getLsbD 0 = true ∧ (field 1 Fio.reset).on (FIO.CHCFG_WB_EN 0) = true
    ∧ (field 1 Fio.reset).on (FIOB.STAT_VALID 0) = true ∧ ((field 1 Fio.reset).setF (FIOB.STAT_SAG 0) 1).on (FIOB.STAT_SAG 0) = true
    ∧ (field 1 Fio.reset).on (FIOB.STAT_SAG 0) = false ∧ ((field 1 Fio.reset).rd FIO.CHFLT).getLsbD 0 = false
    ∧ (field 1 Fio.reset).fioSampleDue = true ∧ { field 1 { Fio.reset with sampleAt := some 0 } with now := 12499 }.fioSampleDue = false
    ∧ (field 2 Fio.reset).fio.since.get (fun _ => 0) 31 ≤ (field 2 Fio.reset).now ∧ ¬(0 + 250000 ≤ (field 2 Fio.reset).now)
    ∧ (field 2 Fio.reset).fio.vfAt.get (fun _ => 0) 0 + 2500000 ≤ { field 2 Fio.reset with now := 2500000 }.now := by decide +kernel
theorem test_FieldChannels_filter : let s (n : Nat) := field 1 { Fio.reset with cand := 1#32, cnt := ⟨[(0, n)]⟩ }
    let need := 5 * ((s 4).f (FIO.CHCFG_FILT 0) + 1) + 1
    (s 4).fio.cand.getLsbD 0 = true ∧ ¬(need ≤ 0) ∧ ((nx (exec (.fioInputSample 1#32) (s (need - 1)))).rd FIO.IN).getLsbD 0 = true
      ∧ ((nx (exec (.fioInputSample 1#32) (s (need - 2)))).rd FIO.IN).getLsbD 0 = false := by decide +kernel
theorem test_FieldChannels_access : State.reset.reaches svc (FIO.CHCFG 31) ∧ State.reset.reaches svc FIO.OUT ∧ State.reset.reaches svc FIO.OUTSET
    ∧ State.reset.reaches svc FIO.OUTCLR ∧ State.reset.reaches svc (FIOB.CTRL 1) := by
  unfold State.reaches; decide +kernel

/-- The Capture Engine with channel 15, a mode and a state, in READY. -/
def capture (mode st post : Nat) (x : Cap) : State :=
  { fs [(PWS.MODSTATE_STATE, 4), (CAP.CH_EN 15, 1), (CAP.CFG_MODE, mode), (CAP.STAT_STATE, st), (CAP.LEN_PRE, 1), (CAP.LEN_POST, post)] with cap := x }

theorem test_CaptureEngine_start : (capture 0 0 1 Cap.reset).f CAP.STAT_STATE = 0 ∧ (capture 0 0 1 Cap.reset).capChans.length = 1
    ∧ State.reset.capChans.length = 0 ∧ (capture 0 0 1 Cap.reset).mstate = 4 ∧ (64 + 4 * 1 * (1 + 1) + 32 * 1 + 63) / 64 * 64 ≤ 1048576
    ∧ ((capture 0 0 1 Cap.reset).setF CAP.TRIG_SRC 0 |>.setF CAP.TRIG_KIND 1 |>.wr CAP.THLO 1#32).rdI CAP.THHI
      < ((capture 0 0 1 Cap.reset).wr CAP.THLO 1#32).rdI CAP.THLO
    ∧ State.reset.reaches svc CAP.CTRL ∧ State.reset.reaches svc CAP.RDPTR := by
  unfold State.reaches; decide +kernel
theorem test_CaptureEngine_room : let s := (capture 0 4 1 { Cap.reset with rearmAt := some 0 }).wr CAP.WRPTR 0x400000#32
    4194304 < (s.rd CAP.WRPTR - s.rd CAP.RDPTR).toNat + 1 ∧ s.cap.rearmAt = some s.now ∧ State.reset.cap.rearmAt ≠ some State.reset.now ∧ (nx (exec .capRearm s)).on CAP.STAT_NO_ROOM = true
      ∧ (nx (exec .capRearm (capture 0 4 1 { Cap.reset with rearmAt := some 0 }))).f CAP.STAT_STATE = 1 := by decide +kernel
theorem test_CaptureEngine_triggers : let s := capture 0 3 1 { Cap.reset with live := true, rows := [⟨0#32, 0#8, [0#32]⟩], trig := some ⟨5, 0#32, 0, 0⟩ }
    s.f CAP.CFG_MODE ≠ 2 ∧ s.cap.trigAt ≠ some s.now ∧ s.cap.rowAt ≠ some s.now ∧ 1 ≤ s.f CAP.LEN_POST ∧ s.f CAP.STAT_STATE = 3 ∧ s.cap.live = true
      ∧ s.cap.rows ≠ [] ∧ { s with cap := { s.cap with trigAt := some 0 } }.cap.trigAt = some s.now ∧ (s.setF CAP.TRIG_SRC 1).capSelects (.trip 0) = false
      ∧ (s.setF CAP.TRIG_SRC 3).capSelects (.trip 0) = true ∧ s.capSelects .force = true := by decide +kernel
theorem test_CaptureEngine_commit : let d : CapDone := ⟨0, ⟨5, 0#32, 0, 0⟩, 0, 1, 0, 0, [⟨0#32, 0#8, [0#32]⟩], 0, 4, 0, 0⟩
    d.bytes.length ≤ 4194304 ∧ d.size = 128 ∧ (fs [(CAP.TOKEN_TAG, 9)]).f CAP.TOKEN_TAG ≠ 0
      ∧ (nx (exec .capRecordCommit (capture 0 0 1 { Cap.reset with dones := [d] }))).rd CAP.WRPTR = 128#32 := by decide +kernel
theorem test_CaptureEngine_rdptr : ∀ v ∈ [((0x80 : Nat), false), (0x40, false), (0xC0, true), (0x41, true)],
    (nx (exec (.capRdptrWrite svc (BitVec.ofNat 32 v.1)) (State.reset.wr CAP.WRPTR 0x80#32))).on CAP.STAT_ERR_ARG = v.2 := by decide +kernel

/-! ## Hypotheses of the statements about Clove, the recorder and identity -/

/-- Clove in thread mode with threads in a state that wait, 1023 for tags 9 and 10 and 5 for tag 11. -/
def clove (x : Clv) : State :=
  { fs [(CLV.STAT_MODE, 0), (CLVT.WAIT01_T0 1023, 9), (CLVT.WAIT01_T1 1023, 10), (CLVT.WAIT23_T3 5, 11)] with clv := x }

theorem test_CloveTokens : let s := clove { Clv.reset with waiters := [1023, 5] }
    s.plc.phase ≠ 3 ∧ s.queueFull = false ∧ s.clv.fifo = [] ∧ s.f NMG.TAGS_CMD_TAG ≠ 9 ∧ s.f (CLV.PARK_V 1) = 0
      ∧ (s.setF (CLV.PARK_V 1) 1).f (CLV.PARK_V 1) ≠ 0 ∧ s.waiterFor 9 = some (1023, 0) ∧ s.waiterFor 11 = some (5, 3) ∧ s.waiterFor 12 = none
      ∧ s.waitTag 1023 1 ≠ 0 ∧ s.filled 1023 1 = false ∧ (∀ j ∈ [0, 1, 2], s.waitTag 5 j = 0)
      ∧ (s.setF (CLV.PARK_V 7) 131072).queueFull = true ∧ (s.setF (CLV.PARK_V 7) 131071).queueFull = false
      ∧ (0xFF07#16).toNat ≤ 0xFF07 ∧ ¬((0xFF08#16).toNat ≤ 0xFF07) := by decide +kernel
theorem test_CloveTokens_full : (clove { Clv.reset with store := List.replicate 4096 ⟨1#16, 0#32, 0⟩ }).clv.store.length = 4096
    ∧ (clove { Clv.reset with fifo := List.replicate 63 ⟨1#16, 0#32, 0⟩ }).clv.fifo.length = 63
    ∧ (clove { Clv.reset with park := [⟨12#16, 0#32, 0⟩] }).clv.park = [⟨12#16, 0#32, 0⟩]
    ∧ (clove { Clv.reset with park := [⟨12#16, 0#32, 0⟩] }).waiterFor 12 = none := by decide +kernel
theorem test_CloveTokens_arrive : let s := clove { Clv.reset with waiters := [1023, 5] }
    (nx (exec (.tokenArrive 11#16 7#32 false) s)).thread 5 = 3 ∧ (nx (exec (.tokenArrive 9#16 7#32 false) s)).filled 1023 0 = true
      ∧ (nx (exec (.tokenArrive 0xFF07#16 7#32 false) s)).on CLV.STAT_POST_ERR = true
      ∧ (nx (exec (.tokenArrive 0xFF08#16 7#32 false) s)).clv.store.length = 1 := by decide +kernel
theorem test_CloveTokens_graph : State.reset.reaches svc CLV.POST_TAG ∧ (fs [(CLV.STAT_MODE, 1), (CLV.ENG_RUN_V 14, 1)]).graphMode = true
    ∧ (fs [(CLV.STAT_MODE, 1), (CLV.ENG_RUN_V 14, 1)]).runningOn 14 = some 0 ∧ State.reset.runningOn 14 = none := by
  unfold State.reaches; decide +kernel

/-- Thread 1023 in a state with an affinity, running on SDSP0 or nowhere. -/
def thr (st aff : Nat) (on : Nat) : State :=
  fs [(CLV.STAT_MODE, 0), (CLVT.STAT_STATE 1023, st), (CLVT.CFG_AFF 1023, aff), (CLV.ENG_RUN_V 4, on), (CLV.ENG_RUN_T 4, 1023)]

theorem test_CloveThreads : ∀ st ∈ [0, 1, 2, 3, 4, 5], (thr st 1 0).thread 1023 = st ∧ (thr st 1 0).graphMode = false
    ∧ (thr st 1 0).f (CLVT.CFG_AFF 1023) ≠ 0 ∧ (thr st 0 0).f (CLVT.CFG_AFF 1023) = 0 := by decide +kernel
theorem test_CloveThreads_engines : (∀ f : Fin 15, (thr 0 1 0).engThread f.val = none ∧ (thr 0 1 0).resident f.val = none
      ∧ (thr 4 1 0).runningOn f.val ≠ some 1023) ∧ (thr 4 1 1).engineOf 1023 = some 4 ∧ (thr 4 1 1).atBoundary 4 = true
    ∧ ((thr 4 1 1).setEn 4 { Eng.reset with slot := some (2, 0#32) }).atBoundary 4 = false ∧ (thr 4 1 1).mayPreempt 4 = true
    ∧ ((thr 4 1 1).en 4).halt = false ∧ (thr 4 1 1).engStopped 4 = false ∧ (thr 4 1 0).engineOf 1023 = none
    ∧ ((thr 4 1 1).setF (CLVT.CFG_BUDGET_ACT 1023) 1).on (CLVT.CFG_BUDGET_ACT 1023) = true
    ∧ ((thr 4 1 1).setF (CLVT.CFG_BUDGET_ACT 1023) 0).on (CLVT.CFG_BUDGET_ACT 1023) = false := by decide +kernel
theorem test_CloveThreads_incoming : let s := { thr 3 1 0 with clv := { Clv.reset with incoming := ⟨[(4, some 1023)]⟩ } }
    s.incoming 4 = some 1023 ∧ s.fetched 4 = false ∧ s.runningOn 4 = none ∧ s.on (CLV.ENG_KEEP_V 4) = false
      ∧ { s with clv := { s.clv with fetched := ⟨[(4, true)]⟩ } }.fetched 4 = true := by decide +kernel
theorem test_CloveThreads_access : State.reset.reaches svc (CLVT.CTRL 1023) ∧ State.reset.reaches svc CLV.GEND ∧ State.reset.reaches svc (SDS.IRQSET 7)
    ∧ (fs [(CLV.STAT_MODE, 1)]).graphMode = true ∧ (fs [(CLV.STAT_MODE, 1)]).clv.gend = none
    ∧ (∀ f : Fin 15, (fs [(CLV.STAT_MODE, 1)]).runningOn f.val = none)
    ∧ { fs [(CLV.STAT_MODE, 1)] with clv := { Clv.reset with gend := some 0 } }.clv.gend.isSome = true := by
  unfold State.reaches; decide +kernel

/-- A record of class SYS. -/
def sysRec (sev : Nat) : Rec := ⟨0#64, 0x1501#16, 0, sev, 0, 0#128, 0⟩

/-- The recorder with one waiting record, a state of the bucket of its class, records in the buffer and lost ones. -/
def recorder (r : Rec) (b : Option Bucket) (n lost : Nat) : State :=
  { fs [(ANS.CNT_LOST, lost)] with
    ansIn := [r], ans := { buf := List.replicate n (sysRec 0), buckets := ⟨[(0x15, b)]⟩, flushTo := none, asked := none } }

/-- The level of the bucket of a record of class SYS at its admission. -/
def levelAt (b : Option Bucket) : Nat :=
  let s := recorder (sysRec 4) b 0 0
  (fillBucket s.now (s.bucketOf (sysRec 4)).2.1 (s.bucketOf (sysRec 4)).2.2 (s.ans.buckets.get noBucket (s.bucketOf (sysRec 4)).1)).level

theorem test_RecorderAdmission :
    2500000000 ≤ levelAt none ∧ ¬(2500000000 ≤ levelAt (some ⟨2499999999, 0, 3⟩)) ∧ 2500000000 ≤ levelAt (some ⟨2500000000, 0, 3⟩)
      ∧ (sysRec 4).code.toNat / 256 ≠ 0x13 ∧ (recorder (sysRec 4) none 0 1).f ANS.CNT_LOST ≠ 0 := by decide +kernel
theorem test_RecorderAdmission_buffer : (List.replicate 16384 (sysRec 0)).length = 16384
    ∧ (List.replicate 8191 (sysRec 0)).length = 8191 := ⟨List.length_replicate, List.length_replicate⟩
theorem test_RecorderAdmission_flush : let s := { (recorder (sysRec 4) none 2 0).wr ANS.HEAD_L 2#32 with
      ans := { buf := [sysRec 0, sysRec 0], buckets := ⟨[]⟩, flushTo := some 2, asked := none } }
    s.ans.flushTo = some s.ansHead ∧ s.ans.buf.length ≤ s.ansHead ∧ s.ans.buf ≠ [] ∧ (nx (exec (.ansFlush true) s)).ans.buf = [] := by decide +kernel
theorem test_RecorderAdmission_export : let s := fs [(PWS.MODSTATE_STATE, 4)]
    ¬(s.ansHead < 0) ∧ s.ansHead < 1 ∧ s.mstate = 4 ∧ 0xFF0000 + 32 * 32768 > 0x1000000 ∧ 0xF00000 + 32 * 32768 = 0x1000000
      ∧ State.reset.mstate ≠ 4 ∧ State.reset.mstate ≠ 5 ∧ State.reset.mstate ≠ 6 := by decide +kernel
theorem test_RecorderAdmission_post : State.reset.reaches svc ANS.POSTCODE ∧ State.reset.reaches svc ANS.HEAD_L ∧ State.reset.reaches svc ANS.TAIL_L
    ∧ ¬(getBits 0 16 0x8000#32 < 0x8000) ∧ getBits 0 16 0x7FFF#32 < 0x8000 ∧ ¬(5 < getBits 16 4 (State.reset.bankRd svc ANS.POSTSRC))
    ∧ 5 < getBits 16 4 ((State.reset.bankWr svc ANS.POSTSRC 0x60000#32).bankRd svc ANS.POSTSRC) := by
  unfold State.reaches; decide +kernel

/-- Module states and lifecycle states, with a session of ring pair 0 that holds every right until a time. -/
def owner (st lc : Nat) : State :=
  { (fs [(PWS.MODSTATE_STATE, st), (SYS.LC_STATE, lc)]).wr (TB.NS 1) 8#32 with
    ident := { Ident.reset with sess := ⟨[(1024, some ⟨leBytes (2 ^ 32 * 127) 320, 7⟩)]⟩ } }

theorem test_IdentityAndLifecycle : (owner 4 2).served = true ∧ (owner 4 2).lc = 2 ∧ State.reset.served = false ∧ State.reset.romService = false
    ∧ (owner 4 0).lc = 0 ∧ 0xFFFD80 + 640 = 0x1000000 ∧ 0xFFFF80 + 128 = 0x1000000 ∧ 0xFFFF70 + 144 = 0x1000000
    ∧ (owner 4 2).ident.sess.get noSession 1024 = some ⟨leBytes (2 ^ 32 * 127) 320, 7⟩ ∧ 7 < ((owner 4 2).time64 1).toNat
    ∧ ((owner 4 2).wr (TB.NS 1) 7#32).time64 1 = 7#64 ∧ (owner 4 2).ident.sess.get noSession 1025 = none
    ∧ (owner 4 2).tokenChain 0 1 0 none (fun _ => none) = none ∧ (owner 4 2).tokenChain 0 0 0 none (fun _ => none) = none := by decide +kernel
theorem test_IdentityAndLifecycle_session : ((nx (exec (.sessionExpiry none 0) (owner 4 2))).ident.sess.get noSession 1024) = none
    ∧ ((nx (exec (.sessionExpiry none 0) ((owner 4 2).wr (TB.NS 1) 7#32))).ident.sess.get noSession 1024).isSome = true := by decide +kernel

theorem test_StoredImagesAndRecords : let via : Via := .ring 0 0#16
    (owner 4 2).hasRight via 3 = true ∧ (owner 4 2).hasRight via 2 = true ∧ (owner 4 3).hasRight via 1 = true
      ∧ (owner 4 2).hasRight (.ring 1 0#16) 3 = false ∧ (owner 4 2).f SYS.BOOT_SLOT = 0 ∧ (owner 4 2).ident.img.isSome = false
      ∧ (owner 4 2).ident.restart.isSome = false ∧ 0xFF0000 + 0x10000 = 0x1000000 ∧ (owner 4 3).lc = 3 ∧ (owner 4 3).mstate = 4 := by decide +kernel
theorem test_StoredImagesAndRecords_img : ((nx (exec (.imgErase (.ring 0 0#16) 1#8 0xFF00000#32) (owner 4 2))).ident.img.isSome) = true
    ∧ ((nx (exec (.imgErase (.ring 0 0#16) 0#8 0xFF00000#32) (owner 4 2))).cqes.map (·.res)) = [6]
    ∧ ((nx (exec (.imgErase (.ring 0 0#16) 1#8 0x10000000#32) (owner 4 2))).cqes.map (·.res)) = [3]
    ∧ ((nx (exec (.imgWrite (.ring 0 0#16) 1#8 0x1000#32 0#32 0x100000#32) (owner 4 2))).ident.img.isSome) = true
    ∧ ((nx (exec (.imgCommit (.ring 0 0#16) 1#8 0xFFFF001#32) (owner 4 2))).cqes.map (·.res)) = [3] := by decide +kernel

/-! ## Hypotheses of the statements about the module, the host, the backbone and fail-over -/

/-- A module state with flags of the supply. -/
def supply (st a b : Nat) : State := fs [(PWS.MODSTATE_STATE, st), (PWS.STAT_A_OK, a), (PWS.STAT_B_OK, b)]

theorem test_ModuleTransitions_undo : let s := supply 5 1 1
    let t := s.moveTo 4 4
    let mv : ModMove := ⟨0, 5, s.body, t.body⟩
    t.regs = mv.became.regs ∧ (t.undo mv).regs = s.regs := by decide +kernel
theorem test_ModuleTransitions : (State.reset.moveTo 4 255).f PWS.MODSTATE_CAUSE = 255
    ∧ (State.reset.moveTo 4 255).on HQ.GSTAT_RINGS_UP = true := by decide +kernel
theorem test_SupplyInputsAndHoldup : ∀ st ∈ [0, 1, 2, 3, 4, 5, 6, 7, 8], (supply st 0 0).mstate = st ∧ (supply st 1 0).on PWS.STAT_A_OK = true
    ∧ (supply st 1 0).on PWS.STAT_B_OK = false ∧ (supply st 1 1).on PWS.STAT_B_OK = true ∧ (supply st 0 0).pws.hot = false := by decide +kernel
theorem test_SupplyInputsAndHoldup_border : (nx (exec (.inputGood 0 19200) (supply 4 0 0))).on PWS.STAT_A_OK = true
    ∧ (nx (exec (.inputGood 0 19199) (supply 4 0 0))).on PWS.STAT_A_OK = false := by decide +kernel
theorem test_SupplyInputsAndHoldup_from : ∀ k ∈ [3, 4, 6, 7], { supply 7 0 0 with pws := { Pws.reset with holdFrom := k } }.pws.holdFrom = k := by
  decide +kernel

theorem test_RailsClockAndWatchdogs : let s := { supply 8 0 0 with pws := { Pws.reset with recStep := 1, unlocked := true, key := some 0 }, now := 2500 }
    s.pws.recStep ≠ 0 ∧ State.reset.pws.recStep = 0 ∧ s.pws.unlocked = true ∧ State.reset.pws.unlocked = false
      ∧ getBits 0 16 0xA5E8#32 = 0xA5E8 ∧ s.pws.key = some 0 ∧ s.now - 0 ≤ 2500 ∧ ¬({ s with now := 2501 }.now - 0 ≤ 2500)
      ∧ getBits 0 16 0x5A17#32 = 0x5A17 ∧ (supply 0 1 0).anyInput = true ∧ State.reset.reaches (.eng 14) PWS.WDKICK
      ∧ State.reset.reaches svc PWS.SLEEP_L := by
  unfold State.reaches; decide +kernel
theorem test_RailsClockAndWatchdogs_order : let s (l : List Nat) : State :=
      let u := { supply 5 1 1 with pws := { Pws.reset with rails := [(3, 0)] }, now := 2500000 }
      { u with moves := l.map (fun r => ⟨u.ioCycle, r, (supply 4 1 1).body, u.body⟩) }
    (s []).beaten 2 = false ∧ (s [1]).beaten 2 = true ∧ (s [5]).beaten 2 = false ∧ ((s [5]).unmoved 2).mstate = 4 ∧ ((s [1]).unmoved 2).mstate = 5
      ∧ (∃ x ∈ (s []).pws.rails, x.1 = 3 ∧ x.2 + 2500000 ≤ (s []).now) ∧ (s []).railOverdue 2 = false := by decide +kernel
theorem test_RailsClockAndWatchdogs_engines : (fs [(CLV.STAT_MODE, 0), (CLV.ENG_RUN_V 13, 1), (CLV.ENG_RUN_V 14, 1)]).runningOn 13 = some 0
    ∧ (fs [(CLV.STAT_MODE, 0), (CLV.ENG_RUN_V 14, 1)]).runningOn 14 = some 0 ∧ (fs [(CLV.STAT_MODE, 0)]).graphMode = false
    ∧ State.reset.graphMode = true ∧ State.reset.mstate = 2 := by decide +kernel

/-- A module at a step of its start-up or recovery. -/
def starting (st step : Nat) : State := { supply st 1 1 with pws := { Pws.reset with recStep := step } }

/-- A manager in READY that may enter RUN, with what else is set. -/
def ready (l : List (Field × Nat)) : State :=
  fs ([(PWS.MODSTATE_STATE, 4), (FOV.STAT_ROLE, 1), (SYS.LC_STATE, 2), (PWS.STAT_STORE_OK, 1), (TIMEEXT.STATUS_SYNC 0, 1), (PLC.CFG_EN, 0)] ++ l)

/-- A manager with the comparator that R213 asks for. -/
def manager : State :=
  ready [(PLC.CFG_TSEL, 1), (TCMP.CTRL_EN 1, 1), (TCMP.CTRL_TOKEN 1, 1), (TCMP.CTRL_TAG 1, State.reset.f PLC.TAGS_PTAG),
    (⟨TCMP.PERIOD 1, 0, 32⟩, 1000000), (⟨TCMP.VALUE 1, 0, 32⟩, (State.reset.rd (TCMP.VALUE 0)).toNat)]

theorem test_StartUpAndModuleCommands : (starting 2 0).pws.recStep = 0 ∧ (starting 8 1).pws.recStep = 1 ∧ (starting 2 3).candidates = []
    ∧ (starting 8 5).mstate = 8 ∧ (starting 8 5).pws.recStep = 5 ∧ (supply 5 1 1).saf.faults = []
    ∧ { supply 6 1 1 with saf := { Saf.reset with faults := [⟨5, 16, 0, true, 0⟩] } }.saf.faults ≠ [] := by decide +kernel
theorem test_StartUpAndModuleCommands_still : (∀ n : Fin 96, (supply 5 1 1).axisStill n.val = true)
    ∧ (((supply 5 1 1).setPg 95 { PgUnit.reset with v := 1 }).setF (DPW.CFG_MODE 95) 1 |>.setF (bitAt SAF.GSTO_STO 11) 0).axisStill 95 = false
    ∧ (supply 5 1 1).beaten 5 = false
    ∧ { supply 5 1 1 with moves := [⟨0, 4, (supply 4 1 1).body, (supply 5 1 1).body⟩] }.beaten 5 = true := by decide +kernel
theorem test_StartUpAndModuleCommands_run : (ready []).mstate = 4 ∧ (ready []).ident.restart = none ∧ (ready []).f FOV.STAT_ROLE ≠ 0 ∧ (ready []).lc = 2
    ∧ (ready []).on PWS.STAT_STORE_OK = true ∧ (ready []).on (TIMEEXT.STATUS_SYNC 0) = true ∧ (ready []).mapBad = false
    ∧ (ready [(PLCJ.JMAP_EN 0, 1)]).mapBad = true ∧ (ready [(PLC.CFG_TSEL, 0)]).runRefusal = (true, [PLC.STAT_ERR_ARG])
    ∧ (manager.setF FOV.STAT_WITNESS 1).runRefusal = (true, [FOV.STAT_ERR_ARG]) ∧ manager.runRefusal = (false, []) ∧ manager.mapBad = false
    ∧ (manager.setF (PLCJ.JMAP_EN 0) 1).mapBad = true := by decide +kernel

/-- Ring 0 of 16 entries in READY, with its state. -/
def ring0 (l : List (Field × Nat)) (x : Ring) : State :=
  (fs ([(PWS.MODSTATE_STATE, 4), (RP.CFG_EN 0, 1), (RP.CFG_LOG2SIZE 0, 4), (RP.CFG_FORMAT 0, 0), (RP.CFG_TARGET 0, 0)] ++ l)).setRing 0 x

theorem test_HostRings_doorbells : State.reset.reaches svc (RP.SQDB 15) ∧ State.reset.reaches svc (RP.CQDB 15) ∧ State.reset.reaches svc (RP.CFG 15)
    ∧ 2 ^ (ring0 [] Ring.reset).f (RP.CFG_LOG2SIZE 0) = 16 ∧ (ring0 [] Ring.reset).on (RP.CFG_EN 0) = true
    ∧ State.reset.on (RP.CFG_EN 0) = false ∧ getBits 3 4 0x20#32 = 4 ∧ getBits 3 4 0x60#32 = 12 ∧ getBits 3 4 0x68#32 = 13 := by
  unfold State.reaches; decide +kernel
theorem test_HostRings_indices : ∀ x ∈ [((15 : Nat), false), (16, true)],
    (nx (exec (.sqDoorbell svc 0 (BitVec.ofNat 32 x.1)) (ring0 [] Ring.reset))).on (RP.STAT_DB_ERR 0) = x.2 := by decide +kernel
theorem test_HostRings_cq : ∀ x ∈ [((3 : Nat), false), (4, true)],
    (nx (exec (.cqDoorbell svc 0 (BitVec.ofNat 32 x.1)) (ring0 [(RP.CQTAIL_TAIL 0, 3)] Ring.reset))).on (RP.STAT_DB_ERR 0) = x.2 := by decide +kernel
theorem test_HostRings_turn : let s := ring0 [] { Ring.reset with tail := 1 }
    s.ringTurn = some 0 ∧ (ring0 [] Ring.reset).ringTurn = none ∧ s.f (RP.CFG_LOG2SIZE 0) ≤ 12 ∧ s.romService = false
      ∧ (ring0 [] { Ring.reset with tail := 1, flight := [⟨9#16, 5#16, 1, 2⟩] }).ringTurn = some 0
      ∧ (sqe2 (leBytes (5 + 255 * 2 ^ 32) 64)).flags = 0 ∧ (sqe2 (leBytes (5 + 255 * 2 ^ 32) 64)).rsvd = 0
      ∧ (sqe2 (leBytes (5 + 255 * 2 ^ 32) 64)).module = 0xFF ∧ (sqe2 (leBytes (5 + 255 * 2 ^ 32) 64)).op ∈ hostCodes
      ∧ (sqe2 (leBytes (5 + 255 * 2 ^ 32) 64)).command (.ring 0 5#16) false = some (.nop (.ring 0 5#16))
      ∧ (sqe2 (leBytes (5 + 255 * 2 ^ 16 + 255 * 2 ^ 32) 64)).op ∉ hostCodes ∧ (sqe2 (leBytes (2 ^ 24) 64)).flags.testBit 0 = true := by decide +kernel
theorem test_HostRings_completion : let s := { ring0 [(RP.CQTAIL_TAIL 0, 15)] { Ring.reset with flight := [⟨9#16, 5#16, 1, 2⟩] } with
      cqes := [⟨.ring 0 9#16, 0, 7#64, true, none⟩] }
    s.cqes.find? (fun c => decide (viaRing c.via = some 0)) = some ⟨.ring 0 9#16, 0, 7#64, true, none⟩
      ∧ (s.ringU 0).flight.find? (fun y => decide (y.n = 9#16)) = some ⟨9#16, 5#16, 1, 2⟩ ∧ (nx (exec (.cqeWrite 0 true) s)).f (RP.CQTAIL_TAIL 0) = 0
      ∧ State.reset.cqes.find? (fun c => decide (viaRing c.via = some 0)) = none := by decide +kernel
theorem test_HostRings_coalescing : (ring0 [(RP.CFG_IEN 0, 1)] { Ring.reset with unsig := 1 }).on (RP.CFG_IEN 0) = true
    ∧ 0 < ((ring0 [] { Ring.reset with unsig := 1 }).ringU 0).unsig ∧ State.reset.on (MSIX.CTRL_MASK 0) = true
    ∧ (fs [(MSIX.CTRL_MASK 0, 0)]).on (MSIX.CTRL_MASK 0) = false := by decide +kernel

theorem test_HostCommandsAndLink : let s := { supply 4 1 1 with bbs := { Bbs.reset with fwd := [(0, 5#16, 9)] } }
    s.mstate = 4 ∧ (∃ x ∈ s.bbs.fwd, x.1 = 0 ∧ x.2.1 = 5#16 ∧ x.2.2 = 9) ∧ (∀ x ∈ s.bbs.fwd, x.2.2 ≠ 8)
      ∧ ({ s.put .shared 0x40 1 2 with nmg := Nmg.reset }.load .shared 0x40 64) % 256 = 2 ∧ (0xFF08#16).toNat > 0xFF07
      ∧ (sqe2 (leBytes (5 + 255 * 2 ^ 32) 64)).flags < 2 ∧ (supply 1 0 0).mstate < 2 ∧ 2 ≤ (supply 2 0 0).mstate
      ∧ { supply 8 0 0 with regs := ((supply 8 0 0).setF PWS.STAT_NO_IMAGE 1).regs }.romService = true := by decide +kernel

theorem test_RegisterAccess_bits : let row : RegRow := ⟨0, 1, 0, 1, 2, 4, 0, 0⟩
    row.rw.testBit 0 = true ∧ row.w1c.testBit 0 = false ∧ row.w1s.testBit 0 = false ∧ row.w1c.testBit 1 = true ∧ row.rw.testBit 1 = false
      ∧ row.w1s.testBit 2 = true ∧ row.rw.testBit 3 = false := by decide
theorem test_RegisterAccess : let s := { supply 4 1 1 with pws := { Pws.reset with readyOnce := true } }
    s.pws.readyOnce = true ∧ s.romService = false ∧ 2 ≤ s.mstate ∧ s.pws.stopped = false ∧ State.reset.reaches svc 0x03FFFFFC
      ∧ hasReg 0x03FFFFFC = true ∧ hasReg 0x01C00000 = true ∧ hasReg 0x01BFFFFC = false ∧ hasReg PWS.MODSTATE = true
      ∧ s.f ⟨HQ.BAR2BASE, 0, 5⟩ * 2 ^ 28 + (0x10000000 - 0x10000000) + 4 ≤ 0x200000000 - 0x800000
      ∧ 0x200000000 - 0x800000 < (s.setF ⟨HQ.BAR2BASE, 0, 5⟩ 31).f ⟨HQ.BAR2BASE, 0, 5⟩ * 2 ^ 28 + (0x1FFFFFFC - 0x10000000) + 4
      ∧ hasReg (TB.NS 0) = true ∧ hasReg (TB.NS 0 + 4) = true := by
  unfold State.reaches; decide +kernel
theorem test_RegisterAccess_barred : noWrite .bbone 0x01C00000 = true ∧ noWrite (.eng 15) (PFB.CFG 95) = true ∧ noWrite svc (PFB.CFG 95) = false
    ∧ noWrite .bbone 0x01BFFFFC = false ∧ ¬State.reset.reaches (.eng 15) (PFB.CTRL 0) := by
  unfold State.reaches; decide +kernel
theorem test_RegisterAccess_window : let s := { supply 4 1 1 with pws := { Pws.reset with readyOnce := true } }
    (nx (exec (.registerWrite svc 0x03FFFFFC 4 0x12345678#32 0#32) s)).load .shared 0xFFFFFC 4 = 0x12345678
      ∧ (nx (exec (.registerWrite .host 0x10000000 2 0x12345678#32 0#32) s)).load .ddr (s.f ⟨HQ.BAR2BASE, 0, 5⟩ * 2 ^ 28) 4 = 0x5678
      ∧ (nx (exec (.registerWrite .host 0x20FFFFFC 4 0#32 0#32) s)).on HQ.GSTAT_BAR4_WR = true
      ∧ (nx (exec (.registerWrite .host 0x21000000 4 0#32 0#32) s)).on HQ.GSTAT_BAR4_WR = false := by decide +kernel

/-- A cell frame of a class without payload. -/
def cellFrame (cls : Byte) : CellFrame := ⟨1#8, cls, 0#16, 5#8, 0xFF#8, 0#16, 0#32, 0#32, 0#48, 26, .bytes [], 0#48, 0x88B5#16, 0#3, 0#12⟩

/-- Port p up, with a state of the switch. -/
def switch (p : Nat) (x : Bbs) : State := { fs [(BBP.CFG_EN p, 1), (BBP.STAT_LINK p, 1), (BBS.GCFG_CELL_ID, 0)] with bbs := x }

/-- An item of a transmit queue of which so many bytes have left. -/
def item (sent : Nat) : TxItem := ⟨cellFrame 1#8, none, [], sent⟩

theorem test_BackboneSwitch_frames : let s (sent : Nat) := switch 5 { Bbs.reset with txq := ⟨[(47, [item sent]), (55, [item 0])]⟩ }
    (s 0).on (BBP.CFG_EN 5) = true ∧ (s 0).on (BBP.STAT_LINK 5) = true ∧ (s 0).mayStart 5 7 = true ∧ (s 0).txQueue 5 7 = [item 0]
      ∧ (s 0).mayLeave 5 7 = some (frameBytes 26 false) ∧ (s 20).mayLeave 5 7 = some (frameBytes 26 false - 20)
      ∧ (∀ c ∈ [0, 1, 2, 3, 4, 5, 6], (s 0).mayStart 5 c = false) ∧ (∀ c ∈ [(1 : Byte), 2, 3, 4, 5, 6], (s 0).headerGood (cellFrame c) = true)
      ∧ (s 0).headerGood (cellFrame 7#8) = false ∧ ((s 0).wr 0x00400104 0x80#32).classFrer 1 = true ∧ ((s 0).wr 0x00400104 0#32).classFrer 1 = false
      ∧ (frerStep (some ⟨5#16, 0#32, 31⟩) 5#16).pass = false ∧ (frerStep none 5#16).pass = true
      ∧ (s 0).txQueue 6 7 = [item 0] ∧ (item 0).ports = [] ∧ ((nx (exec (.frameTransmit 6 (.queued 7)) ((s 0).wr 0x00400104 0#32))).txQueue 5 7) = [item 0, item 0]
      ∧ (nx (exec (.frameTransmit 5 (.queued 7)) (s 0))).txQueue 5 7 = [] := by decide +kernel
theorem test_BackboneSwitch_received : let s := switch 5 Bbs.reset
    let f : CellFrame := cellFrame 1#8
    let q := switch 5 { Bbs.reset with rxq := ⟨[(40, [f])]⟩ }
    (nx (exec (.bbsFrameReceive 5 { f with etype := 0#16 } none 64) s)).rxQueue 47 = [{ f with etype := 0#16 }]
      ∧ (nx (exec (.bbsFrameReceive 5 f none 63) s)).f BBS.DROP_HDR = 1 ∧ (nx (exec (.bbsFrameReceive 5 f none 1523) s)).f BBS.DROP_HDR = 1
      ∧ q.rxQueue 40 = f :: [] ∧ f.etype = 0x88B5#16 ∧ f.src.toNat = 5 ∧ f.body = .bytes [] ∧ f.cls = 1#8 := by decide +kernel
theorem test_BackboneSwitch_meter : (switch 5 Bbs.reset).excess 5 41 64 = false
    ∧ (switch 5 { Bbs.reset with meter := ⟨[(2601, (meterRoom, 0))]⟩ }).excess 5 41 64 = true := by
  constructor
  · have h : (switch 5 Bbs.reset).meterAhead 5 41 = 0 := by decide +kernel
    simp only [State.excess, h, meterRoom]
    exact decide_eq_false (by omega)
  · have h : (switch 5 { Bbs.reset with meter := ⟨[(2601, (meterRoom, 0))]⟩ }).meterAhead 5 41 = meterRoom := rfl
    simp only [State.excess, h]
    exact decide_eq_true (by omega)
theorem test_BackboneSwitch_fragment : let s := switch 0 { Bbs.reset with txq := ⟨[(0, [⟨{ cellFrame 4#8 with n := 1000 }, none, [], 0⟩])]⟩ }
    let gate : Gcl := ⟨0, 1000000, [(1, 2000), (254, 998000)]⟩
    let t := { s with bbs := { s.bbs with oper := ⟨[(0, some gate)]⟩ }, regs := (s.setF (BBP.STAT_PREEMPT_ACT 0) 1 |>.setF (BBP.STAT_SPEED_ACT 0) 3
      |>.setF (BBP.CFG_GCL_EN 0) 1 |>.wr 0x00400110 0#32).regs }
    t.mayLeave 0 0 = some 601 ∧ 601 < frameBytes 1000 false := by decide +kernel
theorem test_BackboneSwitch_time : let s := switch 5 Bbs.reset
    let wire (i : Instr) : Option WireFrame := (nx (exec i s)).bbs.wire.get (fun _ => none) 5
    s.gateLeft 5 7 = none ∧ wire (.frameTransmit 5 (.sync 1 .udp4 true)) = some (.sync 1 true true 0#32 0 0)
      ∧ wire (.frameTransmit 5 (.sync 0 .udp4 true)) = none ∧ wire (.frameTransmit 5 (.relay 0 .l2 0x7FFFFFFFFC0 3)) = some (.relay 0 false 67)
      ∧ wire (.frameTransmit 5 (.queued 7)) = none := by decide +kernel
theorem test_BackboneSwitch_links : (switch 0 Bbs.reset).bbs.sfpOff.testBit 0 = false ∧ 2 ≤ (switch 0 Bbs.reset).mstate
    ∧ { switch 0 Bbs.reset with bbs := { Bbs.reset with sfpOff := 1 } }.bbs.sfpOff.testBit 0 = true
    ∧ (fs [(BBP.STAT_LINK 5, 0)]).on (BBP.STAT_LINK 5) = false ∧ State.reset.reaches svc (BBP.GCLCTRL 6) := by
  unfold State.reaches; decide +kernel
theorem test_BackboneSwitch_gates : let s (iv : Nat) := fs [(BBP.GCL_INTERVAL 3 0, iv), (BBP.GCLCYC_V 3, iv)]
    (nx (exec (.gclCommit svc 3 0x201#32) (s 100))).on (BBP.STAT_GCL_PEND 3) = true ∧ (nx (exec (.gclCommit svc 3 0x201#32) (s 99))).on (BBP.STAT_GCL_ERR 3) = true
      ∧ (nx (exec (.gclCommit svc 3 0x301#32) (s 100))).on (BBP.STAT_ERR_ARG 3) = true
      ∧ getBits 0 9 0x201#32 = 1 ∧ getBits 0 9 0x101#32 = 257 ∧ getBits 0 9 0x100#32 = 256 := by decide +kernel
theorem test_BackboneSwitch_running : let g : Gcl := ⟨0, 200, [(255, 100), (1, 100)]⟩
    let s := (switch 3 { Bbs.reset with pend := ⟨[(3, some g)]⟩, oper := ⟨[(3, some g)]⟩ }).wr (TB.NS 0) 100#32
    s.gclPend 3 = some g ∧ s.gclDue g = true ∧ s.gclDue { g with start := 101 } = false ∧ s.gclOper 3 = some g
      ∧ s.cellAt (s.gateEnd 3 g) = true ∧ (s.wr (TB.NS 0) 99#32).cellAt (s.gateEnd 3 g) = false ∧ s.f (BBP.GCLOPER_ENTRY 3) + 1 < g.list.length
      ∧ g.list.length ≤ (s.setF (BBP.GCLOPER_ENTRY 3) 1).f (BBP.GCLOPER_ENTRY 3) + 1 := by decide +kernel

/-- A cell record of modules with their roles and flags. -/
def cellOf : Nat → List (Nat × Nat × Nat) → Nat
  | _, [] => 0
  | i, m :: l => 2 ^ 80 + m.1 * 2 ^ (512 + 128 * i) + m.2.1 * 2 ^ (520 + 128 * i) + m.2.2 * 2 ^ (528 + 128 * i) + cellOf (i + 1) l

/-- Module `own` of a cell with the pair 5 and 9 and the witness 7. -/
def pairCell (own role part : Nat) : State :=
  { fs [(BBS.GCFG_MOD, own), (FOV.STAT_ROLE, role), (FOV.STAT_PART, part)] with fov := { Fov.reset with bcr := cellOf 0 [(5, 3, 0), (9, 4, 0), (7, 2, 1)] } }

theorem test_FailOver : (pairCell 9 4 0).isPair = true ∧ (5 : Nat) ∈ (pairCell 9 4 0).pairMods ∧ (pairCell 9 4 0).ownMod = 9
    ∧ (pairCell 9 4 0).witnessMod = some 7 ∧ (pairCell 9 4 0).isWitness = false ∧ (pairCell 9 4 1).isActive = true
    ∧ (pairCell 9 4 0).isActive = false ∧ (pairCell 9 4 0).silent 7 = true ∧ (pairCell 9 4 0).on FOV.STAT_WIT_LOST = false
    ∧ ((pairCell 7 2 0).setF FOV.STAT_WITNESS 1).isWitness = true ∧ (pairCell 7 2 0).isWorker = true
    ∧ ({ pairCell 9 4 1 with fov := { (pairCell 9 4 1).fov with promote := true } }).fov.promote = true
    ∧ ((pairCell 9 4 0).rd FOV.EPOCH).toNat < leNat (sub (leBytes (2 ^ 32 + 5 * 2 ^ 64) 16) 4 4)
    ∧ leNat (sub (leBytes (2 ^ 32 + 5 * 2 ^ 64) 16) 8 1) = 5 := by decide +kernel
theorem test_FailOver_starvation : let s := ((pairCell 7 2 0).setF (PRG.CFG_SRC 127) 2).setF (PRG.STAT_STARVED 127) 1
    s.on FOV.STAT_SS1_REQ = false ∧ s.isWorker = true ∧ s.f (PRG.CFG_SRC 127) = 2 ∧ s.on (PRG.STAT_STARVED 127) = true ∧ (pairCell 7 2 0).covered.length = 0
      ∧ ((pairCell 7 2 0).setF (PRG.CFG_SRC 95) 2).covered = [95] := by decide +kernel
theorem test_FailOver_epochs : let l := leBytes (2 ^ 32 + 9 * 2 ^ 64) 16
    (nx (exec (.hbReceive 5 false l) (pairCell 9 4 0))).f FOV.STAT_PART = 1
      ∧ (nx (exec (.hbReceive 9 false l) (pairCell 5 3 1))).on FOV.STAT_FENCED = true := by decide +kernel

/-! ## The checks of signed data: the check values of the CRCs, the digest of "abc" (FIPS 180-4), and a signature whose two multiples
are the base point and the key -/

theorem test_crc32 : crc32 [0x31, 0x32, 0x33, 0x34, 0x35, 0x36, 0x37, 0x38, 0x39] = 0xCBF43926 := by decide +kernel
theorem test_crc32c : crc32c 0xFFFFFFFF [0x31, 0x32, 0x33, 0x34, 0x35, 0x36, 0x37, 0x38, 0x39] = 0xE3069283 := by decide +kernel
theorem test_sha384 : sha384 [0x61, 0x62, 0x63] = 0xcb00753f45a35e8bb5a03d699ac65007272c32ab0eded1631a8b605a43ff5bed8086072ba1e7cc2358baeca134c825a7 := by
  decide +kernel
theorem test_ecdsa : let key : List Byte := 4#8 ::
      (beBytes 48 0xb42062144550e6f1c1eab261bc2f03156627cfba964fb8b26e2ec1644432b6873cf698069cf8aabcd7ebc2754650b412
        ++ beBytes 48 0xced6ff89af867f08cc08fa4c6a369dc0e2ee4f55350a07a3820e84657604c645d002b3907e62a6a02e4847ea6bb59fbc)
    let r := beBytes 48 0xdb475240477c5e4497a2c5724ca485f5b1f2c2fc0602b92bae234238ec8d4e873a7148c739593e95a7f4dfe7c6e69f69
    ecdsaGood key [2#8] (r ++ r) = true := by decide +kernel

/-! ## Hypotheses of the statement OwnEffects, where no state above meets them together -/

theorem test_OwnEffects_capture : let s := (capture 0 0 1 Cap.reset).setF CAP.TRIG_SRC 3 |>.setF PWS.MODSTATE_STATE 5
    s.reaches svc CAP.CTRL ∧ s.f CAP.STAT_STATE = 0 ∧ s.mstate = 5 ∧ s.capChans ≠ [] ∧ s.f CAP.CFG_MODE ≠ 2 ∧ 1 ≤ s.f CAP.LEN_PRE
      ∧ s.f CAP.TRIG_SRC ≠ 0 ∧ s.rd CAP.WRPTR = s.rd CAP.RDPTR ∧ s.cap.dones = [] ∧ (nx (exec (.capStart svc) s)).f CAP.STAT_STATE = 1 := by
  unfold State.reaches; decide +kernel
theorem test_OwnEffects_triggers : let s (mode st : Nat) := capture mode st 1 { Cap.reset with live := true, rearmAt := some 0 }
    (s 0 1).reaches svc CAP.CTRL ∧ (s 0 2).reaches svc CAP.CTRL ∧ (s 0 1).cap.trigAt ≠ some (s 0 1).now ∧ (s 0 1).cap.rowAt ≠ some (s 0 1).now
      ∧ 1 ≤ (s 0 1).f CAP.LEN_POST ∧ (s 0 1).capSelects .force = true ∧ (s 2 4).f CAP.STAT_STATE = 4 ∧ (s 2 4).f CAP.CFG_MODE = 2
      ∧ (nx (exec (.capForce svc) (s 0 2))).f CAP.STAT_STATE = 3 ∧ (nx (exec .capRearm (s 2 4))).f CAP.STAT_STATE = 3 := by
  unfold State.reaches; decide +kernel
theorem test_OwnEffects_doors : (doorAt 0 true).reaches svc (DOR.CMD 0) ∧ (nx (exec (.doorOpen svc 0 7#16) (doorAt 0 true))).f (DOR.RES_RESULT 0) = 1
    ∧ (nx (exec (.doorStop svc 0 7#16) (doorAt 6 true))).f (DOR.RES_RESULT 0) = 1
    ∧ (nx (exec (.doorReset svc 0 7#16) (doorAt 8 true))).f (DOR.RES_SEQ 0) = 7
    ∧ ((doorAt 0 true).setF (DOR.CFG_EN 0) 0).on (DOR.CFG_EN 0) = false
    ∧ ((doorAt 0 true).setF (DOR.CFG_EN 0) 0).doorCfgBad 0 0x100#32 = false := by
  unfold State.reaches; decide +kernel
theorem test_OwnEffects_tokens : let s := clove { Clv.reset with waiters := [1023, 5] }
    s.queueFull = false ∧ s.clv.fifo = [] ∧ s.f (CLV.PARK_V 4) = 0 ∧ s.waiterFor 12 = none ∧ s.f NMG.TAGS_CMD_TAG ≠ 12
      ∧ (nx (exec (.tokenArrive 12#16 7#32 false) s)).clv.store = [⟨12#16, 7#32, 0⟩] := by decide +kernel
theorem test_OwnEffects_saffron : let s := saffron [(SAF.SI_TPOK, 15)] { Saf.reset with rel := ⟨[(0, 1)]⟩ }
    s.relStage 0 = 1 ∧ (nx (exec (.stoReleaseCheck 0 true) s)).relStage 0 = 2 ∧ (nx (exec (.safcDiagnostic (.cell 5) false) s)).saf.hard = true
      ∧ (nx (exec .safetyCycleOverrun s)).groupIn 11 = true ∧ (nx (exec (.testPulse 3 false 0#16 0#16) s)).on (bitAt SAF.SI_TPOK 3) = false
      ∧ (nx (exec (.safetyCycleStart 0 0#12) (fs [(SAF.STAT_CYCLE, 65535)]))).f SAF.STAT_CYCLE = 0 := by decide +kernel
theorem test_OwnEffects_registers : let s := { supply 4 1 1 with pws := { Pws.reset with readyOnce := true } }
    s.reaches svc (0x03000000 + 4 * 0x3FFFFF) ∧ s.reaches svc PWS.STAT ∧ (regRow PWS.STAT).isSome = true
      ∧ { s with ecc := [⟨0, MemId.shared.base + 4, true⟩] }.readBad 0x03000004 = true ∧ s.readBad 0x03000004 = false
      ∧ (nx (exec (.registerWrite svc PWS.STAT 4 0xFFFFFFFF#32 0#32) (s.setF PWS.STAT_RAIL_FLT 1))).on PWS.STAT_RAIL_FLT = false
      ∧ (nx (exec (.registerWrite svc PWS.STAT 4 0xFFFFFFFF#32 0xFFFFFFFF#32) (s.setF PWS.STAT_RAIL_FLT 1))).on PWS.STAT_RAIL_FLT = true := by
  unfold State.reaches; decide +kernel
theorem test_OwnEffects_drives : let s := State.reset.setLeg 0 1 { Leg.reset with lvl := .high, pend := some 4, delayed := some .low }
    ((s.legU 0 1).pend ≠ none ∧ (s.legU 0 1).lvl = .high ∧ (s.legU 0 1).delayed ≠ none ∧ s.f (DPW.CFG_MODE 0) = 0 ∧ (drive 0 2 1).on (DPW.CFG_SYNC 0) = true)
      ∧ (State.reset.pgU 0).ss1 = none ∧ (State.reset.pgU 0).v = 0 ∧ (State.reset.pgU 0).a = 0 ∧ (State.reset.setF (PRG.STAT_TRACK 0) 0).on (PRG.STAT_TRACK 0) = false
      ∧ State.reset.f (PRG.CFG_SRC 0) = 0 ∧ State.reset.actBank 95 ≠ 1 ∧ State.reset.clearRefused 0 (2 ^ 3) = false := by decide +kernel
theorem test_OwnEffects_knot : let s := spline.bankWr svc (PRG.KNOT 0 0) 145000#32
    s.bankRd svc (PRG.KNOT 0 0) = 145000#32 ∧ getBits 1 31 (s.bankRd svc (PRG.KNOT 0 1)) = 0 ∧ s.bankRd svc (PRG.KNOT 0 6) = 0#32
      ∧ (s.bankRd svc (PRG.KNOT 0 1)).getLsbD 0 = false
      ∧ ((nx (exec (.pgKnotPush svc 0 0#32) s)).pgU 0).queue.map (·.t) = [20000, 145000] := by decide +kernel
theorem test_OwnEffects_images : (owner 4 2).hasRight (.ring 0 0#16) 3 = true ∧ (owner 4 2).served = true ∧ (owner 4 2).lc = 2
    ∧ 1 ≠ (owner 4 2).f SYS.BOOT_SLOT ∧ (owner 4 2).ident.img = none ∧ (owner 4 2).ident.restart = none
    ∧ (recorder (sysRec 4) none 0 0).recordBad 0 = false ∧ { recorder (sysRec 4) none 0 0 with ecc := [⟨3, 0, true⟩] }.recordBad 0 = true := by decide +kernel

end Sys2Proof.Tests
end

section
/-! PROOF of the statement RegisterAccess (R3 to R6, R20, R24, R25, R390, R391, R401). The rules of the operations
come first: stored bits of a register write, stored bytes of a memory, completions, who is answered. Then one equation
of `exec` for each case of REGISTER_WRITE, REG_READ and REG_WRITE. -/

namespace Sys2Proof.Machine

variable (s : State)

/-! ## Bits of a register write (R4, R6) -/

/-- Each bit of a register after a write, by the access codes of its row. -/
theorem getLsbD_regWrite (r : RegRow) (old v hw : Word) (i : Fin 32) :
    (regWrite r old v hw).getLsbD i.val
      = (((old.getLsbD i.val && !r.rw.testBit i.val || v.getLsbD i.val && r.rw.testBit i.val)
            && !(v.getLsbD i.val && r.w1c.testBit i.val && !hw.getLsbD i.val))
          || v.getLsbD i.val && r.w1s.testBit i.val || hw.getLsbD i.val && r.w1c.testBit i.val) := by
  have hbit (n : Nat) : (BitVec.ofNat 32 n).getLsbD i.val = n.testBit i.val := by
    rw [BitVec.getLsbD_ofNat, decide_eq_true i.isLt, Bool.true_and]
  simp only [regWrite, BitVec.getLsbD_or, BitVec.getLsbD_and, BitVec.getLsbD_not, hbit, i.isLt, decide_true, Bool.true_and]

section bits
variable {r : RegRow} {old v hw : Word} {i : Fin 32}

theorem getLsbD_regWrite_rw (hrw : r.rw.testBit i.val = true) (hc : r.w1c.testBit i.val = false)
    (hs : r.w1s.testBit i.val = false) : (regWrite r old v hw).getLsbD i.val = v.getLsbD i.val := by
  rw [getLsbD_regWrite, hrw, hc, hs]
  simp

theorem getLsbD_regWrite_w1c (hc : r.w1c.testBit i.val = true) (hrw : r.rw.testBit i.val = false)
    (hs : r.w1s.testBit i.val = false) :
    (regWrite r old v hw).getLsbD i.val = ((old.getLsbD i.val && !v.getLsbD i.val) || hw.getLsbD i.val) := by
  rw [getLsbD_regWrite, hrw, hc, hs]
  cases hw.getLsbD i.val <;> simp

theorem getLsbD_regWrite_w1s (hs : r.w1s.testBit i.val = true) (hrw : r.rw.testBit i.val = false)
    (hc : r.w1c.testBit i.val = false) :
    (regWrite r old v hw).getLsbD i.val = (old.getLsbD i.val || v.getLsbD i.val) := by
  rw [getLsbD_regWrite, hrw, hc, hs]
  simp

theorem getLsbD_regWrite_kept (hrw : r.rw.testBit i.val = false) (hc : r.w1c.testBit i.val = false)
    (hs : r.w1s.testBit i.val = false) : (regWrite r old v hw).getLsbD i.val = old.getLsbD i.val := by
  rw [getLsbD_regWrite, hrw, hc, hs]
  simp

end bits

/-! ## Stores of several bytes -/

/-- A store changes nothing but memory and the ECC errors in it. -/
theorem State.put_eq (mm : MemId) (n : Nat) : ∀ (s : State) (a v : Nat),
    s.put mm a n v = { s with mem := (s.put mm a n v).mem, ecc := (s.put mm a n v).ecc } := by
  induction n with
  | zero => intro s a v; rfl
  | succ n ih => intro s a v; exact ih (s.setByte mm a (BitVec.ofNat 8 v)) (a + 1) (v / 256)

@[simp] theorem State.put_lastResp (mm : MemId) (a n v : Nat) : (s.put mm a n v).lastResp = s.lastResp := by
  rw [State.put_eq]

@[simp] theorem State.put_regs (mm : MemId) (a n v : Nat) : (s.put mm a n v).regs = s.regs := by
  rw [State.put_eq]

@[simp] theorem State.put_cqes (mm : MemId) (a n v : Nat) : (s.put mm a n v).cqes = s.cqes := by
  rw [State.put_eq]

/-- A store leaves every byte of the memory outside its range. -/
theorem State.byte_put_outside (mm : MemId) (n : Nat) : ∀ (s : State) (a v b : Nat), b < a ∨ a + n ≤ b →
    (s.put mm a n v).byte mm b = s.byte mm b := by
  induction n with
  | zero => intro s a v b _; rfl
  | succ n ih =>
    intro s a v b hb
    have hne : mm.base + b ≠ mm.base + a := by omega
    rw [State.put, ih _ _ _ _ (by omega), State.byte_setByte, if_neg hne]

/-- What a store has written is what a load of the same bytes gives. -/
theorem State.load_put_same (mm : MemId) (n : Nat) : ∀ (s : State) (a v : Nat),
    (s.put mm a n v).load mm a n = v % 256 ^ n := by
  induction n with
  | zero => intro s a v; simp [State.load, Nat.mod_one]
  | succ n ih =>
    intro s a v
    have hfirst : (s.put mm a (n + 1) v).byte mm a = BitVec.ofNat 8 v := by
      rw [State.put, State.byte_put_outside mm n _ _ _ _ (Or.inl (Nat.lt_succ_self a)), State.byte_setByte_same]
    calc (s.put mm a (n + 1) v).load mm a (n + 1)
        = (BitVec.ofNat 8 v).toNat + 256 * (v / 256 % 256 ^ n) := by rw [State.load, hfirst, State.put, ih]
      _ = v % 256 + 256 * (v / 256 % 256 ^ n) := congrArg (· + _) (BitVec.toNat_ofNat v 8)
      _ = v % 256 ^ (n + 1) := by rw [Nat.pow_succ', Nat.mod_mul]

/-- A load depends on memory alone. -/
theorem State.load_eq_of_mem {s t : State} (mm : MemId) (h : t.mem = s.mem) (n : Nat) : ∀ a : Nat,
    t.load mm a n = s.load mm a n := by
  induction n with
  | zero => intro a; rfl
  | succ n ih => intro a; simp only [State.load, State.byte, h, ih]

/-- A stored word reads back. -/
theorem State.load_put_word (mm : MemId) (a : Nat) (v : Word) : (s.put mm a 4 v.toNat).load mm a 4 = v.toNat := by
  rw [State.load_put_same]
  exact Nat.mod_eq_of_lt v.isLt

/-! ## Completions (R401) -/

@[simp] theorem State.complete_ansIn (via : Via) (res val : Nat) : (s.complete via res val).ansIn = s.ansIn := by
  cases via <;> rfl

/-- A completed command changes nothing but entries, their due writes and, where the state forbids it, a record. -/
theorem State.cmdDone_eq (via : Via) (res val : Nat) :
    s.cmdDone via res val
      = { s with cqes := (s.cmdDone via res val).cqes, agenda := (s.cmdDone via res val).agenda,
                 ansIn := (s.cmdDone via res val).ansIn } := by
  unfold State.cmdDone
  split
  · cases via <;> rfl
  · cases via <;> rfl

@[simp] theorem State.cmdDone_regs (via : Via) (res val : Nat) : (s.cmdDone via res val).regs = s.regs := by
  rw [State.cmdDone_eq]

@[simp] theorem State.cmdDone_mem (via : Via) (res val : Nat) : (s.cmdDone via res val).mem = s.mem := by
  rw [State.cmdDone_eq]

@[simp] theorem State.cmdDone_rd (via : Via) (res val o : Nat) : (s.cmdDone via res val).rd o = s.rd o := by
  unfold State.rd
  rw [State.cmdDone_regs]

/-- The submitter of a command gets one final entry for it. -/
theorem State.cmdDone_cqes {via : Via} (res val : Nat) (h : via ≠ .none) :
    (s.cmdDone via res val).cqes = s.cqes ++ [⟨via, res, BitVec.ofNat 64 val, true, none⟩] := by
  have hq : (if res = 6 then s.sysIllegal else s).cqes = s.cqes := by split <;> rfl
  unfold State.cmdDone
  cases via with
  | none => exact absurd rfl h
  | ring r n => simp only [State.complete, State.sched_cqes, hq]
  | rcd src r n => simp only [State.complete, State.sched_cqes, hq]

/-- A completion other than ILLEGAL_STATE makes no record. -/
theorem State.cmdDone_ansIn (via : Via) {res : Nat} (val : Nat) (h : res ≠ 6) :
    (s.cmdDone via res val).ansIn = s.ansIn := by
  unfold State.cmdDone
  rw [if_neg h, State.complete_ansIn]

/-- A completion with ILLEGAL_STATE makes one record (R11). -/
theorem State.cmdDone_illegal_ansIn_length (via : Via) (val : Nat) :
    (s.cmdDone via 6 val).ansIn.length = s.ansIn.length + 1 := by
  rw [State.cmdDone, if_pos rfl, State.complete_ansIn, State.sysIllegal, State.record, List.length_append]
  rfl

/-! ## Who is answered (R20, R24, R25, R391) -/

theorem State.isIn_off_sleep : s.isIn [stOFF, stSLEEP] = decide (s.mstate < 2) := by
  rw [Bool.eq_iff_iff]
  simp only [State.isIn, stOFF, stSLEEP, List.contains_cons, List.contains_nil, Bool.or_false, Bool.or_eq_true,
    beq_iff_eq, decide_eq_true_eq]
  omega

theorem State.isIn_awake {s : State} (h : 2 ≤ s.mstate) : s.isIn [stOFF, stSLEEP] = false := by
  rw [State.isIn_off_sleep, decide_eq_false (Nat.not_lt.mpr h)]

theorem State.served_iff : s.served = true ↔ s.mstate = 4 ∨ s.mstate = 5 ∨ s.mstate = 6 := by
  simp [State.served, State.isIn, stREADY, stRUN, stSAFE]

theorem State.served_eq_false {s : State} (h : ¬(s.mstate = 4 ∨ s.mstate = 5 ∨ s.mstate = 6)) : s.served = false :=
  Bool.eq_false_iff.mpr (mt s.served_iff.mp h)

theorem inSaf_iff (off : Nat) : inSaf off = true ↔ 0x01C00000 ≤ off ∧ off < 0x01E00000 := decide_eq_true_iff

theorem atWindow_iff (off : Nat) : atWindow off = true ↔ 0x03000000 ≤ off ∧ off < 0x04000000 := decide_eq_true_iff

theorem hasReg_window {off : Nat} (h4 : off % 4 = 0) (hw : atWindow off = true) : hasReg off = true := by
  simp [hasReg, h4, hw]

/-- BAR2 and BAR4 answer the host at all: `bar2Write` and `bar4Write` check it first (R390, R391). -/
def State.barsUp (s : State) : Prop := s.pws.readyOnce = true ∧ s.romService = false ∧ 2 ≤ s.mstate

/-- A host write in the Saffron range, as the module answers it (R25). -/
def State.safWriteRefused (s : State) : State := (s.record 0x15 0x02 0 2 0#128).answer .error

/-- The record of a host write in the Saffron range has the code SAF_WRITE. -/
theorem State.record_safWrite :
    ∃ x, (s.record 0x15 0x02 0 2 0#128).ansIn = s.ansIn ++ [x] ∧ x.code = 0x1502#16 := ⟨_, rfl, rfl⟩

/-- An access that raises a flag changes its register and the answer alone. -/
theorem State.wrote_answer_raise (F : Field) (r : Resp) : s.wrote ((s.raise F).answer r) [F.off] :=
  ⟨fun o ho => s.rd_setF_ne F 1 o (by simpa using ho), rfl⟩

section bus
variable {s} {m : Sys2Proof.Master} {off : Nat}

theorem State.busW_asleep (f : State → State) (h : s.mstate < 2) : s.busW m off f = s.answer .error := by
  simp [State.busW, s.isIn_off_sleep, h]

theorem State.busW_saf (f : State → State) (h : 2 ≤ s.mstate) (hs : inSaf off = true) :
    s.busW .host off f = s.safWriteRefused := by
  simp [State.busW, State.isIn_awake h, hs, State.safWriteRefused]

theorem State.busW_refused (f : State → State) (hs : ¬(m = .host ∧ inSaf off = true))
    (h : s.reach m off = false ∨ noWrite m off = true) : s.busW m off f = s.answer .error := by
  have hs' : (decide (m = .host) && inSaf off) = false := by simpa using hs
  unfold State.busW
  rcases h with h | h
  · simp [hs', h]
  · simp [hs', h]

/-- A master that the module answers has its write done. -/
theorem State.reaches.busW_eq (f : State → State) (h : s.reaches m off) : s.busW m off f = f (s.answer .done) := by
  obtain ⟨hreach, hsaf, hbar⟩ := h
  have hup : s.isIn [stOFF, stSLEEP] = false := by
    unfold State.reach at hreach
    simp only [Bool.and_eq_true, Bool.not_eq_true'] at hreach
    exact hreach.1
  have hs' : (decide (m = .host) && inSaf off) = false := by simpa using hsaf
  simp [State.busW, hup, hs', hbar, hreach]

/-! ## REGISTER_WRITE (R3, R24, R390; log entry 20) -/

section registerWrite
variable {size : Nat} {v hw : Word}

theorem State.bar2Write_refused {o n : Nat} (h : ¬s.barsUp ∨ s.pws.stopped = true
    ∨ ddrTop < s.f ⟨HQ.BAR2BASE, 0, 5⟩ * 2 ^ 28 + o + n) : s.bar2Write o n v = s.answer .error := by
  unfold State.bar2Write
  rw [if_pos]
  simp only [s.isIn_off_sleep, Bool.or_eq_true, Bool.not_eq_true', decide_eq_true_eq]
  simp only [State.barsUp, not_and_or, Bool.not_eq_true, Bool.not_eq_false, Nat.not_le] at h
  tauto

theorem State.bar2Write_stored {o n : Nat} (hup : s.barsUp) (hst : s.pws.stopped = false)
    (hfit : s.f ⟨HQ.BAR2BASE, 0, 5⟩ * 2 ^ 28 + o + n ≤ ddrTop) :
    s.bar2Write o n v = (s.put .ddr (s.f ⟨HQ.BAR2BASE, 0, 5⟩ * 2 ^ 28 + o) n v.toNat).answer .done := by
  obtain ⟨hready, hrom, hstate⟩ := hup
  simp only [State.bar2Write, State.isIn_awake hstate, hready, hrom, hst, Nat.not_lt.mpr hfit, Bool.not_true,
    Bool.or_false, decide_false, Bool.false_eq_true, if_false]

theorem State.bar4Write_refused (h : ¬s.barsUp) : s.bar4Write = s.answer .error := by
  unfold State.bar4Write
  rw [if_pos]
  simp only [s.isIn_off_sleep, Bool.or_eq_true, Bool.not_eq_true', decide_eq_true_eq]
  simp only [State.barsUp, not_and_or, Bool.not_eq_true, Bool.not_eq_false, Nat.not_le] at h
  tauto

theorem State.bar4Write_discarded (hup : s.barsUp) : s.bar4Write = (s.raise HQ.GSTAT_BAR4_WR).answer .done := by
  obtain ⟨hready, hrom, hstate⟩ := hup
  simp [State.bar4Write, State.isIn_awake hstate, hready, hrom]

theorem State.busWrite_refused (hs : ¬(m = .host ∧ inSaf off = true))
    (h : hasReg off = false ∨ s.reach m off = false ∨ noWrite m off = true) :
    s.busWrite m off v hw = s.answer .error := by
  have hs' : (decide (m = .host) && inSaf off) = false := by simpa using hs
  unfold State.busWrite
  rw [hs', Bool.false_or]
  split
  next hreg => exact State.busW_refused _ hs (h.resolve_left (by simp [hreg]))
  next => rfl

theorem exec_registerWrite_bar2 (hlo : 0x10000000 ≤ off) (hhi : off < 0x20000000) (hsize : size ≤ 4) :
    exec (.registerWrite .host off size v hw) s = .next (s.bar2Write (off - 0x10000000) size v) :=
  congrArg ok (if_pos ⟨rfl, hlo, hhi, hsize⟩)

theorem exec_registerWrite_bar4 (hlo : 0x20000000 ≤ off) (hhi : off < 0x21000000) :
    exec (.registerWrite .host off size v hw) s = .next s.bar4Write :=
  congrArg ok ((if_neg (by omega)).trans (if_pos ⟨rfl, hlo, hhi⟩))

/-- Below 0x1000_0000 a 32-bit write is one in register space. -/
theorem exec_registerWrite_word (hlo : off < 0x10000000) :
    exec (.registerWrite m off 4 v hw) s = .next (s.busWrite m off v hw) :=
  congrArg ok ((if_neg (by omega)).trans ((if_neg (by omega)).trans (if_neg (by omega))))

/-- Another size than 32 bits is an error, and in the Saffron range a record too. -/
theorem exec_registerWrite_size (hlo : off < 0x10000000) (hsize : size ≠ 4) :
    exec (.registerWrite m off size v hw) s
      = .next (if decide (m = .host) && inSaf off && !s.isIn [stOFF, stSLEEP] then s.safWriteRefused
          else s.answer .error) :=
  congrArg ok ((if_neg (by omega)).trans ((if_neg (by omega)).trans (if_pos hsize)))

theorem exec_registerWrite_asleep (h : s.mstate < 2) :
    exec (.registerWrite m off size v hw) s = .next (s.answer .error) := by
  have hdown : ¬s.barsUp := fun hup => absurd hup.2.2 (Nat.not_le.mpr h)
  have hbus : s.busWrite m off v hw = s.answer .error := by
    unfold State.busWrite
    split
    · exact State.busW_asleep _ h
    · rfl
  have hin : s.isIn [stOFF, stSLEEP] = true := by simp [s.isIn_off_sleep, h]
  show execRegisterWrite m off size v hw s = ok (s.answer .error)
  unfold execRegisterWrite
  congr 1
  split_ifs with h2 h4 hsize hsaf
  · exact State.bar2Write_refused (Or.inl hdown)
  · exact State.bar4Write_refused hdown
  · simp [hin] at hsaf
  · rfl
  · exact hbus

theorem exec_registerWrite_saf (hup : 2 ≤ s.mstate) (hs : inSaf off = true) :
    exec (.registerWrite .host off size v hw) s = .next s.safWriteRefused := by
  have hlo : off < 0x10000000 := by have := (inSaf_iff off).mp hs; omega
  by_cases hsize : size = 4
  · subst hsize
    rw [exec_registerWrite_word hlo, State.busWrite, if_pos (by simp [hs]), State.busW_saf _ hup hs]
  · rw [exec_registerWrite_size hlo hsize, if_pos (by simp [hs, State.isIn_awake hup])]

theorem exec_registerWrite_refused (hlo : off < 0x10000000) (hs : ¬(m = .host ∧ inSaf off = true))
    (h : size ≠ 4 ∨ hasReg off = false ∨ s.reach m off = false ∨ noWrite m off = true) :
    exec (.registerWrite m off size v hw) s = .next (s.answer .error) := by
  by_cases hsize : size = 4
  · subst hsize
    rw [exec_registerWrite_word hlo, State.busWrite_refused hs (h.resolve_left (fun hn => hn rfl))]
  · have hs' : (decide (m = .host) && inSaf off) = false := by simpa using hs
    rw [exec_registerWrite_size hlo hsize, hs', Bool.false_and, if_neg Bool.false_ne_true]

/-- A write in the window is a store in shared SRAM. -/
theorem State.writeReg_window (hwin : atWindow off = true) :
    s.writeReg m off v hw = s.put .shared (off - 0x03000000) 4 v.toNat := if_pos hwin

theorem exec_registerWrite_window (hr : s.reaches m off) (h4 : off % 4 = 0) (hwin : atWindow off = true) :
    exec (.registerWrite m off 4 v hw) s
      = .next ((s.answer .done).put .shared (off - 0x03000000) 4 v.toNat) := by
  have hlo : off < 0x10000000 := by have := (atWindow_iff off).mp hwin; omega
  rw [exec_registerWrite_word hlo, State.busWrite, if_pos (by simp [hasReg_window h4 hwin]), hr.busW_eq,
    State.writeReg_window hwin]

end registerWrite
end bus

/-! ## REG_READ (R401) -/

/-- What a read takes into the copies of a master leaves registers, memory and completions. -/
theorem State.snapshot_frame (m : Sys2Proof.Master) (offs : List Nat) : ∀ s : State,
    (s.snapshot m offs).regs = s.regs ∧ (s.snapshot m offs).mem = s.mem ∧ (s.snapshot m offs).cqes = s.cqes := by
  induction offs with
  | nil => intro s; exact ⟨rfl, rfl, rfl⟩
  | cons o offs ih =>
    intro s
    obtain ⟨hregs, hmem, hcqes⟩ := ih (s.bankWr m o (s.rd o))
    exact ⟨hregs.trans (s.bankWr_regs m o _), hmem.trans (s.bankWr_mem m o _), hcqes.trans (s.bankWr_cqes m o _)⟩

/-- A read leaves memory and completions. -/
theorem State.readTakes_frame (m : Sys2Proof.Master) (off : Nat) :
    (s.readTakes m off).mem = s.mem ∧ (s.readTakes m off).cqes = s.cqes := by
  unfold State.readTakes
  split_ifs with hns hsleep
  · exact ⟨s.bankWr_mem m _ _, s.bankWr_cqes m _ _⟩
  · obtain ⟨-, hmem, hcqes⟩ := State.snapshot_frame m (snapOffs off) (s.refresh off)
    have hrefresh : s.refresh off
        = (s.wrN PWS.SLEEP_L s.sleepCount).setF PWS.SLEEP_H_V (s.sleepCount / 2 ^ 32) := if_pos hsleep
    rw [hmem, hcqes, hrefresh]
    exact ⟨rfl, rfl⟩
  · exact (State.snapshot_frame m (snapOffs off) s).2

section regRead
variable {s} {via : Via} {o : Word} {cnt : Byte}

/-- A count that is not 1 or 2, or an offset that is none (R401). -/
def RegReadBad (o : Word) (cnt : Byte) : Prop :=
  (cnt ≠ 1#8 ∧ cnt ≠ 2#8) ∨ hasReg o.toNat = false ∨ (cnt = 2#8 ∧ hasReg (o.toNat + 4) = false)

/-- The words of a REG_READ meet an error that ECC cannot correct (R26). -/
def State.regReadSpoilt (s : State) (o : Word) (cnt : Byte) : Prop :=
  s.readBad o.toNat = true ∨ (cnt = 2#8 ∧ s.readBad (o.toNat + 4) = true)

theorem byte_eq_ofNat_iff (c : Byte) (n : Nat) (hn : n < 256) : c = BitVec.ofNat 8 n ↔ c.toNat = n := by
  rw [← BitVec.toNat_inj, BitVec.toNat_ofNat, Nat.mod_eq_of_lt hn]

/-- The check of REG_READ's operands decides `RegReadBad`. -/
theorem regReadBad_iff : RegReadBad o cnt ↔ (decide (cnt.toNat = 0) || decide (2 < cnt.toNat) || !hasReg o.toNat
    || (decide (cnt.toNat = 2) && !hasReg (o.toNat + 4))) = true := by
  have h1 := byte_eq_ofNat_iff cnt 1 (by omega)
  have h2 := byte_eq_ofNat_iff cnt 2 (by omega)
  have hcount : (cnt ≠ 1#8 ∧ cnt ≠ 2#8) ↔ (cnt.toNat = 0 ∨ 2 < cnt.toNat) := by
    rw [ne_eq, ne_eq, h1, h2]
    omega
  simp only [RegReadBad, hcount, h2, Bool.or_eq_true, Bool.and_eq_true, Bool.not_eq_true', decide_eq_true_eq, or_assoc]

theorem State.regReadSpoilt_iff : s.regReadSpoilt o cnt ↔
    (s.readBad o.toNat || (decide (cnt.toNat = 2) && s.readBad (o.toNat + 4))) = true := by
  simp only [State.regReadSpoilt, byte_eq_ofNat_iff cnt 2 (by omega), Bool.or_eq_true, Bool.and_eq_true,
    decide_eq_true_eq]

theorem exec_regRead_bad (h : RegReadBad o cnt) : exec (.regRead via o cnt) s = .next (s.cmdDone via 3) :=
  congrArg ok (if_pos (regReadBad_iff.mp h))

theorem exec_regRead_unserved (hgood : ¬RegReadBad o cnt) (hs : s.served = false) :
    exec (.regRead via o cnt) s = .next (s.cmdDone via 6) :=
  congrArg ok ((if_neg (mt regReadBad_iff.mpr hgood)).trans (if_pos (by rw [hs]; rfl)))

theorem exec_regRead_spoilt (hgood : ¬RegReadBad o cnt) (hs : s.served = true) (hbad : s.regReadSpoilt o cnt) :
    exec (.regRead via o cnt) s = .next (s.cmdDone via 9) :=
  congrArg ok ((if_neg (mt regReadBad_iff.mpr hgood)).trans ((if_neg (by rw [hs]; simp)).trans
    (if_pos (State.regReadSpoilt_iff.mp hbad))))

/-- A REG_READ that is served, by its count. -/
theorem exec_regRead_served (hgood : ¬RegReadBad o cnt) (hs : s.served = true) (hok : ¬s.regReadSpoilt o cnt) :
    exec (.regRead via o cnt) s = .next (if cnt.toNat = 1
      then (s.readTakes .host o.toNat).cmdDone via 0 (s.readWord .host o.toNat).toNat
      else ((s.readTakes .host o.toNat).readTakes .host (o.toNat + 4)).cmdDone via 0
        (((s.readTakes .host o.toNat).readWord .host (o.toNat + 4)).toNat * 2 ^ 32
          + (s.readWord .host o.toNat).toNat)) :=
  congrArg ok ((if_neg (mt regReadBad_iff.mpr hgood)).trans ((if_neg (by rw [hs]; simp)).trans
    (if_neg (mt State.regReadSpoilt_iff.mpr hok))))

theorem exec_regRead_one (hgood : ¬RegReadBad o 1#8) (hs : s.served = true) (hok : ¬s.regReadSpoilt o 1#8) :
    exec (.regRead via o 1#8) s
      = .next ((s.readTakes .host o.toNat).cmdDone via 0 (s.readWord .host o.toNat).toNat) :=
  (exec_regRead_served hgood hs hok).trans (congrArg _ (if_pos rfl))

theorem exec_regRead_two (hgood : ¬RegReadBad o 2#8) (hs : s.served = true) (hok : ¬s.regReadSpoilt o 2#8) :
    exec (.regRead via o 2#8) s
      = .next (((s.readTakes .host o.toNat).readTakes .host (o.toNat + 4)).cmdDone via 0
        (((s.readTakes .host o.toNat).readWord .host (o.toNat + 4)).toNat * 2 ^ 32
          + (s.readWord .host o.toNat).toNat)) :=
  (exec_regRead_served hgood hs hok).trans (congrArg _ (if_neg (by decide)))

/-- A REG_READ, however it ends, leaves memory. -/
theorem exec_regRead_mem {t : State} (h : exec (.regRead via o cnt) s = .next t) : t.mem = s.mem := by
  by_cases hbad : RegReadBad o cnt
  · rw [exec_regRead_bad hbad] at h
    cases h
    exact s.cmdDone_mem via 3 0
  by_cases hs : s.served = true
  · by_cases hsp : s.regReadSpoilt o cnt
    · rw [exec_regRead_spoilt hbad hs hsp] at h
      cases h
      exact s.cmdDone_mem via 9 0
    · rw [exec_regRead_served hbad hs hsp] at h
      cases h
      split
      · rw [State.cmdDone_mem, (State.readTakes_frame _ _ _).1]
      · rw [State.cmdDone_mem, (State.readTakes_frame _ _ _).1, (State.readTakes_frame _ _ _).1]
  · rw [exec_regRead_unserved hbad (Bool.eq_false_iff.mpr hs)] at h
    cases h
    exact s.cmdDone_mem via 6 0

end regRead

/-! ## REG_WRITE (R401; log entry 125) -/

section regWrite
variable {s} {via : Via} {o v : Word}

theorem exec_regWrite_saf (hs : inSaf o.toNat = true) :
    exec (.regWrite via o v) s = .next ((s.record 0x15 0x02 0 2 0#128).cmdDone via 3) :=
  congrArg ok (if_pos hs)

theorem exec_regWrite_noReg (hs : inSaf o.toNat = false) (hreg : hasReg o.toNat = false) :
    exec (.regWrite via o v) s = .next (s.cmdDone via 3) :=
  congrArg ok ((if_neg (by rw [hs]; simp)).trans (if_pos (by rw [hreg]; rfl)))

theorem exec_regWrite_unserved (hs : inSaf o.toNat = false) (hreg : hasReg o.toNat = true) (hsv : s.served = false) :
    exec (.regWrite via o v) s = .next (s.cmdDone via 6) :=
  congrArg ok ((if_neg (by rw [hs]; simp)).trans ((if_neg (by rw [hreg]; simp)).trans (if_pos (by rw [hsv]; rfl))))

/-- A REG_WRITE that the module answers is a host write in which the flags of this tick stand as raised by the
hardware. -/
theorem exec_regWrite_done (hr : s.reaches .host o.toNat) (hreg : hasReg o.toNat = true) (hsv : s.served = true)
    (hresp : ((s.answer .done).writeReg .host o.toNat v (s.risen o.toNat)).lastResp = .done) :
    exec (.regWrite via o v) s
      = .next (((s.answer .done).writeReg .host o.toNat v (s.risen o.toNat)).cmdDone via 0) := by
  have hs : inSaf o.toNat = false := hr.2.1 rfl
  show execRegWrite via o v s = _
  simp only [execRegWrite, hs, hreg, hsv, hr.busW_eq, hresp, Bool.not_true, Bool.false_eq_true, if_false, ok,
    reduceCtorEq]

/-- In READY, RUN and SAFE the host reaches what holds a register outside the Saffron range, once READY has been
entered. -/
theorem State.reaches_host_of_served {off : Nat} (hsv : s.served = true) (hs : inSaf off = false)
    (h : inSysPws off = true ∨ s.pws.readyOnce = true) : s.reaches .host off := by
  have hstate := s.served_iff.mp hsv
  have hawake : s.isIn [stOFF, stSLEEP] = false := State.isIn_awake (by omega)
  have hrom : s.romService = false := by
    have hne : s.mstate ≠ stRECOVERY := by unfold stRECOVERY; omega
    simp [State.romService, hne]
  refine ⟨?_, fun _ => hs, by simp [noWrite]⟩
  rcases h with h | h
  · simp [State.reach, hawake, h]
  · simp [State.reach, hawake, hrom, h]

theorem exec_regWrite_window (hsv : s.served = true) (hready : s.pws.readyOnce = true) (hreg : hasReg o.toNat = true)
    (hwin : atWindow o.toNat = true) :
    exec (.regWrite via o v) s
      = .next (((s.answer .done).put .shared (o.toNat - 0x03000000) 4 v.toNat).cmdDone via 0) := by
  have hs : inSaf o.toNat = false := by
    have := (atWindow_iff _).mp hwin
    rw [Bool.eq_false_iff, ne_eq, inSaf_iff]
    omega
  have hput := State.writeReg_window (s := s.answer .done) (m := .host) (v := v) (hw := s.risen o.toNat) hwin
  have hdone := exec_regWrite_done (via := via) (v := v) (State.reaches_host_of_served hsv hs (Or.inr hready)) hreg hsv
    (by rw [hput, State.put_lastResp]; rfl)
  rwa [hput] at hdone

/-- PWS_STAT stores by its access codes (R4, R6, R476). -/
theorem State.writeReg_pwsStat (m : Sys2Proof.Master) (hw : Word) :
    s.writeReg m PWS.STAT v hw = s.store PWS.STAT v hw := rfl

theorem State.store_eq {off : Nat} {row : RegRow} (h : regRow off = some row) (v hw : Word) :
    s.store off v hw = s.wr off (regWrite row (s.rd off) v hw) := by
  unfold State.store
  rw [h]

theorem exec_regWrite_pwsStat {row : RegRow} (ho : o.toNat = PWS.STAT) (hsv : s.served = true)
    (hrow : regRow o.toNat = some row) :
    exec (.regWrite via o v) s
      = .next (((s.answer .done).wr o.toNat (regWrite row (s.rd o.toNat) v (s.risen o.toNat))).cmdDone via 0) := by
  have hreg : hasReg o.toNat = true := by
    rw [hasReg, hrow, ho]
    rfl
  have hs : inSaf o.toNat = false := by rw [ho]; rfl
  have hsys : inSysPws o.toNat = true := by rw [ho]; rfl
  have hst : (s.answer .done).writeReg .host o.toNat v (s.risen o.toNat)
      = (s.answer .done).wr o.toNat (regWrite row (s.rd o.toNat) v (s.risen o.toNat)) := by
    rw [← State.answer_rd s .done, ← State.store_eq hrow, ho]
    exact State.writeReg_pwsStat .host _
  have hdone := exec_regWrite_done (via := via) (v := v) (State.reaches_host_of_served hsv hs (Or.inl hsys)) hreg hsv
    (by rw [hst]; rfl)
  rwa [hst] at hdone

end regWrite

/-! ## The statement -/

/-- REGISTER_WRITE in the window: four bytes of shared SRAM and nothing else (R24). -/
theorem exec_registerWrite_window_effect {m : Sys2Proof.Master} {off : Nat} {v hw : Word} {t : State}
    (h : exec (.registerWrite m off 4 v hw) s = .next t) (hr : s.reaches m off) (h4 : off % 4 = 0)
    (hwin : atWindow off = true) :
    t.load .shared (off - 0x03000000) 4 = v.toNat ∧ t.lastResp = .done
      ∧ (∀ b, b < off - 0x03000000 ∨ off - 0x03000000 + 4 ≤ b → b < 0x1000000 → t.byte .shared b = s.byte .shared b)
      ∧ t = { s with mem := t.mem, ecc := t.ecc, lastResp := t.lastResp } := by
  rw [exec_registerWrite_window hr h4 hwin] at h
  cases h
  refine ⟨State.load_put_word _ _ _ _, State.put_lastResp _ _ _ _ _, fun b hb _ => ?_, ?_⟩
  · exact State.byte_put_outside .shared 4 _ _ _ _ hb
  · rw [State.put_lastResp]
    exact State.put_eq .shared 4 (s.answer .done) _ _

/-- A host write in BAR2 stores in the LPDDR5X, or is an error (R390). -/
theorem exec_registerWrite_bar2_effect {off size : Nat} {v hw : Word} {t : State}
    (h : exec (.registerWrite .host off size v hw) s = .next t) (hlo : 0x10000000 ≤ off) (hhi : off < 0x20000000)
    (hsize : size ≤ 4) :
    let a := s.f ⟨HQ.BAR2BASE, 0, 5⟩ * 2 ^ 28 + (off - 0x10000000)
    (s.barsUp → s.pws.stopped = false → a + size ≤ ddrTop →
        t.load .ddr a size = v.toNat % 256 ^ size ∧ t.lastResp = .done)
      ∧ (¬s.barsUp ∨ s.pws.stopped = true ∨ ddrTop < a + size → t = s.answer .error) := by
  rw [exec_registerWrite_bar2 hlo hhi hsize] at h
  cases h
  refine ⟨fun hup hst hfit => ?_, fun hno => State.bar2Write_refused hno⟩
  rw [State.bar2Write_stored hup hst hfit]
  exact ⟨(State.load_eq_of_mem .ddr (State.answer_mem _ _) _ _).trans (State.load_put_same _ _ _ _ _), rfl⟩

/-- A host write in BAR4 sets BAR4_WR, or is an error (R390). -/
theorem exec_registerWrite_bar4_effect {off size : Nat} {v hw : Word} {t : State}
    (h : exec (.registerWrite .host off size v hw) s = .next t) (hlo : 0x20000000 ≤ off) (hhi : off < 0x21000000) :
    (¬s.barsUp → t = s.answer .error)
      ∧ (s.barsUp → t.on HQ.GSTAT_BAR4_WR = true ∧ t.lastResp = .done ∧ s.wrote t [HQ.GSTAT]) := by
  rw [exec_registerWrite_bar4 hlo hhi] at h
  cases h
  refine ⟨State.bar4Write_refused, fun hup => ?_⟩
  rw [State.bar4Write_discarded hup]
  exact ⟨(State.answer_on _ _ _).trans (s.on_raise HQ.GSTAT_BAR4_WR (by decide) (by decide)), rfl,
    s.wrote_answer_raise HQ.GSTAT_BAR4_WR .done⟩

/-- What two runs of one command give is the same state. -/
theorem next_unique {c : Instr} {s t u : State} (ht : exec c s = .next t) (hu : exec c s = .next u) : t = u :=
  Host.Outcome.next.inj (ht.symm.trans hu)

/-- Settles O57: one equation of `exec` for each case of the three commands, and the bits of `regWrite`. -/
theorem registerAccess : Obligations.RegisterAccess := by
  intro s m via off size o v old hw cnt row i
  refine ⟨⟨getLsbD_regWrite_rw, getLsbD_regWrite_w1c, getLsbD_regWrite_w1s, getLsbD_regWrite_kept⟩, ?_, ?_, ?_⟩
  · obtain ⟨t, ht⟩ : ∃ t, exec (.registerWrite m off size v hw) s = .next t := ⟨_, rfl⟩
    refine ⟨t, ht, ?asleep, ?saf, ?refused, ?window, ?bar2, ?bar4⟩
    case asleep => exact fun h => next_unique ht (exec_registerWrite_asleep h)
    case saf =>
      intro hup hm hs
      subst hm
      obtain rfl := next_unique ht (exec_registerWrite_saf hup ((inSaf_iff off).mpr hs))
      exact ⟨rfl, s.record_safWrite⟩
    case refused =>
      exact fun hlo hs h => next_unique ht (exec_registerWrite_refused hlo (by rwa [inSaf_iff]) h)
    case window =>
      intro hr hsize h4 hwin
      subst hsize
      exact exec_registerWrite_window_effect s ht hr h4 ((atWindow_iff off).mpr hwin)
    case bar2 =>
      intro hm hlo hhi hsize
      subst hm
      exact exec_registerWrite_bar2_effect s ht hlo hhi hsize
    case bar4 =>
      intro hm hlo hhi
      subst hm
      exact exec_registerWrite_bar4_effect s ht hlo hhi
  · obtain ⟨t, ht⟩ : ∃ t, exec (.regRead via o cnt) s = .next t := ⟨_, rfl⟩
    refine ⟨t, ht, ?bad, ?unserved, ?spoilt, ?one, ?two, exec_regRead_mem ht, ?kept⟩
    case bad =>
      intro hbad
      obtain rfl := next_unique ht (exec_regRead_bad hbad)
      exact s.cmdDone_cqes 3 0
    case unserved =>
      intro hgood hs
      obtain rfl := next_unique ht (exec_regRead_unserved hgood (State.served_eq_false hs))
      exact ⟨s.cmdDone_cqes 6 0, s.cmdDone_illegal_ansIn_length via 0⟩
    case spoilt =>
      intro hgood hs hsp
      obtain rfl := next_unique ht (exec_regRead_spoilt hgood (s.served_iff.mpr hs) hsp)
      exact s.cmdDone_cqes 9 0
    case one =>
      intro hgood hs hok hcnt
      subst hcnt
      obtain rfl := next_unique ht (exec_regRead_one hgood (s.served_iff.mpr hs) hok)
      intro hvia
      rw [State.cmdDone_cqes _ _ _ hvia, (State.readTakes_frame _ _ _).2]
    case two =>
      intro hgood hs hok hcnt
      subst hcnt
      obtain rfl := next_unique ht (exec_regRead_two hgood (s.served_iff.mpr hs) hok)
      refine ⟨_, _, rfl, fun hvia => ?_, rfl⟩
      rw [State.cmdDone_cqes _ _ _ hvia, (State.readTakes_frame _ _ _).2, (State.readTakes_frame _ _ _).2]
    case kept =>
      intro h
      by_cases hbad : RegReadBad o cnt
      · obtain rfl := next_unique ht (exec_regRead_bad hbad)
        exact s.cmdDone_regs via 3 0
      · obtain rfl := next_unique ht (exec_regRead_unserved hbad (State.served_eq_false (h.resolve_left hbad)))
        exact s.cmdDone_regs via 6 0
  · obtain ⟨t, ht⟩ : ∃ t, exec (.regWrite via o v) s = .next t := ⟨_, rfl⟩
    refine ⟨t, ht, ?saf, ?noReg, ?unserved, ?window, ?pwsStat⟩
    case saf =>
      intro hs
      obtain rfl := next_unique ht (exec_regWrite_saf ((inSaf_iff _).mpr hs))
      refine ⟨State.cmdDone_cqes _ 3 0, ?_, State.cmdDone_regs _ via 3 0⟩
      rw [State.cmdDone_ansIn _ via 0 (by decide)]
      exact s.record_safWrite
    case noReg =>
      intro hs hreg
      obtain rfl := next_unique ht (exec_regWrite_noReg (Bool.eq_false_iff.mpr (mt (inSaf_iff _).mp hs)) hreg)
      exact ⟨s.cmdDone_cqes 3 0, s.cmdDone_regs via 3 0, s.cmdDone_mem via 3 0⟩
    case unserved =>
      intro hs hreg hsv
      obtain rfl := next_unique ht
        (exec_regWrite_unserved (Bool.eq_false_iff.mpr (mt (inSaf_iff _).mp hs)) hreg (State.served_eq_false hsv))
      exact ⟨s.cmdDone_cqes 6 0, s.cmdDone_regs via 6 0, s.cmdDone_mem via 6 0⟩
    case window =>
      intro hreg hsv hready hlo hhi
      obtain rfl := next_unique ht
        (exec_regWrite_window (s.served_iff.mpr hsv) hready hreg ((atWindow_iff _).mpr ⟨hlo, hhi⟩))
      refine ⟨fun hvia => ?_, ?_, ?_⟩
      · rw [State.cmdDone_cqes _ _ _ hvia, State.put_cqes, State.answer_cqes]
      · rw [State.load_eq_of_mem .shared (State.cmdDone_mem _ via 0 0), State.load_put_word]
      · rw [State.cmdDone_regs, State.put_regs, State.answer_regs]
    case pwsStat =>
      intro hsv ho hrow
      obtain rfl := next_unique ht (exec_regWrite_pwsStat ho (s.served_iff.mpr hsv) hrow)
      refine ⟨State.cmdDone_cqes _ 0 0, ?_⟩
      rw [State.cmdDone_rd, State.rd_wr_same]
      rfl

end Sys2Proof.Machine
end

section
/-! PROOF of the negation of the statement ModuleTransitions. The statement speaks of every state, also of those that no
run reaches, and a build of Nutmeg names its slot by a number without a bound. An entry to HOLDUP drops the build and
empties its slot (R208). Nutmeg has two slots and their status words lie 0x10 apart: the "status word" of a slot beyond
them is some later register, PWS_MODSTATE for one. -/

namespace Sys2Proof.Machine

/-- The module after reset, but for a build of Nutmeg that runs in a slot which has PWS_MODSTATE as its status word. -/
def strayBuild : State :=
  { State.reset with nmg := { Nmg.reset with build := some ⟨(PWS.MODSTATE - NMG.SLOT_STAT 0) / 0x10, 0, [], 0, 0, 0⟩ } }

/-- With the slot, the two low bits of PWS_MODSTATE.STATE become 0: the entry to HOLDUP leaves 4, which is READY. -/
theorem strayBuild_moveTo_holdup : (strayBuild.moveTo stHOLDUP 1).mstate = stREADY := by decide +kernel

/-- Refutes O51: `strayBuild` enters HOLDUP and reads READY. -/
theorem not_moduleTransitions : ¬Obligations.ModuleTransitions := by
  intro h
  obtain ⟨⟨⟨hstate, -⟩, -⟩, -⟩ := h strayBuild 7 1 0 (by decide)
  have hne : stREADY ≠ stHOLDUP := by decide
  exact hne (strayBuild_moveTo_holdup.symm.trans hstate)

end Sys2Proof.Machine
end

section
/-! PROOF of the statement StartUpAndModuleCommands (R20, R21, R213, R227, R450, R451, R457, R461, R467, R468, R474). What
the operations of the start-up leave comes first: a wipe, the load of an image, a completion, a request to flush. Then
one equation for each case of a command. -/

namespace Sys2Proof.Machine

variable (s : State)

@[simp] theorem State.setPws_byte (x : Pws) (mm : MemId) (a : Nat) : (s.setPws x).byte mm a = s.byte mm a := rfl
@[simp] theorem State.setPws_regs (x : Pws) : (s.setPws x).regs = s.regs := rfl
@[simp] theorem State.setPws_fov (x : Pws) : (s.setPws x).fov = s.fov := rfl

/-! ## Wipes (R456) -/

@[simp] theorem State.wipe_regs (mm : MemId) : (s.wipe mm).regs = s.regs := rfl
@[simp] theorem State.wipe_fov (mm : MemId) : (s.wipe mm).fov = s.fov := rfl

/-- A map without the cells at some keys reads its default there, and elsewhere as before. -/
theorem FMap.get_filter {α : Type} (d : Nat → α) (m : FMap α) (p : Nat → Bool) (k : Nat) :
    (FMap.mk (m.cells.filter fun c => p c.1)).get d k = if p k then m.get d k else d k := by
  unfold FMap.get
  rw [List.find?_filter]
  cases hp : p k with
  | false =>
    have hnone : m.cells.find? (fun c => decide (p c.1 = true ∧ (c.1 == k) = true)) = none := by
      rw [List.find?_eq_none]
      intro c _ hc
      obtain ⟨hpc, hck⟩ := of_decide_eq_true hc
      rw [eq_of_beq hck, hp] at hpc
      exact Bool.false_ne_true hpc
    rw [hnone, if_neg Bool.false_ne_true]
  | true =>
    have hsame : (fun c : Nat × α => decide (p c.1 = true ∧ (c.1 == k) = true)) = fun c => c.1 == k := by
      funext c
      by_cases hc : c.1 = k
      · simp [hc, hp]
      · simp [hc]
    rw [hsame, if_pos rfl]

/-- A wiped byte reads as after reset, every other one as before. -/
theorem State.byte_wipe (mm m' : MemId) (a : Nat) : (s.wipe mm).byte m' a
    = if mm.base ≤ m'.base + a ∧ m'.base + a < mm.base + mm.size then memReset (m'.base + a) else s.byte m' a := by
  have h := FMap.get_filter memReset s.mem
    (fun k => !(decide (mm.base ≤ k) && decide (k < mm.base + mm.size)) || false) (m'.base + a)
  refine h.trans ?_
  by_cases hk : mm.base ≤ m'.base + a ∧ m'.base + a < mm.base + mm.size
  · simp [hk]
  · rw [if_neg hk, if_pos]
    · rfl
    · simp only [Bool.or_false, Bool.not_eq_true', Bool.and_eq_false_iff, decide_eq_false_iff_not]
      omega

theorem State.byte_wipe_same {mm : MemId} {a : Nat} (h : a < mm.size) : (s.wipe mm).byte mm a = memReset (mm.base + a) := by
  rw [State.byte_wipe, if_pos ⟨Nat.le_add_right _ _, Nat.add_lt_add_left h _⟩]

/-- A further wipe leaves a wiped byte wiped. -/
theorem State.byte_wipe_wiped {s : State} {m' : MemId} {a : Nat} (mm : MemId) (h : s.byte m' a = memReset (m'.base + a)) :
    (s.wipe mm).byte m' a = memReset (m'.base + a) := by
  rw [State.byte_wipe, h, ite_self]

/-- A byte below the MRAM reads 0 once wiped. -/
theorem memReset_low {k : Nat} (h : k < MemId.mram.base) : memReset k = 0#8 :=
  if_neg fun hk => absurd (show k < 0x4_0000_0000_0 from h) (by omega)

/-- The wipe engine leaves the registers and the boot configuration record. -/
theorem State.wipeChip_frame (boot : Bool) :
    (s.wipeChip boot).regs = s.regs ∧ (s.wipeChip boot).fov = s.fov := by
  have hfold (l : List Nat) (op : State → Nat → State) (hop : ∀ u e, (op u e).regs = u.regs ∧ (op u e).fov = u.fov) :
      (l.foldl op s).regs = s.regs ∧ (l.foldl op s).fov = s.fov :=
    List.foldlRecOn (motive := fun u : State => u.regs = s.regs ∧ u.fov = s.fov) l op ⟨rfl, rfl⟩
      fun u hu e _ => ⟨(hop u e).1.trans hu.1, (hop u e).2.trans hu.2⟩
  unfold State.wipeChip
  cases boot
  all_goals
    simp only [Bool.false_eq_true, if_false, if_true, State.wipe_regs, State.wipe_fov]
    exact hfold _ _ fun u e => ⟨rfl, rfl⟩

theorem State.wipeChip_shared_factor (boot : Bool) {a : Nat} (h : a < 0x1000000) :
    (s.wipeChip boot).byte .shared a = 0#8 ∧ (s.wipeChip boot).byte .factor a = 0#8 := by
  have hs : memReset (MemId.shared.base + a) = 0#8 := memReset_low (by simp only [MemId.base]; omega)
  have hf : memReset (MemId.factor.base + a) = 0#8 := memReset_low (by simp only [MemId.base]; omega)
  cases boot with
  | false =>
    exact ⟨(State.byte_wipe_same _ h).trans hs, (State.byte_wipe_wiped _ (State.byte_wipe_same _ h)).trans hf⟩
  | true =>
    exact ⟨(State.byte_wipe_wiped _ (State.byte_wipe_same _ h)).trans hs,
      (State.byte_wipe_wiped _ (State.byte_wipe_wiped _ (State.byte_wipe_same _ h))).trans hf⟩

theorem State.wipeChip_capture {a : Nat} (h : a < 0x400000) : (s.wipeChip true).byte .capture a = 0#8 :=
  (State.byte_wipe_same _ h).trans (memReset_low (by simp only [MemId.base]; omega))

/-- The module after a good wipe (R468): memory wiped, and step 2 follows. -/
def State.wiped (s : State) : State := (s.wipeChip (decide (s.mstate = stBOOT))).setPws { s.pws with recStep := 2 }

theorem State.wiped_regs : s.wiped.regs = s.regs :=
  (State.setPws_regs _ _).trans (s.wipeChip_frame _).1

theorem State.wiped_fov : s.wiped.fov = s.fov :=
  (State.setPws_fov _ _).trans (s.wipeChip_frame _).2

theorem State.wiped_shared_factor {a : Nat} (h : a < 0x1000000) :
    s.wiped.byte .shared a = 0#8 ∧ s.wiped.byte .factor a = 0#8 := by
  unfold State.wiped
  rw [State.setPws_byte, State.setPws_byte]
  exact s.wipeChip_shared_factor _ h

theorem State.wiped_capture {s : State} (hm : s.mstate = stBOOT) {a : Nat} (h : a < 0x400000) :
    s.wiped.byte .capture a = 0#8 := by
  unfold State.wiped
  rw [State.setPws_byte, decide_eq_true hm]
  exact s.wipeChip_capture h

/-! ## ONCHIP_WIPE_DONE (R468, R474) -/

section wipe
variable {s} {good : Bool}

/-- Outside the first step of BOOT and RECOVERY the end of a wipe says nothing. -/
theorem State.wipeDone_idle (h : (s.mstate ≠ stBOOT ∧ s.mstate ≠ stRECOVERY) ∨ s.pws.recStep ≠ 1) : s.wipeDone good = s := by
  refine if_pos ?_
  rw [Bool.not_eq_true', Bool.and_eq_false_iff, Bool.or_eq_false_iff]
  simpa only [decide_eq_false_iff_not] using h

theorem State.ne_boot_of_recovery (hm : s.mstate = stRECOVERY) : s.mstate ≠ stBOOT := by
  rw [hm]
  decide

/-- In the first step of BOOT or RECOVERY: on to the graph of the die ROM, or a failed start. -/
theorem State.wipeDone_step1 (hm : s.mstate = stBOOT ∨ s.mstate = stRECOVERY) (hstep : s.pws.recStep = 1) :
    s.wipeDone good = if good
      then (if s.fov.read then s.wiped else s.wiped.bcrLoad).romGraph (if s.mstate = stBOOT then 0 else 1)
      else if s.mstate = stBOOT then (s.setF CLV.STAT_GRESULT 9).toRecovery 0x0A
      else (s.setF CLV.STAT_GRESULT 9).recAgain 0x0A := by
  have hgo : ¬(!((decide (s.mstate = stBOOT) || decide (s.mstate = stRECOVERY)) && decide (s.pws.recStep = 1))) = true := by
    rw [hstep]
    rcases hm with hm | hm <;> simp [hm]
  unfold State.wipeDone
  rw [if_neg hgo]
  cases good with
  | false => simp only [Bool.not_false, if_true, Bool.false_eq_true, if_false, decide_eq_true_eq]
  | true =>
    have hread : ((s.wipeChip (decide (s.mstate = stBOOT))).setPws { s.pws with recStep := 2 }).fov = s.fov := s.wiped_fov
    simp only [Bool.not_true, Bool.false_eq_true, if_false, if_true, hread, decide_eq_true_eq]
    rfl

end wipe

/-! ## Images (R450, R451, R457) -/

/-- Steps that each leave a register leave it together. -/
theorem State.rd_foldl {α : Type} {o : Nat} {op : State → α → State} (h : ∀ u x, (op u x).rd o = u.rd o)
    (l : List α) : (l.foldl op s).rd o = s.rd o :=
  List.foldlRecOn (motive := fun u : State => u.rd o = s.rd o) l op rfl fun u hu x _ => (h u x).trans hu

@[simp] theorem State.setIdent_rd (x : Ident) (o : Nat) : (s.setIdent x).rd o = s.rd o := rfl
@[simp] theorem State.wipe_rd (mm : MemId) (o : Nat) : (s.wipe mm).rd o = s.rd o := rfl
@[simp] theorem State.fillRange_rd (lo hi : Nat) (keep : Nat → Bool) (o : Nat) :
    (s.fillRange lo hi keep).rd o = s.rd o := rfl

@[simp] theorem State.putBytes_rd (mm : MemId) (o : Nat) (l : List Byte) : ∀ (s : State) (a : Nat),
    (s.putBytes mm a l).rd o = s.rd o := by
  induction l with
  | nil => intro s a; rfl
  | cons b bs ih => intro s a; exact ih _ _

theorem State.loadSeg_rd (a : Nat) (g : ImgSeg) (o : Nat) : (s.loadSeg a g).rd o = s.rd o := by
  unfold State.loadSeg
  split
  · split_ifs
    · exact s.fillRange_rd _ _ _ _
    · exact State.putBytes_rd _ _ _ _ _
  · rfl

/-- The load of an image leaves the registers below those of the SDSPs. -/
theorem State.loadImage_rd (slot : Nat) {o : Nat} (ho : o < SDS.STAT 0) : (s.loadImage slot).rd o = s.rd o := by
  have hw (u : State) (e : Nat) (b : Bool) : (u.flag (SDS.STAT_W (e - 4)) b).rd o = u.rd o :=
    u.rd_setF_ne _ _ _ (by simp only [SDS.STAT, SDS.STAT_W] at ho ⊢; omega)
  unfold State.loadImage
  simp only
  split_ifs
  all_goals
    simp only [State.setEn_rd, State.setIdent_rd]
    rw [State.rd_foldl, State.rd_foldl _ (fun u g => u.loadSeg_rd _ g o), State.fillRange_rd,
      State.rd_foldl _ (fun u e => u.wipe_rd _ o)]
    intro u e
    split_ifs
    · rw [hw, State.setEn_rd]
    · exact u.setEn_rd _ _ _
    · rfl

/-- The image in slot `k` passes the checks of a start (R450). -/
def State.imagePasses (s : State) (k : Nat) : Prop := s.imageCheck k (s.norNat (slotBase k + 8) 4) false = 0

/-- No candidate passes: fall-back is shown and recorded (R451). -/
def State.fallenBack (s : State) : State := (s.raise SYS.BOOT_FALLBACK).record 0x15 0x11 0 2 0#128

/-- What SYS_BOOT and SYS_IMGVER show of the first candidate `k` (R451). -/
def State.slotShown (s : State) (k : Nat) : State :=
  let t := ((s.setF SYS.BOOT_SLOT k).flag SYS.BOOT_FALLBACK false).flag SYS.BOOT_ALT_VALID (s.slotGen (1 - k)).isSome
  (t.setF SYS.BOOT_GEN ((s.slotGen k).getD 0)).wrN SYS.IMGVER (s.norNat (slotBase k + 0x1000 + 16) 4)

theorem State.norNat_eq_of_mem {s t : State} (h : t.mem = s.mem) (a n : Nat) : t.norNat a n = s.norNat a n :=
  State.load_eq_of_mem .nor h n a

theorem State.slotGen_eq_of_mem {s t : State} (h : t.mem = s.mem) (k : Nat) : t.slotGen k = s.slotGen k := by
  simp only [State.slotGen, State.norNat_eq_of_mem h, State.getBytes, State.byte, h]
  rfl

@[simp] theorem State.setF_norNat (F : Field) (v a n : Nat) : (s.setF F v).norNat a n = s.norNat a n :=
  State.norNat_eq_of_mem (s.setF_mem F v) a n
@[simp] theorem State.flag_norNat (F : Field) (b : Bool) (a n : Nat) : (s.flag F b).norNat a n = s.norNat a n :=
  State.norNat_eq_of_mem (s.flag_mem F b) a n
@[simp] theorem State.setF_slotGen (F : Field) (v k : Nat) : (s.setF F v).slotGen k = s.slotGen k :=
  State.slotGen_eq_of_mem (s.setF_mem F v) k
@[simp] theorem State.flag_slotGen (F : Field) (b : Bool) (k : Nat) : (s.flag F b).slotGen k = s.slotGen k :=
  State.slotGen_eq_of_mem (s.flag_mem F b) k

theorem State.bootImage_none (h : ∀ k ∈ s.candidates, ¬s.imagePasses k) :
    s.bootImage = (if s.candidates = [] then s else s.fallenBack, false) := by
  have hfind : s.candidates.find? (fun k => decide (s.imageCheck k (s.norNat (slotBase k + 8) 4) false = 0)) = none := by
    rw [List.find?_eq_none]
    intro k hk hp
    rw [decide_eq_true_eq] at hp
    exact h k hk hp
  unfold State.bootImage
  simp only [hfind, List.isEmpty_iff]
  rfl

theorem State.loadImage_f (slot : Nat) {F : Field} (hF : F.off < SDS.STAT 0) : (s.loadImage slot).f F = s.f F := by
  unfold State.f
  rw [s.loadImage_rd slot hF]

/-- SYS_BOOT and SYS_IMGVER name the slot and the version of the image that has been loaded (R451). -/
theorem State.slotShown_loadImage (k : Nat) :
    let u := (s.slotShown k).loadImage k
    u.f SYS.BOOT_SLOT = k % 2 ∧ u.on SYS.BOOT_FALLBACK = false
      ∧ u.rd SYS.IMGVER = BitVec.ofNat 32 (s.norNat (slotBase k + 0x1010) 4) := by
  intro u
  have hboot (t : State) (F : Field) (g n : Nat) (b : Bool) (hF : F.off = SYS.BOOT) (hlo : F.lo + F.w ≤ 2) :
      (((t.flag SYS.BOOT_ALT_VALID b).setF SYS.BOOT_GEN g).wrN SYS.IMGVER n).f F = t.f F := by
    have hne : F.off ≠ SYS.IMGVER := by rw [hF]; decide
    refine (State.f_wr_ne _ SYS.IMGVER _ F hne).trans ((State.f_setF_ne _ SYS.BOOT_GEN F g (by decide) ?_).trans
      (State.f_setF_ne _ SYS.BOOT_ALT_VALID F _ (by decide) ?_))
    · exact Or.inr (Or.inl (hlo.trans (by decide)))
    · exact Or.inr (Or.inl hlo)
  refine ⟨?_, ?_, ?_⟩
  · refine (State.loadImage_f _ _ (by decide)).trans ((hboot _ SYS.BOOT_SLOT _ _ _ rfl (by decide)).trans ?_)
    exact (State.f_setF_ne _ SYS.BOOT_FALLBACK SYS.BOOT_SLOT _ (by decide) (by decide)).trans
      (s.f_setF_same SYS.BOOT_SLOT k (by decide))
  · have hf := (State.loadImage_f (s.slotShown k) k (by decide)).trans (hboot _ SYS.BOOT_FALLBACK _ _ _ rfl (by decide))
    exact (congrArg (fun n => decide (n ≠ 0)) hf).trans (State.on_flag _ SYS.BOOT_FALLBACK false (by decide) (by decide))
  · exact (State.loadImage_rd _ _ (by decide)).trans (State.rd_wr_same _ _ _)

theorem State.bootImage_first {k : Nat} {l : List Nat} (hc : s.candidates = k :: l) (hk : s.imagePasses k) :
    s.bootImage = ((s.slotShown k).loadImage k, true) := by
  have hfind : s.candidates.find? (fun k => decide (s.imageCheck k (s.norNat (slotBase k + 8) 4) false = 0)) = some k := by
    rw [hc]
    exact List.find?_cons_of_pos (by rw [decide_eq_true_eq]; exact hk)
  have hfall : decide (s.candidates.head? ≠ some k) = false := by rw [hc]; simp
  unfold State.bootImage State.slotShown
  simp only [hfind, hfall, Bool.false_eq_true, if_false, State.setF_norNat, State.flag_norNat, State.setF_slotGen,
    State.flag_slotGen]

/-! ## IMAGE_LOAD (R450, R451, R457) -/

section image
variable {s}

theorem State.imageStep_idle (h : s.pws.recStep ≠ 3) : s.imageStep = s := if_pos h

/-- In BOOT an image that passes is tested; without one the module goes to RECOVERY. -/
theorem State.imageStep_boot {u : State} {good : Bool} (hm : s.mstate = stBOOT) (hstep : s.pws.recStep = 3)
    (h : s.bootImage = (u, good)) :
    s.imageStep = if good then State.testGraph { u.moveTo stTEST 6 with pws := { (u.moveTo stTEST 6).pws with recStep := 0 } }
      else u.toRecovery 6 := by
  unfold State.imageStep
  rw [if_neg (fun hn => hn hstep), h]
  exact if_pos hm

/-- In RECOVERY an image that passes is tested; without one the module holds with NO_IMAGE. -/
theorem State.imageStep_recovery {u : State} {good : Bool} (hm : s.mstate = stRECOVERY) (hstep : s.pws.recStep = 3)
    (h : s.bootImage = (u, good)) :
    s.imageStep = if good then State.testGraph { u with pws := { u.pws with recStep := 4 } }
      else (u.raise PWS.STAT_NO_IMAGE).recHold := by
  unfold State.imageStep
  rw [if_neg (fun hn => hn hstep), h]
  exact (if_neg (State.ne_boot_of_recovery hm)).trans (if_pos hm)

end image

/-! ## Completions and flushes (R401, R436) -/

@[simp] theorem State.cmdDone_f (via : Via) (res val : Nat) (F : Field) : (s.cmdDone via res val).f F = s.f F := by
  unfold State.f
  rw [State.cmdDone_rd]

@[simp] theorem State.cmdDone_on (via : Via) (res val : Nat) (F : Field) : (s.cmdDone via res val).on F = s.on F := by
  unfold State.on
  rw [State.cmdDone_f]

@[simp] theorem State.cmdDone_mstate (via : Via) (res val : Nat) : (s.cmdDone via res val).mstate = s.mstate :=
  s.cmdDone_f via res val _

/-- A request to flush leaves completions, the identity block and records that wait. -/
theorem State.flushReq_frame : s.flushReq.cqes = s.cqes ∧ s.flushReq.ident = s.ident ∧ s.flushReq.ansIn = s.ansIn := by
  unfold State.flushReq
  simp only
  split_ifs <;> exact ⟨rfl, rfl, rfl⟩

theorem State.flushReq_flushing : s.flushReq.on ANS.STAT_FLUSHING = true := by
  unfold State.flushReq
  simp only
  split_ifs with h
  · exact h
  · exact State.on_raise _ ANS.STAT_FLUSHING (by decide) (by decide)

theorem State.flushReq_mstate : s.flushReq.mstate = s.mstate := by
  unfold State.flushReq
  simp only
  split_ifs
  · rfl
  · exact State.f_setF_ne _ ANS.STAT_FLUSHING PWS.MODSTATE_STATE 1 (by decide) (by decide)

/-- The command is refused with ILLEGAL_STATE: a completion and a record, and nothing else (R11). -/
theorem State.cmdDone_refused (via : Via) : (via ≠ .none →
      (s.cmdDone via 6).cqes = s.cqes ++ [⟨via, 6, BitVec.ofNat 64 0, true, none⟩])
    ∧ (s.cmdDone via 6).ansIn.length = s.ansIn.length + 1
    ∧ s.cmdDone via 6
      = { s with cqes := (s.cmdDone via 6).cqes, agenda := (s.cmdDone via 6).agenda, ansIn := (s.cmdDone via 6).ansIn } :=
  ⟨s.cmdDone_cqes 6 0, s.cmdDone_illegal_ansIn_length via 0, s.cmdDone_eq via 6 0⟩

/-- The command is accepted and waits for a flush, after which the module enters `st`, with the code `c` (R467). -/
theorem State.cmdDone_waits (via : Via) (st c : Nat) :
    let t := ((s.cmdDone via 0).transitionAhead st 0x04).restartAfterFlush c
    (via ≠ .none → t.cqes = s.cqes ++ [⟨via, 0, BitVec.ofNat 64 0, true, none⟩])
      ∧ t.ident = { s.ident with restart := some c } ∧ t.mstate = s.mstate
      ∧ t.on ANS.STAT_FLUSHING = true ∧ t.ansIn.length = s.ansIn.length + 1 := by
  intro t
  let u := (s.cmdDone via 0).transitionAhead st 0x04
  obtain ⟨hcqes, hident, hans⟩ := (u.setIdent { u.ident with restart := some c }).flushReq_frame
  refine ⟨fun h => hcqes.trans (s.cmdDone_cqes 0 0 h), hident.trans ?_, ?_, State.flushReq_flushing _, ?_⟩
  · show ({ (s.cmdDone via 0).ident with restart := some c } : Ident) = _
    rw [s.cmdDone_eq]
  · exact (State.flushReq_mstate _).trans (s.cmdDone_mstate via 0 0)
  · have hlen : u.ansIn.length = (s.cmdDone via 0).ansIn.length + 1 := List.length_append
    rw [s.cmdDone_ansIn via 0 (by decide)] at hlen
    exact (congrArg List.length hans).trans hlen

/-! ## MODULE_RUN (R21, R213, R227; log entries 70, 133) -/

/-- R213 refuses MODULE_RUN: a planning module whose comparator does not plan. -/
def State.planRefuses (s : State) : Bool := (s.isManager || s.isPair) && !s.planTcmpGood (s.f PLC.CFG_TSEL)

/-- The flags that refused comparators set. -/
def runFlags (plan fov : Bool) : List Field :=
  (if plan then [PLC.STAT_ERR_ARG] else []) ++ if fov then [FOV.STAT_ERR_ARG] else []

/-- What refuses MODULE_RUN, and the flags of it. -/
theorem State.runRefusal_eq : ∃ fov, s.runRefusal
    = (decide (s.role = 0) || !s.lcIn [lcOPERATIONAL, lcSERVICE] || !s.on PWS.STAT_STORE_OK || !s.timeGood
        || s.planRefuses || fov, runFlags s.planRefuses fov) := ⟨_, rfl⟩

/-- Raised flags change their registers alone. -/
theorem State.foldl_raise_sameBut (l : List Field) : ∀ s : State, s.sameBut (l.foldl State.raise s) (l.map Field.off) := by
  induction l with
  | nil => exact fun s => ⟨fun _ _ => rfl, rfl⟩
  | cons F l ih =>
    intro s
    obtain ⟨hrd, heq⟩ := ih (s.raise F)
    refine ⟨fun o ho => ?_, heq⟩
    rw [List.map_cons, List.mem_cons, not_or] at ho
    exact (hrd o ho.2).trans (s.rd_setF_ne F 1 o ho.1)

theorem State.sameBut.cqes {s t : State} {l : List Nat} (h : s.sameBut t l) : t.cqes = s.cqes := by rw [h.2]

theorem State.sameBut.ansIn {s t : State} {l : List Nat} (h : s.sameBut t l) : t.ansIn = s.ansIn := by rw [h.2]

/-- A completed command changes no register, and nothing else but its entry, the due write and a record. -/
theorem State.sameBut_cmdDone {s u : State} {l : List Nat} (h : s.sameBut u l) (via : Via) (res : Nat) :
    s.sameBut { u.cmdDone via res with cqes := s.cqes, agenda := s.agenda, ansIn := s.ansIn } l := by
  refine ⟨fun o ho => (u.cmdDone_rd via res 0 o).trans (h.1 o ho), ?_⟩
  calc ({ u.cmdDone via res with cqes := s.cqes, agenda := s.agenda, ansIn := s.ansIn } : State)
      = { u with cqes := s.cqes, agenda := s.agenda, ansIn := s.ansIn } := by rw [State.cmdDone_eq]
    _ = { s with regs := u.regs } := by rw [h.2]
    _ = { s with regs := (u.cmdDone via res).regs } := by rw [State.cmdDone_regs]

theorem mem_runFlags {plan fov : Bool} {F : Field} : F ∈ runFlags plan fov
    ↔ (plan = true ∧ F = PLC.STAT_ERR_ARG) ∨ (fov = true ∧ F = FOV.STAT_ERR_ARG) := by
  cases plan <;> cases fov <;> simp [runFlags]

/-- Both flags stand once they are raised. -/
theorem State.runFlags_raised (plan fov : Bool) : ∀ F ∈ runFlags plan fov,
    ((runFlags plan fov).foldl State.raise s).on F = true := by
  have hplc (t : State) : (t.raise PLC.STAT_ERR_ARG).on PLC.STAT_ERR_ARG = true := t.on_raise _ (by decide) (by decide)
  have hfov (t : State) : (t.raise FOV.STAT_ERR_ARG).on FOV.STAT_ERR_ARG = true := t.on_raise _ (by decide) (by decide)
  have hboth (t : State) : (t.raise FOV.STAT_ERR_ARG).on PLC.STAT_ERR_ARG = t.on PLC.STAT_ERR_ARG :=
    t.on_setF_ne FOV.STAT_ERR_ARG PLC.STAT_ERR_ARG 1 (by decide) (by decide)
  cases plan <;> cases fov <;> simp [runFlags, hplc, hfov, hboth]

section run
variable {s} {via : Via}

theorem State.moduleRun_refused (h : s.mstate ≠ stREADY ∨ s.ident.restart.isSome = true ∨ s.beaten 5 = true) :
    s.moduleRun via = s.cmdDone via 6 := if_pos h

/-- In READY, with no flush to wait for, the checks decide. -/
theorem State.moduleRun_ready (hm : s.mstate = stREADY) (hr : s.ident.restart = none) (hb : ¬s.beaten 5 = true) :
    s.moduleRun via = if s.runRefusal.1 then (s.runRefusal.2.foldl State.raise s).cmdDone via 6
      else if s.mapBad then (s.raise PLC.STAT_MAP_ERR).cmdDone via 3 else (s.moveTo stRUN 4).cmdDone via 0 := by
  refine if_neg ?_
  rw [hr]
  exact fun h => h.elim (fun h => h hm) fun h => h.elim Bool.false_ne_true hb

/-- A role, a lifecycle state, a charged store and a time are needed, and a comparator that plans. -/
theorem State.runRefusal_of_lack (h : (s.f FOV.STAT_ROLE = 0 ∨ (s.lc ≠ 2 ∧ s.lc ≠ 3) ∨ s.on PWS.STAT_STORE_OK = false
      ∨ (s.on (TIMEEXT.STATUS_SYNC 0) = false ∧ s.on (TIMEEXT.STATUS_GRANDMASTER 0) = false))
    ∨ s.planRefuses = true) : s.runRefusal.1 = true := by
  obtain ⟨fov, heq⟩ := s.runRefusal_eq
  rw [heq]
  rcases h with (h | ⟨h2, h3⟩ | h | ⟨hsync, hgm⟩) | h
  · simp [State.role, h]
  · simp [State.lcIn, lcOPERATIONAL, lcSERVICE, h2, h3]
  · simp [h]
  · simp [State.timeGood, hsync, hgm]
  · simp [h]

/-- A refused comparator sets its unit's ERR_ARG; nothing else changes but the completion and the record. -/
theorem State.runRefusal_cmdDone :
    let t := (s.runRefusal.2.foldl State.raise s).cmdDone via 6
    (via ≠ .none → t.cqes = s.cqes ++ [⟨via, 6, BitVec.ofNat 64 0, true, none⟩])
      ∧ t.ansIn.length = s.ansIn.length + 1 ∧ (∀ F ∈ s.runRefusal.2, t.on F = true)
      ∧ (∀ F ∈ s.runRefusal.2, F = PLC.STAT_ERR_ARG ∨ F = FOV.STAT_ERR_ARG)
      ∧ (s.planRefuses = true → t.on PLC.STAT_ERR_ARG = true)
      ∧ s.sameBut { t with cqes := s.cqes, agenda := s.agenda, ansIn := s.ansIn } (s.runRefusal.2.map Field.off) := by
  intro t
  obtain ⟨fov, heq⟩ := s.runRefusal_eq
  have hflags : s.runRefusal.2 = runFlags s.planRefuses fov := congrArg Prod.snd heq
  have hsame := State.foldl_raise_sameBut s.runRefusal.2 s
  have hon : ∀ F ∈ s.runRefusal.2, t.on F = true := by
    intro F hF
    refine (State.cmdDone_on _ via 6 0 F).trans ?_
    rw [hflags] at hF ⊢
    exact s.runFlags_raised _ _ F hF
  refine ⟨fun hvia => ?_, ?_, hon, fun F hF => ?_, fun hp => hon _ ?_, State.sameBut_cmdDone hsame via 6⟩
  · rw [← hsame.cqes]
    exact State.cmdDone_cqes _ 6 0 hvia
  · rw [← hsame.ansIn]
    exact State.cmdDone_illegal_ansIn_length _ via 0
  · rw [hflags, mem_runFlags] at hF
    exact hF.imp And.right And.right
  · rw [hflags, mem_runFlags]
    exact Or.inl ⟨hp, rfl⟩

/-- A joint map that breaks R227 completes with BAD_ARG and sets MAP_ERR. -/
theorem State.mapErr_cmdDone (hm : s.mstate = stREADY) :
    let t := (s.raise PLC.STAT_MAP_ERR).cmdDone via 3
    (via ≠ .none → t.cqes = s.cqes ++ [⟨via, 3, BitVec.ofNat 64 0, true, none⟩])
      ∧ t.on PLC.STAT_MAP_ERR = true ∧ t.mstate = 4 := by
  refine ⟨State.cmdDone_cqes _ 3 0, ?_, ?_⟩
  · exact (State.cmdDone_on _ via 3 0 _).trans (s.on_raise _ (by decide) (by decide))
  · exact (State.cmdDone_mstate _ via 3 0).trans
      ((s.f_setF_ne PLC.STAT_MAP_ERR PWS.MODSTATE_STATE 1 (by decide) (by decide)).trans hm)

end run

/-! ## The other commands -/

section commands
variable {s} {via : Via}

theorem State.isIn_ready_safe : s.isIn [stREADY, stSAFE] = true ↔ s.mstate = 4 ∨ s.mstate = 6 := by
  simp [State.isIn, stREADY, stSAFE]

/-- MODULE_STOP ends RUN when every axis stands still and no cause of a higher rank has acted (R21, R22). -/
theorem State.moduleStop_accepted (hm : s.mstate = stRUN) (hstill : ∀ n : Fin 96, s.axisStill n.val = true)
    (hb : ¬s.beaten 5 = true) : s.moduleStop via = (s.moveTo stREADY 4).cmdDone via 0 :=
  if_pos ⟨hm, List.all_eq_true.mpr fun n hn => hstill ⟨n, List.mem_range.mp hn⟩, Bool.eq_false_iff.mpr hb⟩

theorem State.moduleStop_refused (h : s.mstate ≠ stRUN ∨ ¬(∀ n : Fin 96, s.axisStill n.val = true) ∨ s.beaten 5 = true) :
    s.moduleStop via = s.cmdDone via 6 := by
  refine if_neg ?_
  rintro ⟨hm, hstill, hb⟩
  rcases h with h | h | h
  · exact h hm
  · exact h fun n => List.all_eq_true.mp hstill n.val (List.mem_range.mpr n.isLt)
  · exact Bool.false_ne_true (hb.symm.trans h)

theorem State.moduleResetSafe_accepted (hm : s.mstate = stSAFE) (hf : s.saf.faults = []) (hb : ¬s.beaten 5 = true) :
    s.moduleResetSafe via = (s.moveTo stREADY 4).cmdDone via 0 :=
  if_pos ⟨hm, hf, Bool.eq_false_iff.mpr hb⟩

theorem State.moduleResetSafe_refused (h : s.mstate ≠ stSAFE ∨ s.saf.faults ≠ [] ∨ s.beaten 5 = true) :
    s.moduleResetSafe via = s.cmdDone via 6 := by
  refine if_neg ?_
  rintro ⟨hm, hf, hb⟩
  exact h.elim (fun h => h hm) fun h => h.elim (fun h => h hf) fun h => Bool.false_ne_true (hb.symm.trans h)

end commands

/-! ## The statement -/

/-- A write of a field changes its register alone. -/
theorem State.sameBut_setF (F : Field) (v : Nat) : s.sameBut (s.setF F v) [F.off] :=
  ⟨fun o ho => s.rd_setF_ne F v o (mt List.mem_singleton.mpr ho), rfl⟩

/-- The image step when no candidate passes: fall-back shown, then RECOVERY, or in RECOVERY a hold with NO_IMAGE. -/
theorem State.imageStep_none_effect (hstep : s.pws.recStep = 3) (h : ∀ k ∈ s.candidates, ¬s.imagePasses k) :
    ∃ u : State, (s.candidates = [] → u = s)
      ∧ (s.candidates ≠ [] → u.on SYS.BOOT_FALLBACK = true ∧ s.sameBut { u with ansIn := s.ansIn } [SYS.BOOT]
        ∧ ∃ x, u.ansIn = s.ansIn ++ [x] ∧ x.code = 0x1511#16)
      ∧ (s.mstate = stBOOT → s.imageStep = u.toRecovery 6)
      ∧ (s.mstate = stRECOVERY →
        ∃ v : State, v.on PWS.STAT_NO_IMAGE = true ∧ u.sameBut v [PWS.STAT] ∧ s.imageStep = v.recHold) := by
  have himage := s.bootImage_none h
  refine ⟨if s.candidates = [] then s else s.fallenBack, fun hc => if_pos hc, fun hc => ?_, fun hm => ?_, fun hm => ?_⟩
  · rw [if_neg hc]
    exact ⟨s.on_raise _ (by decide) (by decide), s.sameBut_setF SYS.BOOT_FALLBACK 1, _, rfl, rfl⟩
  · exact (State.imageStep_boot hm hstep himage).trans (if_neg Bool.false_ne_true)
  · exact ⟨_, State.on_raise _ _ (by decide) (by decide), State.sameBut_setF _ PWS.STAT_NO_IMAGE 1,
      (State.imageStep_recovery hm hstep himage).trans (if_neg Bool.false_ne_true)⟩

/-- The image step when the first candidate passes: it is loaded and its self-test starts. -/
theorem State.imageStep_first_effect {k : Nat} {l : List Nat} (hstep : s.pws.recStep = 3) (hc : s.candidates = k :: l)
    (hk : s.imagePasses k) :
    ∃ u : State, u.f SYS.BOOT_SLOT = k % 2 ∧ u.on SYS.BOOT_FALLBACK = false
      ∧ u.rd SYS.IMGVER = BitVec.ofNat 32 (s.norNat (slotBase k + 0x1010) 4)
      ∧ (s.mstate = stBOOT → s.imageStep
        = State.testGraph { u.moveTo stTEST 6 with pws := { (u.moveTo stTEST 6).pws with recStep := 0 } })
      ∧ (s.mstate = stRECOVERY → s.imageStep = State.testGraph { u with pws := { u.pws with recStep := 4 } }) := by
  have himage := s.bootImage_first hc hk
  obtain ⟨hslot, hfall, hver⟩ := s.slotShown_loadImage k
  exact ⟨_, hslot, hfall, hver, fun hm => (State.imageStep_boot hm hstep himage).trans (if_pos rfl),
    fun hm => (State.imageStep_recovery hm hstep himage).trans (if_pos rfl)⟩

/-- A good wipe: memory is wiped, and the graph of the die ROM starts. -/
theorem State.wipeDone_good_effect (hstep : s.pws.recStep = 1) :
    let w := if s.fov.read then s.wiped else s.wiped.bcrLoad
    (s.mstate = stBOOT → s.wipeDone true = w.romGraph 0) ∧ (s.mstate = stRECOVERY → s.wipeDone true = w.romGraph 1) := by
  refine ⟨fun hm => ?_, fun hm => ?_⟩
  · rw [State.wipeDone_step1 (Or.inl hm) hstep, if_pos rfl, if_pos hm]
  · rw [State.wipeDone_step1 (Or.inr hm) hstep, if_pos rfl, if_neg (State.ne_boot_of_recovery hm)]

/-- A wipe that failed: GRESULT shows it, and the module goes to RECOVERY or begins it again. -/
theorem State.wipeDone_failed_effect (hstep : s.pws.recStep = 1) :
    ∃ u : State, s.sameBut u [CLV.STAT] ∧ u.f CLV.STAT_GRESULT = 9
      ∧ (s.mstate = stBOOT → s.wipeDone false = u.toRecovery 0x0A)
      ∧ (s.mstate = stRECOVERY → s.wipeDone false = u.recAgain 0x0A) := by
  refine ⟨s.setF CLV.STAT_GRESULT 9, s.sameBut_setF CLV.STAT_GRESULT 9,
    s.f_setF_same CLV.STAT_GRESULT 9 (by decide), fun hm => ?_, fun hm => ?_⟩
  · rw [State.wipeDone_step1 (Or.inl hm) hstep, if_neg Bool.false_ne_true, if_pos hm]
  · rw [State.wipeDone_step1 (Or.inr hm) hstep, if_neg Bool.false_ne_true, if_neg (State.ne_boot_of_recovery hm)]

/-- Settles O54: one equation of each command for each of its cases. -/
theorem startUpAndModuleCommands : Obligations.StartUpAndModuleCommands := by
  intro s via good m step answers refused waits wiped lacks still noPlan late
  have hrefused (t : State) (ht : t = s.cmdDone via 6) : refused t := ht ▸ s.cmdDone_refused via
  refine ⟨⟨if s.mstate = stBOOT ∧ s.pws.recStep = 0 then s.setPws { s.pws with recStep := 1 } else s, rfl,
      ?railsUp, ?railsIdle⟩,
    ⟨s.wipeDone good, rfl, State.wipeDone_idle, ?wiped, ?wipeFailed⟩,
    ⟨s.imageStep, rfl, State.imageStep_idle, ?noImage, ?image⟩,
    ⟨if s.mstate = stRECOVERY ∧ s.pws.recStep = 5 then s.toReady 0x0A else s, rfl, ?waitEnds, ?waitIdle⟩,
    ⟨if s.mstate = stRECOVERY ∧ s.pws.recStep ≠ 0 ∧ s.pws.recStep ≠ 5 then s.recAgain 0x0A else s, rfl,
      ?timeout, ?timeoutIdle⟩,
    ⟨s.moduleRun via, rfl, ?runRefused, ?runReady⟩,
    ⟨s.moduleStop via, rfl, ?stop, ?stopRefused⟩,
    ⟨s.moduleResetSafe via, rfl, ?resetSafe, ?resetSafeRefused⟩,
    ⟨s.moduleSleep via, rfl, ?sleep, ?sleepRefused⟩,
    ⟨s.moduleRestart via, rfl, ?restart, ?restartRefused⟩⟩
  case railsUp => exact fun hm hs => if_pos ⟨hm, hs⟩
  case railsIdle => exact fun h => if_neg fun ⟨hm, hs⟩ => h.elim (fun h => h hm) fun h => h hs
  case wiped =>
    intro hs hg
    subst hg
    exact ⟨s.wiped, ⟨fun a ha => s.wiped_shared_factor ha, fun hm a ha => State.wiped_capture hm ha, s.wiped_regs, rfl⟩,
      s.wipeDone_good_effect hs⟩
  case wipeFailed =>
    intro hs hg
    subst hg
    exact s.wipeDone_failed_effect hs
  case noImage => exact fun hs h => s.imageStep_none_effect hs h
  case image => exact fun hs k l hc hk => s.imageStep_first_effect hs hc hk
  case waitEnds => exact fun hm hs => if_pos ⟨hm, hs⟩
  case waitIdle => exact fun h => if_neg fun ⟨hm, hs⟩ => h.elim (fun h => h hm) fun h => h hs
  case timeout => exact fun hm h0 h5 => if_pos ⟨hm, h0, h5⟩
  case timeoutIdle =>
    exact fun h => if_neg fun ⟨hm, h0, h5⟩ => h.elim (fun h => h hm) fun h => h.elim (fun h => h0 h) fun h => h5 h
  case runRefused => exact fun h => hrefused _ (State.moduleRun_refused h)
  case runReady =>
    intro hm hr hb no
    have hrun : s.moduleRun via = _ := State.moduleRun_ready hm hr hb
    have hplan : noPlan → s.planRefuses = true := fun ⟨hrole, hcmp⟩ => by
      simp only [State.planRefuses, hcmp, Bool.not_false, Bool.and_true, Bool.or_eq_true]
      exact hrole
    refine ⟨fun h => State.runRefusal_of_lack (h.imp id hplan), fun hno hmap => ?_, fun hno hmap => ?_, fun hno => ?_⟩
    · rw [hrun, if_neg (ne_true_of_eq_false hno), if_pos hmap]
      exact State.mapErr_cmdDone hm
    · rw [hrun, if_neg (ne_true_of_eq_false hno), if_neg (ne_true_of_eq_false hmap)]
      rfl
    · rw [hrun, if_pos hno]
      obtain ⟨hcqes, hans, hon, hwhich, hplc, hsame⟩ := State.runRefusal_cmdDone (s := s) (via := via)
      exact ⟨hcqes, hans, hon, hwhich, fun h => hplc (hplan h), hsame⟩
  case stop => exact fun hm hst hb => State.moduleStop_accepted hm hst hb
  case stopRefused => exact fun h => hrefused _ (State.moduleStop_refused h)
  case resetSafe => exact fun hm hf hb => State.moduleResetSafe_accepted hm hf hb
  case resetSafeRefused => exact fun h => hrefused _ (State.moduleResetSafe_refused h)
  case sleep =>
    intro hm
    rw [State.moduleSleep, if_pos (show s.mstate = stREADY from hm)]
    exact s.cmdDone_waits via stSLEEP 256
  case sleepRefused => exact fun hm => hrefused _ (if_neg hm)
  case restart =>
    intro hm
    rw [State.moduleRestart, if_pos (State.isIn_ready_safe.mpr hm)]
    exact s.cmdDone_waits via stBOOT 4
  case restartRefused => exact fun h4 h6 => hrefused _ (if_neg fun h => (State.isIn_ready_safe.mp h).elim h4 h6)

end Sys2Proof.Machine
end

section
/-! PROOF of the statement RailsClockAndWatchdogs (R12, R21, R22, R28, R460, R472, R473, R476, R480). First what a cause
that is ranked in R22 does, then what the trip fabric, Saffron and Clove leave when they act for a cause, then the
commands. -/

namespace Sys2Proof.Machine

variable (s : State)

@[simp] theorem State.setPws_pws (x : Pws) : (s.setPws x).pws = x := rfl
@[simp] theorem State.setPws_mstate (x : Pws) : (s.setPws x).mstate = s.mstate := rfl
@[simp] theorem State.setPws_ansIn (x : Pws) : (s.setPws x).ansIn = s.ansIn := rfl
@[simp] theorem State.setPws_now (x : Pws) : (s.setPws x).now = s.now := rfl
@[simp] theorem State.setPws_agenda (x : Pws) : (s.setPws x).agenda = s.agenda := rfl

/-! ## Ranked causes (R22) -/

/-- A ranked cause does what R22 says, with its effect. -/
theorem State.ranks_ranked (r : Nat) (act : State → State) : s.ranks (s.ranked r act) r (fun x w => w = act x) := by
  refine ⟨fun h => if_pos h, fun h => ⟨act (s.unmoved r), rfl, fun hk => ?_, fun hk => ?_⟩⟩
  · exact (if_neg (ne_true_of_eq_false h)).trans (if_neg hk)
  · exact (if_neg (ne_true_of_eq_false h)).trans (if_pos hk)

/-- What holds of the effect of a cause holds of the effect that R22 lets it have. -/
theorem State.ranks.imp {s t : State} {r : Nat} {act act' : State → State → Prop} (h : s.ranks t r act)
    (himp : ∀ x w, act x w → act' x w) : s.ranks t r act' :=
  ⟨h.1, fun hb => (h.2 hb).imp fun _ ⟨hw, hnew, hold⟩ => ⟨himp _ _ hw, hnew, fun hk => himp _ _ (hold hk)⟩⟩

/-- A state with the module watchdog (R472). -/
def State.wdtRuns (s : State) : Prop := s.mstate = 2 ∨ s.mstate = 3 ∨ s.mstate = 4 ∨ s.mstate = 5 ∨ s.mstate = 6

/-- A recovery that runs, and so can fail. -/
def State.recovers (s : State) : Prop := s.mstate = 8 ∧ s.pws.recStep ≠ 0

theorem State.isIn_wdtStates : s.isIn wdtStates = true ↔ s.wdtRuns := by
  simp [State.isIn, wdtStates, stBOOT, stTEST, stREADY, stRUN, stSAFE, State.wdtRuns]

theorem State.isIn_poweredStates : s.isIn poweredStates = true ↔ s.wdtRuns ∨ s.mstate = 8 := by
  simp [State.isIn, poweredStates, stBOOT, stTEST, stREADY, stRUN, stSAFE, stRECOVERY, State.wdtRuns, or_assoc]

/-- What a fault that acts as a watchdog expiry does: a recovery starts, or the one that runs fails (R21). -/
def FaultLeads (cause : Nat) (x w : State) : Prop :=
  (x.wdtRuns → w = x.toRecovery cause) ∧ (x.recovers → w = x.recAgain cause)
    ∧ (¬x.wdtRuns → ¬x.recovers → w = x)

theorem State.moduleFault_ranks (cause : Nat) :
    s.ranks (s.moduleFault cause) (rankOf stRECOVERY cause) (FaultLeads cause) := by
  refine (s.ranks_ranked _ _).imp fun x w hw => ?_
  subst hw
  refine ⟨fun h => if_pos (x.isIn_wdtStates.mpr h), fun h => ?_, fun hw hr => ?_⟩
  · have hnot : ¬x.isIn wdtStates = true := by
      rw [State.isIn_wdtStates, State.wdtRuns, h.1]
      decide
    exact (if_neg hnot).trans (if_pos h)
  · exact (if_neg (mt x.isIn_wdtStates.mp hw)).trans (if_neg hr)

/-! ## The agenda -/

theorem mem_insertDue {d x : Due} {l : List Due} : x ∈ insertDue d l ↔ x = d ∨ x ∈ l := by
  induction l with
  | nil => simp [insertDue]
  | cons y ys ih =>
    unfold insertDue
    split
    · simp
    · rw [List.mem_cons, List.mem_cons, ih]
      tauto

/-- After a new arming of a command it falls due once, at the new time; nothing else changes. -/
theorem State.mem_resched_agenda {dt : Nat} {c : Instr} {d : Due} :
    d ∈ (s.resched dt c).agenda ↔ d = ⟨s.now + dt, .cmd c⟩ ∨ (d ∈ s.agenda ∧ d.ev ≠ .cmd c) := by
  refine mem_insertDue.trans (or_congr Iff.rfl ?_)
  rw [State.cancel, State.undue, List.mem_filter]
  simp

/-! ## Rails and the die (R460, R480) -/

section rails
variable {s} {k : Nat}

/-- A rail that leaves its window: the flag, the record, and the time of its leaving (R460). -/
def State.railNoted (s : State) (k : Nat) : State :=
  ((s.raise PWS.STAT_RAIL_FLT).pwsRecord 0x13 [(k, 1)]).setPws
    { s.pws with rails := (s.pws.rails.filter (fun x => !decide (x.1 = k))) ++ [(k, s.now)] }

theorem State.railNoted_mstate : (s.railNoted k).mstate = s.mstate :=
  s.f_setF_ne PWS.STAT_RAIL_FLT PWS.MODSTATE_STATE 1 (by decide) (by decide)

theorem State.railFault_asleep (h : s.mstate < 2) : s.railFault k = s :=
  if_pos (by rw [State.isIn_off_sleep, decide_eq_true h])

theorem State.railFault_awake (h : 2 ≤ s.mstate) : s.railFault k = if s.mstate = stHOLDUP
    then (s.railNoted k).ranked 2 (fun x => (x.powerOff 0x09).tryStart) else (s.railNoted k).moduleFault 0x09 := by
  rw [← State.railNoted_mstate (k := k)]
  exact if_neg (ne_true_of_eq_false (State.isIn_awake h))

/-- Beside the time of the fault and the record only PWS_STAT changes. -/
theorem State.railNoted_sameBut : s.sameBut { s.railNoted k with pws := s.pws, ansIn := s.ansIn } [PWS.STAT] :=
  s.sameBut_setF PWS.STAT_RAIL_FLT 1

theorem State.railNoted_on : (s.railNoted k).on PWS.STAT_RAIL_FLT = true :=
  s.on_raise PWS.STAT_RAIL_FLT (by decide) (by decide)

theorem State.railNoted_record : ∃ x, (s.railNoted k).ansIn = s.ansIn ++ [x] ∧ x.code = 0x1613#16 :=
  ⟨_, rfl, rfl⟩

/-- Awake the fault is noted, then RECOVERY follows as R22 lets it, from HOLDUP OFF. -/
theorem State.railFault_ranks (h : 2 ≤ s.mstate) :
    (s.mstate ≠ 7 → (s.railNoted k).ranks (s.railFault k) 2 (FaultLeads 9))
      ∧ (s.mstate = 7 → (s.railNoted k).ranks (s.railFault k) 2 (fun x w => w = (x.powerOff 9).tryStart)) := by
  rw [State.railFault_awake h]
  refine ⟨fun hm => ?_, fun hm => ?_⟩
  · rw [if_neg (show ¬s.mstate = stHOLDUP from hm)]
    exact State.moduleFault_ranks _ 9
  · rw [if_pos (show s.mstate = stHOLDUP from hm)]
    exact State.ranks_ranked _ 2 _

/-- The rail has been outside its window for 10 ms. -/
theorem State.railOverdue_iff :
    s.railOverdue k = true ↔ ∃ x ∈ s.pws.rails, x.1 = k ∧ x.2 + 2500000 ≤ s.now := by
  simp [State.railOverdue]

theorem State.railPersist_ranks (h : s.railOverdue k = true) :
    s.ranks (s.railPersist k) 2 (fun x w => (x.wdtRuns ∨ x.mstate = 8 → w = (x.powerOff 9).tryStart)
      ∧ (¬x.wdtRuns → x.mstate ≠ 8 → w = x)) := by
  rw [State.railPersist, if_pos h]
  refine (s.ranks_ranked _ _).imp fun x w hw => ?_
  subst hw
  exact ⟨fun h => if_pos (x.isIn_poweredStates.mpr h),
    fun hw h8 => if_neg (mt x.isIn_poweredStates.mp fun h => h.elim hw h8)⟩

theorem State.tryStart_idle (h : s.mstate ≠ 0 ∨ s.anyInput = false) : s.tryStart = s := by
  refine if_neg ?_
  rw [Bool.and_eq_true, Bool.and_eq_true, decide_eq_true_eq]
  rintro ⟨⟨hm, hin⟩, -⟩
  exact h.elim (fun h => h hm) fun h => Bool.false_ne_true (h.symm.trans hin)

theorem State.tryStart_starts (hm : s.mstate = 0) (hin : s.anyInput = true) (hcool : s.pws.hot = false) :
    s.tryStart = (s.bootReset 1 false).transition := by
  refine if_pos ?_
  rw [hin, hcool, decide_eq_true (show s.mstate = stOFF from hm)]
  rfl

/-- Beside the supply and the records the same, where the supply was another one before. -/
theorem State.sameBut.ofSetPws {u : State} {x : Pws} {l : List Nat}
    (h : (s.setPws x).sameBut { u with pws := (s.setPws x).pws, ansIn := (s.setPws x).ansIn } l) :
    s.sameBut { u with pws := s.pws, ansIn := s.ansIn } l := ⟨h.1, congrArg (fun y : State => y.setPws s.pws) h.2⟩

theorem State.railNoted_pws : (s.railNoted k).pws
    = { s.pws with rails := (s.pws.rails.filter (fun x => !decide (x.1 = k))) ++ [(k, s.now)] } := by
  rw [State.railNoted]
  exact State.setPws_pws _ _

/-- A rail fault, or with `hot` the die's (R460, R480), of an awake module. -/
theorem State.railFault_effect (hot : Bool) (k : Nat) (h : 2 ≤ s.mstate) :
    ∃ u : State, u.pws = { s.pws with
        hot := hot
        rails := (s.pws.rails.filter (fun x => !decide (x.1 = k))) ++ [(k, s.now)] }
      ∧ u.on PWS.STAT_RAIL_FLT = true ∧ s.sameBut { u with pws := s.pws, ansIn := s.ansIn } [PWS.STAT]
      ∧ (∃ x, u.ansIn = s.ansIn ++ [x] ∧ x.code = 0x1613#16)
      ∧ (s.mstate ≠ 7 → u.ranks ((s.setPws { s.pws with hot := hot }).railFault k) 2 (FaultLeads 9))
      ∧ (s.mstate = 7 → u.ranks ((s.setPws { s.pws with hot := hot }).railFault k) 2
          (fun x w => w = (x.powerOff 9).tryStart)) := by
  have hawake : 2 ≤ (s.setPws { s.pws with hot := hot }).mstate := by rwa [State.setPws_mstate]
  obtain ⟨hrun, hheld⟩ := State.railFault_ranks (k := k) hawake
  rw [State.setPws_mstate] at hrun hheld
  have hpws := (s.setPws { s.pws with hot := hot }).railNoted_pws (k := k)
  rw [State.setPws_pws, State.setPws_now] at hpws
  have hrec := State.railNoted_record (s := s.setPws { s.pws with hot := hot }) (k := k)
  rw [State.setPws_ansIn] at hrec
  exact ⟨_, hpws, State.railNoted_on, State.railNoted_sameBut.ofSetPws, hrec, hrun, hheld⟩

theorem State.railFault_hot_asleep (hot : Bool) (k : Nat) (h : s.mstate < 2) :
    (s.setPws { s.pws with hot := hot }).railFault k = s.setPws { s.pws with hot := hot } :=
  State.railFault_asleep (by rwa [State.setPws_mstate])

/-- A rail fault leaves the mark of the die as it is. -/
theorem State.setPws_hot_self : s.setPws { s.pws with hot := s.pws.hot } = s := rfl

/-- The die has cooled: index 7 is back, and a module that is OFF with a good input starts (R21, R480). -/
theorem State.dieCooled_effect (u : State)
    (hu : u = s.setPws { s.pws with hot := false, rails := s.pws.rails.filter (fun x => !decide (x.1 = 7)) }) :
    (s.mstate ≠ 0 ∨ s.anyInput = false → u.tryStart = u)
      ∧ (s.mstate = 0 → s.anyInput = true → u.tryStart = (u.bootReset 1 false).transition) := by
  have hm : u.mstate = s.mstate := by rw [hu, State.setPws_mstate]
  have hin : u.anyInput = s.anyInput := by rw [hu]; rfl
  have hcool : u.pws.hot = false := by rw [hu, State.setPws_pws]
  rw [← hm, ← hin]
  exact ⟨State.tryStart_idle, fun h0 h1 => State.tryStart_starts h0 h1 hcool⟩

end rails

/-! ## What the trip fabric leaves (R76 to R84) -/

/-- The first address behind the registers of the drive ports and the trip fabric. -/
def fabricTop : Nat := 0x01000000

/-- From `s` to `t` the trip fabric has acted: registers behind its own, the supply and the time are as they were. -/
structure State.TripKeeps (s t : State) : Prop where
  rd : ∀ k, fabricTop ≤ k → t.rd k = s.rd k
  pws : t.pws = s.pws
  now : t.now = s.now

namespace State.TripKeeps
variable {s} {t u : State}

theorem refl (s : State) : s.TripKeeps s := ⟨fun _ _ => rfl, rfl, rfl⟩

theorem trans (h : s.TripKeeps t) (h' : t.TripKeeps u) : s.TripKeeps u :=
  ⟨fun k hk => (h'.rd k hk).trans (h.rd k hk), h'.pws.trans h.pws, h'.now.trans h.now⟩

/-- A write of one of the fabric's own registers. -/
theorem wr (h : s.TripKeeps t) {o : Nat} (ho : o < fabricTop) (v : Word) : s.TripKeeps (t.wr o v) :=
  ⟨fun k hk => (t.rd_wr_ne o k v (Nat.ne_of_gt (ho.trans_le hk))).trans (h.rd k hk), h.pws, h.now⟩

theorem setF (h : s.TripKeeps t) {F : Field} (hF : F.off < fabricTop) (v : Nat) : s.TripKeeps (t.setF F v) := h.wr hF _

theorem raise (h : s.TripKeeps t) {F : Field} (hF : F.off < fabricTop) : s.TripKeeps (t.raise F) := h.setF hF 1

theorem bump (h : s.TripKeeps t) {F : Field} (hF : F.off < fabricTop) : s.TripKeeps (t.bump F) := h.setF hF _

/-- What changes neither registers nor the supply nor the time. -/
theorem same (h : s.TripKeeps t) (hregs : u.regs = t.regs) (hpws : u.pws = t.pws) (hnow : u.now = t.now) :
    s.TripKeeps u :=
  ⟨fun k hk => (congrArg (fun r : FMap Word => r.get regReset k) hregs).trans (h.rd k hk), hpws.trans h.pws,
    hnow.trans h.now⟩

theorem sched (h : s.TripKeeps t) (dt : Nat) (c : Instr) : s.TripKeeps (t.sched dt c) := ⟨h.rd, h.pws, h.now⟩

theorem record (h : s.TripKeeps t) (cls code unit sev : Nat) (p : BitVec 128) :
    s.TripKeeps (t.record cls code unit sev p) := ⟨h.rd, h.pws, h.now⟩

theorem foldl {α : Type} {op : State → α → State} {l : List α} (h : s.TripKeeps t)
    (hop : ∀ u : State, ∀ x ∈ l, u.TripKeeps (op u x)) : s.TripKeeps (l.foldl op t) :=
  List.foldlRecOn (motive := fun u : State => s.TripKeeps u) l op h fun u hu x hx => hu.trans (hop u x hx)

end State.TripKeeps

/-- Nothing but the legs changes where pads are noted to turn off. -/
theorem State.noteOff_eq (before : State) (p : Nat) : State.noteOff before p s
    = { s with leg := (State.noteOff before p s).leg } := by
  refine List.foldlRecOn (motive := fun t : State => t = { s with leg := t.leg }) _ _ rfl fun t ht k _ => ?_
  rw [ht]
  dsimp only
  split_ifs <;> rfl

/-- Nothing but the legs changes where forced levels take effect. -/
theorem State.forceLegs_eq (p : Nat) (starts : Bool) : s.forceLegs p starts
    = { s with leg := (s.forceLegs p starts).leg } := by
  refine List.foldlRecOn (motive := fun t : State => t = { s with leg := t.leg }) _ _ rfl fun t ht k _ => ?_
  rw [ht]
  dsimp only
  split_ifs <;> rfl

section latches
variable {s} {t : State} {p : Nat}

theorem trf_lt_fabricTop (hp : p < 96) : TRF.LATCH p < fabricTop ∧ DPW.STAT p < fabricTop ∧ TRF.FIRST p < fabricTop
    ∧ TRF.FTIME p < fabricTop ∧ TRF.CNT p < fabricTop := by
  simp only [TRF.LATCH, DPW.STAT, TRF.FIRST, TRF.FTIME, TRF.CNT, fabricTop]
  omega

theorem State.TripKeeps.noteOff (h : s.TripKeeps t) (before : State) (p : Nat) :
    s.TripKeeps (State.noteOff before p t) := by
  rw [State.noteOff_eq]
  exact h.same rfl rfl rfl

theorem State.TripKeeps.forceLegs (h : s.TripKeeps t) (p : Nat) (starts : Bool) :
    s.TripKeeps (t.forceLegs p starts) := by
  rw [State.forceLegs_eq]
  exact h.same rfl rfl rfl

theorem State.TripKeeps.firstTime (h : s.TripKeeps t) (hp : p < 96) (frac : Nat) :
    s.TripKeeps (t.firstTime p frac) := by
  obtain ⟨-, -, hfirst, htime, -⟩ := trf_lt_fabricTop hp
  exact ((h.setF (F := TRF.FIRST_FRAC p) hfirst _).setF (F := TRF.FIRST_WC p) hfirst _).wr htime _

theorem State.TripKeeps.tripAgain (h : s.TripKeeps t) (hp : p < 96) (mask frac : Nat) :
    s.TripKeeps (t.tripAgain p mask frac) := by
  obtain ⟨-, -, hfirst, -, -⟩ := trf_lt_fabricTop hp
  have hrecs {u : State} (hu : s.TripKeeps u) (l : List Rec) : s.TripKeeps { u with ansIn := l } :=
    ⟨hu.rd, hu.pws, hu.now⟩
  unfold State.tripAgain
  split_ifs
  · exact hrecs ((h.setF (F := TRF.FIRST_SRC p) hfirst _).firstTime hp frac) _
  · exact hrecs h _
  · exact h

theorem State.TripKeeps.latchSet (h : s.TripKeeps t) (hp : p < 96) (mask frac : Nat) :
    s.TripKeeps (t.latchSet p mask frac) := by
  obtain ⟨hlatch, hstat, hfirst, htime, hcnt⟩ := trf_lt_fabricTop hp
  have hforced := (((h.wr hlatch (BitVec.ofNat 32 ((t.rd (TRF.LATCH p)).toNat ||| mask))).raise
    (F := DPW.STAT_FORCED p) hstat).forceLegs p (!t.forced p)).noteOff t p
  have hnew {u : State} (hu : s.TripKeeps u) : s.TripKeeps ((((u.setF (TRF.FIRST_SRC p) (lowestCode mask)).raise
      (TRF.FIRST_VALID p)).firstTime p frac).bump (TRF.CNT_TRIPS p)) :=
    (((hu.setF (F := TRF.FIRST_SRC p) hfirst _).raise (F := TRF.FIRST_VALID p) hfirst).firstTime hp frac).bump
      (F := TRF.CNT_TRIPS p) hcnt
  unfold State.latchSet
  simp only
  split_ifs
  · exact h
  · exact hforced.tripAgain hp mask frac
  · exact ((hnew hforced).sched _ _).record _ _ _ _ _

theorem tripPorts_lt {i : TripInput} (h : p ∈ tripPorts i) : p < 96 := by
  cases i with
  | flt q => exact List.mem_singleton.mp h ▸ q.isLt
  | dcv g | sto g =>
    obtain ⟨i, hi, rfl⟩ := List.mem_map.mp h
    have := List.mem_range.mp hi
    omega
  | tripN | pws | modState => exact List.mem_range.mp h

theorem State.TripKeeps.gstatSource (h : s.TripKeeps t) (i : TripInput) (b : Bool) :
    s.TripKeeps (t.gstatSource i b) := by
  have hlow : TRFG.GSTAT < fabricTop := by decide
  cases i with
  | flt | dcv => exact h
  | tripN => exact h.setF (F := TRFG.GSTAT_TRIPN) hlow _
  | pws => exact h.setF (F := TRFG.GSTAT_PLL_UNLOCK) hlow _
  | modState => exact h.setF (F := TRFG.GSTAT_STATE) hlow _
  | sto g => exact h.setF (F := ⟨TRFG.GSTAT, 16 + g.val, 1⟩) hlow _

theorem State.TripKeeps.tripAssert (h : s.TripKeeps t) (i : TripInput) (frac : Nat) :
    s.TripKeeps (t.tripAssert i frac) := by
  have hin : s.TripKeeps (t.setTripIn (tripKey i) ⟨true, none⟩) := h.same rfl rfl rfl
  refine (hin.gstatSource i true).foldl fun u p hp => ?_
  split_ifs
  · exact (State.TripKeeps.refl u).latchSet (tripPorts_lt hp) _ _
  · exact .refl u

theorem State.noteOff_agenda (before : State) (p : Nat) : (State.noteOff before p s).agenda = s.agenda := by
  rw [State.noteOff_eq]

/-- A latch that clears schedules nothing. -/
theorem State.latchClear_agenda (mask : Nat) : (s.latchClear p mask).agenda = s.agenda := by
  unfold State.latchClear
  simp only
  split_ifs
  · rfl
  · exact State.noteOff_agenda _ _
  · exact State.setF_agenda _ _ _
  · rfl

theorem State.gstatSource_agenda (i : TripInput) (b : Bool) : (s.gstatSource i b).agenda = s.agenda := by
  cases i with
  | flt | dcv => rfl
  | tripN | pws | modState | sto => exact s.flag_agenda _ _

theorem State.tripRelease_agenda (i : TripInput) : (s.tripRelease i).agenda = s.agenda := by
  have hfold (l : List Nat) (u : State) (hu : u.agenda = s.agenda) :
      (l.foldl (fun t p => t.latchClear p (tripBit i)) u).agenda = s.agenda :=
    List.foldlRecOn (motive := fun t : State => t.agenda = s.agenda) l _ hu
      fun t ht q _ => (t.latchClear_agenda _).trans ht
  unfold State.tripRelease
  simp only
  split_ifs
  · exact State.gstatSource_agenda _ _
  · exact s.gstatSource_agenda _ _
  · exact hfold _ _ (State.gstatSource_agenda _ _)
  · exact hfold _ _ (s.gstatSource_agenda _ _)

end latches

/-! ## What STO of every group leaves (R231, R251) -/

section sto
variable {s} {t u : State}

/-- The supply and the time are the same. -/
def State.powerKept (s t : State) : Prop := t.pws = s.pws ∧ t.now = s.now

theorem State.TripKeeps.power (h : s.TripKeeps t) : s.powerKept t := ⟨h.pws, h.now⟩

theorem State.powerKept.refl (s : State) : s.powerKept s := ⟨rfl, rfl⟩

theorem State.powerKept.trans (h : s.powerKept t) (h' : t.powerKept u) : s.powerKept u :=
  ⟨h'.1.trans h.1, h'.2.trans h.2⟩

theorem State.powerKept.foldl {α : Type} {op : State → α → State} (l : List α) (h : s.powerKept t)
    (hop : ∀ u x, State.powerKept u (op u x)) : s.powerKept (l.foldl op t) :=
  List.foldlRecOn (motive := fun u : State => s.powerKept u) l op h fun u hu x _ => hu.trans (hop u x)

/-- Group `g` of Saffron before its STO: its release and its switches start over. -/
def State.unreleased (s : State) (g : Nat) : State := (s.setRel g 0).setSwitches g 0

theorem State.groupSto_eq (g : Nat) : s.groupSto g = if (s.unreleased g).groupIn g then s.unreleased g
    else ((s.unreleased g).raise (bitAt SAF.GSTO_STO g)).tripAssert (.sto (Fin.ofNat 12 g)) 32 := rfl

theorem State.powerKept_groupSto (g : Nat) : s.powerKept (s.groupSto g) := by
  rw [State.groupSto_eq]
  split_ifs
  · exact ⟨rfl, rfl⟩
  · have htrip := (State.TripKeeps.refl ((s.unreleased g).raise (bitAt SAF.GSTO_STO g))).tripAssert
      (.sto (Fin.ofNat 12 g)) 32
    have hraise : s.powerKept ((s.unreleased g).raise (bitAt SAF.GSTO_STO g)) :=
      ⟨State.raise_pws _ _, State.raise_now _ _⟩
    exact hraise.trans htrip.power

theorem State.powerKept_armSto (a cause : Nat) : s.powerKept (s.armSto a cause) := by
  have hgroups := State.powerKept.foldl (s := s) (s.pset.armGroups a) (.refl s) fun u g => State.powerKept_groupSto g
  have hports := hgroups.foldl (((s.pset.armGroups a).foldl State.groupSto s).pset.armPorts a) (op := State.pgSs1End)
    fun _ _ => ⟨State.flag_pws _ _ _, State.flag_now _ _ _⟩
  unfold State.armSto
  simp only
  split_ifs
  · exact hgroups
  · refine hports.trans ⟨?_, ?_⟩
    · exact (State.setF_pws _ _ _).trans (State.setF_pws _ _ _)
    · exact (State.setF_now _ _ _).trans (State.setF_now _ _ _)

theorem State.powerKept_stoAll (cause : Nat) : s.powerKept (s.stoAll cause) := by
  have harms := State.powerKept.foldl (s := s) s.safArms (op := fun (u : State) a => u.armSto a cause) (.refl s)
    fun u a => State.powerKept_armSto a cause
  exact harms.foldl _ fun u g => State.powerKept_groupSto g

/-- The trip fabric leaves the STO of the groups. -/
theorem State.TripKeeps.groupIn (h : s.TripKeeps t) (g : Nat) : t.groupIn g = s.groupIn g := by
  unfold State.groupIn State.on State.f
  have hrd : t.rd (bitAt SAF.GSTO_STO g).off = s.rd (bitAt SAF.GSTO_STO g).off :=
    h.rd SAF.GSTO (by decide)
  rw [hrd]

theorem State.groupSto_groupIn {g : Nat} (hg : g < 12) : (s.groupSto g).groupIn g = true := by
  have hw : (bitAt SAF.GSTO_STO g).lo + (bitAt SAF.GSTO_STO g).w ≤ 32 := by
    simp only [bitAt, SAF.GSTO_STO]
    omega
  rw [State.groupSto_eq]
  split_ifs with h
  · exact h
  · rw [((State.TripKeeps.refl _).tripAssert _ _).groupIn]
    exact State.on_raise _ _ hw Nat.one_pos

/-- A group in STO stays there while another one enters it. -/
theorem State.groupIn_groupSto {g k : Nat} (hk : k < 12) (hg : g < 12) (h : s.groupIn g = true) :
    (s.groupSto k).groupIn g = true := by
  by_cases hgk : g = k
  · exact hgk ▸ State.groupSto_groupIn hg
  · rw [State.groupSto_eq]
    split_ifs
    · exact h
    · rw [((State.TripKeeps.refl _).tripAssert _ _).groupIn]
      refine (State.on_setF_ne _ (bitAt SAF.GSTO_STO k) (bitAt SAF.GSTO_STO g) 1 ?_ ?_).trans h
      all_goals
        simp only [bitAt, SAF.GSTO_STO]
        omega

theorem State.stoAll_groupIn (cause : Nat) (g : Fin 12) : (s.stoAll cause).groupIn g.val = true := by
  have hall (n : Nat) (hn : n ≤ 12) : ∀ k < n, ((List.range n).foldl State.groupSto
      (s.safArms.foldl (fun (u : State) a => u.armSto a cause) s)).groupIn k = true := by
    induction n with
    | zero => exact fun k hk => absurd hk (Nat.not_lt_zero k)
    | succ n ih =>
      intro k hk
      rw [List.range_succ, List.foldl_append]
      rcases Nat.lt_succ_iff_lt_or_eq.mp hk with hlt | rfl
      · exact State.groupIn_groupSto (by omega) (by omega) (ih (by omega) k hlt)
      · exact State.groupSto_groupIn (by omega)
  exact hall 12 le_rfl g.val g.isLt

end sto

/-! ## The PLL (R28) -/

section pll
variable {s} {frac : Nat}

theorem State.pllLoss_asleep (h : s.mstate < 2) : s.pllLoss frac = s :=
  if_pos (by rw [State.isIn_off_sleep, decide_eq_true h])

theorem State.pllLoss_awake (h : 2 ≤ s.mstate) : s.pllLoss frac
    = (((s.tripAssert .pws frac).setPws { s.pws with unlocked := true }).stoAll 0x83).resched 2500000 .pllLockTimeout :=
  if_neg (ne_true_of_eq_false (State.isIn_awake h))

/-- A lost lock: every group in STO, and 10 ms to lock again (R28). -/
theorem State.pllLoss_effect (h : 2 ≤ s.mstate) : (s.pllLoss frac).pws.unlocked = true
    ∧ (∀ g : Fin 12, (s.pllLoss frac).groupIn g.val = true)
    ∧ (⟨s.now + 2500000, .cmd .pllLockTimeout⟩ : Due) ∈ (s.pllLoss frac).agenda := by
  have htrip := (State.TripKeeps.refl s).tripAssert .pws frac
  obtain ⟨hpws, hnow⟩ := State.powerKept_stoAll
    (s := (s.tripAssert .pws frac).setPws { s.pws with unlocked := true }) 0x83
  rw [State.pllLoss_awake h]
  refine ⟨congrArg Pws.unlocked hpws, fun g => State.stoAll_groupIn 0x83 g, ?_⟩
  rw [State.mem_resched_agenda, hnow, State.setPws_now, htrip.now]
  exact Or.inl rfl

/-- The PLL has locked again: no timeout is due. -/
def State.relocked (s : State) : State :=
  ((s.cancel .pllLockTimeout).tripRelease .pws).setPws { s.pws with unlocked := false }

theorem State.relocked_agenda : ∀ d ∈ s.relocked.agenda, d.ev ≠ .cmd .pllLockTimeout := by
  intro d hd
  have hag : s.relocked.agenda = (s.cancel .pllLockTimeout).agenda :=
    (State.setPws_agenda _ _).trans (State.tripRelease_agenda .pws)
  rw [hag, State.cancel, State.undue, List.mem_filter] at hd
  simpa using hd.2

theorem State.pllRelock_locked (h : s.pws.unlocked = false) : s.pllRelock = s := if_pos (by rw [h]; rfl)

theorem State.pllRelock_ranks (h : s.pws.unlocked = true) : s.relocked.ranks s.pllRelock 2
    (fun x w => (x.wdtRuns ∨ x.recovers → w = x.toRecovery 8) ∧ (¬x.wdtRuns → ¬x.recovers → w = x)) := by
  have hrun : s.pllRelock = s.relocked.ranked 2 _ := if_neg (by rw [h]; decide)
  rw [hrun]
  refine (State.ranks_ranked _ _ _).imp fun x w hw => ?_
  subst hw
  refine ⟨fun h => ?_, fun hw hr => ?_⟩
  · refine (if_pos (x.isIn_poweredStates.mpr (h.imp id And.left))).trans (if_neg ?_)
    rintro ⟨hm, hs⟩
    refine h.elim (fun h => ?_) fun h => h.2 hs
    rw [State.wdtRuns, hm] at h
    exact absurd h (by decide)
  · by_cases hp : x.isIn poweredStates = true
    · have h8 : x.mstate = stRECOVERY := (x.isIn_poweredStates.mp hp).resolve_left hw
      exact (if_pos hp).trans (if_pos ⟨h8, not_not.mp fun hs => hr ⟨h8, hs⟩⟩)
    · exact if_neg hp

theorem State.pllOff_locked (h : s.pws.unlocked = false) : s.pllOff = s := if_neg (ne_true_of_eq_false h)

theorem State.pllOff_ranks (h : s.pws.unlocked = true) :
    s.ranks s.pllOff 2 (fun x w => w = (x.powerOff 8).tryStart) := by
  rw [State.pllOff, if_pos h]
  exact s.ranks_ranked 2 _

end pll

/-! ## What Clove's work on contexts leaves (R316, R322, R323) -/

/-- What a move of contexts leaves: the registers, the engines and the records. -/
def State.engView (s : State) : FMap Word × FMap Eng × List Rec := (s.regs, s.eng, s.ansIn)

@[simp] theorem State.setResident_now (e : Nat) (v : Option Nat) : (s.setResident e v).now = s.now := rfl
@[simp] theorem State.setResident_ansIn (e : Nat) (v : Option Nat) : (s.setResident e v).ansIn = s.ansIn := rfl
@[simp] theorem State.setResident_rd (e : Nat) (v : Option Nat) (k : Nat) : (s.setResident e v).rd k = s.rd k := rfl
@[simp] theorem State.setResident_on (e : Nat) (v : Option Nat) (F : Field) : (s.setResident e v).on F = s.on F := rfl
@[simp] theorem State.engView_setResident (e : Nat) (v : Option Nat) : (s.setResident e v).engView = s.engView := rfl
@[simp] theorem State.engView_setIncoming (e : Nat) (v : Option Nat) : (s.setIncoming e v).engView = s.engView := rfl
@[simp] theorem State.engView_setFetched (e : Nat) (b : Bool) : (s.setFetched e b).engView = s.engView := rfl
@[simp] theorem State.engView_setFetching (e : Nat) (v : Option Nat) : (s.setFetching e v).engView = s.engView := rfl
@[simp] theorem State.engView_setReady (l : List Nat) : (s.setReady l).engView = s.engView := rfl
@[simp] theorem State.engView_setWaiters (l : List Nat) : (s.setWaiters l).engView = s.engView := rfl
@[simp] theorem State.engView_undue (p : Ev → Bool) : (s.undue p).engView = s.engView := rfl
@[simp] theorem State.engView_due (dt : Nat) (v : Ev) : (s.due dt v).engView = s.engView := rfl
@[simp] theorem State.engView_fetchDrop (e : Nat) : (s.fetchDrop e).engView = s.engView := rfl
@[simp] theorem State.engView_fetchBegin (e : Nat) : (s.fetchBegin e).engView = s.engView := rfl

section moves
variable {s} {t : State} {e : Nat}

theorem State.engView_foldl {α : Type} {op : State → α → State} (h : ∀ u x, (op u x).engView = u.engView)
    (l : List α) : (l.foldl op s).engView = s.engView :=
  List.foldlRecOn (motive := fun u : State => u.engView = s.engView) l op rfl fun u hu x _ => (h u x).trans hu

theorem State.engView_putBytes (mm : MemId) (l : List Byte) : ∀ (s : State) (a : Nat),
    (s.putBytes mm a l).engView = s.engView := by
  induction l with
  | nil => exact fun _ _ => rfl
  | cons b bs ih => exact fun s a => ih (s.setByte mm a b) (a + 1)

/-- What an engine runs stands in the registers. -/
theorem State.engView_runningOn (h : t.engView = s.engView) (e : Nat) : t.runningOn e = s.runningOn e := by
  have hregs : t.regs = s.regs := congrArg Prod.fst h
  unfold State.runningOn State.on State.f State.rd
  rw [hregs]

@[simp] theorem State.engView_ctxSave (e r : Nat) : (s.ctxSave e r).engView = s.engView :=
  State.engView_putBytes _ _ s _

@[simp] theorem State.engView_evict (e r : Nat) : (s.evict e r).engView = s.engView := by
  unfold State.evict
  split
  · split_ifs
    · rfl
    · rw [State.engView_setResident, State.engView_ctxSave]
  · rfl

@[simp] theorem State.engView_recall (e r : Nat) : (s.recall e r).engView = s.engView := by
  refine State.engView_foldl (fun u f => ?_) _
  split_ifs
  · rw [State.engView_setResident, State.engView_ctxSave]
  · rfl

/-- A free engine swaps its incoming thread in with no thread to preempt. -/
theorem State.engView_swapIn (h : s.runningOn e = none) : (s.swapIn e).engView = s.engView := by
  unfold State.swapIn
  simp only [h]
  split
  · rfl
  · split_ifs
    · rfl
    · rw [State.engView_due, State.engView_undue, State.engView_evict]

theorem State.engView_give (h : s.runningOn e = none) (r : Nat) : (s.give e r).engView = s.engView := by
  unfold State.give
  simp only
  split_ifs
  · have hview : (((((s.recall e r).setIncoming e (some r)).undue
        fun v => decide (v = .engineGo e)).fetchDrop e).setFetched e true).engView = s.engView := by simp
    exact (State.engView_swapIn ((State.engView_runningOn hview e).trans h)).trans hview
  · simp
  · simp

theorem State.engView_pick (h : s.runningOn e = none) : (s.pick e).engView = s.engView := by
  unfold State.pick
  split
  · exact State.engView_swapIn h
  · split
    · exact (State.engView_give ((State.engView_runningOn (State.engView_setReady s _) e).trans h) _).trans
        (State.engView_setReady s _)
    · rfl

/-- The end of a graph drops what the engines were to run next. -/
theorem State.graphStop_engView (res : Nat) :
    (s.graphStop res).engView = s.engView ∧ (s.graphStop res).clv.gend = some res := by
  have hfold (l : List Nat) (u : State) (hu : u.engView = s.engView ∧ u.clv.gend = some res) :
      let w := l.foldl (fun (u : State) e => if (u.runningOn e).isNone then
        (u.setIncoming e none).undue (fun v => decide (v = .engineGo e)) else u) u
      w.engView = s.engView ∧ w.clv.gend = some res :=
    List.foldlRecOn (motive := fun u : State => u.engView = s.engView ∧ u.clv.gend = some res) l _ hu
      fun u hu e _ => by split_ifs <;> exact hu
  unfold State.graphStop
  simp only
  split_ifs
  · exact hfold (List.range 15) _ ⟨rfl, rfl⟩
  · exact hfold (List.range 15) _ ⟨rfl, rfl⟩

end moves

/-! ## Leaving an engine and a list of Clove (R317, R325, R473) -/

/-- From `s` to `t` Clove has acted for engine `e`: from PWS on the registers are as they were, as are the engines, the
records and whether `e` runs a thread. -/
structure State.ClvKeeps (e : Nat) (s t : State) : Prop where
  rd : ∀ k, PWS.MODSTATE ≤ k → t.rd k = s.rd k
  eng : t.eng = s.eng
  ansIn : t.ansIn = s.ansIn
  runs : t.on (CLV.ENG_RUN_V e) = s.on (CLV.ENG_RUN_V e)

namespace State.ClvKeeps
variable {s} {t u : State} {e : Nat}

theorem refl (e : Nat) (s : State) : s.ClvKeeps e s := ⟨fun _ _ => rfl, rfl, rfl, rfl⟩

theorem trans (h : s.ClvKeeps e t) (h' : t.ClvKeeps e u) : s.ClvKeeps e u :=
  ⟨fun k hk => (h'.rd k hk).trans (h.rd k hk), h'.eng.trans h.eng, h'.ansIn.trans h.ansIn, h'.runs.trans h.runs⟩

theorem view (h : t.engView = s.engView) : s.ClvKeeps e t := by
  obtain ⟨hregs, heng, hans⟩ : t.regs = s.regs ∧ t.eng = s.eng ∧ t.ansIn = s.ansIn := by
    simpa [State.engView] using h
  refine ⟨fun k _ => ?_, heng, hans, ?_⟩
  · exact congrArg (fun r : FMap Word => r.get regReset k) hregs
  · unfold State.on State.f State.rd
    rw [hregs]

/-- A write of a field of Clove other than "runs a thread". -/
theorem setF {F : Field} (hlow : F.off < PWS.MODSTATE) (hw : F.lo + F.w ≤ 32)
    (hne : CLV.ENG e ≠ F.off ∨ 11 ≤ F.lo) (v : Nat) : s.ClvKeeps e (s.setF F v) :=
  ⟨fun k hk => s.rd_setF_ne F v k (Nat.ne_of_gt (hlow.trans_le hk)), rfl, rfl,
    s.on_setF_ne F (CLV.ENG_RUN_V e) v hw (hne.imp id fun h => Or.inl h)⟩

theorem foldl {α : Type} {op : State → α → State} {l : List α}
    (hop : ∀ u : State, ∀ x ∈ l, u.ClvKeeps e (op u x)) : s.ClvKeeps e (l.foldl op s) :=
  List.foldlRecOn (motive := fun u : State => s.ClvKeeps e u) l op (.refl e s) fun u hu x hx => hu.trans (hop u x hx)

end State.ClvKeeps

section halted
variable {s} {e w : Nat}

/-- The local slot of an engine gives up a thread. -/
theorem State.ClvKeeps.dropSlot {f : Nat} (hf : f < 15) : s.ClvKeeps e (s.dropSlot f w) := by
  have hslot (lo n : Nat) (hlo : 11 ≤ lo) (hw : lo + n ≤ 32) (v : Nat) (u : State) :
      u.ClvKeeps e (u.setF ⟨CLV.ENG f, lo, n⟩ v) := by
    refine .setF ?_ hw (Or.inr hlo) v
    simp only [CLV.ENG, PWS.MODSTATE]
    omega
  unfold State.dropSlot
  split_ifs
  · exact ((hslot 21 1 (by decide) (by decide) _ s).trans (hslot 22 1 (by decide) (by decide) _ _)).trans
      (hslot 11 10 (by decide) (by decide) _ _)
  · exact .refl e s

/-- A field of the state of a thread. -/
theorem State.ClvKeeps.threadStat (hw : w < 1024) (he : e < 16) {lo n : Nat} (hF : lo + n ≤ 32) (v : Nat) :
    s.ClvKeeps e (s.setF ⟨CLVT.STAT w, lo, n⟩ v) := by
  refine .setF ?_ hF (Or.inl ?_) v
  all_goals
    simp only [CLV.ENG, CLVT.STAT, PWS.MODSTATE]
    omega

theorem State.ClvKeeps.discard (hw : w < 1024) (he : e < 16) : s.ClvKeeps e (s.discard w) := by
  have hcount (v : Nat) : s.ClvKeeps e (s.setF CLV.CNT_DISCARD v) := by
    refine .setF (by decide) (by decide) (Or.inl ?_) v
    simp only [CLV.ENG, CLV.CNT_DISCARD, CLV.CNT]
    omega
  have hfilled := (hcount (satU 16 (s.f CLV.CNT_DISCARD
    + ((List.range 4).filter (fun i => s.filled w i)).length))).trans
    (.threadStat (lo := 4) (n := 4) hw he (by decide) 0)
  exact ⟨hfilled.rd, hfilled.eng, hfilled.ansIn, hfilled.runs⟩

/-- A thread that becomes HALTED: Clove alone has acted, and the thread is HALTED. -/
theorem State.haltedNow_effect (hw : w < 1024) (he : e < 16) :
    s.ClvKeeps e (s.haltedNow w) ∧ (s.haltedNow w).thread w = 1 := by
  refine ⟨?_, State.f_setF_same _ _ _ (by simp [CLVT.STAT_STATE])⟩
  refine .trans ?_ (.threadStat (lo := 0) (n := 3) hw he (by decide) thHALTED)
  refine .trans (.trans (t := ((s.recall 99 w).setReady _).setWaiters _) (.view ?_) (.discard hw he))
    (.foldl fun u f hf => .dropSlot (List.mem_range.mp hf))
  rw [State.engView_setWaiters, State.engView_setReady, State.engView_recall]

end halted

/-! ## The engine watchdogs (R473) -/

section engineWatchdog
variable {s} {e w : Nat}

/-- The flags and the record of an expired engine watchdog. -/
def State.ewdtNoted (s : State) (e : Nat) : State :=
  ((s.raise (PWS.EWD_EXP e)).raise PWS.STAT_EWDT).pwsStatRecord 0x12 e

/-- Engine `e` has left thread `w` and is reset. -/
def State.engFreed (s : State) (e w : Nat) : State :=
  let u := (s.leaveEngine e w).setResident e none
  u.setEn e { Eng.reset with evec := (s.en e).evec, cyc0 := u.now }

/-- An SDSP that is reset has no interrupt in progress either. -/
def State.engReset (s : State) (e w : Nat) : State :=
  if isSdsp e then (s.engFreed e w).setF (SDS.STAT_INTDEPTH (e - 4)) 0 else s.engFreed e w

/-- Clove then ends the graph, or halts the thread and gives the engine to another one. -/
def State.ewdtClove (s : State) (graph : Bool) (e w : Nat) : State :=
  if graph then s.graphStop 7 else (s.haltedNow w).pick e

theorem State.engineWdt_none (h : s.runningOn e = none ∨ e = 15) : s.engineWdt e = s := by
  unfold State.engineWdt
  split
  · rfl
  · next hrun =>
    rw [hrun] at h
    exact if_pos (Nat.le_of_eq (h.resolve_left (Option.some_ne_none _)).symm)

@[simp] theorem State.pwsStatRecord_on (code unit : Nat) (F : Field) : (s.pwsStatRecord code unit).on F = s.on F :=
  s.recordStat_on _ _ _ _ _ F

theorem State.pwsStatRecord_ansIn_length (code unit : Nat) :
    (s.pwsStatRecord code unit).ansIn.length = s.ansIn.length + 1 := List.length_append

theorem State.ewdtNoted_graphMode : (s.ewdtNoted e).graphMode = s.graphMode := by
  rw [State.ewdtNoted, State.graphMode, State.pwsStatRecord_on]
  refine (State.on_setF_ne _ PWS.STAT_EWDT CLV.STAT_MODE 1 (by decide) (by decide)).trans ?_
  refine s.on_setF_ne (PWS.EWD_EXP e) CLV.STAT_MODE 1 (by simp [PWS.EWD_EXP]) (Or.inl ?_)
  simp only [CLV.STAT_MODE, CLV.STAT, PWS.EWD_EXP, PWS.EWD]
  omega

theorem State.engineWdt_running (h : s.runningOn e = some w) (he : e < 15) : s.engineWdt e
    = if e = 14
      then ((((s.ewdtNoted e).engReset e w).ewdtClove s.graphMode e w).raise PWS.STAT_MWDT).moduleFault 0x02
      else ((s.ewdtNoted e).engReset e w).ewdtClove s.graphMode e w := by
  have hnoted : s.engineWdt e = if e = 14
      then ((((s.ewdtNoted e).engReset e w).ewdtClove (s.ewdtNoted e).graphMode e w).raise
        PWS.STAT_MWDT).moduleFault 0x02
      else ((s.ewdtNoted e).engReset e w).ewdtClove (s.ewdtNoted e).graphMode e w := by
    unfold State.engineWdt
    simp only [h]
    rw [if_neg (Nat.not_le.mpr he)]
    rfl
  rw [hnoted, State.ewdtNoted_graphMode]

theorem State.runningOn_lt (h : s.runningOn e = some w) : w < 1024 := by
  unfold State.runningOn at h
  split_ifs at h
  · rw [← Option.some.inj h]
    exact Nat.mod_lt _ (Nat.two_pow_pos 10)

theorem State.ewdtNoted_flags :
    (s.ewdtNoted e).on (PWS.EWD_EXP e) = true ∧ (s.ewdtNoted e).on PWS.STAT_EWDT = true := by
  rw [State.ewdtNoted, State.pwsStatRecord_on, State.pwsStatRecord_on]
  refine ⟨?_, State.on_raise _ PWS.STAT_EWDT (by decide) (by decide)⟩
  refine (State.on_setF_ne _ PWS.STAT_EWDT (PWS.EWD_EXP e) 1 (by decide) (Or.inl ?_)).trans
    (s.on_raise _ (by simp [PWS.EWD_EXP]) Nat.one_pos)
  simp only [PWS.EWD_EXP, PWS.EWD, PWS.STAT_EWDT, PWS.STAT]
  omega

theorem State.ewdtNoted_en : (s.ewdtNoted e).en e = s.en e := by
  rw [State.ewdtNoted, State.pwsStatRecord, State.recordStat_en, State.raise_en, State.raise_en]

theorem State.ewdtNoted_now : (s.ewdtNoted e).now = s.now := by
  rw [State.ewdtNoted, State.pwsStatRecord, State.recordStat_now, State.raise_now, State.raise_now]

theorem State.ewdtNoted_ansIn : (s.ewdtNoted e).ansIn.length = s.ansIn.length + 1 := by
  rw [State.ewdtNoted, State.pwsStatRecord_ansIn_length, State.raise_ansIn, State.raise_ansIn]

/-- Leaving an engine writes the account of the thread and the engine's word of Clove. -/
theorem State.leaveEngine_rd (hw : w < 1024) (he : e < 16) {k : Nat} (hk : PWS.MODSTATE ≤ k) :
    (s.leaveEngine e w).rd k = s.rd k := by
  have hne : k ≠ CLV.ENG e ∧ k ≠ CLVT.RUN w := by
    simp only [PWS.MODSTATE, CLV.ENG, CLVT.RUN] at hk ⊢
    omega
  unfold State.leaveEngine State.flag State.account
  simp only
  rw [State.rd_setF_ne _ _ _ _ hne.1, State.setEn_rd, State.cancel_rd, State.cancel_rd, State.rd_setF_ne _ _ _ _ hne.2]
  rfl

theorem State.leaveEngine_now : (s.leaveEngine e w).now = s.now := by
  unfold State.leaveEngine State.account
  simp only [State.flag_now, State.setEn_now, State.cancel_now, State.setF_now]

theorem State.leaveEngine_ansIn : (s.leaveEngine e w).ansIn = s.ansIn := by
  unfold State.leaveEngine State.account
  simp only [State.flag_ansIn, State.setEn_ansIn, State.cancel_ansIn, State.setF_ansIn]

theorem State.leaveEngine_runs : (s.leaveEngine e w).on (CLV.ENG_RUN_V e) = false := by
  unfold State.leaveEngine
  exact State.on_flag _ (CLV.ENG_RUN_V e) false (by simp [CLV.ENG_RUN_V]) Nat.one_pos

theorem State.engFreed_rd (hw : w < 1024) (he : e < 16) {k : Nat} (hk : PWS.MODSTATE ≤ k) :
    (s.engFreed e w).rd k = s.rd k := by
  rw [State.engFreed, State.setEn_rd, State.setResident_rd, State.leaveEngine_rd hw he hk]

theorem State.engFreed_ansIn : (s.engFreed e w).ansIn = s.ansIn := by
  rw [State.engFreed, State.setEn_ansIn, State.setResident_ansIn, State.leaveEngine_ansIn]

theorem State.engFreed_en : (s.engFreed e w).en e = { Eng.reset with evec := (s.en e).evec, cyc0 := s.now } := by
  rw [State.engFreed, State.en_setEn_same, State.setResident_now, State.leaveEngine_now]

theorem State.engFreed_runs : (s.engFreed e w).on (CLV.ENG_RUN_V e) = false := by
  rw [State.engFreed, State.setEn_on, State.setResident_on, State.leaveEngine_runs]

/-- An SDSP that is reset has no interrupt in progress. -/
theorem State.ClvKeeps.intDepth (he : e < 16) : s.ClvKeeps e (s.setF (SDS.STAT_INTDEPTH (e - 4)) 0) := by
  refine .setF ?_ (by simp [SDS.STAT_INTDEPTH]) (Or.inl ?_) 0
  all_goals
    simp only [SDS.STAT_INTDEPTH, SDS.STAT, PWS.MODSTATE, CLV.ENG]
    omega

/-- An engine that is reset: nothing from PWS on, no record, and no thread that it runs. -/
theorem State.engReset_keeps (he : e < 16) : (s.engFreed e w).ClvKeeps e (s.engReset e w) := by
  unfold State.engReset
  split_ifs
  · exact .intDepth he
  · exact .refl e _

/-- What Clove does with the thread of an engine that runs none any more. -/
theorem State.ewdtClove_effect (graph : Bool) (hw : w < 1024) (he : e < 16) (hoff : s.on (CLV.ENG_RUN_V e) = false) :
    s.ClvKeeps e (s.ewdtClove graph e w) ∧ (graph = false → (s.ewdtClove graph e w).thread w = 1)
      ∧ (graph = true → (s.ewdtClove graph e w).clv.gend = some 7) := by
  cases graph with
  | true =>
    obtain ⟨hview, hend⟩ := State.graphStop_engView (s := s) 7
    exact ⟨.view hview, fun h => absurd h (by decide), fun _ => hend⟩
  | false =>
    obtain ⟨hkeeps, hhalted⟩ := State.haltedNow_effect (s := s) hw he
    have hidle : (s.haltedNow w).runningOn e = none := by
      rw [State.runningOn, hkeeps.runs, hoff]
      rfl
    have hpick := State.engView_pick hidle
    refine ⟨hkeeps.trans (.view hpick), fun _ => ?_, fun h => absurd h (by decide)⟩
    have hregs : ((s.haltedNow w).pick e).regs = (s.haltedNow w).regs := congrArg Prod.fst hpick
    have hthread : ((s.haltedNow w).pick e).thread w = (s.haltedNow w).thread w := by
      unfold State.thread State.f State.rd
      rw [hregs]
    exact hthread.trans hhalted

/-- What an expired engine watchdog leaves when Clove has acted. -/
theorem State.ewdt_effect (h : s.runningOn e = some w) (he : e < 15) :
    let t := ((s.ewdtNoted e).engReset e w).ewdtClove s.graphMode e w
    t.on (PWS.EWD_EXP e) = true ∧ t.on PWS.STAT_EWDT = true ∧ t.ansIn.length = s.ansIn.length + 1
      ∧ t.en e = { Eng.reset with evec := (s.en e).evec, cyc0 := s.now }
      ∧ (s.graphMode = false → t.thread w = 1) ∧ (s.graphMode = true → t.clv.gend = some 7) := by
  intro t
  have he16 : e < 16 := he.trans (by decide)
  have hreset := State.engReset_keeps (s := s.ewdtNoted e) (w := w) he16
  obtain ⟨hclove, hthread, hgraph⟩ := State.ewdtClove_effect s.graphMode (State.runningOn_lt h) he16
    (hreset.runs.trans State.engFreed_runs)
  have hkeeps := hreset.trans hclove
  obtain ⟨hexp, hewdt⟩ := State.ewdtNoted_flags (s := s) (e := e)
  have hon (F : Field) (hF : PWS.MODSTATE ≤ F.off) : t.on F = (s.ewdtNoted e).on F := by
    unfold State.on State.f
    rw [hkeeps.rd _ hF, State.engFreed_rd (State.runningOn_lt h) he16 hF]
  refine ⟨(hon _ (Nat.le_add_right_of_le (by decide))).trans hexp, (hon _ (by decide)).trans hewdt, ?_, ?_,
    hthread, hgraph⟩
  · rw [hkeeps.ansIn, State.engFreed_ansIn, State.ewdtNoted_ansIn]
  · have hen : t.en e = ((s.ewdtNoted e).engFreed e w).en e :=
      congrArg (fun m : FMap Eng => m.get (fun _ => Eng.reset) e) hkeeps.eng
    rw [hen, State.engFreed_en, State.ewdtNoted_en, State.ewdtNoted_now]

/-- The watchdog of SVC expires: its flags, then what the module watchdog does (R473). -/
theorem State.engineWdt_svc (h : s.runningOn 14 = some w) :
    ∃ u : State, u.on PWS.STAT_MWDT = true ∧ u.on (PWS.EWD_EXP 14) = true ∧ s.engineWdt 14 = u.moduleFault 2 := by
  obtain ⟨hexp, -⟩ := State.ewdt_effect h (by decide)
  refine ⟨_, State.on_raise _ PWS.STAT_MWDT (by decide) (by decide), ?_,
    (State.engineWdt_running h (by decide)).trans (if_pos rfl)⟩
  exact (State.on_setF_ne _ PWS.STAT_MWDT (PWS.EWD_EXP 14) 1 (by decide) (by decide)).trans hexp

end engineWatchdog

/-! ## The module watchdog (R472) -/

section moduleWatchdog
variable {s} {m : Sys2Proof.Master} {key : Word}

theorem State.moduleWdt_off (h : ¬s.wdtRuns) : s.moduleWdt = s := if_neg (mt s.isIn_wdtStates.mp h)

theorem State.moduleWdt_expires (h : s.wdtRuns) : s.moduleWdt = (s.raise PWS.STAT_MWDT).moduleFault 2 :=
  if_pos (s.isIn_wdtStates.mpr h)

/-- The second key comes in time. -/
def State.inTime (s : State) : Prop := ∃ x, s.pws.key = some x ∧ s.now - x ≤ 2500

theorem State.inTime_iff : s.pws.key.any (fun t => decide (s.now - t ≤ 2500)) = true ↔ s.inTime := by
  simp [State.inTime, Option.any_eq_true]

/-- A refused key: the flag and a record. -/
theorem State.kickErr_effect :
    s.kickErr.on PWS.STAT_KICK_ERR = true ∧ s.kickErr.ansIn.length = s.ansIn.length + 1 := by
  rw [State.kickErr, State.pwsStatRecord_on, State.pwsStatRecord_ansIn_length, State.raise_ansIn]
  exact ⟨State.on_raise _ PWS.STAT_KICK_ERR (by decide) (by decide), rfl⟩

theorem State.wdtKick_foreign (h : m ≠ .eng 14) : s.wdtKick m key = s.kickErr := if_pos h

theorem State.wdtKick_first (hkey : getBits 0 16 key = 0x5A17) :
    s.wdtKick (.eng 14) key = s.setPws { s.pws with key := some s.now } := by
  unfold State.wdtKick
  rw [if_neg (not_not.mpr rfl), if_pos hkey]

/-- The second key in time restarts the watchdog, where it runs. -/
theorem State.wdtKick_second (hkey : getBits 0 16 key = 0xA5E8) (ht : s.inTime) (h : s.wdtRuns) :
    s.wdtKick (.eng 14) key = (s.setPws { s.pws with key := none }).resched 12500000 .moduleWdtExpiry := by
  unfold State.wdtKick
  rw [if_neg (not_not.mpr rfl), if_neg (by rw [hkey]; decide), if_pos ⟨hkey, State.inTime_iff.mpr ht⟩]
  exact if_pos ((s.setPws { s.pws with key := none }).isIn_wdtStates.mpr h)

theorem State.wdtKick_wrong (hfirst : getBits 0 16 key ≠ 0x5A17)
    (hsecond : ¬(getBits 0 16 key = 0xA5E8 ∧ s.inTime)) :
    s.wdtKick (.eng 14) key = (s.setPws { s.pws with key := none }).kickErr := by
  unfold State.wdtKick
  rw [if_neg (not_not.mpr rfl), if_neg hfirst, if_neg (by rwa [State.inTime_iff])]

/-- A kick that is refused, of a wrong master or with a wrong key. -/
theorem State.wdtKick_refused
    (h : m ≠ .eng 14 ∨ (getBits 0 16 key ≠ 0x5A17 ∧ ¬(getBits 0 16 key = 0xA5E8 ∧ s.inTime))) :
    (s.wdtKick m key).on PWS.STAT_KICK_ERR = true ∧ (s.wdtKick m key).ansIn.length = s.ansIn.length + 1 := by
  by_cases hm : m = .eng 14
  · obtain ⟨hfirst, hsecond⟩ := h.resolve_left (not_not.mpr hm)
    rw [hm, State.wdtKick_wrong hfirst hsecond]
    exact State.kickErr_effect (s := s.setPws _)
  · rw [State.wdtKick_foreign hm]
    exact State.kickErr_effect

/-- After the second key the watchdog is due once, 50 ms from now. -/
theorem State.wdtKick_restarts (hkey : getBits 0 16 key = 0xA5E8) (ht : s.inTime) (h : s.wdtRuns) :
    (s.wdtKick (.eng 14) key).pws.key = none
      ∧ (⟨s.now + 12500000, .cmd .moduleWdtExpiry⟩ : Due) ∈ (s.wdtKick (.eng 14) key).agenda
      ∧ (∀ d ∈ (s.wdtKick (.eng 14) key).agenda, d.ev = .cmd .moduleWdtExpiry → d.t = s.now + 12500000)
      ∧ (s.wdtKick (.eng 14) key).regs = s.regs := by
  rw [State.wdtKick_second hkey ht h]
  refine ⟨rfl, (State.mem_resched_agenda _).mpr (Or.inl rfl), fun d hd hev => ?_, rfl⟩
  rcases (State.mem_resched_agenda _).mp hd with rfl | ⟨-, hother⟩
  · rfl
  · exact absurd hev hother

end moduleWatchdog

/-! ## The sleep counter (R476) -/

section sleepCounter
variable {s} {m : Sys2Proof.Master}

/-- A read of the low half takes the high half along (R35). -/
theorem State.busRead_sleep (h : s.reaches m PWS.SLEEP_L) : s.busRead m PWS.SLEEP_L
    = ((s.refresh PWS.SLEEP_L).bankWr m PWS.SLEEP_H ((s.refresh PWS.SLEEP_L).rd PWS.SLEEP_H)).answer
      (.data (s.liveWord PWS.SLEEP_L)) := by
  have hgood : (s.reach m PWS.SLEEP_L && !s.readBad PWS.SLEEP_L) = true := by
    rw [h.1]
    rfl
  exact if_pos hgood

theorem State.refresh_sleep : s.refresh PWS.SLEEP_L
    = (s.wrN PWS.SLEEP_L s.sleepCount).setF PWS.SLEEP_H_V (s.sleepCount / 2 ^ 32) := if_pos rfl

theorem State.liveWord_sleep : s.liveWord PWS.SLEEP_L = BitVec.ofNat 32 s.sleepCount := by
  have hrow : regRow PWS.SLEEP_L = some ⟨32, 1, 4, 0, 0, 0, 0, 0⟩ := by decide +kernel
  unfold State.liveWord
  simp only [if_neg (show ¬atWindow PWS.SLEEP_L = true by decide), hrow, State.refresh_sleep]
  rw [State.rd_setF_ne _ PWS.SLEEP_H_V _ _ (by decide), State.wrN, State.rd_wr_same]
  exact BitVec.and_allOnes

/-- The low half reads the counter, and the copy of the high half holds the rest. -/
theorem State.busRead_sleep_effect (h : s.reaches m PWS.SLEEP_L) :
    (s.busRead m PWS.SLEEP_L).lastResp = .data (BitVec.ofNat 32 s.sleepCount)
      ∧ getBits 0 16 ((s.busRead m PWS.SLEEP_L).bankRd m PWS.SLEEP_H) = s.sleepCount / 2 ^ 32 := by
  have hcount : s.sleepCount < 2 ^ 48 := Nat.mod_lt _ (Nat.two_pow_pos 48)
  have hlt : s.sleepCount / 2 ^ 32 < 2 ^ 16 := by omega
  have hcopy (u : State) (o : Nat) (v : Word) : (u.bankWr m o v).bankRd m o = v := FMap.get_set_same _ _ _ _
  have hfield (u : State) : getBits 0 16 (u.rd PWS.SLEEP_H) = u.f PWS.SLEEP_H_V := rfl
  have hresp (u : State) (r : Resp) : (u.answer r).lastResp = r := rfl
  rw [State.busRead_sleep h, hresp, State.answer_bankRd, hcopy, hfield, State.liveWord_sleep, State.refresh_sleep,
    State.f_setF_same _ _ _ (by decide)]
  exact ⟨rfl, Nat.mod_eq_of_lt hlt⟩

end sleepCounter

/-! ## The statement -/

/-- Settles O53: each cause by the lemma of what it does, ranked by R22. -/
theorem railsClockAndWatchdogs : Obligations.RailsClockAndWatchdogs := by
  intro s m rail rail8 frac e key st watched wdt failed faultOf fault overdue
  refine ⟨⟨(s.setPws { s.pws with hot := s.pws.hot }).railFault rail.val, ?rail,
      State.railFault_hot_asleep s.pws.hot rail.val,
      State.railFault_effect s.pws.hot rail.val⟩,
    ⟨(s.setPws { s.pws with hot := true }).railFault 7, rfl, State.railFault_hot_asleep true 7,
      State.railFault_effect true 7⟩,
    ⟨s.railPersist rail8.val, rfl, fun h => if_neg (mt State.railOverdue_iff.mp h),
      fun h => State.railPersist_ranks (State.railOverdue_iff.mpr h)⟩,
    ⟨_, rfl, State.dieCooled_effect _ rfl⟩,
    ⟨s.pllLoss frac.val, rfl, State.pllLoss_asleep, State.pllLoss_effect⟩,
    ⟨s.pllRelock, rfl, State.pllRelock_locked,
      fun h => ⟨s.relocked, ?relock, State.relocked_agenda, State.pllRelock_ranks h⟩⟩,
    ⟨s.pllOff, rfl, State.pllOff_locked, State.pllOff_ranks⟩,
    ⟨s.engineWdt e.val, rfl, State.engineWdt_none, ?engine⟩, ?svc,
    ⟨s.moduleWdt, rfl, State.moduleWdt_off, ?module⟩,
    fun hr => ⟨(s.answer .done).wdtKick m key, congrArg ok (hr.busW_eq _), ?first, ?second,
      State.wdtKick_refused (s := s.answer .done)⟩,
    fun hr => ⟨s.busRead m PWS.SLEEP_L, rfl, State.busRead_sleep_effect hr⟩⟩
  case rail => rw [State.setPws_hot_self]; rfl
  case relock => exact State.setPws_pws _ _
  case engine =>
    intro w hrun he
    rw [(State.engineWdt_running hrun (by omega)).trans (if_neg (by omega))]
    exact State.ewdt_effect hrun (by omega)
  case svc =>
    intro w hrun _
    obtain ⟨u, hmwdt, hexp, hfault⟩ := State.engineWdt_svc hrun
    exact ⟨_, u, rfl, hmwdt, hexp, hfault⟩
  case module =>
    intro h
    refine ⟨s.raise PWS.STAT_MWDT, State.on_raise _ PWS.STAT_MWDT (by decide) (by decide),
      s.sameBut_setF PWS.STAT_MWDT 1, ?_⟩
    rw [State.moduleWdt_expires h]
    exact State.moduleFault_ranks _ 2
  case first =>
    rintro rfl hkey
    rw [State.wdtKick_first hkey]
    rfl
  case second =>
    rintro rfl ⟨hkey, ht⟩ h
    exact State.wdtKick_restarts hkey ht h

end Sys2Proof.Machine
end

section
/-! SUPPORT. Reads of a field after a write of a field, with side conditions that the bits of the two fields decide: they
hold by `rfl` also where the register's offset has an index in it. -/

namespace Sys2Proof.Machine

/-- The field has bits, and they lie in its register. -/
def Field.ok (F : Field) : Bool := decide (F.lo + F.w ≤ 32) && decide (0 < F.w)

/-- The bits of `G` lie beside those of `F`. -/
def Field.beside (F G : Field) : Bool := decide (G.lo + G.w ≤ F.lo) || decide (F.lo + F.w ≤ G.lo)

theorem Field.ok_iff (F : Field) : F.ok = true ↔ F.lo + F.w ≤ 32 ∧ 0 < F.w := by simp [Field.ok]

variable {F : Field} (G : Field) (s : State)

theorem Field.beside_iff : F.beside G = true ↔ G.lo + G.w ≤ F.lo ∨ F.lo + F.w ≤ G.lo := by simp [Field.beside]

theorem State.setF_f (F : Field) (v : Nat) (h : F.ok = true) : (s.setF F v).f F = v % 2 ^ F.w :=
  s.f_setF_same F v (F.ok_iff.mp h).1

theorem State.setF_f_beside (F : Field) (v : Nat) (h : F.ok = true) (hd : F.beside G = true) :
    (s.setF F v).f G = s.f G :=
  s.f_setF_ne F G v (F.ok_iff.mp h).1 (Or.inr ((Field.beside_iff G).mp hd))

theorem State.setF_f_apart (F : Field) (v : Nat) (hd : G.off ≠ F.off) : (s.setF F v).f G = s.f G := s.f_wr_ne _ _ G hd

theorem State.setF_on_beside (F : Field) (v : Nat) (h : F.ok = true) (hd : F.beside G = true) :
    (s.setF F v).on G = s.on G := by
  rw [State.on, s.setF_f_beside G F v h hd, State.on]

theorem State.setF_on_apart (F : Field) (v : Nat) (hd : G.off ≠ F.off) : (s.setF F v).on G = s.on G := by
  rw [State.on, s.setF_f_apart G F v hd, State.on]

theorem State.raise_on (F : Field) (h : F.ok = true) : (s.raise F).on F = true :=
  s.on_raise F (F.ok_iff.mp h).1 (F.ok_iff.mp h).2

theorem State.flag_on (F : Field) (b : Bool) (h : F.ok = true) : (s.flag F b).on F = b :=
  s.on_flag F b (F.ok_iff.mp h).1 (F.ok_iff.mp h).2

/-- A flag that is written 0 is off. -/
theorem State.setF_zero_on (F : Field) (h : F.ok = true) : (s.setF F 0).on F = false := s.flag_on F false h

theorem State.raiseIf_eq_raise {b : Bool} (h : b = true) : s.raiseIf b F = s.raise F := if_pos h

theorem State.raiseIf_eq_self {b : Bool} (h : b = false) : s.raiseIf b F = s := if_neg (Bool.eq_false_iff.mp h)

theorem State.raiseIf_rd_ne (b : Bool) (F : Field) (k : Nat) (h : k ≠ F.off) : (s.raiseIf b F).rd k = s.rd k := by
  cases b
  · rfl
  · exact s.rd_setF_ne F 1 k h

/-! ## Reads that depend on one register, and what changed registers alone -/

variable {s} {t u : State}

theorem State.f_of_rd (h : t.rd G.off = s.rd G.off) : t.f G = s.f G := congrArg (getBits G.lo G.w) h

theorem State.on_of_rd (h : t.rd G.off = s.rd G.off) : t.on G = s.on G := by
  rw [State.on, State.f_of_rd G h, State.on]

theorem State.sameBut.trans {l : List Nat} (h : s.sameBut t l) (h' : t.sameBut u l) : s.sameBut u l :=
  ⟨fun o ho => (h'.1 o ho).trans (h.1 o ho),
    h'.2.trans (congrArg (fun x : State => { x with regs := u.regs }) h.2)⟩

theorem State.sameBut_wr {l : List Nat} {o : Nat} (h : o ∈ l) (v : Word) : s.sameBut (s.wr o v) l :=
  ⟨fun k hk => s.rd_wr_ne o k v (fun e => hk (e ▸ h)), rfl⟩

end Sys2Proof.Machine
end

section
/-! PROOF of the statement TimeBaseCommands (R31, R32, R33, R35, R47). A base has four commands: the wrap, which touches
its STAT alone, and a write of RATE, a write of CTRL.STEP and a read of NS, which the bus hands on to the unit. -/

namespace Sys2Proof.Machine

variable {s : State} {m : Sys2Proof.Master} {b : Nat} {v : Word}

/-! ## The wrap (R33) -/

/-- What the wrap leaves of STAT: WC one further, WRAPPED set. -/
theorem State.wrap_stat (s : State) (b : Nat) :
    ((s.wcUp b).raise (TB.STAT_WRAPPED b)).f (TB.STAT_WC b) = (s.f (TB.STAT_WC b) + 1) % 256
      ∧ ((s.wcUp b).raise (TB.STAT_WRAPPED b)).on (TB.STAT_WRAPPED b) = true
      ∧ ∀ o, o ≠ TB.STAT b → ((s.wcUp b).raise (TB.STAT_WRAPPED b)).rd o = s.rd o := by
  refine ⟨?wc, State.raise_on _ _ rfl, fun o ho => ?others⟩
  case wc => exact (State.setF_f_beside _ _ _ 1 rfl rfl).trans (s.setF_f (TB.STAT_WC b) _ rfl)
  case others =>
    rw [State.raise, State.rd_setF_ne _ _ _ _ ho, State.wcUp, State.bumpMod, State.rd_setF_ne _ _ _ _ ho]

/-- The wrap posts its token with the new WC. -/
theorem State.wrapped_eq (s : State) (b : Nat) : s.wrapped b
    = ((s.wcUp b).raise (TB.STAT_WRAPPED b)).token (0xFF00 + b) (BitVec.ofNat 32 ((s.f (TB.STAT_WC b) + 1) % 256)) 0 := by
  have hwc : ((s.wcUp b).raise (TB.STAT_WRAPPED b)).wc b = (s.f (TB.STAT_WC b) + 1) % 256 := (s.wrap_stat b).1
  simp only [State.wrapped, hwc]

/-- What changed only registers and then posted a token. -/
theorem State.token_frame (t : State) (ht : t = { s with regs := t.regs }) (tag : Nat) (w : Word) (r : Nat) :
    let u := t.token tag w r
    u = { s with regs := u.regs, clvIn := s.clvIn ++ [(⟨BitVec.ofNat 16 tag, w, r⟩ : Token)] } := by
  intro u
  have hu : u = { t with clvIn := t.clvIn ++ [(⟨BitVec.ofNat 16 tag, w, r⟩ : Token)] } := rfl
  rw [hu, ht]

/-! ## RATE (R31) -/

/-- A number within the limits of ADJ is read back as it was written. -/
theorem State.rdI_wrI_same (s : State) (o : Nat) (x : Int) (hlo : -2 ^ 31 ≤ x) (hhi : x < 2 ^ 31) :
    (s.wrI o x).rdI o = x := by
  rw [State.rdI, State.wrI, State.rd_wr_same]
  exact BitVec.toInt_ofInt_eq_self (by decide) hlo hhi

theorem State.adjLimit_bounds (s : State) : 0 ≤ s.adjLimit ∧ s.adjLimit < 2 ^ 31 := by
  unfold State.adjLimit
  split <;> decide

theorem clampInt_bounds {lim x : Int} (h : 0 ≤ lim) : -lim ≤ clampInt (-lim) lim x ∧ clampInt (-lim) lim x ≤ lim := by
  unfold clampInt
  split
  · omega
  · split <;> omega

/-- A RATE holds the ADJ that was stored, clamped. -/
theorem State.rateStore_rate (s : State) (b : Nat) (x : Int) :
    (s.rateStore b x).rdI (TB.RATE b) = clampInt (-s.adjLimit) s.adjLimit x := by
  obtain ⟨hlim, hlim'⟩ := s.adjLimit_bounds
  have hc := clampInt_bounds (x := x) hlim
  have hne : TB.RATE b ≠ TB.STAT b := by simp [TB.RATE, TB.STAT]
  have hkept : (s.rateStore b x).rdI (TB.RATE b)
      = (s.wrI (TB.RATE b) (clampInt (-s.adjLimit) s.adjLimit x)).rdI (TB.RATE b) := by
    exact congrArg BitVec.toInt (State.raiseIf_rd_ne _ _ _ _ hne)
  rw [hkept]
  exact s.rdI_wrI_same _ _ (by omega) (by omega)

/-- An ADJ within the limit changes RATE alone. -/
theorem State.rateStore_within (s : State) (b : Nat) (x : Int) (h : clampInt (-s.adjLimit) s.adjLimit x = x) :
    s.sameBut (s.rateStore b x) [TB.RATE b] := by
  have heq : s.rateStore b x = s.wrI (TB.RATE b) x := by simp [State.rateStore, h, State.raiseIf]
  rw [heq]
  exact ⟨fun o ho => State.rd_wr_ne _ _ _ _ (by simpa using ho), rfl⟩

/-- An ADJ beyond the limit sets SLEW_CLAMP too. -/
theorem State.rateStore_beyond (s : State) (b : Nat) (x : Int) (h : clampInt (-s.adjLimit) s.adjLimit x ≠ x) :
    (s.rateStore b x).on (TB.STAT_SLEW_CLAMP b) = true ∧ s.sameBut (s.rateStore b x) [TB.RATE b, TB.STAT b] := by
  have heq : s.rateStore b x
      = (s.wrI (TB.RATE b) (clampInt (-s.adjLimit) s.adjLimit x)).raise (TB.STAT_SLEW_CLAMP b) := by
    simp [State.rateStore, h, State.raiseIf]
  rw [heq]
  refine ⟨State.raise_on _ _ rfl, fun o ho => ?others, rfl⟩
  obtain ⟨hrate, hstat⟩ : o ≠ TB.RATE b ∧ o ≠ TB.STAT b := by simpa using ho
  rw [State.raise, State.rd_setF_ne _ _ _ _ hstat, State.wrI, State.rd_wr_ne _ _ _ _ hrate]

theorem State.raiseIf_answer (s : State) (b : Bool) (F : Field) (r : Resp) :
    (s.answer r).raiseIf b F = (s.raiseIf b F).answer r := by
  cases b <;> rfl

theorem State.rateStore_answer (s : State) (b : Nat) (x : Int) (r : Resp) :
    (s.answer r).rateStore b x = (s.rateStore b x).answer r := by
  have hlim : (s.answer r).adjLimit = s.adjLimit := rfl
  simp only [State.rateStore, hlim]
  exact State.raiseIf_answer (s.wrI (TB.RATE b) _) _ _ r

/-- What changed only registers has, with the answer of the access, written only these. -/
theorem State.sameBut.answered {t : State} {l : List Nat} (h : s.sameBut t l) (r : Resp) : s.wrote (t.answer r) l :=
  ⟨h.1, congrArg (fun u : State => { u with lastResp := s.lastResp }) h.2⟩

/-! ## STEP (R32) -/

/-- Whoever is not SVC is refused the step of a base that can step. -/
theorem State.stepWrite_other (hb : b < 2) (hm : m ≠ .eng 14) :
    s.stepWrite m b = s.raise (TB.STAT_STEP_REFUSED b) := by
  simp [State.stepWrite, Master.isSvc, hm, Nat.not_le.mpr hb]

/-- TB_CELL takes no step in RUN. -/
theorem State.stepWrite_run (hs : s.mstate = 5) :
    s.stepWrite (.eng 14) 0 = (s.raise (TB.STAT_STEP_REFUSED 0)).sysIllegal := by
  have hrun : s.mstate = stRUN := hs
  simp [State.stepWrite, Master.isSvc, hrun]

/-- A step that is taken waits two ticks. -/
theorem State.stepWrite_taken (hb : b < 2) (hrun : ¬(b = 0 ∧ s.mstate = 5)) (hstep : s.on (TB.CTRL_STEP b) = false) :
    s.stepWrite (.eng 14) b = (s.raise (TB.CTRL_STEP b)).setTb b { s.tb b with stepAt := some (s.now + 2) } := by
  have hrun' : ¬(b = 0 ∧ s.mstate = stRUN) := hrun
  simp [State.stepWrite, Master.isSvc, Nat.not_le.mpr hb, hrun', hstep]

/-- A base that never steps ignores the write. -/
theorem State.stepWrite_fixed (hb : 2 ≤ b) : s.stepWrite m b = s := if_pos hb

@[simp] theorem State.setTb_rd (s : State) (b : Nat) (u : TimeBase) (k : Nat) : (s.setTb b u).rd k = s.rd k := rfl
@[simp] theorem State.setTb_on (s : State) (b : Nat) (u : TimeBase) (G : Field) : (s.setTb b u).on G = s.on G := rfl

theorem State.tb_setTb_same (s : State) (b : Nat) (u : TimeBase) : (s.setTb b u).tb b = u := FMap.get_set_same _ _ _ _

/-! ## A read of NS (R35) -/

theorem State.bankRd_bankWr_same (s : State) (m : Sys2Proof.Master) (o : Nat) (v : Word) :
    (s.bankWr m o v).bankRd m o = v := FMap.get_set_same _ _ _ _

/-- A read that takes a copy along, with the copies after it named. -/
theorem State.bankWr_answer_eq {o : Nat} {k : FMap Word}
    (h : s.bank.set bankReset (m.idx * 0x4000000 + o) v = k) (r : Resp) :
    (s.bankWr m o v).answer r = { s with lastResp := r, bank := k } := by
  simp only [State.answer, State.bankWr, h]

/-- It changes the answer and the copies. -/
theorem State.bankWr_answer_frame (s : State) (m : Sys2Proof.Master) (o : Nat) (v : Word) (r : Resp) :
    let t := (s.bankWr m o v).answer r
    t = { s with lastResp := t.lastResp, bank := t.bank } := by
  intro t
  simp only [t, State.bankWr_answer_eq rfl r]

/-- NS follows nothing outside the register file and has no write-only bit. -/
theorem State.liveWord_ns (s : State) (b : Fin 4) : s.liveWord (TB.NS b.val) = s.rd (TB.NS b.val) := by
  have hplain : atWindow (TB.NS b.val) = false ∧ s.refresh (TB.NS b.val) = s := by
    fin_cases b <;> exact ⟨rfl, rfl⟩
  have hrow : regRow (TB.NS b.val) = some ⟨0, 1, 4, 0, 0, 0, 0, 0⟩ := by
    clear hplain
    revert b
    decide +kernel
  unfold State.liveWord
  simp only [hplain.1, hplain.2, hrow, Bool.false_eq_true, if_false]
  exact BitVec.and_allOnes

/-- A read of NS gives NS, and the reader's WCS takes the wrap count along. -/
theorem State.busRead_ns (b : Fin 4) (h : s.reaches m (TB.NS b.val)) : s.busRead m (TB.NS b.val)
    = (s.bankWr m (TB.WCS b.val) (BitVec.ofNat 32 (s.wc b.val))).answer (.data (s.rd (TB.NS b.val))) := by
  have hgood : (s.reach m (TB.NS b.val) && !s.readBad (TB.NS b.val)) = true := by
    rw [h.1]
    fin_cases b <;> rfl
  have htakes : s.readTakes m (TB.NS b.val) = s.latchWc m b.val := by
    fin_cases b <;> rfl
  have hword : s.readWord m (TB.NS b.val) = s.rd (TB.NS b.val) := by
    have hlive : s.readWord m (TB.NS b.val) = s.liveWord (TB.NS b.val) := by
      fin_cases b <;> rfl
    rw [hlive, s.liveWord_ns]
  unfold State.busRead
  rw [if_pos hgood, htakes, hword]
  rfl

/-! ## The statement -/

/-- A write of RATE that the bus hands on. -/
theorem State.rateWrite_effect (s : State) (b : Nat) (v : Word) :
    let t := (s.answer .done).rateWrite b v
    let c := clampInt (-s.adjLimit) s.adjLimit v.toInt
    t.lastResp = .done ∧ (2 ≤ b → t.regs = s.regs)
      ∧ (b < 2 → t.rdI (TB.RATE b) = c ∧ (c = v.toInt → s.sameBut { t with lastResp := s.lastResp } [TB.RATE b])
        ∧ (c ≠ v.toInt → t.on (TB.STAT_SLEW_CLAMP b) = true
          ∧ s.sameBut { t with lastResp := s.lastResp } [TB.RATE b, TB.STAT b])) := by
  by_cases hb : b < 2
  · have heq : (s.answer .done).rateWrite b v = (s.rateStore b v.toInt).answer .done :=
      (if_pos hb).trans (s.rateStore_answer b _ _)
    rw [heq]
    exact ⟨rfl, fun h => absurd hb (Nat.not_lt.mpr h), fun _ => ⟨s.rateStore_rate b _,
      fun h => (s.rateStore_within b _ h).answered _, fun h => (s.rateStore_beyond b _ h).imp_right (·.answered _)⟩⟩
  · rw [State.rateWrite, if_neg hb]
    exact ⟨rfl, fun _ => rfl, fun h => absurd h hb⟩

/-- A write of CTRL.STEP that the bus hands on. -/
theorem State.stepWrite_effect (s : State) (m : Sys2Proof.Master) (b : Nat) :
    let t := (s.answer .done).stepWrite m b
    (2 ≤ b → t.regs = s.regs ∧ t.tbase = s.tbase)
      ∧ (b < 2 → m ≠ .eng 14 → t.on (TB.STAT_STEP_REFUSED b) = true ∧ t.tbase = s.tbase
        ∧ ∀ o, o ≠ TB.STAT b → t.rd o = s.rd o)
      ∧ (b < 2 → m = .eng 14 → b = 0 → s.mstate = 5 → t.on (TB.STAT_STEP_REFUSED b) = true ∧ t.tbase = s.tbase
        ∧ t.ansIn.length = s.ansIn.length + 1)
      ∧ (b < 2 → m = .eng 14 → ¬(b = 0 ∧ s.mstate = 5) → s.on (TB.CTRL_STEP b) = false →
        t.on (TB.CTRL_STEP b) = true ∧ (t.tb b).stepAt = some (s.now + 2) ∧ ∀ o, o ≠ TB.CTRL b → t.rd o = s.rd o) := by
  refine ⟨fun hb => ?fixed, fun hb hm => ?other, fun _ hm hb hs => ?run, fun hb hm hrun hstep => ?taken⟩
  case fixed => simp only [State.stepWrite_fixed hb]; exact ⟨rfl, rfl⟩
  case other =>
    rw [State.stepWrite_other hb hm]
    exact ⟨State.raise_on _ _ rfl, rfl, fun o ho => State.rd_setF_ne _ _ _ _ ho⟩
  case run =>
    subst hm hb
    rw [State.stepWrite_run (s := s.answer .done) hs]
    exact ⟨(State.sysIllegal_on _ _).trans (State.raise_on _ _ rfl), rfl, by simp [State.sysIllegal, State.record]⟩
  case taken =>
    subst hm
    rw [State.stepWrite_taken (s := s.answer .done) hb hrun hstep]
    refine ⟨(State.setTb_on _ _ _ _).trans (State.raise_on _ _ rfl), ?_, fun o ho => ?_⟩
    · rw [State.tb_setTb_same]
      rfl
    · rw [State.setTb_rd, State.raise, State.rd_setF_ne _ _ _ _ ho, State.answer_rd]

/-- Settles O27: the wrap by what it does to STAT, the accesses by what the bus hands on. -/
theorem timeBaseCommands : Obligations.TimeBaseCommands := by
  intro s m b v lim c
  obtain ⟨hwc, hwrapped, hothers⟩ := s.wrap_stat b.val
  refine ⟨⟨_, congrArg ok (s.wrapped_eq b.val), hwc, hwrapped, hothers, State.token_frame _ rfl _ _ _⟩,
    fun h => ⟨_, congrArg ok (h.busW_eq _), s.rateWrite_effect b.val v⟩,
    fun h => ⟨_, congrArg ok (h.busW_eq _), s.stepWrite_effect m b.val⟩,
    fun h => ⟨_, congrArg ok (State.busRead_ns b h), rfl, ?copy, s.bankWr_answer_frame m _ _ _⟩⟩
  exact (State.answer_bankRd _ _ _ _).trans (s.bankRd_bankWr_same m _ _)

end Sys2Proof.Machine
end

section
/-! PROOF of the statement TimeProtocolsAndOutputs (R34, R41, R44, R45, R46). The flags of a TIMEEXT page that make a
SYNC_CHANGE record share one shape, `noteStatus`; what the protocols do to them follows from its rules. -/

namespace Sys2Proof.Machine

variable {s : State} {b : Nat}

/-! ## The page and the outputs (R34, R41, R45, R46) -/

/-- What an update of the page leaves: SEQ goes up before and after the new bases. -/
def State.timeextUpdated (s : State) (b : Nat) (hi : Word) (wc : Nat) : State :=
  let t := s.wr (TIMEEXT.SEQ b) (s.rd (TIMEEXT.SEQ b) + 1)
  let t := (t.wr (TIMEEXT.HI_BASE b) hi).setF (TIMEEXT.WC_BASE_V b) wc
  t.wr (TIMEEXT.SEQ b) (t.rd (TIMEEXT.SEQ b) + 1)

/-- An update leaves SEQ two higher and the page's bases new. -/
theorem State.timeextUpdated_effect (s : State) (b : Nat) (hi : Word) (wc : Byte) :
    let t := s.timeextUpdated b hi wc.toNat
    t.rd (TIMEEXT.SEQ b) = s.rd (TIMEEXT.SEQ b) + 2#32 ∧ t.rd (TIMEEXT.HI_BASE b) = hi
      ∧ t.f (TIMEEXT.WC_BASE_V b) = wc.toNat
      ∧ s.sameBut t [TIMEEXT.SEQ b, TIMEEXT.HI_BASE b, TIMEEXT.WC_BASE b] := by
  have hsh : TIMEEXT.SEQ b ≠ TIMEEXT.HI_BASE b := by simp [TIMEEXT.SEQ, TIMEEXT.HI_BASE]
  have hsw : TIMEEXT.SEQ b ≠ TIMEEXT.WC_BASE b := by simp [TIMEEXT.SEQ, TIMEEXT.WC_BASE]
  have hhw : TIMEEXT.HI_BASE b ≠ TIMEEXT.WC_BASE b := by simp [TIMEEXT.HI_BASE, TIMEEXT.WC_BASE]
  unfold State.timeextUpdated
  intro t
  refine ⟨?seq, ?hi, ?wc, ?others⟩
  case seq =>
    rw [State.rd_wr_same, State.rd_setF_ne _ _ _ _ hsw, State.rd_wr_ne _ _ _ _ hsh, State.rd_wr_same, BitVec.add_assoc]
    rfl
  case hi => rw [State.rd_wr_ne _ _ _ _ hsh.symm, State.rd_setF_ne _ _ _ _ hhw, State.rd_wr_same]
  case wc =>
    rw [State.f_wr_ne _ _ _ _ hsw.symm, State.setF_f _ _ _ rfl]
    exact Nat.mod_eq_of_lt wc.isLt
  case others =>
    refine (State.sameBut_wr ?_ _).trans ((State.sameBut_wr ?_ _).trans ((State.sameBut_wr ?_ _).trans
      (State.sameBut_wr ?_ _)))
    · exact List.mem_cons_self
    · exact List.mem_cons_of_mem _ List.mem_cons_self
    · exact List.mem_cons_of_mem _ (List.mem_cons_of_mem _ List.mem_cons_self)
    · exact List.mem_cons_self

/-- Base `b` captures the edge of 1PPS_IN. -/
def State.ppsTaken (s : State) (frac b : Nat) : State :=
  let t := s.wr (TB.PPSNS b) (s.ns b)
  let t := (t.setF (TB.PPSFR_FRAC b) frac).setF (TB.PPSFR_WC b) (t.wc b)
  t.raise (TB.STAT_PPS b)

/-- The capture touches three registers of its base. -/
theorem State.ppsTaken_rd_ne (s : State) (frac b : Nat) {o : Nat} (hn : o ≠ TB.PPSNS b) (hf : o ≠ TB.PPSFR b)
    (hst : o ≠ TB.STAT b) : (s.ppsTaken frac b).rd o = s.rd o := by
  unfold State.ppsTaken
  rw [State.raise, State.rd_setF_ne _ _ _ _ hst, State.rd_setF_ne _ _ _ _ hf, State.rd_setF_ne _ _ _ _ hf,
    State.rd_wr_ne _ _ _ _ hn]

/-- The captured NS, fraction and WC of a base, PPS set, and WC itself as before. -/
def State.ppsShown (s t : State) (frac b : Nat) : Prop :=
  t.rd (TB.PPSNS b) = s.rd (TB.NS b) ∧ t.f (TB.PPSFR_FRAC b) = frac ∧ t.f (TB.PPSFR_WC b) = s.f (TB.STAT_WC b)
    ∧ t.on (TB.STAT_PPS b) = true ∧ t.f (TB.STAT_WC b) = s.f (TB.STAT_WC b)

theorem State.ppsTaken_shown (s : State) {frac : Nat} (hfrac : frac < 32) (b : Nat) :
    s.ppsShown (s.ppsTaken frac b) frac b := by
  have hnf : TB.PPSNS b ≠ TB.PPSFR b := by simp [TB.PPSNS, TB.PPSFR]
  have hns : TB.PPSNS b ≠ TB.STAT b := by simp [TB.PPSNS, TB.STAT]
  have hfs : TB.PPSFR b ≠ TB.STAT b := by simp [TB.PPSFR, TB.STAT]
  have hwc : s.f (TB.STAT_WC b) < 2 ^ 8 := Nat.mod_lt _ (Nat.two_pow_pos 8)
  let t := s.wr (TB.PPSNS b) (s.ns b)
  let u := (t.setF (TB.PPSFR_FRAC b) frac).setF (TB.PPSFR_WC b) (t.wc b)
  have htwc : t.wc b = s.f (TB.STAT_WC b) := s.f_wr_ne _ _ (TB.STAT_WC b) hns.symm
  refine ⟨?ns, ?frac, ?wc, State.raise_on u (TB.STAT_PPS b) rfl, ?kept⟩
  case ns =>
    show (u.raise (TB.STAT_PPS b)).rd _ = _
    rw [State.raise, State.rd_setF_ne _ _ _ _ hns, State.rd_setF_ne _ _ _ _ hnf, State.rd_setF_ne _ _ _ _ hnf,
      State.rd_wr_same]
    rfl
  case frac =>
    show (u.raise (TB.STAT_PPS b)).f _ = _
    rw [State.raise, State.setF_f_apart _ _ _ _ hfs, State.setF_f_beside _ _ _ _ rfl rfl, State.setF_f _ _ _ rfl]
    exact Nat.mod_eq_of_lt hfrac
  case wc =>
    show (u.raise (TB.STAT_PPS b)).f _ = _
    rw [State.raise, State.setF_f_apart _ _ _ _ hfs, State.setF_f _ _ _ rfl, htwc]
    exact Nat.mod_eq_of_lt hwc
  case kept =>
    show (u.raise (TB.STAT_PPS b)).f _ = _
    rw [State.raise, State.setF_f_beside _ _ _ _ rfl rfl, State.setF_f_apart _ _ _ _ hfs.symm,
      State.setF_f_apart _ _ _ _ hfs.symm, State.f_wr_ne _ _ _ _ hns.symm]

/-- What `t` shows of base `b` is shown wherever the base's registers read as in `t`. -/
theorem State.ppsShown.of_rd {s s' t t' : State} {frac b : Nat} (h : s.ppsShown t frac b)
    (hns : s'.rd (TB.NS b) = s.rd (TB.NS b)) (hst : s'.rd (TB.STAT b) = s.rd (TB.STAT b))
    (hn : t'.rd (TB.PPSNS b) = t.rd (TB.PPSNS b)) (hf : t'.rd (TB.PPSFR b) = t.rd (TB.PPSFR b))
    (ht : t'.rd (TB.STAT b) = t.rd (TB.STAT b)) : s'.ppsShown t' frac b := by
  have hstf (F : Field) (hF : F.off = TB.STAT b) : t'.f F = t.f F ∧ s'.f F = s.f F := by
    unfold State.f
    rw [hF, ht, hst]
    exact ⟨rfl, rfl⟩
  have hff (F : Field) (hF : F.off = TB.PPSFR b) : t'.f F = t.f F := by
    unfold State.f
    rw [hF, hf]
  obtain ⟨h1, h2, h3, h4, h5⟩ := h
  refine ⟨by rw [hn, hns, h1], (hff _ rfl).trans h2, ?_, ?_, ?_⟩
  · rw [hff (TB.PPSFR_WC b) rfl, (hstf (TB.STAT_WC b) rfl).2, h3]
  · rw [State.on, (hstf (TB.STAT_PPS b) rfl).1, ← h4, State.on]
  · rw [(hstf (TB.STAT_WC b) rfl).1, (hstf (TB.STAT_WC b) rfl).2, h5]

/-- The edge is captured on TB_CELL, TB_GLOBAL and TB_LOCAL. -/
theorem State.ppsTaken_all (s : State) (frac : Fin 32) (a : Fin 3) :
    s.ppsShown (((s.ppsTaken frac 0).ppsTaken frac 1).ppsTaken frac 2) frac a.val := by
  have hother (u : State) (c : Nat) {o : Nat} (hn : o ≠ TB.PPSNS c) (hf : o ≠ TB.PPSFR c) (hst : o ≠ TB.STAT c) :=
    u.ppsTaken_rd_ne frac c hn hf hst
  have hshown (u : State) (c : Nat) := u.ppsTaken_shown frac.isLt c
  fin_cases a
  · refine (hshown s 0).of_rd rfl rfl ?_ ?_ ?_ <;>
      rw [hother _ 2 (by decide) (by decide) (by decide), hother _ 1 (by decide) (by decide) (by decide)]
  · refine (hshown (s.ppsTaken frac 0) 1).of_rd ?_ ?_ ?_ ?_ ?_
    · exact (hother s 0 (by decide) (by decide) (by decide)).symm
    · exact (hother s 0 (by decide) (by decide) (by decide)).symm
    all_goals exact hother _ 2 (by decide) (by decide) (by decide)
  · refine (hshown ((s.ppsTaken frac 0).ppsTaken frac 1) 2).of_rd ?_ ?_ rfl rfl rfl <;>
      rw [hother _ 1 (by decide) (by decide) (by decide), hother _ 0 (by decide) (by decide) (by decide)]

/-- What is scheduled for later shows nothing else. -/
theorem State.ppsShown.sched {t : State} {frac b : Nat} (h : s.ppsShown t frac b) (dt : Nat) (c : Instr) :
    s.ppsShown (t.sched dt c) frac b :=
  h.of_rd rfl rfl (t.sched_rd _ _ _) (t.sched_rd _ _ _) (t.sched_rd _ _ _)

theorem State.tbu_frame (s : State) (u : Tbu) : let t : State := { s with tbu := u }; t = { s with tbu := t.tbu } := rfl

/-! ## The flags of a TIMEEXT page (R44) -/

/-- A flag of the page takes the value `v`; a change makes a SYNC_CHANGE record. -/
def State.noteStatus (s : State) (F : Field) (v : Bool) : State :=
  if s.on F = v then s else (s.flag F v).recordStat 0x0C 0x01 0 2 F.off

theorem State.setSync_eq (s : State) (b : Nat) (v : Bool) : s.setSync b v = s.noteStatus (TIMEEXT.STATUS_SYNC b) v := rfl

section noteStatus
variable (s) (F G : Field) (v : Bool)

theorem State.noteStatus_on (h : F.ok = true) : (s.noteStatus F v).on F = v := by
  unfold State.noteStatus
  split
  · assumption
  · exact (State.record_on _ _ _ _ _ _ _).trans (s.flag_on F v h)

theorem State.noteStatus_on_beside (h : F.ok = true) (hd : F.beside G = true) : (s.noteStatus F v).on G = s.on G := by
  unfold State.noteStatus
  split
  · rfl
  · exact (State.record_on _ _ _ _ _ _ _).trans (s.setF_on_beside G F _ h hd)

theorem State.noteStatus_rd_ne {o : Nat} (h : o ≠ F.off) : (s.noteStatus F v).rd o = s.rd o := by
  unfold State.noteStatus
  split
  · rfl
  · exact (State.record_rd _ _ _ _ _ _ _).trans (s.rd_setF_ne F _ o h)

end noteStatus

/-! ## Sync messages (R44) -/

/-- Whether the offset lies in the window. -/
def State.offsetInWindow (s : State) (b : Nat) : Bool :=
  decide ((s.rdI (TIMEEXT.OFFSET b)).natAbs ≤ (s.rd (TIMEEXT.SYNC_WIN b)).toNat)

/-- Outside HOLDOVER SYNC follows the window, once there is an estimate. -/
theorem State.syncJudge_outside (h : s.on (TIMEEXT.STATUS_HOLDOVER b) = false) :
    s.syncJudge b = if (s.tb b).est then s.setSync b (s.offsetInWindow b) else s := by
  unfold State.syncJudge
  simp only [h, Bool.false_eq_true, if_false]
  rfl

/-- Outside HOLDOVER the judgement touches SYNC alone. -/
theorem State.syncJudge_on_beside (h : s.on (TIMEEXT.STATUS_HOLDOVER b) = false) (G : Field)
    (hG : (TIMEEXT.STATUS_SYNC b).beside G = true) : (s.syncJudge b).on G = s.on G := by
  rw [State.syncJudge_outside h]
  split
  · exact s.noteStatus_on_beside _ G _ rfl hG
  · rfl

/-- The offset is stored and there is an estimate. -/
def State.offsetTaken (s : State) (b : Nat) (ofs : Int) : State :=
  (s.wrI (TIMEEXT.OFFSET b) (satS 32 ofs)).setTb b { s.tb b with est := true }

theorem satS_bounds (ofs : Int) : -2 ^ 31 ≤ satS 32 ofs ∧ satS 32 ofs < 2 ^ 31 := by
  unfold satS clampInt
  norm_num
  split
  · omega
  · split <;> omega

theorem satS_of_fits {ofs : Int} (hlo : -(2 : Int) ^ 31 ≤ ofs) (hhi : ofs < 2 ^ 31) : satS 32 ofs = ofs := by
  unfold satS clampInt
  norm_num at *
  omega

theorem satS_of_above {ofs : Int} (h : (2 : Int) ^ 31 ≤ ofs) : satS 32 ofs = 2 ^ 31 - 1 := by
  unfold satS clampInt
  norm_num at *
  omega

/-- The offset stored is the one of the message, saturated. -/
theorem State.offsetTaken_offset (s : State) (b : Nat) (ofs : Int) :
    (s.offsetTaken b ofs).rdI (TIMEEXT.OFFSET b) = satS 32 ofs :=
  s.rdI_wrI_same _ _ (satS_bounds ofs).1 (satS_bounds ofs).2

theorem State.offsetTaken_rd_ne (s : State) (b : Nat) (ofs : Int) {o : Nat} (h : o ≠ TIMEEXT.OFFSET b) :
    (s.offsetTaken b ofs).rd o = s.rd o := s.rd_wr_ne _ _ _ h

/-- The registers of a page are apart from those of the bases. -/
theorem State.rateStore_rd_ne (s : State) (b : Nat) (x : Int) {o : Nat} (hr : o ≠ TB.RATE b) (hst : o ≠ TB.STAT b) :
    (s.rateStore b x).rd o = s.rd o := by
  unfold State.rateStore
  exact (State.raiseIf_rd_ne _ _ _ _ hst).trans (State.rd_wr_ne _ _ _ _ hr)

/-- What a Sync does outside HOLDOVER: the judgement of the new offset, and an ADJ of the servo. -/
theorem State.ptp_sync_rd (s : State) (b : Fin 2) (ofs : Int) (iv : Nat) {o : Nat}
    (h : s.on (TIMEEXT.STATUS_HOLDOVER b.val) = false) (hr : o ≠ TB.RATE b.val) (hst : o ≠ TB.STAT b.val) :
    (s.ptp b.val (.sync ofs iv)).rd o = ((s.offsetTaken b.val ofs).syncJudge b.val).rd o := by
  have hold : ¬s.on (TIMEEXT.STATUS_HOLDOVER b.val) = true := by simp [h]
  simp only [State.ptp, if_neg hold, State.resched_rd]
  show (if _ then (s.offsetTaken b.val ofs).syncJudge b.val else _ : State).rd o = _
  split
  · rfl
  · exact State.rateStore_rd_ne _ _ _ hr hst

/-- SYNC after a Sync tells whether the offset lies in the window. -/
theorem State.offsetTaken_judged (s : State) (b : Nat) (ofs : Int) (h : s.on (TIMEEXT.STATUS_HOLDOVER b) = false) :
    (s.offsetTaken b ofs).syncJudge b = (s.offsetTaken b ofs).noteStatus (TIMEEXT.STATUS_SYNC b)
      (decide ((satS 32 ofs).natAbs ≤ (s.rd (TIMEEXT.SYNC_WIN b)).toNat)) := by
  have hne : TIMEEXT.STATUS b ≠ TIMEEXT.OFFSET b := by simp [TIMEEXT.STATUS, TIMEEXT.OFFSET]
  have hnw : TIMEEXT.SYNC_WIN b ≠ TIMEEXT.OFFSET b := by simp [TIMEEXT.SYNC_WIN, TIMEEXT.OFFSET]
  have hold : (s.offsetTaken b ofs).on (TIMEEXT.STATUS_HOLDOVER b) = false := 
    (State.on_of_rd _ (s.offsetTaken_rd_ne b ofs hne)).trans h
  have hest : ((s.offsetTaken b ofs).tb b).est = true := by
    rw [State.offsetTaken, State.tb_setTb_same]
  have hwin : (s.offsetTaken b ofs).offsetInWindow b
      = decide ((satS 32 ofs).natAbs ≤ (s.rd (TIMEEXT.SYNC_WIN b)).toNat) := by
    rw [State.offsetInWindow, s.offsetTaken_offset, s.offsetTaken_rd_ne b ofs hnw]
  rw [State.syncJudge_outside hold, if_pos hest, hwin, State.setSync_eq]

/-- A Sync outside HOLDOVER. -/
theorem State.ptp_sync_effect (s : State) (b : Fin 2) (ofs : Int) (iv : Nat)
    (h : s.on (TIMEEXT.STATUS_HOLDOVER b.val) = false) :
    (s.ptp b.val (.sync ofs iv)).rdI (TIMEEXT.OFFSET b.val) = satS 32 ofs
      ∧ (s.ptp b.val (.sync ofs iv)).on (TIMEEXT.STATUS_SYNC b.val)
        = decide ((satS 32 ofs).natAbs ≤ (s.rd (TIMEEXT.SYNC_WIN b.val)).toNat) := by
  have hsr : TIMEEXT.STATUS b.val ≠ TB.RATE b.val ∧ TIMEEXT.STATUS b.val ≠ TB.STAT b.val := by
    simp only [TIMEEXT.STATUS, TB.RATE, TB.STAT]
    omega
  have hor : TIMEEXT.OFFSET b.val ≠ TB.RATE b.val ∧ TIMEEXT.OFFSET b.val ≠ TB.STAT b.val := by
    simp only [TIMEEXT.OFFSET, TB.RATE, TB.STAT]
    omega
  have hos : TIMEEXT.OFFSET b.val ≠ TIMEEXT.STATUS b.val := by simp [TIMEEXT.OFFSET, TIMEEXT.STATUS]
  constructor
  · rw [State.rdI, s.ptp_sync_rd b ofs iv h hor.1 hor.2, s.offsetTaken_judged b.val ofs h,
      State.noteStatus_rd_ne _ _ _ hos]
    exact s.offsetTaken_offset b.val ofs
  · rw [State.on_of_rd _ (s.ptp_sync_rd b ofs iv h hsr.1 hsr.2), s.offsetTaken_judged b.val ofs h]
    exact State.noteStatus_on _ (TIMEEXT.STATUS_SYNC b.val) _ rfl

/-! ## The grandmaster (R44) -/

/-- A selection sets GRANDMASTER and ends HOLDOVER. -/
theorem State.ptpMaster_effect (s : State) (b : Nat) (self : Bool) (iv : Nat) :
    (s.ptpMaster b self iv).on (TIMEEXT.STATUS_GRANDMASTER b) = self
      ∧ (s.ptpMaster b self iv).on (TIMEEXT.STATUS_HOLDOVER b) = false := by
  let t := ((s.flag (TIMEEXT.STATUS_GRANDMASTER b) self).setHoldover b false).cancel (.holdoverSyncLoss (Fin.ofNat 2 b))
  let u := t.setTb b { t.tb b with est := (t.tb b).est || self }
  have hhold : u.on (TIMEEXT.STATUS_HOLDOVER b) = false := State.noteStatus_on _ (TIMEEXT.STATUS_HOLDOVER b) false rfl
  have hgm : u.on (TIMEEXT.STATUS_GRANDMASTER b) = self :=
    (State.noteStatus_on_beside _ (TIMEEXT.STATUS_HOLDOVER b) (TIMEEXT.STATUS_GRANDMASTER b) false rfl rfl).trans
      (s.flag_on (TIMEEXT.STATUS_GRANDMASTER b) self rfl)
  have hon (G : Field) : (s.ptpMaster b self iv).on G = (u.syncJudge b).on G := by
    unfold State.ptpMaster
    cases self <;> rfl
  exact ⟨(hon _).trans ((State.syncJudge_on_beside hhold _ rfl).trans hgm),
    (hon _).trans ((State.syncJudge_on_beside hhold _ rfl).trans hhold)⟩

/-! ## Messages (R42) -/

theorem State.ptpTakes_iff (s : State) (b : Fin 2) (h : PtpHdr) : s.ptpTakes b.val h = true
    ↔ h.domain.toNat = (s.tb b.val).domain ∧ (h.transport = .l2 ∨ (h.transport = .udp4 ∧ b.val = 1)) := by
  unfold State.ptpTakes
  cases h.transport <;> simp [ptpCarries]

/-- The frame's stamp is noted first. -/
def State.ptpStamped (s : State) (stamp : Nat) : State := { s with tbu := { s.tbu with ptpNs := stamp } }

section stamp
variable (s) (stamp : Nat)

theorem State.ptpStamped_takes (b : Nat) (h : PtpHdr) : (s.ptpStamped stamp).ptpTakes b h = s.ptpTakes b h := rfl

theorem State.ptpStamped_rd (o : Nat) : (s.ptpStamped stamp).rd o = s.rd o := rfl

theorem State.ptpStamped_on (G : Field) : (s.ptpStamped stamp).on G = s.on G := rfl

theorem State.ptpStamped_frame : s.ptpStamped stamp = { s with tbu := (s.ptpStamped stamp).tbu } := rfl

/-- Who is the grandmaster of TB_CELL after an announcement. -/
theorem State.ptp_announce_grandmaster (better : Bool) (p1 : Byte) (iv : Nat) :
    ((s.ptpStamped stamp).ptp 0 (.announce p1 better iv)).on (TIMEEXT.STATUS_GRANDMASTER 0)
      = (s.tbu.gmCap && (decide (s.tbu.prio1 < p1.toNat) || (decide (s.tbu.prio1 = p1.toNat) && better))) :=
  (State.ptpMaster_effect _ 0 _ iv).1

end stamp

/-- What a base does with a message that it takes. -/
theorem execPtp_taken {port : Fin 6} {b : Fin 2} {h : PtpHdr} (m : PtpBody) (ht : s.ptpTakes b.val h = true) :
    exec (.ptpMessageReceive port b ⟨h, m⟩) s
      = .next ((s.ptpStamped (s.ingressTime b.val port.val)).ptp b.val m) :=
  congrArg ok (if_pos ((s.ptpStamped_takes _ b.val h).trans ht))

theorem execPtp_left {port : Fin 6} {b : Fin 2} {h : PtpHdr} (m : PtpBody) (ht : ¬s.ptpTakes b.val h = true) :
    exec (.ptpMessageReceive port b ⟨h, m⟩) s = .next (s.ptpStamped (s.ingressTime b.val port.val)) :=
  congrArg ok (if_neg (mt (s.ptpStamped_takes _ b.val h).symm.trans ht))

/-- In HOLDOVER a Sync leaves the estimate. -/
theorem State.ptp_sync_held {ofs : Int} {iv : Nat} (h : s.on (TIMEEXT.STATUS_HOLDOVER b) = true) :
    s.ptp b (.sync ofs iv) = s := if_pos h

/-! ## HOLDOVER (R44) -/

/-- HOLDOVER starts, with OFFSET and ADJ as they are. -/
theorem execHoldoverEnter_effect (s : State) (b : Fin 2) : ∃ t : State, execHoldoverEnter b s = .next t
    ∧ (s.on (TIMEEXT.STATUS_GRANDMASTER b.val) = true → t = s)
    ∧ (s.on (TIMEEXT.STATUS_GRANDMASTER b.val) = false → t.on (TIMEEXT.STATUS_HOLDOVER b.val) = true
      ∧ t.rd (TIMEEXT.OFFSET b.val) = s.rd (TIMEEXT.OFFSET b.val) ∧ t.rd (TB.RATE b.val) = s.rd (TB.RATE b.val)) := by
  have ho : TIMEEXT.OFFSET b.val ≠ TIMEEXT.STATUS b.val := by simp [TIMEEXT.OFFSET, TIMEEXT.STATUS]
  have hr : TB.RATE b.val ≠ TIMEEXT.STATUS b.val := by
    simp only [TB.RATE, TIMEEXT.STATUS]
    omega
  cases hgm : s.on (TIMEEXT.STATUS_GRANDMASTER b.val) with
  | true => exact ⟨s, if_pos hgm, fun _ => rfl, fun h => Bool.noConfusion h⟩
  | false =>
    refine ⟨_, if_neg (by simp [hgm]), fun h => Bool.noConfusion h, fun _ => ⟨?hold, ?offset, ?rate⟩⟩
    case hold => exact State.noteStatus_on _ (TIMEEXT.STATUS_HOLDOVER b.val) true rfl
    case offset => exact State.noteStatus_rd_ne _ (TIMEEXT.STATUS_HOLDOVER b.val) true ho
    case rate => exact State.noteStatus_rd_ne _ (TIMEEXT.STATUS_HOLDOVER b.val) true hr

/-- Past the drift bound SYNC is lost. -/
theorem execHoldoverSyncLoss_effect (s : State) (b : Fin 2) : ∃ t : State, execHoldoverSyncLoss b s = .next t
    ∧ (s.on (TIMEEXT.STATUS_HOLDOVER b.val) = true → t.on (TIMEEXT.STATUS_SYNC b.val) = false)
    ∧ (s.on (TIMEEXT.STATUS_HOLDOVER b.val) = false → t = s) := by
  cases hold : s.on (TIMEEXT.STATUS_HOLDOVER b.val) with
  | true => exact ⟨_, if_pos hold, fun _ => State.noteStatus_on s (TIMEEXT.STATUS_SYNC b.val) false rfl, fun h => Bool.noConfusion h⟩
  | false => exact ⟨s, if_neg (by simp [hold]), fun h => Bool.noConfusion h, fun _ => rfl⟩

/-! ## The statement -/

/-- Settles O29: each command by the lemma of what it does. -/
theorem timeProtocolsAndOutputs : Obligations.TimeProtocolsAndOutputs := by
  intro s b hi wc frac port o h ofs iv self better p1 msg takes
  have htakes : takes → s.ptpTakes o.val h = true := (s.ptpTakes_iff o h).mpr
  have hsync (n : Nat) (hold : s.on (TIMEEXT.STATUS_HOLDOVER o.val) = false) :=
    (s.ptpStamped n).ptp_sync_effect o ofs iv ((s.ptpStamped_on n _).trans hold)
  have hheld (n : Nat) (hold : s.on (TIMEEXT.STATUS_HOLDOVER o.val) = true) :=
    State.ptp_sync_held (ofs := ofs) (iv := iv) ((s.ptpStamped_on n (TIMEEXT.STATUS_HOLDOVER o.val)).trans hold)
  refine ⟨⟨_, rfl, s.timeextUpdated_effect b.val hi wc⟩, ⟨_, rfl, fun a => (s.ppsTaken_all frac a).sched 0 _⟩,
    ⟨_, rfl, rfl, s.tbu_frame _⟩, ⟨_, rfl, rfl, s.tbu_frame _⟩,
    fun ht => ⟨_, execPtp_left msg (mt (s.ptpTakes_iff o h).mp ht), s.ptpStamped_frame _⟩,
    fun ht hold => ⟨_, (execPtp_taken _ (htakes ht)).trans (congrArg ok (hheld _ hold)), s.ptpStamped_frame _⟩,
    fun ht hold => ⟨_, execPtp_taken _ (htakes ht), fun hlo hhi => ?fits, fun hlo => ?low, fun hhi => ?high,
      fun hlo hhi => ?sync⟩,
    fun ht => ⟨_, execPtp_taken _ (htakes ht), State.ptpMaster_effect _ o.val self iv⟩,
    fun ht => ⟨_, execPtp_taken _ (htakes ht), (State.ptpMaster_effect _ o.val _ iv).2, fun ho => ?announce⟩,
    execHoldoverEnter_effect s o, execHoldoverSyncLoss_effect s o⟩
  case fits => rw [(hsync _ hold).1, satS_of_fits hlo hhi]
  case low =>
    rw [(hsync _ hold).1]
    exact if_pos hlo
  case high =>
    rw [(hsync _ hold).1]
    exact satS_of_above hhi
  case sync => rw [(hsync _ hold).2, satS_of_fits hlo hhi, State.ptpStamped_rd]
  case announce =>
    subst ho
    exact s.ptp_announce_grandmaster _ better p1 iv

end Sys2Proof.Machine
end

section
/-! SUPPORT. Which registers a sequence of updates keeps: a relation of two states with one rule per update, so that the
frame of a longer function follows the function's own text. -/

namespace Sys2Proof.Machine

/-- `t` reads every register of `P` as `s` does. -/
def State.Keeps (P : Nat → Prop) (s t : State) : Prop := ∀ o, P o → t.rd o = s.rd o

namespace State.Keeps
variable {P : Nat → Prop} {s t u : State} {F : Field}

theorem refl (s : State) : s.Keeps P s := fun _ _ => rfl

theorem trans (h : s.Keeps P t) (h' : t.Keeps P u) : s.Keeps P u := fun o ho => (h' o ho).trans (h o ho)

/-- What leaves the register file alone. -/
theorem same (h : s.Keeps P t) (hregs : u.regs = t.regs) : s.Keeps P u :=
  fun o ho => (congrArg (fun r : FMap Word => r.get regReset o) hregs).trans (h o ho)

theorem wr (h : s.Keeps P t) {o : Nat} (ho : ¬P o) (v : Word) : s.Keeps P (t.wr o v) :=
  fun k hk => (t.rd_wr_ne o k v (fun e => ho (e ▸ hk))).trans (h k hk)

theorem setF (h : s.Keeps P t) (hF : ¬P F.off) (v : Nat) : s.Keeps P (t.setF F v) := h.wr hF _

theorem flag (h : s.Keeps P t) (hF : ¬P F.off) (b : Bool) : s.Keeps P (t.flag F b) := h.wr hF _

theorem raise (h : s.Keeps P t) (hF : ¬P F.off) : s.Keeps P (t.raise F) := h.wr hF _

theorem raiseIf (h : s.Keeps P t) (hF : ¬P F.off) (b : Bool) : s.Keeps P (t.raiseIf b F) := by
  cases b
  · exact h
  · exact h.raise hF

theorem bump (h : s.Keeps P t) (hF : ¬P F.off) (n : Nat) : s.Keeps P (t.bump F n) := h.wr hF _

theorem bumpMod (h : s.Keeps P t) (hF : ¬P F.off) (n : Nat) : s.Keeps P (t.bumpMod F n) := h.wr hF _

/-- Either branch. -/
theorem ite {c : Prop} [Decidable c] {a b : State} (ha : c → s.Keeps P a) (hb : ¬c → s.Keeps P b) :
    s.Keeps P (if c then a else b) := by
  split
  · exact ha ‹_›
  · exact hb ‹_›

/-- One step after the other over a list. -/
theorem foldl {α : Type} {op : State → α → State} {l : List α} (h : s.Keeps P t)
    (hop : ∀ u : State, ∀ x ∈ l, u.Keeps P (op u x)) : s.Keeps P (l.foldl op t) :=
  List.foldlRecOn (motive := fun u : State => s.Keeps P u) l op h fun u hu x hx => hu.trans (hop u x hx)

theorem f (h : s.Keeps P t) (G : Field) (hG : P G.off) : t.f G = s.f G := State.f_of_rd G (h _ hG)

theorem on (h : s.Keeps P t) (G : Field) (hG : P G.off) : t.on G = s.on G := State.on_of_rd G (h _ hG)

theorem rdI (h : s.Keeps P t) (o : Nat) (ho : P o) : t.rdI o = s.rdI o := congrArg BitVec.toInt (h o ho)

end State.Keeps

end Sys2Proof.Machine
end

section
/-! PROOF of the statement ComparatorFiring (R37 to R40, R125, R150). A firing changes registers of its own comparator
only; what it starts in the other blocks, before and after, leaves every time register, the bases and the event times
alone and only adds tokens: `TimeKeeps`. -/

namespace Sys2Proof.Machine

/-! ## What the other blocks leave -/

/-- The registers that a firing reads: of the bases and comparators, and the module's state. -/
def timeReg (o : Nat) : Prop := o < 0x00200000 ∨ 0x02200000 ≤ o

/-- From `s` to `t` the time registers, the bases and the event times stay, and tokens only come. -/
structure State.TimeKeeps (s t : State) : Prop where
  regs : s.Keeps timeReg t
  tbase : t.tbase = s.tbase
  event : t.tbu.event = s.tbu.event
  clvIn : s.clvIn ⊆ t.clvIn

namespace State.TimeKeeps
variable {s t u : State}

theorem refl (s : State) : s.TimeKeeps s := ⟨.refl s, rfl, rfl, fun _ h => h⟩

theorem trans (h : s.TimeKeeps t) (h' : t.TimeKeeps u) : s.TimeKeeps u :=
  ⟨h.regs.trans h'.regs, h'.tbase.trans h.tbase, h'.event.trans h.event, fun _ hk => h'.clvIn (h.clvIn hk)⟩

/-- Beside what a firing reads. -/
theorem same (h : s.TimeKeeps t) (hregs : s.Keeps timeReg u) (htbase : u.tbase = t.tbase)
    (hevent : u.tbu.event = t.tbu.event) (htok : u.clvIn = t.clvIn) : s.TimeKeeps u :=
  ⟨hregs, htbase.trans h.tbase, hevent.trans h.event, fun _ hk => htok ▸ h.clvIn hk⟩

/-- A write of a register of another block. -/
theorem wr (h : s.TimeKeeps t) {o : Nat} (ho : ¬timeReg o) (v : Word) : s.TimeKeeps (t.wr o v) :=
  h.same (h.regs.wr ho v) rfl rfl rfl

theorem setF (h : s.TimeKeeps t) {F : Field} (hF : ¬timeReg F.off) (v : Nat) : s.TimeKeeps (t.setF F v) := h.wr hF _

theorem ite {c : Prop} [Decidable c] {a b : State} (ha : s.TimeKeeps a) (hb : s.TimeKeeps b) :
    s.TimeKeeps (if c then a else b) := by
  split
  · exact ha
  · exact hb

/-- A step that may be taken. -/
theorem step {c : Prop} [Decidable c] {a b : State} (hb : s.TimeKeeps b) (hab : b.TimeKeeps a) :
    s.TimeKeeps (if c then a else b) := .ite (hb.trans hab) hb

theorem raiseIf (h : s.TimeKeeps t) {F : Field} (hF : ¬timeReg F.off) (b : Bool) : s.TimeKeeps (t.raiseIf b F) :=
  .ite (h.setF hF 1) h

theorem raise (h : s.TimeKeeps t) {F : Field} (hF : ¬timeReg F.off) : s.TimeKeeps (t.raise F) := h.wr hF _

theorem flag (h : s.TimeKeeps t) {F : Field} (hF : ¬timeReg F.off) (b : Bool) : s.TimeKeeps (t.flag F b) := h.wr hF _

theorem bump (h : s.TimeKeeps t) {F : Field} (hF : ¬timeReg F.off) (n : Nat) : s.TimeKeeps (t.bump F n) := h.wr hF _

theorem bumpMod (h : s.TimeKeeps t) {F : Field} (hF : ¬timeReg F.off) (n : Nat) : s.TimeKeeps (t.bumpMod F n) :=
  h.wr hF _

theorem recordStat (h : s.TimeKeeps t) (cls code unit sev stat : Nat) :
    s.TimeKeeps (t.recordStat cls code unit sev stat) := h.same h.regs rfl rfl rfl

theorem setLpe (h : s.TimeKeeps t) (x : Lpe) : s.TimeKeeps { t with lpe := x } := h.same h.regs rfl rfl rfl

theorem setCap (h : s.TimeKeeps t) (x : Cap) : s.TimeKeeps { t with cap := x } := h.same h.regs rfl rfl rfl

theorem setBbs (h : s.TimeKeeps t) (x : Bbs) : s.TimeKeeps { t with bbs := x } := h.same h.regs rfl rfl rfl

theorem tickFree (h : s.TimeKeeps t) : s.TimeKeeps t.tickFree := h.same h.regs rfl rfl rfl

theorem setTbuPps (h : s.TimeKeeps t) (b : Bool) (x : Nat) :
    s.TimeKeeps { t with tbu := { t.tbu with pps := b, ppsX := x } } := h.same h.regs rfl rfl rfl

theorem sched (h : s.TimeKeeps t) (dt : Nat) (c : Instr) : s.TimeKeeps (t.sched dt c) := h.same h.regs rfl rfl rfl

theorem resched (h : s.TimeKeeps t) (dt : Nat) (c : Instr) : s.TimeKeeps (t.resched dt c) := h.same h.regs rfl rfl rfl

theorem foldl {α : Type} {op : State → α → State} {l : List α} (h : s.TimeKeeps t)
    (hop : ∀ u : State, ∀ x ∈ l, u.TimeKeeps (op u x)) : s.TimeKeeps (l.foldl op t) :=
  List.foldlRecOn (motive := fun u : State => s.TimeKeeps u) l op h fun u hu x hx => hu.trans (hop u x hx)

theorem f (h : s.TimeKeeps t) (G : Field) (hG : timeReg G.off) : t.f G = s.f G := h.regs.f G hG

theorem on (h : s.TimeKeeps t) (G : Field) (hG : timeReg G.off) : t.on G = s.on G := h.regs.on G hG

theorem tb (h : s.TimeKeeps t) (b : Nat) : t.tb b = s.tb b := by rw [State.tb, h.tbase, State.tb]

theorem mstate (h : s.TimeKeeps t) : t.mstate = s.mstate := h.f PWS.MODSTATE_STATE (Or.inr (by decide))

end State.TimeKeeps

section blocks
variable {s t : State}

/-! ### TCMP0: the frame opens -/

/-- A generator's held set-point. -/
theorem State.TimeKeeps.pgHold (h : s.TimeKeeps t) {n : Nat} (hn : n < 128) : s.TimeKeeps (t.pgHold n) := by
  have hoff : ¬timeReg (PRG.POS_L n) ∧ ¬timeReg (PRG.POS_L n + 4) ∧ ¬timeReg (PRG.VEL n) ∧ ¬timeReg (PRG.ACC n) := by
    simp only [timeReg, PRG.POS_L, PRG.VEL, PRG.ACC]
    omega
  obtain ⟨hlo, hhi, hvel, hacc⟩ := hoff
  unfold State.pgHold State.wrWide
  refine .ite ?_ ((((h.wr hlo _).wr hhi _).wr hvel _).wr hacc _)
  unfold State.cmdSign
  have hheld := (((h.wr hlo (BitVec.ofNat 32 (bitsOf 64 (t.pgU n).outP))).wr hhi
    (BitVec.ofNat 32 (bitsOf 64 (t.pgU n).outP / 2 ^ 32))).wr hvel (BitVec.ofInt 32 (t.pgU n).outV)).wr hacc
    (BitVec.ofInt 32 (t.pgU n).outA)
  exact .ite hheld (hheld.same hheld.regs rfl rfl rfl)

/-- The standstill timer of a stepper. -/
theorem State.TimeKeeps.stillTimer (h : s.TimeKeeps t) (n : Nat) : s.TimeKeeps (t.stillTimer n) :=
  .ite (h.same h.regs rfl rfl rfl) (.ite h (h.sched _ _))

/-- The modulator clocks. -/
theorem State.TimeKeeps.dsckFrame (h : s.TimeKeeps t) : s.TimeKeeps t.dsckFrame :=
  h.foldl fun u _ _ => .ite ((refl u).same (.refl u) rfl rfl rfl) (refl u)

/-- The Loop Engine's frame. -/
theorem State.TimeKeeps.lpeFrame (h : s.TimeKeeps t) : s.TimeKeeps t.lpeFrame := by
  have hoff : ¬timeReg LPEG.GSTAT := by simp [timeReg, LPEG.GSTAT]
  unfold State.lpeFrame
  refine .bumpMod ?_ hoff _
  refine .foldl ?_ fun w _ _ => .ite ((refl w).same (.refl w) rfl rfl rfl) (refl w)
  refine .setLpe ?_ _
  refine .ite (.ite h (h.setLpe _)) ?_
  exact ((h.raise hoff).recordStat _ _ _ _ _).setLpe _

/-! ### The Capture Engine's sample of a frame -/

theorem capReg_not_timeReg : ¬timeReg CAP.STAT ∧ ¬timeReg CAP.CNT := by simp [timeReg, CAP.STAT, CAP.CNT]

/-- Arming, or the wait for room. -/
theorem State.TimeKeeps.capArm (h : s.TimeKeeps t) : s.TimeKeeps t.capArm := by
  obtain ⟨hstat, -⟩ := capReg_not_timeReg
  unfold State.capArm
  refine .ite ?_ ?_
  · exact ((h.raise hstat).setF hstat _).setCap _
  · exact (((h.raiseIf hstat _).setF hstat _).setF hstat _).setCap _

/-- A complete record. -/
theorem State.TimeKeeps.capDone (h : s.TimeKeeps t) (trunc : Bool) : s.TimeKeeps (t.capDone trunc) := by
  obtain ⟨hstat, -⟩ := capReg_not_timeReg
  have hflag := h.raiseIf (F := CAP.STAT_TRUNC) hstat trunc
  unfold State.capDone
  cases ht : t.cap.trig <;> simp only [ht]
  · exact ((hflag.tickFree.setCap _).tickFree).sched _ _
  · exact ((hflag.setCap _).tickFree).sched _ _

/-- The last sample of a record. -/
theorem State.TimeKeeps.capFull (h : s.TimeKeeps t) : s.TimeKeeps t.capFull := by
  obtain ⟨hstat, -⟩ := capReg_not_timeReg
  have hd := h.capDone false
  unfold State.capFull
  dsimp only
  split
  · exact hd
  · exact .ite hd.capArm ((hd.setF hstat _).setCap _)
  · exact hd.capArm

theorem State.TimeKeeps.capCheck (h : s.TimeKeeps t) : s.TimeKeeps t.capCheck := .ite h.capFull h

theorem State.TimeKeeps.capMiss (h : s.TimeKeeps t) : s.TimeKeeps t.capMiss :=
  (h.bump (F := CAP.CNT_MISSED) capReg_not_timeReg.2 1).setCap _

/-- A trigger. -/
theorem State.TimeKeeps.capTrig (h : s.TimeKeeps t) (x : CapTrig) : s.TimeKeeps (t.capTrig x) := by
  obtain ⟨hstat, -⟩ := capReg_not_timeReg
  unfold State.capTrig
  refine .ite h (.ite h (.ite h ?_))
  refine .ite (h.setCap _).capMiss (.ite ?_ (.ite (.ite (h.setCap _).capArm ((h.setCap _).setCap _)) (h.setCap _).capMiss))
  exact (((h.setCap _).setF hstat _).setCap _).capCheck

theorem State.TimeKeeps.capProbeTest (h : s.TimeKeeps t) : s.TimeKeeps t.capProbeTest := by
  unfold State.capProbeTest
  exact .ite h (.ite ((h.setCap _).capTrig _) (h.setCap _))

theorem State.TimeKeeps.capStore (h : s.TimeKeeps t) : s.TimeKeeps t.capStore := by
  obtain ⟨hstat, -⟩ := capReg_not_timeReg
  unfold State.capStore
  exact .ite (h.setCap _).capCheck ((TimeKeeps.ite (h.setF hstat _) h).setCap _)

/-- The engine's part of a frame. -/
theorem State.TimeKeeps.capSample (h : s.TimeKeeps t) : s.TimeKeeps t.capSample := by
  have hframe := h.setCap { t.cap with frames := t.cap.frames + 1 }
  have hbase {c : Prop} [Decidable c] := TimeKeeps.ite (c := c) hframe.capProbeTest hframe
  unfold State.capSample
  refine .ite h (.ite hbase (.ite (.ite hbase.capArm hbase) (.ite ?_ (.ite hbase (.ite hbase.capStore ?_)))))
  · exact .ite ((hbase.setCap _).sched _ _) hbase
  · exact .ite (hbase.setCap _) hbase

/-- TCMP0 opens a frame. -/
theorem State.TimeKeeps.frameOpen (h : s.TimeKeeps t) : s.TimeKeeps t.frameOpen := by
  have hold := h.foldl (op := State.pgHold) (l := List.range 128) fun u n hn => (refl u).pgHold (List.mem_range.mp hn)
  have hstill := hold.foldl (op := State.stillTimer) (l := List.range 96) fun u n _ => (refl u).stillTimer n
  exact hstill.dsckFrame.lpeFrame.capSample

/-! ### STATE frames and heartbeats -/

/-- A worker's STATE frames. -/
theorem State.TimeKeeps.stateFire (h : s.TimeKeeps t) (c : Nat) : s.TimeKeeps (t.stateFire c) := .ite (h.resched _ _) h

theorem fovReg_not_timeReg : ¬timeReg FOV.STAT ∧ ¬timeReg FOV.EPOCH ∧ ¬timeReg FOV.ACTIVE ∧ ¬timeReg FOV.CNT
    ∧ ¬timeReg FOV.MISS := by simp [timeReg, FOV.STAT, FOV.EPOCH, FOV.ACTIVE, FOV.CNT, FOV.MISS]

theorem State.TimeKeeps.setFov (h : s.TimeKeeps t) (x : Fov) : s.TimeKeeps (t.setFov x) := h.same h.regs rfl rfl rfl

theorem State.TimeKeeps.hbSend (h : s.TimeKeeps t) : s.TimeKeeps t.hbSend := by
  obtain ⟨hstat, -⟩ := fovReg_not_timeReg
  have hsent : s.TimeKeeps (t.sendHb (t.hbBytes false) (t.hbBytes true)) := ((h.setBbs _).setBbs _).setBbs _
  exact .ite ((hsent.setFov _).setF hstat _) (hsent.setFov _)

theorem State.TimeKeeps.notRedundant (h : s.TimeKeeps t) (m : Nat) : s.TimeKeeps (t.notRedundant m) := by
  obtain ⟨hstat, -⟩ := fovReg_not_timeReg
  have hflag := h.flag (F := FOV.STAT_REDUNDANT) hstat false
  exact .ite hflag ((hflag.setFov _).recordStat _ _ _ _ _)

theorem State.TimeKeeps.promoteUnit (h : s.TimeKeeps t) (m : Nat) : s.TimeKeeps (t.promoteUnit m) := by
  obtain ⟨hstat, hepoch, hactive, hcnt, -⟩ := fovReg_not_timeReg
  exact (((((((h.wr hepoch _).setF (F := FOV.ACTIVE_MOD) hactive _).raise (F := FOV.ACTIVE_VALID) hactive).bump
    (F := FOV.CNT_PROMOTIONS) hcnt _).flag (F := FOV.STAT_REDUNDANT) hstat _).setFov _)).hbSend

theorem State.TimeKeeps.declareFailed (h : s.TimeKeeps t) (m : Nat) : s.TimeKeeps (t.declareFailed m) := by
  refine .ite ?_ (h.notRedundant m)
  split
  · exact .ite (h.promoteUnit _) (h.notRedundant m)
  · exact h.notRedundant m

theorem State.TimeKeeps.openEpoch (h : s.TimeKeeps t) : s.TimeKeeps t.openEpoch := by
  obtain ⟨-, hepoch, hactive, -⟩ := fovReg_not_timeReg
  unfold State.openEpoch
  split
  · exact ((h.wr hepoch _).setF (F := FOV.ACTIVE_MOD) hactive _).raise (F := FOV.ACTIVE_VALID) hactive
  · exact h

theorem State.TimeKeeps.countMisses (h : s.TimeKeeps t) : s.TimeKeeps t.countMisses := by
  have hmiss := fovReg_not_timeReg.2.2.2.2
  refine h.foldl fun u m _ => ?_
  have ha := TimeKeeps.ite (c := u.recent (u.hbRec m).atA (hbPeriod + 1) = true) (refl u)
    ((refl u).bump (F := FOV.MISS_MISS_A) hmiss 1)
  exact .ite ha (ha.bump (F := FOV.MISS_MISS_B) hmiss 1)

/-- The heartbeat of the module. -/
theorem State.TimeKeeps.hbFire (h : s.TimeKeeps t) : s.TimeKeeps t.hbFire := by
  have hopen := h.countMisses.openEpoch
  refine .ite h (State.TimeKeeps.hbSend (.ite ?_ h.countMisses))
  exact hopen.foldl fun u m _ => .ite ((refl u).declareFailed m) (refl u)

/-! ### What a firing delivers -/

theorem State.TimeKeeps.frameStart (h : s.TimeKeeps t) (p x : Nat) : s.TimeKeeps (t.frameStart p x) :=
  .ite h (h.same h.regs rfl rfl rfl)

theorem State.TimeKeeps.frameFire (h : s.TimeKeeps t) (x : Nat) : s.TimeKeeps (t.frameFire x) :=
  ((h.foldl fun u p _ => (refl u).frameStart p x).foldl fun u _ _ => (refl u).sched _ _).foldl
    fun u _ _ => (refl u).sched _ _

theorem State.TimeKeeps.aloneFire (h : s.TimeKeeps t) (c x : Nat) : s.TimeKeeps (t.aloneFire c x) :=
  h.foldl fun u _ _ => .ite ((refl u).sched _ _) (refl u)

theorem State.TimeKeeps.ppsRise (h : s.TimeKeeps t) (x : Nat) : s.TimeKeeps (t.ppsRise x) :=
  .ite h ((h.setTbuPps true x).resched _ _)

/-- After the token, a firing changes no register and posts nothing. -/
def State.tcmpStarts (s : State) (c x : Nat) : State :=
  let s := if c = 0 then s.frameFire x else s
  let s := if c ≠ 0 ∧ s.on (TCMP.CTRL_DPW c) = true then s.aloneFire c x else s
  let onTick := decide (s.tcmpPos c = 32)
  let b := s.f (TCMP.CTRL_BASE c)
  let s := if s.on (TCMP.CTRL_CAP c) then s.sched 0
      (.capTrigger (.tcmp (Fin.ofNat 128 c)) (if onTick then s.stampNs b else s.ns b) (Fin.ofNat 32 (s.tcmpFrac c))
        (BitVec.ofNat 8 (if onTick then s.stampWc b else s.wc b))) else s
  let s := if s.on (TCMP.CTRL_FOV c) && decide (c = s.f FOV.CFG_TSEL) then { s with hbDue := true } else s
  let s := if s.on PLC.CFG_EN && decide (c = s.f PLC.CFG_TSEL) then s.sched 0 .planCycleStart else s
  if s.on (TCMP.CTRL_PPS c) then s.ppsRise x else s

theorem State.tcmpDeliver_eq (s : State) (c x : Nat) : s.tcmpDeliver c x = State.tcmpStarts
    (if s.on (TCMP.CTRL_TOKEN c) then s.token (s.f (TCMP.CTRL_TAG c)) (s.rd (TCMP.VALUE c)) (16 + c) else s) c x := rfl

theorem State.TimeKeeps.setHbDue (h : s.TimeKeeps t) (b : Bool) : s.TimeKeeps { t with hbDue := b } :=
  h.same h.regs rfl rfl rfl

theorem State.TimeKeeps.tcmpStarts (h : s.TimeKeeps t) (c x : Nat) : s.TimeKeeps (t.tcmpStarts c x) := by
  unfold State.tcmpStarts
  refine .step ?_ ((refl _).ppsRise x)
  refine .step ?_ ((refl _).sched _ _)
  refine .step ?_ ((refl _).setHbDue true)
  refine .step ?_ ((refl _).sched _ _)
  refine .step ?_ ((refl _).aloneFire c x)
  exact .step h ((refl _).frameFire x)

/-- What a firing delivers, and the token that it posts. -/
theorem State.tcmpDeliver_keeps (s : State) (c x : Nat) : s.TimeKeeps (s.tcmpDeliver c x)
    ∧ (s.on (TCMP.CTRL_TOKEN c) = true →
      (⟨BitVec.ofNat 16 (s.f (TCMP.CTRL_TAG c)), s.rd (TCMP.VALUE c), 16 + c⟩ : Token) ∈ (s.tcmpDeliver c x).clvIn) := by
  have htok : s.TimeKeeps (s.token (s.f (TCMP.CTRL_TAG c)) (s.rd (TCMP.VALUE c)) (16 + c)) :=
    ⟨.refl s, rfl, rfl, List.subset_append_left _ _⟩
  rw [State.tcmpDeliver_eq]
  refine ⟨(TimeKeeps.step (.refl s) htok).tcmpStarts c x, fun hon => ?_⟩
  rw [if_pos hon]
  exact ((TimeKeeps.refl _).tcmpStarts c x).clvIn (List.mem_append_right _ List.mem_cons_self)

end blocks

/-! ## The registers of the comparator -/

section comparator
variable {s : State} {c : Nat}

theorem tcmp_offsets (c : Nat) : TCMP.STAT c ≠ TCMP.VALUE c ∧ TCMP.STAT c ≠ TCMP.CTRL c ∧ TCMP.STAT c ≠ TCMP.PERIOD c
    ∧ TCMP.VALUE c ≠ TCMP.CTRL c ∧ TCMP.VALUE c ≠ TCMP.PERIOD c := by
  simp [TCMP.STAT, TCMP.VALUE, TCMP.CTRL, TCMP.PERIOD]

theorem tcmp_ne_modstate (hc : c < 128) : PWS.MODSTATE ≠ TCMP.VALUE c ∧ PWS.MODSTATE ≠ TCMP.CTRL c
    ∧ PWS.MODSTATE ≠ TCMP.STAT c := by
  simp only [PWS.MODSTATE, TCMP.VALUE, TCMP.CTRL, TCMP.STAT]
  omega

/-- The event of comparator `c` has the time `e`. -/
def State.eventNoted (s : State) (c : Nat) (e : Word) : State :=
  { s with tbu := { s.tbu with event := s.tbu.event.set (fun _ => 0#32) c e } }

/-- The comparator notes its firing: the event's time, LATE, FIRE_CNT. -/
def State.tcmpMarked (s : State) (c : Nat) : State :=
  ((s.eventNoted c (s.tcmpEvent c)).raiseIf (s.tcmpLate c) (TCMP.STAT_LATE c)).bumpMod (TCMP.STAT_FIRE_CNT c)

/-- Writes of software in the tick of the firing. -/
def State.tcmpSoft (s : State) (c : Nat) (sw : Option Word) (dis : Bool) : State :=
  let s := match sw with
    | some v => s.tcmpSw c (·.wr (TCMP.VALUE c) v)
    | none => s
  if dis then s.tcmpSw c (·.setF (TCMP.CTRL_EN c) 0) else s

theorem State.tcmpFire_eq (s : State) (c : Nat) (sw : Option Word) (dis : Bool) : s.tcmpFire c sw dis
    = (((s.tcmpMarked c).tcmpDeliver c (s.tcmpX c)).tcmpReload c).tcmpSoft c sw dis := rfl

/-! ### The mark -/

theorem State.tcmpMarked_rd_ne (s : State) (c : Nat) {o : Nat} (h : o ≠ TCMP.STAT c) : (s.tcmpMarked c).rd o = s.rd o :=
  (State.rd_setF_ne _ _ _ _ h).trans (State.raiseIf_rd_ne _ _ _ _ h)

theorem State.raiseIf_f_beside (s : State) (b : Bool) (F G : Field) (h : F.ok = true) (hd : F.beside G = true) :
    (s.raiseIf b F).f G = s.f G := by
  cases b
  · rfl
  · exact s.setF_f_beside G F 1 h hd

section eventNoted
variable (s) (c : Nat) (e : Word)

theorem State.eventNoted_on (G : Field) : (s.eventNoted c e).on G = s.on G := rfl
theorem State.eventNoted_tbase : (s.eventNoted c e).tbase = s.tbase := rfl
theorem State.eventNoted_clvIn : (s.eventNoted c e).clvIn = s.clvIn := rfl
theorem State.eventNoted_lastEvent : (s.eventNoted c e).tbu.event.get (fun _ => 0#32) c = e := FMap.get_set_same _ _ _ _

end eventNoted

theorem State.tcmpMarked_stat (s : State) (c : Nat) :
    (s.tcmpMarked c).f (TCMP.STAT_FIRE_CNT c) = (s.f (TCMP.STAT_FIRE_CNT c) + 1) % 65536
      ∧ (s.tcmpMarked c).f (TCMP.STAT_SKIP c) = s.f (TCMP.STAT_SKIP c)
      ∧ (s.tcmpLate c = true → (s.tcmpMarked c).on (TCMP.STAT_LATE c) = true)
      ∧ (s.tcmpLate c = false → (s.tcmpMarked c).on (TCMP.STAT_LATE c) = s.on (TCMP.STAT_LATE c)) := by
  let v := s.eventNoted c (s.tcmpEvent c)
  let u := v.raiseIf (s.tcmpLate c) (TCMP.STAT_LATE c)
  have hu : s.tcmpMarked c = u.bumpMod (TCMP.STAT_FIRE_CNT c) := rfl
  have hcnt : u.f (TCMP.STAT_FIRE_CNT c) = s.f (TCMP.STAT_FIRE_CNT c) := v.raiseIf_f_beside _ _ _ rfl rfl
  have hskip : u.f (TCMP.STAT_SKIP c) = s.f (TCMP.STAT_SKIP c) := v.raiseIf_f_beside _ _ _ rfl rfl
  have hon : (u.bumpMod (TCMP.STAT_FIRE_CNT c)).on (TCMP.STAT_LATE c) = u.on (TCMP.STAT_LATE c) :=
    u.setF_on_beside _ _ _ rfl rfl
  rw [hu]
  refine ⟨?_, (u.setF_f_beside _ _ _ rfl rfl).trans hskip, fun h => hon.trans ?_, fun h => hon.trans ?_⟩
  · rw [State.bumpMod, State.setF_f _ _ _ rfl, hcnt]
    rfl
  · exact (congrArg (fun w : State => w.on (TCMP.STAT_LATE c)) (v.raiseIf_eq_raise h)).trans (v.raise_on _ rfl)
  · exact (congrArg (fun w : State => w.on (TCMP.STAT_LATE c)) (v.raiseIf_eq_self h)).trans (s.eventNoted_on c _ _)

theorem State.raiseIf_beside (s : State) (b : Bool) (F : Field) :
    (s.raiseIf b F).tbase = s.tbase ∧ (s.raiseIf b F).tbu = s.tbu ∧ (s.raiseIf b F).clvIn = s.clvIn := by
  cases b <;> exact ⟨rfl, rfl, rfl⟩

theorem State.tcmpMarked_beside (s : State) (c : Nat) : (s.tcmpMarked c).tbase = s.tbase
    ∧ (s.tcmpMarked c).lastEvent c = s.tcmpEvent c ∧ (s.tcmpMarked c).clvIn = s.clvIn := by
  obtain ⟨htbase, htbu, htok⟩ := (s.eventNoted c (s.tcmpEvent c)).raiseIf_beside (s.tcmpLate c) (TCMP.STAT_LATE c)
  rw [State.tcmpMarked, State.bumpMod_tbase, State.bumpMod_clvIn, htbase, htok, State.lastEvent, State.bumpMod_tbu, htbu]
  exact ⟨s.eventNoted_tbase c _, s.eventNoted_lastEvent c _, s.eventNoted_clvIn c _⟩

/-! ### The reload -/

theorem State.tcmpReload_zero (h : (s.rd (TCMP.PERIOD c)).toNat = 0) : s.tcmpReload c = s.setF (TCMP.CTRL_EN c) 0 :=
  if_pos h

theorem State.tcmpReload_periodic (h : (s.rd (TCMP.PERIOD c)).toNat ≠ 0) :
    let n := reloads (s.tcmpDiff c).toNat (s.rd (TCMP.PERIOD c)).toNat
    let w := s.wr (TCMP.VALUE c) (s.rd (TCMP.VALUE c) + BitVec.ofNat 32 ((s.rd (TCMP.PERIOD c)).toNat * n))
    s.tcmpReload c = if n ≤ 1 then w else w.bump (TCMP.STAT_SKIP c) (n - 1) := if_neg h

/-- The reload touches VALUE, CTRL and STAT. -/
theorem State.tcmpReload_rd_ne (s : State) (c : Nat) {o : Nat} (hv : o ≠ TCMP.VALUE c) (hctrl : o ≠ TCMP.CTRL c)
    (hst : o ≠ TCMP.STAT c) : (s.tcmpReload c).rd o = s.rd o := by
  by_cases h : (s.rd (TCMP.PERIOD c)).toNat = 0
  · rw [State.tcmpReload_zero h, State.rd_setF_ne _ _ _ _ hctrl]
  · rw [State.tcmpReload_periodic h]
    split
    · exact State.rd_wr_ne _ _ _ _ hv
    · exact (State.rd_setF_ne _ _ _ _ hst).trans (State.rd_wr_ne _ _ _ _ hv)

/-- Of STAT only SKIP may count. -/
theorem State.tcmpReload_stat (s : State) (c : Nat) (G : Field) (hG : G.off = TCMP.STAT c)
    (hd : (TCMP.STAT_SKIP c).beside G = true) : (s.tcmpReload c).f G = s.f G := by
  obtain ⟨hsv, hsc, -⟩ := tcmp_offsets c
  by_cases h : (s.rd (TCMP.PERIOD c)).toNat = 0
  · rw [State.tcmpReload_zero h, State.setF_f_apart _ _ _ _ (hG ▸ hsc)]
  · rw [State.tcmpReload_periodic h]
    split
    · exact State.f_wr_ne _ _ _ _ (hG ▸ hsv)
    · exact (State.setF_f_beside _ _ _ _ rfl hd).trans (State.f_wr_ne _ _ _ _ (hG ▸ hsv))

/-- A period keeps the comparator enabled. -/
theorem State.tcmpReload_ctrl (h : (s.rd (TCMP.PERIOD c)).toNat ≠ 0) : (s.tcmpReload c).rd (TCMP.CTRL c) = s.rd (TCMP.CTRL c) := by
  obtain ⟨-, hsc, -, hvc, -⟩ := tcmp_offsets c
  rw [State.tcmpReload_periodic h]
  split
  · exact State.rd_wr_ne _ _ _ _ hvc.symm
  · exact (State.rd_setF_ne _ _ _ _ hsc.symm).trans (State.rd_wr_ne _ _ _ _ hvc.symm)

theorem State.tcmpReload_beside (s : State) (c : Nat) :
    (s.tcmpReload c).tbu = s.tbu ∧ (s.tcmpReload c).clvIn = s.clvIn := by
  by_cases h : (s.rd (TCMP.PERIOD c)).toNat = 0
  · rw [State.tcmpReload_zero h]
    exact ⟨rfl, rfl⟩
  · rw [State.tcmpReload_periodic h]
    split <;> exact ⟨rfl, rfl⟩

/-- One period is enough where VALUE lies less than that behind. -/
theorem reloads_one {d per : Nat} (hp : per ≤ 2 ^ 31) (hd : d < per) : reloads d per = 1 := by
  rw [reloads, if_pos hp, Nat.div_eq_of_lt hd]

/-- VALUE advances once. -/
theorem State.tcmpReload_once (hpos : 0 < (s.rd (TCMP.PERIOD c)).toNat) (hp : (s.rd (TCMP.PERIOD c)).toNat ≤ 2 ^ 31)
    (hd : s.tcmpDiff c < (s.rd (TCMP.PERIOD c)).toNat) :
    s.tcmpReload c = s.wr (TCMP.VALUE c) (s.rd (TCMP.VALUE c) + BitVec.ofNat 32 (s.rd (TCMP.PERIOD c)).toNat) := by
  have hn := reloads_one hp (show (s.tcmpDiff c).toNat < (s.rd (TCMP.PERIOD c)).toNat by omega)
  rw [State.tcmpReload_periodic (Nat.ne_of_gt hpos), hn, if_pos (Nat.le_refl 1), Nat.mul_one]

/-! ### Software's writes in the same tick -/

theorem State.tcmpLocked_iff (s : State) (c : Nat) : s.tcmpLocked c = true ↔ c = 0 ∧ s.mstate = 5 := by
  rw [State.tcmpLocked, Bool.and_eq_true, decide_eq_true_iff, decide_eq_true_iff]
  rfl

theorem State.tcmpLocked_of_rd {t : State} (h : t.rd PWS.MODSTATE = s.rd PWS.MODSTATE) : t.tcmpLocked c = s.tcmpLocked c := by
  have hm : t.mstate = s.mstate := State.f_of_rd PWS.MODSTATE_STATE h
  rw [State.tcmpLocked, hm, State.tcmpLocked]

/-- In RUN the writes of TCMP0 are ignored, with a record each. -/
theorem State.tcmpSoft_locked (h : s.tcmpLocked c = true) (sw : Option Word) (dis : Bool) :
    (s.tcmpSoft c sw dis).regs = s.regs := by
  have hsw (act : State → State) : s.tcmpSw c act = s.sysIllegal := if_pos h
  have hsw' (act : State → State) : s.sysIllegal.tcmpSw c act = s.sysIllegal.sysIllegal := if_pos h
  unfold State.tcmpSoft
  cases sw <;> cases dis <;> simp [hsw, hsw']

/-- Elsewhere they act, VALUE first. -/
theorem State.tcmpSoft_free (hc : c < 128) (h : s.tcmpLocked c = false) (sw : Option Word) (dis : Bool) :
    s.tcmpSoft c sw dis
      = (let t := (match sw with | some v => s.wr (TCMP.VALUE c) v | none => s : State)
         if dis then t.setF (TCMP.CTRL_EN c) 0 else t) := by
  have hsw (t : State) (ht : t.rd PWS.MODSTATE = s.rd PWS.MODSTATE) (act : State → State) : t.tcmpSw c act = act t :=
    if_neg (by simp [State.tcmpLocked_of_rd ht, h])
  have hv (v : Word) := s.rd_wr_ne _ _ v (tcmp_ne_modstate hc).1
  unfold State.tcmpSoft
  cases sw with
  | none => simp only [hsw s rfl]
  | some v => simp only [hsw s rfl, hsw _ (hv v)]

theorem State.tcmpSw_beside (s : State) (c : Nat) (act : State → State) (htbu : (act s).tbu = s.tbu)
    (htok : (act s).clvIn = s.clvIn) : (s.tcmpSw c act).tbu = s.tbu ∧ (s.tcmpSw c act).clvIn = s.clvIn := by
  unfold State.tcmpSw
  split
  · exact ⟨rfl, rfl⟩
  · exact ⟨htbu, htok⟩

theorem State.tcmpSoft_beside (s : State) (c : Nat) (sw : Option Word) (dis : Bool) :
    (s.tcmpSoft c sw dis).tbu = s.tbu ∧ (s.tcmpSoft c sw dis).clvIn = s.clvIn := by
  have hen (t : State) := t.tcmpSw_beside c (·.setF (TCMP.CTRL_EN c) 0) rfl rfl
  have hvalue (v : Word) := s.tcmpSw_beside c (·.wr (TCMP.VALUE c) v) rfl rfl
  cases sw <;> cases dis
  · exact ⟨rfl, rfl⟩
  · exact hen s
  · exact hvalue _
  · exact ⟨(hen _).1.trans (hvalue _).1, (hen _).2.trans (hvalue _).2⟩

/-- Registers beside VALUE and CTRL stay. -/
theorem State.tcmpSoft_rd_ne (hc : c < 128) (sw : Option Word) (dis : Bool) {o : Nat} (hv : o ≠ TCMP.VALUE c)
    (hctrl : o ≠ TCMP.CTRL c) : (s.tcmpSoft c sw dis).rd o = s.rd o := by
  cases h : s.tcmpLocked c with
  | true => exact Keeps.same (P := fun _ => True) (.refl s) (State.tcmpSoft_locked h sw dis) o trivial
  | false =>
    rw [State.tcmpSoft_free hc h]
    cases sw <;> cases dis
    · rfl
    · exact s.rd_setF_ne _ _ _ hctrl
    · exact s.rd_wr_ne _ _ _ hv
    · exact (State.rd_setF_ne _ _ _ _ hctrl).trans (s.rd_wr_ne _ _ _ hv)

/-- VALUE after software's writes. -/
theorem State.tcmpSoft_value (hc : c < 128) (sw : Option Word) (dis : Bool) :
    (∀ w, sw = some w → s.tcmpLocked c = false → (s.tcmpSoft c sw dis).rd (TCMP.VALUE c) = w)
      ∧ (sw = none ∨ s.tcmpLocked c = true → (s.tcmpSoft c sw dis).rd (TCMP.VALUE c) = s.rd (TCMP.VALUE c)) := by
  have hvc := (tcmp_offsets c).2.2.2.1
  constructor
  · rintro w rfl h
    rw [State.tcmpSoft_free hc h]
    cases dis
    · exact s.rd_wr_same _ _
    · exact (State.rd_setF_ne _ _ _ _ hvc).trans (s.rd_wr_same _ _)
  · intro hor
    cases h : s.tcmpLocked c with
    | true => exact Keeps.same (P := fun _ => True) (.refl s) (State.tcmpSoft_locked h sw dis) _ trivial
    | false =>
      obtain rfl : sw = none := hor.resolve_right (by simp [h])
      rw [State.tcmpSoft_free hc h]
      cases dis
      · rfl
      · exact State.rd_setF_ne _ _ _ _ hvc

/-- EN after software's writes. -/
theorem State.tcmpSoft_en (hc : c < 128) (sw : Option Word) (dis : Bool) : (s.tcmpSoft c sw dis).on (TCMP.CTRL_EN c)
    = (s.on (TCMP.CTRL_EN c) && !(dis && !s.tcmpLocked c)) := by
  have hcv := (tcmp_offsets c).2.2.2.1.symm
  cases h : s.tcmpLocked c with
  | true =>
    rw [State.on_of_rd _ (Keeps.same (P := fun _ => True) (.refl s) (State.tcmpSoft_locked h sw dis) _ trivial)]
    simp
  | false =>
    rw [State.tcmpSoft_free hc h]
    cases sw <;> cases dis
    · simp
    · simp [State.setF_zero_on _ (TCMP.CTRL_EN c) rfl]
    · simp [State.on_of_rd (TCMP.CTRL_EN c) (s.rd_wr_ne _ _ _ hcv)]
    · simp [State.setF_zero_on _ (TCMP.CTRL_EN c) rfl]

end comparator

/-! ## The firing -/

/-- What a firing of comparator `c` in `s` leaves in `t`. -/
structure State.Fired (s t : State) (c : Nat) (sw : Option Word) (dis : Bool) : Prop where
  count : t.f (TCMP.STAT_FIRE_CNT c) = (s.f (TCMP.STAT_FIRE_CNT c) + 1) % 65536
  event : t.lastEvent c = s.tcmpEvent c
  late : s.tcmpLate c = true → t.on (TCMP.STAT_LATE c) = true
  inTime : s.tcmpLate c = false → t.on (TCMP.STAT_LATE c) = s.on (TCMP.STAT_LATE c)
  token : s.on (TCMP.CTRL_TOKEN c) = true →
    (⟨BitVec.ofNat 16 (s.f (TCMP.CTRL_TAG c)), s.rd (TCMP.VALUE c), 16 + c⟩ : Token) ∈ t.clvIn
  enabled : t.on (TCMP.CTRL_EN c) = (s.on (TCMP.CTRL_EN c) && !decide ((s.rd (TCMP.PERIOD c)).toNat = 0)
    && !(dis && !s.tcmpLocked c))
  written : ∀ w, sw = some w → s.tcmpLocked c = false → t.rd (TCMP.VALUE c) = w
  stopped : sw = none ∨ s.tcmpLocked c = true → (s.rd (TCMP.PERIOD c)).toNat = 0 →
    t.rd (TCMP.VALUE c) = s.rd (TCMP.VALUE c)
  reloaded : sw = none ∨ s.tcmpLocked c = true → 0 < (s.rd (TCMP.PERIOD c)).toNat →
    (s.rd (TCMP.PERIOD c)).toNat ≤ 2 ^ 31 → s.tcmpDiff c < (s.rd (TCMP.PERIOD c)).toNat →
    t.rd (TCMP.VALUE c) = s.rd (TCMP.VALUE c) + BitVec.ofNat 32 (s.rd (TCMP.PERIOD c)).toNat
      ∧ t.f (TCMP.STAT_SKIP c) = s.f (TCMP.STAT_SKIP c)

/-- What a firing of comparator `c` reads: the time registers but for its own STAT. -/
def tcmpReg (c o : Nat) : Prop := timeReg o ∧ o ≠ TCMP.STAT c

section firing
variable {s t u : State} {c : Nat}

theorem tcmpReg_own (hc : c < 128) : tcmpReg c (TCMP.VALUE c) ∧ tcmpReg c (TCMP.CTRL c) ∧ tcmpReg c (TCMP.PERIOD c)
    ∧ tcmpReg c PWS.MODSTATE := by
  simp only [tcmpReg, timeReg, TCMP.VALUE, TCMP.CTRL, TCMP.PERIOD, TCMP.STAT, PWS.MODSTATE]
  omega

theorem tcmpReg_ns (s : State) (c : Nat) : tcmpReg c (TB.NS (s.f (TCMP.CTRL_BASE c))) := by
  have hb : s.f (TCMP.CTRL_BASE c) < 2 ^ 2 := Nat.mod_lt _ (Nat.two_pow_pos 2)
  simp only [tcmpReg, timeReg, TB.NS, TCMP.STAT]
  omega

/-- Two states that agree there and in the bases judge the comparator alike. -/
theorem tcmp_congr (hc : c < 128) (h : s.Keeps (tcmpReg c) t) (hb : t.tbase = s.tbase) :
    t.tcmpDiff c = s.tcmpDiff c ∧ t.tcmpLate c = s.tcmpLate c ∧ t.tcmpEvent c = s.tcmpEvent c
      ∧ t.tcmpLocked c = s.tcmpLocked c := by
  obtain ⟨hvalue, hctrl, -, hmod⟩ := tcmpReg_own hc
  have hbase : t.f (TCMP.CTRL_BASE c) = s.f (TCMP.CTRL_BASE c) := h.f (TCMP.CTRL_BASE c) hctrl
  have hns : t.ns (s.f (TCMP.CTRL_BASE c)) = s.ns (s.f (TCMP.CTRL_BASE c)) := h _ (tcmpReg_ns s c)
  have htb (b : Nat) : t.tb b = s.tb b := by rw [State.tb, hb, State.tb]
  have hlate : t.tcmpLate c = s.tcmpLate c := by rw [State.tcmpLate, hbase, htb, h _ hvalue, State.tcmpLate]
  refine ⟨?_, hlate, ?_, State.tcmpLocked_of_rd (h _ hmod)⟩
  · rw [State.tcmpDiff, hbase, hns, h _ hvalue, State.tcmpDiff]
  · rw [State.tcmpEvent, hlate, hbase, hns, h _ hvalue, State.tcmpEvent]

theorem State.TimeKeeps.tcmpReg (h : s.TimeKeeps t) : s.Keeps (tcmpReg c) t := fun o ho => h.regs o ho.1

/-- The mark leaves what a firing reads. -/
theorem State.tcmpMarked_keeps (s : State) (c : Nat) : s.Keeps (tcmpReg c) (s.tcmpMarked c) :=
  fun _ ho => s.tcmpMarked_rd_ne c ho.2

theorem timeReg_stat (hc : c < 128) : timeReg (TCMP.STAT c) := by
  simp only [timeReg, TCMP.STAT]
  omega

/-- A comparator that fires. -/
theorem State.tcmpFire_fired (s : State) (hc : c < 128) (sw : Option Word) (dis : Bool) :
    s.Fired (s.tcmpFire c sw dis) c sw dis := by
  obtain ⟨hsv, hsc, -, hvc, -⟩ := tcmp_offsets c
  obtain ⟨hvalue, hctrl, hperiod, -⟩ := tcmpReg_own hc
  obtain ⟨hmv, hmc, hms⟩ := tcmp_ne_modstate hc
  obtain ⟨hcount, hskip, hlate, hintime⟩ := s.tcmpMarked_stat c
  obtain ⟨hmbase, hmevent, hmtok⟩ := s.tcmpMarked_beside c
  obtain ⟨hv, htoken⟩ := (s.tcmpMarked c).tcmpDeliver_keeps c (s.tcmpX c)
  set m := s.tcmpMarked c with hm
  set v := m.tcmpDeliver c (s.tcmpX c)
  have hread : s.Keeps (tcmpReg c) v := (s.tcmpMarked_keeps c).trans hv.tcmpReg
  obtain ⟨hdiff, -, -, hlock⟩ := tcmp_congr hc hread (hv.tbase.trans hmbase)
  have hlock' : (v.tcmpReload c).tcmpLocked c = s.tcmpLocked c :=
    (State.tcmpLocked_of_rd (v.tcmpReload_rd_ne c hmv hmc hms)).trans hlock
  have hper : v.rd (TCMP.PERIOD c) = s.rd (TCMP.PERIOD c) := hread _ hperiod
  have hval : v.rd (TCMP.VALUE c) = s.rd (TCMP.VALUE c) := hread _ hvalue
  have hstat (G : Field) (hG : G.off = TCMP.STAT c) (hd : (TCMP.STAT_SKIP c).beside G = true) :
      (s.tcmpFire c sw dis).f G = m.f G := by
    rw [State.tcmpFire_eq, State.f_of_rd G (State.tcmpSoft_rd_ne hc sw dis (hG ▸ hsv) (hG ▸ hsc)),
      v.tcmpReload_stat c G hG hd]
    exact hv.f G (hG ▸ timeReg_stat hc)
  have hon : (s.tcmpFire c sw dis).on (TCMP.STAT_LATE c) = m.on (TCMP.STAT_LATE c) := by
    rw [State.on, hstat (TCMP.STAT_LATE c) rfl rfl, State.on]
  obtain ⟨hrtbu, hrtok⟩ := v.tcmpReload_beside c
  obtain ⟨hstbu, hstok⟩ := (v.tcmpReload c).tcmpSoft_beside c sw dis
  obtain ⟨hwritten, hkept⟩ := State.tcmpSoft_value (s := v.tcmpReload c) hc sw dis
  have hkept' (h : sw = none ∨ s.tcmpLocked c = true) := hkept (h.imp_right hlock'.trans)
  refine ⟨(hstat _ rfl rfl).trans hcount, ?event, fun h => hon.trans (hlate h), fun h => hon.trans (hintime h), fun h => ?token,
    ?enabled, fun w hw h => hwritten w hw (hlock'.trans h), fun h hp => ?stopped, fun h hpos hle hlt => ?reloaded⟩
  case event =>
    have hev : (s.tcmpFire c sw dis).tbu.event = m.tbu.event :=
      (congrArg Tbu.event (hstbu.trans hrtbu)).trans hv.event
    rw [State.lastEvent, hev]
    exact hmevent
  case token =>
    have htok : (s.tcmpFire c sw dis).clvIn = v.clvIn := hstok.trans hrtok
    have hmark := s.tcmpMarked_keeps c
    rw [htok]
    have hmem := htoken ((hmark.on (TCMP.CTRL_TOKEN c) hctrl).trans h)
    rwa [hmark.f (TCMP.CTRL_TAG c) hctrl, hmark _ hvalue] at hmem
  case enabled =>
    rw [State.tcmpFire_eq, State.tcmpSoft_en hc, hlock']
    congr 1
    by_cases hp : (v.rd (TCMP.PERIOD c)).toNat = 0
    · rw [State.tcmpReload_zero hp, State.setF_zero_on _ (TCMP.CTRL_EN c) rfl, ← hper]
      simp [hp]
    · rw [State.on_of_rd (TCMP.CTRL_EN c) (State.tcmpReload_ctrl hp), hread.on (TCMP.CTRL_EN c) hctrl, ← hper]
      simp [hp]
  case stopped =>
    refine (hkept' h).trans ?_
    rw [State.tcmpReload_zero (hper ▸ hp), State.rd_setF_ne _ _ _ _ hvc, hval]
  case reloaded =>
    have honce := State.tcmpReload_once (s := v) (c := c) (by rw [hper]; exact hpos) (by rw [hper]; exact hle)
      (by rw [hper, hdiff]; exact hlt)
    refine ⟨(hkept' h).trans ?_, ?_⟩
    · rw [honce, State.rd_wr_same, hval, hper]
    · rw [State.tcmpFire_eq, State.f_of_rd (TCMP.STAT_SKIP c) (State.tcmpSoft_rd_ne hc sw dis hsv hsc), honce,
        State.f_wr_ne _ _ _ _ hsv]
      exact (hv.f (TCMP.STAT_SKIP c) (timeReg_stat hc)).trans hskip

/-- What happens after the firing leaves its effects. -/
theorem State.Fired.before {sw : Option Word} {dis : Bool} (h : s.Fired t c sw dis) (hc : c < 128) (hu : t.TimeKeeps u) :
    s.Fired u c sw dis := by
  obtain ⟨hvalue, hctrl, -, -⟩ := tcmpReg_own hc
  have hstat := timeReg_stat hc
  exact ⟨(hu.f (TCMP.STAT_FIRE_CNT c) hstat).trans h.count,
    (congrArg (fun e : FMap Word => e.get (fun _ => 0#32) c) hu.event).trans h.event,
    fun hl => (hu.on (TCMP.STAT_LATE c) hstat).trans (h.late hl),
    fun hl => (hu.on (TCMP.STAT_LATE c) hstat).trans (h.inTime hl), fun ht => hu.clvIn (h.token ht),
    (hu.on (TCMP.CTRL_EN c) hctrl.1).trans h.enabled, fun w hw hl => (hu.regs _ hvalue.1).trans (h.written w hw hl),
    fun hl hp => (hu.regs _ hvalue.1).trans (h.stopped hl hp),
    fun hl hp hle hlt => (h.reloaded hl hp hle hlt).imp (hu.regs _ hvalue.1).trans
      (hu.f (TCMP.STAT_SKIP c) hstat).trans⟩

/-- What happens before the firing leaves what it reads. -/
theorem State.Fired.after {sw : Option Word} {dis : Bool} (h : t.Fired u c sw dis) (hc : c < 128) (hs : s.TimeKeeps t) :
    s.Fired u c sw dis := by
  obtain ⟨hvalue, hctrl, hperiod, -⟩ := tcmpReg_own hc
  have hstat := timeReg_stat hc
  obtain ⟨hdiff, hlate, hevent, hlock⟩ := tcmp_congr hc hs.tcmpReg hs.tbase
  have hval := hs.regs _ hvalue.1
  have hper := hs.regs _ hperiod.1
  refine ⟨?_, h.event.trans hevent, fun hl => h.late (hlate.trans hl), fun hl => ?_, fun ht => ?_, ?_,
    fun w hw hl => h.written w hw (hlock.trans hl), fun hl hp => ?_, fun hl hp hle hlt => ?_⟩
  · rw [h.count, hs.f (TCMP.STAT_FIRE_CNT c) hstat]
  · rw [h.inTime (hlate.trans hl), hs.on (TCMP.STAT_LATE c) hstat]
  · have hmem := h.token ((hs.on (TCMP.CTRL_TOKEN c) hctrl.1).trans ht)
    rwa [hs.f (TCMP.CTRL_TAG c) hctrl.1, hval] at hmem
  · rw [h.enabled, hs.on (TCMP.CTRL_EN c) hctrl.1, hper, hlock]
  · rw [h.stopped (hl.imp_right hlock.trans) (hper ▸ hp), hval]
  · have hr := h.reloaded (hl.imp_right hlock.trans) (hper ▸ hp) (hper ▸ hle) (by rw [hdiff, hper]; exact hlt)
    rwa [hval, hper, hs.f (TCMP.STAT_SKIP c) hstat] at hr

/-- The whole of a firing, with what it starts in the other blocks. -/
theorem State.fire_fired (s : State) (hc : c < 128) (sw : Option Word) (dis : Bool) :
    s.Fired (s.fire c sw dis) c sw dis := by
  have hopen : s.TimeKeeps (if c = 0 then s.frameOpen else s) := .step (.refl s) (.frameOpen (.refl s))
  have hfired := (State.tcmpFire_fired (if c = 0 then s.frameOpen else s) hc sw dis).after hc hopen
  refine hfired.before hc ?_
  exact .ite ((((TimeKeeps.refl _).stateFire c).hbFire).setHbDue false) ((TimeKeeps.refl _).stateFire c)

end firing

/-! ## The frame of TCMP0 (R125, R150) -/

section schedules
variable (dt : Nat → Nat) (cmd : Nat → Instr)

theorem State.foldl_sched_now (l : List Nat) (s : State) :
    (l.foldl (fun t n => t.sched (dt n) (cmd n)) s).now = s.now :=
  List.foldlRecOn (motive := fun u : State => u.now = s.now) _ _ rfl fun _ hu _ _ => hu

/-- Commands that are scheduled one after the other all stand on the agenda, at their times from now. -/
theorem State.mem_foldl_sched (l : List Nat) (d : Due) : ∀ s : State,
    d ∈ (l.foldl (fun t n => t.sched (dt n) (cmd n)) s).agenda
      ↔ d ∈ s.agenda ∨ ∃ n ∈ l, d = ⟨s.now + dt n, .cmd (cmd n)⟩ := by
  induction l with
  | nil => simp
  | cons n ns ih =>
    intro s
    have hhead : d ∈ (s.sched (dt n) (cmd n)).agenda ↔ d = ⟨s.now + dt n, .cmd (cmd n)⟩ ∨ d ∈ s.agenda := mem_insertDue
    refine (ih (s.sched (dt n) (cmd n))).trans ?_
    rw [hhead]
    simp only [State.sched_now, List.mem_cons, exists_eq_or_imp]
    tauto

end schedules

theorem State.frameStart_now (s : State) (p x : Nat) : (s.frameStart p x).now = s.now := by
  unfold State.frameStart
  split <;> rfl

/-- Slot p starts 32 p ticks after TCMP0, generator n 4 n ticks. -/
theorem State.frameFire_agenda (s : State) (x : Nat) :
    (∀ p : Fin 96, (⟨s.now + 32 * p.val, .cmd (.lpeSlotStart p)⟩ : Due) ∈ (s.frameFire x).agenda)
      ∧ ∀ n : Fin 128, (⟨s.now + 4 * n.val, .cmd (.pgEvaluate n)⟩ : Due) ∈ (s.frameFire x).agenda := by
  let a := (List.range 96).foldl (fun t p => t.frameStart p x) s
  have ha : a.now = s.now := List.foldlRecOn (motive := fun u : State => u.now = s.now) _ _ rfl
    fun u hu p _ => (u.frameStart_now p x).trans hu
  let b := (List.range 96).foldl (fun t p => t.sched (32 * p) (.lpeSlotStart (Fin.ofNat 96 p))) a
  have hb : b.now = s.now := (State.foldl_sched_now _ _ _ _).trans ha
  have hgens (d : Due) := State.mem_foldl_sched (4 * ·) (fun n => .pgEvaluate (Fin.ofNat 128 n)) (List.range 128) d b
  constructor
  · intro p
    refine (hgens _).mpr (Or.inl ((State.mem_foldl_sched _ _ _ _ _).mpr (Or.inr ⟨p.val, List.mem_range.mpr p.isLt, ?_⟩)))
    rw [ha, Fin.ofNat_eq_cast, Fin.cast_val_eq_self]
  · intro n
    refine (hgens _).mpr (Or.inr ⟨n.val, List.mem_range.mpr n.isLt, ?_⟩)
    rw [hb, Fin.ofNat_eq_cast, Fin.cast_val_eq_self]

/-! ## The statement -/

/-- The statement's words for when a comparator is due. -/
theorem State.tcmpDue_iff (s : State) (c : Nat) : s.tcmpDue c = true ↔ s.on (TCMP.CTRL_EN c) = true
    ∧ 0 ≤ (s.rd (TB.NS (s.f (TCMP.CTRL_BASE c))) - s.rd (TCMP.VALUE c)).toInt := by
  rw [State.tcmpDue, Bool.and_eq_true, decide_eq_true_iff]
  rfl

/-- Settles O28: a firing by `State.fire_fired`, the frame by `State.frameFire_agenda`. -/
theorem comparatorFiring : Obligations.ComparatorFiring := by
  refine ⟨fun s c sw dis => ?_, State.frameFire_agenda⟩
  intro ns value per due late locked
  have hlate : s.tcmpLate c.val = true ↔ late := decide_eq_true_iff
  have hlocked : s.tcmpLocked c.val = true ↔ locked := s.tcmpLocked_iff c.val
  refine ⟨fun h => congrArg ok (if_neg (mt (s.tcmpDue_iff c.val).mp h)), fun h =>
    ⟨s.fire c.val sw dis, congrArg ok (if_pos ((s.tcmpDue_iff c.val).mpr h)), ?_⟩⟩
  obtain ⟨hcount, hevent, hlateT, hlateF, htoken, hen, hwritten, hstopped, hreloaded⟩ := s.fire_fired c.isLt sw dis
  have hfree {p : Prop} (hp : ¬locked) (k : s.tcmpLocked c.val = false → p) : p :=
    k (Bool.eq_false_iff.mpr (mt hlocked.mp hp))
  refine ⟨hcount, ?event, fun hl => hlateT (hlate.mpr hl), fun hl => hlateF (Bool.eq_false_iff.mpr (mt hlate.mp hl)),
    htoken, fun hor => ?disabled, fun hp hor => ?enabled, fun w hw hl => hfree hl (hwritten w hw),
    fun hor hp => hstopped (hor.imp_right hlocked.mpr) hp,
    fun hor hpos hle hlt => hreloaded (hor.imp_right hlocked.mpr) hpos hle hlt⟩
  case event =>
    rw [hevent, State.tcmpEvent]
    simp only [hlate]
    rfl
  case disabled =>
    rw [hen]
    rcases hor with hp | ⟨rfl, hl⟩
    · simp [hp, per] 
    · simp [hfree hl id]
  case enabled =>
    rw [hen, h.1]
    rcases hor with rfl | hl
    · simpa using hp
    · simpa [hlocked.mpr hl] using hp

end Sys2Proof.Machine
end

section
/-! PROOF of the statement OwnEffects, supply (R459, R461, R241) and image commands (R449): the effect of each command on
its own register or operation. -/

namespace Sys2Proof.Machine

variable {s : State}

/-! ## Supply inputs, the store, the cover -/

theorem okBit_ok (inp : Nat) : (okBit inp).ok = true ∧ (okBit inp).off = PWS.STAT := by
  unfold okBit
  split <;> exact ⟨rfl, rfl⟩

theorem vinField_off (inp : Nat) : (vinField inp).off = PWS.VIN := by
  unfold vinField
  split <;> rfl

/-- An input at 19.2 V or above is good. -/
theorem State.inputUp_on {inp mv : Nat} (h : 19200 ≤ mv) : (s.inputUp inp mv).on (okBit inp) = true := by
  unfold State.inputUp
  dsimp only
  rw [if_neg (Nat.not_lt.mpr h)]
  split
  · exact (State.resched_on _ _ _ _).trans (State.raise_on _ _ (okBit_ok inp).1)
  · exact State.raise_on _ _ (okBit_ok inp).1

theorem State.inputUp_mstate (inp mv : Nat) : (s.inputUp inp mv).mstate = s.mstate := by
  have hkeeps : s.Keeps (· = PWS.MODSTATE) (s.inputUp inp mv) := by
    unfold State.inputUp
    have hvin := (Keeps.refl (P := (· = PWS.MODSTATE)) s).setF (F := vinField inp) (by rw [vinField_off]; decide)
      (satU 16 (mv / 10))
    have hok := hvin.raise (F := okBit inp) (by rw [(okBit_ok inp).2]; decide)
    exact .ite (fun _ => hvin) fun _ => .ite (fun _ => hok.same rfl) fun _ => hok
  exact hkeeps.f PWS.MODSTATE_STATE rfl

/-- Outside OFF that is all. -/
theorem State.inputUp_started {inp mv : Nat} (hm : s.mstate ≠ 0) (h : 19200 ≤ mv) :
    (s.inputUp inp mv).tryStart.on (okBit inp) = true := by
  rw [State.tryStart_idle (Or.inl (by rwa [State.inputUp_mstate]))]
  exact State.inputUp_on h

/-- An input that is lost is good no more. -/
theorem State.inputLost_on {inp : Nat} (h : s.on (okBit inp) = true) : (s.inputLost inp).on (okBit inp) = false := by
  obtain ⟨hok, hoff⟩ := okBit_ok inp
  let t := (s.flag (okBit inp) false).cancel (.holdupInputReturn (Fin.ofNat 2 inp))
  have ht : t.on (okBit inp) = false := (State.cancel_on _ _ _).trans (s.flag_on _ _ hok)
  have hbeside : PWS.STAT_INPUT_LOST.beside (okBit inp) = true := by
    unfold okBit
    split <;> rfl
  have hlost : s.inputLost inp = if t.anyInput then (if t.isIn [stOFF, stSLEEP] then t
      else (t.raise PWS.STAT_INPUT_LOST).pwsStatRecord 0x10 0) else t.sched 0 .bothInputsLost := if_neg (by simp [h])
  rw [hlost]
  split
  · split
    · exact ht
    · exact (State.recordStat_on _ _ _ _ _ _ _).trans ((t.setF_on_beside _ _ 1 rfl hbeside).trans ht)
  · exact (State.sched_on _ _ _ _).trans ht

/-- The store shows its energy. -/
theorem State.storeUp_store (s : State) (mj : BitVec 16) : (s.storeUp mj.toNat).f PWS.HOLD_E_STORE = mj.toNat := by
  refine (State.setF_f_apart _ _ _ _ (by decide)).trans ((s.setF_f PWS.HOLD_E_STORE _ rfl).trans ?_)
  exact Nat.mod_eq_of_lt mj.isLt

/-- The cover shows open, asleep too. -/
theorem State.coverNoted_on (s : State) (x : Saf) :
    (((s.raise SAF.STAT_COVER_OPEN).setSaf x).recordStat 0x0F 0x21 0 5 SAF.STAT).on SAF.STAT_COVER_OPEN = true :=
  s.raise_on SAF.STAT_COVER_OPEN rfl

theorem execCoverOpen_on (h : s.mstate ≠ 0) :
    ∃ t : State, execCoverOpen s = .next t ∧ t.on SAF.STAT_COVER_OPEN = true :=
  ⟨_, if_neg h, State.coverNoted_on (if s.mstate = stSLEEP then s.wakeUp 2 else s) _⟩

/-! ## Image commands -/

section image
variable {via : Via} {op : ImgOp}

/-- What admits an image command: the right, a slot that is not in use, a served state, no command in progress. -/
structure State.imgFree (s : State) (via : Via) (slot : Nat) : Prop where
  right : s.hasRight via 3 = true
  inRange : slot ≤ 1
  served : s.served = true
  lifecycle : s.lc = 2 ∨ s.lc = 3
  other : slot ≠ s.f SYS.BOOT_SLOT
  idle : s.ident.img = none
  stays : s.ident.restart = none

/-- An admitted command whose operands fit runs. -/
theorem State.imgCmd_starts {bad : Bool} (h : s.imgFree via op.slot) (hbad : bad = false) :
    (s.imgCmd via bad op).ident.img = some op := by
  subst hbad
  have hlc : s.lcIn [lcOPERATIONAL, lcSERVICE] = true := by
    unfold State.lcIn
    rcases h.lifecycle with hl | hl <;> rw [hl] <;> rfl
  unfold State.imgCmd
  rw [if_neg (by simp [show s.hasRight via rImage = true from h.right]), if_neg (by simp [h.inRange]),
    if_neg (by simp [h.served, hlc, h.other]), if_neg (by simp [h.idle, h.stays])]
  rfl

end image

end Sys2Proof.Machine
end

section
/-! PROOF of the statement OwnEffects, Nutmeg (R187, R197, R199, R203, R207). What ends or starts in Nutmeg writes its
status, its slots and the memory; the counters, what LAST shows and the running solve are otherwise kept: `NmgKeeps`. -/

namespace Sys2Proof.Machine

/-- From `s` to `t` the registers of `P` and the running solve stay. -/
structure State.NmgKeeps (P : Nat → Prop) (s t : State) : Prop where
  regs : s.Keeps P t
  run : t.nmg.run = s.nmg.run

/-- The counters and what the last solve shows. -/
def nmgShown (o : Nat) : Prop := o = NMG.CNT ∨ o = NMG.LAST

theorem nmgShown_others {P : Nat → Prop} (hP : ∀ o, P o → nmgShown o) (k : Nat) : ¬P NMG.STAT ∧ ¬P (NMG.SLOT_STAT k)
    ∧ ¬P (NMG.SLOT_TAG k) ∧ ¬P (NMG.SLOT_PIV k) ∧ ¬P (NMG.SLOT_NNZL k) := by
  have h (o : Nat) (ho : o ≠ NMG.CNT ∧ o ≠ NMG.LAST) : ¬P o := fun hp => (hP o hp).elim ho.1 ho.2
  refine ⟨h _ ?_, h _ ?_, h _ ?_, h _ ?_, h _ ?_⟩ <;>
    simp only [NMG.STAT, NMG.CNT, NMG.LAST, NMG.SLOT_STAT, NMG.SLOT_TAG, NMG.SLOT_PIV, NMG.SLOT_NNZL] <;> omega

section nmg
variable {P : Nat → Prop} {s t u : State} {F : Field}

namespace State.NmgKeeps

theorem refl (s : State) : s.NmgKeeps P s := ⟨.refl s, rfl⟩

theorem trans (h : s.NmgKeeps P t) (h' : t.NmgKeeps P u) : s.NmgKeeps P u := ⟨h.regs.trans h'.regs, h'.run.trans h.run⟩

/-- What leaves the register file and the running solve alone. -/
theorem same (h : s.NmgKeeps P t) (hregs : u.regs = t.regs) (hrun : u.nmg.run = t.nmg.run) : s.NmgKeeps P u :=
  ⟨h.regs.same hregs, hrun.trans h.run⟩

theorem wr (h : s.NmgKeeps P t) {o : Nat} (ho : ¬P o) (v : Word) : s.NmgKeeps P (t.wr o v) := ⟨h.regs.wr ho v, h.run⟩

theorem setF (h : s.NmgKeeps P t) (hF : ¬P F.off) (v : Nat) : s.NmgKeeps P (t.setF F v) := h.wr hF _

theorem flag (h : s.NmgKeeps P t) (hF : ¬P F.off) (b : Bool) : s.NmgKeeps P (t.flag F b) := h.wr hF _

theorem raise (h : s.NmgKeeps P t) (hF : ¬P F.off) : s.NmgKeeps P (t.raise F) := h.wr hF _

theorem bumpMod (h : s.NmgKeeps P t) (hF : ¬P F.off) (n : Nat) : s.NmgKeeps P (t.bumpMod F n) := h.wr hF _

theorem ite {c : Prop} [Decidable c] {a b : State} (ha : s.NmgKeeps P a) (hb : s.NmgKeeps P b) :
    s.NmgKeeps P (if c then a else b) := by
  split
  · exact ha
  · exact hb

theorem raiseIf (h : s.NmgKeeps P t) (hF : ¬P F.off) (b : Bool) : s.NmgKeeps P (t.raiseIf b F) := .ite (h.raise hF) h

theorem sched (h : s.NmgKeeps P t) (dt : Nat) (c : Instr) : s.NmgKeeps P (t.sched dt c) := ⟨h.regs, h.run⟩

theorem resched (h : s.NmgKeeps P t) (dt : Nat) (c : Instr) : s.NmgKeeps P (t.resched dt c) := ⟨h.regs, h.run⟩

theorem cancel (h : s.NmgKeeps P t) (c : Instr) : s.NmgKeeps P (t.cancel c) := ⟨h.regs, h.run⟩

theorem tickFree (h : s.NmgKeeps P t) : s.NmgKeeps P t.tickFree := ⟨h.regs, h.run⟩

theorem setFree (h : s.NmgKeeps P t) (n : Nat) : s.NmgKeeps P { t with free := n } := ⟨h.regs, h.run⟩

theorem token (h : s.NmgKeeps P t) (tag : Nat) (v : Word) (r : Nat) : s.NmgKeeps P (t.token tag v r) := ⟨h.regs, h.run⟩

theorem recordStat (h : s.NmgKeeps P t) (cls code unit sev stat : Nat) :
    s.NmgKeeps P (t.recordStat cls code unit sev stat) := ⟨h.regs, h.run⟩

theorem setEcc (h : s.NmgKeeps P t) (l : List Config.EccErr) : s.NmgKeeps P { t with ecc := l } := ⟨h.regs, h.run⟩

/-- A change of Nutmeg's own state beside the running solve. -/
theorem setNmg (h : s.NmgKeeps P t) (x : Nmg) (hx : x.run = t.nmg.run) : s.NmgKeeps P { t with nmg := x } :=
  ⟨h.regs, hx.trans h.run⟩

theorem setNmgSlot (h : s.NmgKeeps P t) (k : Nat) (x : NmgSlot) : s.NmgKeeps P (t.setNmgSlot k x) :=
  .ite ⟨h.regs, h.run⟩ ⟨h.regs, h.run⟩

theorem foldl {α : Type} {op : State → α → State} {l : List α} (h : s.NmgKeeps P t)
    (hop : ∀ u : State, ∀ x ∈ l, u.NmgKeeps P (op u x)) : s.NmgKeeps P (l.foldl op t) :=
  List.foldlRecOn (motive := fun u : State => s.NmgKeeps P u) l op h fun u hu x hx => hu.trans (hop u x hx)

theorem put (h : s.NmgKeeps P t) (mm : MemId) (a n v : Nat) : s.NmgKeeps P (t.put mm a n v) := by
  rw [State.put_eq]
  exact ⟨h.regs, h.run⟩

theorem putBytes (mm : MemId) (l : List Byte) : ∀ {t : State} (a : Nat), s.NmgKeeps P t → s.NmgKeeps P (t.putBytes mm a l) := by
  induction l with
  | nil => exact fun _ h => h
  | cons b bs ih => exact fun a h => ih (a + 1) ⟨h.regs, h.run⟩

/-- A completion goes out. -/
theorem complete (h : s.NmgKeeps P t) (via : Via) (res val : Nat) (final : Bool) (rem : Option Nat) :
    s.NmgKeeps P (t.complete via res val final rem) := by
  cases via <;> exact ⟨h.regs, h.run⟩

theorem nmgComplete (h : s.NmgKeeps P t) (c : NmgCmd) (res status iter gen : Nat) (final : Bool) :
    s.NmgKeeps P (t.nmgComplete c res status iter gen final) := by
  have hput := (((h.put .shared (c.ofs + 32) 1 res).put .shared (c.ofs + 33) 1 status).put .shared (c.ofs + 34) 2 iter).put
    .shared (c.ofs + 36) 4 gen
  exact (NmgKeeps.ite hput (hput.token _ _ _)).complete _ _ _ _ _

end State.NmgKeeps

/-- The read-only bits stand in STAT alone. -/
theorem State.Keeps.nmgSync (h : s.Keeps P t) (hstat : ¬P NMG.STAT) : s.Keeps P t.nmgSync := by
  have hflags := (((h.flag (F := NMG.STAT_BUSY) hstat t.nmg.run.isSome).flag (F := NMG.STAT_BUILD) hstat
    t.nmg.build.isSome).setF (F := NMG.STAT_QLEN) hstat t.nmg.queue.length).flag (F := NMG.STAT_WARM_HELD) hstat
    t.nmg.warm.isSome
  unfold State.nmgSync
  dsimp only
  split
  · exact hflags.setF hstat _
  · exact hflags

/-! ## Builds -/

section builds
variable (hP : ∀ o, P o → nmgShown o) (h : s.NmgKeeps P t)
include hP h

namespace State.NmgKeeps

theorem setSlotSt (k v : Nat) : s.NmgKeeps P (t.setSlotSt k v) := by
  obtain ⟨-, hstat, -⟩ := nmgShown_others hP k
  exact h.setF hstat v

theorem nmgSync : s.NmgKeeps P t.nmgSync := by
  obtain ⟨hstat, -⟩ := nmgShown_others hP 0
  refine ⟨h.regs.nmgSync hstat, ?_⟩
  unfold State.nmgSync
  dsimp only
  split <;> exact h.run

theorem buildStart (k kind : Nat) (cmds : List NmgCmd) (rho blk buf : Nat) (old : NmgSlot) :
    s.NmgKeeps P (t.buildStart k kind cmds rho blk buf old) := by
  obtain ⟨-, hstat, htag, -⟩ := nmgShown_others hP k
  unfold State.buildStart
  refine nmgSync hP ?_
  refine .sched ?_ _ _
  refine .setNmg ?_ _ rfl
  refine .tickFree (.setNmgSlot (.bumpMod ?_ hstat _) _ _)
  exact ((((h.setSlotSt hP k slBUILDING).wr htag _).setF (F := NMG.SLOT_STAT_KIND k) hstat _).setF
    (F := NMG.SLOT_STAT_NONFINITE k) hstat _).setF (F := NMG.SLOT_STAT_ECC_BAD k) hstat _

omit hP in
theorem buildReport (b : NmgBuild) (res : Nat) : s.NmgKeeps P (t.buildReport b res) := by
  have hdone := h.foldl (op := fun (u : State) c => u.nmgComplete c res 0x0F 0 (t.f (NMG.SLOT_STAT_GEN b.slot)) true)
    (l := b.cmds) fun u c _ => (refl u).nmgComplete c _ _ _ _ _
  exact .ite (hdone.token _ _ _) hdone

theorem refacStart (kind : Nat) (cmds : List NmgCmd) : s.NmgKeeps P (t.refacStart kind cmds) := by
  obtain ⟨hstat, -⟩ := nmgShown_others hP 0
  unfold State.refacStart
  split
  · exact h
  · refine buildStart hP ?_ _ _ _ _ _ _ _
    refine .setNmg ?_ _ rfl
    exact h.setF (F := NMG.STAT_REFAC_PEND) hstat 0

omit hP in
theorem refacTry : s.NmgKeeps P t.refacTry := .ite (h.resched _ _) h

theorem eccRebuild : s.NmgKeeps P t.eccRebuild := by
  unfold State.eccRebuild
  split
  · exact h
  · have hpend := h.setNmg { t.nmg with eccPend := none } rfl
    exact .ite h (.ite hpend (.ite (hpend.refacStart hP _ _) (.ite (hpend.buildStart hP _ _ _ _ _ _ _) hpend)))

theorem refacWant (rho : Option Nat) : s.NmgKeeps P (t.refacWant rho) := by
  obtain ⟨hstat, -⟩ := nmgShown_others hP 0
  unfold State.refacWant
  refine .ite h (refacTry (.raise ?_ hstat))
  cases rho
  · exact h
  · exact h.setNmg _ rfl

theorem buildFail (b : NmgBuild) (res : Nat) (nonfinite : Bool) : s.NmgKeeps P (t.buildFail b res nonfinite) := by
  obtain ⟨hstat, hslot, -⟩ := nmgShown_others hP b.slot
  exact (((h.setSlotSt hP b.slot slEMPTY).flag (F := NMG.SLOT_STAT_NONFINITE b.slot) hslot nonfinite).raiseIf
    (F := NMG.STAT_NONFINITE) hstat nonfinite).buildReport b res

omit hP in
theorem facStore (k : Nat) (perm : List Nat) (r : LdlRes) (scale : List Nat) :
    s.NmgKeeps P (t.facStore k perm r scale) :=
  putBytes _ _ _ (putBytes _ _ _ (putBytes _ _ _ (putBytes _ _ _ (putBytes _ _ _ (putBytes _ _ _ (putBytes _ _ _
    (putBytes _ _ _ h)))))))

theorem buildFactor (b : NmgBuild) (x : NmgHdr) (pat : List (List Nat)) : s.NmgKeeps P (t.buildFactor b x pat) := by
  obtain ⟨-, hslot, -, hpiv, hnnz⟩ := nmgShown_others hP b.slot
  unfold State.buildFactor
  refine .ite (h.buildFail hP b 3 true) (.ite (h.tickFree.buildFail hP b 3 true) (buildReport ?_ b 0))
  refine .setNmgSlot (.setF (F := NMG.SLOT_NNZL_NNZL b.slot) ?_ hnnz _) _ _
  refine .setF (F := NMG.SLOT_PIV_PIVOT_FIRST b.slot) (.setF (F := NMG.SLOT_PIV_PIVOT_CNT b.slot) ?_ hpiv _) hpiv _
  refine .flag (F := NMG.SLOT_STAT_PIVOT_REG b.slot) ?_ hslot _
  exact (facStore h.tickFree _ _ _ _).setSlotSt hP b.slot slPENDING

theorem eccMark (k : Nat) : s.NmgKeeps P (t.eccMark k) := by
  obtain ⟨hstat, hslot, -⟩ := nmgShown_others hP k
  unfold State.eccMark
  refine .setNmg ?_ _ rfl
  exact ((h.raise (F := NMG.SLOT_STAT_ECC_BAD k) hslot).raise (F := NMG.STAT_ECC_UNC) hstat).recordStat _ _ _ _ _

theorem eccBuffer (k buf n : Nat) : s.NmgKeeps P (t.eccBuffer k buf n) := by
  obtain ⟨hstat, -⟩ := nmgShown_others hP k
  have hseen := (h.raiseIf (F := NMG.STAT_ECC_CORR) hstat (t.eccIn .shared buf n false))
  exact .ite (eccMark hP (hseen.setEcc _) k) (hseen.setEcc _)

/-- What a slot or the iterates held uncorrected is reported. -/
theorem eccRead (k buf n : Nat) : s.NmgKeeps P (t.eccRead k buf n).1 := by
  obtain ⟨hstat, -⟩ := nmgShown_others hP k
  have hseen (b : Bool) (l : List Config.EccErr) : s.NmgKeeps P { t.raiseIf b NMG.STAT_ECC_CORR with ecc := l } :=
    (h.raiseIf (F := NMG.STAT_ECC_CORR) hstat b).setEcc l
  have hmark (c b : Bool) {u : State} (hu : s.NmgKeeps P u) : s.NmgKeeps P (if b then
      ((if c then u.eccMark k else u).raise NMG.STAT_ECC_UNC).recordStat 0x06 0x02 0 4 NMG.STAT
      else if c then u.eccMark k else u) := by
    have hc : s.NmgKeeps P (if c then u.eccMark k else u) := .ite (eccMark hP hu k) hu
    exact .ite ((hc.raise (F := NMG.STAT_ECC_UNC) hstat).recordStat _ _ _ _ _) hc
  exact hmark _ _ (hseen _ _)

/-! ### Assembly touches memory only -/

omit hP in
theorem vPut (buf i v : Nat) : s.NmgKeeps P (t.vPut buf i v) := h.put _ _ _ _

omit hP in
theorem asmNative (x : NmgHdr) (buf src len : Nat) : s.NmgKeeps P (t.asmNative x buf src len) := by
  unfold State.asmNative
  refine foldl (foldl h fun u i _ => (refl u).vPut _ _ _) fun u k _ => ?_
  exact foldl (refl u) fun w r _ => (refl w).vPut _ _ _

omit hP in
theorem clipRun (x : NmgHdr) (buf k : Nat) : s.NmgKeeps P (t.clipRun x buf k).1 := by
  unfold State.clipRun
  dsimp only
  split
  · exact h
  · exact (h.vPut _ _ _).vPut _ _ _

omit hP in
theorem clipAll (x : NmgHdr) (buf : Nat) : s.NmgKeeps P (t.clipAll x buf).1 :=
  List.foldlRecOn (motive := fun r : State × Bool => s.NmgKeeps P r.1) _ _ h fun _ hr k _ => hr.clipRun x buf k

omit hP in
theorem buildAssemble (b : NmgBuild) (x : NmgHdr) : s.NmgKeeps P (t.buildAssemble b x).1 := by
  unfold State.buildAssemble
  split
  · exact h
  · split
    · exact (h.asmNative _ _ _ _).clipAll _ _
    · exact (h.foldl fun u i _ => (refl u).vPut _ _ _).clipAll _ _

end State.NmgKeeps

end builds

/-- The end of a build counts it, whatever it comes to. -/
theorem State.buildEnd_counts {b : NmgBuild} (hb : s.nmg.build = some b) :
    s.buildEnd.f NMG.CNT_BUILDS = (s.f NMG.CNT_BUILDS + 1) % 65536 := by
  have hP : ∀ o, (· = NMG.CNT) o → nmgShown o := fun _ h => Or.inl h
  let u : State := { s.bumpMod NMG.CNT_BUILDS with nmg := { s.nmg with build := none } }
  have hcount : u.f NMG.CNT_BUILDS = (s.f NMG.CNT_BUILDS + 1) % 65536 := s.setF_f NMG.CNT_BUILDS _ rfl
  have hkeeps : u.NmgKeeps (· = NMG.CNT) s.buildEnd := by
    unfold State.buildEnd
    rw [hb]
    refine .nmgSync hP (.refacTry (.eccRebuild hP ?_))
    have hread := NmgKeeps.ite (c := b.kind = 0) (NmgKeeps.refl u)
      (NmgKeeps.eccBuffer hP (.refl u) b.slot b.buf (4 * (s.nmgHdr b.blk).values))
    refine .ite (hread.buildFail hP _ _ _) (.ite (hread.buildFail hP _ _ _) ?_)
    have hasm := (hread.buildAssemble b (s.nmgHdr b.blk))
    exact .ite ((hasm.setFree _).buildFail hP _ _ _) ((hasm.setFree _).buildFactor hP _ _ _)
  exact (hkeeps.regs.f NMG.CNT_BUILDS rfl).trans hcount

/-! ## Iterations and solves -/

section solves
variable (hP : ∀ o, P o → nmgShown o) (h : s.NmgKeeps P t)
include h

namespace State.NmgKeeps

theorem facPut (a w : Nat) (l : List Nat) : s.NmgKeeps P (t.facPut a w l) := putBytes _ _ _ h

theorem saveIterate (r : NmgSolve) : s.NmgKeeps P (t.saveIterate r) := h.foldl fun u _ _ => (refl u).facPut _ _ _

theorem storeWarm (w : NmgIter) : s.NmgKeeps P (t.storeWarm w) := ((h.facPut _ _ _).facPut _ _ _).facPut _ _ _

theorem writeReport (r : NmgSolve) (status : Nat) (x : NmgHdr) (xs ys : List Nat) :
    s.NmgKeeps P (t.writeReport r status x xs ys) :=
  setFree (putBytes _ _ _ (putBytes _ _ _ (putBytes _ _ _ h))) _

include hP

theorem adaptRho (r : NmgSolve) : s.NmgKeeps P (t.adaptRho r) := by
  unfold State.adaptRho
  split
  · exact h
  · refine .ite h ?_
    dsimp only
    split
    · exact h
    · exact .ite h (h.refacWant hP _)

theorem nmgNext : s.NmgKeeps P t.nmgNext := by
  unfold State.nmgNext
  refine .ite (h.nmgSync hP) ?_
  split
  · exact h.nmgSync hP
  · split
    · refine nmgSync hP (.sched ?_ _ _)
      exact h.same rfl rfl
    · exact h.nmgSync hP

end State.NmgKeeps

end solves

/-- After LAST is noted with no solve running, both stay. -/
theorem State.NmgKeeps.ended {n : Nat} (h : (s.setF NMG.LAST_ITER n).NmgKeeps (· = NMG.LAST) t)
    (hrun : s.nmg.run = none) : t.nmg.run = none ∧ t.f NMG.LAST_ITER = n % 65536 :=
  ⟨h.run.trans hrun, (h.regs.f NMG.LAST_ITER rfl).trans (s.setF_f NMG.LAST_ITER n rfl)⟩

/-- The end of a solve notes its iterations as none runs any more. -/
theorem State.solveEnd_notes (s : State) (r : NmgSolve) (status : Nat) :
    ∃ v : State, v.nmg.run = none ∧ (v.setF NMG.LAST_ITER r.iter).NmgKeeps (· = NMG.LAST) (s.solveEnd r status) := by
  have hP : ∀ o, (· = NMG.LAST) o → nmgShown o := fun _ h => Or.inr h
  unfold State.solveEnd
  obtain ⟨res, valid⟩ := statusRes status
  extract_lets u x xs zs ys reported
  dsimp -zeta only
  extract_lets stopped iterate put nmg stored flagged noted counted nmg' aged done
  have hstored : stored.nmg.run = none := by
    dsimp only [stored]
    split <;> rfl
  clear_value stored
  have hflagged : flagged.nmg.run = none :=
    (State.NmgKeeps.raiseIf (P := fun _ => False) (F := NMG.STAT_NONFINITE) (.refl _) id _).run.trans hstored
  have haged : noted.NmgKeeps (· = NMG.LAST) aged :=
    ((State.NmgKeeps.refl noted).bumpMod (F := NMG.CNT_SOLVES) (by decide) _).same rfl rfl
  exact ⟨(flagged.setF NMG.LAST_STATUS status).setF NMG.LAST_RESULT res, hflagged, .nmgNext hP (.refacTry (.adaptRho hP
    (haged.nmgComplete _ _ _ _ _ _) _))⟩

/-- The end of a solve leaves none running and notes its iterations. -/
theorem State.solveEnd_ended (s : State) (r : NmgSolve) (status : Nat) :
    (s.solveEnd r status).nmg.run = none ∧ (s.solveEnd r status).f NMG.LAST_ITER = r.iter % 65536 := by
  obtain ⟨v, hrun, hkeeps⟩ := s.solveEnd_notes r status
  exact hkeeps.ended hrun

/-- A rebuild that starts changes neither. -/
theorem State.eccRebuild_ended {n : Nat} (h : s.nmg.run = none ∧ s.f NMG.LAST_ITER = n) :
    s.eccRebuild.nmg.run = none ∧ s.eccRebuild.f NMG.LAST_ITER = n := by
  obtain ⟨hrun, hlast⟩ := h
  have hkeeps := (State.NmgKeeps.refl (P := (· = NMG.LAST)) s).eccRebuild fun _ h => Or.inr h
  exact ⟨hkeeps.run.trans hrun, (hkeeps.regs.f NMG.LAST_ITER rfl).trans hlast⟩

theorem State.judgeIter_iter (s : State) (kkt : List Nat × List Nat) (r : NmgSolve) : (s.judgeIter kkt r).1.iter = r.iter := by
  unfold State.judgeIter
  dsimp only
  split
  · rfl
  · split <;> rfl

/-- An iteration ends: the solve goes on with the next, or ends and notes how many it took. -/
theorem State.iterEnd_counts {r : NmgSolve} (hr : s.nmg.run = some r) :
    (∃ q, s.iterEnd.nmg.run = some q ∧ q.iter = r.iter + 1)
      ∨ (s.iterEnd.nmg.run = none ∧ s.iterEnd.f NMG.LAST_ITER = (r.iter + 1) % 65536) := by
  have hP : ∀ o, (· = NMG.LAST) o → nmgShown o := fun _ h => Or.inr h
  let old := s.loadIterate r
  have hiter : (s.judgeIter (s.kktStep old) (s.iterate old (s.kktStep old).2)).1.iter = r.iter + 1 :=
    s.judgeIter_iter _ _
  unfold State.iterEnd
  rw [hr]
  dsimp only
  split
  · refine .inr (State.eccRebuild_ended ?_)
    rw [← hiter]
    exact State.solveEnd_ended _ _ _
  · refine .inl ⟨_, ?_, hiter⟩
    exact (((State.NmgKeeps.refl (P := (· = NMG.LAST)) _).sched _ _).nmgSync hP).run

/-! ## A refactorisation and a corrected error -/

/-- What the read-only bits show of a build. -/
theorem State.nmgSync_build (t : State) : t.nmgSync.on NMG.STAT_BUILD = t.nmg.build.isSome := by
  let flags := (t.flag NMG.STAT_BUSY t.nmg.run.isSome).flag NMG.STAT_BUILD t.nmg.build.isSome
  let shown := (flags.setF NMG.STAT_QLEN t.nmg.queue.length).flag NMG.STAT_WARM_HELD t.nmg.warm.isSome
  have hflags : flags.on NMG.STAT_BUILD = t.nmg.build.isSome := State.flag_on _ _ _ rfl
  have hshown : shown.on NMG.STAT_BUILD = t.nmg.build.isSome :=
    (State.setF_on_beside _ _ _ _ rfl rfl).trans ((State.setF_on_beside _ _ _ _ rfl rfl).trans hflags)
  have hsync : t.nmgSync = match shown.slotIn slACTIVE with
    | some k => shown.setF NMG.STAT_ACT_SLOT k
    | none => shown := rfl
  rw [hsync]
  split
  · exact (State.setF_on_beside _ _ _ _ rfl rfl).trans hshown
  · exact hshown

/-- A build that starts shows: its slot is BUILDING, a build runs. -/
theorem State.buildStart_shows (k kind : Nat) (cmds : List NmgCmd) (rho blk buf : Nat) (old : NmgSlot) :
    (s.buildStart k kind cmds rho blk buf old).f (NMG.SLOT_STAT_STATE k) = 1
      ∧ (s.buildStart k kind cmds rho blk buf old).on NMG.STAT_BUILD = true := by
  have hk : NMG.SLOT_TAG k ≠ NMG.SLOT_STAT k ∧ NMG.SLOT_STAT k ≠ NMG.STAT := by
    simp only [NMG.SLOT_STAT, NMG.SLOT_TAG, NMG.STAT]
    omega
  unfold State.buildStart
  extract_lets x building named marked counted d taken nmg built
  have hbuilding : building.f (NMG.SLOT_STAT_STATE k) = 1 :=
    (State.f_wr_ne _ _ _ _ hk.1.symm).trans (s.setF_f (NMG.SLOT_STAT_STATE k) slBUILDING rfl)
  have hnamed : named.f (NMG.SLOT_STAT_STATE k) = 1 := (State.setF_f_beside _ _ _ _ rfl rfl).trans
    ((State.setF_f_beside _ _ _ _ rfl rfl).trans ((State.setF_f_beside _ _ _ _ rfl rfl).trans hbuilding))
  have hmarked : marked.f (NMG.SLOT_STAT_STATE k) = 1 := (State.setF_f_beside _ _ _ _ rfl rfl).trans hnamed
  have hcounted : counted.regs = marked.regs := by
    dsimp only [counted, State.setNmgSlot]
    split <;> rfl
  have hbuilt : marked.Keeps (· = NMG.SLOT_STAT k) (built.sched d .nmgBuildEnd).nmgSync :=
    State.Keeps.nmgSync (((State.Keeps.refl marked).same hcounted).same (u := built.sched d .nmgBuildEnd) rfl) hk.2.symm
  exact ⟨(hbuilt.f (NMG.SLOT_STAT_STATE k) rfl).trans hmarked, State.nmgSync_build _⟩

/-- A pending refactorisation starts in the slot that is not ACTIVE. -/
theorem State.autoRefactor_starts {a : Nat} (hpend : s.on NMG.STAT_REFAC_PEND = true) (hcount : s.refacCount = true)
    (hfree : s.nmg.build = none) (hmay : s.mstate = 4 ∨ s.mstate = 5 ∨ s.mstate = 6) (ha : s.slotIn 3 = some a) :
    s.autoRefactor.f (NMG.SLOT_STAT_STATE (1 - a)) = 1 ∧ s.autoRefactor.on NMG.STAT_BUILD = true := by
  have hruns : s.buildsRun = true := by
    unfold State.buildsRun State.isIn
    rcases hmay with hm | hm | hm <;> rw [hm] <;> rfl
  have hstart : s.autoRefactor = s.refacStart (if s.nmg.pend.isEmpty then 2 else 1) s.nmg.pend :=
    if_pos (by simp [hpend, hcount, hfree, hruns])
  have hslot : s.slotIn slACTIVE = some a := ha
  rw [hstart, State.refacStart, hslot]
  exact State.buildStart_shows _ _ _ _ _ _ _

/-! ## A late plan -/

/-- A plan dropped at its deadline is reported. -/
theorem State.fragDeadline_drops {plan : Word} {f : PlanFrags}
    (hf : s.plc.frags.filter (fun f => decide (f.plan = plan) && decide (f.nfrag ≠ 0)) = [f])
    (hlate : s.fragLeft f.t0 ≤ 0) : (s.fragDeadline plan).on PLC.STAT_PLAN_DROP = true := by
  have hmine : s.plc.frags.filter (fun (f : PlanFrags) => decide (f.plan = plan) && !decide (f.nfrag = 0)) = [f] := by
    simpa using hf
  have hdrop : s.fragDeadline plan = s.planDrop plan f.t0 := by
    unfold State.fragDeadline
    dsimp only
    rw [hmine]
    simp [hlate]
  rw [hdrop]
  refine (State.recordStat_on _ _ _ _ _ _ _).trans ((State.setF_on_apart _ _ _ _ (by decide)).trans ?_)
  exact State.raise_on _ _ rfl

end nmg

end Sys2Proof.Machine
end

section
/-! SUPPORT. A write of a field that software owns: what its row says of its bits (R4), and what a store leaves in it. -/

namespace Sys2Proof.Machine

/-- Software owns the bits of the field: they take what is written. -/
def Field.stored (F : Field) : Bool :=
  (regRow F.off).any fun r => decide (r.rw / 2 ^ F.lo % 2 ^ F.w = 2 ^ F.w - 1) && decide (r.w1c / 2 ^ F.lo % 2 ^ F.w = 0)
    && decide (r.w1s / 2 ^ F.lo % 2 ^ F.w = 0)

theorem testBit_of_bits_ones {a lo w i : Nat} (h : a / 2 ^ lo % 2 ^ w = 2 ^ w - 1) (hi : i < w) :
    a.testBit (lo + i) = true := by
  have hbit := congrArg (Nat.testBit · i) h
  simpa [Nat.testBit_mod_two_pow, Nat.testBit_div_two_pow, Nat.testBit_two_pow_sub_one, hi, Nat.add_comm] using hbit

theorem testBit_of_bits_zero {a lo w i : Nat} (h : a / 2 ^ lo % 2 ^ w = 0) (hi : i < w) : a.testBit (lo + i) = false := by
  have hbit := congrArg (Nat.testBit · i) h
  simpa [Nat.testBit_mod_two_pow, Nat.testBit_div_two_pow, hi, Nat.add_comm] using hbit

/-- A field of software takes its bits of the written word. -/
theorem State.store_f (s : State) (F : Field) (h : F.stored = true) (hF : F.lo + F.w ≤ 32) (v hw : Word) :
    (s.store F.off v hw).f F = getBits F.lo F.w v := by
  obtain ⟨row, hrow, ⟨hrw, hc⟩, hs⟩ : ∃ row, regRow F.off = some row ∧ ((row.rw / 2 ^ F.lo % 2 ^ F.w = 2 ^ F.w - 1
      ∧ row.w1c / 2 ^ F.lo % 2 ^ F.w = 0) ∧ row.w1s / 2 ^ F.lo % 2 ^ F.w = 0) := by
    simpa [Field.stored, Option.any_eq_true] using h
  rw [State.store_eq hrow, State.f, State.rd_wr_same]
  refine Nat.eq_of_testBit_eq fun i => ?_
  by_cases hi : i < F.w
  · have hbit := getLsbD_regWrite_rw (r := row) (old := s.rd F.off) (v := v) (hw := hw) (i := ⟨F.lo + i, by omega⟩)
      (testBit_of_bits_ones hrw hi) (testBit_of_bits_zero hc hi) (testBit_of_bits_zero hs hi)
    simpa [getBits, Nat.testBit_mod_two_pow, Nat.testBit_div_two_pow, hi, BitVec.getLsbD, Nat.add_comm] using hbit
  · simp [getBits, Nat.testBit_mod_two_pow, hi]

/-- The low bits of a register. -/
theorem State.store_low (s : State) {o n : Nat} (h : (⟨o, 0, n⟩ : Field).stored = true) (hn : n ≤ 32) (v : Word)
    (hw : Word := 0#32) : (s.store o v hw).f ⟨o, 0, n⟩ = v.toNat % 2 ^ n := by
  rw [s.store_f ⟨o, 0, n⟩ h (by simpa using hn) v hw]
  simp [getBits]

theorem State.store_sameBut (s : State) (o : Nat) (v hw : Word) : s.sameBut (s.store o v hw) [o] := by
  unfold State.store
  split
  · exact State.sameBut_wr (by simp) _
  · exact ⟨fun _ _ => rfl, rfl⟩

/-! ## The rows -/

theorem trfSafe_stored : ∀ p : Fin 96, (⟨TRF.SAFE p.val, 0, 16⟩ : Field).stored = true := by decide +kernel
theorem trfEnFlt_stored : ∀ p : Fin 96, (TRF.CFG_EN_FLT p.val).stored = true := by decide +kernel
theorem caqgCfg_stored : ∀ g : Fin 12, (⟨CAQG.CFG g.val, 0, 26⟩ : Field).stored = true := by decide +kernel
theorem caqCfg_stored : ∀ p : Fin 96, (⟨CAQ.CFG p.val, 0, 10⟩ : Field).stored = true := by decide +kernel
theorem hkinTag_stored : ∀ k : Fin 96, ∀ n : Fin 3, (LPE.HKIN_TAG_V k.val n.val).stored = true := by decide +kernel
theorem bankWord_stored : ∀ k : Fin 96, ∀ b : Fin 2, ∀ w : Fin 4,
    (⟨bankOff k.val b.val (4 * w.val), 0, 16⟩ : Field).stored = true := by
  decide +kernel
theorem prgCfg_stored : ∀ g : Fin 128, (⟨PRG.CFG g.val, 0, 20⟩ : Field).stored = true := by decide +kernel
theorem fioChcfg_stored : ∀ c : Fin 32, (⟨FIO.CHCFG c.val, 0, 9⟩ : Field).stored = true := by decide +kernel
theorem dorCfg_stored : ∀ d : Fin 8, (⟨DOR.CFG d.val, 0, 12⟩ : Field).stored = true := by decide +kernel
theorem reqUnlock_stored : SAF.REQ_UNLOCK.stored = true := by decide +kernel

end Sys2Proof.Machine
end

section
/-! SUPPORT. Bus accesses: a read of a register that nothing follows and no master has a copy of (R4, R35), what a read
takes into the copies, and a write through a master that the module answers. -/

namespace Sys2Proof.Machine

variable {s : State} {m : Sys2Proof.Master} {o : Nat}

/-- A register that reads as it stands: outside the shared window, no copy, nothing to refresh, no write-only bit. -/
def plainRead (o : Nat) : Bool :=
  !atWindow o && !banked o && decide (o ≠ PWS.SLEEP_L) && decide (o ≠ PWS.WDSTAT)
    && decide (¬(TRFG.FORCED 0 ≤ o ∧ o < TRFG.FORCED 3)) && decide (¬(DPW.CFG 0 ≤ o ∧ o < DPW.CFG 96))
    && decide (¬(LPE.CFG 0 ≤ o ∧ o < LPE.CFG 96)) && decide (¬(CLVT.CFG 0 ≤ o ∧ o < CLVT.CFG 1024))
    && decide (¬(SYS.KEYID 0 ≤ o ∧ o < SYS.KEYID 5)) && decide (¬(TB.NS 0 ≤ o ∧ o < TB.NS 4 ∧ o % 0x40 = 0))
    && (regRow o).all (fun r => decide (r.wo = 0))

/-- A read of a plain register gives it and takes along what reads with it. -/
theorem State.busRead_plain (h : s.reaches m o) (hp : plainRead o = true) :
    s.busRead m o = (s.snapshot m (snapOffs o)).answer (.data (s.rd o)) := by
  simp only [plainRead, Bool.and_eq_true, Bool.not_eq_true', decide_eq_true_eq] at hp
  obtain ⟨⟨⟨⟨⟨⟨⟨⟨⟨⟨hwin, hbank⟩, hsleep⟩, hwd⟩, hforced⟩, hdpw⟩, hlpe⟩, hclvt⟩, hkey⟩, hns⟩, hwo⟩ := hp
  have hthread : ¬(CLVT.CTRL 0 ≤ o ∧ o < CLVT.CTRL 1024 ∧ o = CLVT.RUN ((o - CLVT.CTRL 0) / 0x20)) := by
    simp only [CLVT.CTRL, CLVT.RUN, CLVT.CFG] at hclvt ⊢
    omega
  have hfresh : s.refresh o = s := by
    unfold State.refresh
    rw [if_neg hsleep, if_neg hwd, if_neg hforced, if_neg hdpw, if_neg hlpe, if_neg hthread, if_neg hkey]
  have hword : s.readWord m o = s.rd o := by
    unfold State.readWord State.liveWord
    rw [hbank, hwin]
    dsimp only
    rw [hfresh]
    simp only [Bool.false_eq_true, if_false]
    cases hrow : regRow o with
    | none => rfl
    | some r =>
      have hr : r.wo = 0 := by simpa [hrow] using hwo
      simp only [hr]
      exact BitVec.and_allOnes
  have hbad : s.readBad o = false := by
    unfold State.readBad
    simp [hwin, hclvt]
  unfold State.busRead State.readTakes
  rw [h.1, hbad, if_neg hns, if_neg hsleep, hword]
  rfl

/-! ## Copies -/

theorem FMap.get_set_beside {d : Nat → Word} (f : FMap Word) (base : Nat) {o k : Nat} (h : k ≠ o) (v : Word) :
    (f.set d (base + o) v).get d (base + k) = f.get d (base + k) :=
  FMap.get_set_ne d f _ _ v fun e => h (Nat.add_left_cancel e)

theorem State.bankRd_bankWr_ne (s : State) (m : Sys2Proof.Master) {o k : Nat} (h : k ≠ o) (v : Word) :
    (s.bankWr m o v).bankRd m k = s.bankRd m k :=
  FMap.get_set_beside s.bank (m.idx * 0x4000000) h v

theorem State.snapshot_rd (s : State) (l : List Nat) (k : Nat) : (s.snapshot m l).rd k = s.rd k :=
  List.foldlRecOn (motive := fun u : State => u.rd k = s.rd k) l _ rfl fun u hu x _ => by rw [State.bankWr_rd, hu]

theorem State.snapshot_append (s : State) (l : List Nat) (k : Nat) :
    s.snapshot m (l ++ [k]) = (s.snapshot m l).bankWr m k (s.rd k) := by
  unfold State.snapshot
  rw [List.foldl_append]
  exact congrArg (State.bankWr _ m k) (s.snapshot_rd l k)

/-- A copy that a read takes is what its register holds. -/
theorem State.snapshot_bankRd {k : Nat} (s : State) (l : List Nat) (hk : k ∈ l) : (s.snapshot m l).bankRd m k = s.rd k := by
  induction l using List.reverseRecOn with
  | nil => exact absurd hk List.not_mem_nil
  | append_singleton l a ih =>
    rw [s.snapshot_append]
    by_cases h : k = a
    · rw [h]
      exact State.bankRd_bankWr_same _ _ _ _
    · rw [State.bankRd_bankWr_ne _ _ h]
      exact ih (by simpa [h] using hk)

theorem caqLat0_plain : ∀ p : Fin 96, plainRead (CAQ.LAT0 p.val) = true := by decide +kernel
theorem ansHead_plain : plainRead ANS.HEAD_L = true := by decide +kernel
theorem pgWide_plain : ∀ g : Fin 128, ∀ r : PgWide, plainRead (pgWideOff g.val r) = true := by
  intro g r
  revert g
  cases r <;> decide +kernel

/-- The upper half reads with the lower one. -/
theorem pgWide_takes : ∀ g : Fin 128, ∀ r : PgWide, pgWideOff g.val r + 4 ∈ snapOffs (pgWideOff g.val r) := by
  intro g r
  revert g
  cases r <;> decide +kernel

end Sys2Proof.Machine
end

section
/-! PROOF of the statement OwnEffects, Loop Engine (R137, R141), generators (R157, R175) and choppers (R168). -/

namespace Sys2Proof.Machine

variable {s t u : State} {m : Sys2Proof.Master}

/-! ## Legs -/

/-- What a transition of a leg leaves: the registers, the drive ports, the generators. -/
structure State.LegKeeps (s t : State) : Prop where
  regs : t.regs = s.regs
  dpw : t.dpw = s.dpw
  pg : t.pg = s.pg

namespace State.LegKeeps

theorem refl (s : State) : s.LegKeeps s := ⟨rfl, rfl, rfl⟩

theorem trans (h : s.LegKeeps t) (h' : t.LegKeeps u) : s.LegKeeps u :=
  ⟨h'.regs.trans h.regs, h'.dpw.trans h.dpw, h'.pg.trans h.pg⟩

theorem setLeg (h : s.LegKeeps t) (p k : Nat) (l : Leg) : s.LegKeeps (t.setLeg p k l) := ⟨h.regs, h.dpw, h.pg⟩

theorem cancel (h : s.LegKeeps t) (c : Instr) : s.LegKeeps (t.cancel c) := ⟨h.regs, h.dpw, h.pg⟩

theorem resched (h : s.LegKeeps t) (dt : Nat) (c : Instr) : s.LegKeeps (t.resched dt c) := ⟨h.regs, h.dpw, h.pg⟩

theorem ite {c : Prop} [Decidable c] {a b : State} (ha : s.LegKeeps a) (hb : s.LegKeeps b) :
    s.LegKeeps (if c then a else b) := by
  split
  · exact ha
  · exact hb

theorem legTo (h : s.LegKeeps t) (p k : Nat) (v : Lvl) (x : Nat) : s.LegKeeps (t.legTo p k v x) := by
  unfold State.legTo
  refine .ite h ?_
  cases v
  · exact (h.setLeg _ _ _).cancel _
  · exact .ite ((h.setLeg _ _ _).cancel _) ((h.setLeg _ _ _).resched _ _)
  · exact .ite ((h.setLeg _ _ _).cancel _) ((h.setLeg _ _ _).resched _ _)

theorem bridgeLeg (h : s.LegKeeps t) (p k : Nat) (v : Lvl) : s.LegKeeps (t.bridgeLeg p k v) :=
  .ite ((h.setLeg _ _ _).cancel _) (.ite ((h.setLeg _ _ _).resched _ _) (((h.setLeg _ _ _).cancel _).legTo _ _ _ _))

theorem bridgeSet (h : s.LegKeeps t) (p b v : Nat) : s.LegKeeps (t.bridgeSet p b v) :=
  (h.bridgeLeg _ _ _).bridgeLeg _ _ _

end State.LegKeeps

/-! ## Choppers (R168) -/

theorem State.pgU_setPg_same (s : State) (n : Nat) (x : PgUnit) : (s.setPg n x).pgU n = x := FMap.get_set_same _ _ _ _

theorem State.chop_setChop (s : State) (p b : Nat) (c : Chop) : (s.setChop p b c).chop p b = c := by
  unfold State.chop State.setChop
  rw [State.pgU_setPg_same]
  split <;> rfl

/-- Off-time over: the chopper turns ON again. -/
theorem State.chopTimeout_on {p b : Nat} (hstep : s.stepping p = true) (hslow : (s.chop p b).st = .slow) :
    (s.chopTimeout p b).chop p b = ⟨.on, s.now, (s.chop p b).ref⟩ := by
  have hon : s.chopTimeout p b = s.chopOn p b (s.chop p b).ref := by
    unfold State.chopTimeout
    rw [if_neg (by simp [hstep])]
    simp only [hslow]
  let v : State := s.setChop p b ⟨.on, s.now, (s.chop p b).ref⟩
  have hpg : (s.chopOn p b (s.chop p b).ref).pg = v.pg := ((State.LegKeeps.refl v).cancel _ |>.bridgeSet p b _).pg
  rw [hon, State.chop, State.pgU, hpg]
  exact s.chop_setChop p b _

/-! ## The Loop Engine's hooks and banks -/

/-- A commit stores the tag. -/
theorem State.hookCommit_tag (s : State) (k : Fin 96) (n : Fin 3) (v : Word) :
    (s.hookCommit k.val n.val v).f (LPE.HKIN_TAG_V k.val n.val) = v.toNat % 256 := by
  have hstore := s.store_f (LPE.HKIN_TAG_V k.val n.val) (hkinTag_stored k n) (by simp [LPE.HKIN_TAG_V]) v 0#32
  exact hstore.trans (by simp [getBits, LPE.HKIN_TAG_V])

/-- A good word in the bank that is not in use is written: what else changes is its ECC error and the mark of a bad word. -/
theorem State.bankWrite_store {k b w : Nat} {v : Word} (hgood : bankBadValue w v = false) (hfree : s.actBank k ≠ b) :
    ∃ (e : List Config.EccErr) (x : FMap LpeSlot),
      s.bankWrite k b w v false = { State.store { s with ecc := e } (bankOff k b (4 * w)) v with slot := x } := by
  unfold State.bankWrite
  rw [if_neg (by simp [hgood]), if_neg (by simp [hfree])]
  exact ⟨_, _, rfl⟩

theorem State.bankWrite_effect {k : Fin 96} {b : Fin 2} {w : Fin 22} {v : Word} (hgood : bankBadValue w.val v = false)
    (hfree : s.actBank k.val ≠ b.val) (r : Resp) :
    let word := bankOff k.val b.val (4 * w.val)
    let t := (s.answer r).bankWrite k.val b.val w.val v false
    s.wrote { t with slot := s.slot, ecc := s.ecc } [word] ∧ (w.val < 4 → t.f ⟨word, 0, 16⟩ = v.toNat % 65536) := by
  intro word t
  obtain ⟨e, x, ht⟩ : ∃ (e : List Config.EccErr) (x : FMap LpeSlot), t = { State.store { s.answer r with ecc := e } word v with slot := x } :=
    State.bankWrite_store hgood hfree
  refine ⟨?_, fun hw => ?_⟩
  · rw [ht]
    obtain ⟨hrd, hrest⟩ := State.store_sameBut { s.answer r with ecc := e } word v 0#32
    refine ⟨fun o ho => hrd o ho, ?_⟩
    rw [hrest]
    rfl
  · rw [ht]
    exact State.store_low { s.answer r with ecc := e } (bankWord_stored k b ⟨w.val, hw⟩) (by decide) v

/-! ## Generators -/

/-- A good CFG of a generator that rests with SRC 0 is stored whole. -/
theorem State.prgCfgWrite_cfg {g : Fin 128} {v : Word} (hgood : prgCfgBad g.val v = false)
    (hsrc : s.f (PRG.CFG_SRC g.val) = 0) (htrack : s.on (PRG.STAT_TRACK g.val) = false) (hss1 : (s.pgU g.val).ss1 = none)
    (hv : (s.pgU g.val).v = 0) (ha : (s.pgU g.val).a = 0) :
    (s.prgCfgWrite g.val v).f ⟨PRG.CFG g.val, 0, 20⟩ = v.toNat % 2 ^ 20 := by
  have hold : getBits 0 2 (s.rd (PRG.CFG g.val)) = 0 := hsrc
  have hstore : s.prgCfgWrite g.val v = s.store (PRG.CFG g.val) v := by
    unfold State.prgCfgWrite State.judge
    simp [hgood, hold, htrack, hss1, hv, ha]
  rw [hstore]
  exact s.store_low (prgCfg_stored g) (by decide) v

/-- The lower half waits in the writer's copy. -/
theorem State.pgWideWrite_low {g : Fin 128} {r : PgWide} (hp : r ≠ .pos) (ho : r ≠ .gofs) (v : Word) :
    (s.pgWideWrite m g.val r false v).bankRd m (pgWideOff g.val r) = v := by
  have hwrite : s.pgWideWrite m g.val r false v
      = (s.bankWr m (pgWideOff g.val r) v).bankWr m (wideMark (pgWideOff g.val r)) 1#32 := by
    unfold State.pgWideWrite
    dsimp only
    rw [if_neg (by simp [hp, ho])]
    rfl
  rw [hwrite, State.bankRd_bankWr_ne _ _ (by unfold wideMark; omega)]
  exact State.bankRd_bankWr_same _ _ _ _

/-- A read of the lower half takes the upper one into the reader's copy. -/
theorem State.pgWideRead_takes {g : Fin 128} {r : PgWide} (h : s.reaches m (pgWideOff g.val r)) :
    (s.busRead m (pgWideOff g.val r)).lastResp = .data (s.rd (pgWideOff g.val r))
      ∧ (s.busRead m (pgWideOff g.val r)).bankRd m (pgWideOff g.val r + 4) = s.rd (pgWideOff g.val r + 4) := by
  rw [State.busRead_plain h (pgWide_plain g r)]
  exact ⟨rfl, s.snapshot_bankRd _ (pgWide_takes g r)⟩

/-- A push that joins a queue adds the knot at its end. -/
theorem PgUnit.push_queue (x : PgUnit) (now t : Nat) (k : Knot) :
    (x.push now ⟨t, false, some k⟩).queue = x.queue ++ [k] := by
  have hkept : x.keptQueue t false = x.queue := rfl
  have henqueue : (x.enqueue ⟨t, false, some k⟩).queue = x.queue ++ [k] := by
    unfold PgUnit.enqueue
    simp only [hkept]
  unfold PgUnit.push
  split
  exact henqueue

/-- What admits a knot to the end of the stream of generator `n`. -/
structure State.knotFits (s : State) (n : Nat) (w : Nat → Word) (q : Knot) : Prop where
  free : (s.pgU n).ss1 = none
  spline : (s.pgU n).src = 2
  plain : getBits 1 31 (w 1) = 0 ∧ w 6 = 0#32 ∧ w 7 = 0#32
  last : (s.pgU n).queue.getLast? = some q
  ahead : 0 < knotAhead (w 0).toNat (s.pgU n).tau
  appends : (w 1).getLsbD 0 = false
  apart : (s.frameUnits : Int) ≤ 8 * nsDiff (w 0).toNat q.t
  near : nsDiff (w 0).toNat q.t ≤ 67108864
  room : (s.pgU n).qlen < 32

/-- The timer of a starved generator starts anew, else it stops. -/
def State.starveTimer (s : State) (n : Nat) : State :=
  if s.on (PRG.STAT_STARVED n) then s.resched 25000000 (.starveSs1Timeout (Fin.ofNat 128 n))
  else s.cancel (.starveSs1Timeout (Fin.ofNat 128 n))

theorem State.starveTimer_pgU (s : State) (n j : Nat) : (s.starveTimer n).pgU j = s.pgU j := by
  unfold State.starveTimer
  split <;> rfl

/-- The knot of a push's words. -/
def pushedKnot (now : Nat) (w : Nat → Word) : Knot :=
  ⟨(w 0).toNat, now, signedOf 64 ((w 3).toNat * 2 ^ 32 + (w 2).toNat) / 65536, (w 4).toInt / 16, (w 5).toInt / 16⟩

/-- It is pushed. -/
theorem State.knotFits.pushes {n : Nat} {w : Nat → Word} {q : Knot} (h : s.knotFits n w q) :
    s.pushKnot n ((List.range 8).map w)
      = (s.setPg n ((s.pgU n).push s.now ⟨(w 0).toNat, false, some (pushedKnot s.now w)⟩)).starveTimer n := by
  obtain ⟨hfree, hspline, ⟨hres, h6, h7⟩, hlast, hahead, hadds, hapart, hnear, hroom⟩ := h
  have hword (i : Nat) (hi : i < 8) : ((List.range 8).map w).getD i 0#32 = w i := by
    simp [List.getD, hi]
  have hkept : (s.pgU n).keptQueue (w 0).toNat false = (s.pgU n).queue := rfl
  have hne : (s.pgU n).queue.isEmpty = false := by
    cases hq : (s.pgU n).queue with
    | nil => simp [hq] at hlast
    | cons => rfl
  have hbad : (decide (nsDiff (w 0).toNat q.t * 8 < s.frameUnits) || decide (67108864 < nsDiff (w 0).toNat q.t)) = false := by
    simp
    omega
  unfold State.pushKnot
  simp only [hword 0 (by decide), hword 1 (by decide), hword 6 (by decide), hword 7 (by decide), hadds, hkept, hlast,
    hfree, hne, Option.isSome_none, Bool.false_eq_true, if_false]
  rw [if_neg (by simp [hspline, hres, h6, h7]), if_neg (not_le.mpr hahead), if_neg (by simp [hbad])]
  exact if_neg (not_le.mpr hroom)

/-- It is queued. -/
theorem State.knotFits.queued {n : Nat} {w : Nat → Word} {q : Knot} (h : s.knotFits n w q) :
    ((s.pushKnot n ((List.range 8).map w)).pgU n).queue.map (·.t) = (s.pgU n).queue.map (·.t) ++ [(w 0).toNat] := by
  rw [h.pushes, State.starveTimer_pgU, State.pgU_setPg_same, PgUnit.push_queue, List.map_append]
  rfl

/-- The words of a push: the last is the one written. -/
theorem State.knot_words (s : State) (m : Sys2Proof.Master) (n : Nat) (v : Word) :
    (List.range 8).map (fun i => (s.bankWr m (PRG.KNOT n 7) v).bankRd m (PRG.KNOT n i))
      = (List.range 8).map (fun i => if i = 7 then v else s.bankRd m (PRG.KNOT n i)) := by
  refine List.map_congr_left fun i _ => ?_
  split
  case isTrue h =>
    rw [h]
    exact State.bankRd_bankWr_same _ _ _ _
  case isFalse h =>
    refine State.bankRd_bankWr_ne _ _ ?_ _
    simp only [PRG.KNOT]
    omega

/-- It depends on the generator and the frame. -/
theorem State.knotFits.of_same {n : Nat} {w : Nat → Word} {q : Knot} (h : s.knotFits n w q) (hpg : t.pgU n = s.pgU n)
    (hframe : t.frameUnits = s.frameUnits) : t.knotFits n w q := by
  obtain ⟨hfree, hspline, hplain, hlast, hahead, hadds, hapart, hnear, hroom⟩ := h
  refine ⟨?_, ?_, hplain, ?_, ?_, hadds, ?_, hnear, ?_⟩
  · rwa [hpg]
  · rwa [hpg]
  · rwa [hpg]
  · rwa [hpg]
  · rwa [hframe]
  · rwa [hpg]

/-- The write of KNOT7 queues the knot of the master's words. -/
theorem State.knotPush_queue {n : Nat} {v : Word} {q : Knot}
    (h : s.knotFits n (fun i => if i = 7 then v else s.bankRd m (PRG.KNOT n i)) q) :
    ((s.knotPush m n v).pgU n).queue.map (·.t)
      = (s.pgU n).queue.map (·.t) ++ [(s.bankRd m (PRG.KNOT n 0)).toNat] := by
  have hpg : (s.bankWr m (PRG.KNOT n 7) v).pgU n = s.pgU n := by
    rw [State.pgU, State.bankWr_pg, State.pgU]
  have hframe : (s.bankWr m (PRG.KNOT n 7) v).frameUnits = s.frameUnits := by
    rw [State.frameUnits, State.bankWr_f, State.frameUnits]
  unfold State.knotPush
  dsimp only
  rw [State.knot_words, (h.of_same hpg hframe).queued, hpg]
  rfl

end Sys2Proof.Machine
end

section
/-! PROOF of the statement OwnEffects, drive ports (R54, R59, R66, R68), trips (R76 to R83) and currents (R87, R89). -/

namespace Sys2Proof.Machine

variable {s t u : State} {m : Sys2Proof.Master} {P : Nat → Prop}

/-! ## Latches (R76, R83) -/

/-- Beside what a trip of port `p` notes. -/
structure tripBeside (P : Nat → Prop) (p : Nat) : Prop where
  stat : ¬P (DPW.STAT p)
  first : ¬P (TRF.FIRST p)
  ftime : ¬P (TRF.FTIME p)
  cnt : ¬P (TRF.CNT p)

theorem tripBeside_latch {p q : Nat} (hq : q < 96) : tripBeside (· = TRF.LATCH p) q := by
  constructor <;> intro h <;> simp only [TRF.LATCH, TRF.FIRST, TRF.FTIME, TRF.CNT, DPW.STAT] at h <;> omega

theorem tripBeside_cfg {p q : Nat} : tripBeside (· = TRF.CFG p) q := by
  constructor <;> intro h <;> simp only [TRF.CFG, TRF.FIRST, TRF.FTIME, TRF.CNT, DPW.STAT] at h <;> omega

section latches
variable {p : Nat}

theorem State.Keeps.firstTime (h : s.Keeps P t) (hP : tripBeside P p) (frac : Nat) : s.Keeps P (t.firstTime p frac) :=
  ((h.setF (F := TRF.FIRST_FRAC p) hP.first _).setF (F := TRF.FIRST_WC p) hP.first _).wr hP.ftime _

theorem State.Keeps.tripAgain (h : s.Keeps P t) (hP : tripBeside P p) (mask frac : Nat) :
    s.Keeps P (t.tripAgain p mask frac) :=
  .ite (fun _ => (State.Keeps.ite (fun _ => (h.setF (F := TRF.FIRST_SRC p) hP.first _).firstTime hP frac)
    fun _ => h).same rfl) fun _ => h

/-- Beside its latch register a trip notes STAT, FIRST, FTIME and CNT. -/
theorem State.latchSet_keeps (s : State) (hP : tripBeside P p) {mask : Nat} (hmask : mask ≠ 0) (frac : Nat) :
    (s.wrN (TRF.LATCH p) ((s.rd (TRF.LATCH p)).toNat ||| mask)).Keeps P (s.latchSet p mask frac) := by
  let v := s.wrN (TRF.LATCH p) ((s.rd (TRF.LATCH p)).toNat ||| mask)
  have hforced : v.Keeps P (State.noteOff s p ((v.raise (DPW.STAT_FORCED p)).forceLegs p (!s.forced p))) := by
    rw [State.noteOff_eq, State.forceLegs_eq]
    exact ((State.Keeps.refl v).raise (F := DPW.STAT_FORCED p) hP.stat).same rfl
  have hnew := (((hforced.setF (F := TRF.FIRST_SRC p) hP.first (lowestCode mask)).raise (F := TRF.FIRST_VALID p)
    hP.first).firstTime hP frac).bump (F := TRF.CNT_TRIPS p) hP.cnt 1
  unfold State.latchSet
  rw [if_neg hmask]
  dsimp only
  split
  · exact hforced.tripAgain hP mask frac
  · exact hnew.same rfl

theorem State.latches_testBit (s : State) (p : Nat) {k : Nat} (hk : k < 7) :
    (s.latches p).testBit k = (s.rd (TRF.LATCH p)).getLsbD k := by
  have h128 : (128 : Nat) = 2 ^ 7 := rfl
  rw [State.latches, h128, Nat.testBit_mod_two_pow]
  simp [hk, BitVec.getLsbD]

/-- A latch that sets joins the others. -/
theorem State.latchSet_latch (s : State) (hp : p < 96) (mask frac : Nat) {k : Nat} (hk : k < 7) :
    ((s.latchSet p mask frac).latches p).testBit k = ((s.latches p).testBit k || mask.testBit k) := by
  by_cases hmask : mask = 0
  · rw [hmask, show s.latchSet p 0 frac = s from if_pos rfl]
    simp
  · have hkeeps := s.latchSet_keeps (tripBeside_latch (p := p) hp) hmask frac (TRF.LATCH p) rfl
    rw [State.latches_testBit _ _ hk, State.latches_testBit _ _ hk, hkeeps, State.wrN, State.rd_wr_same,
      BitVec.getLsbD_ofNat, Nat.testBit_or, decide_eq_true (by omega : k < 32), Bool.true_and]
    rfl

/-- The latches of another port stay. -/
theorem State.latchSet_other (s : State) {q : Nat} (hp : p < 96) (hq : q ≠ p) (mask frac : Nat) :
    (s.latchSet p mask frac).latches q = s.latches q := by
  by_cases hmask : mask = 0
  · rw [hmask, show s.latchSet p 0 frac = s from if_pos rfl]
  · have hne : TRF.LATCH q ≠ TRF.LATCH p := by
      simp only [TRF.LATCH]
      omega
    have hkeeps := s.latchSet_keeps (tripBeside_latch (p := q) hp) hmask frac (TRF.LATCH q) rfl
    rw [State.latches, hkeeps, State.wrN, State.rd_wr_ne _ _ _ _ hne, State.latches]

end latches

/-- What every step keeps and one step establishes holds after all of them. -/
theorem foldl_of_mem {α β : Type} {op : β → α → β} {Q : β → Prop} {x : α} (hx : ∀ b, Q (op b x)) :
    ∀ (l : List α) (b : β), (∀ b, ∀ a ∈ l, Q b → Q (op b a)) → x ∈ l → Q (l.foldl op b)
  | [], _, _, h => absurd h List.not_mem_nil
  | a :: l, b, hkeep, h => by
    have hrest (b : β) (a' : α) (ha : a' ∈ l) : Q b → Q (op b a') := hkeep b a' (List.mem_cons_of_mem a ha)
    rcases List.mem_cons.mp h with rfl | h
    · exact List.foldlRecOn (motive := Q) l op (hx b) fun b hb a ha => hrest b a ha hb
    · exact foldl_of_mem hx l _ hrest h

/-- SWTRIP sets the latch of every port whose bit is 1. -/
theorem State.swTrip_latches (s : State) (n : Fin 3) (v : Word) (b : Fin 32) (hb : v.getLsbD b.val = true) :
    ((s.swTripWrite n.val v).latches (32 * n.val + b.val)).testBit 3 = true := by
  refine foldl_of_mem (x := b.val) (Q := fun t : State => (t.latches (32 * n.val + b.val)).testBit 3 = true)
    (fun t => ?_) _ _ (fun t a ha h => ?_) (List.mem_range.mpr b.isLt)
  · rw [if_pos hb, State.latchSet_latch _ (by omega) _ _ (by decide), show Nat.testBit 8 3 = true from rfl,
      Bool.or_true]
  · have ha := List.mem_range.mp ha
    split
    · by_cases hq : a = b.val
      · rw [hq, State.latchSet_latch _ (by omega) _ _ (by decide), h]
        rfl
      · rw [State.latchSet_other _ (by omega) (by omega)]
        exact h
    · exact h

/-! ## Clearing a latch (R83) -/

/-- The low bits of what is left after a mask of them. -/
theorem testBit_sub_and {m k : Nat} (x : Nat) (hm : m < 16) (hk : k < 4) (hbit : m.testBit k = true) :
    (x - (x &&& m)).testBit k = false := by
  have hsmall : ∀ a : Fin 16, ∀ m : Fin 16, ∀ k : Fin 4, m.val.testBit k.val = true →
      (a.val - (a.val &&& m.val)).testBit k.val = false := by
    decide
  have hand : x &&& m = x % 16 &&& m := by
    have hmod := Nat.and_mod_two_pow (a := x) (b := m) (n := 4)
    rwa [Nat.mod_eq_of_lt (Nat.and_lt_two_pow x hm), Nat.mod_eq_of_lt (show m < 2 ^ 4 from hm)] at hmod
  have hle : x % 16 &&& m ≤ x % 16 := Nat.and_le_left
  have hmod : (x - (x &&& m)) % 2 ^ 4 = x % 16 - (x % 16 &&& m) := by
    rw [hand]
    omega
  have hlow := hsmall ⟨x % 16, by omega⟩ ⟨m, hm⟩ ⟨k, hk⟩ hbit
  rw [← hmod, Nat.testBit_mod_two_pow] at hlow
  simpa [hk] using hlow

/-- A latch that is cleared is off. -/
theorem State.latchClear_latch (s : State) {p mask k : Nat} (hmask : mask < 16) (hk : k < 4) (hbit : mask.testBit k = true) :
    ((s.latchClear p mask).latches p).testBit k = false := by
  have hlow : s.latches p &&& mask = (s.rd (TRF.LATCH p)).toNat &&& mask := by
    have hmod := Nat.and_mod_two_pow (a := (s.rd (TRF.LATCH p)).toNat) (b := mask) (n := 7)
    rw [Nat.mod_eq_of_lt (lt_of_lt_of_le (Nat.and_lt_two_pow _ (show mask < 2 ^ 4 from hmask)) (by decide)),
      Nat.mod_eq_of_lt (lt_of_lt_of_le hmask (by decide : 16 ≤ 2 ^ 7))] at hmod
    exact hmod.symm
  let v := s.wrN (TRF.LATCH p) ((s.rd (TRF.LATCH p)).toNat - (s.latches p &&& mask))
  have hv : (v.latches p).testBit k = false := by
    have hlt : (s.rd (TRF.LATCH p)).toNat - ((s.rd (TRF.LATCH p)).toNat &&& mask) < 2 ^ 32 := by
      have := (s.rd (TRF.LATCH p)).isLt
      omega
    have hrd : v.rd (TRF.LATCH p) = BitVec.ofNat 32 ((s.rd (TRF.LATCH p)).toNat - (s.latches p &&& mask)) :=
      State.rd_wr_same _ _ _
    rw [State.latches_testBit _ _ (by omega), hrd, hlow, BitVec.getLsbD_ofNat,
      testBit_sub_and _ hmask hk hbit, Bool.and_false]
  have hstat : TRF.LATCH p ≠ DPW.STAT p := by
    simp only [TRF.LATCH, DPW.STAT]
    omega
  have hkeeps (h : s.latches p - (s.latches p &&& mask) ≠ s.latches p) :
      v.Keeps (· = TRF.LATCH p) (s.latchClear p mask) := by
    unfold State.latchClear
    dsimp only
    rw [if_neg h]
    refine .ite (fun _ => ?_) fun _ => .ite (fun _ => ?_) fun _ => ?_
    · rw [State.noteOff_eq]
      exact (State.Keeps.refl v).same rfl
    · exact (State.Keeps.refl v).setF (F := DPW.STAT_FORCED p) (fun h => hstat h.symm) 0
    · exact ((State.Keeps.refl v).raise (F := DPW.STAT_FORCED p) fun h => hstat h.symm).same rfl
  by_cases h : s.latches p - (s.latches p &&& mask) = s.latches p
  · have hnone : s.latchClear p mask = s := if_pos h
    have hoff := testBit_sub_and (s.latches p) hmask hk hbit
    rwa [h, ← hnone] at hoff
  · rw [State.latches, hkeeps h _ rfl]
    exact hv

/-- The mask of the latch bits among 0 to 3 that `f` holds of. -/
def latchMask (f : Nat → Bool) : Nat := ([0, 1, 2, 3].filter f).foldl (fun a b => a + 2 ^ b) 0

theorem latchMask_testBit (f : Nat → Bool) (k : Fin 4) (h : f k.val = true) :
    latchMask f < 16 ∧ (latchMask f).testBit k.val = true := by
  have hall : ∀ b0 b1 b2 b3 : Bool, ∀ k : Fin 4, [b0, b1, b2, b3].getD k.val false = true →
      latchMask ([b0, b1, b2, b3].getD · false) < 16 ∧ (latchMask ([b0, b1, b2, b3].getD · false)).testBit k.val = true := by
    decide
  refine hall (f 0) (f 1) (f 2) (f 3) k ?_
  fin_cases k <;> exact h

/-- A bit of a register. -/
theorem State.on_bit (s : State) (o k : Nat) : s.on ⟨o, k, 1⟩ = (s.rd o).getLsbD k := by
  have hbit : s.f ⟨o, k, 1⟩ = (s.rd o).toNat / 2 ^ k % 2 := rfl
  rw [State.on, hbit, BitVec.getLsbD, Nat.testBit_eq_decide_div_mod_eq]
  simp

/-- A latch whose clear is not refused is off after the write. -/
theorem State.latchWrite_clears (s : State) {p : Nat} {k : Fin 4} {v : Word} (hv : v.getLsbD k.val = true)
    (hfree : s.clearRefused p (2 ^ k.val) = false) : ((s.latchWrite p v 0#32).latches p).testBit k.val = false := by
  let granted (b : Nat) : Bool := !s.clearRefused p (2 ^ b) && (v.getLsbD b && !(0#32).getLsbD b)
  obtain ⟨hsmall, hbit⟩ := latchMask_testBit granted k (by simp [granted, hv, hfree])
  have hflag (t : State) (b : Bool) : ((t.raiseIf b (TRF.LATCH_CLR_REFUSED p)).latches p).testBit k.val
      = (t.latches p).testBit k.val := by
    rw [State.latches_testBit _ _ (by omega), State.latches_testBit _ _ (by omega), ← State.on_bit, ← State.on_bit]
    cases b
    · rfl
    · exact t.setF_on_beside _ _ 1 rfl (by simp [Field.beside, TRF.LATCH_CLR_REFUSED]; omega)
  unfold State.latchWrite
  dsimp only
  rw [hflag, List.filter_filter]
  exact State.latchClear_latch _ hsmall k.isLt hbit

/-! ## SAFE and CFG (R79, R80) -/

theorem State.safeWrite_safe (s : State) {p : Fin 96} {v : Word} (hgood : safeBad v = false)
    (hoff : s.f (DPW.CFG_MODE p.val) = 0) : (s.safeWrite p.val v).f ⟨TRF.SAFE p.val, 0, 16⟩ = v.toNat % 65536 := by
  have hstore : s.safeWrite p.val v = s.store (TRF.SAFE p.val) v :=
    (if_neg (by simp [hgood])).trans (if_neg (by simp [hoff]))
  rw [hstore]
  exact s.store_low (trfSafe_stored p) (by decide) v

/-- A trip that an enable brings about leaves the enables. -/
theorem State.latchSet_cfg (s : State) (p mask frac : Nat) : (s.latchSet p mask frac).rd (TRF.CFG p) = s.rd (TRF.CFG p) := by
  by_cases hmask : mask = 0
  · rw [hmask, show s.latchSet p 0 frac = s from if_pos rfl]
  · have hne : TRF.CFG p ≠ TRF.LATCH p := by
      simp only [TRF.CFG, TRF.LATCH]
      omega
    rw [s.latchSet_keeps (tripBeside_cfg (p := p)) hmask frac (TRF.CFG p) rfl, State.wrN, State.rd_wr_ne _ _ _ _ hne]

theorem State.trfCfgStore_enable (s : State) {p : Fin 96} {v : Word} (hoff : s.f (DPW.CFG_MODE p.val) = 0) :
    (s.trfCfgStore p.val v).on (TRF.CFG_EN_FLT p.val) = v.getLsbD (TRF.CFG_EN_FLT p.val).lo := by
  have hstore : (s.store (TRF.CFG p.val) v).f (TRF.CFG_EN_FLT p.val) = v.toNat / 2 ^ 2 % 2 :=
    s.store_f (TRF.CFG_EN_FLT p.val) (trfEnFlt_stored p) (by simp [TRF.CFG_EN_FLT]) v 0#32
  unfold State.trfCfgStore
  rw [if_neg (by simp [hoff])]
  refine (State.on_of_rd (TRF.CFG_EN_FLT p.val) (State.latchSet_cfg _ p.val _ 32)).trans ?_
  rw [State.on, hstore, BitVec.getLsbD, Nat.testBit_eq_decide_div_mod_eq]
  exact decide_eq_decide.mpr (by simp [TRF.CFG_EN_FLT])

/-! ## Current sensing (R87, R89) -/

theorem State.tripRelease_dcv_regs (s : State) (g : Fin 12) : (s.tripRelease (.dcv g)).regs = s.regs := by
  have hrelease : s.tripRelease (.dcv g) = if (s.tripInU (tripKey (.dcv g))).on
      then s.setTripIn (tripKey (.dcv g)) ⟨false, some s.now⟩ else s := rfl
  rw [hrelease]
  split <;> rfl

/-- A filter that restarts writes the valid bit of its channel and, for a group's own, its DSV. -/
theorem State.Keeps.restartCh (h : s.Keeps P t) {ch : Nat} (hvalid : ¬P (chValidF ch).off)
    (hdsv : 192 ≤ ch → ¬P (CAQG.DSV (chGroup ch))) (b : Bool) : s.Keeps P (t.restartCh ch b) := by
  have hoff : s.Keeps P (t.cmpOff ch) := by
    unfold State.cmpOff
    dsimp only
    refine .ite (fun _ => h.same rfl) fun hch => ?_
    have hv := hdsv (Nat.not_lt.mp hch)
    have hset : s.Keeps P (t.setCaq ch { t.caqCh ch with hi := false, lo := false }) := h.same rfl
    have hlow := (hset.setF (F := CAQG.DSV_HI (chGroup ch)) hv 0).setF (F := CAQG.DSV_LO (chGroup ch)) hv 0
    exact .ite (fun _ => hlow.same (State.tripRelease_dcv_regs _ _)) fun _ => hlow
  unfold State.restartCh
  exact (hoff.same rfl).setF hvalid 0

theorem chValidF_off (ch : Nat) : (ch < 192 → (chValidF ch).off = CAQ.STAT (ch / 2))
    ∧ (192 ≤ ch → (chValidF ch).off = CAQG.DSV (chGroup ch)) := by
  unfold chValidF
  refine ⟨fun h => ?_, fun h => ?_⟩
  · rw [if_pos h]
    split <;> rfl
  · rw [if_neg (Nat.not_lt.mpr h)]
    rfl

/-- A good value in a state that does not lock the register acts. -/
theorem State.judge_good {bad locked : Bool} (hgood : bad = false) (hfree : locked = false) (F : Field)
    (act : State → State) : s.judge bad F locked act = act s :=
  (if_neg (by simp [hgood])).trans (if_neg (by simp [hfree]))

/-- A good CFG of a group at rest is stored whole. -/
theorem State.caqGroupStore_cfg (s : State) {g : Fin 12} {v : Word} (hgood : caqGroupBad v = false)
    (hports : ∀ j : Fin 8, s.f (DPW.CFG_MODE (8 * g.val + j.val)) = 0) (hrun : s.mstate ≠ 5) (hsafe : s.mstate ≠ 6) :
    (s.caqGroupStore g.val v).f ⟨CAQG.CFG g.val, 0, 26⟩ = v.toNat % 2 ^ 26 := by
  have hidle : (List.range 8).any (fun i => decide (s.f (DPW.CFG_MODE (8 * g.val + i)) ≠ 0)) = false := by
    rw [List.any_eq_false]
    exact fun i hi => by simpa using hports ⟨i, List.mem_range.mp hi⟩
  have hstate : s.isIn [stRUN, stSAFE] = false := by
    simp [State.isIn, stRUN, stSAFE, hrun, hsafe]
  have hne : CAQG.DSV g.val ≠ CAQG.CFG g.val ∧ ∀ q, CAQ.STAT q ≠ CAQG.CFG g.val := by
    refine ⟨?_, fun q => ?_⟩ <;> simp only [CAQG.DSV, CAQG.CFG, CAQ.STAT] <;> omega
  have hcoil (t : State) (b : Bool) (i : Nat) (hi : i < 16) : t.Keeps (· = CAQG.CFG g.val) (t.restartCh (16 * g.val + i) b) := by
    refine (State.Keeps.refl t).restartCh ?_ (fun hch => absurd hch (by omega)) b
    rw [(chValidF_off _).1 (by omega)]
    exact hne.2 _
  have hown {t : State} (h : (s.store (CAQG.CFG g.val) v).Keeps (· = CAQG.CFG g.val) t) (b : Bool) :
      (s.store (CAQG.CFG g.val) v).Keeps (· = CAQG.CFG g.val) (t.restartCh (192 + g.val) b) := by
    have hgroup : chGroup (192 + g.val) = g.val := by simp [chGroup]
    refine h.restartCh ?_ (fun _ => ?_) b
    · rw [(chValidF_off _).2 (by omega), hgroup]
      exact hne.1
    · rw [hgroup]
      exact hne.1
  have hkeeps : (s.store (CAQG.CFG g.val) v).Keeps (· = CAQG.CFG g.val) (s.caqGroupStore g.val v) := by
    unfold State.caqGroupStore
    extract_lets running locked
    rw [State.judge_good hgood (by simp only [locked, running, hidle, hstate, Bool.or_self])]
    extract_lets stored en link coils clocked
    have hcoils : stored.Keeps (· = CAQG.CFG g.val) coils :=
      .ite (fun _ => (State.Keeps.refl stored).foldl fun u i hi => hcoil u false i (List.mem_range.mp hi)) fun _ => .refl _
    have hclocked : stored.Keeps (· = CAQG.CFG g.val) clocked :=
      .ite (fun _ => hcoils) fun _ => .ite (fun _ => hcoils.same rfl) fun _ => hcoils.same rfl
    exact .ite (fun _ => hown hclocked _) fun _ => hclocked
  exact (hkeeps.f ⟨CAQG.CFG g.val, 0, 26⟩ rfl).trans (s.store_low (caqgCfg_stored g) (by decide) v)

/-- A good CFG of a port in OFF is stored whole. -/
theorem State.caqPortStore_cfg (s : State) {p : Fin 96} {v : Word} (hgood : getBits 4 3 v ≤ 4)
    (hoff : s.f (DPW.CFG_MODE p.val) = 0) : (s.caqPortStore p.val v).f ⟨CAQ.CFG p.val, 0, 10⟩ = v.toNat % 2 ^ 10 := by
  have hcoil (t : State) (b : Bool) (i : Nat) (hi : i < 2) : t.Keeps (· = CAQ.CFG p.val) (t.restartCh (2 * p.val + i) b) := by
    refine (State.Keeps.refl t).restartCh ?_ (fun hch => absurd hch (by omega)) b
    rw [(chValidF_off _).1 (by omega)]
    simp only [CAQ.CFG, CAQ.STAT]
    omega
  have hkeeps : (s.store (CAQ.CFG p.val) v).Keeps (· = CAQ.CFG p.val) (s.caqPortStore p.val v) := by
    unfold State.caqPortStore
    extract_lets old deep ch
    rw [State.judge_good (by simpa using hgood) (by simp [hoff])]
    extract_lets stored
    have hch (t : State) (i : Nat) (hi : i < 2) : t.Keeps (· = CAQ.CFG p.val) (ch i t) :=
      .ite (fun _ => hcoil t _ i hi) fun _ => .refl t
    exact (hch _ 0 (by decide)).trans (hch _ 1 (by decide))
  exact (hkeeps.f ⟨CAQ.CFG p.val, 0, 10⟩ rfl).trans (s.store_low (caqCfg_stored p) (by decide) v)

/-! ## Drive ports (R54, R59, R66) -/

/-- A pending turn-on to high takes place. -/
theorem State.turnOn_high {p k : Nat} (hpend : (s.legU p k).pend ≠ none) (hhigh : (s.legU p k).lvl = .high) :
    (s.turnOn p k).legU p k = { s.legU p k with pend := none, hOn := true } := by
  have hleg : (s.legU p k).turnedOn = { s.legU p k with pend := none, hOn := true } := by
    unfold Leg.turnedOn
    simp [if_neg hpend, hhigh]
  have hset : s.turnOn p k = s.setLeg p k (s.legU p k).turnedOn := if_neg hpend
  rw [hset, hleg]
  exact FMap.get_set_same _ _ _ _

/-- A delayed transition counts as a short pulse. -/
theorem State.delayedTransition_short {p k : Nat} (h : (s.legU p k).delayed ≠ none) :
    (s.delayedTransition p k).on (DPW.STAT_SHORT p) = true := by
  obtain ⟨v, hv⟩ := Option.ne_none_iff_exists'.mp h
  let t := (s.bump (DPW.STAT_SHORT_CNT p)).raise (DPW.STAT_SHORT p)
  have ht : t.on (DPW.STAT_SHORT p) = true := State.raise_on _ _ rfl
  have hkeeps : t.LegKeeps (s.delayedTransition p k) := by
    unfold State.delayedTransition
    simp only [hv]
    exact ((State.LegKeeps.refl t).setLeg _ _ _).legTo _ _ _ _
  exact ((State.Keeps.refl (P := (· = DPW.STAT p)) t).same hkeeps.regs).on (DPW.STAT_SHORT p) rfl |>.trans ht

/-- A stand-alone port notes the end of its period. -/
theorem State.standalone_ended (p : Nat) : ((s.setDpw p { s.dpwU p with ended := true }).dpwU p).ended = true :=
  congrArg DpwPort.ended (FMap.get_set_same _ _ _ _)

/-! ### A period start in OFF -/

/-- What a period start of port `p` in OFF reads, and shows. -/
def startReg (p o : Nat) : Prop := o = DPW.CFG p ∨ o = DPW.PERIOD p ∨ o = DPW.PERACT p ∨ o = LPEG.GCFG

/-- That, and the start of the period, stay. -/
structure State.StartKeeps (p : Nat) (s t : State) : Prop where
  regs : s.Keeps (startReg p) t
  start : (t.dpwU p).start = (s.dpwU p).start

namespace State.StartKeeps
variable {p : Nat}

theorem refl (s : State) : s.StartKeeps p s := ⟨.refl s, rfl⟩

theorem trans (h : s.StartKeeps p t) (h' : t.StartKeeps p u) : s.StartKeeps p u :=
  ⟨h.regs.trans h'.regs, h'.start.trans h.start⟩

theorem same (h : s.StartKeeps p t) (hregs : u.regs = t.regs) (hdpw : u.dpw = t.dpw) : s.StartKeeps p u :=
  ⟨h.regs.same hregs, (congrArg (fun d : FMap DpwPort => (d.get (fun _ => DpwPort.reset) p).start) hdpw).trans h.start⟩

theorem legs (h : s.StartKeeps p t) (h' : t.LegKeeps u) : s.StartKeeps p u := h.same h'.regs h'.dpw

theorem ite {c : Prop} [Decidable c] {a b : State} (ha : s.StartKeeps p a) (hb : s.StartKeeps p b) :
    s.StartKeeps p (if c then a else b) := by
  split
  · exact ha
  · exact hb

theorem foldl {α : Type} {op : State → α → State} {l : List α} (h : s.StartKeeps p t)
    (hop : ∀ u : State, ∀ x ∈ l, u.StartKeeps p (op u x)) : s.StartKeeps p (l.foldl op t) :=
  List.foldlRecOn (motive := fun u : State => s.StartKeeps p u) l op h fun u hu x hx => hu.trans (hop u x hx)

theorem sched (h : s.StartKeeps p t) (dt : Nat) (c : Instr) : s.StartKeeps p (t.sched dt c) := ⟨h.regs, h.start⟩

theorem setF (h : s.StartKeeps p t) {F : Field} (hF : ¬startReg p F.off) (v : Nat) : s.StartKeeps p (t.setF F v) :=
  ⟨h.regs.setF hF v, h.start⟩

/-- A field of STAT. -/
theorem stat (h : s.StartKeeps p t) (F : Field) (hF : F.off = DPW.STAT p) (v : Nat) : s.StartKeeps p (t.setF F v) := by
  refine h.setF ?_ v
  rw [hF]
  simp only [startReg, DPW.STAT, DPW.CFG, DPW.PERIOD, DPW.PERACT, LPEG.GCFG]
  omega

theorem edgesBefore (h : s.StartKeeps p t) (x : Nat) : s.StartKeeps p (t.edgesBefore p x) := by
  refine h.foldl fun u d _ => ?_
  split
  · exact .ite ((refl u).legs ((LegKeeps.refl u).legTo _ _ _ _)) (refl u)
  · exact refl u

theorem mismatch (h : s.StartKeeps p t) (x : Nat) : s.StartKeeps p (t.mismatch p x) := by
  have hflag (b : Bool) : s.StartKeeps p (t.raiseIf b (DPW.STAT_PER_MISMATCH p)) := .ite (h.stat _ rfl 1) h
  have hdpw (b : Bool) (y : DpwPort) (hy : y.start = (t.dpwU p).start) :
      s.StartKeeps p ((t.raiseIf b (DPW.STAT_PER_MISMATCH p)).setDpw p y) :=
    ⟨(hflag b).regs.same rfl, ((congrArg DpwPort.start (FMap.get_set_same _ _ _ _)).trans hy).trans h.start⟩
  exact .ite h (hdpw _ _ rfl)

theorem endForcing (h : s.StartKeeps p t) (x : Nat) : s.StartKeeps p (t.endForcing p x) := by
  unfold State.endForcing
  refine .ite h ((h.stat (DPW.STAT_FORCED p) rfl 0).foldl fun u k _ => ?_)
  exact .ite (.same (refl u) rfl rfl) (.ite (.same (refl u) rfl rfl) (.same (refl u) rfl rfl))

theorem armTrgs (h : s.StartKeeps p t) (len x : Nat) (frame : Bool) : s.StartKeeps p (t.armTrgs p len x frame) := by
  refine h.foldl fun u n _ => .ite ?_ (refl u)
  exact .ite (refl u) (.ite (.ite ((refl u).stat _ rfl 1) (refl u)) ((refl u).same rfl rfl))

theorem chopOn (h : s.StartKeeps p t) (q b : Nat) (ref : Int) : s.StartKeeps p (t.chopOn q b ref) :=
  (h.same (u := (t.setChop q b ⟨.on, t.now, ref⟩).chopStopTimer q b) rfl rfl).legs ((LegKeeps.refl _).bridgeSet _ _ _)

theorem chopRef (h : s.StartKeeps p t) (q b : Nat) (ref : Int) (moves hold : Bool) :
    s.StartKeeps p (t.chopRef q b ref moves hold) := by
  have hset (c : Chop) : s.StartKeeps p (t.setChop q b c) := h.same rfl rfl
  refine .ite (.ite h (hset _)) (.ite h (.ite (hset _) (.ite (.ite (hset _) ?_) (.ite (h.chopOn _ _ _) (hset _)))))
  exact (h.same (u := (t.setChop q b ⟨.zero, t.now, 0⟩).chopStopTimer q b) rfl rfl).legs
    ((LegKeeps.refl _).bridgeSet _ _ _)

theorem chopRest (h : s.StartKeeps p t) (q v : Nat) (st : ChopState) : s.StartKeeps p (t.chopRest q v st) :=
  h.foldl fun u b _ => ((refl u).same (u := (u.setChop q b { u.chop q b with st := st }).chopStopTimer q b) rfl rfl).legs
    ((LegKeeps.refl _).bridgeSet _ _ _)

theorem chopIdle (h : s.StartKeeps p t) (q : Nat) : s.StartKeeps p (t.chopIdle q) :=
  h.foldl fun u _ _ => (refl u).same rfl rfl

/-- The references of a stepper. -/
theorem stepRefs (h : s.StartKeeps p t) (hp : p < 96) : s.StartKeeps p (t.stepRefs p) := by
  unfold State.stepRefs
  refine .ite (.ite h (h.chopIdle _)) ?_
  extract_lets moves moved still mode hold rested i
  have hmoved : s.StartKeeps p moved := by
    refine .ite (h.setF ?_ 0) h
    simp only [startReg, PRG.STAT_STANDSTILL, PRG.STAT, DPW.CFG, DPW.PERIOD, DPW.PERACT, LPEG.GCFG]
    omega
  have hrested : s.StartKeeps p rested := .ite (.ite hmoved (hmoved.chopRest _ _ _)) hmoved
  generalize coilRefs _ _ _ = refs
  exact (hrested.chopRef _ _ _ _ _).chopRef _ _ _ _ _

end State.StartKeeps

/-- A period start in OFF takes its time and the period that the port has. -/
theorem State.periodStart_off {p : Nat} (hp : p < 96) (hoff : s.f (DPW.CFG_MODE p) = 0) (x : Nat) (coin : Bool) :
    (((s.periodStart p x coin).stepRefs p).dpwU p).start = x
      ∧ ((s.periodStart p x coin).stepRefs p).f (DPW.PERACT_PER p)
        = (if s.on (DPW.CFG_SYNC p) then s.f (DPW.PERIOD_PER p) else 1000000 / 2 ^ s.f LPEG.GCFG_FLE) := by
  unfold State.periodStart
  extract_lets edges cleared cut port noted alone loaded forced per armed
  have hcut : s.StartKeeps p cut := (((State.StartKeeps.refl s).mismatch x).edgesBefore x).same rfl rfl
  have hnoted : s.Keeps (startReg p) noted := hcut.regs.same rfl
  have hstart : (noted.dpwU p).start = x := congrArg DpwPort.start (FMap.get_set_same _ _ _ _)
  have hmode : noted.f (DPW.CFG_MODE p) = 0 := (hnoted.f (DPW.CFG_MODE p) (.inl rfl)).trans hoff
  have halone : alone = s.on (DPW.CFG_SYNC p) := hnoted.on (DPW.CFG_SYNC p) (.inl rfl)
  have hperiod : noted.f (DPW.PERIOD_PER p) = s.f (DPW.PERIOD_PER p) := hnoted.f (DPW.PERIOD_PER p) (.inr (.inl rfl))
  have hfle : noted.f LPEG.GCFG_FLE = s.f LPEG.GCFG_FLE := hnoted.f LPEG.GCFG_FLE (.inr (.inr (.inr rfl)))
  have hloaded : loaded = noted.setF (DPW.PERACT_PER p) (if alone then noted.f (DPW.PERIOD_PER p) else noted.frameUnits) := by
    simp only [loaded, hmode]
  have hper : loaded.f (DPW.PERACT_PER p)
      = if s.on (DPW.CFG_SYNC p) then s.f (DPW.PERIOD_PER p) else 1000000 / 2 ^ s.f LPEG.GCFG_FLE := by
    rw [hloaded, State.setF_f _ _ _ rfl, halone, hperiod, State.frameUnits, hfle]
    refine Nat.mod_eq_of_lt ?_
    split
    · exact Nat.mod_lt _ (Nat.two_pow_pos _)
    · exact lt_of_le_of_lt (Nat.div_le_self _ _) (by decide : 1000000 < 2 ^ 25)
  have hbegun : (loaded.dpwU p).start = x := by
    rw [hloaded]
    exact hstart
  clear_value loaded
  have harmed : loaded.StartKeeps p armed := ((State.StartKeeps.refl loaded).endForcing x).armTrgs _ _ _
  have hend : loaded.StartKeeps p ((if alone then armed.sched (armed.ticksTo (x + per) + 2)
      (.standalonePeriodEnd (Fin.ofNat 96 p)) else armed).stepRefs p) := (State.StartKeeps.ite (harmed.sched _ _) harmed).stepRefs hp
  exact ⟨hend.start.trans hbegun, (hend.regs.f (DPW.PERACT_PER p) (.inr (.inr (.inl rfl)))).trans hper⟩

/-! ## Any register (R401) -/

/-- A write of PWS_STAT stores it by its row. -/
theorem exec_registerWrite_pwsStat {row : RegRow} {v hw : Word} (h : s.reaches m PWS.STAT) (hrow : regRow PWS.STAT = some row) :
    exec (.registerWrite m PWS.STAT 4 v hw) s
      = .next ((s.answer .done).wr PWS.STAT (regWrite row (s.rd PWS.STAT) v hw)) := by
  have hreg : hasReg PWS.STAT = true := by
    unfold hasReg
    rw [hrow]
    rfl
  rw [exec_registerWrite_word (by decide), State.busWrite, if_pos (by simp [hreg]), h.busW_eq, State.writeReg_pwsStat,
    State.store_eq hrow]
  rfl

/-- A write in the window is a store, and no register changes. -/
theorem exec_registerWrite_stores {o : Nat} {v hw : Word} (ho : o < 0x400000) (h : s.reaches m (0x03000000 + 4 * o)) :
    ∃ t : State, exec (.registerWrite m (0x03000000 + 4 * o) 4 v hw) s = .next t
      ∧ t.load .shared (4 * o) 4 = v.toNat ∧ t.regs = s.regs := by
  have hwin : atWindow (0x03000000 + 4 * o) = true := (atWindow_iff _).mpr (by omega)
  have hexec := exec_registerWrite_window (v := v) (hw := hw) h (by omega) hwin
  rw [Nat.add_sub_cancel_left] at hexec
  obtain ⟨hload, -⟩ := exec_registerWrite_window_effect s hexec h (by omega) hwin
  rw [Nat.add_sub_cancel_left] at hload
  exact ⟨_, hexec, hload, State.put_regs _ _ _ _ _⟩

end Sys2Proof.Machine
end

section
/-! PROOF of the statement OwnEffects, tokens (R318, R327 to R329, R333) and the recorder (R432 to R436). -/

namespace Sys2Proof.Machine

variable {s t u : State} {m : Sys2Proof.Master}

/-! ## Tokens -/

/-- What sends token `k` to the store: no case takes it before, and there is room. -/
structure State.storesToken (s : State) (k : Token) : Prop where
  notSolver : s.f NMG.TAGS_CMD_TAG ≠ k.tag.toNat
  noWaiter : s.waiterFor k.tag.toNat = none
  room : s.clv.store.length < 4096

theorem State.storesToken.admits {k : Token} (h : s.storesToken k) : s.admitToken k
    = some (State.setF { s with clv := { s.clv with store := s.clv.store ++ [k] } } CLV.STORE_V (s.clv.store ++ [k]).length) := by
  obtain ⟨hsolver, hwaiter, hroom⟩ := h
  unfold State.admitToken
  rw [if_neg (by simpa using hsolver)]
  simp only [hwaiter]
  exact if_pos hroom

/-- A token that nothing holds up is stored. -/
theorem State.arriveToken_stores {k : Token} {tb : Bool} (h : s.storesToken k) (hfull : s.queueFull = false)
    (hfifo : s.clv.fifo = []) (htag : k.refused tb = false) (hpark : s.parked (queueOf k.tag) = 0) :
    (s.arriveToken k tb).clv.store = s.clv.store ++ [k] := by
  have htaken : s.arriveToken k tb = (s.admitToken k).getD (s.park k) := by
    unfold State.arriveToken State.takeToken
    rw [if_neg (by simp [hfull, hfifo]), if_neg (by simp [htag]), if_neg (by simpa using h.notSolver),
      if_neg (by simp [hpark])]
  rw [htaken, h.admits]
  rfl

theorem Token.refused_iff {k : Token} {tb : Bool} : k.refused tb = false
    ↔ k.tag ≠ 0#16 ∧ (tb = true ∨ ¬(0xFF00 ≤ k.tag.toNat ∧ k.tag.toNat ≤ 0xFF07)) := by
  cases tb <;> simp [Token.refused]

theorem execTokenArrive_clv (tag : BitVec 16) (v : Word) (tb : Bool) :
    ∃ t : State, execTokenArrive tag v tb s = .next t ∧ t.clv = (s.arriveToken ⟨tag, v, 0⟩ tb).clv := by
  refine ⟨_, rfl, ?_⟩
  split <;> rfl

theorem State.overflow_on : s.overflow.on CLV.STAT_OVF_FULL = true :=
  (State.sched_on _ _ _ _).trans ((State.cancel_on _ _ _).trans ((State.recordStat_on _ _ _ _ _ _ _).trans
    (s.raise_on CLV.STAT_OVF_FULL rfl)))

/-- The only token parked goes to the store. -/
theorem State.overflowDrain_stores {k : Token} (hpark : s.clv.park = [k]) (hfifo : s.clv.fifo = []) (h : s.storesToken k) :
    s.overflowDrain.clv.park = [] ∧ s.overflowDrain.clv.store = s.clv.store ++ [k] := by
  have hclv : (s.drainHeads [k]).clv = { s.clv with store := s.clv.store ++ [k], park := [] } := by
    have herase : s.clv.park.erase k = [] := by
      rw [hpark]
      simp
    refine Eq.trans (b := { s.clv with store := s.clv.store ++ [k], park := s.clv.park.erase k }) ?_ (by rw [herase])
    unfold State.drainHeads
    rw [h.admits]
    dsimp only
    split <;> rfl
  have hheads : heads s.clv.park = [k] := by
    rw [hpark]
    rfl
  have hdrain : s.overflowDrain = s.drainHeads [k] := by
    unfold State.overflowDrain
    rw [hheads]
    dsimp only
    rw [hclv, hfifo]
    rfl
  rw [hdrain, hclv]
  exact ⟨rfl, rfl⟩

/-- The low half of a word. -/
theorem ofNat_getBits_low (v : Word) : BitVec.ofNat 16 (getBits 0 16 v) = v.setWidth 16 := by
  refine BitVec.eq_of_toNat_eq ?_
  simp [getBits]

theorem State.clvPost_clvIn (v : Word) :
    (s.clvPost m v).clvIn = s.clvIn ++ [⟨v.setWidth 16, s.bankRd m CLV.POST_VAL, 2000 + m.idx⟩] := by
  unfold State.clvPost State.token
  rw [ofNat_getBits_low]

/-- The graph stops with the result. -/
theorem State.graphStop_gend (res : Nat) : (s.graphStop res).clv.gend = some res := by
  have hfold : ∀ u : State, u.clv.gend = some res → ((List.range 15).foldl (fun (u : State) e =>
      if (u.runningOn e).isNone then (u.setIncoming e none).undue (fun v => decide (v = .engineGo e)) else u) u).clv.gend
        = some res := by
    intro u hu
    refine List.foldlRecOn (motive := fun w : State => w.clv.gend = some res) _ _ hu fun w hw e _ => ?_
    split
    · exact hw
    · exact hw
  unfold State.graphStop
  dsimp only
  split
  · exact hfold _ rfl
  · exact hfold _ rfl

theorem State.nodeLimit_gend {e w : Nat} (hrun : s.runningOn e = some w) (hgraph : s.graphMode = true) :
    (s.nodeLimit e).clv.gend = some 9 := by
  unfold State.nodeLimit
  simp only [hrun, hgraph, if_true]
  exact State.graphStop_gend 9

/-! ## The recorder -/

theorem State.bufAdmit_ansIn (r : Rec) : (s.bufAdmit r).ansIn = s.ansIn := by
  have hflush (u : State) (hu : u.ansIn = s.ansIn) : u.flushReq.ansIn = s.ansIn := u.flushReq_frame.2.2.trans hu
  have hput (u : State) (hu : u.ansIn = s.ansIn) (r : Rec) : (if decide (r.sev = 4) || decide (r.sev = 5)
      || decide (8192 ≤ (u.bufPut r).ans.buf.length) then (u.bufPut r).flushReq else u.bufPut r).ansIn = s.ansIn := by
    split
    · exact hflush _ hu
    · exact hu
  unfold State.bufAdmit
  dsimp only
  split
  · rfl
  · refine hput _ ?_ r
    split <;> rfl

/-- The only record that waits is judged, and none waits after it. -/
theorem State.recordAdmit_ansIn {r : Rec} (h : s.ansIn = [r]) : s.recordAdmit.ansIn = [] := by
  have herase : s.ansIn.erase r = [] := by
    rw [h]
    simp
  have hfirst : firstRec s.ansIn = some r := by
    rw [h]
    rfl
  unfold State.recordAdmit
  rw [hfirst]
  refine Eq.trans ?_ herase
  dsimp only
  unfold State.judgeRec
  dsimp only
  split
  · exact State.bufAdmit_ansIn _
  · split
    · exact State.bufAdmit_ansIn _
    · rfl

/-- A posted record waits for its admission. -/
theorem State.ansPost_records {v : Word} (hcode : 0x8000 ≤ getBits 0 16 v) (hsev : getBits 16 4 (s.bankRd m ANS.POSTSRC) ≤ 5) :
    ∃ x : Rec, (s.ansPost m v).ansIn = s.ansIn ++ [x] ∧ x.code = v.setWidth 16 := by
  unfold State.ansPost
  dsimp only
  rw [if_neg (by omega)]
  refine ⟨_, rfl, ?_⟩
  dsimp only
  rw [← ofNat_getBits_low]
  congr 1
  omega

/-- What a flush leaves of its own state: whether one runs, and up to where. -/
structure State.FlushKeeps (s t : State) : Prop where
  flushing : t.on ANS.STAT_FLUSHING = s.on ANS.STAT_FLUSHING
  flushTo : t.ans.flushTo = s.ans.flushTo

namespace State.FlushKeeps

theorem refl (s : State) : s.FlushKeeps s := ⟨rfl, rfl⟩

theorem trans (h : s.FlushKeeps t) (h' : t.FlushKeeps u) : s.FlushKeeps u :=
  ⟨h'.flushing.trans h.flushing, h'.flushTo.trans h.flushTo⟩

theorem same (h : s.FlushKeeps t) (hregs : u.regs = t.regs) (hans : u.ans.flushTo = t.ans.flushTo) : s.FlushKeeps u :=
  ⟨((State.Keeps.refl (P := (· = ANS.STAT)) t).same hregs).on ANS.STAT_FLUSHING rfl |>.trans h.flushing, hans.trans h.flushTo⟩

theorem setF (h : s.FlushKeeps t) {F : Field} (hok : F.ok = true) (hF : F.beside ANS.STAT_FLUSHING = true) (v : Nat) :
    s.FlushKeeps (t.setF F v) :=
  ⟨(t.setF_on_beside _ _ v hok hF).trans h.flushing, h.flushTo⟩

theorem setF_apart (h : s.FlushKeeps t) {F : Field} (hF : ANS.STAT ≠ F.off) (v : Nat) : s.FlushKeeps (t.setF F v) :=
  ⟨(t.setF_on_apart ANS.STAT_FLUSHING F v hF).trans h.flushing, h.flushTo⟩

theorem setAnsTail (h : s.FlushKeeps t) (n : Nat) : s.FlushKeeps (t.setAnsTail n) := by
  have hlow : s.FlushKeeps (t.wrN ANS.TAIL_L n) :=
    ⟨(((State.Keeps.refl (P := (· = ANS.STAT)) t).wr (o := ANS.TAIL_L) (by decide) _).on ANS.STAT_FLUSHING rfl).trans h.flushing,
      h.flushTo⟩
  exact hlow.setF_apart (F := ANS.TAIL_H_V) (by decide) _

theorem put (h : s.FlushKeeps t) (mm : MemId) (a n v : Nat) : s.FlushKeeps (t.put mm a n v) := by
  rw [State.put_eq]
  exact ⟨h.flushing, h.flushTo⟩

theorem setEcc (h : s.FlushKeeps t) (l : List Config.EccErr) : s.FlushKeeps { t with ecc := l } := ⟨h.flushing, h.flushTo⟩

/-- A record goes to the log. -/
theorem logged (h : s.FlushKeeps t) (i : Nat) (r : Rec) (j : Nat) : s.FlushKeeps ((t.logPut i r).logEcc j) := by
  have hput : s.FlushKeeps (t.logPut i r) := h.put _ _ _ _
  unfold State.logEcc
  split
  · exact hput.setEcc _
  · exact hput

theorem flushOut (h : s.FlushKeeps t) (n : Nat) : s.FlushKeeps (t.flushOut n) := by
  unfold State.flushOut
  extract_lets first out logged gone ans kept filled
  have hlogged : s.FlushKeeps logged := List.foldlRecOn (motive := fun u : State => s.FlushKeeps u) _ _ h
    fun u hu e _ => hu.logged _ _ _
  exact (FlushKeeps.setF (F := ANS.STAT_FILL) (hlogged.same (u := kept) rfl rfl) rfl rfl _).setAnsTail _

end State.FlushKeeps

theorem State.FlushKeeps.afterFlush (h : s.FlushKeeps t) : s.FlushKeeps t.afterFlush := by
  unfold State.afterFlush
  split
  · exact h.same rfl rfl
  · exact h

/-- A flush that ends runs no more. -/
theorem State.flushEnd_ended (good : Bool) :
    (s.flushEnd good).on ANS.STAT_FLUSHING = false ∧ (s.flushEnd good).ans.flushTo = none := by
  unfold State.flushEnd
  extract_lets first want cleared ans ended timed failed out
  have hended : ended.on ANS.STAT_FLUSHING = false := cleared.setF_zero_on ANS.STAT_FLUSHING rfl
  have htimed : ended.FlushKeeps timed := (State.FlushKeeps.refl ended).same rfl rfl
  have hgood : ended.FlushKeeps ((timed.flushOut want).bumpMod ANS.CNT_FLUSHES) :=
    (htimed.flushOut want).setF_apart (F := ANS.CNT_FLUSHES) (by decide) _
  have hfailed : ended.FlushKeeps failed :=
    ((htimed.same (u := timed.tickFree) rfl rfl).flushOut _).setF (F := ANS.STAT_FLUSH_ERR) rfl rfl 1
  have hchosen : ended.FlushKeeps out := by
    dsimp only [out]
    split
    · exact hgood
    · exact hfailed.same rfl rfl
  have hout := hchosen.afterFlush
  exact ⟨hout.flushing.trans hended, hout.flushTo⟩

end Sys2Proof.Machine
end

section
/-! PROOF of the statement OwnEffects, the Capture Engine (R303 to R311). -/

namespace Sys2Proof.Machine

variable {s t u : State}

/-! ## Arming (R303, R307) -/

/-- Does the next record find no room? -/
def State.capOver (s : State) : Prop := capRing < s.capFill + capSize s.capChans.length s.capRows

/-- The engine's own record changes no field. -/
theorem State.cap_f (s : State) (c : Cap) (F : Field) : State.f { s with cap := c } F = s.f F := rfl

theorem State.capArm_waits (h : s.capOver) : s.capArm.f CAP.STAT_STATE = capWAIT := by
  unfold State.capArm
  extract_lets fill waiting src
  rw [if_pos (show capRing < fill + capSize s.capChans.length s.capRows from h)]
  exact (waiting.cap_f _ _).trans (State.setF_f _ CAP.STAT_STATE capWAIT rfl)

/-- With room the engine arms and goes on by MODE and PRE. -/
theorem State.capArm_goes (h : ¬s.capOver) : s.capArm.cap.live = true ∧ s.capArm.f CAP.STAT_STATE
    = (if s.f CAP.CFG_MODE = 2 then capPOST else if s.f CAP.LEN_PRE = 0 then capARMED else capFILL) % 8 := by
  unfold State.capArm
  extract_lets fill waiting src dec dec' decided cont st shown cap
  rw [if_neg (show ¬capRing < fill + capSize s.capChans.length s.capRows from h)]
  have hdecided : s.Keeps (· ≠ CAP.STAT) decided := ((State.Keeps.refl s).raiseIf (F := CAP.STAT_DEC_UP) (by decide) _).setF
    (F := CAP.STAT_DEC) (by decide) _
  have hmode : decided.f CAP.CFG_MODE = s.f CAP.CFG_MODE := hdecided.f CAP.CFG_MODE (by decide)
  have hpre : decided.f CAP.LEN_PRE = s.f CAP.LEN_PRE := hdecided.f CAP.LEN_PRE (by decide)
  have hst : st = if s.f CAP.CFG_MODE = 2 then capPOST else if s.f CAP.LEN_PRE = 0 then capARMED else capFILL := by
    simp only [st, cont, hmode, hpre, decide_eq_true_eq]
  refine ⟨rfl, ?_⟩
  rw [← hst]
  exact (shown.cap_f _ _).trans (decided.setF_f CAP.STAT_STATE st rfl)

/-- START of an engine with an empty ring and a record that fits fills. -/
theorem State.capStart_fills (hidle : s.f CAP.STAT_STATE = 0) (hrun : s.mstate = 5) (hchans : s.capChans ≠ [])
    (hmode : s.f CAP.CFG_MODE ≠ 2) (hpre : 1 ≤ s.f CAP.LEN_PRE) (hsrc : s.f CAP.TRIG_SRC ≠ 0)
    (hsize : capSize s.capChans.length s.capRows ≤ 1048576) (hempty : s.rd CAP.WRPTR = s.rd CAP.RDPTR)
    (hdones : s.cap.dones = []) : s.capStart.f CAP.STAT_STATE = 1 ∧ s.capStart.cap.live = true := by
  let v : State := { s.setF CAP.STAT_DEC (s.f CAP.CFG_DEC_MIN) with cap := { s.cap with seq := 0, missed := 0, noRoom := false } }
  have hv : s.Keeps (· ≠ CAP.STAT) v := ((State.Keeps.refl s).setF (F := CAP.STAT_DEC) (by decide) _).same rfl
  have hstart : s.capStart = v.capArm := by
    have hserves : s.isIn [stREADY, stRUN, stSAFE] = true := by
      unfold State.isIn
      rw [hrun]
      rfl
    unfold State.capStart
    dsimp only
    rw [if_neg (by simp [hidle, capIDLE]), State.judge_good (by simp [hchans, hsrc, hsize]) (by rw [hserves]; rfl)]
    rfl
  have hchansV : v.capChans = s.capChans :=
    List.filter_congr fun c _ => hv.on (CAP.CH_EN c) (by simp only [CAP.CH_EN, CAP.CH, CAP.STAT]; omega)
  have hmodeV : v.f CAP.CFG_MODE = s.f CAP.CFG_MODE := hv.f CAP.CFG_MODE (by decide)
  have hpreV : v.f CAP.LEN_PRE = s.f CAP.LEN_PRE := hv.f CAP.LEN_PRE (by decide)
  have hrowsV : v.capRows = s.capRows := by
    rw [State.capRows, hmodeV, hpreV, hv.f CAP.LEN_POST (by decide), State.capRows]
  have hfill : v.capFill = 0 := by
    have hd : v.cap.dones = [] := hdones
    rw [State.capFill, hv CAP.WRPTR (by decide), hv CAP.RDPTR (by decide), hempty, hd]
    simp
  have hroom : ¬v.capOver := by
    rw [State.capOver, hfill, hchansV, hrowsV, capRing]
    omega
  obtain ⟨hlive, hst⟩ := State.capArm_goes hroom
  rw [hstart]
  refine ⟨?_, hlive⟩
  rw [hst, if_neg (by rwa [hmodeV]), if_neg (by rw [hpreV]; omega)]
  rfl

/-- In CONT the engine samples on or waits. -/
theorem State.capArm_cont (hmode : s.f CAP.CFG_MODE = 2) :
    s.capArm.f CAP.STAT_STATE = 3 ∨ s.capArm.f CAP.STAT_STATE = 5 := by
  by_cases h : s.capOver
  · exact .inr (State.capArm_waits h)
  · refine .inl ?_
    rw [(State.capArm_goes h).2, if_pos hmode]
    rfl

/-! ## STOP, triggers, commits (R304, R305, R310) -/

theorem State.capIdle_state (s : State) : s.capIdle.f CAP.STAT_STATE = 0 := s.setF_f CAP.STAT_STATE capIDLE rfl

theorem State.capStop_idle (h : s.f CAP.STAT_STATE ≠ 0) : s.capStop.f CAP.STAT_STATE = 0 := by
  have hend (u : State) : u.capEnd.f CAP.STAT_STATE = 0 := by
    unfold State.capEnd
    split
    · exact State.capIdle_state _
    · exact State.capIdle_state _
  unfold State.capStop
  rw [if_neg (show ¬s.f CAP.STAT_STATE = capIDLE from h)]
  dsimp only
  split
  · exact State.capIdle_state _
  · exact hend s

/-- What accepts a trigger of this tick. -/
structure State.capReady (s : State) : Prop where
  state : s.f CAP.STAT_STATE = 1 ∨ s.f CAP.STAT_STATE = 2
  mode : s.f CAP.CFG_MODE ≠ 2
  first : s.cap.trigAt ≠ some s.now
  between : s.cap.rowAt ≠ some s.now
  post : 1 ≤ s.f CAP.LEN_POST

theorem State.capReady.answered (h : s.capReady) : (s.answer .done).capReady :=
  ⟨h.state, h.mode, h.first, h.between, h.post⟩

/-- A record that lacks rows goes on. -/
theorem State.capCheck_short (h : s.cap.rows.length - s.cap.npre < s.f CAP.LEN_POST) : s.capCheck = s := by
  unfold State.capCheck
  rw [if_neg]
  simp only [Bool.and_eq_true, decide_eq_true_eq, not_and, Nat.not_le]
  exact fun _ => h

/-- An accepted trigger begins POST. -/
theorem State.capTrig_posts (h : s.capReady) (x : CapTrig) : (s.capTrig x).f CAP.STAT_STATE = 3 := by
  obtain ⟨hstate, hmode, hfirst, hbetween, hpost⟩ := h
  have hbusy : ¬s.f CAP.STAT_STATE = capIDLE := by
    simp only [capIDLE]
    omega
  unfold State.capTrig
  extract_lets c st seen pre here rows npre posting cap
  rw [if_neg hfirst, if_neg (fun h => hbusy h.1), if_neg hmode, if_neg hbusy, if_pos (show st = capFILL ∨ st = capARMED from hstate)]
  have hhere : here = false := decide_eq_false hbetween
  have hkeep : s.Keeps (· ≠ CAP.STAT) posting := ((State.Keeps.refl s).same (u := seen) rfl).setF (F := CAP.STAT_STATE) (by decide) _
  rw [State.capCheck_short]
  · exact (posting.cap_f _ _).trans (seen.setF_f CAP.STAT_STATE capPOST rfl)
  · rw [posting.cap_f, hkeep.f CAP.LEN_POST (by decide)]
    show rows.length - npre < _
    simp only [npre, hhere, Bool.toNat_false]
    omega

/-- A selected event is a trigger. -/
theorem execCapTrigger_posts {ev : CapEvent} (hsel : s.capSelects ev = true) (h : s.capReady) (ns : Word) (frac : Fin 32) (wc : Byte) :
    ∃ t : State, execCapTrigger ev ns frac wc s = .next t ∧ t.f CAP.STAT_STATE = 3 := by
  unfold execCapTrigger
  rw [if_pos hsel]
  exact ⟨_, rfl, State.capTrig_posts h _⟩

/-- The end of a hold-off in CONT. -/
theorem State.capRearm_cont (hstate : s.f CAP.STAT_STATE = 4) (hat : s.cap.rearmAt = some s.now) (hmode : s.f CAP.CFG_MODE = 2) :
    s.capRearm.f CAP.STAT_STATE = 3 ∨ s.capRearm.f CAP.STAT_STATE = 5 := by
  unfold State.capRearm
  rw [if_pos ⟨hstate, hat⟩]
  exact State.capArm_cont hmode

/-! ## Commits and the read pointer (R310) -/

/-- What a step of a commit keeps: CAP_STAT and the engine's own record. -/
structure State.CapKeeps (s t : State) : Prop where
  stat : s.Keeps (· = CAP.STAT) t
  cap : t.cap = s.cap

namespace State.CapKeeps

theorem refl (s : State) : s.CapKeeps s := ⟨State.Keeps.refl s, rfl⟩

theorem trans (h : s.CapKeeps t) (h' : t.CapKeeps u) : s.CapKeeps u := ⟨h.stat.trans h'.stat, h'.cap.trans h.cap⟩

theorem wr (h : s.CapKeeps t) {o : Nat} (ho : o ≠ CAP.STAT) (v : Word) : s.CapKeeps (t.wr o v) := ⟨h.stat.wr ho v, h.cap⟩

theorem setByte (h : s.CapKeeps t) (m : MemId) (a : Nat) (v : Byte) : s.CapKeeps (t.setByte m a v) := ⟨h.stat, h.cap⟩

theorem ringPut (l : List Byte) (v : Nat) (h : s.CapKeeps t) : s.CapKeeps (t.ringPut v l) := by
  induction l generalizing t v with
  | nil => exact h
  | cons b bs ih => exact ih (v + 1) (h.setByte _ _ b)

theorem sent (h : s.CapKeeps t) (m : FMap Nat) : s.CapKeeps { t with msixSent := m } := ⟨h.stat, h.cap⟩

theorem msix (h : s.CapKeeps t) {v : Nat} (hv : v < 64) : s.CapKeeps (t.msix v) := by
  unfold State.msix
  split
  · exact h.wr (by simp only [MSIXP.PBA, CAP.STAT]; omega) _
  · exact h.sent _

theorem token (h : s.CapKeeps t) (tag : Nat) (v : Word) (r : Nat) : s.CapKeeps (t.token tag v r) := ⟨h.stat, h.cap⟩

end State.CapKeeps

/-- The record that is committed shows REC. -/
theorem State.capCommitRec_shown (d : CapDone) :
    (s.capCommitRec d).on CAP.STAT_REC = true ∧ (s.capCommitRec d).cap = s.cap := by
  unfold State.capCommitRec
  extract_lets w put at_ told tag
  have hat : s.CapKeeps at_ := ((State.CapKeeps.refl s).ringPut d.bytes w).wr (by decide) _
  clear_value at_
  have hvec (u : State) : u.f HQ.EVCFG_VEC < 64 := Nat.mod_lt _ (by decide)
  have htold : (at_.raise CAP.STAT_REC).CapKeeps told := by
    refine .trans (t := (at_.raise CAP.STAT_REC).bumpMod CAP.CNT_RECORDS) (.wr (.refl _) (by decide) _) ?_
    unfold told State.hqEvent
    split
    · exact .msix (.wr (.refl _) (by decide) _) (hvec _)
    · exact .refl _
  have hend : (at_.raise CAP.STAT_REC).CapKeeps (if tag = 0 then told else told.token tag (BitVec.ofNat 32 d.seq) 400) := by
    split
    · exact htold
    · exact htold.token ..
  exact ⟨(hend.stat.on CAP.STAT_REC rfl).trans (at_.raise_on CAP.STAT_REC rfl), hend.cap.trans hat.cap⟩

theorem State.capSingleEnd_shown : s.capSingleEnd.on CAP.STAT_REC = s.on CAP.STAT_REC ∧ s.capSingleEnd.cap.dones = s.cap.dones := by
  unfold State.capSingleEnd
  split
  · exact ⟨s.setF_on_beside (G := CAP.STAT_REC) CAP.STAT_STATE capIDLE rfl rfl, rfl⟩
  · exact ⟨rfl, rfl⟩

/-- The oldest complete record is committed. -/
theorem State.capCommit_takes {d : CapDone} {ds : List CapDone} (h : s.cap.dones = d :: ds) :
    s.capCommit.cap.dones = ds ∧ s.capCommit.on CAP.STAT_REC = true := by
  have hcommit : s.capCommit = (State.capCommitRec { s with cap := { s.cap with dones := ds } } d).capSingleEnd := by
    unfold State.capCommit
    rw [h]
  obtain ⟨hrec, hcap⟩ := State.capCommitRec_shown (s := { s with cap := { s.cap with dones := ds } }) d
  rw [hcommit]
  exact ⟨State.capSingleEnd_shown.2.trans (congrArg Cap.dones hcap), State.capSingleEnd_shown.1.trans hrec⟩

/-- A read pointer up to the write pointer is taken. -/
theorem State.rdptrWrite_takes {v : Word} (halign : v.toNat % 64 = 0)
    (hahead : (v - s.rd CAP.RDPTR).toNat ≤ (s.rd CAP.WRPTR - s.rd CAP.RDPTR).toNat) : (s.rdptrWrite v).rd CAP.RDPTR = v := by
  unfold State.rdptrWrite
  dsimp only
  rw [if_neg (by omega)]
  exact State.rd_wr_same _ _ _

end Sys2Proof.Machine
end

section
/-! PROOF of the statement OwnEffects, the field channels (R290 to R299). -/

namespace Sys2Proof.Machine

variable {s t u : State}

/-! ## The outputs (R292, R296) -/

/-- The field record changes no register. -/
theorem State.fio_keeps {P : Nat → Prop} (s : State) (f : Fio) : s.Keeps P { s with fio := f } := (State.Keeps.refl s).same rfl

/-- The word of the bits that `p` names. -/
theorem foldl_pow_testBit (p : Nat → Bool) (n : Nat) :
    ((List.range n).foldl (fun w c => if p c then w + 2 ^ c else w) 0) < 2 ^ n
      ∧ ∀ k < n, ((List.range n).foldl (fun w c => if p c then w + 2 ^ c else w) 0).testBit k = p k := by
  induction n with
  | zero => exact ⟨Nat.one_pos, fun _ h => absurd h (Nat.not_lt_zero _)⟩
  | succ n ih =>
    obtain ⟨hlt, hbit⟩ := ih
    rw [List.range_succ, List.foldl_append, List.foldl_cons, List.foldl_nil]
    generalize (List.range n).foldl (fun w c => if p c then w + 2 ^ c else w) 0 = w at hlt hbit
    have hpow : 2 ^ (n + 1) = 2 ^ n + 2 ^ n := by omega
    cases hp : p n with
    | false =>
      refine ⟨by rw [if_neg Bool.false_ne_true]; omega, fun k hk => ?_⟩
      rw [if_neg Bool.false_ne_true]
      rcases Nat.lt_succ_iff_lt_or_eq.mp hk with hlow | rfl
      · exact hbit k hlow
      · rw [Nat.testBit_lt_two_pow hlt, hp]
    | true =>
      refine ⟨by rw [if_pos rfl]; omega, fun k hk => ?_⟩
      rw [if_pos rfl, Nat.add_comm]
      rcases Nat.lt_succ_iff_lt_or_eq.mp hk with hlow | rfl
      · rw [Nat.testBit_two_pow_add_gt hlow, hbit k hlow]
      · rw [Nat.testBit_two_pow_add_eq, Nat.testBit_lt_two_pow hlt, hp]
        rfl

theorem State.fioSince_keeps (l : List Nat) (s : State) : (l.foldl State.fioSince s).regs = s.regs :=
  List.foldlRecOn (motive := fun u : State => u.regs = s.regs) l _ rfl fun _ hu _ _ => hu

/-- FIO_OUTACT alone follows the outputs. -/
theorem State.fioUpdate_keeps (s : State) : s.Keeps (· ≠ FIO.OUTACT) s.fioUpdate :=
  ((State.Keeps.refl s).same (State.fioSince_keeps _ s)).wr (fun h => h rfl) _

/-- FIO_OUTACT shows what a channel drives. -/
theorem State.fioUpdate_drives (s : State) {c : Nat} (hc : c < 32) :
    (s.fioUpdate.rd FIO.OUTACT).getLsbD c = s.fioDrives c := by
  obtain ⟨-, hbit⟩ := foldl_pow_testBit s.fioDrives 32
  unfold State.fioUpdate
  dsimp only
  rw [State.wrN, State.rd_wr_same, BitVec.getLsbD_ofNat, hbit c hc, decide_eq_true hc, Bool.true_and]

namespace State.Keeps
variable {P : Nat → Prop}

theorem fioUpdate (h : s.Keeps P t) (hP : ¬P FIO.OUTACT) : s.Keeps P t.fioUpdate :=
  fun o ho => (t.fioUpdate_keeps o fun e => hP (e ▸ ho)).trans (h o ho)

theorem fioIn (h : s.Keeps P t) (hP : ¬P FIO.IN) (c : Nat) (b : Bool) : s.Keeps P (t.fioIn c b) := h.flag hP _

theorem sched (h : s.Keeps P t) (d : Nat) (c : Instr) : s.Keeps P (t.sched d c) := h

theorem fioInBy {f : State → State} (h : s.Keeps P (f t)) (c : Nat) : s.Keeps P (t.fioInBy c f) := by
  unfold State.fioInBy
  dsimp only
  exact .ite (fun _ => h) fun _ => h.sched _ _

end State.Keeps

/-- An input that takes a level changes FIO_IN alone. -/
theorem State.fioLevel_keeps {P : Nat → Prop} (s : State) (hP : ¬P FIO.IN) (c : Nat) (b : Bool) :
    s.Keeps P (s.fioInBy c (·.fioIn c b)) :=
  State.Keeps.fioInBy (f := (·.fioIn c b)) ((State.Keeps.refl s).fioIn hP c b) c

/-- A write of the commanded outputs takes the bits that the mask names. -/
theorem State.fioOut_out (s : State) (mask v : Word) : (s.fioOut mask v).rd FIO.OUT = (s.rd FIO.OUT &&& ~~~mask) ||| (v &&& mask) := by
  have hwritten : (s.wr FIO.OUT ((s.rd FIO.OUT &&& ~~~mask) ||| (v &&& mask))).Keeps (· = FIO.OUT) (s.fioOut mask v) :=
    ((State.Keeps.refl _).same rfl).fioUpdate (by decide)
  rw [hwritten _ rfl, State.rd_wr_same]

theorem word_keep_set (x v : Word) : (x &&& ~~~v) ||| (0xFFFFFFFF#32 &&& v) = x ||| v := by
  ext i hi
  have hones : (0xFFFFFFFF#32)[i] = true := by
    rw [show (0xFFFFFFFF#32) = BitVec.allOnes 32 from rfl, BitVec.getElem_allOnes]
  simp only [BitVec.getElem_or, BitVec.getElem_and, BitVec.getElem_not, hones, Bool.true_and]
  cases x[i] <;> cases v[i] <;> rfl

/-- OUT, OUTSET and OUTCLR. -/
theorem State.fioOut_effects (s : State) (v : Word) : (s.fioOut 0xFFFFFFFF#32 v).rd FIO.OUT = v
    ∧ (s.fioOut v 0xFFFFFFFF#32).rd FIO.OUT = s.rd FIO.OUT ||| v
    ∧ (s.fioOut v 0#32).rd FIO.OUT = s.rd FIO.OUT &&& ~~~v := by
  refine ⟨?_, ?_, ?_⟩
  · rw [State.fioOut_out, show (0xFFFFFFFF#32) = BitVec.allOnes 32 from rfl, BitVec.and_allOnes, BitVec.not_allOnes,
      BitVec.and_zero, BitVec.zero_or]
  · rw [State.fioOut_out, word_keep_set]
  · rw [State.fioOut_out]
    simp

/-! ## Configuration, banks (R290, R294, R295) -/

/-- A write of FIO_CHCFGc with a MODE is stored. -/
theorem State.fioCfgWrite_cfg (s : State) (c : Fin 32) {v : Word} (hmode : getBits 0 2 v ≠ 3) :
    (s.fioCfgWrite c.val v).f ⟨FIO.CHCFG c.val, 0, 9⟩ = v.toNat % 512 := by
  have hin : ¬FIO.IN = FIO.CHCFG c.val := by
    simp only [FIO.IN, FIO.CHCFG]
    omega
  have hact : ¬FIO.OUTACT = FIO.CHCFG c.val := by
    simp only [FIO.OUTACT, FIO.CHCFG]
    omega
  unfold State.fioCfgWrite
  rw [if_neg hmode]
  extract_lets old new inv begun stored bit field fresh field' off last
  have hstored : stored.f ⟨FIO.CHCFG c.val, 0, 9⟩ = v.toNat % 512 := begun.store_low (fioChcfg_stored c) (by decide) v
  clear_value stored
  have hfresh : stored.Keeps (· = FIO.CHCFG c.val) fresh := .ite (fun _ => stored.fio_keeps _) fun _ => .refl _
  have hoff : fresh.Keeps (· = FIO.CHCFG c.val) off := fresh.fio_keeps _
  clear_value off
  have hin_by : fresh.Keeps (· = FIO.CHCFG c.val) (fresh.fioInBy c.val fun u => u.fioIn c.val (fresh.fio.level.getLsbD c.val)) :=
    fresh.fioLevel_keeps (P := (· = FIO.CHCFG c.val)) hin _ _
  have hlast : fresh.Keeps (· = FIO.CHCFG c.val) last :=
    .ite (fun _ => hoff.setF (F := ⟨FIO.IN, c.val, 1⟩) hin 0) fun _ => .ite (fun _ => hin_by) fun _ => .refl fresh
  exact (((hfresh.trans hlast).fioUpdate hact).f ⟨FIO.CHCFG c.val, 0, 9⟩ rfl).trans hstored

theorem State.fioRearm_outputs (s : State) (b : Fin 2) (hsag : s.on (FIOB.STAT_SAG b.val) = false) :
    (s.fioRearm b.val).on (FIOB.STAT_OUTOFF b.val) = false := by
  have hne : ¬FIO.OUTACT = FIOB.STAT b.val := by
    simp only [FIO.OUTACT, FIOB.STAT]
    omega
  unfold State.fioRearm
  extract_lets bank good cleared src
  rw [if_neg (by simp [hsag])]
  have hkeeps : cleared.Keeps (· = FIOB.STAT b.val) (State.fioUpdate { cleared with fio :=
      { cleared.fio with tripped := cleared.fio.tripped &&& ~~~good, fresh := cleared.fio.fresh &&& ~~~good } }) :=
    ((State.Keeps.refl _).same rfl).fioUpdate hne
  exact (hkeeps.on (FIOB.STAT_OUTOFF b.val) rfl).trans (s.setF_zero_on _ rfl)

/-- VF keeps what a supply event brings. -/
theorem State.fioSag_vf (s : State) (b : Fin 2) : (s.fioSag b.val).f (FIOB.VF_V b.val) = s.f (FIOB.VF_V b.val) := by
  have hne : ¬FIOB.STAT b.val = FIOB.VF b.val := by
    simp only [FIOB.VF, FIOB.STAT]
    omega
  have hact : ¬FIO.OUTACT = FIOB.VF b.val := by
    simp only [FIO.OUTACT, FIOB.VF]
    omega
  have hvf : s.Keeps (· = FIOB.VF b.val) (s.fioVf b.val) := (State.Keeps.refl s).same rfl
  have hkeeps : s.Keeps (· = FIOB.VF b.val) (s.fioSag b.val) :=
    ((((hvf.raise (F := FIOB.STAT_FAULT b.val) hne).raise (F := FIOB.STAT_SAG b.val) hne).raise
      (F := FIOB.STAT_OUTOFF b.val) hne).setF (F := FIOB.STAT_VALID b.val) hne 0).fioUpdate hact
  exact hkeeps.f _ rfl

theorem State.fioRestore_vf (s : State) (b : Fin 2) : (s.fioRestore b.val).f (FIOB.VF_V b.val) = s.f (FIOB.VF_V b.val) := by
  have hne : ¬FIOB.STAT b.val = FIOB.VF b.val := by
    simp only [FIOB.VF, FIOB.STAT]
    omega
  have hvf : s.Keeps (· = FIOB.VF b.val) (s.fioVf b.val) := (State.Keeps.refl s).same rfl
  have hkeeps : s.Keeps (· = FIOB.VF b.val) (s.fioRestore b.val) := by
    unfold State.fioRestore
    extract_lets fresh
    have hfresh : s.Keeps (· = FIOB.VF b.val) fresh := hvf.foldl fun u i _ => u.fio_keeps _
    exact (hfresh.setF (F := FIOB.STAT_SAG b.val) hne 0).setF (F := FIOB.STAT_VALID b.val) hne 1
  exact hkeeps.f _ rfl

theorem execFioSupplySag_vf (s : State) (b : Fin 2) (mv : BitVec 16) :
    ∃ t : State, execFioSupplySag b mv s = .next t ∧ t.f (FIOB.VF_V b.val) = mv.toNat := by
  have hset : (s.setF (FIOB.VF_V b.val) mv.toNat).f (FIOB.VF_V b.val) = mv.toNat :=
    (s.setF_f _ _ rfl).trans (Nat.mod_eq_of_lt mv.isLt)
  unfold execFioSupplySag
  extract_lets shown
  split
  · exact ⟨_, rfl, (shown.fioSag_vf b).trans hset⟩
  · exact ⟨_, rfl, hset⟩

theorem execFioSupplyRestore_vf (s : State) (b : Fin 2) (mv : BitVec 16) :
    ∃ t : State, execFioSupplyRestore b mv s = .next t ∧ t.f (FIOB.VF_V b.val) = mv.toNat := by
  have hset : (s.setF (FIOB.VF_V b.val) mv.toNat).f (FIOB.VF_V b.val) = mv.toNat :=
    (s.setF_f _ _ rfl).trans (Nat.mod_eq_of_lt mv.isLt)
  unfold execFioSupplyRestore
  extract_lets shown
  split
  · exact ⟨_, rfl, (shown.fioRestore_vf b).trans hset⟩
  · exact ⟨_, rfl, hset⟩

/-! ## Channel faults (R293) -/

theorem State.Keeps.fioChfault {P : Nat → Prop} (h : s.Keeps P t) (hP : ∀ b < 2, ¬P (FIOB.STAT b)) : s.Keeps P t.fioChfault :=
  (h.flag (F := FIOB.STAT_CHFAULT 0) (hP 0 (by decide)) _).flag (F := FIOB.STAT_CHFAULT 1) (hP 1 (by decide)) _

/-- A fault of an output shows in FIO_CHFLT and turns the output off. -/
theorem State.fioFault_output (s : State) (c : Fin 32) (code : Nat) (hmode : s.f (FIO.CHCFG_MODE c.val) = 2) :
    ((s.fioFault c.val code).rd FIO.CHFLT).getLsbD c.val = true ∧ ((s.fioFault c.val code).rd FIO.OUTACT).getLsbD c.val = false := by
  unfold State.fioFault
  extract_lets out marked shown field off
  have hchflt : marked.on ⟨FIO.CHFLT, c.val, 1⟩ = true := by
    have hbit : (⟨FIO.CHFLT, c.val, 1⟩ : Field).ok = true := by
      simp [Field.ok]
    have hcause : FIO.CHFLT ≠ FIO.CAUSE (c.val / 16) := by
      simp only [FIO.CHFLT, FIO.CAUSE]
      omega
    exact (State.setF_on_apart (G := ⟨FIO.CHFLT, c.val, 1⟩) _ ⟨FIO.CAUSE (c.val / 16), 2 * (c.val % 16), 2⟩ code hcause).trans (s.raise_on _ hbit)
  have hshown : marked.Keeps (· = FIO.CHFLT) shown := by
    refine ((State.Keeps.refl marked).raise (F := FIOB.STAT_FAULT (c.val / 16)) ?_).fioChfault fun b _ => ?_
    · simp only [FIOB.STAT_FAULT, FIOB.STAT, FIO.CHFLT]
      omega
    · simp only [FIOB.STAT, FIO.CHFLT]
      omega
  have hdrives : State.fioDrives { shown with fio := { shown.fio with
      tripped := shown.fio.tripped ||| BitVec.ofNat 32 (2 ^ c.val) } } c.val = false := by
    have hone : (BitVec.ofNat 32 (2 ^ c.val)).getLsbD c.val = true := by
      rw [BitVec.getLsbD_ofNat, decide_eq_true c.isLt, Nat.testBit_two_pow_self]
      rfl
    simp only [State.fioDrives, BitVec.getLsbD_or, hone, Bool.or_true, Bool.not_true, Bool.and_false, Bool.false_and]
  have hoff : off = State.fioUpdate { shown with fio := { shown.fio with
      tripped := shown.fio.tripped ||| BitVec.ofNat 32 (2 ^ c.val) } } := if_pos (decide_eq_true hmode)
  have hkeeps : shown.Keeps (· = FIO.CHFLT) off := by
    rw [hoff]
    exact (shown.fio_keeps _).fioUpdate (by decide)
  refine ⟨?_, ?_⟩
  · rw [← State.on_bit] at *
    exact ((hshown.trans hkeeps).on ⟨FIO.CHFLT, c.val, 1⟩ rfl).trans hchflt
  · have hact := State.fioUpdate_drives { shown with fio := { shown.fio with
      tripped := shown.fio.tripped ||| BitVec.ofNat 32 (2 ^ c.val) } } c.isLt
    rw [← hoff, hdrives] at hact
    exact hact

theorem execFioChannelFault_output (s : State) (c : Fin 32) {code : Fin 4} (hmode : s.f (FIO.CHCFG_MODE c.val) = 2)
    (hact : (s.rd FIO.OUTACT).getLsbD c.val = true) (hcode : code = 3)
    (hsince : s.fio.since.get (fun _ => 0) c.val ≤ s.now) :
    ∃ t : State, execFioChannelFault c code s = .next t ∧ (t.rd FIO.CHFLT).getLsbD c.val = true
      ∧ (t.rd FIO.OUTACT).getLsbD c.val = false := by
  subst hcode
  refine ⟨_, if_pos ?_, s.fioFault_output c 3 hmode⟩
  simp [hmode, hact, fioFaultTicks, hsince]

/-! ## Samples (R291) -/

/-- What the samples of the other inputs keep of input `c`. -/
structure State.InputKeeps (c : Nat) (s t : State) : Prop where
  regs : s.Keeps (· ≠ FIO.IN) t
  cand : t.fio.cand.getLsbD c = s.fio.cand.getLsbD c
  cnt : t.fio.cnt.get (fun _ => 0) c = s.fio.cnt.get (fun _ => 0) c

namespace State.InputKeeps
variable {c k : Nat}

theorem refl (s : State) : s.InputKeeps c s := ⟨.refl s, rfl, rfl⟩

theorem trans (h : s.InputKeeps c t) (h' : t.InputKeeps c u) : s.InputKeeps c u :=
  ⟨h.regs.trans h'.regs, h'.cand.trans h.cand, h'.cnt.trans h.cnt⟩

theorem sampled (s : State) (x : Option Nat) : s.InputKeeps c { s with fio := { s.fio with sampleAt := x } } :=
  ⟨s.fio_keeps _, rfl, rfl⟩

/-- A level that an input takes. -/
theorem level (s : State) (l : Word) (k : Nat) (b : Bool) : s.InputKeeps c (s.fioInBy k fun v =>
    State.fioIn { v with fio := { v.fio with level := l } } k b) := by
  have hin : s.InputKeeps c (State.fioIn { s with fio := { s.fio with level := l } } k b) :=
    ⟨(s.fio_keeps _).fioIn (fun h => h rfl) k b, rfl, rfl⟩
  unfold State.fioInBy
  dsimp only
  split
  · exact hin
  · exact ⟨hin.regs.sched _ _, hin.cand, hin.cnt⟩

end State.InputKeeps

/-- The candidate word with bit `k` put to `b`. -/
def putBit (w : Word) (k : Nat) (b : Bool) : Word := if b then w ||| BitVec.ofNat 32 (2 ^ k) else w &&& ~~~BitVec.ofNat 32 (2 ^ k)

theorem putBit_other (w : Word) {c k : Nat} (hne : k ≠ c) (b : Bool) : (putBit w k b).getLsbD c = w.getLsbD c := by
  by_cases hc : c < 32
  · have hbit : (BitVec.ofNat 32 (2 ^ k)).getLsbD c = false := by
      rw [BitVec.getLsbD_ofNat, Nat.testBit_two_pow_of_ne hne, Bool.and_false]
    cases b with
    | false =>
      show (w &&& ~~~BitVec.ofNat 32 (2 ^ k)).getLsbD c = _
      rw [BitVec.getLsbD_and, BitVec.getLsbD_not, hbit, decide_eq_true hc]
      simp
    | true =>
      show (w ||| BitVec.ofNat 32 (2 ^ k)).getLsbD c = _
      rw [BitVec.getLsbD_or, hbit, Bool.or_false]
  · rw [BitVec.getLsbD_of_ge _ _ (by omega), BitVec.getLsbD_of_ge _ _ (by omega)]

/-- The sample of another input. -/
theorem State.fioSample_other (s : State) {c k : Nat} (hne : k ≠ c) (b : Bool) : s.InputKeeps c (s.fioSample k b) := by
  unfold State.fioSample
  extract_lets need same n bit put field taken
  split
  · exact .refl s
  · have htaken : s.InputKeeps c taken :=
      ⟨s.fio_keeps _, putBit_other s.fio.cand hne b, FMap.get_set_ne _ _ _ _ _ hne.symm⟩
    split
    · exact htaken
    · exact htaken.trans (.level taken _ k b)

/-- A sample that differs from the one before starts the count. -/
theorem State.fioSample_starts {c : Nat} {b : Bool} (hmode : s.f (FIO.CHCFG_MODE c) = 1)
    (hvalid : s.on (FIOB.STAT_VALID (c / 16)) = true) (hcand : s.fio.cand.getLsbD c ≠ b) :
    (s.fioSample c b).fio.cnt.get (fun _ => 0) c = 1 := by
  unfold State.fioSample
  extract_lets need same n bit put field taken
  rw [if_neg (by simp [hmode, hvalid])]
  have htaken : taken.fio.cnt.get (fun _ => 0) c = 1 :=
    (FMap.get_set_same _ _ _ _).trans (if_neg hcand)
  split
  · exact htaken
  · exact (State.InputKeeps.level taken _ c b).cnt.trans htaken

/-- After the samples of a tick the count of an input that changed is 1. -/
theorem execFioInputSample_starts (s : State) (c : Fin 32) {v : Word} (hdue : s.fioSampleDue = true)
    (hmode : s.f (FIO.CHCFG_MODE c.val) = 1) (hvalid : s.on (FIOB.STAT_VALID (c.val / 16)) = true)
    (hcand : s.fio.cand.getLsbD c.val ≠ v.getLsbD c.val) :
    ∃ t : State, execFioInputSample v s = .next t ∧ t.fio.cnt.get (fun _ => 0) c.val = 1 := by
  refine ⟨_, if_pos hdue, ?_⟩
  obtain ⟨before, after, hrange⟩ := List.append_of_mem (List.mem_range.mpr c.isLt)
  have hnodup := hrange ▸ List.nodup_range (n := 32)
  have hbefore : c.val ∉ before := fun h => (List.disjoint_of_nodup_append hnodup) h List.mem_cons_self
  have hafter : c.val ∉ after := (List.nodup_cons.mp (List.nodup_append.mp hnodup).2.1).1
  have hothers (l : List Nat) (hl : c.val ∉ l) (t : State) :
      t.InputKeeps c.val (l.foldl (fun t c => t.fioSample c (v.getLsbD c)) t) :=
    List.foldlRecOn (motive := fun u : State => t.InputKeeps c.val u) l _ (.refl t)
      fun u hu k hk => hu.trans (u.fioSample_other (ne_of_mem_of_not_mem hk hl) _)
  rw [hrange, List.foldl_append, List.foldl_cons]
  have hfirst : s.InputKeeps c.val (before.foldl (fun t c => t.fioSample c (v.getLsbD c))
      { s with fio := { s.fio with sampleAt := some s.now } }) :=
    (State.InputKeeps.sampled s _).trans (hothers before hbefore _)
  refine (hothers after hafter _).cnt.trans (State.fioSample_starts ?_ ?_ ?_)
  · refine (hfirst.regs.f (FIO.CHCFG_MODE c.val) ?_).trans hmode
    simp only [FIO.CHCFG_MODE, FIO.CHCFG, FIO.IN]
    omega
  · refine (hfirst.regs.on (FIOB.STAT_VALID (c.val / 16)) ?_).trans hvalid
    simp only [FIOB.STAT_VALID, FIOB.STAT, FIO.IN]
    omega
  · rw [hfirst.cand]
    exact hcand

end Sys2Proof.Machine
end

section
/-! PROOF of the statement OwnEffects, the access doors (R281 to R284). -/

namespace Sys2Proof.Machine

variable {s t u : State} {d : Nat}

/-! ## What the steps of a door keep -/

theorem State.doorU_setDoor (s : State) (d : Nat) (x : Door) : (s.setDoor d x).doorU d = x := FMap.get_set_same _ _ _ _

theorem State.doorU_setDoor_cmd (s : State) (d : Nat) (x : Door) : ((s.setDoor d x).doorU d).cmd = x.cmd :=
  congrArg Door.cmd (s.doorU_setDoor d x)

theorem State.doorPort_lt (s : State) (d : Nat) : s.doorPort d < 128 := Nat.mod_lt (y := 128) _ (by decide)

namespace State.Keeps
variable {P : Nat → Prop}

theorem setDoor (h : s.Keeps P t) (d : Nat) (x : Door) : s.Keeps P (t.setDoor d x) := h

theorem setPg (h : s.Keeps P t) (p : Nat) (x : PgUnit) : s.Keeps P (t.setPg p x) := h

theorem record (h : s.Keeps P t) (cls code unit sev : Nat) (x : BitVec 128) : s.Keeps P (t.record cls code unit sev x) := h

theorem sysIllegal (h : s.Keeps P t) : s.Keeps P t.sysIllegal := h

theorem doorAsk (h : s.Keeps P t) (hP : ¬P SAF.REQ) (d : Nat) (b : Bool) : s.Keeps P (t.doorAsk d b) := h.flag hP b

theorem doorTo (h : s.Keeps P t) (hP : ¬P (DOR.STAT d)) (st : Nat) : s.Keeps P (t.doorTo d st) :=
  (State.Keeps.setF (t := t.doorTimers d) (F := DOR.STAT_STATE d) h hP st).setDoor _ _

theorem doorRes (h : s.Keeps P t) (hP : ¬P (DOR.RES d)) (code seq : Nat) : s.Keeps P (t.doorRes d code seq) :=
  (h.setF (F := DOR.RES_RESULT d) hP code).setF (F := DOR.RES_SEQ d) hP seq

theorem doorFinish (h : s.Keeps P t) (hP : ¬P (DOR.RES d)) (code : Nat) : s.Keeps P (t.doorFinish d code) := by
  unfold State.doorFinish
  split
  · exact (h.doorRes hP _ _).setDoor _ _
  · exact h

theorem doorCycleEnd (h : s.Keeps P t) (hP : ¬P (DOR.CYC d)) (st : Nat) : s.Keeps P (t.doorCycleEnd d st) := by
  unfold State.doorCycleEnd
  split
  · exact h
  · extract_lets _ ended counted
    exact State.Keeps.record (t := counted) (State.Keeps.wr (t := ended) (h.setDoor d _) hP _) _ _ _ _ _

theorem doorHalt (h : s.Keeps P t) (hP : ∀ p < 128, ¬P (PRG.CTRL p)) (d : Nat) (hard : Bool) : s.Keeps P (t.doorHalt d hard) :=
  (h.setPg _ _).setF (F := PRG.CTRL_RETARGET (t.doorPort d)) (hP _ (t.doorPort_lt d)) 0

theorem commitMove (h : s.Keeps P t) {p : Nat} (hstat : ¬P (PRG.STAT p)) (hctrl : ¬P (PRG.CTRL p)) (x : Move) :
    s.Keeps P (t.commitMove p x) := by
  unfold State.commitMove State.judge
  split
  · exact h.raise (F := PRG.STAT_ERR_ARG p) hstat
  · split
    · exact h.sysIllegal
    · exact (h.setPg _ _).raise (F := PRG.CTRL_RETARGET p) hctrl

theorem doorMove (h : s.Keeps P t) (hP : ∀ p < 128, ¬P (PRG.STAT p) ∧ ¬P (PRG.CTRL p)) (d : Nat) (tgt : Int) (v : Nat) :
    s.Keeps P (t.doorMove d tgt v) := by
  obtain ⟨hstat, hctrl⟩ := hP _ (t.doorPort_lt d)
  exact (h.setPg _ _).commitMove hstat hctrl _

end State.Keeps

/-! ## Commands (R282) -/

/-- The result of a command that software reads. -/
def State.doorShows (t : State) (d code seq : Nat) : Prop := t.f (DOR.RES_RESULT d) = code ∧ t.f (DOR.RES_SEQ d) = seq

theorem State.doorShows.keeps {code seq : Nat} (h : t.doorShows d code seq) (hk : t.Keeps (· = DOR.RES d) u) : u.doorShows d code seq :=
  ⟨(hk.f (DOR.RES_RESULT d) rfl).trans h.1, (hk.f (DOR.RES_SEQ d) rfl).trans h.2⟩

theorem State.doorRes_shows (s : State) (d : Nat) {code seq : Nat} (hcode : code < 256) (hseq : seq < 65536) :
    (s.doorRes d code seq).doorShows d code seq := by
  let v := s.setF (DOR.RES_RESULT d) code
  have hresult : v.f (DOR.RES_RESULT d) = code := (s.setF_f (DOR.RES_RESULT d) code rfl).trans (Nat.mod_eq_of_lt hcode)
  have hkept : (v.setF (DOR.RES_SEQ d) seq).f (DOR.RES_RESULT d) = v.f (DOR.RES_RESULT d) :=
    v.setF_f_beside (DOR.RES_RESULT d) (DOR.RES_SEQ d) seq rfl rfl
  have hsequence : (v.setF (DOR.RES_SEQ d) seq).f (DOR.RES_SEQ d) = seq :=
    (v.setF_f (DOR.RES_SEQ d) seq rfl).trans (Nat.mod_eq_of_lt hseq)
  exact ⟨hkept.trans hresult, hsequence⟩

/-- A command that is taken shows 1 and stands. -/
theorem State.doorTake_shows (s : State) (d code : Nat) {seq : Nat} (hseq : seq < 65536) :
    (s.doorTake d code seq).doorShows d 1 seq ∧ ((s.doorTake d code seq).doorU d).cmd = some (code, seq) :=
  ⟨((s.doorFinish d 0x0B).doorRes_shows d (by decide) hseq).keeps ((State.Keeps.refl _).setDoor d _),
    ((s.doorFinish d 0x0B).doorRes d 1 seq).doorU_setDoor_cmd d _⟩

/-- The command that stands completes. -/
theorem State.doorFinish_shows {code c seq : Nat} (hcmd : (s.doorU d).cmd = some (c, seq)) (hcode : code < 256)
    (hseq : seq < 65536) : (s.doorFinish d code).doorShows d code seq := by
  unfold State.doorFinish
  rw [hcmd]
  exact (State.doorRes_shows s d hcode hseq).keeps ((State.Keeps.refl _).setDoor d _)

theorem State.doorTo_cmd (s : State) (d st : Nat) : ((s.doorTo d st).doorU d).cmd = (s.doorU d).cmd :=
  State.doorU_setDoor_cmd _ d _

theorem State.doorAsk_cmd (s : State) (k : Nat) (b : Bool) : ((s.doorAsk k b).doorU d).cmd = (s.doorU d).cmd := by
  rw [State.doorU, State.doorAsk, State.flag_door, State.doorU]

theorem State.doorPassDrop_cmd (s : State) (d : Nat) : ((s.doorPassDrop d).doorU d).cmd = (s.doorU d).cmd :=
  State.doorU_setDoor_cmd _ d _

theorem State.doorCycleEnd_cmd (s : State) (d st : Nat) : ((s.doorCycleEnd d st).doorU d).cmd = (s.doorU d).cmd := by
  unfold State.doorCycleEnd
  split
  · rfl
  · exact State.doorU_setDoor_cmd _ d _

/-- The state from which a door takes a command. -/
theorem State.doorMay_of {sts : List Nat} (hrun : s.mstate = 5) (hen : s.on (DOR.CFG_EN d) = true)
    (hst : sts.contains (s.doorSt d) = true) : (!s.doorMay d sts) = false := by
  unfold State.doorMay
  rw [hrun, hen, hst]
  rfl

section commands
variable {seq : BitVec 16} (hrun : s.mstate = 5) (hen : s.on (DOR.CFG_EN d) = true) (hd : d < 8)
include hrun hen

theorem State.doorOpen_taken (hst : s.doorSt d = 0) (hd : d < 8) : (s.doorOpen d seq.toNat).doorShows d 1 seq.toNat := by
  unfold State.doorOpen
  extract_lets st taken asked _
  rw [State.doorMay_of hrun hen (by rw [hst]; rfl), if_neg Bool.false_ne_true, if_neg (by rw [show st = 0 from hst]; decide),
    if_pos (show st = drLOCKED from hst)]
  have hkeeps : taken.Keeps (· = DOR.RES d) asked := by
    refine .sched (.doorAsk (.doorTo (.refl taken) ?_ _) ?_ _ _) _ _
    · simp only [DOR.STAT, DOR.RES]
      omega
    · simp only [SAF.REQ, DOR.RES]
      omega
  exact (s.doorTake_shows d 1 seq.isLt).1.keeps (hkeeps.setDoor _ _)

theorem State.doorClose_done (hst : s.doorSt d = 0) : (s.doorClose d seq.toNat).doorShows d 0 seq.toNat := by
  unfold State.doorClose
  extract_lets st taken
  rw [State.doorMay_of hrun hen (by rw [hst]; rfl), if_neg Bool.false_ne_true, if_pos (show st = drLOCKED from hst)]
  exact State.doorFinish_shows (s.doorTake_shows d 2 seq.isLt).2 (by decide) seq.isLt

theorem State.doorStop_taken (hst : s.doorSt d = 2 ∨ s.doorSt d = 4 ∨ s.doorSt d = 6) :
    (s.doorStop d seq.toNat).doorShows d 1 seq.toNat := by
  have hlisted : [drOPENING, drCLOSING, drREVERSING, drUNLOCKING].contains (s.doorSt d) = true := by
    rcases hst with h | h | h <;> rw [h] <;> rfl
  unfold State.doorStop
  extract_lets st taken halted
  rw [State.doorMay_of hrun hen hlisted, if_neg Bool.false_ne_true,
    if_neg (by simp only [st, drUNLOCKING]; omega)]
  have hkeeps : (s.doorTake d 3 seq.toNat).Keeps (· = DOR.RES d) halted := by
    refine .doorHalt (.setF (F := DOR.STAT_STOP_CAUSE d) (.refl _) ?_ _) (fun p hp => ?_) _ _
    · simp only [DOR.STAT_STOP_CAUSE, DOR.STAT, DOR.RES]
      omega
    · simp only [PRG.CTRL, DOR.RES]
      omega
  exact (s.doorTake_shows d 3 seq.isLt).1.keeps (hkeeps.setDoor _ _)

theorem State.doorLearn_done (hst : s.doorSt d = 0) : (s.doorLearnCmd d seq.toNat).doorShows d 0 seq.toNat := by
  unfold State.doorLearnCmd
  extract_lets taken
  rw [State.doorMay_of hrun hen (by rw [hst]; rfl), if_neg Bool.false_ne_true]
  refine State.doorFinish_shows (c := 4) ?_ (by decide) seq.isLt
  exact (State.doorU_setDoor_cmd _ d _).trans (s.doorTake_shows d 4 seq.isLt).2

theorem State.doorReset_done (hst : s.doorSt d = 8) (hcause : s.doorCause d = false) (hd : d < 8) :
    (s.doorResetCmd d seq.toNat).doorShows d 0 seq.toNat := by
  unfold State.doorResetCmd
  extract_lets taken
  rw [State.doorMay_of hrun hen (by rw [hst]; rfl), hcause, if_neg (by decide)]
  have hcmd : (taken.doorU d).cmd = some (5, seq.toNat) := (s.doorTake_shows d 5 seq.isLt).2
  clear_value taken
  split
  · refine State.doorFinish_shows (c := 5) ?_ (by decide) seq.isLt
    rw [State.doorCycleEnd_cmd, State.doorAsk_cmd, State.doorTo_cmd, hcmd]
  · have hshown : (((taken.doorTo d drSTOPPED).doorPassDrop d).doorFinish d 0).doorShows d 0 seq.toNat := by
      refine State.doorFinish_shows (c := 5) ?_ (by decide) seq.isLt
      rw [State.doorPassDrop_cmd, State.doorTo_cmd, hcmd]
    refine hshown.keeps (((State.Keeps.refl _).setDoor _ _).doorMove (fun p hp => ?_) _ _ _)
    simp only [PRG.STAT, PRG.CTRL, DOR.RES]
    omega

end commands

/-! ## Waits and CFG (R281, R283, R284) -/

/-- A grant that does not come leads back to CLOSED_LOCKED. -/
theorem State.doorLocked_state (s : State) (d : Fin 8) (code : Nat) : (s.doorLocked d.val code).f (DOR.STAT_STATE d.val) = 0 := by
  have hto : (s.doorTo d.val drLOCKED).f (DOR.STAT_STATE d.val) = 0 := State.setF_f _ (DOR.STAT_STATE d.val) drLOCKED rfl
  have hkeeps : (s.doorTo d.val drLOCKED).Keeps (· = DOR.STAT d.val) (s.doorLocked d.val code) := by
    refine .doorFinish (.doorCycleEnd (.doorAsk (.refl _) ?_ _ _) ?_ _) ?_ _
    · simp only [SAF.REQ, DOR.STAT]
      omega
    · simp only [DOR.CYC, DOR.STAT]
      omega
    · simp only [DOR.RES, DOR.STAT]
      omega
  exact (hkeeps.f (DOR.STAT_STATE d.val) rfl).trans hto

/-- A FAULT keeps the note of its cause. -/
theorem State.doorFault_lockTo (s : State) (d : Fin 8) : (s.doorFault d.val).on (DOR.STAT_LOCK_TO d.val) = s.on (DOR.STAT_LOCK_TO d.val) := by
  have hto : (s.doorTo d.val drFAULT).on (DOR.STAT_LOCK_TO d.val) = s.on (DOR.STAT_LOCK_TO d.val) :=
    (s.doorTimers d.val).setF_on_beside (DOR.STAT_LOCK_TO d.val) (DOR.STAT_STATE d.val) drFAULT rfl rfl
  have hkeeps : (s.doorTo d.val drFAULT).Keeps (· = DOR.STAT d.val) (s.doorFault d.val) := by
    refine .doorFinish (.doorCycleEnd (.doorAsk (.doorHalt (.setDoor (.refl _) _ _) (fun p hp => ?_) _ _) ?_ _ _) ?_ _) ?_ _
    · simp only [PRG.CTRL, DOR.STAT]
      omega
    · simp only [SAF.REQ, DOR.STAT]
      omega
    · simp only [DOR.CYC, DOR.STAT]
      omega
    · simp only [DOR.RES, DOR.STAT]
      omega
  exact (hkeeps.on (DOR.STAT_LOCK_TO d.val) rfl).trans hto

theorem execDoorGrantTimeout_locks (d : Fin 8) (hdlk : s.on (doorBit SAF.DOOR_DLK d.val) = false) (hst : s.doorSt d.val = 1)
    (hgrant : (s.doorU d.val).granted = false) :
    ∃ t : State, execDoorGrantTimeout d s = .next t ∧ t.f (DOR.STAT_STATE d.val) = 0 := by
  unfold execDoorGrantTimeout
  rw [if_neg (by simp [hdlk]), if_pos ⟨hst, hgrant⟩]
  exact ⟨_, rfl, s.doorLocked_state d 0x0A⟩

theorem execDoorLockTimeout_faults (d : Fin 8) (hst : s.doorSt d.val = 1) (hgrant : (s.doorU d.val).granted = true)
    (hshut : s.on (doorBit SAF.DOOR_CLOSED_LOCKED d.val) = true) :
    ∃ t : State, execDoorLockTimeout d s = .next t ∧ t.on (DOR.STAT_LOCK_TO d.val) = true := by
  refine ⟨_, if_pos (by simp [hst, hgrant, hshut, drUNLOCKING]), ?_⟩
  rw [State.doorFault_lockTo]
  exact s.raise_on (DOR.STAT_LOCK_TO d.val) rfl

/-- A configuration of a door that is off is stored. -/
theorem State.doorCfgWrite_cfg (s : State) (d : Fin 8) {v : Word} (hgood : s.doorCfgBad d.val v = false)
    (hoff : s.on (DOR.CFG_EN d.val) = false) : (s.doorCfgWrite d.val v).f ⟨DOR.CFG d.val, 0, 12⟩ = v.toNat % 4096 := by
  unfold State.doorCfgWrite
  rw [State.judge_good hgood (by simp [State.doorUnlocked, hoff])]
  extract_lets was driven stored ended
  have hstored : stored.f ⟨DOR.CFG d.val, 0, 12⟩ = v.toNat % 4096 := driven.store_low (dorCfg_stored d) (by decide) v
  clear_value stored
  split
  · exact hstored
  · have hkeeps : stored.Keeps (· = DOR.CFG d.val) ended := by
      refine .doorFinish (.doorAsk (.doorTo (.refl stored) ?_ _) ?_ _ _) ?_ _
      · simp only [DOR.STAT, DOR.CFG]
        omega
      · simp only [SAF.REQ, DOR.CFG]
        omega
      · simp only [DOR.RES, DOR.CFG]
        omega
    exact ((hkeeps.setDoor _ _).f ⟨DOR.CFG d.val, 0, 12⟩ rfl).trans hstored

end Sys2Proof.Machine
end

section
/-! PROOF of the statement OwnEffects, the frames and requests that Saffron receives (R263 to R269). -/

namespace Sys2Proof.Machine

variable {s t u : State}

theorem State.setSaf_on (s : State) (x : Saf) (F : Field) : (s.setSaf x).on F = s.on F := rfl

/-! ## Connections (R267) -/

/-- What makes a frame the first good one of connection `c`. -/
structure State.firstFrame (s : State) (l : List Byte) (c : Nat) : Prop where
  conn : (List.range 32).find? (fun j => s.psetOk && decide (leNat (sub l 0 2) ≠ 0) && decide (s.pset.connId j = leNat (sub l 0 2))) = some c
  kind : s.pset.u (oCONN c + 2) 1 = leNat (sub l 2 1)
  recs : leNat (sub l 3 1) ≤ 64
  length : l.length = 16 + 20 * leNat (sub l 3 1) + 4
  crc : safeCrc (leNat (sub l 0 2)) (l.take (16 + 20 * leNat (sub l 3 1))) = leNat (sub l (16 + 20 * leNat (sub l 3 1)) 4)
  first : s.connFrame c = none

/-- The first good frame brings a connection up. -/
theorem State.safeReceive_valid {l : List Byte} {c : Fin 32} (h : s.firstFrame l c.val) : (s.safeReceive l).on (connBit c.val) = true := by
  obtain ⟨hconn, hkind, hrecs, hlength, hcrc, hfirst⟩ := h
  have hbit : (connBit c.val).ok = true := by
    simp [Field.ok, connBit]
  unfold State.safeReceive
  dsimp only
  rw [hconn]
  dsimp only
  rw [hfirst, if_neg (by simp [hkind, hrecs, hlength, hcrc])]
  rw [State.resched_on]
  exact State.raise_on _ (connBit c.val) hbit

theorem State.connLost_off {c : Fin 32} (h : s.on (connBit c.val) = true) : (s.connLost c.val).on (connBit c.val) = false := by
  unfold State.connLost
  rw [if_pos h]
  extract_lets shown
  rw [State.setSaf_on, State.recordStat_on]
  exact s.flag_on (connBit c.val) false (by simp [Field.ok, connBit])

theorem execDlkOvercurrent_off {d : Fin 8} (h : s.dlk d.val = true) :
    ∃ t : State, execDlkOvercurrent d s = .next t ∧ t.dlk d.val = false := by
  refine ⟨_, congrArg ok (if_pos h), ?_⟩
  rw [State.dlk, State.setSaf_on]
  exact s.flag_on (bitAt SAF.DOOR_DLK d.val) false (by simp [Field.ok, bitAt, SAF.DOOR_DLK]; omega)

/-! ## Requests and estimates (R269) -/

theorem State.safWrite_unlock (s : State) (v : Word) : (s.safWrite SAF.REQ v).f SAF.REQ_UNLOCK = getBits 8 8 v := by
  unfold State.safWrite
  rw [if_pos rfl]
  exact s.store_f SAF.REQ_UNLOCK reqUnlock_stored (by decide) v 0#32

/-- A written tag commits the estimate that stands. -/
theorem State.safWrite_est (s : State) (p : Fin 96) (v : Word) :
    ((s.safWrite (SAF.EST_TAG p.val) v).sfJoint p.val).est = s.rdI (SAF.EST p.val) := by
  have hfind : (List.range 96).find? (fun q => decide (SAF.EST_TAG p.val = SAF.EST_TAG q)) = some p.val := by
    rw [List.find?_range_eq_some]
    refine ⟨decide_eq_true rfl, List.mem_range.mpr p.isLt, fun q hq => ?_⟩
    have hne : SAF.EST_TAG p.val ≠ SAF.EST_TAG q := by
      simp only [SAF.EST_TAG]
      omega
    rw [decide_eq_false hne]
    rfl
  unfold State.safWrite
  rw [if_neg (by simp only [SAF.EST_TAG, SAF.REQ]; omega), hfind]
  exact congrArg SafJoint.est (FMap.get_set_same _ _ _ _)

end Sys2Proof.Machine
end

section
/-! PROOF of the statement OwnEffects, what an output point of Saffron leaves (R232): the module's state, and an agenda
without the overrun that it took off. -/

namespace Sys2Proof.Machine

variable {s t u : State}

/-! ## The agenda and the state of the module -/

/-- No overrun of the safety cycle is due. -/
def State.noOverrun (s : State) : Prop := ∀ d ∈ s.agenda, d.ev ≠ .cmd .safetyCycleOverrun

/-- What a step of an output point leaves: the module's state, and no overrun where none was due. -/
structure State.OutKeeps (s t : State) : Prop where
  mode : s.Keeps (· = PWS.MODSTATE) t
  clear : s.noOverrun → t.noOverrun

namespace State.OutKeeps

theorem refl (s : State) : s.OutKeeps s := ⟨.refl s, id⟩

theorem trans (h : s.OutKeeps t) (h' : t.OutKeeps u) : s.OutKeeps u := ⟨h.mode.trans h'.mode, h'.clear ∘ h.clear⟩

/-- What changes neither registers nor the agenda. -/
theorem same (h : s.OutKeeps t) (hregs : u.regs = t.regs) (hagenda : u.agenda = t.agenda) : s.OutKeeps u :=
  ⟨h.mode.same hregs, fun hs d hd => h.clear hs d (hagenda ▸ hd)⟩

theorem wr (h : s.OutKeeps t) {o : Nat} (ho : o < PWS.MODSTATE) (v : Word) : s.OutKeeps (t.wr o v) :=
  ⟨h.mode.wr (Nat.ne_of_lt ho) v, h.clear⟩

theorem setF (h : s.OutKeeps t) {F : Field} (hF : F.off < PWS.MODSTATE) (v : Nat) : s.OutKeeps (t.setF F v) := h.wr hF _

theorem flag (h : s.OutKeeps t) {F : Field} (hF : F.off < PWS.MODSTATE) (b : Bool) : s.OutKeeps (t.flag F b) := h.wr hF _

theorem raise (h : s.OutKeeps t) {F : Field} (hF : F.off < PWS.MODSTATE) : s.OutKeeps (t.raise F) := h.wr hF _

theorem bump (h : s.OutKeeps t) {F : Field} (hF : F.off < PWS.MODSTATE) : s.OutKeeps (t.bump F) := h.wr hF _

theorem setSaf (h : s.OutKeeps t) (x : Saf) : s.OutKeeps (t.setSaf x) := ⟨h.mode, h.clear⟩

theorem setArm (h : s.OutKeeps t) (a : Nat) (x : SafArm) : s.OutKeeps (t.setArm a x) := ⟨h.mode, h.clear⟩

theorem setJoint (h : s.OutKeeps t) (p : Nat) (x : SafJoint) : s.OutKeeps (t.setJoint p x) := ⟨h.mode, h.clear⟩

theorem setPg (h : s.OutKeeps t) (p : Nat) (x : PgUnit) : s.OutKeeps (t.setPg p x) := ⟨h.mode, h.clear⟩

theorem tickFree (h : s.OutKeeps t) : s.OutKeeps t.tickFree := ⟨h.mode, h.clear⟩

theorem record (h : s.OutKeeps t) (cls code unit sev : Nat) (x : BitVec 128) : s.OutKeeps (t.record cls code unit sev x) :=
  ⟨h.mode, h.clear⟩

theorem recordStat (h : s.OutKeeps t) (cls code unit sev stat : Nat) : s.OutKeeps (t.recordStat cls code unit sev stat) :=
  ⟨h.mode, h.clear⟩

theorem due (h : s.OutKeeps t) (dt : Nat) {e : Ev} (he : e ≠ .cmd .safetyCycleOverrun) : s.OutKeeps (t.due dt e) := by
  refine ⟨h.mode, fun hs d hd => ?_⟩
  rcases mem_insertDue.mp hd with rfl | hd
  · exact he
  · exact h.clear hs d hd

theorem sched (h : s.OutKeeps t) (dt : Nat) {c : Instr} (hc : Ev.cmd c ≠ .cmd .safetyCycleOverrun) : s.OutKeeps (t.sched dt c) := h.due dt hc

theorem undue (h : s.OutKeeps t) (p : Ev → Bool) : s.OutKeeps (t.undue p) :=
  ⟨h.mode, fun hs d hd => h.clear hs d (List.mem_filter.mp hd).1⟩

theorem cancel (h : s.OutKeeps t) (c : Instr) : s.OutKeeps (t.cancel c) := h.undue _

theorem resched (h : s.OutKeeps t) (dt : Nat) {c : Instr} (hc : Ev.cmd c ≠ .cmd .safetyCycleOverrun) : s.OutKeeps (t.resched dt c) :=
  (h.cancel c).sched dt hc

theorem ite {c : Prop} [Decidable c] {a b : State} (ha : c → s.OutKeeps a) (hb : ¬c → s.OutKeeps b) :
    s.OutKeeps (if c then a else b) := by
  split
  · exact ha ‹_›
  · exact hb ‹_›

theorem foldl {α : Type} {op : State → α → State} {l : List α} (h : s.OutKeeps t)
    (hop : ∀ u : State, ∀ x ∈ l, u.OutKeeps (op u x)) : s.OutKeeps (l.foldl op t) :=
  List.foldlRecOn (motive := fun u : State => s.OutKeeps u) l op h fun u hu x hx => hu.trans (hop u x hx)

end State.OutKeeps

/-! ## Trips (R76, R77) -/

/-- What the trip fabric leaves: Saffron, and no overrun where none was due. -/
structure State.TripOnly (s t : State) : Prop where
  saf : t.saf = s.saf
  clear : s.noOverrun → t.noOverrun

namespace State.TripOnly

theorem refl (s : State) : s.TripOnly s := ⟨rfl, id⟩

theorem trans (h : s.TripOnly t) (h' : t.TripOnly u) : s.TripOnly u := ⟨h'.saf.trans h.saf, h'.clear ∘ h.clear⟩

theorem same (h : s.TripOnly t) (hsaf : u.saf = t.saf) (hagenda : u.agenda = t.agenda) : s.TripOnly u :=
  ⟨hsaf.trans h.saf, fun hs d hd => h.clear hs d (hagenda ▸ hd)⟩

theorem wr (h : s.TripOnly t) (o : Nat) (v : Word) : s.TripOnly (t.wr o v) := ⟨h.saf, h.clear⟩

theorem setF (h : s.TripOnly t) (F : Field) (v : Nat) : s.TripOnly (t.setF F v) := ⟨h.saf, h.clear⟩

theorem flag (h : s.TripOnly t) (F : Field) (b : Bool) : s.TripOnly (t.flag F b) := ⟨h.saf, h.clear⟩

theorem recs (h : s.TripOnly t) (l : List Rec) : s.TripOnly { t with ansIn := l } := ⟨h.saf, h.clear⟩

theorem record (h : s.TripOnly t) (cls code unit sev : Nat) (x : BitVec 128) : s.TripOnly (t.record cls code unit sev x) :=
  ⟨h.saf, h.clear⟩

theorem sched (h : s.TripOnly t) (dt : Nat) {c : Instr} (hc : Ev.cmd c ≠ .cmd .safetyCycleOverrun) : s.TripOnly (t.sched dt c) := by
  refine ⟨h.saf, fun hs d hd => ?_⟩
  rcases mem_insertDue.mp hd with rfl | hd
  · exact hc
  · exact h.clear hs d hd

theorem foldl {α : Type} {op : State → α → State} {l : List α} (h : s.TripOnly t)
    (hop : ∀ u : State, ∀ x ∈ l, u.TripOnly (op u x)) : s.TripOnly (l.foldl op t) :=
  List.foldlRecOn (motive := fun u : State => s.TripOnly u) l op h fun u hu x hx => hu.trans (hop u x hx)

theorem firstTime (h : s.TripOnly t) (p frac : Nat) : s.TripOnly (t.firstTime p frac) :=
  ((h.setF (TRF.FIRST_FRAC p) _).setF (TRF.FIRST_WC p) _).wr (TRF.FTIME p) _

theorem tripAgain (h : s.TripOnly t) (p mask frac : Nat) : s.TripOnly (t.tripAgain p mask frac) := by
  unfold State.tripAgain
  split_ifs
  · exact ((h.setF (TRF.FIRST_SRC p) _).firstTime p frac).recs _
  · exact h.recs _
  · exact h

theorem noteOff (h : s.TripOnly t) (before : State) (p : Nat) : s.TripOnly (State.noteOff before p t) := by
  rw [State.noteOff_eq]
  exact h.same rfl rfl

theorem forceLegs (h : s.TripOnly t) (p : Nat) (starts : Bool) : s.TripOnly (t.forceLegs p starts) := by
  rw [State.forceLegs_eq]
  exact h.same rfl rfl

theorem latchSet (h : s.TripOnly t) (p mask frac : Nat) : s.TripOnly (t.latchSet p mask frac) := by
  unfold State.latchSet
  extract_lets old latched forced off first timed told
  have hoff : s.TripOnly off := .noteOff (.forceLegs (.setF (.wr h _ _) (DPW.STAT_FORCED p) 1) _ _) _ _
  clear_value off
  split_ifs
  · exact h
  · exact hoff.tripAgain p mask frac
  · refine .record (.sched (.setF (.firstTime (.setF (.setF hoff _ _) _ _) _ _) _ _) _ ?_) _ _ _ _ _
    simp

theorem gstatSource (h : s.TripOnly t) (i : TripInput) (b : Bool) : s.TripOnly (t.gstatSource i b) := by
  cases i with
  | flt | dcv => exact h
  | tripN | pws | modState | sto => exact h.flag _ _

theorem setTripIn (h : s.TripOnly t) (k : Nat) (x : TripIn) : s.TripOnly (t.setTripIn k x) := ⟨h.saf, h.clear⟩

theorem tripAssert (h : s.TripOnly t) (i : TripInput) (frac : Nat) : s.TripOnly (t.tripAssert i frac) := by
  refine ((h.setTripIn _ _).gstatSource i true).foldl fun u p _ => ?_
  split_ifs
  · exact (State.TripOnly.refl u).latchSet _ _ _
  · exact .refl u

end State.TripOnly

theorem State.OutKeeps.tripAssert (h : s.OutKeeps t) (i : TripInput) (frac : Nat) : s.OutKeeps (t.tripAssert i frac) := by
  refine h.trans ⟨fun o ho => ?_, ((State.TripOnly.refl t).tripAssert i frac).clear⟩
  exact ((State.TripKeeps.refl t).tripAssert i frac).rd o (by rw [show o = PWS.MODSTATE from ho]; decide)

/-! ## Faults (R242 to R245) -/

namespace State.OutKeeps
variable {a p : Nat}

theorem showFault (h : s.OutKeeps t) : s.OutKeeps t.showFault := by
  have hfault : SAF.FAULT < PWS.MODSTATE := by decide
  unfold State.showFault
  split
  · exact (((h.setF (F := SAF.FAULT_CODE) hfault _).setF (F := SAF.FAULT_CLASS) hfault _).setF (F := SAF.FAULT_ARM) hfault _).setF
      (F := SAF.FAULT_ALL) hfault _
  · exact (((h.setF (F := SAF.FAULT_CODE) hfault _).setF (F := SAF.FAULT_CLASS) hfault _).setF (F := SAF.FAULT_ARM) hfault _).flag
      (F := SAF.FAULT_ALL) hfault _

theorem faultUnit (h : s.OutKeeps t) (code arm unit : Nat) : s.OutKeeps (t.faultUnit code arm unit) := by
  unfold State.faultUnit
  exact .ite (fun _ => h.setSaf _) fun _ =>
    .showFault (.recordStat (.bump (F := SAF.FAULT_COUNT) (h.setSaf _) (by decide)) _ _ _ _ _)

theorem faultRaise (h : s.OutKeeps t) (code arm : Nat) : s.OutKeeps (t.faultRaise code arm) := h.faultUnit code arm 0

theorem degrade (h : s.OutKeeps t) : s.OutKeeps t.degrade := by
  unfold State.degrade
  exact .resched (.setSaf (.setF (F := SAF.DEG_REMAIN) (.raise (F := SAF.STAT_DEG_USED) (.raise (F := SAF.STAT_DEGRADED) h
    (by decide)) (by decide)) (by decide) _) _) _ (by simp)

theorem faultB (h : s.OutKeeps t) (code unit : Nat) : s.OutKeeps (t.faultB code unit) := by
  unfold State.faultB
  exact .ite (fun _ => h) fun _ => .ite (fun _ => .setSaf (h.faultUnit ..) _) fun _ => .degrade (h.faultUnit ..)

theorem faultPass (h : s.OutKeeps t) (code unit : Nat) : s.OutKeeps (t.faultPass code unit) := by
  unfold State.faultPass
  exact .ite (fun _ => .showFault (h.setSaf _)) fun _ => h

theorem armDiag (h : s.OutKeeps t) (a : Nat) : s.OutKeeps (t.armDiag a) := by
  unfold State.armDiag
  refine .foldl h fun u p _ => ?_
  extract_lets x bad missed
  have hbad : u.OutKeeps bad := .ite (fun _ => .faultRaise (.refl u) _ _) fun _ => .refl u
  have hmissed : u.OutKeeps missed := .ite (fun _ => .faultRaise hbad _ _) fun _ => hbad
  exact .ite (fun _ => .faultB hmissed _ _) fun _ => .faultPass hmissed _ _

theorem ackFaults (h : s.OutKeeps t) : s.OutKeeps t.ackFaults := .showFault (h.setSaf _)

/-! ## Limits (R259 to R261) -/

theorem ssmStep (h : s.OutKeeps t) (a : Nat) (pair : Option (Rat × Rat)) : s.OutKeeps (t.ssmStep a pair) := by
  unfold State.ssmStep
  extract_lets x near since
  exact .ite (fun _ => h.setArm _ _) fun _ => .ite (fun _ => .ite (fun _ => h.setArm _ _) fun _ => h.setArm _ _) fun _ => h

theorem pgVsls (h : s.OutKeeps t) (hp : p < 256) (v : Word) : s.OutKeeps (t.pgVsls p v) := by
  have hreg : PRG.VSLS p < PWS.MODSTATE := by
    simp only [PRG.VSLS, PWS.MODSTATE]
    omega
  have htouch : s.OutKeeps (t.pgLimTouch p) := by
    unfold State.pgLimTouch
    extract_lets x
    split
    · exact .ite (fun _ => h) fun _ => h.setPg _ _
    · exact h.setPg _ _
  unfold State.pgVsls
  exact .ite (fun _ => h) fun _ => .wr (.setPg htouch _ _) hreg v

end State.OutKeeps

theorem PSet.armPorts_lt {x : PSet} {a p : Nat} (h : p ∈ x.armPorts a) : p < 256 := by
  obtain ⟨k, -, rfl⟩ := List.mem_map.mp h
  exact Nat.mod_lt _ (by decide)

theorem State.safArms_lt {a : Nat} (h : a ∈ s.safArms) : a < 16 := by
  unfold State.safArms at h
  split at h
  · exact List.mem_range.mp (List.mem_filter.mp h).1
  · exact absurd h List.not_mem_nil

theorem safa_lt_modstate {a : Nat} (ha : a < 16) : SAFA.STAT a < PWS.MODSTATE ∧ SAFA.VLIM a < PWS.MODSTATE
    ∧ SAFA.DMIN a < PWS.MODSTATE ∧ SAFA.SPMIN a < PWS.MODSTATE := by
  simp only [SAFA.STAT, SAFA.VLIM, SAFA.DMIN, SAFA.SPMIN, PWS.MODSTATE]
  omega

theorem prg_lt_modstate {p : Nat} (hp : p < 256) : PRG.STAT p < PWS.MODSTATE ∧ PRG.CFG p < PWS.MODSTATE ∧ PRG.CTRL p < PWS.MODSTATE := by
  simp only [PRG.STAT, PRG.CFG, PRG.CTRL, PWS.MODSTATE]
  omega

/-! ## Arms and groups (R251 to R264) -/

namespace State.OutKeeps
variable {a p g : Nat}

theorem writeLimit (h : s.OutKeeps t) (ha : a < 16) (lim : Option Rat) : s.OutKeeps (t.writeLimit a lim) := by
  obtain ⟨-, hvlim, -, -⟩ := safa_lt_modstate ha
  unfold State.writeLimit
  refine .wr (.foldl h fun u p hp => ?_) hvlim _
  exact .ite (fun _ => .refl u) fun _ => .pgVsls (.refl u) (PSet.armPorts_lt hp) _

theorem showArm (h : s.OutKeeps t) (ha : a < 16) : s.OutKeeps (t.showArm a) :=
  h.setF (F := SAFA.STAT_STATE a) (safa_lt_modstate ha).1 _

theorem slsStep (h : s.OutKeeps t) (ha : a < 16) : s.OutKeeps (t.slsStep a) := by
  unfold State.slsStep
  extract_lets src lim x sp fresh y
  exact .showArm (.writeLimit (.setF (F := SAFA.STAT_SLS_SRC a) (h.setArm _ _) (safa_lt_modstate ha).1 _) ha _) ha

theorem groupSto (h : s.OutKeeps t) (g : Nat) : s.OutKeeps (t.groupSto g) := by
  have hopen : s.OutKeeps (t.unreleased g) := ⟨h.mode, h.clear⟩
  have hgsto : (bitAt SAF.GSTO_STO g).off < PWS.MODSTATE := show SAF.GSTO < PWS.MODSTATE by decide
  rw [State.groupSto_eq]
  exact .ite (fun _ => hopen) fun _ => .tripAssert (hopen.raise hgsto) _ _

theorem pgSs1End (h : s.OutKeeps t) (hp : p < 256) : s.OutKeeps (t.pgSs1End p) :=
  .flag (F := PRG.STAT_SS1 p) (h.setPg _ _) (prg_lt_modstate hp).1 false

theorem armSto (h : s.OutKeeps t) (ha : a < 16) (cause : Nat) : s.OutKeeps (t.armSto a cause) := by
  unfold State.armSto
  extract_lets x groups ports held
  have hgroups : s.OutKeeps groups := .foldl h fun u g _ => .groupSto (.refl u) g
  have hports : s.OutKeeps ports := .foldl hgroups fun u p hp => .pgSs1End (.refl u) (PSet.armPorts_lt hp)
  exact .ite (fun _ => hgroups.setArm _ _) fun _ =>
    .showArm (.setF (F := SAFA.STAT_STO_CAUSE a) (hports.setArm _ _) (safa_lt_modstate ha).1 _) ha

theorem enterHold (h : s.OutKeeps t) (ha : a < 16) (door : Bool) : s.OutKeeps (t.enterHold a door) := by
  unfold State.enterHold
  extract_lets x kept
  have hkept : s.OutKeeps kept := .ite (fun _ => h) fun _ => .foldl h fun u p _ => .setJoint (.refl u) _ _
  exact .showArm (hkept.setArm _ _) ha

theorem pgDrop (h : s.OutKeeps t) (hp : p < 256) : s.OutKeeps (t.pgDrop p) := by
  obtain ⟨hstat, hcfg, hctrl⟩ := prg_lt_modstate hp
  exact .cancel (.flag (F := PRG.STAT_GEAR_RAMP p) (.flag (F := PRG.STAT_GEAR_ARMED p) (.setF (F := PRG.CTRL_RETARGET p)
    (.setF (F := PRG.CFG_SRC p) (h.setPg _ _) hcfg _) hctrl _) hstat _) hstat _) _

theorem pgSs1 (h : s.OutKeeps t) (hp : p < 256) (d j : Nat) : s.OutKeeps (t.pgSs1 p d j) := by
  unfold State.pgSs1
  exact .ite (fun _ => h) fun _ => .setPg (.flag (F := PRG.STAT_SS1 p) (h.pgDrop hp) (prg_lt_modstate hp).1 true) _ _

theorem armSs1 (h : s.OutKeeps t) (ha : a < 16) : s.OutKeeps (t.armSs1 a) := by
  unfold State.armSs1
  extract_lets x stopping
  have hstopping : s.OutKeeps stopping := .foldl h fun u p hp => .pgSs1 (.setJoint (.refl u) _ _) (PSet.armPorts_lt hp) _ _
  exact .ite (fun _ => .showArm (hstopping.setArm _ _) ha) fun _ => h

theorem safeEntry (h : s.OutKeeps t) (ha : a < 16) : s.OutKeeps (t.safeEntry a) := by
  unfold State.safeEntry
  exact .ite (fun _ => h) fun _ => .ite (fun _ => h.enterHold ha _) fun _ => h.armSs1 ha

theorem holdStep (h : s.OutKeeps t) (ha : a < 16) : s.OutKeeps (t.holdStep a) := by
  unfold State.holdStep
  exact .ite (fun _ => h) fun _ => .showArm (h.setArm _ _) ha

theorem groupRelease (h : s.OutKeeps t) (g : Nat) : s.OutKeeps (t.groupRelease g) :=
  .ite (fun _ => ⟨h.mode, h.clear⟩) fun _ => h

theorem releaseStep (h : s.OutKeeps t) (a : Nat) : s.OutKeeps (t.releaseStep a) := by
  unfold State.releaseStep
  extract_lets x held noted
  exact .ite (fun _ => h) fun _ => .ite (fun _ => .foldl (h.setArm _ _) fun u g _ => .groupRelease (.refl u) g) fun _ => h.setArm _ _

theorem armOut (h : s.OutKeeps t) (ha : a < 16) (doors : Nat) : s.OutKeeps (t.armOut doors a) := by
  obtain ⟨hstat, -, hdmin, hspmin⟩ := safa_lt_modstate ha
  unfold State.armOut
  extract_lets pair free shown limited entered stopped
  clear_value pair
  have hshown : s.OutKeeps shown := by
    unfold shown
    split
    · exact .wr (.wr h.tickFree hdmin _) hspmin _
    · exact h.tickFree
  have hlimited : s.OutKeeps limited := .flag (F := SAFA.STAT_STILL a) (.slsStep (.ssmStep hshown _ _) ha) hstat _
  clear_value limited
  have hentered : s.OutKeeps entered := .ite (fun _ => hlimited.safeEntry ha) fun _ => hlimited
  have hstopped : s.OutKeeps stopped := .ite (fun _ => hentered.armSs1 ha) fun _ => hentered
  split
  · exact hlimited.armSto ha _
  · exact .releaseStep (hstopped.holdStep ha) a

theorem groupOut (h : s.OutKeeps t) (g : Nat) : s.OutKeeps (t.groupOut g) := by
  unfold State.groupOut
  extract_lets doors sto may held noted
  exact .ite (fun _ => .ite (fun _ => h.groupSto g) fun _ => h) fun _ => .ite (fun _ => .groupSto (h.setSaf _) g) fun _ =>
    .ite (fun _ => .ite (fun _ => .groupRelease (h.setSaf _) g) fun _ => h.setSaf _) fun _ => h

theorem dlkOut (h : s.OutKeeps t) (d : Nat) : s.OutKeeps (t.dlkOut d) := by
  have hdoor : SAF.DOOR < PWS.MODSTATE := by decide
  unfold State.dlkOut
  extract_lets ask cut saf arms sto still held driven
  have hheld : s.OutKeeps held := .foldl h fun u a hx =>
    .enterHold (.refl u) (State.safArms_lt (List.mem_filter.mp (List.mem_filter.mp hx).1).1) true
  have hdriven : s.OutKeeps driven :=
    .ite (fun _ => .flag (F := bitAt SAF.DOOR_DLK d) h hdoor _) fun _ =>
      .ite (fun _ => .setSaf (.flag (F := bitAt SAF.DOOR_DLK d) h hdoor _) _) fun _ => .ite (fun _ => h) fun _ =>
        .ite (fun _ => .raise (F := bitAt SAF.DOOR_DLK d) hheld hdoor) fun _ => h
  exact .flag (F := bitAt SAF.DOOR_EDGE d) (.flag (F := bitAt SAF.DOOR_CLOSED_LOCKED d) hdriven hdoor _) hdoor _

/-! ## Frames (R268) -/

theorem bbs (h : s.OutKeeps t) (x : Bbs) : s.OutKeeps { t with bbs := x } := ⟨h.mode, h.clear⟩

theorem sendFrame (h : s.OutKeeps t) (cls dst : Nat) (b : Payload) : s.OutKeeps (t.sendFrame cls dst b) := by
  unfold State.sendFrame State.queueFrame State.setTxQueue State.nextHseq
  exact .bbs (h.bbs _) _

theorem sendSafe (h : s.OutKeeps t) (conn kind : Nat) (info : List Nat) (recs : List (List Byte)) :
    s.OutKeeps (t.sendSafe conn kind info recs) := by
  unfold State.sendSafe
  extract_lets n x counted
  have hcounted : s.OutKeeps counted := h.setSaf _
  exact hcounted.sendFrame _ _ _

theorem safeFrames (h : s.OutKeeps t) : s.OutKeeps t.safeFrames := by
  unfold State.safeFrames
  extract_lets tx sent
  exact .ite (fun _ => h) fun _ => .sendSafe (.foldl h fun u a _ => .sendSafe (.refl u) _ _ _ _) _ _ _ _

end State.OutKeeps

/-- An output point notes the module's state and leaves no overrun due. -/
theorem State.outputPoint_notes (s : State) :
    s.outputPoint.saf.lastMod = s.mstate ∧ ∀ d ∈ s.outputPoint.agenda, d.ev ≠ .cmd .safetyCycleOverrun := by
  unfold State.outputPoint
  extract_lets kept diagnosed acked doors armed grouped locked report sent saf noted
  have hclear : kept.noOverrun := fun d hd => by simpa using (List.mem_filter.mp hd).2
  have harmed : kept.OutKeeps armed := .foldl (.ackFaults (.foldl (.refl kept) fun u a _ => .armDiag (.refl u) a))
    fun u a ha => .armOut (.refl u) (State.safArms_lt ha) doors
  have hsent : kept.OutKeeps sent := .safeFrames (.flag (F := SAF.STAT_REPORT) (.foldl (.foldl harmed fun u g _ => .groupOut (.refl u) g)
    fun u d _ => .dlkOut (.refl u) d) (by decide) _)
  have hmode : sent.mstate = s.mstate := hsent.mode.f PWS.MODSTATE_STATE rfl
  have hnoted : sent.OutKeeps noted := .setSaf (.refl sent) _
  split_ifs
  · exact ⟨hmode, (hsent.trans (.due (e := .safReport) hnoted 0 (by simp))).clear hclear⟩
  · exact ⟨hmode, (hsent.trans hnoted).clear hclear⟩

end Sys2Proof.Machine
end

section
/-! PROOF of the statement OwnEffects, Saffron's cycle, faults, switches and start (R232 to R254). -/

namespace Sys2Proof.Machine

variable {s t u : State}

/-! ## What a fault changes (R242 to R245) -/

theorem State.showFault_saf (s : State) : s.showFault.saf = s.saf := by
  unfold State.showFault
  split <;> rfl

theorem State.showFault_keeps (s : State) : s.Keeps (· ≠ SAF.FAULT) s.showFault := by
  have hfault : ¬SAF.FAULT ≠ SAF.FAULT := not_not.mpr rfl
  unfold State.showFault
  split
  · exact ((((State.Keeps.refl (P := (· ≠ SAF.FAULT)) s).setF (F := SAF.FAULT_CODE) hfault _).setF (F := SAF.FAULT_CLASS) hfault _).setF
      (F := SAF.FAULT_ARM) hfault _).setF (F := SAF.FAULT_ALL) hfault _
  · exact ((((State.Keeps.refl (P := (· ≠ SAF.FAULT)) s).setF (F := SAF.FAULT_CODE) hfault _).setF (F := SAF.FAULT_CLASS) hfault _).setF
      (F := SAF.FAULT_ARM) hfault _).flag (F := SAF.FAULT_ALL) hfault _

theorem State.Keeps.setSaf {P : Nat → Prop} (h : s.Keeps P t) (x : Saf) : s.Keeps P (t.setSaf x) := h

theorem State.Keeps.recordStat {P : Nat → Prop} (h : s.Keeps P t) (cls code unit sev stat : Nat) :
    s.Keeps P (t.recordStat cls code unit sev stat) := h

theorem State.Keeps.resched {P : Nat → Prop} (h : s.Keeps P t) (dt : Nat) (c : Instr) : s.Keeps P (t.resched dt c) := h

theorem State.Keeps.undue {P : Nat → Prop} (h : s.Keeps P t) (p : Ev → Bool) : s.Keeps P (t.undue p) := h

theorem State.Keeps.due {P : Nat → Prop} (h : s.Keeps P t) (dt : Nat) (e : Ev) : s.Keeps P (t.due dt e) := h

theorem State.Keeps.tickFree {P : Nat → Prop} (h : s.Keeps P t) : s.Keeps P t.tickFree := h

/-- A fault is noted in the list and in SAF_FAULT alone. -/
theorem State.faultUnit_keeps (s : State) (code arm unit : Nat) : s.Keeps (· ≠ SAF.FAULT) (s.faultUnit code arm unit) := by
  unfold State.faultUnit
  refine .ite (fun _ => (State.Keeps.refl s).setSaf _) fun _ => .trans ?_ (State.showFault_keeps _)
  exact .recordStat (.bump (F := SAF.FAULT_COUNT) ((State.Keeps.refl s).setSaf _) (not_not.mpr rfl) 1) _ _ _ _ _

/-- What a fault leaves of Saffron: its switches, whether it has started, and the cover. -/
structure State.Faulted (s t : State) : Prop where
  sw : t.saf.sw = s.saf.sw
  started : t.saf.started = s.saf.started
  cover : t.saf.cover = s.saf.cover

namespace State.Faulted

theorem refl (s : State) : s.Faulted s := ⟨rfl, rfl, rfl⟩

theorem trans (h : s.Faulted t) (h' : t.Faulted u) : s.Faulted u :=
  ⟨h'.sw.trans h.sw, h'.started.trans h.started, h'.cover.trans h.cover⟩

theorem same (h : s.Faulted t) (hsaf : u.saf = t.saf) : s.Faulted u :=
  ⟨(congrArg Saf.sw hsaf).trans h.sw, (congrArg Saf.started hsaf).trans h.started, (congrArg Saf.cover hsaf).trans h.cover⟩

theorem showFault (h : s.Faulted t) : s.Faulted t.showFault := h.same t.showFault_saf

theorem faults (h : s.Faulted t) (l : List SafFault) : s.Faulted (t.setSaf { t.saf with faults := l }) :=
  ⟨h.sw, h.started, h.cover⟩

theorem faultUnit (h : s.Faulted t) (code arm unit : Nat) : s.Faulted (t.faultUnit code arm unit) := by
  have hnoted (u : State) (hu : s.Faulted u) : s.Faulted ((u.bump SAF.FAULT_COUNT).recordStat 0x0F code (if arm < 16 then arm else 0) 5 SAF.STAT) :=
    ⟨hu.sw, hu.started, hu.cover⟩
  unfold State.faultUnit
  split
  · exact h.faults _
  · exact .showFault (hnoted _ (h.faults _))

theorem faultRaise (h : s.Faulted t) (code arm : Nat) : s.Faulted (t.faultRaise code arm) := h.faultUnit code arm 0

theorem faultPass (h : s.Faulted t) (code unit : Nat) : s.Faulted (t.faultPass code unit) := by
  unfold State.faultPass
  split
  · exact .showFault (h.faults _)
  · exact h

theorem degrade (h : s.Faulted t) : s.Faulted t.degrade := ⟨h.sw, h.started, h.cover⟩

theorem ss1Everywhere (h : s.Faulted t) : s.Faulted t.ss1Everywhere := ⟨h.sw, h.started, h.cover⟩

theorem faultB (h : s.Faulted t) (code unit : Nat) : s.Faulted (t.faultB code unit) := by
  unfold State.faultB
  dsimp only
  split_ifs
  · exact h
  · exact .ss1Everywhere (h.faultUnit ..)
  · exact .degrade (h.faultUnit ..)

theorem switches (h : s.Faulted t) (g : Nat) : t.switches g = s.switches g :=
  congrArg (fun m : FMap Nat => m.get (fun _ => 0) g) h.sw

end State.Faulted

/-- A fault that is raised stands. -/
theorem State.faultRaise_stands (s : State) (code arm : Nat) : ∃ f ∈ (s.faultRaise code arm).saf.faults, f.code = code := by
  unfold State.faultRaise State.faultUnit
  split
  · next h =>
    obtain ⟨f, hf, hcode⟩ := List.any_eq_true.mp h
    exact ⟨{ f with here := true }, List.mem_map.mpr ⟨f, hf, if_pos hcode⟩, (of_decide_eq_true hcode).1⟩
  · refine ⟨⟨code, arm, 0, true, 0⟩, ?_, rfl⟩
    rw [State.showFault_saf]
    exact List.mem_append_right _ (List.mem_singleton.mpr rfl)

/-! ## STO on every group (R233) -/

/-- What STO leaves of the faults. -/
structure State.FaultsStay (s t : State) : Prop where
  faults : t.saf.faults = s.saf.faults
  hard : t.saf.hard = s.saf.hard

namespace State.FaultsStay

theorem refl (s : State) : s.FaultsStay s := ⟨rfl, rfl⟩

theorem trans (h : s.FaultsStay t) (h' : t.FaultsStay u) : s.FaultsStay u := ⟨h'.faults.trans h.faults, h'.hard.trans h.hard⟩

theorem foldl {α : Type} {op : State → α → State} {l : List α} (h : s.FaultsStay t)
    (hop : ∀ u : State, ∀ x ∈ l, u.FaultsStay (op u x)) : s.FaultsStay (l.foldl op t) :=
  List.foldlRecOn (motive := fun u : State => s.FaultsStay u) l op h fun u hu x hx => hu.trans (hop u x hx)

theorem setF (h : s.FaultsStay t) (F : Field) (v : Nat) : s.FaultsStay (t.setF F v) := ⟨h.faults, h.hard⟩

theorem setArm (h : s.FaultsStay t) (a : Nat) (x : SafArm) : s.FaultsStay (t.setArm a x) := ⟨h.faults, h.hard⟩

theorem setPg (h : s.FaultsStay t) (p : Nat) (x : PgUnit) : s.FaultsStay (t.setPg p x) := ⟨h.faults, h.hard⟩

theorem groupSto (h : s.FaultsStay t) (g : Nat) : s.FaultsStay (t.groupSto g) := by
  have hopen : s.FaultsStay (t.unreleased g) := ⟨h.faults, h.hard⟩
  rw [State.groupSto_eq]
  split
  · exact hopen
  · have hsaf := ((State.TripOnly.refl ((t.unreleased g).raise (bitAt SAF.GSTO_STO g))).tripAssert (.sto (Fin.ofNat 12 g)) 32).saf
    exact ⟨(congrArg Saf.faults hsaf).trans h.faults, (congrArg Saf.hard hsaf).trans h.hard⟩

theorem armSto (h : s.FaultsStay t) (a cause : Nat) : s.FaultsStay (t.armSto a cause) := by
  unfold State.armSto
  extract_lets x groups ports held
  have hgroups : s.FaultsStay groups := .foldl h fun u g _ => .groupSto (.refl u) g
  have hports : s.FaultsStay ports := .foldl hgroups fun u p _ => .setF (.setPg (.refl u) p _) (PRG.STAT_SS1 p) _
  split
  · exact hgroups.setArm _ _
  · exact .setF (.setF (hports.setArm _ _) _ _) _ _

theorem stoAll (h : s.FaultsStay t) (cause : Nat) : s.FaultsStay (t.stoAll cause) :=
  .foldl (.foldl h fun u a _ => .armSto (.refl u) a cause) fun u g _ => .groupSto (.refl u) g

end State.FaultsStay

/-- The hardware fault `code` stands and every group is in STO. -/
def State.failed (t : State) (code : Nat) : Prop :=
  t.saf.hard = true ∧ (∀ j : Fin 12, t.groupIn j.val = true) ∧ ∃ f ∈ t.saf.faults, f.code = code

/-- A hardware fault stands, with every group in STO. -/
theorem State.hardFault_fails (s : State) (code : Nat) : (s.hardFault code).failed code := by
  unfold State.hardFault
  extract_lets raised
  obtain ⟨f, hf, hcode⟩ : ∃ f ∈ raised.saf.faults, f.code = code := s.faultRaise_stands code scopeAll
  obtain ⟨hfaults, hhard⟩ := (State.FaultsStay.refl (raised.setSaf { raised.saf with hard := true })).stoAll code
  exact ⟨hhard, State.stoAll_groupIn code, f, by rwa [hfaults], hcode⟩

theorem State.failed.dlkSettle {code : Nat} (h : s.failed code) : s.dlkSettle.failed code := by
  obtain ⟨hhard, hgroups, hfault⟩ := h
  unfold State.dlkSettle
  split
  · exact ⟨hhard, hgroups, hfault⟩
  · have hgsto (j : Fin 12) : (s.setF SAF.DOOR_DLK 0).groupIn j.val = s.groupIn j.val :=
      s.setF_on_apart (G := bitAt SAF.GSTO_STO j.val) SAF.DOOR_DLK 0 (show SAF.GSTO ≠ SAF.DOOR by decide)
    exact ⟨hhard, fun j => (hgsto j).trans (hgroups j), hfault⟩

/-! ## The cycle start (R232) -/

theorem State.takeJoints_keeps (s : State) : s.Keeps (· = SAF.STAT) s.takeJoints :=
  .foldl (.refl s) fun u _ _ => (State.Keeps.refl u).setSaf _

theorem State.faultRaise_stat (s : State) (code arm : Nat) : s.Keeps (· = SAF.STAT) (s.faultRaise code arm) :=
  fun o ho => s.faultUnit_keeps code arm 0 o (by rw [show o = SAF.STAT from ho]; decide)

/-- A cycle start counts. -/
theorem State.cycleStart_counts (s : State) (ppm : Int) (contra : BitVec 12) :
    (s.cycleStart ppm contra).f SAF.STAT_CYCLE = (s.f SAF.STAT_CYCLE + 1) % 65536 := by
  unfold State.cycleStart
  extract_lets counted saf inputs time flags mask held joints drifted contradicted shown next idle pointed
  have hjoints : counted.Keeps (· = SAF.STAT) joints := ((State.Keeps.refl counted).setSaf mask).trans held.takeJoints_keeps
  have hdrifted : counted.Keeps (· = SAF.STAT) drifted :=
    .ite (fun _ => hjoints.trans (joints.faultRaise_stat _ _)) fun _ => hjoints
  have hcontradicted : counted.Keeps (· = SAF.STAT) contradicted :=
    .foldl hdrifted fun u g _ => .ite (fun _ => u.faultRaise_stat _ _) fun _ => .refl u
  have hshown : counted.Keeps (· = SAF.STAT) shown := by
    unfold shown
    split
    · exact hcontradicted.setF (F := SAF.DEG_REMAIN) (by decide) _
    · exact hcontradicted
  have hpointed : counted.Keeps (· = SAF.STAT) pointed := .resched (.tickFree (hshown.undue _)) _ _
  exact (((hpointed.resched _ _).sched _ _).f SAF.STAT_CYCLE rfl).trans (s.setF_f SAF.STAT_CYCLE _ rfl)

/-! ## Releases and switches (R242, R253, R254) -/

theorem State.releaseCheck_stage {g : Fin 12} (h : s.relStage g.val = 1) : (s.releaseCheck g.val true).relStage g.val = 2 := by
  unfold State.releaseCheck
  rw [if_neg (by omega), if_neg (by decide), if_pos h]
  exact FMap.get_set_same _ _ _ _

theorem State.switches_setSwitches (s : State) (g n : Nat) : (s.setSwitches g n).switches g = n := FMap.get_set_same _ _ _ _

theorem State.switchOpen_switches (s : State) (g : Nat) (hs : Bool) : (s.switchOpen g hs).switches g = if hs then 2 else 1 := by
  unfold State.switchOpen
  extract_lets d opened ls
  have hopened : opened.switches g = if hs then 2 else 1 := State.switches_setSwitches _ _ _
  clear_value opened
  cases hs
  · exact hopened
  · exact hopened

/-- A test opens one switch of a released pair. -/
theorem State.switchTest_opens {g : Fin 12} (hs good : Bool) (hin : s.groupIn g.val = false) (hclosed : s.switches g.val = 3) :
    (s.switchTest g.val hs good).switches g.val = if hs then 2 else 1 := by
  unfold State.switchTest
  extract_lets opened bit old new saf noted shown
  rw [if_neg (by simp [hin, hclosed])]
  have hopened : opened.switches g.val = if hs then 2 else 1 := s.switchOpen_switches g.val hs
  clear_value opened
  have hshown : opened.Faulted shown := ⟨rfl, rfl, rfl⟩
  have hjudged : opened.Faulted (if good then shown.faultPass 0x0D (2 * g.val + hs.toNat)
      else if new = 3 then shown.faultRaise 0x0C (shown.groupScope g.val) else shown.faultB 0x0D (2 * g.val + hs.toNat)) := by
    split_ifs
    · exact hshown.faultPass _ _
    · exact hshown.faultRaise _ _
    · exact hshown.faultB _ _
  exact (hjudged.switches g.val).trans hopened

theorem State.overcurrent_opens (s : State) (g : Nat) : (s.overcurrent g).switches g = 0 := by
  unfold State.overcurrent
  extract_lets opened
  exact (((State.Faulted.refl opened).faultRaise _ _).switches g).trans (State.switches_setSwitches _ _ _)

/-! ## Start and seal (R239, R240, R246) -/

theorem State.Faulted.undue (h : s.Faulted t) (p : Ev → Bool) : s.Faulted (t.undue p) := ⟨h.sw, h.started, h.cover⟩

theorem State.Faulted.due (h : s.Faulted t) (dt : Nat) (e : Ev) : s.Faulted (t.due dt e) := ⟨h.sw, h.started, h.cover⟩

/-- What the rest of a start keeps: SAF_STAT, and that Saffron has started. -/
structure State.StartsKeep (s t : State) : Prop where
  stat : s.Keeps (· = SAF.STAT) t
  rest : s.Faulted t

namespace State.StartsKeep

theorem refl (s : State) : s.StartsKeep s := ⟨.refl s, .refl s⟩

theorem trans (h : s.StartsKeep t) (h' : t.StartsKeep u) : s.StartsKeep u := ⟨h.stat.trans h'.stat, h.rest.trans h'.rest⟩

theorem foldl {α : Type} {op : State → α → State} {l : List α} (h : s.StartsKeep t)
    (hop : ∀ u : State, ∀ x ∈ l, u.StartsKeep (op u x)) : s.StartsKeep (l.foldl op t) :=
  List.foldlRecOn (motive := fun u : State => s.StartsKeep u) l op h fun u hu x hx => hu.trans (hop u x hx)

theorem undue (h : s.StartsKeep t) (p : Ev → Bool) : s.StartsKeep (t.undue p) := ⟨h.stat.undue p, h.rest.undue p⟩

theorem due (h : s.StartsKeep t) (dt : Nat) (e : Ev) : s.StartsKeep (t.due dt e) := ⟨h.stat.due dt e, h.rest.due dt e⟩

theorem wr (h : s.StartsKeep t) {o : Nat} (ho : o ≠ SAF.STAT) (v : Word) : s.StartsKeep (t.wr o v) :=
  ⟨h.stat.wr ho v, h.rest.sw, h.rest.started, h.rest.cover⟩

theorem faultRaise (h : s.StartsKeep t) (code arm : Nat) : s.StartsKeep (t.faultRaise code arm) :=
  ⟨h.stat.trans (t.faultRaise_stat code arm), h.rest.faultRaise code arm⟩

theorem pulseDue (h : s.StartsKeep t) (k d : Nat) : s.StartsKeep (t.pulseDue k d) := (h.undue _).due _ _

theorem testsStart (h : s.StartsKeep t) : s.StartsKeep t.testsStart := by
  unfold State.testsStart
  split
  · exact .due (.foldl h fun u k _ => .pulseDue (.refl u) _ _) _ _
  · exact h

end State.StartsKeep

/-- A set that is admitted. -/
theorem State.admitted_keeps (s : State) (x : Saf) (crc : Nat) :
    (((s.setSaf x).raise SAF.STAT_PSET_OK).wrN SAF.PSET crc).saf.started = x.started
      ∧ (((s.setSaf x).raise SAF.STAT_PSET_OK).wrN SAF.PSET crc).f SAF.STAT_PSET = s.f SAF.STAT_PSET := by
  have hraised : s.Keeps (· = SAF.STAT) (s.setSaf x) := .refl s
  have hcrc := (State.Keeps.refl (P := (· = SAF.STAT)) ((s.setSaf x).raise SAF.STAT_PSET_OK)).wr (o := SAF.PSET) (by decide) (BitVec.ofNat 32 crc)
  exact ⟨rfl, (hcrc.f SAF.STAT_PSET rfl).trans (((s.setSaf x).setF_f_beside SAF.STAT_PSET SAF.STAT_PSET_OK 1 rfl rfl).trans
    (hraised.f SAF.STAT_PSET rfl))⟩

/-- Saffron has started and shows the selected set. -/
theorem State.saffronStart_started (s : State) (no nc : BitVec 12) (cover used : Bool) :
    (s.saffronStart no nc cover used).saf.started = true ∧ (s.saffronStart no nc cover used).f SAF.STAT_PSET = no.toNat % 16 := by
  unfold State.saffronStart
  extract_lets degraded i blank begun cleared unlimited set bytes crc contacts signed formed sealGood sealed saf judged idle
  have hcleared : cleared.saf.started = true ∧ cleared.f SAF.STAT_PSET = i := by
    let v := (begun.wr SAF.STAT 0#32).setF SAF.STAT_PSET i
    have hset : v.f SAF.STAT_PSET = i := (State.setF_f _ SAF.STAT_PSET i rfl).trans (Nat.mod_mod _ _)
    have hused : (v.flag SAF.STAT_DEG_USED degraded).f SAF.STAT_PSET = i :=
      (v.setF_f_beside SAF.STAT_PSET SAF.STAT_DEG_USED _ rfl rfl).trans hset
    have hfault := (State.Keeps.refl (P := (· = SAF.STAT)) (v.flag SAF.STAT_DEG_USED degraded)).wr (o := SAF.FAULT) (by decide) 0#32
    exact ⟨rfl, (hfault.f SAF.STAT_PSET rfl).trans hused⟩
  clear_value cleared
  have hunlimited : cleared.StartsKeep unlimited := by
    refine .foldl (.refl cleared) fun u a ha => .wr (.refl u) ?_ _
    have ha := List.mem_range.mp ha
    simp only [SAFA.VLIM, SAF.STAT]
    omega
  have hsealed : sealed.saf.started = true ∧ sealed.f SAF.STAT_PSET = i := by
    refine ⟨hunlimited.rest.started.trans hcleared.1, ?_⟩
    exact (unlimited.setF_f_beside SAF.STAT_PSET SAF.STAT_SEAL_OK _ rfl rfl).trans ((hunlimited.stat.f SAF.STAT_PSET rfl).trans hcleared.2)
  clear_value sealed
  have hjudged : judged.saf.started = true ∧ judged.f SAF.STAT_PSET = i := by
    unfold judged
    split_ifs
    · have h := (State.StartsKeep.refl sealed).faultRaise 0x09 scopeAll
      exact ⟨h.rest.started.trans hsealed.1, (h.stat.f SAF.STAT_PSET rfl).trans hsealed.2⟩
    · have h := (State.StartsKeep.refl sealed).faultRaise 0x08 scopeAll
      exact ⟨h.rest.started.trans hsealed.1, (h.stat.f SAF.STAT_PSET rfl).trans hsealed.2⟩
    · obtain ⟨hstarted, hpset⟩ := sealed.admitted_keeps { saf with set := set } crc
      exact ⟨hstarted.trans hsealed.1, hpset.trans hsealed.2⟩
  clear_value judged
  have hend : judged.StartsKeep ((idle.testsStart).sched 250000 (.safetyCycleStart 0 0#12)) := .due (.testsStart (.undue (.refl judged) _)) _ _
  exact ⟨hend.rest.started.trans hjudged.1, (hend.stat.f SAF.STAT_PSET rfl).trans hjudged.2⟩

/-- A sample of the seal notes the cover. -/
theorem State.sealStep_cover (s : State) (no nc : BitVec 12) (cover : Bool) : (s.sealStep no nc cover).saf.cover = cover := by
  unfold State.sealStep
  extract_lets saf covered differs n saf' sampled crc judged saf'' broken
  have hsampled : sampled.saf.cover = cover := rfl
  clear_value sampled
  have hjudged : judged.saf.cover = cover := by
    unfold judged
    split
    · exact hsampled
    · exact ((State.Faulted.refl sampled).faultRaise _ _).cover.trans hsampled
  clear_value judged
  split_ifs
  · rfl
  · exact hjudged
  · exact hjudged

/-! ## Safe inputs (R247, R248) -/

theorem State.siIn_setSi (s : State) (i : Nat) (x : SiIn) : (s.setSi i x).siIn i = x := FMap.get_set_same _ _ _ _

theorem State.siIn_setSi_ne (s : State) {i k : Nat} (hne : i ≠ k) (x : SiIn) : (s.setSi k x).siIn i = s.siIn i :=
  FMap.get_set_ne _ _ _ _ _ hne

/-- What the samples of the other inputs keep of input `i`: its levels, the set, and the test pulses. -/
structure State.SiKeeps (i : Nat) (s t : State) : Prop where
  si : t.siIn i = s.siIn i
  set : t.saf.set = s.saf.set
  tpAt : t.saf.tpAt = s.saf.tpAt
  now : t.now = s.now

namespace State.SiKeeps
variable {i k : Nat}

theorem refl (s : State) : s.SiKeeps i s := ⟨rfl, rfl, rfl, rfl⟩

theorem trans (h : s.SiKeeps i t) (h' : t.SiKeeps i u) : s.SiKeeps i u :=
  ⟨h'.si.trans h.si, h'.set.trans h.set, h'.tpAt.trans h.tpAt, h'.now.trans h.now⟩

theorem foldl {α : Type} {op : State → α → State} {l : List α} (h : s.SiKeeps i t)
    (hop : ∀ u : State, ∀ x ∈ l, u.SiKeeps i (op u x)) : s.SiKeeps i (l.foldl op t) :=
  List.foldlRecOn (motive := fun u : State => s.SiKeeps i u) l op h fun u hu x hx => hu.trans (hop u x hx)

theorem setSi (h : s.SiKeeps i t) (hne : i ≠ k) (x : SiIn) : s.SiKeeps i (t.setSi k x) :=
  ⟨(t.siIn_setSi_ne hne x).trans h.si, h.set, h.tpAt, h.now⟩

theorem flag (h : s.SiKeeps i t) (F : Field) (b : Bool) : s.SiKeeps i (t.flag F b) := ⟨h.si, h.set, h.tpAt, h.now⟩

theorem showSi (h : s.SiKeeps i t) (k : Nat) : s.SiKeeps i (t.showSi k) := (h.flag _ _).flag _ _

theorem resched (h : s.SiKeeps i t) (dt : Nat) (c : Instr) : s.SiKeeps i (t.resched dt c) := ⟨h.si, h.set, h.tpAt, h.now⟩

theorem cancel (h : s.SiKeeps i t) (c : Instr) : s.SiKeeps i (t.cancel c) := ⟨h.si, h.set, h.tpAt, h.now⟩

theorem recordStat (h : s.SiKeeps i t) (cls code unit sev stat : Nat) : s.SiKeeps i (t.recordStat cls code unit sev stat) :=
  ⟨h.si, h.set, h.tpAt, h.now⟩

theorem acked (h : s.SiKeeps i t) (z : Nat) : s.SiKeeps i (t.setSaf { t.saf with ackIn := z }) := ⟨h.si, h.set, h.tpAt, h.now⟩

theorem siReset (h : s.SiKeeps i t) (hne : i ≠ k) (was now_ : Bool) : s.SiKeeps i (t.siReset k was now_) := by
  unfold State.siReset
  dsimp only
  split
  · exact h.setSi hne _
  · split
    · split
      · split
        · exact .acked (h.setSi hne _) _
        · exact .recordStat (h.setSi hne _) _ _ _ _ _
      · exact h
    · exact h

theorem siSample (h : s.SiKeeps i t) (hne : i ≠ k) (a b : Bool) : s.SiKeeps i (t.siSample k a b) := by
  unfold State.siSample
  extract_lets x anti la lb dis flt dem taken c armed
  have htaken : s.SiKeeps i taken := h.setSi hne _
  clear_value taken
  have harmed : s.SiKeeps i armed := by
    unfold armed
    split
    · exact htaken.resched _ _
    · split
      · exact htaken
      · exact htaken.cancel _
  clear_value armed
  split
  · exact h
  · split
    · exact .siReset (harmed.showSi k) hne _ _
    · exact harmed.showSi k

end State.SiKeeps

/-- A disagreement that stands is the fault and the demand of its input. -/
theorem execSiDiscrepancy_faults {i : Fin 16} (hdis : siDisagree (s.siAnti i.val) (s.siIn i.val).a (s.siIn i.val).b = true)
    (hflt : (s.siIn i.val).flt = false) : ∃ t : State, execSiDiscrepancy i s = .next t
      ∧ (t.siIn i.val).flt = true ∧ (t.siIn i.val).dem = true := by
  have hfault : (s.siFault i.val).siIn i.val = { s.siIn i.val with flt := true, dem := true } := by
    unfold State.siFault
    dsimp only
    rw [if_neg (by simp [hflt])]
    exact (((State.SiKeeps.refl _).showSi i.val).recordStat _ _ _ _ _).si.trans (s.siIn_setSi i.val _)
  refine ⟨_, congrArg ok (if_pos hdis), ?_⟩
  rw [hfault]
  exact ⟨rfl, rfl⟩

/-- The end of an acknowledgement leaves what its input sampled. -/
theorem State.siReset_samples (s : State) (i : Nat) (was now_ : Bool) :
    ((s.siReset i was now_).siIn i).sa = (s.siIn i).sa ∧ ((s.siReset i was now_).siIn i).sb = (s.siIn i).sb := by
  have hpress (y : Option Nat) : (s.setSi i { s.siIn i with press := y }).siIn i = { s.siIn i with press := y } := s.siIn_setSi i _
  have hshow (u : State) (x : SiIn) (h : u.siIn i = x) (hx : x.sa = (s.siIn i).sa ∧ x.sb = (s.siIn i).sb) :
      (u.siIn i).sa = (s.siIn i).sa ∧ (u.siIn i).sb = (s.siIn i).sb := h ▸ hx
  unfold State.siReset
  dsimp only
  split
  · exact hshow _ _ (hpress _) ⟨rfl, rfl⟩
  · split
    · split
      · split
        · exact hshow _ _ (((State.SiKeeps.refl _).acked _).si.trans (hpress none)) ⟨rfl, rfl⟩
        · exact hshow _ _ (((State.SiKeeps.refl _).recordStat _ _ _ _ _).si.trans (hpress none)) ⟨rfl, rfl⟩
      · exact ⟨rfl, rfl⟩
    · exact ⟨rfl, rfl⟩

/-- A used input outside the windows of its test pulses takes both samples. -/
theorem State.siSample_takes {i : Nat} (hfunc : s.pset.func i ≠ 0) (ha : s.inWindow (s.pset.u (oINPUT i + 4) 1) = false)
    (hb : s.inWindow (s.pset.u (oINPUT i + 5) 1) = false) (a b : Bool) :
    ((s.siSample i a b).siIn i).sa = a ∧ ((s.siSample i a b).siIn i).sb = b := by
  unfold State.siSample
  extract_lets x anti la lb dis flt dem taken c armed
  rw [if_neg hfunc]
  have htaken : (taken.siIn i).sa = a ∧ (taken.siIn i).sb = b := by
    have hsi : taken.siIn i = _ := State.siIn_setSi _ _ _
    rw [hsi]
    exact ⟨by simp only [la, ha]; rfl, by simp only [lb, hb]; rfl⟩
  clear_value taken
  have harmed : taken.SiKeeps i armed := by
    unfold armed
    split
    · exact (State.SiKeeps.refl taken).resched _ _
    · split
      · exact .refl taken
      · exact (State.SiKeeps.refl taken).cancel _
  have hshown : ((armed.showSi i).siIn i).sa = a ∧ ((armed.showSi i).siIn i).sb = b := by
    rwa [(harmed.showSi i).si]
  split
  · obtain ⟨hsa, hsb⟩ := (armed.showSi i).siReset_samples i x.dem dem
    exact ⟨hsa.trans hshown.1, hsb.trans hshown.2⟩
  · exact hshown

theorem State.SiKeeps.inWindow {i : Nat} (h : s.SiKeeps i t) (tp : Nat) : t.inWindow tp = s.inWindow tp := by
  unfold State.inWindow State.pset
  rw [h.set, h.tpAt, h.now]

/-- A sampling tick: the used input takes its two levels. -/
theorem execSiSample_takes {i : Fin 16} (hok : s.psetOk = true) (hfunc : s.pset.func i.val ≠ 0)
    (ha : s.inWindow (s.pset.u (oINPUT i.val + 4) 1) = false) (hb : s.inWindow (s.pset.u (oINPUT i.val + 5) 1) = false) (a b : BitVec 16) :
    ∃ t : State, execSiSample a b s = .next t ∧ (t.siIn i.val).sa = a.getLsbD i.val ∧ (t.siIn i.val).sb = b.getLsbD i.val := by
  refine ⟨_, congrArg ok (if_pos hok), ?_⟩
  obtain ⟨before, after, hrange⟩ := List.append_of_mem (List.mem_range.mpr i.isLt)
  have hnodup := hrange ▸ List.nodup_range (n := 16)
  have hbefore : i.val ∉ before := fun h => (List.disjoint_of_nodup_append hnodup) h List.mem_cons_self
  have hafter : i.val ∉ after := (List.nodup_cons.mp (List.nodup_append.mp hnodup).2.1).1
  have hothers (l : List Nat) (hl : i.val ∉ l) (t : State) :
      t.SiKeeps i.val (l.foldl (fun (u : State) k => u.siSample k (a.toNat.testBit k) (b.toNat.testBit k)) t) :=
    .foldl (.refl t) fun u k hk => .siSample (.refl u) (ne_of_mem_of_not_mem hk hl).symm _ _
  rw [hrange, List.foldl_append, List.foldl_cons]
  have hfirst := hothers before hbefore s
  rw [(hothers after hafter _).si]
  refine State.siSample_takes ?_ ?_ ?_ _ _
  · rwa [State.pset, hfirst.set]
  · rwa [hfirst.inWindow, State.pset, hfirst.set]
  · rwa [hfirst.inWindow, State.pset, hfirst.set]

/-! ## Test pulses (R249) -/

theorem State.Keeps.faultPass {P : Nat → Prop} (h : s.Keeps P t) (hP : ¬P SAF.FAULT) (code unit : Nat) : s.Keeps P (t.faultPass code unit) := by
  unfold State.faultPass
  exact .ite (fun _ => .trans (h.setSaf _) fun o ho => State.showFault_keeps _ o fun e => hP (e ▸ ho)) fun _ => h

theorem State.Keeps.faultB {P : Nat → Prop} (h : s.Keeps P t) (hfault : ¬P SAF.FAULT) (hstat : ¬P SAF.STAT) (hdeg : ¬P SAF.DEG)
    (code unit : Nat) : s.Keeps P (t.faultB code unit) := by
  have hunit : s.Keeps P (t.faultUnit code scopeB unit) :=
    h.trans fun o ho => t.faultUnit_keeps code scopeB unit o fun e => hfault (e ▸ ho)
  unfold State.faultB State.degrade
  refine .ite (fun _ => h) fun _ => .ite (fun _ => hunit.setSaf _) fun _ => .resched (.setSaf ?_ _) _ _
  exact ((hunit.raise (F := SAF.STAT_DEGRADED) hstat).raise (F := SAF.STAT_DEG_USED) hstat).setF (F := SAF.DEG_REMAIN) hdeg _

/-- An input fault leaves the readbacks of the test outputs. -/
theorem State.siFault_tpok (s : State) {i k : Nat} (hi : i < 16) :
    (s.siFault i).on (bitAt SAF.SI_TPOK k) = s.on (bitAt SAF.SI_TPOK k) := by
  unfold State.siFault
  dsimp only
  split
  · rfl
  · let v := s.setSi i { s.siIn i with flt := true, dem := true }
    have hdemand : (v.flag (bitAt SAF.SI_DEMAND i) (v.siIn i).dem).on (bitAt SAF.SI_TPOK k) = v.on (bitAt SAF.SI_TPOK k) :=
      v.setF_on_beside (bitAt SAF.SI_TPOK k) (bitAt SAF.SI_DEMAND i) _ (by simp [Field.ok, bitAt, SAF.SI_DEMAND]; omega)
        (by simp [Field.beside, bitAt, SAF.SI_DEMAND, SAF.SI_TPOK]; omega)
    have hflt : (v.showSi i).on (bitAt SAF.SI_TPOK k) = (v.flag (bitAt SAF.SI_DEMAND i) (v.siIn i).dem).on (bitAt SAF.SI_TPOK k) :=
      State.setF_on_apart (G := bitAt SAF.SI_TPOK k) _ (bitAt SAF.SIFLT_FAULT i) _ (show SAF.SI ≠ SAF.SIFLT by decide)
    rw [State.recordStat_on]
    exact hflt.trans hdemand

/-- A test pulse shows its readback. -/
theorem State.testPulse_tpok (s : State) (k : Fin 4) (used : Bool) (a b : BitVec 16) :
    (s.testPulse k.val used a b).on (bitAt SAF.SI_TPOK k.val) = used := by
  unfold State.testPulse
  extract_lets saf pulsed ended judged
  have hpulsed : pulsed.on (bitAt SAF.SI_TPOK k.val) = used :=
    State.flag_on _ (bitAt SAF.SI_TPOK k.val) used (by simp [Field.ok, bitAt, SAF.SI_TPOK]; omega)
  clear_value pulsed
  have hended : pulsed.Keeps (· = SAF.SI) ended :=
    .ite (fun _ => .due (.undue (.due (.undue (.refl pulsed) _) _ _) _) _ _) fun _ => (State.Keeps.refl pulsed).setSaf _
  have hjudged : pulsed.Keeps (· = SAF.SI) judged :=
    .ite (fun _ => hended.faultPass (by decide) _ _) fun _ => hended.faultB (by decide) (by decide) (by decide) _ _
  have hshown : judged.on (bitAt SAF.SI_TPOK k.val) = used := (hjudged.on (bitAt SAF.SI_TPOK k.val) rfl).trans hpulsed
  clear_value judged
  refine List.foldlRecOn (motive := fun u : State => u.on (bitAt SAF.SI_TPOK k.val) = used) _ _ hshown fun u hu i hi => ?_
  split
  · rwa [u.siFault_tpok (List.mem_range.mp hi)]
  · exact hu

end Sys2Proof.Machine
end

section
/-! PROOF of the statement OwnEffects. -/

namespace Sys2Proof.Machine

/-- Settles O60: each command's own effect, from the lemmas on the function it runs. -/
theorem ownEffects : Obligations.OwnEffects := by
  unfold Obligations.OwnEffects
  refine ⟨?time, ?saffron, ?frames, ?doors, ?field, ?capture, ?tokens, ?ports, ?loops, ?nutmeg, ?supply⟩
  case time =>
    exact fun s c sw dis hen hdue =>
      ⟨_, congrArg ok (if_pos ((s.tcmpDue_iff c.val).mpr ⟨hen, hdue⟩)), (s.fire_fired c.isLt sw dis).count⟩
  case saffron =>
    intro s g ppm contra no nc hs good cover used a b i k failed x
    exact ⟨⟨_, rfl, s.cycleStart_counts ppm contra⟩, ⟨_, rfl, s.outputPoint_notes⟩, ⟨_, rfl, s.hardFault_fails 0x07⟩,
      ⟨_, rfl, (s.hardFault_fails 0x06).dlkSettle⟩, ⟨_, rfl, (s.hardFault_fails 0x06).dlkSettle⟩,
      fun hstage => ⟨_, rfl, State.releaseCheck_stage hstage⟩,
      fun hin hclosed => ⟨_, rfl, State.switchTest_opens hs good hin hclosed⟩, ⟨_, rfl, s.overcurrent_opens g.val⟩,
      ⟨_, rfl, s.saffronStart_started no nc cover used⟩, ⟨_, rfl, s.sealStep_cover no nc cover⟩,
      fun hok hfunc ha hb => execSiSample_takes hok hfunc ha hb a b, fun hdis hflt => execSiDiscrepancy_faults hdis hflt,
      ⟨_, rfl, s.testPulse_tpok k used a b⟩, fun hdeg => ⟨_, congrArg ok (if_pos hdeg), rfl⟩⟩
  case frames =>
    intro s m l c d p v id n
    exact ⟨fun hconn hkind hrecs hlength hcrc hfirst =>
        ⟨_, rfl, State.safeReceive_valid ⟨hconn, hkind, hrecs, hlength, hcrc, hfirst⟩⟩,
      fun hon => ⟨_, rfl, State.connLost_off hon⟩, fun hdlk => execDlkOvercurrent_off hdlk,
      fun h => ⟨_, congrArg ok (h.busW_eq _), State.safWrite_unlock _ v⟩,
      fun h => ⟨_, congrArg ok (h.busW_eq _), State.safWrite_est (s.answer .done) p v⟩⟩
  case doors =>
    intro s m d seq v st does
    refine ⟨fun h hrun hen => ⟨?_, ?_, ?_, ?_, ?_⟩,
      fun h hgood hoff => ⟨_, congrArg ok (h.busW_eq _), State.doorCfgWrite_cfg (s.answer .done) d hgood hoff⟩,
      fun hdlk hst hgrant => execDoorGrantTimeout_locks d hdlk hst hgrant,
      fun hst hgrant hshut => execDoorLockTimeout_faults d hst hgrant hshut⟩
    · exact fun hst => ⟨_, congrArg ok (h.busW_eq _), State.doorOpen_taken (s := s.answer .done) hrun hen hst d.isLt⟩
    · exact fun hst => ⟨_, congrArg ok (h.busW_eq _), State.doorClose_done (s := s.answer .done) hrun hen hst⟩
    · exact fun hst => ⟨_, congrArg ok (h.busW_eq _), State.doorStop_taken (s := s.answer .done) hrun hen hst⟩
    · exact fun hst => ⟨_, congrArg ok (h.busW_eq _), State.doorLearn_done (s := s.answer .done) hrun hen hst⟩
    · exact fun hst hcause =>
        ⟨_, congrArg ok (h.busW_eq _), State.doorReset_done (s := s.answer .done) hrun hen hst hcause d.isLt⟩
  case field =>
    intro s m c b code mv v mode
    exact ⟨fun h hmode => ⟨_, congrArg ok (h.busW_eq _), State.fioCfgWrite_cfg _ c hmode⟩,
      fun h => ⟨_, congrArg ok (h.busW_eq _), (State.fioOut_effects (s.answer .done) v).1⟩,
      fun h => ⟨_, congrArg ok (h.busW_eq _), (State.fioOut_effects (s.answer .done) v).2.1⟩,
      fun h => ⟨_, congrArg ok (h.busW_eq _), (State.fioOut_effects (s.answer .done) v).2.2⟩,
      fun hdue hmode hvalid hcand => execFioInputSample_starts s c hdue hmode hvalid hcand,
      fun hmode hact hcode hsince => execFioChannelFault_output s c hmode hact hcode hsince,
      execFioSupplySag_vf s b mv, execFioSupplyRestore_vf s b mv,
      fun h hsag => ⟨_, congrArg ok (h.busW_eq _), State.fioRearm_outputs (s.answer .done) b hsag⟩⟩
  case capture =>
    intro s m ev ns v frac wc st posts fills size
    have hready (h : fills) : s.capReady := by
      obtain ⟨hstate, hmode, hfirst, hbetween, hpost⟩ := h
      exact ⟨hstate, hmode, hfirst, hbetween, hpost⟩
    refine ⟨?start, fun h hbusy => ⟨_, congrArg ok (h.busW_eq _), State.capStop_idle (s := s.answer .done) hbusy⟩,
      fun h hfills => ⟨_, congrArg ok (h.busW_eq _), State.capTrig_posts (hready hfills).answered _⟩,
      fun hsel hfills => execCapTrigger_posts hsel (hready hfills) ns frac wc,
      fun hstate hat hmode => ⟨_, rfl, State.capRearm_cont hstate hat hmode⟩,
      fun d ds hdones => ⟨_, rfl, State.capCommit_takes hdones⟩,
      fun h halign hahead => ⟨_, congrArg ok (h.busW_eq _), State.rdptrWrite_takes (s := s.answer .done) halign hahead⟩⟩
    intro h hidle hrun hchans hmode hpre hsrc hsize hempty hdones
    refine ⟨_, congrArg ok (h.busW_eq _), State.capStart_fills (s := s.answer .done) hidle hrun hchans hmode hpre hsrc ?_ hempty hdones⟩
    have hrows : s.capRows = s.f CAP.LEN_PRE + s.f CAP.LEN_POST := by rw [State.capRows, if_neg hmode]
    exact (congrArg (capSize s.capChans.length) hrows).trans_le hsize
  case tokens =>
    intro s m tag v tb good e r
    refine ⟨?store, fun hfull => ⟨_, congrArg ok (if_pos hfull), State.overflow_on⟩, ?drain,
      fun h => ⟨_, congrArg ok (h.busW_eq _), State.clvPost_clvIn v⟩,
      fun w hrun hgraph => ⟨_, rfl, State.nodeLimit_gend hrun hgraph⟩,
      fun hone => ⟨_, rfl, State.recordAdmit_ansIn hone⟩, ⟨_, rfl, State.flushEnd_ended good⟩,
      ⟨_, rfl, State.flushReq_flushing _⟩, ?post,
      fun h => ⟨_, rfl, congrArg State.lastResp (State.busRead_plain h ansHead_plain)⟩⟩
    case store =>
      intro hfull hfifo htag hbase hsolver hpark hwaiter hroom
      obtain ⟨t, ht, hclv⟩ := execTokenArrive_clv (s := s) tag v tb
      refine ⟨t, ht, ?_⟩
      rw [hclv]
      exact State.arriveToken_stores ⟨hsolver, hwaiter, hroom⟩ hfull hfifo
        (Token.refused_iff.mpr ⟨htag, .inr fun hrange => absurd hrange.1 (Nat.not_le.mpr hbase)⟩) hpark
    case drain =>
      exact fun k hpark hfifo hsolver hwaiter hroom =>
        ⟨_, rfl, State.overflowDrain_stores hpark hfifo ⟨hsolver, hwaiter, hroom⟩⟩
    case post =>
      intro h hcode hsev
      obtain ⟨x, hx⟩ := State.ansPost_records (s := s.answer .done) (m := m) hcode hsev
      exact ⟨_, x, congrArg ok (h.busW_eq _), hx⟩
  case ports =>
    intro s m p k n g o v hw row lead coin l off osr grpGood quiet
    refine ⟨fun ho h => exec_registerWrite_stores ho h,
      fun h hrow => ⟨_, exec_registerWrite_pwsStat h hrow, State.rd_wr_same _ _ _, State.sameBut_wr (by simp) _⟩,
      fun hoff => ⟨_, rfl, State.periodStart_off p.isLt hoff _ coin⟩,
      fun hsync => ⟨_, if_pos hsync, State.standalone_ended p.val⟩,
      fun hpend hhigh => ⟨_, rfl, State.turnOn_high hpend hhigh⟩,
      ⟨_, rfl, State.setF_f _ _ _ rfl, State.sameBut_setF _ _ _⟩,
      fun hdelayed => ⟨_, rfl, State.delayedTransition_short hdelayed⟩,
      fun h => ⟨_, congrArg ok (h.busW_eq _), fun b hb => State.swTrip_latches _ n v b hb⟩,
      fun h hv hfree => ⟨_, congrArg ok (h.busW_eq _), State.latchWrite_clears _ hv hfree⟩,
      fun h hgood hoff => ⟨_, congrArg ok (h.busW_eq _), State.safeWrite_safe _ hgood hoff⟩,
      fun h hoff => ⟨_, congrArg ok (h.busW_eq _), State.trfCfgStore_enable _ hoff⟩,
      fun h => ⟨_, rfl, congrArg State.lastResp (State.busRead_plain h (caqLat0_plain p))⟩, ?group,
      fun h hgood hoff => ⟨_, congrArg ok (h.busW_eq _), State.caqPortStore_cfg _ hgood hoff⟩⟩
    intro h hgood hquiet
    obtain ⟨hmin, hmax, hspt, hdosr, hstuck⟩ := hgood
    obtain ⟨hports, hrun, hsafe⟩ := hquiet
    have hgroup : caqGroupBad v = false := by
      simp [caqGroupBad, osr] at *
      omega
    exact ⟨_, congrArg ok (h.busW_eq _), State.caqGroupStore_cfg _ hgroup hports hrun hsafe⟩
  case loops =>
    intro s m k g n b bank w v r word wide u x plain
    refine ⟨fun h => ⟨⟨_, congrArg ok (h.busW_eq _), State.raise_on _ _ rfl⟩, ⟨_, congrArg ok (h.busW_eq _), State.raise_on _ _ rfl⟩⟩,
      fun h => ⟨_, congrArg ok (h.busW_eq _), State.hookCommit_tag _ k n v⟩,
      fun h hgood hfree => ⟨_, congrArg ok (h.busW_eq _), State.bankWrite_effect hgood hfree .done⟩,
      fun h hgood hsrc htrack hss1 hv ha => ⟨_, congrArg ok (h.busW_eq _), State.prgCfgWrite_cfg hgood hsrc htrack hss1 hv ha⟩,
      fun h hp ho => ⟨_, congrArg ok (h.busW_eq _), State.pgWideWrite_low hp ho v⟩,
      fun h => ⟨_, rfl, State.pgWideRead_takes h⟩, ?knot, fun hstep hslow => ⟨_, rfl, State.chopTimeout_on hstep hslow⟩⟩
    intro q h hfree hsrc hplain hlast hahead hadds hapart hnear hroom
    exact ⟨_, congrArg ok (h.busW_eq _), State.knotPush_queue (s := s.answer .done)
      ⟨hfree, hsrc, hplain, hlast, hahead, hadds, hapart, hnear, hroom⟩⟩
  case nutmeg =>
    intro s via slot ofs src len plan may o free starts
    have himg (h : free) (op : ImgOp) (hslot : op.slot = slot.toNat) : s.imgFree via op.slot := by
      obtain ⟨hright, hin, hserved, hlc, hother, hidle, hstays⟩ := h
      rw [hslot]
      exact ⟨hright, hin, hserved, hlc, hother, hidle, hstays⟩
    refine ⟨fun r hr => ⟨_, rfl, State.iterEnd_counts hr⟩, fun b hb _ => ⟨_, rfl, State.buildEnd_counts hb⟩,
      fun a hpend hcount hfree hmay ha => ⟨_, rfl, State.autoRefactor_starts hpend hcount hfree hmay ha⟩,
      ⟨_, rfl, State.raise_on _ _ rfl, State.sameBut_setF _ _ _⟩,
      fun f hf hlate => ⟨_, rfl, State.fragDeadline_drops hf hlate⟩, ?_, ?_, ?_⟩
    · intro h hblock hend
      exact ⟨_, rfl, _, State.imgCmd_starts (himg h _ rfl) (by simp [o] at *; omega), rfl, rfl, rfl⟩
    · intro h hfrom hofs hsrc hlen hmax hend hwin
      exact ⟨_, rfl, _, State.imgCmd_starts (himg h _ rfl) (by simp [o, winFits] at *; omega), rfl, rfl, rfl⟩
    · intro h hmax
      exact ⟨_, rfl, _, State.imgCmd_starts (himg h _ rfl) (by simpa using hmax), rfl, rfl, rfl⟩
  case supply =>
    intro s inp mv mj okF
    have hok : okF = okBit inp.val := by
      dsimp only [okF, okBit]
      fin_cases inp <;> rfl
    rw [hok]
    exact ⟨fun hm h => ⟨⟨_, rfl, State.inputUp_started hm h⟩, ⟨_, rfl, State.inputUp_started hm h⟩⟩,
      fun h => ⟨_, rfl, State.inputLost_on h⟩, ⟨_, rfl, s.storeUp_store mj⟩, execCoverOpen_on⟩

end Sys2Proof.Machine
end

section
/-! SUPPORT. The latches of a port as one number: what a trip, a clear and a write to another register leave in it
(R76, R77, R83), and what the trip fabric leaves of its inputs and enables. -/

namespace Sys2Proof.Machine

variable {s t : State} {P : Nat → Prop} {p q mask frac : Nat}

/-! ## What a trip leaves -/

@[simp] theorem State.firstTime_tripIn (s : State) (p frac : Nat) : (s.firstTime p frac).tripIn = s.tripIn := by
  simp [State.firstTime]

theorem State.tripAgain_tripIn (s : State) (p mask frac : Nat) : (s.tripAgain p mask frac).tripIn = s.tripIn := by
  unfold State.tripAgain
  split_ifs <;> simp

/-- A latch that sets leaves the inputs. -/
theorem State.latchSet_tripIn (s : State) (p mask frac : Nat) : (s.latchSet p mask frac).tripIn = s.tripIn := by
  unfold State.latchSet
  extract_lets old latched forced off first timed told
  have hoff : off.tripIn = s.tripIn := by
    simp only [off, forced, latched]
    rw [State.noteOff_eq, State.forceLegs_eq, State.raise_tripIn, State.wrN_tripIn]
  clear_value off
  split_ifs
  · rfl
  · exact (off.tripAgain_tripIn p mask frac).trans hoff
  · simp [told, timed, first, hoff]

theorem State.srcEnabled_of_rd {bit : Nat} (h : t.rd (TRF.CFG p) = s.rd (TRF.CFG p)) :
    t.srcEnabled p bit = s.srcEnabled p bit := by
  unfold State.srcEnabled
  rw [State.on_of_rd (TRF.CFG_EN_FLT p) h, State.on_of_rd (TRF.CFG_EN_DCV p) h, State.on_of_rd (TRF.CFG_EN_TRIPN p) h]

/-- A latch that sets leaves the enables of every port. -/
theorem State.latchSet_srcEnabled (s : State) (p mask frac q bit : Nat) :
    (s.latchSet p mask frac).srcEnabled q bit = s.srcEnabled q bit := by
  refine State.srcEnabled_of_rd ?_
  by_cases hmask : mask = 0
  · rw [hmask, show s.latchSet p 0 frac = s from if_pos rfl]
  · have hne : TRF.CFG q ≠ TRF.LATCH p := by
      simp only [TRF.CFG, TRF.LATCH]
      omega
    rw [s.latchSet_keeps (tripBeside_cfg (p := q)) hmask frac (TRF.CFG q) rfl, State.wrN, State.rd_wr_ne _ _ _ _ hne]

/-! ## Latches as numbers -/

theorem State.latches_lt (s : State) (p : Nat) : s.latches p < 2 ^ 7 := Nat.mod_lt _ (by decide)

theorem State.latches_of_rd (h : t.rd (TRF.LATCH p) = s.rd (TRF.LATCH p)) : t.latches p = s.latches p :=
  congrArg (fun x : Word => x.toNat % 128) h

/-- The latches are a field of their register. -/
theorem State.latches_eq_f (s : State) (p : Nat) : s.latches p = s.f ⟨TRF.LATCH p, 0, 7⟩ := by
  simp [State.latches, State.f, getBits]

/-- CLR_REFUSED lies beside the latches. -/
@[simp] theorem State.setF_clrRefused_latches (s : State) (p q v : Nat) :
    (s.setF (TRF.LATCH_CLR_REFUSED p) v).latches q = s.latches q := by
  rw [State.latches_eq_f, State.latches_eq_f]
  exact s.setF_f_beside _ (TRF.LATCH_CLR_REFUSED p) v rfl rfl

@[simp] theorem State.raiseIf_clrRefused_latches (s : State) (b : Bool) (p q : Nat) :
    (s.raiseIf b (TRF.LATCH_CLR_REFUSED p)).latches q = s.latches q := by
  cases b
  · rfl
  · exact s.setF_clrRefused_latches p q 1

/-- A trip adds its latch to those of its own port. -/
theorem State.latchSet_latches (s : State) (hp : p < 96) (hmask : mask < 2 ^ 7) (q : Nat) :
    (s.latchSet p mask frac).latches q = s.latches q ||| (if p = q then mask else 0) := by
  split_ifs with hq
  · subst hq
    refine Nat.eq_of_testBit_eq fun k => ?_
    rw [Nat.testBit_or]
    by_cases hk : k < 7
    · exact s.latchSet_latch hp mask frac hk
    · have hout {x : Nat} (hx : x < 2 ^ 7) : x.testBit k = false :=
        Nat.testBit_lt_two_pow (hx.trans_le (Nat.pow_le_pow_right (by decide) (by omega)))
      rw [hout (State.latches_lt _ _), hout (State.latches_lt _ _), hout hmask]
      rfl
  · exact (s.latchSet_other hp (Ne.symm hq) mask frac).trans (Nat.or_zero _).symm

/-- Trips of several ports under conditions that a trip does not change: each port gets the latch where one of them names
it. -/
theorem State.foldl_latchSet_latches {α : Type} {port : α → Nat} {cond : State → α → Bool} (hmask : mask < 2 ^ 7)
    (hcond : ∀ (u : State) (r : Nat) (x : α), cond (u.latchSet r mask frac) x = cond u x) (q : Nat) :
    ∀ (l : List α) (s : State), (∀ x ∈ l, port x < 96) →
      (l.foldl (fun u x => if cond u x then u.latchSet (port x) mask frac else u) s).latches q
        = s.latches q ||| (if l.any fun x => decide (port x = q) && cond s x then mask else 0)
  | [], s, _ => (Nat.or_zero _).symm
  | x :: l, s, hport => by
    have hrest := State.foldl_latchSet_latches (port := port) hmask hcond q l
    have hl := fun y hy => hport y (List.mem_cons_of_mem x hy)
    rw [List.foldl_cons, List.any_cons]
    by_cases hx : cond s x = true
    · rw [if_pos hx, hrest _ hl, s.latchSet_latches (hport x List.mem_cons_self) hmask, Nat.or_assoc]
      simp only [hcond, hx, Bool.and_true]
      by_cases hq : port x = q
      · by_cases hany : (l.any fun y => decide (port y = q) && cond s y) = true <;> simp [hq, hany]
      · simp [hq]
    · rw [if_neg hx, hrest _ hl]
      simp [hx]

/-! ## Clearing (R83) -/

/-- The bits of a number without those of a mask. -/
theorem testBit_sub_and_self : ∀ k x m : Nat, (x - (x &&& m)).testBit k = (x.testBit k && !m.testBit k)
  | 0, x, m => by
    have hle : x &&& m ≤ x := Nat.and_le_left
    have hlow : (x &&& m) % 2 = x % 2 &&& m % 2 := Nat.and_mod_two_pow (n := 1)
    simp only [Nat.testBit_zero]
    generalize x &&& m = y at hle hlow
    rcases Nat.mod_two_eq_zero_or_one x with hx | hx <;> rcases Nat.mod_two_eq_zero_or_one m with hm | hm <;>
      simp [hx, hm] at hlow ⊢ <;> omega
  | k + 1, x, m => by
    have hle : x &&& m ≤ x := Nat.and_le_left
    have hhalf : (x &&& m) / 2 = x / 2 &&& m / 2 := Nat.and_div_two
    have hlow : (x &&& m) % 2 ≤ x % 2 := (Nat.and_mod_two_pow (n := 1)).trans_le Nat.and_le_left
    have hsub : (x - (x &&& m)) / 2 = x / 2 - (x / 2 &&& m / 2) := by
      rw [← hhalf]
      omega
    rw [Nat.testBit_succ, Nat.testBit_succ, Nat.testBit_succ, hsub]
    exact testBit_sub_and_self k _ _

/-- Beside its latch register a clear notes STAT. -/
theorem State.latchClear_keeps (s : State) (hP : ¬P (DPW.STAT p)) (mask : Nat) :
    (s.wrN (TRF.LATCH p) ((s.rd (TRF.LATCH p)).toNat - (s.latches p &&& mask))).Keeps P (s.latchClear p mask) := by
  unfold State.latchClear
  extract_lets old new cleared
  split_ifs with hsame
  · have hle : s.latches p &&& mask ≤ s.latches p := Nat.and_le_left
    have hnone : s.latches p &&& mask = 0 := by
      simp only [new, old] at hsame
      omega
    rw [hnone, Nat.sub_zero]
    intro o _
    rw [State.wrN, State.rd_wr, BitVec.ofNat_toNat, BitVec.setWidth_eq]
    split_ifs with ho
    · rw [ho]
    · rfl
  · rw [State.noteOff_eq]
    exact (State.Keeps.refl cleared).same rfl
  · exact (State.Keeps.refl cleared).setF (F := DPW.STAT_FORCED p) hP 0
  · exact ((State.Keeps.refl cleared).raise (F := DPW.STAT_FORCED p) hP).same rfl

/-- What a clear takes from the latches of its port. -/
theorem State.latchClear_testBit (s : State) (p mask k : Nat) :
    ((s.latchClear p mask).latches p).testBit k = ((s.latches p).testBit k && !mask.testBit k) := by
  by_cases hk : k < 7
  · have hstat : DPW.STAT p ≠ TRF.LATCH p := by
      simp only [TRF.LATCH, DPW.STAT]
      omega
    have hbits : s.latches p &&& mask = (s.rd (TRF.LATCH p)).toNat &&& ((2 ^ 7 - 1) &&& mask) := by
      rw [← Nat.and_assoc, Nat.and_two_pow_sub_one_eq_mod]
      rfl
    rw [State.latches_testBit _ _ hk, s.latchClear_keeps (P := (· = TRF.LATCH p)) hstat mask _ rfl, State.wrN, State.rd_wr_same,
      BitVec.getLsbD_ofNat, hbits, testBit_sub_and_self, State.latches_testBit _ _ hk, Nat.testBit_and,
      Nat.testBit_two_pow_sub_one, decide_eq_true hk, decide_eq_true (hk.trans (by decide)), Bool.true_and, Bool.true_and]
    rfl
  · have hout (u : State) : (u.latches p).testBit k = false :=
      Nat.testBit_lt_two_pow ((u.latches_lt p).trans_le (Nat.pow_le_pow_right (by decide) (by omega)))
    rw [hout, hout]
    rfl

/-- The latches of another port stay. -/
theorem State.latchClear_other (s : State) (hp : p < 96) (hq : q ≠ p) (mask : Nat) :
    (s.latchClear p mask).latches q = s.latches q := by
  have hstat : DPW.STAT p ≠ TRF.LATCH q := by
    simp only [TRF.LATCH, DPW.STAT]
    omega
  have hne : TRF.LATCH q ≠ TRF.LATCH p := by
    simp only [TRF.LATCH]
    omega
  exact State.latches_of_rd ((s.latchClear_keeps (P := (· = TRF.LATCH q)) hstat mask _ rfl).trans (State.rd_wr_ne _ _ _ _ hne))

end Sys2Proof.Machine
end

section
/-! PROOF of the statement Trips (R76 to R82): the sources, the pads, and the writes to SWTRIP, LATCH, SAFE and CFG. -/

namespace Sys2Proof.Machine

variable {s : State} {p : Nat}

/-! ## Sources (R76, R77, R82) -/

theorem State.Keeps.gstatSource {P : Nat → Prop} (hP : ¬P TRFG.GSTAT) (s : State) (i : TripInput) (b : Bool) :
    s.Keeps P (s.gstatSource i b) := by
  cases i with
  | flt | dcv => exact .refl s
  | tripN | pws | modState | sto => exact (State.Keeps.refl s).flag hP b

theorem State.gstatSource_tripIn (s : State) (i : TripInput) (b : Bool) : (s.gstatSource i b).tripIn = s.tripIn := by
  cases i with
  | flt | dcv => rfl
  | tripN | pws | modState | sto => exact s.flag_tripIn _ _

theorem State.tripInU_set (s : State) (k : Nat) (x : TripIn) : (s.setTripIn k x).tripInU k = x :=
  FMap.get_set_same _ _ _ _

theorem State.gstatSource_latches (s : State) (i : TripInput) (b : Bool) (p : Nat) :
    (s.gstatSource i b).latches p = s.latches p := by
  refine State.latches_of_rd (State.Keeps.gstatSource (P := (· = TRF.LATCH p)) ?_ s i b _ rfl)
  simp only [TRF.LATCH, TRFG.GSTAT]
  omega

theorem State.gstatSource_srcEnabled (s : State) (i : TripInput) (b : Bool) (p bit : Nat) :
    (s.gstatSource i b).srcEnabled p bit = s.srcEnabled p bit := by
  refine State.srcEnabled_of_rd (State.Keeps.gstatSource (P := (· = TRF.CFG p)) ?_ s i b _ rfl)
  simp only [TRF.CFG, TRFG.GSTAT]
  omega

theorem tripBit_lt (i : TripInput) : tripBit i < 2 ^ 7 := by
  cases i <;> simp only [tripBit] <;> decide

theorem isPin_iff (i : TripInput) : isPin i = true ↔ (∃ p, i = .flt p) ∨ i = .tripN := by
  cases i <;> simp [isPin]

/-- A source that asserts sets its latch in the ports that it forces and that enable it, and in no other. -/
theorem State.tripAssert_latches (s : State) (i : TripInput) (frac p : Nat) :
    (s.tripAssert i frac).latches p
      = s.latches p ||| (if p ∈ tripPorts i ∧ s.srcEnabled p (tripBit i) = true then tripBit i else 0) := by
  unfold State.tripAssert
  extract_lets u
  rw [State.foldl_latchSet_latches (port := fun x => x) (cond := fun u r => u.srcEnabled r (tripBit i)) (tripBit_lt i)
    (fun u r x => u.latchSet_srcEnabled r _ _ x _) p _ _ (fun x hx => tripPorts_lt hx), State.gstatSource_latches]
  have hany : ((tripPorts i).any fun x => decide (x = p) && u.srcEnabled x (tripBit i)) = true
      ↔ p ∈ tripPorts i ∧ s.srcEnabled p (tripBit i) = true := by
    simp only [u, State.gstatSource_srcEnabled, List.any_eq_true, Bool.and_eq_true, decide_eq_true_eq]
    exact ⟨fun ⟨x, hx, hxp, hen⟩ => hxp ▸ ⟨hx, hen⟩, fun ⟨hp, hen⟩ => ⟨p, hp, rfl, hen⟩⟩
  simp only [hany]
  rfl

/-- A source that asserts has an active input. -/
theorem State.tripAssert_on (s : State) (i : TripInput) (frac : Nat) : ((s.tripAssert i frac).tripInU (tripKey i)).on = true := by
  have hin : (s.tripAssert i frac).tripIn = (s.setTripIn (tripKey i) ⟨true, none⟩).tripIn := by
    refine List.foldlRecOn (motive := fun u : State => u.tripIn = _) _ _ (State.gstatSource_tripIn _ i true) fun u hu p _ => ?_
    split_ifs
    · exact (u.latchSet_tripIn p _ _).trans hu
    · exact hu
  rw [State.tripInU, hin]
  exact congrArg TripIn.on (s.tripInU_set _ _)

/-- A pin that goes inactive clears no latch. -/
theorem State.tripRelease_latches {i : TripInput} (h : tripBit i < 16) (p : Nat) : (s.tripRelease i).latches p = s.latches p := by
  unfold State.tripRelease
  rw [if_pos h]
  split_ifs
  · exact State.gstatSource_latches _ _ _ _
  · exact State.gstatSource_latches _ _ _ _

/-- The window of R81 opens where an active pin goes inactive. -/
theorem State.tripRelease_window {i : TripInput} (h : tripBit i < 16) (hon : (s.tripInU (tripKey i)).on = true) :
    (s.tripRelease i).tripInU (tripKey i) = ⟨false, some s.now⟩ := by
  unfold State.tripRelease
  rw [if_pos h, if_pos hon, State.tripInU, State.gstatSource_tripIn]
  exact s.tripInU_set _ _

theorem tripBit_pin {i : TripInput} (h : isPin i = true) : tripBit i < 16 := by
  rcases (isPin_iff i).mp h with ⟨p, rfl⟩ | rfl <;> simp [tripBit]

/-! ## Forced levels (R78) -/

/-- A fixed latch holds every output inactive. -/
theorem State.padOn_fixed (h : 16 ≤ s.latches p) (k : Nat) (high : Bool) : s.padOn p k high = false := by
  have hforced : s.forced p = true := by
    rw [State.forced, decide_eq_true (by omega : s.latches p ≠ 0), Bool.true_or]
  have hword : s.forcedWord p = 0#16 := if_pos (by omega)
  have hcode : safeCode 0#16 k high = 0 := by simp [safeCode]
  unfold State.padOn
  rw [hforced, hword, hcode]
  simp

/-- Under maskable latches alone an output follows its code in the SAFE word. -/
theorem State.padOn_programmed (hmode : s.f (DPW.CFG_MODE p) ≠ 0) (hset : s.latches p ≠ 0) (hlow : s.latches p < 16) (k : Nat)
    (high : Bool) (hcode : safeCode ((s.rd (TRF.SAFE p)).setWidth 16) k high < 2) :
    s.padOn p k high = decide (safeCode ((s.rd (TRF.SAFE p)).setWidth 16) k high = 1) := by
  have hforced : s.forced p = true := by
    rw [State.forced, decide_eq_true hset, Bool.true_or]
  have hword : s.forcedWord p = (s.rd (TRF.SAFE p)).setWidth 16 := (if_neg (by omega)).trans (if_pos hset)
  unfold State.padOn
  rw [if_neg hmode, hforced, hword]
  generalize safeCode ((s.rd (TRF.SAFE p)).setWidth 16) k high = code at hcode ⊢
  interval_cases code <;> rfl

/-! ## SWTRIP -/

/-- SWTRIP sets the SW latch of the ports whose bits are 1. -/
theorem State.swTripWrite_latches (s : State) (n : Fin 3) (v : Word) (q : Nat) :
    (s.swTripWrite n.val v).latches q = s.latches q ||| (if q / 32 = n.val ∧ v.getLsbD (q % 32) = true then 8 else 0) := by
  unfold State.swTripWrite
  rw [State.foldl_latchSet_latches (port := fun b => 32 * n.val + b) (cond := fun _ b => v.getLsbD b) (by decide)
    (fun _ _ _ => rfl) q _ _ (fun b hb => by have := List.mem_range.mp hb; omega)]
  have hany : ((List.range 32).any fun b => decide (32 * n.val + b = q) && v.getLsbD b) = true
      ↔ q / 32 = n.val ∧ v.getLsbD (q % 32) = true := by
    simp only [List.any_eq_true, List.mem_range, Bool.and_eq_true, decide_eq_true_eq]
    constructor
    · rintro ⟨b, hb, rfl, hv⟩
      exact ⟨by omega, by rwa [show (32 * n.val + b) % 32 = b by omega]⟩
    · rintro ⟨hq, hv⟩
      exact ⟨q % 32, by omega, by omega, hv⟩
  simp only [hany]

/-! ## LATCH (R81, R82) -/

theorem latchMask_bits (f : Nat → Bool) (k : Nat) : (latchMask f).testBit k = (decide (k < 4) && f k) := by
  have hall : ∀ b0 b1 b2 b3 : Bool, latchMask ([b0, b1, b2, b3].getD · false) < 2 ^ 4
      ∧ ∀ k : Fin 4, (latchMask ([b0, b1, b2, b3].getD · false)).testBit k.val = [b0, b1, b2, b3].getD k.val false := by
    decide
  obtain ⟨hlt, hbit⟩ := hall (f 0) (f 1) (f 2) (f 3)
  by_cases hk : k < 4
  · rw [decide_eq_true hk, Bool.true_and]
    refine (hbit ⟨k, hk⟩).trans ?_
    interval_cases k <;> rfl
  · rw [decide_eq_false hk, Bool.false_and]
    exact Nat.testBit_lt_two_pow (lt_of_lt_of_le hlt (Nat.pow_le_pow_right (by decide) (by omega)))

/-- The latches whose clear a write of `v` asks for and gets. -/
def State.granted (s : State) (p : Nat) (v : Word) (b : Nat) : Bool := !s.clearRefused p (2 ^ b) && v.getLsbD b

/-- The state in which a write of `v` clears latches: it has cleared CLR_REFUSED where its bit is 1. -/
def State.refusalCleared (s : State) (p : Nat) (v : Word) : State :=
  if v.getLsbD 8 then s.setF (TRF.LATCH_CLR_REFUSED p) 0 else s

theorem State.refusalCleared_latches (s : State) (p : Nat) (v : Word) (q : Nat) :
    (s.refusalCleared p v).latches q = s.latches q := by
  unfold State.refusalCleared
  split_ifs
  · exact s.setF_clrRefused_latches p q 0
  · rfl

/-- A latch write clears what is granted and notes what is refused. -/
theorem State.latchWrite_eq (s : State) (p : Nat) (v : Word) :
    ∃ refused : Bool, s.latchWrite p v 0#32
        = ((s.refusalCleared p v).latchClear p (latchMask (s.granted p v))).raiseIf refused (TRF.LATCH_CLR_REFUSED p)
      ∧ ∀ j : Fin 4, v.getLsbD j.val = true → s.clearRefused p (2 ^ j.val) = true → refused = true := by
  unfold State.latchWrite
  extract_lets one asks refused granted anyRef cleared latched final
  have hlatched : latched = s.refusalCleared p v := if_pos rfl
  have hgranted : granted = [0, 1, 2, 3].filter (s.granted p v) := by
    simp only [granted, asks, List.filter_filter, BitVec.getLsbD_zero, Bool.not_false, Bool.and_true]
    rfl
  refine ⟨_, by rw [show final = latched.latchClear p _ from rfl, hlatched, hgranted]; rfl, fun j hv href => ?_⟩
  have hmem : j.val ∈ refused := by
    simp only [refused, asks, List.mem_filter, one, hv, href, BitVec.getLsbD_zero]
    fin_cases j <;> simp
  have hsome : refused.isEmpty = false := by
    rw [List.isEmpty_eq_false_iff]
    exact List.ne_nil_of_mem hmem
  simp [anyRef, hsome]

theorem State.latchWrite_testBit (s : State) (p : Nat) (v : Word) (k : Nat) :
    ((s.latchWrite p v 0#32).latches p).testBit k
      = ((s.latches p).testBit k && !(decide (k < 4) && s.granted p v k)) := by
  obtain ⟨refused, heq, -⟩ := s.latchWrite_eq p v
  rw [heq, State.raiseIf_clrRefused_latches, State.latchClear_testBit, State.refusalCleared_latches, latchMask_bits]

theorem State.latchWrite_other (s : State) {p q : Nat} (hp : p < 96) (hq : q ≠ p) (v : Word) :
    (s.latchWrite p v 0#32).latches q = s.latches q := by
  obtain ⟨refused, heq, -⟩ := s.latchWrite_eq p v
  rw [heq, State.raiseIf_clrRefused_latches, State.latchClear_other _ hp hq, State.refusalCleared_latches]

/-- A refused clear sets CLR_REFUSED. -/
theorem State.latchWrite_refused (s : State) {p : Nat} {v : Word} {j : Fin 4} (hv : v.getLsbD j.val = true)
    (href : s.clearRefused p (2 ^ j.val) = true) : (s.latchWrite p v 0#32).on (TRF.LATCH_CLR_REFUSED p) = true := by
  obtain ⟨refused, heq, hrefused⟩ := s.latchWrite_eq p v
  rw [heq, State.raiseIf_eq_raise _ (hrefused j hv href)]
  exact State.raise_on _ _ rfl

/-! ## SAFE and CFG (R79, R80) -/

/-- A refused SAFE word is noted and leaves the register. -/
theorem State.safeWrite_bad (s : State) {p : Fin 96} {v : Word} (hbad : safeBad v = true) :
    (s.safeWrite p.val v).on TRFG.ERR_BAD_ARG = true ∧ (s.safeWrite p.val v).f TRFG.ERR_PORT = p.val
      ∧ (s.safeWrite p.val v).rd (TRF.SAFE p.val) = s.rd (TRF.SAFE p.val) := by
  have hnoted : s.safeWrite p.val v = (s.raise TRFG.ERR_BAD_ARG).setF TRFG.ERR_PORT p.val := if_pos hbad
  have hne : TRF.SAFE p.val ≠ TRFG.ERR := by
    simp only [TRF.SAFE, TRFG.ERR]
    omega
  rw [hnoted]
  refine ⟨?_, ?_, ?_⟩
  · rw [State.setF_on_beside _ _ _ _ rfl rfl]
    exact s.raise_on _ rfl
  · rw [State.setF_f _ _ _ rfl]
    exact Nat.mod_eq_of_lt (p.isLt.trans (by decide))
  · exact (State.rd_setF_ne _ TRFG.ERR_PORT _ _ hne).trans (s.rd_setF_ne TRFG.ERR_BAD_ARG 1 _ hne)

theorem State.safeWrite_off {p : Nat} {v : Word} (hgood : safeBad v = false) (hoff : s.f (DPW.CFG_MODE p) = 0) :
    s.safeWrite p v = s.store (TRF.SAFE p) v :=
  (if_neg (by simp [hgood])).trans (if_neg (by simp [hoff]))

theorem State.safeWrite_locked {p : Nat} {v : Word} (hgood : safeBad v = false) (hmode : s.f (DPW.CFG_MODE p) ≠ 0) :
    s.safeWrite p v = s.sysIllegal :=
  (if_neg (by simp [hgood])).trans (if_pos hmode)

theorem trfEnDcv_stored : ∀ p : Fin 96, (TRF.CFG_EN_DCV p.val).stored = true := by decide +kernel
theorem trfEnTripn_stored : ∀ p : Fin 96, (TRF.CFG_EN_TRIPN p.val).stored = true := by decide +kernel

/-- In OFF a flag of CFG takes its bit of the written word. -/
theorem State.trfCfgStore_on (s : State) {p b : Nat} {v : Word} (hoff : s.f (DPW.CFG_MODE p) = 0)
    (hown : (⟨TRF.CFG p, b, 1⟩ : Field).stored = true) (hb : b < 32) :
    (s.trfCfgStore p v).on ⟨TRF.CFG p, b, 1⟩ = v.getLsbD b := by
  have hstore : (s.store (TRF.CFG p) v).f ⟨TRF.CFG p, b, 1⟩ = v.toNat / 2 ^ b % 2 := s.store_f ⟨TRF.CFG p, b, 1⟩ hown hb v 0#32
  unfold State.trfCfgStore
  rw [if_neg (by simp [hoff])]
  refine (State.on_of_rd ⟨TRF.CFG p, b, 1⟩ (State.latchSet_cfg _ p _ 32)).trans ?_
  rw [State.on, hstore, BitVec.getLsbD, Nat.testBit_eq_decide_div_mod_eq]
  exact decide_eq_decide.mpr (by omega)

/-! ## The statement -/

/-- Settles O31: each command by the lemma of what it does to the latches, the pads by the two kinds of latch. -/
theorem trips : Obligations.Trips := by
  unfold Obligations.Trips
  refine ⟨⟨?asserts, ?release, ?pads⟩, fun s m p n v => ⟨fun h => ?swtrip, fun h => ?latch, fun h => ?safe, fun h => ?cfg⟩⟩
  case asserts =>
    intro s i frac asserts
    have hasserts : s.srcAsserts i = true ↔ asserts := by
      cases i <;> simp [asserts, State.srcAsserts, State.caqCh, State.isIn, stRUN, stSAFE]
    refine ⟨fun h => congrArg ok (if_neg (mt hasserts.mp h)), fun h => ⟨_, congrArg ok (if_pos (hasserts.mpr h)), ?_, ?_, ?_⟩⟩
    · intro p hp
      rw [State.tripAssert_latches]
      exact ⟨fun hen => by rw [if_pos ⟨hp, hen⟩], fun hen => by simp [hen]⟩
    · intro p hp
      rw [State.tripAssert_latches, if_neg fun h => hp h.1, Nat.or_zero]
    · exact s.tripAssert_on i frac.val
  case release =>
    intro s i
    by_cases hpin : isPin i = true
    · have hmask := tripBit_pin hpin
      refine ⟨_, congrArg ok (if_pos hpin), fun p => State.tripRelease_latches hmask p.val,
        fun _ hon => State.tripRelease_window hmask hon, fun hflt htrip => ?_⟩
      exact absurd ((isPin_iff i).mp hpin) (by simp [hflt, htrip])
    · exact ⟨_, congrArg ok (if_neg hpin), fun _ => rfl, fun h => absurd ((isPin_iff i).mpr h) hpin, fun _ _ => rfl⟩
  case pads =>
    intro s p k high hmode
    refine ⟨fun h => State.padOn_fixed h k.val high, fun hset hlow => ?_⟩
    intro code
    have hcode : safeCode ((s.rd (TRF.SAFE p.val)).setWidth 16) k.val high = code := by
      simp [safeCode, code]
    have hpad := State.padOn_programmed hmode hset hlow k.val high
    rw [hcode] at hpad
    exact ⟨fun h => by simp [hpad (by omega), h], fun h => by simp [hpad (by omega), h]⟩
  case swtrip =>
    refine ⟨_, congrArg ok (h.busW_eq _), fun b => ?_, fun q hq => ?_⟩
    · have hbit : (32 * n.val + b.val) / 32 = n.val ∧ (32 * n.val + b.val) % 32 = b.val := by omega
      rw [State.swTripWrite_latches, hbit.1, hbit.2]
      simp only [true_and]
      rfl
    · rw [State.swTripWrite_latches, if_neg fun h => hq h.1]
      exact Nat.or_zero _
  case latch =>
    have hbit := (s.answer .done).latchWrite_testBit p.val v
    refine ⟨_, congrArg ok (h.busW_eq _), fun j hv hfree => ?_, fun j hv href => ⟨?_, ?_⟩, fun j hv => ?_, fun j hj => ?_,
      fun q hq => ?_⟩
    · have hgranted : (s.answer .done).granted p.val v j.val = true := by
        rw [State.granted, hv]
        simp [show (s.answer .done).clearRefused p.val (2 ^ j.val) = false from hfree]
      rw [hbit, hgranted, decide_eq_true j.isLt]
      exact Bool.and_false _
    · have hgranted : (s.answer .done).granted p.val v j.val = false := by
        simp [State.granted, show (s.answer .done).clearRefused p.val (2 ^ j.val) = true from href]
      rw [hbit, hgranted, Bool.and_false]
      exact Bool.and_true _
    · exact State.latchWrite_refused _ hv href
    · rw [hbit, State.granted, hv, Bool.and_false, Bool.and_false]
      exact Bool.and_true _
    · rw [hbit, decide_eq_false (by omega : ¬j < 4), Bool.false_and]
      exact Bool.and_true _
    · exact State.latchWrite_other (s.answer .done) p.isLt (fun e => hq (Fin.ext e)) v
  case safe =>
    refine ⟨_, congrArg ok (h.busW_eq _), fun hbad => State.safeWrite_bad (s.answer .done) hbad, fun hgood hoff => ⟨?_, ?_⟩,
      fun hgood hmode => ?_⟩
    · exact State.safeWrite_safe (s.answer .done) hgood hoff
    · intro o ho
      rw [State.safeWrite_off (s := s.answer .done) hgood hoff]
      exact ((s.answer .done).store_sameBut _ v 0#32).1 o (by simpa using ho)
    · rw [State.safeWrite_locked (s := s.answer .done) hgood hmode]
      exact ⟨rfl, List.length_append⟩
  case cfg =>
    refine ⟨_, congrArg ok (h.busW_eq _), fun hmode => ?_, fun hoff => ⟨?_, ?_, ?_⟩⟩
    · have hlocked : (s.answer .done).trfCfgStore p.val v = (s.answer .done).sysIllegal := if_pos hmode
      rw [hlocked]
      rfl
    · exact State.trfCfgStore_on (s.answer .done) hoff (trfEnFlt_stored p) (by decide)
    · exact State.trfCfgStore_on (s.answer .done) hoff (trfEnDcv_stored p) (by decide)
    · exact State.trfCfgStore_on (s.answer .done) hoff (trfEnTripn_stored p) (by decide)

end Sys2Proof.Machine
end

section
/-! PROOF of the negation of the statement CurrentSensing (R90 to R98). A bit of a channel whose set a strobe of the same
tick has latched makes the port latch that set again (R94), and this also takes STAT.SAT (R96) into the mark that channel
DSA of the port keeps of it. Where software has cleared SAT between the strobe and a bit of DSB, that bit changes channel
DSA, which the statement says it leaves alone. -/

namespace Sys2Proof.Machine

variable {s : State} {p : Nat}

/-! ## The commands -/

theorem exec_trgcFire (s : State) (p : Fin 96) (n : Fin 4) (lead : Fin 32) (dest : BitVec 4) :
    exec (.trgcFire p n lead dest) s = .next (s.trgc p.val n.val lead.val dest) :=
  rfl

/-- A bit of a sampled channel enters it, and a set of this tick is latched again. -/
theorem exec_caqFilterOutput_bit {ch : Fin 204} {r : Nat} (bit : Bool) (hrise : s.bitRise (chGroup ch.val) = some r)
    (hon : s.chOn ch.val = true) : exec (.caqFilterOutput ch bit) s = .next ((s.filterBit ch.val bit r).relatch ch.val) := by
  change execCaqFilterOutput ch bit s = _
  unfold execCaqFilterOutput
  rw [hrise, hon]
  rfl

/-! ## A set latched again in its tick (R94, R96) -/

/-- A second latch in a tick keeps the mark of SAT only while SAT still stands. -/
theorem State.caqStrobe_satBefore (h : (s.caqCh (2 * p)).strobed = some s.now) :
    ((s.caqStrobe p).caqCh (2 * p)).satBefore = ((s.caqCh (2 * p)).satBefore && s.on (CAQ.STAT_SAT p)) := by
  have hcaq : (s.caqStrobe p).caqCh (2 * p) = { s.caqCh (2 * p) with
      strobed := some s.now, satBefore := (s.caqCh (2 * p)).satBefore && s.on (CAQ.STAT_SAT p) } := by
    unfold State.caqStrobe
    simp only [if_pos h]
    split <;> exact FMap.get_set_same _ _ _ _
  rw [hcaq]

/-- The value of channel DSB concerns the set of its port alone. -/
theorem State.relatch_dsb (hp : p < 96) :
    s.relatch (2 * p + 1) = if (s.caqCh (2 * p)).strobed = some s.now then s.caqStrobe p else s := by
  have hports : chPorts (2 * p + 1) = [p] := by
    rw [chPorts, if_pos (by omega)]
    exact congrArg (fun q => [q]) (by omega)
  rw [State.relatch, hports]
  rfl

/-! ## The state -/

/-- Tick 8 with DSCK0 rising since tick 0 and both channels of port 0 sampled; SAT stands from an earlier set. -/
def satStands : State :=
  { [CAQG.CFG_EN 0, CAQ.CFG_EN_A 0, CAQ.CFG_EN_B 0, CAQ.STAT_SAT 0].foldl State.raise State.reset with
    now := 8, dsck := ⟨[(0, 2)]⟩ }

/-- Trigger compare 1 of port 0 strobes. -/
def satStrobed : State := satStands.trgc 0 1 0 1#4

/-- An engine clears SAT in the tick of the strobe. -/
def satCleared : State := satStrobed.busWrite (.eng 14) (CAQ.STAT 0) 0x80#32 0#32

/-- Two commands of one tick lead there. -/
theorem satCleared_reached : exec (.trgcFire 0 1 0 1#4) satStands = .next satStrobed
    ∧ exec (.registerWrite (.eng 14) (CAQ.STAT 0) 4 0x80#32 0#32) satStrobed = .next satCleared :=
  ⟨exec_trgcFire satStands 0 1 0 1#4, exec_registerWrite_word (by decide)⟩

theorem satCleared_samples : satCleared.bitRise 0 = some 0 ∧ satCleared.chOn 1 = true ∧ (satCleared.caqCh 1).stuck = false := by
  decide +kernel

/-- Channel DSA remembers the SAT that the strobe found. -/
theorem satCleared_marked : (satCleared.caqCh 0).satBefore = true := by decide +kernel

/-- The bit of DSB itself neither undoes the strobe nor sets SAT. -/
theorem satCleared_bit : ((satCleared.filterBit 1 true 0).caqCh 0).strobed = some (satCleared.filterBit 1 true 0).now
    ∧ (satCleared.filterBit 1 true 0).on (CAQ.STAT_SAT 0) = false := by
  decide +kernel

/-- With the set latched again the mark is gone. -/
theorem satCleared_unmarked : (((satCleared.filterBit 1 true 0).relatch 1).caqCh 0).satBefore = false := by
  obtain ⟨hstrobed, hsat⟩ := satCleared_bit
  rw [State.relatch_dsb (p := 0) (by decide), if_pos hstrobed, State.caqStrobe_satBefore (p := 0) hstrobed, hsat, Bool.and_false]

/-! ## The statement -/

/-- Refutes O34: a bit of channel DSB need not leave channel DSA as it is. In the tick of a strobe, after a write has
cleared STAT.SAT, it latches the set of the port again and takes the cleared SAT into channel DSA. -/
theorem not_currentSensing : ¬ Obligations.CurrentSensing := by
  unfold Obligations.CurrentSensing
  rintro ⟨⟨hchannels, -⟩, -⟩
  obtain ⟨⟨t, hexec, -, hbit⟩, -⟩ := hchannels satCleared 1 true false
  obtain ⟨hrise, hon, hlive⟩ := satCleared_samples
  obtain ⟨-, -, hothers, -⟩ := hbit 0 hrise (by simp [hon]) hlive
  obtain rfl : (satCleared.filterBit 1 true 0).relatch 1 = t :=
    Host.Outcome.next.inj ((exec_caqFilterOutput_bit (ch := 1) true hrise hon).symm.trans hexec)
  have hsame := congrArg CaqCh.satBefore (hothers 0 Nat.zero_ne_one)
  rw [satCleared_unmarked, satCleared_marked] at hsame
  exact Bool.false_ne_true hsame

end Sys2Proof.Machine
end

section
/-! SUPPORT. The registers of a feedback unit by fields: a field is named as it stands in unit 0, so that which fields a
write leaves is decided by closed terms, and a relation with one rule per update says which fields of a unit a sequence of
updates changes at most. -/

namespace Sys2Proof.Machine

/-! ## Fields of unit `p` -/

/-- The field `G` of unit 0, as it stands in unit `p` (R124). -/
def Field.inUnit (G : Field) (p : Nat) : Field := ⟨G.off + 0x100 * p, G.lo, G.w⟩

/-- A whole register, as a field. -/
def wholeReg (o : Nat) : Field := ⟨o, 0, 32⟩

/-- A write of `F` leaves `G`. -/
def Field.spares (F G : Field) : Bool := F.ok && (decide (G.off ≠ F.off) || F.beside G)

theorem State.setF_f_spared (s : State) {F G : Field} (h : F.spares G = true) (p v : Nat) :
    (s.setF (F.inUnit p) v).f (G.inUnit p) = s.f (G.inUnit p) := by
  simp only [Field.spares, Bool.and_eq_true, Bool.or_eq_true, decide_eq_true_eq] at h
  obtain ⟨hok, happart | hbeside⟩ := h
  · exact s.setF_f_apart _ _ _ fun e => happart (Nat.add_right_cancel e)
  · exact s.setF_f_beside (G.inUnit p) (F.inUnit p) v hok hbeside

theorem State.rd_of_f {s t : State} {o : Nat} (h : t.f (wholeReg o) = s.f (wholeReg o)) : t.rd o = s.rd o := by
  have hword (u : State) : u.f (wholeReg o) = (u.rd o).toNat := by
    rw [State.f, getBits, wholeReg, Nat.pow_zero, Nat.div_one, Nat.mod_eq_of_lt (u.rd o).isLt]
  rw [hword, hword] at h
  exact BitVec.eq_of_toNat_eq h

theorem State.wr_f_spared (s : State) {o : Nat} {G : Field} (h : (wholeReg o).spares G = true) (p : Nat) (v : Word) :
    (s.wr (o + 0x100 * p) v).f (G.inUnit p) = s.f (G.inUnit p) := by
  have hfield : (s.wr (o + 0x100 * p) v).f (G.inUnit p) = (s.setF ((wholeReg o).inUnit p) v.toNat).f (G.inUnit p) := by
    have hword (x : Word) : putBits 0 32 x v.toNat = v := by
      refine BitVec.eq_of_toNat_eq ?_
      rw [putBits_toNat 0 32 x v.toNat (Nat.le_refl _)]
      have := x.isLt
      have := v.isLt
      omega
    rw [State.setF]
    exact congrArg (fun w => (s.wr _ w).f (G.inUnit p)) (hword _).symm
  rw [hfield, s.setF_f_spared h]

/-! ## Which fields of a unit change -/

/-- In unit `p`, `t` is `s` but for the fields of `l`. -/
def State.UnitBut (p : Nat) (l : List Field) (s t : State) : Prop :=
  ∀ G : Field, l.all (Field.spares · G) = true → t.f (G.inUnit p) = s.f (G.inUnit p)

namespace State.UnitBut
variable {p : Nat} {l k : List Field} {s t u : State}

theorem refl (s : State) : s.UnitBut p l s := fun _ _ => rfl

/-- What leaves the register file alone. -/
theorem same (h : s.UnitBut p l t) (hregs : u.regs = t.regs) : s.UnitBut p l u :=
  fun G hG => (State.f_of_rd _ (congrArg (fun r : FMap Word => r.get regReset _) hregs)).trans (h G hG)

theorem setPfb (h : s.UnitBut p l t) (q : Nat) (x : PfbUnit) : s.UnitBut p l (t.setPfb q x) := h.same rfl

theorem cancel (h : s.UnitBut p l t) (c : Instr) : s.UnitBut p l (t.cancel c) := h.same rfl

theorem resched (h : s.UnitBut p l t) (dt : Nat) (c : Instr) : s.UnitBut p l (t.resched dt c) := h.same rfl

theorem recordStat (h : s.UnitBut p l t) (cls code unit sev stat : Nat) : s.UnitBut p l (t.recordStat cls code unit sev stat) :=
  h.same rfl

/-- What follows changes no further field. -/
theorem trans (h : s.UnitBut p l t) (h' : t.UnitBut p k u) (hk : k ⊆ l := by decide) : s.UnitBut p l u := by
  intro G hG
  rw [List.all_eq_true] at hG
  exact (h' G (List.all_eq_true.mpr fun F hF => hG F (hk hF))).trans (h G (List.all_eq_true.mpr hG))

theorem setF (h : s.UnitBut p l t) (F : Field) (v : Nat) (hF : F ∈ l := by decide) : s.UnitBut p l (t.setF (F.inUnit p) v) :=
  fun G hG => (t.setF_f_spared (List.all_eq_true.mp hG F hF) p v).trans (h G hG)

theorem flag (h : s.UnitBut p l t) (F : Field) (b : Bool) (hF : F ∈ l := by decide) : s.UnitBut p l (t.flag (F.inUnit p) b) :=
  h.setF F _ hF

theorem raise (h : s.UnitBut p l t) (F : Field) (hF : F ∈ l := by decide) : s.UnitBut p l (t.raise (F.inUnit p)) := h.setF F 1 hF

theorem bump (h : s.UnitBut p l t) (F : Field) (n : Nat) (hF : F ∈ l := by decide) : s.UnitBut p l (t.bump (F.inUnit p) n) := h.setF F _ hF

theorem bumpMod (h : s.UnitBut p l t) (F : Field) (n : Nat) (hF : F ∈ l := by decide) : s.UnitBut p l (t.bumpMod (F.inUnit p) n) :=
  h.setF F _ hF

theorem wr (h : s.UnitBut p l t) (o : Nat) (v : Word) (ho : wholeReg o ∈ l := by decide) : s.UnitBut p l (t.wr (o + 0x100 * p) v) :=
  fun G hG => (t.wr_f_spared (List.all_eq_true.mp hG _ ho) p v).trans (h G hG)

theorem ite {c : Prop} [Decidable c] {a b : State} (ha : s.UnitBut p l a) (hb : s.UnitBut p l b) :
    s.UnitBut p l (if c then a else b) := by
  split
  · exact ha
  · exact hb

theorem raiseIf (h : s.UnitBut p l t) (F : Field) (b : Bool) (hF : F ∈ l := by decide) : s.UnitBut p l (t.raiseIf b (F.inUnit p)) :=
  .ite (h.raise F hF) h

/-! ### Reads -/

theorem f (h : s.UnitBut p l t) (G : Field) (hG : l.all (Field.spares · G) = true := by decide) : t.f (G.inUnit p) = s.f (G.inUnit p) :=
  h G hG

theorem fi (h : s.UnitBut p l t) (G : Field) (hG : l.all (Field.spares · G) = true := by decide) : t.fi (G.inUnit p) = s.fi (G.inUnit p) :=
  congrArg (signedOf G.w) (h G hG)

theorem on (h : s.UnitBut p l t) (G : Field) (hG : l.all (Field.spares · G) = true := by decide) : t.on (G.inUnit p) = s.on (G.inUnit p) :=
  congrArg (fun n : Nat => decide (n ≠ 0)) (h G hG)

theorem rd (h : s.UnitBut p l t) (o : Nat) (hG : l.all (Field.spares · (wholeReg o)) = true := by decide) :
    t.rd (o + 0x100 * p) = s.rd (o + 0x100 * p) :=
  State.rd_of_f (h (wholeReg o) hG)

theorem rdI (h : s.UnitBut p l t) (o : Nat) (hG : l.all (Field.spares · (wholeReg o)) = true := by decide) :
    t.rdI (o + 0x100 * p) = s.rdI (o + 0x100 * p) :=
  congrArg BitVec.toInt (h.rd o hG)

end State.UnitBut

/-! ## Numbers in registers -/

theorem clampInt_word (lo hi : Word) (x : Int) :
    -2 ^ 31 ≤ clampInt lo.toInt hi.toInt x ∧ clampInt lo.toInt hi.toInt x < 2 ^ 31 := by
  have hlo := lo.toInt_lt
  have hlo' := lo.le_toInt
  have hhi := hi.toInt_lt
  have hhi' := hi.le_toInt
  unfold clampInt
  split_ifs <;> omega

theorem satS_half_bounds (x : Int) : -2 ^ 15 ≤ satS 16 x ∧ satS 16 x < 2 ^ 15 := by
  unfold satS clampInt
  norm_num
  split
  · omega
  · split <;> omega

/-- A signed field of 16 bits reads back what fits into it. -/
theorem State.fi_setFi_sat (s : State) (F : Field) (h : F.ok = true) (hw : F.w = 16) (x : Int) :
    (s.setFi F (satS 16 x)).fi F = satS 16 x := by
  have hread : (s.setFi F (satS 16 x)).f F = (BitVec.ofInt 16 (satS 16 x)).toNat := by
    rw [State.setFi, s.setF_f F _ h, hw]
    exact Nat.mod_eq_of_lt (BitVec.isLt _)
  rw [State.fi, hread, hw, signedOf, BitVec.ofNat_toNat, BitVec.setWidth_eq]
  exact BitVec.toInt_ofInt_eq_self (by decide) (satS_half_bounds x).1 (satS_half_bounds x).2

/-- A counter that saturates (R7). -/
theorem State.bump_f (s : State) (F : Field) (h : F.ok = true) : (s.bump F).f F = min (s.f F + 1) (2 ^ F.w - 1) := by
  rw [State.bump, s.setF_f F _ h]
  refine Nat.mod_eq_of_lt (Nat.lt_of_le_of_lt (Nat.min_le_right _ _) ?_)
  have := Nat.two_pow_pos F.w
  omega

end Sys2Proof.Machine
end

section
/-! SUPPORT. What the operations of a feedback unit do to its registers (R104 to R107, R113 to R115): placing POS, a counted
step, an edge, standstill; for each the fields that it writes and what it leaves in them. -/

namespace Sys2Proof.Machine

variable {s t : State} {p : Nat}

@[simp] theorem State.pfbU_setPfb_same (s : State) (p : Nat) (u : PfbUnit) : (s.setPfb p u).pfbU p = u := FMap.get_set_same _ _ _ _

section memory
variable (s : State) (p : Nat) (F : Field)

@[simp] theorem State.wr_pfbU (o : Nat) (v : Word) : (s.wr o v).pfbU p = s.pfbU p := rfl
@[simp] theorem State.wrN_pfbU (o v : Nat) : (s.wrN o v).pfbU p = s.pfbU p := rfl
@[simp] theorem State.wrI_pfbU (o : Nat) (v : Int) : (s.wrI o v).pfbU p = s.pfbU p := rfl
@[simp] theorem State.setF_pfbU (v : Nat) : (s.setF F v).pfbU p = s.pfbU p := rfl
@[simp] theorem State.flag_pfbU (b : Bool) : (s.flag F b).pfbU p = s.pfbU p := rfl
@[simp] theorem State.raise_pfbU : (s.raise F).pfbU p = s.pfbU p := rfl
@[simp] theorem State.bump_pfbU (n : Nat) : (s.bump F n).pfbU p = s.pfbU p := rfl
@[simp] theorem State.bumpMod_pfbU (n : Nat) : (s.bumpMod F n).pfbU p = s.pfbU p := rfl
@[simp] theorem State.cancel_pfbU (c : Instr) : (s.cancel c).pfbU p = s.pfbU p := rfl
@[simp] theorem State.resched_pfbU (dt : Nat) (c : Instr) : (s.resched dt c).pfbU p = s.pfbU p := rfl
@[simp] theorem State.record_pfbU (cls code unit sev : Nat) (x : BitVec 128) : (s.record cls code unit sev x).pfbU p = s.pfbU p := rfl
@[simp] theorem State.recordStat_pfbU (cls code unit sev stat : Nat) : (s.recordStat cls code unit sev stat).pfbU p = s.pfbU p := rfl

@[simp] theorem State.raiseIf_pfbU (b : Bool) : (s.raiseIf b F).pfbU p = s.pfbU p := by cases b <;> rfl

end memory

/-! ## POS within the soft limits (R106, R107) -/

/-- What a new position writes. -/
def posFields : List Field :=
  [wholeReg (PFB.POS 0), PFB.OVR_V 0, PFB.STAT_OVR_SAT 0, PFB.STAT_LIMIT 0, PFB.STAT_AT_HI 0, PFB.STAT_AT_LO 0]

/-- The soft limits of unit `p` applied to a position. -/
def State.softClamp (s : State) (p : Nat) (x : Int) : Int := clampInt (s.rdI (PFB.SL_LO p)) (s.rdI (PFB.SL_HI p)) x

theorem State.atLimits_unitBut (s : State) (p : Nat) : s.UnitBut p [PFB.STAT_AT_HI 0, PFB.STAT_AT_LO 0] (s.atLimits p) :=
  ((State.UnitBut.refl s).flag (PFB.STAT_AT_HI 0) _).flag (PFB.STAT_AT_LO 0) _

theorem State.setOvr_unitBut (s : State) (p : Nat) (v : Int) :
    s.UnitBut p [PFB.OVR_V 0, PFB.STAT_OVR_SAT 0] (s.setOvr p v) :=
  ((State.UnitBut.refl s).setF (PFB.OVR_V 0) _).raiseIf (PFB.STAT_OVR_SAT 0) _

/-- OVERRUN reads what was put into it, saturated. -/
theorem State.setOvr_fi (s : State) (p : Nat) (v : Int) : (s.setOvr p v).fi (PFB.OVR_V p) = satS 16 v := by
  have hsat := (State.UnitBut.refl (p := p) (l := [PFB.STAT_OVR_SAT 0]) (s.setFi (PFB.OVR_V p) (satS 16 v))).raiseIf
    (PFB.STAT_OVR_SAT 0) (decide (satS 16 v ≠ v))
  exact (hsat.fi (PFB.OVR_V 0)).trans (s.fi_setFi_sat (PFB.OVR_V p) rfl rfl v)

/-- A position within the soft limits reads back. -/
theorem State.rdI_wrI_softClamp (s t : State) (p o : Nat) (x : Int) : (t.wrI o (s.softClamp p x)).rdI o = s.softClamp p x :=
  t.rdI_wrI_same o _ (clampInt_word _ _ x).1 (clampInt_word _ _ x).2

theorem State.place_unitBut (s : State) (p : Nat) (x : Int) : s.UnitBut p posFields (s.place p x) :=
  .trans (.raiseIf (.trans (.wr (.refl s) (PFB.POS 0) _) (State.setOvr_unitBut _ p _)) (PFB.STAT_LIMIT 0) _)
    (State.atLimits_unitBut _ p)

/-- POS and OVERRUN where the unit is placed at `x`. -/
theorem State.place_pos (s : State) (p : Nat) (x : Int) : (s.place p x).rdI (PFB.POS p) = s.softClamp p x
    ∧ (s.place p x).fi (PFB.OVR_V p) = satS 16 (x - s.softClamp p x) := by
  have hafter : ((s.wrI (PFB.POS p) (s.softClamp p x)).setOvr p (x - s.softClamp p x)).UnitBut p
      [PFB.STAT_LIMIT 0, PFB.STAT_AT_HI 0, PFB.STAT_AT_LO 0] (s.place p x) :=
    .trans (.raiseIf (.refl _) (PFB.STAT_LIMIT 0) _) (State.atLimits_unitBut _ p)
  refine ⟨(hafter.rdI (PFB.POS 0)).trans ?_, (hafter.fi (PFB.OVR_V 0)).trans (State.setOvr_fi _ p _)⟩
  exact ((State.setOvr_unitBut _ p _).rdI (PFB.POS 0)).trans (s.rdI_wrI_softClamp s p _ x)

/-- Placing changes three registers and nothing else. -/
theorem State.place_sameBut (s : State) (p : Nat) (x : Int) : s.sameBut (s.place p x) [PFB.POS p, PFB.OVR p, PFB.STAT p] := by
  have hraise (u : State) (b : Bool) (F : Field) (hF : F.off = PFB.STAT p) :
      u.sameBut (u.raiseIf b F) [PFB.POS p, PFB.OVR p, PFB.STAT p] := by
    cases b
    · exact ⟨fun _ _ => rfl, rfl⟩
    · exact State.sameBut_wr (by simp [hF]) _
  refine .trans (.trans (.trans (.trans (.trans (State.sameBut_wr ?_ _) (State.sameBut_wr ?_ _)) (hraise _ _ _ rfl))
    (hraise _ _ _ rfl)) (State.sameBut_wr ?_ _)) (State.sameBut_wr ?_ _)
  all_goals simp [PFB.OVR_V, PFB.STAT_AT_HI, PFB.STAT_AT_LO]

@[simp] theorem State.atLimits_pfbU (s : State) (p q : Nat) : (s.atLimits p).pfbU q = s.pfbU q := rfl

@[simp] theorem State.setOvr_pfbU (s : State) (p q : Nat) (v : Int) : (s.setOvr p v).pfbU q = s.pfbU q :=
  State.raiseIf_pfbU _ q _ _

@[simp] theorem State.place_pfbU (s : State) (p q : Nat) (x : Int) : (s.place p x).pfbU q = s.pfbU q := by
  rw [(s.place_sameBut p x).2]
  rfl

theorem State.addStep_unitBut (s : State) (p : Nat) (step : Int) : s.UnitBut p posFields (s.addStep p step) := by
  have hpos (x : Int) : s.UnitBut p posFields (s.wrI (PFB.POS p) x) := .wr (.refl s) (PFB.POS 0) _
  exact .trans (.ite (.raise (.trans (hpos _) (State.setOvr_unitBut _ p _)) (PFB.STAT_LIMIT 0)) (hpos _))
    (State.atLimits_unitBut _ p)

/-- What a step to `new` makes of POS, OVERRUN and LIMIT (R106). -/
structure State.Moved (s t : State) (p : Nat) (new : Int) : Prop where
  pos : t.rdI (PFB.POS p) = s.softClamp p new
  ovr : t.fi (PFB.OVR_V p) = if s.softClamp p new = new then s.fi (PFB.OVR_V p)
    else satS 16 (s.fi (PFB.OVR_V p) + (new - s.softClamp p new))
  limit : s.softClamp p new ≠ new → t.on (PFB.STAT_LIMIT p) = true

/-- What follows a step leaves POS, OVERRUN and LIMIT. -/
theorem State.Moved.after {u : State} {new : Int} {l : List Field} (h : s.Moved t p new) (hu : t.UnitBut p l u)
    (hl : [wholeReg (PFB.POS 0), PFB.OVR_V 0, PFB.STAT_LIMIT 0].all (fun G => l.all (Field.spares · G)) = true := by decide) :
    s.Moved u p new := by
  rw [List.all_eq_true] at hl
  exact ⟨(hu.rdI (PFB.POS 0) (hl _ (by decide))).trans h.pos, (hu.fi (PFB.OVR_V 0) (hl _ (by decide))).trans h.ovr,
    fun hne => (hu.on (PFB.STAT_LIMIT 0) (hl _ (by decide))).trans (h.limit hne)⟩

theorem State.addStep_moved (s : State) (p : Nat) (x : Int) : s.Moved (s.addStep p x) p (s.rdI (PFB.POS p) + x) := by
  generalize hnew : s.rdI (PFB.POS p) + x = new
  have hsum : s.pos p + x = new := hnew
  have hpos : s.UnitBut p [wholeReg (PFB.POS 0)] (s.wrI (PFB.POS p) (s.softClamp p new)) := .wr (.refl s) (PFB.POS 0) _
  by_cases hc : s.softClamp p new = new
  · have hstep : s.addStep p x = (s.wrI (PFB.POS p) (s.softClamp p new)).atLimits p := by
      rw [← hsum] at hc ⊢
      exact congrArg (State.atLimits · p) (if_neg (not_not.mpr hc))
    have hlast := State.atLimits_unitBut (s.wrI (PFB.POS p) (s.softClamp p new)) p
    rw [hstep]
    exact ⟨(hlast.rdI (PFB.POS 0)).trans (s.rdI_wrI_softClamp s p _ new),
      (if_pos hc).symm ▸ (hlast.fi (PFB.OVR_V 0)).trans (hpos.fi (PFB.OVR_V 0)), fun hne => absurd hc hne⟩
  · have hstep : s.addStep p x = (((s.wrI (PFB.POS p) (s.softClamp p new)).setOvr p
        ((s.wrI (PFB.POS p) (s.softClamp p new)).ovr p + (new - s.softClamp p new))).raise (PFB.STAT_LIMIT p)).atLimits p := by
      rw [← hsum] at hc ⊢
      exact congrArg (State.atLimits · p) (if_pos hc)
    have hovr : (s.wrI (PFB.POS p) (s.softClamp p new)).ovr p = s.fi (PFB.OVR_V p) := hpos.fi (PFB.OVR_V 0)
    rw [hstep, hovr]
    generalize hw : (s.wrI (PFB.POS p) (s.softClamp p new)).setOvr p _ = w
    have hmark : w.UnitBut p [PFB.STAT_LIMIT 0, PFB.STAT_AT_HI 0, PFB.STAT_AT_LO 0] ((w.raise (PFB.STAT_LIMIT p)).atLimits p) :=
      .trans (.raise (.refl w) (PFB.STAT_LIMIT 0)) (State.atLimits_unitBut _ p)
    have hlimit := (State.atLimits_unitBut (w.raise (PFB.STAT_LIMIT p)) p).on (PFB.STAT_LIMIT 0)
    subst hw
    exact ⟨(hmark.rdI (PFB.POS 0)).trans (((State.setOvr_unitBut _ p _).rdI (PFB.POS 0)).trans (s.rdI_wrI_softClamp s p _ new)),
      (if_neg hc).symm ▸ (hmark.fi (PFB.OVR_V 0)).trans (State.setOvr_fi _ p _),
      fun _ => hlimit.trans (State.raise_on _ _ rfl)⟩

/-! ## Edges (R104, R105, R113 to R115) -/

theorem State.setDir_unitBut (s : State) (p : Nat) (neg : Bool) : s.UnitBut p [PFB.STAT_DIR 0] (s.setDir p neg) :=
  .flag (.setPfb (.refl s) p _) (PFB.STAT_DIR 0) neg

/-- What an edge against the remembered direction writes. -/
def hystFields : List Field := [PFB.STAT_DIR 0, PFB.STAT_REV_SETTLE 0, wholeReg (PFB.SPEED 0), PFB.STAT_SPEED_VALID 0]

theorem State.hystEdge_unitBut (s : State) (p : Nat) (neg : Bool) : s.UnitBut p hystFields (s.hystEdge p neg) :=
  .setPfb (.setF (.wr (.raise (.trans (.refl s) (s.setDir_unitBut p neg)) (PFB.STAT_REV_SETTLE 0)) (PFB.SPEED 0) _)
    (PFB.STAT_SPEED_VALID 0) _) p _

theorem State.hystEdge_pfbU (s : State) (p : Nat) (neg : Bool) :
    (s.hystEdge p neg).pfbU p = { s.pfbU p with dir := some neg, n := 0 } := by
  simp [State.hystEdge, State.setDir]

theorem State.hystEdge_stat (s : State) (p : Nat) (neg : Bool) : (s.hystEdge p neg).on (PFB.STAT_REV_SETTLE p) = true
    ∧ (s.hystEdge p neg).rd (PFB.SPEED p) = 0#32 ∧ (s.hystEdge p neg).on (PFB.STAT_SPEED_VALID p) = false := by
  have hspeed : ((s.setDir p neg).raise (PFB.STAT_REV_SETTLE p)).UnitBut p [wholeReg (PFB.SPEED 0), PFB.STAT_SPEED_VALID 0]
      (s.hystEdge p neg) :=
    .setPfb (.setF (.wr (.refl _) (PFB.SPEED 0) _) (PFB.STAT_SPEED_VALID 0) _) p _
  have hvalid : (((s.setDir p neg).raise (PFB.STAT_REV_SETTLE p)).wrN (PFB.SPEED p) 0).UnitBut p [PFB.STAT_SPEED_VALID 0]
      (s.hystEdge p neg) :=
    .setPfb (.setF (.refl _) (PFB.STAT_SPEED_VALID 0) _) p _
  have hlast : ((((s.setDir p neg).raise (PFB.STAT_REV_SETTLE p)).wrN (PFB.SPEED p) 0).setF (PFB.STAT_SPEED_VALID p) 0).UnitBut p []
      (s.hystEdge p neg) :=
    .setPfb (.refl _) p _
  exact ⟨(hspeed.on (PFB.STAT_REV_SETTLE 0)).trans (State.raise_on _ _ rfl),
    (hvalid.rd (PFB.SPEED 0)).trans (State.rd_wr_same _ _ _),
    (hlast.on (PFB.STAT_SPEED_VALID 0)).trans (State.setF_zero_on _ (PFB.STAT_SPEED_VALID p) rfl)⟩

/-- What a counted edge writes after the step: the edge latch and STILL. -/
def State.edgeNoted (s : State) (p ns wc frac per12 : Nat) : State :=
  let s := s.edgeLatch p ns wc frac
  (s.setPfb p { s.pfbU p with n := min ((s.pfbU p).n + 1) 3, tEdge := edgeTime wc ns frac, per12 := per12, counted := true }).setF (PFB.STAT_STILL p) 0

/-- SPEED from the second counted edge on, `n` of them before (R113, R114). -/
def State.speedShown (s : State) (p n : Nat) (v : Int) : State :=
  if n = 0 then s else ((s.wrI (PFB.SPEED p) v).raise (PFB.STAT_SPEED_VALID p)).setF (PFB.STAT_REV_SETTLE p) 0

@[simp] theorem State.edgeLatch_pfbU (s : State) (p q ns wc frac : Nat) : (s.edgeLatch p ns wc frac).pfbU q = s.pfbU q := rfl

/-- A counted edge is a direction, a step, the edge latch, and SPEED. -/
theorem State.countEdge_eq (s : State) (p : Nat) (neg : Bool) (c ns wc frac delta per12 : Nat) :
    let step : Int := if neg then -(c : Int) else c
    let a := (s.setDir p neg).addStep p step
    ∃ dt, s.countEdge p neg c ns wc frac delta per12
      = ((a.edgeNoted p ns wc frac per12).speedShown p (a.pfbU p).n (speedOf step delta)).restartStill p dt := by
  intro step a
  rw [← a.edgeLatch_pfbU p p ns wc frac]
  exact ⟨_, rfl⟩

theorem State.edgeLatch_unitBut (s : State) (p ns wc frac : Nat) :
    s.UnitBut p [wholeReg (PFB.EDGENS 0), PFB.EDGEFR_FRAC 0, PFB.EDGEFR_WC 0] (s.edgeLatch p ns wc frac) :=
  .setF (.setF (.wr (.refl s) (PFB.EDGENS 0) _) (PFB.EDGEFR_FRAC 0) _) (PFB.EDGEFR_WC 0) _

theorem State.edgeLatch_stamp (s : State) (p ns wc frac : Nat) :
    (s.edgeLatch p ns wc frac).rd (PFB.EDGENS p) = BitVec.ofNat 32 ns
      ∧ (s.edgeLatch p ns wc frac).f (PFB.EDGEFR_FRAC p) = frac % 32 := by
  have hns : (s.wrN (PFB.EDGENS p) ns).UnitBut p [PFB.EDGEFR_FRAC 0, PFB.EDGEFR_WC 0] (s.edgeLatch p ns wc frac) :=
    .setF (.setF (.refl _) (PFB.EDGEFR_FRAC 0) _) (PFB.EDGEFR_WC 0) _
  have hfrac : ((s.wrN (PFB.EDGENS p) ns).setF (PFB.EDGEFR_FRAC p) frac).UnitBut p [PFB.EDGEFR_WC 0] (s.edgeLatch p ns wc frac) :=
    .setF (.refl _) (PFB.EDGEFR_WC 0) _
  exact ⟨(hns.rd (PFB.EDGENS 0)).trans (State.rd_wr_same _ _ _), (hfrac.f (PFB.EDGEFR_FRAC 0)).trans (State.setF_f _ _ _ rfl)⟩

theorem State.edgeNoted_unitBut (s : State) (p ns wc frac per12 : Nat) :
    s.UnitBut p [wholeReg (PFB.EDGENS 0), PFB.EDGEFR_FRAC 0, PFB.EDGEFR_WC 0, PFB.STAT_STILL 0] (s.edgeNoted p ns wc frac per12) :=
  .setF (.setPfb (.trans (.refl s) (s.edgeLatch_unitBut p ns wc frac)) p _) (PFB.STAT_STILL 0) _

theorem State.edgeNoted_stamp (s : State) (p ns wc frac per12 : Nat) :
    (s.edgeNoted p ns wc frac per12).rd (PFB.EDGENS p) = BitVec.ofNat 32 ns
      ∧ (s.edgeNoted p ns wc frac per12).f (PFB.EDGEFR_FRAC p) = frac % 32
      ∧ (s.edgeNoted p ns wc frac per12).on (PFB.STAT_STILL p) = false := by
  obtain ⟨hns, hfrac⟩ := s.edgeLatch_stamp p ns wc frac
  have hlatch : (s.edgeLatch p ns wc frac).UnitBut p [PFB.STAT_STILL 0] (s.edgeNoted p ns wc frac per12) :=
    .setF (.setPfb (.refl _) p _) (PFB.STAT_STILL 0) _
  exact ⟨(hlatch.rd (PFB.EDGENS 0)).trans hns, (hlatch.f (PFB.EDGEFR_FRAC 0)).trans hfrac, State.setF_zero_on _ _ rfl⟩

theorem State.edgeNoted_pfbU (s : State) (p ns wc frac per12 : Nat) : (s.edgeNoted p ns wc frac per12).pfbU p
    = { s.pfbU p with n := min ((s.pfbU p).n + 1) 3, tEdge := edgeTime wc ns frac, per12 := per12, counted := true } := by
  simp [State.edgeNoted]

def speedFields : List Field := [wholeReg (PFB.SPEED 0), PFB.STAT_SPEED_VALID 0, PFB.STAT_REV_SETTLE 0]

theorem State.speedShown_unitBut (s : State) (p n : Nat) (v : Int) : s.UnitBut p speedFields (s.speedShown p n v) :=
  .ite (.refl s) (.setF (.raise (.wr (.refl s) (PFB.SPEED 0) _) (PFB.STAT_SPEED_VALID 0)) (PFB.STAT_REV_SETTLE 0) _)

theorem speedOf_bounds (step : Int) (delta : Nat) : -2 ^ 31 ≤ speedOf step delta ∧ speedOf step delta < 2 ^ 31 := by
  unfold speedOf
  split_ifs
  · norm_num
  · norm_num
  · exact satS_bounds _

theorem State.speedShown_speed (s : State) (p : Nat) {n : Nat} (hn : 0 < n) (step : Int) (delta : Nat) :
    (s.speedShown p n (speedOf step delta)).on (PFB.STAT_SPEED_VALID p) = true
      ∧ (s.speedShown p n (speedOf step delta)).on (PFB.STAT_REV_SETTLE p) = false
      ∧ (s.speedShown p n (speedOf step delta)).rdI (PFB.SPEED p) = speedOf step delta := by
  rw [State.speedShown, if_neg (Nat.ne_of_gt hn)]
  obtain ⟨hlo, hhi⟩ := speedOf_bounds step delta
  generalize hw : s.wrI (PFB.SPEED p) (speedOf step delta) = w
  have hvalid : (w.raise (PFB.STAT_SPEED_VALID p)).UnitBut p [PFB.STAT_REV_SETTLE 0]
      ((w.raise (PFB.STAT_SPEED_VALID p)).setF (PFB.STAT_REV_SETTLE p) 0) :=
    .setF (.refl _) (PFB.STAT_REV_SETTLE 0) _
  have hspeed : w.UnitBut p [PFB.STAT_SPEED_VALID 0, PFB.STAT_REV_SETTLE 0]
      ((w.raise (PFB.STAT_SPEED_VALID p)).setF (PFB.STAT_REV_SETTLE p) 0) :=
    .setF (.raise (.refl w) (PFB.STAT_SPEED_VALID 0)) (PFB.STAT_REV_SETTLE 0) _
  refine ⟨(hvalid.on (PFB.STAT_SPEED_VALID 0)).trans (w.raise_on _ rfl), State.setF_zero_on _ (PFB.STAT_REV_SETTLE p) rfl,
    (hspeed.rdI (PFB.SPEED 0)).trans ?_⟩
  rw [← hw]
  exact s.rdI_wrI_same _ _ hlo hhi

@[simp] theorem State.speedShown_pfbU (s : State) (p n q : Nat) (v : Int) : (s.speedShown p n v).pfbU q = s.pfbU q := by
  unfold State.speedShown
  split
  · rfl
  · simp

@[simp] theorem State.addStep_pfbU (s : State) (p q : Nat) (x : Int) : (s.addStep p x).pfbU q = s.pfbU q := by
  unfold State.addStep
  dsimp only
  split <;> simp

/-- A counted edge of `c` counts (R104, R106, R113 to R115). -/
structure State.Counted (s t : State) (p : Nat) (neg : Bool) (c ns frac delta : Nat) : Prop where
  moved : s.Moved t p (s.rdI (PFB.POS p) + if neg then -(c : Int) else c)
  still : t.on (PFB.STAT_STILL p) = false
  dir : t.on (PFB.STAT_DIR p) = neg
  edgeNs : t.rd (PFB.EDGENS p) = BitVec.ofNat 32 ns
  edgeFrac : t.f (PFB.EDGEFR_FRAC p) = frac % 32
  first : (s.pfbU p).n = 0 → t.rd (PFB.SPEED p) = s.rd (PFB.SPEED p)
  later : 0 < (s.pfbU p).n → t.on (PFB.STAT_SPEED_VALID p) = true ∧ t.on (PFB.STAT_REV_SETTLE p) = false
    ∧ t.rdI (PFB.SPEED p) = speedOf (if neg then -(c : Int) else c) delta

def countFields : List Field :=
  PFB.STAT_DIR 0 :: posFields ++ speedFields ++ [wholeReg (PFB.EDGENS 0), PFB.EDGEFR_FRAC 0, PFB.EDGEFR_WC 0, PFB.STAT_STILL 0]

/-- What comes before a step and leaves POS, OVERRUN and the limits. -/
theorem State.Moved.before {u : State} {new : Int} {l : List Field} (h : t.Moved u p new) (hs : s.UnitBut p l t)
    (hl : [wholeReg (PFB.SL_LO 0), wholeReg (PFB.SL_HI 0), PFB.OVR_V 0].all (fun G => l.all (Field.spares · G)) = true := by decide) :
    s.Moved u p new := by
  rw [List.all_eq_true] at hl
  have hclamp : t.softClamp p new = s.softClamp p new :=
    congrArg₂ (clampInt · · new) (hs.rdI (PFB.SL_LO 0) (hl _ (by decide))) (hs.rdI (PFB.SL_HI 0) (hl _ (by decide)))
  have hovr : t.fi (PFB.OVR_V p) = s.fi (PFB.OVR_V p) := hs.fi (PFB.OVR_V 0) (hl _ (by decide))
  obtain ⟨hpos, hover, hlimit⟩ := h
  rw [hclamp] at hpos hover hlimit
  exact ⟨hpos, hovr ▸ hover, hlimit⟩

theorem State.countEdge_unitBut (s : State) (p : Nat) (neg : Bool) (c ns wc frac delta per12 : Nat) :
    s.UnitBut p countFields (s.countEdge p neg c ns wc frac delta per12) := by
  obtain ⟨dt, heq⟩ := s.countEdge_eq p neg c ns wc frac delta per12
  rw [heq]
  exact .resched (.trans (.trans (.trans (.trans (.refl s) (s.setDir_unitBut p neg)) (State.addStep_unitBut _ p _))
    (State.edgeNoted_unitBut _ p ns wc frac per12)) (State.speedShown_unitBut _ p _ _)) dt _

theorem State.countEdge_pfbU (s : State) (p : Nat) (neg : Bool) (c ns wc frac delta per12 : Nat) :
    (s.countEdge p neg c ns wc frac delta per12).pfbU p = { s.pfbU p with
      dir := some neg, n := min ((s.pfbU p).n + 1) 3, tEdge := edgeTime wc ns frac, per12 := per12, counted := true } := by
  obtain ⟨dt, heq⟩ := s.countEdge_eq p neg c ns wc frac delta per12
  simp [heq, State.restartStill, State.edgeNoted_pfbU, State.setDir]

theorem State.countEdge_counted (s : State) (p : Nat) (neg : Bool) (c ns wc frac delta per12 : Nat) :
    s.Counted (s.countEdge p neg c ns wc frac delta per12) p neg c ns frac delta := by
  obtain ⟨dt, heq⟩ := s.countEdge_eq p neg c ns wc frac delta per12
  rw [heq]
  generalize hstep : (if neg then -(c : Int) else c) = step
  generalize hd : s.setDir p neg = d
  have hsd : s.UnitBut p [PFB.STAT_DIR 0] d := hd ▸ s.setDir_unitBut p neg
  have hn : ((d.addStep p step).pfbU p).n = (s.pfbU p).n := by simp [← hd, State.setDir]
  rw [hn]
  have hmoved : s.Moved (d.addStep p step) p (s.rdI (PFB.POS p) + step) :=
    (hsd.rdI (PFB.POS 0)) ▸ (d.addStep_moved p step).before hsd
  have hdir : (d.addStep p step).on (PFB.STAT_DIR p) = neg :=
    ((d.addStep_unitBut p step).on (PFB.STAT_DIR 0)).trans (hd ▸ State.flag_on _ (PFB.STAT_DIR p) neg rfl)
  have hspeed0 : (d.addStep p step).rd (PFB.SPEED p) = s.rd (PFB.SPEED p) :=
    ((d.addStep_unitBut p step).rd (PFB.SPEED 0)).trans (hsd.rd (PFB.SPEED 0))
  generalize d.addStep p step = a at hmoved hdir hspeed0 ⊢
  obtain ⟨hns, hfrac, hstill⟩ := a.edgeNoted_stamp p ns wc frac per12
  have hnoted := a.edgeNoted_unitBut p ns wc frac per12
  generalize a.edgeNoted p ns wc frac per12 = b at hns hfrac hstill hnoted ⊢
  have hshown : b.UnitBut p speedFields ((b.speedShown p (s.pfbU p).n (speedOf step delta)).restartStill p dt) :=
    .resched (b.speedShown_unitBut p _ _) dt _
  have hspeed (hpos : 0 < (s.pfbU p).n) := b.speedShown_speed p hpos step delta
  subst hstep
  refine ⟨(hmoved.after hnoted).after hshown, (hshown.on (PFB.STAT_STILL 0)).trans hstill,
    (hshown.on (PFB.STAT_DIR 0)).trans ((hnoted.on (PFB.STAT_DIR 0)).trans hdir), (hshown.rd (PFB.EDGENS 0)).trans hns,
    (hshown.f (PFB.EDGEFR_FRAC 0)).trans hfrac, fun hzero => ?_, hspeed⟩
  rw [State.speedShown, if_pos hzero]
  exact (hnoted.rd (PFB.SPEED 0)).trans hspeed0

/-- What follows a counted edge and leaves what it wrote. -/
theorem State.Counted.after {u : State} {neg : Bool} {c ns frac delta : Nat} {l : List Field} (h : s.Counted t p neg c ns frac delta)
    (hu : t.UnitBut p l u) (hl : countFields.all (fun G => l.all (Field.spares · G)) = true := by decide) :
    s.Counted u p neg c ns frac delta := by
  rw [List.all_eq_true] at hl
  have hspeed : u.rd (PFB.SPEED p) = t.rd (PFB.SPEED p) := hu.rd (PFB.SPEED 0) (hl _ (by decide))
  refine ⟨h.moved.after hu (List.all_eq_true.mpr fun G hG => hl G ((by decide : _ ⊆ countFields) hG)),
    (hu.on (PFB.STAT_STILL 0) (hl _ (by decide))).trans h.still, (hu.on (PFB.STAT_DIR 0) (hl _ (by decide))).trans h.dir,
    (hu.rd (PFB.EDGENS 0) (hl _ (by decide))).trans h.edgeNs, (hu.f (PFB.EDGEFR_FRAC 0) (hl _ (by decide))).trans h.edgeFrac,
    fun hn => hspeed.trans (h.first hn), fun hn => ?_⟩
  obtain ⟨hvalid, hsettle, hv⟩ := h.later hn
  exact ⟨(hu.on (PFB.STAT_SPEED_VALID 0) (hl _ (by decide))).trans hvalid,
    (hu.on (PFB.STAT_REV_SETTLE 0) (hl _ (by decide))).trans hsettle, (congrArg BitVec.toInt hspeed).trans hv⟩

/-- What comes before a counted edge and changes no register. -/
theorem State.Counted.before {u : State} {neg : Bool} {c ns frac delta : Nat} (h : t.Counted u p neg c ns frac delta)
    (hs : s.UnitBut p [] t) (hn : (t.pfbU p).n = (s.pfbU p).n) : s.Counted u p neg c ns frac delta :=
  ⟨(hs.rdI (PFB.POS 0)) ▸ h.moved.before hs, h.still, h.dir, h.edgeNs, h.edgeFrac,
    fun hz => (h.first (hn.trans hz)).trans (hs.rd (PFB.SPEED 0)), fun hp => h.later (hn ▸ hp)⟩

/-! ## Faults (R122) -/

def faultFields : List Field := [PFB.STAT_FAULT 0, PFB.STAT_FAULT_SRC 0, PFB.STAT_VALID 0]

theorem State.pfbFault_unitBut (s : State) (p src : Nat) : s.UnitBut p faultFields (s.pfbFault p src) :=
  .recordStat (.setF (.setF (.raise (.refl s) (PFB.STAT_FAULT 0)) (PFB.STAT_FAULT_SRC 0) _) (PFB.STAT_VALID 0) _) _ _ _ _ _

@[simp] theorem State.pfbFault_pfbU (s : State) (p q src : Nat) : (s.pfbFault p src).pfbU q = s.pfbU q := by
  simp [State.pfbFault]

end Sys2Proof.Machine
end

section
/-! PROOF of the statement FeedbackEdges (R102 to R108, R110, R113 to R116). New levels pass the filters, then the mode makes
of them an edge against the remembered direction, a counted edge, an error or nothing, and a strobe of the tick takes the
result into its set. -/

namespace Sys2Proof.Machine

variable {s : State} {p : Nat} {fa fb fz : Bool} {frac : Nat}

/-! ## The filters (R102) -/

theorem State.pinFree_of_old {x : Option Nat} (h : ∀ a, x = some a → a + 3 ≤ s.now) : s.pinFree x = true := by
  cases x with
  | none => rfl
  | some a => exact decide_eq_true (h a rfl)

theorem State.pinFree_of_recent {x : Option Nat} {a : Nat} (hx : x = some a) (h : s.now < a + 3) : s.pinFree x = false := by
  rw [hx]
  exact decide_eq_false (Nat.not_le.mpr h)

/-- A pin that changed within the last three samples keeps its level. -/
theorem State.pfbAccept_held (s : State) (p : Nat) (fa fb fz : Bool) :
    (s.pinFree (s.pfbU p).faAt = false → (s.pfbAccept p fa fb fz).fa = (s.pfbU p).fa)
      ∧ (s.pinFree (s.pfbU p).fbAt = false → (s.pfbAccept p fa fb fz).fb = (s.pfbU p).fb)
      ∧ (s.pinFree (s.pfbU p).fzAt = false → (s.pfbAccept p fa fb fz).fz = (s.pfbU p).fz) := by
  unfold State.pfbAccept
  dsimp only
  split
  · exact ⟨fun _ => rfl, fun _ => rfl, fun _ => rfl⟩
  · refine ⟨fun h => ?_, fun h => ?_, fun h => ?_⟩ <;> simp [h]

/-- No pin has changed within the last three samples. -/
def State.pinsOld (s : State) (p : Nat) : Prop :=
  s.pinFree (s.pfbU p).faAt = true ∧ s.pinFree (s.pfbU p).fbAt = true ∧ s.pinFree (s.pfbU p).fzAt = true

/-- Pins at rest take the new levels. -/
theorem State.pinsOld.accept (h : s.pinsOld p) (fa fb fz : Bool) :
    (s.pfbAccept p fa fb fz).fa = fa ∧ (s.pfbAccept p fa fb fz).fb = fb ∧ (s.pfbAccept p fa fb fz).fz = fz := by
  obtain ⟨ha, hb, hz⟩ := h
  have hnow : [(s.pfbU p).faAt, (s.pfbU p).fbAt, (s.pfbU p).fzAt].contains (some s.now) = false := by
    rw [← Bool.not_eq_true, List.contains_iff_mem]
    intro hmem
    have hrecent : s.pinFree (some s.now) = false := State.pinFree_of_recent rfl (by omega)
    simp only [List.mem_cons, List.not_mem_nil, or_false] at hmem
    rcases hmem with e | e | e
    · rw [← e, hrecent] at ha; exact Bool.false_ne_true ha
    · rw [← e, hrecent] at hb; exact Bool.false_ne_true hb
    · rw [← e, hrecent] at hz; exact Bool.false_ne_true hz
  have hpin (old new : Bool) (x : Option Nat) : (if decide (new ≠ old) then (new, some s.now) else (old, x)).1 = new := by
    cases old <;> cases new <;> rfl
  unfold State.pfbAccept
  dsimp only
  rw [hnow]
  simp only [ha, hb, hz, Bool.true_and, Bool.false_eq_true, if_false]
  exact ⟨hpin _ _ _, hpin _ _ _, hpin _ _ _⟩

/-! ## The levels taken -/

/-- The unit `u` with the pins of `n`. -/
def PfbUnit.withPins (u n : PfbUnit) : PfbUnit :=
  { u with fa := n.fa, fb := n.fb, fz := n.fz, faAt := n.faAt, fbAt := n.fbAt, fzAt := n.fzAt }

/-- The unit with the levels that the filters accept. -/
def State.levelsTaken (s : State) (p : Nat) (fa fb fz : Bool) : State :=
  let n := s.pfbAccept p fa fb fz
  let t := (s.bissLevel p n.fz).cmdSign p
  t.setPfb p ((t.pfbU p).withPins n)

/-- A sample in which A and B both change (R104, R122). -/
def State.quadError (s : State) (p : Nat) : State :=
  let t := (s.raise (PFB.STAT_QERR p)).bump (PFB.CNT_ERR_CNT p)
  if t.on (PFB.CFG_QERR_FAULT p) then t.pfbFault p 2 else t

/-- What the mode makes of levels: the place in the Gray cycle moves by `d`, and FA shows a `tooth` or not. -/
def State.edgeTaken (s : State) (p d : Nat) (tooth : Bool) (frac : Nat) : State :=
  match s.f (PFB.CFG_MODE p) with
  | 1 =>
    if d = 0 then s
    else if d = 2 then s.quadError p
    else s.registerEdge p (xor (decide (d = 3)) (s.on (PFB.CFG_DIRINV p))) frac
  | 2 => if tooth then s.registerEdge p (xor (s.toothNeg p) (s.on (PFB.CFG_DIRINV p))) frac else s
  | _ => s

theorem State.bissLevel_frame (s : State) (p : Nat) (z : Bool) :
    ∃ P A, s.bissLevel p z = { s with pfb := P, agenda := A } := by
  unfold State.bissLevel
  dsimp only
  split_ifs <;> exact ⟨_, _, rfl⟩

theorem State.cmdSign_frame (s : State) (p : Nat) : ∃ P, s.cmdSign p = { s with pfb := P } := by
  unfold State.cmdSign
  dsimp only
  generalize (if s.rdI (PRG.VEL p) < 0 then true else if 0 < s.rdI (PRG.VEL p) then false else (s.pfbU p).cmdNeg) = neg
  split
  · exact ⟨_, rfl⟩
  · exact ⟨_, rfl⟩

/-- Levels change the memory of the unit and the timer of its transfer alone. -/
theorem State.levelsTaken_frame (s : State) (p : Nat) (fa fb fz : Bool) :
    ∃ P A, s.levelsTaken p fa fb fz = { s with pfb := P, agenda := A } := by
  obtain ⟨P, A, hbiss⟩ := s.bissLevel_frame p (s.pfbAccept p fa fb fz).fz
  obtain ⟨Q, hsign⟩ := (s.bissLevel p (s.pfbAccept p fa fb fz).fz).cmdSign_frame p
  rw [State.levelsTaken, hsign, hbiss]
  exact ⟨_, _, rfl⟩

theorem State.bissLevel_pfbU (s : State) (p : Nat) (z : Bool) :
    ∃ a b, (s.bissLevel p z).pfbU p = { s.pfbU p with ackAt := a, startAt := b } := by
  unfold State.bissLevel
  dsimp only
  split_ifs
  · exact ⟨_, _, rfl⟩
  · exact ⟨_, _, (State.resched_pfbU _ _ _ _).trans (State.pfbU_setPfb_same _ _ _)⟩
  · exact ⟨_, _, (State.cancel_pfbU _ _ _).trans (State.pfbU_setPfb_same _ _ _)⟩
  · exact ⟨_, _, rfl⟩

theorem State.cmdSign_pfbU (s : State) (p : Nat) : ∃ c, (s.cmdSign p).pfbU p = { s.pfbU p with cmdNeg := c } := by
  unfold State.cmdSign
  dsimp only
  generalize (if s.rdI (PRG.VEL p) < 0 then true else if 0 < s.rdI (PRG.VEL p) then false else (s.pfbU p).cmdNeg) = neg
  split
  · exact ⟨_, rfl⟩
  · exact ⟨_, State.pfbU_setPfb_same _ _ _⟩

theorem State.levelsBefore_pfbU (s : State) (p : Nat) (z : Bool) :
    ∃ c a b, ((s.bissLevel p z).cmdSign p).pfbU p = { s.pfbU p with cmdNeg := c, ackAt := a, startAt := b } := by
  obtain ⟨a, b, hbiss⟩ := s.bissLevel_pfbU p z
  obtain ⟨c, hsign⟩ := (s.bissLevel p z).cmdSign_pfbU p
  exact ⟨c, a, b, by rw [hsign, hbiss]⟩

theorem State.levelsTaken_pfbU (s : State) (p : Nat) (fa fb fz : Bool) : ∃ c a b, (s.levelsTaken p fa fb fz).pfbU p
    = PfbUnit.withPins { s.pfbU p with cmdNeg := c, ackAt := a, startAt := b } (s.pfbAccept p fa fb fz) := by
  obtain ⟨c, a, b, hbefore⟩ := s.levelsBefore_pfbU p (s.pfbAccept p fa fb fz).fz
  refine ⟨c, a, b, ?_⟩
  rw [State.levelsTaken, State.pfbU_setPfb_same, hbefore]

theorem State.pfbLevels_eq (s : State) (p : Nat) (fa fb fz : Bool) (frac : Nat) :
    s.pfbLevels p fa fb fz frac = (s.levelsTaken p fa fb fz).edgeTaken p
      ((grayPos (s.pfbAccept p fa fb fz).fa (s.pfbAccept p fa fb fz).fb + 4 - grayPos (s.pfbU p).fa (s.pfbU p).fb) % 4)
      (decide ((s.pfbAccept p fa fb fz).fa ≠ (s.pfbU p).fa ∧ (s.pfbAccept p fa fb fz).fa = !s.on (PFB.CFG_TEDGE p))) frac := by
  obtain ⟨c, a, b, hbefore⟩ := s.levelsBefore_pfbU p (s.pfbAccept p fa fb fz).fz
  obtain ⟨P, A, hframe⟩ := s.levelsTaken_frame p fa fb fz
  have hedge : (s.levelsTaken p fa fb fz).on (PFB.CFG_TEDGE p) = s.on (PFB.CFG_TEDGE p) := by rw [hframe]; rfl
  have hfa : (((s.bissLevel p (s.pfbAccept p fa fb fz).fz).cmdSign p).pfbU p).fa = (s.pfbU p).fa := by rw [hbefore]
  have hfb : (((s.bissLevel p (s.pfbAccept p fa fb fz).fz).cmdSign p).pfbU p).fb = (s.pfbU p).fb := by rw [hbefore]
  rw [← hedge, ← hfa, ← hfb]
  simp only [State.edgeTaken, decide_eq_true_eq]
  rfl

/-! ## A registered edge -/

/-- The time since the last counted edge (R113). -/
def State.edgeDelta (s : State) (p frac : Nat) : Nat := (edgeTime s.edgeWc s.edgeNs frac + 2 ^ 43 - (s.pfbU p).tEdge) % 2 ^ 43

theorem State.registerEdge_reversed {neg : Bool} (h : (s.pfbU p).dir = some !neg) : s.registerEdge p neg frac = s.hystEdge p neg := by
  simp [State.registerEdge, h]

/-- In QUAD without a reference an edge in the remembered direction, or the first one, counts 1. -/
theorem State.registerEdge_quad {neg : Bool} (hdir : (s.pfbU p).dir = none ∨ (s.pfbU p).dir = some neg)
    (hmode : s.f (PFB.CFG_MODE p) = 1) (href : s.f (PFB.CFG_REF p) = 0) :
    ∃ per12 x, s.registerEdge p neg frac
      = (s.countEdge p neg 1 s.edgeNs s.edgeWc frac (s.edgeDelta p frac) per12).setPfb p
        { (s.countEdge p neg 1 s.edgeNs s.edgeWc frac (s.edgeDelta p frac) per12).pfbU p with zPrev := x } := by
  refine ⟨12 * s.edgeDelta p frac, xor (s.pfbU p).fz (s.on (PFB.CFG_ZPOL p)), ?_⟩
  unfold State.registerEdge
  rcases hdir with h | h <;> simp [h, hmode, href, State.edgeDelta]

/-- In TOOTH with the gap reference an edge after the gap counts the missing teeth too and is a reference (R108). -/
theorem State.registerEdge_gap {neg : Bool} (hdir : (s.pfbU p).dir = none ∨ (s.pfbU p).dir = some neg)
    (hmode : s.f (PFB.CFG_MODE p) = 2) (href : s.f (PFB.CFG_REF p) = 1) (hn : 2 ≤ (s.pfbU p).n)
    (hgap : s.f (PFB.TCFG_GAP_RATIO p) * (s.pfbU p).per12 < 192 * s.edgeDelta p frac) :
    ∃ per12, s.registerEdge p neg frac
      = (s.countEdge p neg (s.f (PFB.CFG_GAP_N p) + 1) s.edgeNs s.edgeWc frac (s.edgeDelta p frac) per12).reference p neg := by
  have hrule : toothRule 1 (s.f (PFB.TCFG_GAP_RATIO p)) (s.f (PFB.CFG_GAP_N p)) (s.edgeDelta p frac) (s.pfbU p).per12
      = ⟨s.f (PFB.CFG_GAP_N p) + 1, true, false, false, 12 * s.edgeDelta p frac / (s.f (PFB.CFG_GAP_N p) + 1)⟩ :=
    (if_pos hgap).trans (if_pos rfl)
  refine ⟨12 * s.edgeDelta p frac / (s.f (PFB.CFG_GAP_N p) + 1), ?_⟩
  unfold State.edgeDelta at hrule ⊢
  unfold State.registerEdge
  rcases hdir with h | h <;> simp [-Nat.reducePow, h, hmode, href, Nat.not_lt.mpr hn, hrule]

/-- What a reference event notes (R110, R111). -/
def State.referenceNoted (s : State) (p : Nat) (d : Int) : State :=
  ((s.bumpMod (PFB.CNT_IDX_CNT p)).raise (PFB.STAT_REF_SEEN p)).wrI (PFB.IDXDIFF p) d

theorem State.referenceNoted_unitBut (s : State) (p : Nat) (d : Int) :
    s.UnitBut p [PFB.CNT_IDX_CNT 0, PFB.STAT_REF_SEEN 0, wholeReg (PFB.IDXDIFF 0)] (s.referenceNoted p d) :=
  .wr (.raise (.bumpMod (.refl s) (PFB.CNT_IDX_CNT 0) _) (PFB.STAT_REF_SEEN 0)) (PFB.IDXDIFF 0) _

theorem State.referenceNoted_seen (s : State) (p : Nat) (d : Int) : (s.referenceNoted p d).on (PFB.STAT_REF_SEEN p) = true
    ∧ (s.referenceNoted p d).f (PFB.CNT_IDX_CNT p) = (s.f (PFB.CNT_IDX_CNT p) + 1) % 65536 := by
  have hseen : ((s.bumpMod (PFB.CNT_IDX_CNT p)).raise (PFB.STAT_REF_SEEN p)).UnitBut p [wholeReg (PFB.IDXDIFF 0)] (s.referenceNoted p d) :=
    .wr (.refl _) (PFB.IDXDIFF 0) _
  have hcount : (s.bumpMod (PFB.CNT_IDX_CNT p)).UnitBut p [PFB.STAT_REF_SEEN 0, wholeReg (PFB.IDXDIFF 0)] (s.referenceNoted p d) :=
    .wr (.raise (.refl _) (PFB.STAT_REF_SEEN 0)) (PFB.IDXDIFF 0) _
  exact ⟨(hseen.on (PFB.STAT_REF_SEEN 0)).trans (State.raise_on _ _ rfl),
    (hcount.f (PFB.CNT_IDX_CNT 0)).trans (s.setF_f (PFB.CNT_IDX_CNT p) _ rfl)⟩

/-- A reference event of a unit that is neither to be homed nor homed changes nothing else. -/
theorem State.reference_unhomed (s : State) (p : Nat) (neg : Bool) (hhome : s.on (PFB.CTRL_HOME p) = false)
    (hhomed : s.on (PFB.STAT_HOMED p) = false) : ∃ d, s.reference p neg = s.referenceNoted p d :=
  ⟨_, (if_neg (ne_true_of_eq_false (((s.referenceNoted_unitBut p _).on (PFB.CTRL_HOME 0)).trans hhome))).trans
    (if_pos (congrArg (!·) (((s.referenceNoted_unitBut p _).on (PFB.STAT_HOMED 0)).trans hhomed)))⟩

/-! ## The pins that an edge leaves -/

/-- The levels of the pins, and the last bit of a reading. -/
def PfbUnit.pins (u : PfbUnit) : Bool × Bool × Bool × Option Nat := (u.fa, u.fb, u.fz, u.lastBit)

theorem State.quadError_pfbU (s : State) (p q : Nat) : (s.quadError p).pfbU q = s.pfbU q := by
  unfold State.quadError
  dsimp only
  split
  · simp
  · simp

@[simp] theorem State.reference_pfbU (s : State) (p q : Nat) (neg : Bool) : (s.reference p neg).pfbU q = s.pfbU q := by
  unfold State.reference
  dsimp only
  split_ifs
  · simp
  · simp
  · simp
  · split <;> simp

theorem State.registerEdge_pins (s : State) (p frac : Nat) (neg : Bool) :
    ((s.registerEdge p neg frac).pfbU p).pins = (s.pfbU p).pins := by
  have hcount (t : State) (c ns wc f d per : Nat) : ((t.countEdge p neg c ns wc f d per).pfbU p).pins = (t.pfbU p).pins := by
    rw [State.countEdge_pfbU]
    rfl
  have hdir (t : State) : ((t.setDir p neg).pfbU p).pins = (t.pfbU p).pins := by
    rw [State.setDir, State.flag_pfbU, State.pfbU_setPfb_same]
    rfl
  have hz (t : State) (z : Bool) : ((t.setPfb p { t.pfbU p with zPrev := z }).pfbU p).pins = (t.pfbU p).pins := by
    rw [State.pfbU_setPfb_same]
    rfl
  have hhyst : ((s.hystEdge p neg).pfbU p).pins = (s.pfbU p).pins := by
    rw [State.hystEdge_pfbU]
    rfl
  have hmarked (b : Bool) : (if b then (s.raise (PFB.STAT_TOOTH_ERR p)).bump (PFB.CNT_ERR_CNT p) else s).pfbU p = s.pfbU p := by
    cases b
    · rfl
    · simp
  have hmaybe (b : Bool) (t : State) : (if b then t.reference p neg else t).pfbU p = t.pfbU p := by
    cases b
    · rfl
    · exact State.reference_pfbU t p p neg
  have hcounted (b : Bool) (t : State) (c ns wc f d per : Nat) :
      ((if b then t.setDir p neg else t.countEdge p neg c ns wc f d per).pfbU p).pins = (t.pfbU p).pins := by
    cases b
    · exact hcount t c ns wc f d per
    · exact hdir t
  unfold State.registerEdge
  dsimp only
  split
  all_goals
    split
    · exact hhyst
    · split
      · rw [hmaybe, hcounted, hmarked]
      · rw [hmaybe, hz, hcount]

/-- What the mode makes of levels leaves the pins. -/
theorem State.edgeTaken_pins (s : State) (p d frac : Nat) (tooth : Bool) :
    ((s.edgeTaken p d tooth frac).pfbU p).pins = (s.pfbU p).pins := by
  unfold State.edgeTaken
  split
  · split_ifs
    · rfl
    · rw [State.quadError_pfbU]
    · exact s.registerEdge_pins p frac _
  · split
    · exact s.registerEdge_pins p frac _
    · rfl
  · rfl

theorem State.pfbLevels_pins (s : State) (p : Nat) (fa fb fz : Bool) (frac : Nat) :
    ((s.pfbLevels p fa fb fz frac).pfbU p).pins
      = ((s.pfbAccept p fa fb fz).fa, (s.pfbAccept p fa fb fz).fb, (s.pfbAccept p fa fb fz).fz, (s.pfbU p).lastBit) := by
  obtain ⟨c, a, b, hunit⟩ := s.levelsTaken_pfbU p fa fb fz
  rw [State.pfbLevels_eq, State.edgeTaken_pins, hunit]
  rfl

/-! ## A strobe of the tick (R116) -/

def latFields : List Field :=
  [PFB.LAT0 0, PFB.LAT1 0, PFB.LAT2 0, PFB.LAT3 0, PFB.LAT4 0, PFB.LAT5 0].map wholeReg

theorem State.pfbLatch_unitBut (s : State) (p : Nat) : s.UnitBut p latFields (s.pfbLatch p) :=
  .wr (.wr (.wr (.wr (.wr (.wr (.setPfb (.refl s) p _) (PFB.LAT0 0) _) (PFB.LAT1 0) _) (PFB.LAT2 0) _) (PFB.LAT3 0) _)
    (PFB.LAT4 0) _) (PFB.LAT5 0) _

theorem State.pfbLatch_pfbU (s : State) (p : Nat) : (s.pfbLatch p).pfbU p = { s.pfbU p with strobed := some s.now } := by
  simp [State.pfbLatch]

/-- A unit that has had no reading gives its registers to the set. -/
theorem State.pfbLatch_eq (s : State) (p : Nat) (h : (s.pfbU p).lastBit = none) : ∃ x w1 w3 w4 w5, s.pfbLatch p
    = ((((((s.setPfb p x).wr (PFB.LAT0 p) (s.rd (PFB.POS p))).wr (PFB.LAT1 p) w1).wr (PFB.LAT2 p) (s.rd (PFB.EDGENS p))).wr
      (PFB.LAT3 p) w3).wr (PFB.LAT4 p) w4).wr (PFB.LAT5 p) w5 := by
  refine ⟨{ s.pfbU p with strobed := some s.now }, ?_⟩
  unfold State.pfbLatch
  simp only [State.pfbU_setPfb_same, h]
  exact ⟨_, _, _, _, rfl⟩

theorem State.pfbLatch_set (s : State) (p : Nat) (h : (s.pfbU p).lastBit = none) :
    (s.pfbLatch p).rd (PFB.LAT0 p) = s.rd (PFB.POS p) ∧ (s.pfbLatch p).rd (PFB.LAT2 p) = s.rd (PFB.EDGENS p) := by
  obtain ⟨x, w1, w3, w4, w5, heq⟩ := s.pfbLatch_eq p h
  rw [heq]
  generalize s.setPfb p x = t
  generalize hpos : t.wr (PFB.LAT0 p) (s.rd (PFB.POS p)) = a
  generalize hns : (a.wr (PFB.LAT1 p) w1).wr (PFB.LAT2 p) (s.rd (PFB.EDGENS p)) = b
  have hlast : b.UnitBut p ([PFB.LAT3 0, PFB.LAT4 0, PFB.LAT5 0].map wholeReg)
      (((b.wr (PFB.LAT3 p) w3).wr (PFB.LAT4 p) w4).wr (PFB.LAT5 p) w5) :=
    .wr (.wr (.wr (.refl b) (PFB.LAT3 0) _) (PFB.LAT4 0) _) (PFB.LAT5 0) _
  have hmid : a.UnitBut p ([PFB.LAT1 0, PFB.LAT2 0].map wholeReg) b :=
    hns ▸ .wr (.wr (.refl a) (PFB.LAT1 0) _) (PFB.LAT2 0) _
  refine ⟨(hlast.rd (PFB.LAT0 0)).trans ((hmid.rd (PFB.LAT0 0)).trans ?_), (hlast.rd (PFB.LAT2 0)).trans ?_⟩
  · rw [← hpos]
    exact State.rd_wr_same _ _ _
  · rw [← hns]
    exact State.rd_wr_same _ _ _

/-! ## The command -/

/-- The levels of a tick without position commands, and the set of a strobe of the tick. -/
def State.edged (s : State) (p : Nat) (fa fb fz : Bool) (frac : Nat) : State :=
  if (s.pfbU p).strobed = some s.now then (s.pfbLevels p fa fb fz frac).pfbLatch p else s.pfbLevels p fa fb fz frac

theorem exec_pfbEdge (p : Fin 96) (fa fb fz : Bool) (frac : Fin 32) (h : ∀ x, (s.pfbU p.val).posCmds = some x → x.tick ≠ s.now) :
    exec (.pfbEdge p fa fb fz frac) s = .next (s.edged p.val fa fb fz frac.val) := by
  have hfree : s.underPosCmds p.val (fun t => t.pfbLevels p.val fa fb fz frac.val) = s.pfbLevels p.val fa fb fz frac.val := by
    unfold State.underPosCmds
    split
    · rfl
    · exact if_pos (h _ ‹_›)
  show execPfbEdge p fa fb fz frac s = _
  rw [execPfbEdge, hfree]
  rfl

theorem State.edged_unitBut (s : State) (p : Nat) (fa fb fz : Bool) (frac : Nat) :
    (s.pfbLevels p fa fb fz frac).UnitBut p latFields (s.edged p fa fb fz frac) :=
  .ite (State.pfbLatch_unitBut _ p) (.refl _)

/-- A strobe of the tick changes nothing in the memory of the unit but its own mark. -/
theorem State.edged_pfbU (s : State) (p : Nat) (fa fb fz : Bool) (frac : Nat) :
    ∃ x, (s.edged p fa fb fz frac).pfbU p = { (s.pfbLevels p fa fb fz frac).pfbU p with strobed := x } := by
  unfold State.edged
  split
  · exact ⟨_, State.pfbLatch_pfbU _ p⟩
  · exact ⟨_, rfl⟩

theorem State.edged_pins (s : State) (p : Nat) (fa fb fz : Bool) (frac : Nat) :
    ((s.edged p fa fb fz frac).pfbU p).pins
      = ((s.pfbAccept p fa fb fz).fa, (s.pfbAccept p fa fb fz).fb, (s.pfbAccept p fa fb fz).fz, (s.pfbU p).lastBit) := by
  obtain ⟨x, hx⟩ := s.edged_pfbU p fa fb fz frac
  rw [hx, ← State.pfbLevels_pins s p fa fb fz frac]
  rfl

/-- The set of a strobe of the tick holds POS and the edge time of after the edge (R116). -/
theorem State.edged_set (hstrobe : (s.pfbU p).strobed = some s.now) (hbit : (s.pfbU p).lastBit = none) :
    (s.edged p fa fb fz frac).rd (PFB.LAT0 p) = (s.edged p fa fb fz frac).rd (PFB.POS p)
      ∧ (s.edged p fa fb fz frac).rd (PFB.LAT2 p) = (s.edged p fa fb fz frac).rd (PFB.EDGENS p) := by
  have hlast : ((s.pfbLevels p fa fb fz frac).pfbU p).lastBit = none := by
    have hpins := congrArg (fun x => x.2.2.2) (s.pfbLevels_pins p fa fb fz frac)
    exact hpins.trans hbit
  have hkeep := (s.pfbLevels p fa fb fz frac).pfbLatch_unitBut p
  obtain ⟨hpos, hns⟩ := State.pfbLatch_set _ p hlast
  rw [State.edged, if_pos hstrobe]
  exact ⟨hpos.trans (hkeep.rd (PFB.POS 0)).symm, hns.trans (hkeep.rd (PFB.EDGENS 0)).symm⟩

/-! ## What levels of pins at rest do -/

theorem State.levelsTaken_unitBut (s : State) (p : Nat) (fa fb fz : Bool) : s.UnitBut p [] (s.levelsTaken p fa fb fz) := by
  obtain ⟨P, A, hframe⟩ := s.levelsTaken_frame p fa fb fz
  rw [hframe]
  exact .same (.refl s) rfl

/-- By how much new levels move the place in the Gray cycle. -/
def State.grayStep (s : State) (p : Nat) (fa fb : Bool) : Nat := (grayPos fa fb + 4 - grayPos (s.pfbU p).fa (s.pfbU p).fb) % 4

section atRest
variable (h : s.pinsOld p)
include h

theorem State.pinsOld.pfbLevels_eq : s.pfbLevels p fa fb fz frac = (s.levelsTaken p fa fb fz).edgeTaken p (s.grayStep p fa fb)
    (decide (fa ≠ (s.pfbU p).fa ∧ fa = !s.on (PFB.CFG_TEDGE p))) frac := by
  obtain ⟨ha, hb, hz⟩ := h.accept fa fb fz
  rw [State.pfbLevels_eq, ha, hb]
  rfl

theorem State.pinsOld.levelsTaken_pfbU : ∃ u : PfbUnit, (s.levelsTaken p fa fb fz).pfbU p = u ∧ u.dir = (s.pfbU p).dir
    ∧ u.n = (s.pfbU p).n ∧ u.tEdge = (s.pfbU p).tEdge ∧ u.per12 = (s.pfbU p).per12 ∧ u.fb = fb := by
  obtain ⟨c, a, b, hunit⟩ := s.levelsTaken_pfbU p fa fb fz
  exact ⟨_, hunit, rfl, rfl, rfl, rfl, (h.accept fa fb fz).2.1⟩

end atRest

theorem State.levelsTaken_edge (s : State) (p : Nat) (fa fb fz : Bool) :
    (s.levelsTaken p fa fb fz).edgeNs = s.edgeNs ∧ (s.levelsTaken p fa fb fz).edgeWc = s.edgeWc := by
  obtain ⟨P, A, hframe⟩ := s.levelsTaken_frame p fa fb fz
  rw [hframe]
  exact ⟨rfl, rfl⟩

theorem State.quadError_effect (s : State) (p : Nat) :
    s.UnitBut p (PFB.STAT_QERR 0 :: PFB.CNT_ERR_CNT 0 :: faultFields) (s.quadError p)
      ∧ (s.quadError p).on (PFB.STAT_QERR p) = true
      ∧ (s.quadError p).f (PFB.CNT_ERR_CNT p) = min (s.f (PFB.CNT_ERR_CNT p) + 1) 65535 := by
  have hcounted : s.UnitBut p (PFB.STAT_QERR 0 :: PFB.CNT_ERR_CNT 0 :: faultFields)
      ((s.raise (PFB.STAT_QERR p)).bump (PFB.CNT_ERR_CNT p)) :=
    .bump (.raise (.refl s) (PFB.STAT_QERR 0)) (PFB.CNT_ERR_CNT 0) 1
  have hraised : (s.raise (PFB.STAT_QERR p)).UnitBut p [PFB.CNT_ERR_CNT 0] ((s.raise (PFB.STAT_QERR p)).bump (PFB.CNT_ERR_CNT p)) :=
    .bump (.refl _) (PFB.CNT_ERR_CNT 0) 1
  have hbefore : s.UnitBut p [PFB.STAT_QERR 0] (s.raise (PFB.STAT_QERR p)) := .raise (.refl s) (PFB.STAT_QERR 0)
  have hqerr := (hraised.on (PFB.STAT_QERR 0)).trans (s.raise_on (PFB.STAT_QERR p) rfl)
  have hcount := (s.raise (PFB.STAT_QERR p)).bump_f (PFB.CNT_ERR_CNT p) rfl
  have hold : (s.raise (PFB.STAT_QERR p)).f (PFB.CNT_ERR_CNT p) = s.f (PFB.CNT_ERR_CNT p) := hbefore.f (PFB.CNT_ERR_CNT 0)
  rw [hold] at hcount
  have hfault : ((s.raise (PFB.STAT_QERR p)).bump (PFB.CNT_ERR_CNT p)).UnitBut p faultFields (s.quadError p) :=
    .ite (State.pfbFault_unitBut _ p 2) (.refl _)
  exact ⟨hcounted.trans hfault, (hfault.on (PFB.STAT_QERR 0)).trans hqerr, (hfault.f (PFB.CNT_ERR_CNT 0)).trans hcount⟩

/-- The direction that a step of the Gray sequence shows (R104). -/
def State.stepNeg (s : State) (p : Nat) (fa fb : Bool) : Bool := decide (s.grayStep p fa fb = 3) != s.on (PFB.CFG_DIRINV p)

section cases
variable (h : s.pinsOld p)
include h

/-- In QUAD a step registers an edge. -/
theorem State.pinsOld.pfbLevels_step (hmode : s.f (PFB.CFG_MODE p) = 1) (hd : s.grayStep p fa fb = 1 ∨ s.grayStep p fa fb = 3) :
    s.pfbLevels p fa fb fz frac = (s.levelsTaken p fa fb fz).registerEdge p (s.stepNeg p fa fb) frac := by
  have hsame := s.levelsTaken_unitBut p fa fb fz
  have hmode' : (s.levelsTaken p fa fb fz).f (PFB.CFG_MODE p) = 1 := (hsame.f (PFB.CFG_MODE 0)).trans hmode
  have hinv : (s.levelsTaken p fa fb fz).on (PFB.CFG_DIRINV p) = s.on (PFB.CFG_DIRINV p) := hsame.on (PFB.CFG_DIRINV 0)
  rw [h.pfbLevels_eq, State.edgeTaken, hmode', hinv]
  exact (if_neg (by omega)).trans (if_neg (by omega))

theorem State.pinsOld.edged_counts (hmode : s.f (PFB.CFG_MODE p) = 1) (href : s.f (PFB.CFG_REF p) = 0)
    (hd : s.grayStep p fa fb = 1 ∨ s.grayStep p fa fb = 3)
    (hdir : (s.pfbU p).dir = none ∨ (s.pfbU p).dir = some (s.stepNeg p fa fb)) :
    s.Counted (s.edged p fa fb fz frac) p (s.stepNeg p fa fb) 1 s.edgeNs frac (s.edgeDelta p frac)
      ∧ ((s.edged p fa fb fz frac).pfbU p).dir = some (s.stepNeg p fa fb) := by
  have hsame := s.levelsTaken_unitBut p fa fb fz
  have hlast := s.edged_unitBut p fa fb fz frac
  obtain ⟨x, hx⟩ := s.edged_pfbU p fa fb fz frac
  obtain ⟨u, hu, hudir, hun, huedge, -, -⟩ := h.levelsTaken_pfbU (fa := fa) (fb := fb) (fz := fz)
  obtain ⟨hns, hwc⟩ := s.levelsTaken_edge p fa fb fz
  have hlevels := h.pfbLevels_step (fz := fz) (frac := frac) hmode hd
  have hdelta : (s.levelsTaken p fa fb fz).edgeDelta p frac = s.edgeDelta p frac := by
    rw [State.edgeDelta, hns, hwc, hu, huedge, State.edgeDelta]
  obtain ⟨per12, z, hreg⟩ := State.registerEdge_quad (s := s.levelsTaken p fa fb fz) (frac := frac) (neg := s.stepNeg p fa fb)
    (by rwa [hu, hudir]) ((hsame.f (PFB.CFG_MODE 0)).trans hmode) ((hsame.f (PFB.CFG_REF 0)).trans href)
  rw [hlevels, hreg, hns, hwc, hdelta] at hlast hx
  have hcount := (s.levelsTaken p fa fb fz).countEdge_counted p (s.stepNeg p fa fb) 1 s.edgeNs s.edgeWc frac (s.edgeDelta p frac) per12
  have hdir := (s.levelsTaken p fa fb fz).countEdge_pfbU p (s.stepNeg p fa fb) 1 s.edgeNs s.edgeWc frac (s.edgeDelta p frac) per12
  generalize (s.levelsTaken p fa fb fz).countEdge p _ _ _ _ _ _ _ = a at hlast hx hcount hdir
  have hend : a.UnitBut p latFields (s.edged p fa fb fz frac) := .trans (.setPfb (.refl a) p _) hlast
  refine ⟨(hcount.before hsame (by rw [hu, hun])).after hend, ?_⟩
  rw [hx, State.pfbU_setPfb_same, hdir]

/-- An edge against the remembered direction (R105). -/
theorem State.pinsOld.edged_reversed (hmode : s.f (PFB.CFG_MODE p) = 1) (hd : s.grayStep p fa fb = 1 ∨ s.grayStep p fa fb = 3)
    (hdir : (s.pfbU p).dir = some !s.stepNeg p fa fb) :
    let t := s.edged p fa fb fz frac
    s.UnitBut p (hystFields ++ latFields) t ∧ t.on (PFB.STAT_REV_SETTLE p) = true ∧ t.rd (PFB.SPEED p) = 0#32
      ∧ t.on (PFB.STAT_SPEED_VALID p) = false ∧ (t.pfbU p).dir = some (s.stepNeg p fa fb) ∧ (t.pfbU p).n = 0 := by
  have hsame := s.levelsTaken_unitBut p fa fb fz
  have hlast := s.edged_unitBut p fa fb fz frac
  obtain ⟨x, hx⟩ := s.edged_pfbU p fa fb fz frac
  obtain ⟨u, hu, hudir, -, -, -, -⟩ := h.levelsTaken_pfbU (fa := fa) (fb := fb) (fz := fz)
  rw [h.pfbLevels_step hmode hd, State.registerEdge_reversed (by rwa [hu, hudir])] at hlast hx
  obtain ⟨hsettle, hspeed, hvalid⟩ := (s.levelsTaken p fa fb fz).hystEdge_stat p (s.stepNeg p fa fb)
  refine ⟨.trans (.trans (.trans (.refl s) hsame) (State.hystEdge_unitBut _ p _)) hlast,
    (hlast.on (PFB.STAT_REV_SETTLE 0)).trans hsettle, (hlast.rd (PFB.SPEED 0)).trans hspeed,
    (hlast.on (PFB.STAT_SPEED_VALID 0)).trans hvalid, ?_, ?_⟩
  · rw [hx, State.hystEdge_pfbU]
  · rw [hx, State.hystEdge_pfbU]

/-- A sample in which A and B both change (R104). -/
theorem State.pinsOld.edged_error (hmode : s.f (PFB.CFG_MODE p) = 1) (hd : s.grayStep p fa fb = 2) :
    let t := s.edged p fa fb fz frac
    s.UnitBut p (PFB.STAT_QERR 0 :: PFB.CNT_ERR_CNT 0 :: faultFields ++ latFields) t ∧ t.on (PFB.STAT_QERR p) = true
      ∧ t.f (PFB.CNT_ERR_CNT p) = min (s.f (PFB.CNT_ERR_CNT p) + 1) 65535 := by
  have hsame := s.levelsTaken_unitBut p fa fb fz
  have hlast := s.edged_unitBut p fa fb fz frac
  have hmode' : (s.levelsTaken p fa fb fz).f (PFB.CFG_MODE p) = 1 := (hsame.f (PFB.CFG_MODE 0)).trans hmode
  have herr : s.pfbLevels p fa fb fz frac = (s.levelsTaken p fa fb fz).quadError p := by
    rw [h.pfbLevels_eq, State.edgeTaken, hmode']
    exact (if_neg (by omega)).trans (if_pos hd)
  rw [herr] at hlast
  obtain ⟨hbut, hqerr, hcount⟩ := (s.levelsTaken p fa fb fz).quadError_effect p
  exact ⟨.trans (.trans (.trans (.refl s) hsame) hbut) hlast, (hlast.on (PFB.STAT_QERR 0)).trans hqerr,
    (hlast.f (PFB.CNT_ERR_CNT 0)).trans (hcount.trans (congrArg (fun n => min (n + 1) 65535) (hsame.f (PFB.CNT_ERR_CNT 0))))⟩

/-- Levels that change neither A nor B (R104). -/
theorem State.pinsOld.edged_still (hmode : s.f (PFB.CFG_MODE p) = 1) (hd : s.grayStep p fa fb = 0)
    (hstrobe : (s.pfbU p).strobed ≠ some s.now) : (s.edged p fa fb fz frac).regs = s.regs := by
  obtain ⟨P, A, hframe⟩ := s.levelsTaken_frame p fa fb fz
  have hmode' : (s.levelsTaken p fa fb fz).f (PFB.CFG_MODE p) = 1 :=
    ((s.levelsTaken_unitBut p fa fb fz).f (PFB.CFG_MODE 0)).trans hmode
  have hlevels : s.pfbLevels p fa fb fz frac = s.levelsTaken p fa fb fz := by
    rw [h.pfbLevels_eq, State.edgeTaken, hmode']
    exact if_pos hd
  rw [State.edged, if_neg hstrobe, hlevels, hframe]

/-- In TOOTH with the gap reference a gap counts its teeth and is a reference event (R108, R110). -/
theorem State.pinsOld.edged_gap (hmode : s.f (PFB.CFG_MODE p) = 2) (hne : fa ≠ (s.pfbU p).fa)
    (hedge : fa = !s.on (PFB.CFG_TEDGE p)) (href : s.f (PFB.CFG_REF p) = 1) (hn : 2 ≤ (s.pfbU p).n)
    (hhome : s.on (PFB.CTRL_HOME p) = false) (hhomed : s.on (PFB.STAT_HOMED p) = false)
    (hgap : s.f (PFB.TCFG_GAP_RATIO p) * (s.pfbU p).per12 < 192 * s.edgeDelta p frac) {dir : Bool}
    (hdir : (s.pfbU p).dir = none ∨ (s.pfbU p).dir = some dir) (hsrc : s.on (PFB.CFG_DIRSRC p) = true)
    (hneg : (decide (fb = s.on (PFB.CFG_DIR_POL p)) != s.on (PFB.CFG_DIRINV p)) = dir) :
    let t := s.edged p fa fb fz frac
    let c := s.f (PFB.CFG_GAP_N p) + 1
    s.Moved t p (s.rdI (PFB.POS p) + if dir then -(c : Int) else c) ∧ t.on (PFB.STAT_REF_SEEN p) = true
      ∧ t.f (PFB.CNT_IDX_CNT p) = (s.f (PFB.CNT_IDX_CNT p) + 1) % 65536 := by
  have hsame := s.levelsTaken_unitBut p fa fb fz
  have hlast := s.edged_unitBut p fa fb fz frac
  obtain ⟨u, hu, hudir, hun, huedge, huper, hufb⟩ := h.levelsTaken_pfbU (fa := fa) (fb := fb) (fz := fz)
  obtain ⟨hns, hwc⟩ := s.levelsTaken_edge p fa fb fz
  have hlevels : s.pfbLevels p fa fb fz frac = (s.levelsTaken p fa fb fz).registerEdge p dir frac := by
    have hmode' : (s.levelsTaken p fa fb fz).f (PFB.CFG_MODE p) = 2 := (hsame.f (PFB.CFG_MODE 0)).trans hmode
    have htooth : ((s.levelsTaken p fa fb fz).toothNeg p ^^ (s.levelsTaken p fa fb fz).on (PFB.CFG_DIRINV p)) = dir := by
      have hsrc' : (s.levelsTaken p fa fb fz).on (PFB.CFG_DIRSRC p) = true := (hsame.on (PFB.CFG_DIRSRC 0)).trans hsrc
      have hpol : (s.levelsTaken p fa fb fz).on (PFB.CFG_DIR_POL p) = s.on (PFB.CFG_DIR_POL p) := hsame.on (PFB.CFG_DIR_POL 0)
      have hinv : (s.levelsTaken p fa fb fz).on (PFB.CFG_DIRINV p) = s.on (PFB.CFG_DIRINV p) := hsame.on (PFB.CFG_DIRINV 0)
      rw [State.toothNeg, if_pos hsrc', hu, hufb, hpol, hinv]
      exact hneg
    rw [h.pfbLevels_eq, State.edgeTaken, hmode', htooth]
    exact if_pos (decide_eq_true ⟨hne, hedge⟩)
  have hdelta : (s.levelsTaken p fa fb fz).edgeDelta p frac = s.edgeDelta p frac := by
    rw [State.edgeDelta, hns, hwc, hu, huedge, State.edgeDelta]
  have hteeth : (s.levelsTaken p fa fb fz).f (PFB.CFG_GAP_N p) = s.f (PFB.CFG_GAP_N p) := hsame.f (PFB.CFG_GAP_N 0)
  have hratio : (s.levelsTaken p fa fb fz).f (PFB.TCFG_GAP_RATIO p) = s.f (PFB.TCFG_GAP_RATIO p) := hsame.f (PFB.TCFG_GAP_RATIO 0)
  obtain ⟨per12, hreg⟩ := State.registerEdge_gap (s := s.levelsTaken p fa fb fz) (frac := frac) (neg := dir)
    (by rwa [hu, hudir]) ((hsame.f (PFB.CFG_MODE 0)).trans hmode) ((hsame.f (PFB.CFG_REF 0)).trans href)
    (by rwa [hu, hun]) (by rwa [hratio, hu, huper, hdelta])
  rw [hns, hwc, hdelta, hteeth] at hreg
  have hcount := (s.levelsTaken p fa fb fz).countEdge_counted p dir (s.f (PFB.CFG_GAP_N p) + 1) s.edgeNs s.edgeWc frac
    (s.edgeDelta p frac) per12
  have hbut := (s.levelsTaken p fa fb fz).countEdge_unitBut p dir (s.f (PFB.CFG_GAP_N p) + 1) s.edgeNs s.edgeWc frac
    (s.edgeDelta p frac) per12
  rw [hlevels, hreg] at hlast
  generalize (s.levelsTaken p fa fb fz).countEdge p dir _ _ _ _ _ _ = a at hcount hbut hlast
  have hsa : s.UnitBut p countFields a := .trans (.trans (.refl s) hsame) hbut
  obtain ⟨d, hnoted⟩ := a.reference_unhomed p dir ((hsa.on (PFB.CTRL_HOME 0)).trans hhome) ((hsa.on (PFB.STAT_HOMED 0)).trans hhomed)
  rw [hnoted] at hlast
  obtain ⟨hseen, hidx⟩ := a.referenceNoted_seen p d
  have hidx' : a.f (PFB.CNT_IDX_CNT p) = s.f (PFB.CNT_IDX_CNT p) := hsa.f (PFB.CNT_IDX_CNT 0)
  exact ⟨((hcount.before hsame (by rw [hu, hun])).moved.after (a.referenceNoted_unitBut p d)).after hlast,
    (hlast.on (PFB.STAT_REF_SEEN 0)).trans hseen, (hlast.f (PFB.CNT_IDX_CNT 0)).trans (hidx' ▸ hidx)⟩

end cases

/-! ## The statement -/

/-- Settles O35: the filters give the pins, and with the pins at rest each clause is the effect of its kind of levels. -/
theorem feedbackEdges : Obligations.FeedbackEdges := by
  intro s p fa fb fz frac
  obtain ⟨t, ht⟩ : ∃ t, exec (.pfbEdge p fa fb fz frac) s = .next t := ⟨_, rfl⟩
  refine ⟨t, ht, ?_⟩
  intro u d neg clamp moved delta keeps old hfree
  obtain rfl : t = s.edged p.val fa fb fz frac.val := next_unique ht (exec_pfbEdge p fa fb fz frac hfree)
  obtain ⟨hfa, hfb, hfz⟩ := s.pfbAccept_held p.val fa fb fz
  have hpins := s.edged_pins p.val fa fb fz frac.val
  refine ⟨fun a ha hrecent => (congrArg (·.1) hpins).trans (hfa (State.pinFree_of_recent ha hrecent)),
    fun a ha hrecent => (congrArg (·.2.1) hpins).trans (hfb (State.pinFree_of_recent ha hrecent)),
    fun a ha hrecent => (congrArg (·.2.2.1) hpins).trans (hfz (State.pinFree_of_recent ha hrecent)), fun hoa hob hoz => ?_⟩
  have hold : s.pinsOld p.val := ⟨State.pinFree_of_old hoa, State.pinFree_of_old hob, State.pinFree_of_old hoz⟩
  refine ⟨?step, ?reversed, ?error, hold.edged_still, State.edged_set, ?gap⟩
  case step =>
    intro hmode href hd hdir
    obtain ⟨⟨⟨hpos, hovr, hlimit⟩, hstill, hshown, hns, hfrac, hfirst, hlater⟩, hmem⟩ :=
      hold.edged_counts (fz := fz) (frac := frac.val) hmode href hd hdir
    refine ⟨⟨hpos, hovr, hlimit⟩, hstill, hshown, ?_, hfrac.trans (Nat.mod_eq_of_lt frac.isLt), hmem, hfirst, hlater⟩
    exact hns.trans (by rw [State.edgeNs, BitVec.ofNat_toNat, BitVec.setWidth_eq])
  case reversed =>
    intro hmode hd hdir
    obtain ⟨hbut, hshown⟩ := hold.edged_reversed (fz := fz) (frac := frac.val) hmode hd hdir
    exact ⟨⟨hbut.rd (PFB.POS 0), hbut.rd (PFB.OVR 0)⟩, hshown⟩
  case error =>
    intro hmode hd
    obtain ⟨hbut, hshown⟩ := hold.edged_error (fz := fz) (frac := frac.val) hmode hd
    exact ⟨⟨hbut.rd (PFB.POS 0), hbut.rd (PFB.OVR 0)⟩, hshown⟩
  case gap =>
    intro hmode hne hedge href hn hhome hhomed hgap dir hdir hsrc hneg
    obtain ⟨⟨hpos, hovr, hlimit⟩, hseen⟩ :=
      hold.edged_gap (fz := fz) hmode hne hedge href hn hhome hhomed hgap hdir hsrc hneg
    exact ⟨⟨hpos, hovr, hlimit⟩, hseen⟩

end Sys2Proof.Machine
end

section
/-! PROOF of the statement FeedbackCommands: position commands, configuration, snapshots and standstill (R35, R101, R107,
R114, R116). -/

namespace Sys2Proof.Machine

variable {s t : State} {p : Nat} {m : Sys2Proof.Master}

/-! ## Position commands (R107) -/

/-- The unit of `t` stands at `x` within the soft limits of `s`, with the excess in OVERRUN. -/
def State.PlacedAt (s t : State) (p : Nat) (x : Int) : Prop :=
  t.rdI (PFB.POS p) = s.softClamp p x ∧ t.fi (PFB.OVR_V p) = satS 16 (x - s.softClamp p x)

/-- What follows leaves POS and OVERRUN. -/
theorem State.PlacedAt.after {u : State} {x : Int} {l : List Field} (h : s.PlacedAt t p x) (hu : t.UnitBut p l u)
    (hl : [wholeReg (PFB.POS 0), PFB.OVR_V 0].all (fun G => l.all (Field.spares · G)) = true := by decide) : s.PlacedAt u p x := by
  rw [List.all_eq_true] at hl
  exact ⟨(hu.rdI (PFB.POS 0) (hl _ (by decide))).trans h.1, (hu.fi (PFB.OVR_V 0) (hl _ (by decide))).trans h.2⟩

/-- The registers of a position command. -/
def posRegs (p : Nat) : List Nat := [PFB.POS p, PFB.OVR p, PFB.STAT p]

theorem State.posCmd_load (s : State) (p : Nat) (w : Word) : s.PlacedAt (s.posCmd p (some w)) p w.toInt
    ∧ (s.posCmd p (some w)).on (PFB.STAT_HOMED p) = true ∧ s.sameBut (s.posCmd p (some w)) (posRegs p) := by
  have hplaced : s.PlacedAt (s.place p w.toInt) p w.toInt := s.place_pos p w.toInt
  have hsame : s.sameBut (s.place p w.toInt) (posRegs p) := s.place_sameBut p w.toInt
  rw [State.posCmd]
  generalize s.place p w.toInt = a at hplaced hsame ⊢
  have hlast : a.UnitBut p [PFB.STAT_HOMED 0] (a.raise (PFB.STAT_HOMED p)) := .raise (.refl a) (PFB.STAT_HOMED 0)
  exact ⟨hplaced.after hlast, a.raise_on _ rfl, hsame.trans (State.sameBut_wr (by simp [posRegs, PFB.STAT_HOMED]) _)⟩

theorem State.posCmd_absorb (s : State) (p : Nat) : s.PlacedAt (s.posCmd p none) p (s.pos p + s.ovr p)
    ∧ (s.posCmd p none).on (PFB.STAT_OVR_SAT p) = false ∧ s.sameBut (s.posCmd p none) (posRegs p) := by
  rw [State.posCmd]
  generalize s.pos p + s.ovr p = x
  have hplaced : s.PlacedAt (s.place p x) p x := s.place_pos p x
  have hsame : s.sameBut (s.place p x) (posRegs p) := s.place_sameBut p x
  generalize s.place p x = a at hplaced hsame ⊢
  have hlast : a.UnitBut p [PFB.STAT_OVR_SAT 0] (a.setF (PFB.STAT_OVR_SAT p) 0) := .setF (.refl a) (PFB.STAT_OVR_SAT 0) 0
  exact ⟨hplaced.after hlast, a.setF_zero_on _ rfl, hsame.trans (State.sameBut_wr (by simp [posRegs, PFB.STAT_OVR_SAT]) _)⟩

theorem State.posOpen_eq_true (h : s.f (DPW.CFG_MODE p) = 0 ∨ s.forced p = true) : s.posOpen p = true := by
  simpa [State.posOpen] using h

theorem State.posOpen_eq_false (h : ¬(s.f (DPW.CFG_MODE p) = 0 ∨ s.forced p = true)) : s.posOpen p = false := by
  simpa [State.posOpen, not_or] using h

/-- A position command keeps itself in the memory of the unit and then acts. -/
theorem State.posCmdNow_eq (s : State) (p : Nat) (c : Option Word) : ∃ x, s.posCmdNow p c = (s.setPfb p x).posCmd p c := ⟨_, rfl⟩

/-- What changed registers alone after the answer and a note in the memory of a unit. -/
theorem State.sameBut.noted {x : PfbUnit} {r : Resp} {l : List Nat} (h : ((s.answer r).setPfb p x).sameBut t l) :
    s.wrote { t with pfb := s.pfb } l :=
  ⟨h.1, congrArg (fun u : State => { u with lastResp := s.lastResp, pfb := s.pfb }) h.2⟩

theorem State.pfbLoadCmd_effect (h : s.f (DPW.CFG_MODE p) = 0 ∨ s.forced p = true) (r : Resp) :
    let t := (s.answer r).pfbLoadCmd p
    s.PlacedAt t p (s.rdI (PFB.SETPOS p)) ∧ t.on (PFB.STAT_HOMED p) = true ∧ s.wrote { t with pfb := s.pfb } (posRegs p) := by
  obtain ⟨x, hx⟩ := (s.answer r).posCmdNow_eq p (some ((s.answer r).rd (PFB.SETPOS p)))
  have hload : (s.answer r).pfbLoadCmd p = ((s.answer r).setPfb p x).posCmd p (some (s.rd (PFB.SETPOS p))) :=
    (if_pos (State.posOpen_eq_true h)).trans hx
  obtain ⟨hplaced, hhomed, hsame⟩ := ((s.answer r).setPfb p x).posCmd_load p (s.rd (PFB.SETPOS p))
  rw [hload]
  exact ⟨hplaced, hhomed, hsame.noted⟩

theorem State.pfbAbsorbCmd_effect (h : s.f (DPW.CFG_MODE p) = 0 ∨ s.forced p = true) (r : Resp) :
    let t := (s.answer r).pfbAbsorbCmd p
    s.PlacedAt t p (s.pos p + s.ovr p) ∧ t.on (PFB.STAT_OVR_SAT p) = false ∧ s.wrote { t with pfb := s.pfb } (posRegs p) := by
  obtain ⟨x, hx⟩ := (s.answer r).posCmdNow_eq p none
  have habsorb : (s.answer r).pfbAbsorbCmd p = ((s.answer r).setPfb p x).posCmd p none :=
    (if_pos (State.posOpen_eq_true h)).trans hx
  obtain ⟨hplaced, hsat, hsame⟩ := ((s.answer r).setPfb p x).posCmd_absorb p
  rw [habsorb]
  exact ⟨hplaced, hsat, hsame.noted⟩

theorem State.posCmds_refused (h : ¬(s.f (DPW.CFG_MODE p) = 0 ∨ s.forced p = true)) (r : Resp) :
    s.turnedAway ((s.answer r).pfbLoadCmd p) ∧ s.turnedAway ((s.answer r).pfbAbsorbCmd p) := by
  have hopen : ¬(s.answer r).posOpen p = true := Bool.eq_false_iff.mp (State.posOpen_eq_false h)
  have hload : (s.answer r).pfbLoadCmd p = (s.answer r).sysIllegal := if_neg hopen
  have habsorb : (s.answer r).pfbAbsorbCmd p = (s.answer r).sysIllegal := if_neg hopen
  rw [hload, habsorb]
  exact ⟨rfl, rfl⟩

/-! ## Standstill (R114) -/

def stillFields : List Field := [PFB.STAT_STILL 0, wholeReg (PFB.SPEED 0), PFB.STAT_SPEED_VALID 0, PFB.STAT_REV_SETTLE 0]

theorem State.standstill_unitBut (s : State) (p : Nat) : s.UnitBut p stillFields (s.standstill p) :=
  .setPfb (.setF (.setF (.wr (.raise (.refl s) (PFB.STAT_STILL 0)) (PFB.SPEED 0) _) (PFB.STAT_SPEED_VALID 0) _)
    (PFB.STAT_REV_SETTLE 0) _) p _

theorem State.standstill_effect (s : State) (p : Nat) : (s.standstill p).on (PFB.STAT_STILL p) = true
    ∧ (s.standstill p).rd (PFB.SPEED p) = 0#32 ∧ (s.standstill p).on (PFB.STAT_SPEED_VALID p) = false
    ∧ (s.standstill p).on (PFB.STAT_REV_SETTLE p) = false := by
  have hstill : (s.raise (PFB.STAT_STILL p)).UnitBut p [wholeReg (PFB.SPEED 0), PFB.STAT_SPEED_VALID 0, PFB.STAT_REV_SETTLE 0]
      (s.standstill p) :=
    .setPfb (.setF (.setF (.wr (.refl _) (PFB.SPEED 0) _) (PFB.STAT_SPEED_VALID 0) _) (PFB.STAT_REV_SETTLE 0) _) p _
  generalize hw : (s.raise (PFB.STAT_STILL p)).wrN (PFB.SPEED p) 0 = w
  obtain ⟨x, hx⟩ : ∃ x, s.standstill p = ((w.setF (PFB.STAT_SPEED_VALID p) 0).setF (PFB.STAT_REV_SETTLE p) 0).setPfb p x :=
    ⟨_, by rw [← hw]; rfl⟩
  rw [hx] at hstill ⊢
  have hsettle : ((w.setF (PFB.STAT_SPEED_VALID p) 0).setF (PFB.STAT_REV_SETTLE p) 0).UnitBut p []
      (((w.setF (PFB.STAT_SPEED_VALID p) 0).setF (PFB.STAT_REV_SETTLE p) 0).setPfb p x) :=
    .setPfb (.refl _) p x
  have hvalid : (w.setF (PFB.STAT_SPEED_VALID p) 0).UnitBut p [PFB.STAT_REV_SETTLE 0]
      (((w.setF (PFB.STAT_SPEED_VALID p) 0).setF (PFB.STAT_REV_SETTLE p) 0).setPfb p x) :=
    .setPfb (.setF (.refl _) (PFB.STAT_REV_SETTLE 0) _) p x
  have hspeed : w.UnitBut p [PFB.STAT_SPEED_VALID 0, PFB.STAT_REV_SETTLE 0]
      (((w.setF (PFB.STAT_SPEED_VALID p) 0).setF (PFB.STAT_REV_SETTLE p) 0).setPfb p x) :=
    .setPfb (.setF (.setF (.refl _) (PFB.STAT_SPEED_VALID 0) _) (PFB.STAT_REV_SETTLE 0) _) p x
  have hzero : w.rd (PFB.SPEED p) = 0#32 := hw ▸ State.rd_wr_same _ _ _
  exact ⟨(hstill.on (PFB.STAT_STILL 0)).trans (State.raise_on _ _ rfl), (hspeed.rd (PFB.SPEED 0)).trans hzero,
    (hvalid.on (PFB.STAT_SPEED_VALID 0)).trans (State.setF_zero_on _ _ rfl),
    (hsettle.on (PFB.STAT_REV_SETTLE 0)).trans (State.setF_zero_on _ _ rfl)⟩

/-! ## Configuration (R101) -/

/-- The first part of a restart: POS, OVERRUN and HOMED clear. -/
def State.posCleared (s : State) (p : Nat) : State :=
  (((s.wrN (PFB.POS p) 0).setF (PFB.OVR_V p) 0).setF (PFB.STAT_HOMED p) 0).atLimits p

/-- The last part of a restart: the memory of the unit, validity, direction and transfer. -/
def State.transferCleared (s : State) (p : Nat) (x : PfbUnit) : State :=
  let t := (((((s.setPfb p x).setF (PFB.STAT_VALID p) 0).setF (PFB.STAT_DIR p) 0).setF (PFB.SERSTAT_BUSY p) 0).setF
    (PFB.SERSTAT_FAILS p) 0)
  ((t.cancel (.pfbStandstill (Fin.ofNat 96 p))).cancel (.serialAckTimeout (Fin.ofNat 96 p))).pfbValid p

theorem State.pfbRestart_eq (s : State) (p : Nat) :
    ∃ x : PfbUnit, x.dir = none ∧ s.pfbRestart p = ((s.posCleared p).standstill p).transferCleared p x := ⟨_, rfl, rfl⟩

theorem State.pfbValid_unitBut (s : State) (p : Nat) : s.UnitBut p [PFB.STAT_VALID 0] (s.pfbValid p) :=
  .ite (.raise (.refl s) (PFB.STAT_VALID 0)) (.refl s)

theorem State.pfbValid_pfbU (s : State) (p q : Nat) : (s.pfbValid p).pfbU q = s.pfbU q := by
  unfold State.pfbValid
  dsimp only
  split
  · simp
  · rfl

def clearedFields : List Field := [PFB.STAT_VALID 0, PFB.STAT_DIR 0, PFB.SERSTAT_BUSY 0, PFB.SERSTAT_FAILS 0]

theorem State.transferCleared_unitBut (s : State) (p : Nat) (x : PfbUnit) : s.UnitBut p clearedFields (s.transferCleared p x) :=
  .trans (.cancel (.cancel (.setF (.setF (.setF (.setF (.setPfb (.refl s) p x) (PFB.STAT_VALID 0) _) (PFB.STAT_DIR 0) _)
    (PFB.SERSTAT_BUSY 0) _) (PFB.SERSTAT_FAILS 0) _) _) _) (State.pfbValid_unitBut _ p)

theorem State.transferCleared_pfbU (s : State) (p : Nat) (x : PfbUnit) : (s.transferCleared p x).pfbU p = x := by
  rw [State.transferCleared, State.pfbValid_pfbU, State.cancel_pfbU, State.cancel_pfbU, State.setF_pfbU, State.setF_pfbU,
    State.setF_pfbU, State.setF_pfbU, State.pfbU_setPfb_same]

def originFields : List Field :=
  [wholeReg (PFB.POS 0), PFB.OVR_V 0, PFB.STAT_HOMED 0, PFB.STAT_AT_HI 0, PFB.STAT_AT_LO 0]

theorem State.posCleared_unitBut (s : State) (p : Nat) : s.UnitBut p originFields (s.posCleared p) :=
  .trans (.setF (.setF (.wr (.refl s) (PFB.POS 0) _) (PFB.OVR_V 0) _) (PFB.STAT_HOMED 0) _) (State.atLimits_unitBut _ p)

theorem State.posCleared_effect (s : State) (p : Nat) : (s.posCleared p).rd (PFB.POS p) = 0#32
    ∧ (s.posCleared p).f (PFB.OVR_V p) = 0 ∧ (s.posCleared p).on (PFB.STAT_HOMED p) = false := by
  generalize hw : s.wrN (PFB.POS p) 0 = w
  have hend : s.posCleared p = ((w.setF (PFB.OVR_V p) 0).setF (PFB.STAT_HOMED p) 0).atLimits p := by rw [← hw]; rfl
  have hpos : w.UnitBut p [PFB.OVR_V 0, PFB.STAT_HOMED 0, PFB.STAT_AT_HI 0, PFB.STAT_AT_LO 0] (s.posCleared p) :=
    hend ▸ .trans (.setF (.setF (.refl _) (PFB.OVR_V 0) _) (PFB.STAT_HOMED 0) _) (State.atLimits_unitBut _ p)
  have hovr : (w.setF (PFB.OVR_V p) 0).UnitBut p [PFB.STAT_HOMED 0, PFB.STAT_AT_HI 0, PFB.STAT_AT_LO 0] (s.posCleared p) :=
    hend ▸ .trans (.setF (.refl _) (PFB.STAT_HOMED 0) _) (State.atLimits_unitBut _ p)
  have hhomed := (((w.setF (PFB.OVR_V p) 0).setF (PFB.STAT_HOMED p) 0).atLimits_unitBut p).on (PFB.STAT_HOMED 0)
  refine ⟨(hpos.rd (PFB.POS 0)).trans ?_, (hovr.f (PFB.OVR_V 0)).trans (State.setF_f _ _ _ rfl), ?_⟩
  · rw [← hw]
    exact State.rd_wr_same _ _ _
  · rw [hend]
    exact hhomed.trans (State.setF_zero_on _ (PFB.STAT_HOMED p) rfl)

/-- A unit that restarted (R101). -/
structure State.Restarted (t : State) (p : Nat) : Prop where
  pos : t.rd (PFB.POS p) = 0#32
  ovr : t.f (PFB.OVR_V p) = 0
  speed : t.rd (PFB.SPEED p) = 0#32
  homed : t.on (PFB.STAT_HOMED p) = false
  still : t.on (PFB.STAT_STILL p) = true
  dir : (t.pfbU p).dir = none

theorem State.pfbRestart_restarted (s : State) (p : Nat) : (s.pfbRestart p).Restarted p := by
  obtain ⟨x, hdir, heq⟩ := s.pfbRestart_eq p
  obtain ⟨hpos, hovr, hhomed⟩ := s.posCleared_effect p
  obtain ⟨hstill, hspeed, -, -⟩ := (s.posCleared p).standstill_effect p
  have hmid := (s.posCleared p).standstill_unitBut p
  have hlast := ((s.posCleared p).standstill p).transferCleared_unitBut p x
  rw [heq]
  exact ⟨(hlast.rd (PFB.POS 0)).trans ((hmid.rd (PFB.POS 0)).trans hpos), (hlast.f (PFB.OVR_V 0)).trans ((hmid.f (PFB.OVR_V 0)).trans hovr),
    (hlast.rd (PFB.SPEED 0)).trans hspeed, (hlast.on (PFB.STAT_HOMED 0)).trans ((hmid.on (PFB.STAT_HOMED 0)).trans hhomed),
    (hlast.on (PFB.STAT_STILL 0)).trans hstill, (congrArg PfbUnit.dir (State.transferCleared_pfbU _ p x)).trans hdir⟩

theorem State.pfbRestart_unitBut (s : State) (p : Nat) : s.UnitBut p (originFields ++ stillFields ++ clearedFields) (s.pfbRestart p) := by
  obtain ⟨x, -, heq⟩ := s.pfbRestart_eq p
  rw [heq]
  exact .trans (.trans (.trans (.refl s) (s.posCleared_unitBut p)) (State.standstill_unitBut _ p)) (State.transferCleared_unitBut _ p x)

theorem pfbCfgMode_stored : ∀ p : Fin 96, (PFB.CFG_MODE p.val).stored = true := by decide +kernel

/-- A good configuration of a port in OFF. -/
theorem State.pfbCfgStore_restarted {p : Fin 96} {ser : Bool} {v : Word} (hgood : (if ser then serCfgBad v else pfbCfgBad v) = false)
    (hoff : s.f (DPW.CFG_MODE p.val) = 0) : (s.pfbCfgStore p.val ser v).Restarted p.val
      ∧ (ser = false → (s.pfbCfgStore p.val ser v).f (PFB.CFG_MODE p.val) = getBits 0 3 v) := by
  have hfree : decide (s.f (DPW.CFG_MODE p.val) ≠ 0) = false := by simp [hoff]
  have hstore : s.pfbCfgStore p.val ser v = (s.store (if ser then PFB.SERCFG p.val else PFB.CFG p.val) v).pfbRestart p.val :=
    State.judge_good (s := s) hgood hfree (PFB.STAT_ERR_ARG p.val) fun u => (u.store (if ser then PFB.SERCFG p.val else PFB.CFG p.val) v).pfbRestart p.val
  rw [hstore]
  refine ⟨State.pfbRestart_restarted _ _, fun hser => ?_⟩
  rw [hser]
  exact ((State.pfbRestart_unitBut _ p.val).f (PFB.CFG_MODE 0)).trans
    (s.store_f (PFB.CFG_MODE p.val) (pfbCfgMode_stored p) (by simp [PFB.CFG_MODE]) v 0#32)

/-! ## Snapshots (R35, R116) -/

/-- A read of a wide set changes the copies of its reader and the answer alone. -/
theorem State.snapshot_bank (s : State) (m : Sys2Proof.Master) (l : List Nat) : ∃ b, s.snapshot m l = { s with bank := b } :=
  List.foldlRecOn (motive := fun u : State => ∃ b, u = { s with bank := b }) l _ ⟨s.bank, rfl⟩
    fun _ hu _ _ => hu.elim fun _ e => e ▸ ⟨_, rfl⟩

theorem State.busRead_snapshot {o : Nat} (h : s.reaches m o) (hp : plainRead o = true) {l : List Nat} (hl : l ⊆ snapOffs o) :
    (s.busRead m o).lastResp = .data (s.rd o) ∧ (∀ k ∈ l, (s.busRead m o).bankRd m k = s.rd k)
      ∧ s.wrote { s.busRead m o with bank := s.bank } [] := by
  rw [State.busRead_plain h hp]
  refine ⟨rfl, fun k hk => s.snapshot_bankRd _ (hl hk), ?_⟩
  obtain ⟨b, hb⟩ := s.snapshot_bank m (snapOffs o)
  rw [hb]
  exact ⟨fun _ _ => rfl, rfl⟩

theorem pfbPos_plain : ∀ p : Fin 96, plainRead (PFB.POS p.val) = true := by decide +kernel
theorem pfbLat0_plain : ∀ p : Fin 96, plainRead (PFB.LAT0 p.val) = true := by decide +kernel

theorem pfbPos_takes : ∀ p : Fin 96,
    [PFB.OVR p.val, PFB.SPEED p.val, PFB.EDGENS p.val, PFB.EDGEFR p.val] ⊆ snapOffs (PFB.POS p.val) := by
  decide +kernel

theorem pfbLat0_takes : ∀ p : Fin 96,
    [PFB.LAT1 p.val, PFB.LAT2 p.val, PFB.LAT3 p.val, PFB.LAT4 p.val, PFB.LAT5 p.val] ⊆ snapOffs (PFB.LAT0 p.val) := by
  decide +kernel

end Sys2Proof.Machine
end

section
/-! PROOF of the statement FeedbackCommands: serial readings (R119 to R121), and the statement. -/

namespace Sys2Proof.Machine

variable {s t : State} {p : Nat} {m : Sys2Proof.Master}

/-! ## Failed transfers (R121, R122) -/

/-- The flags of a failed transfer. -/
def serFlags : List Field := [PFB.SERSTAT_LINE_ERR 0, PFB.SERSTAT_CRC_ERR 0, PFB.SERSTAT_NE 0, PFB.SERSTAT_ACK_TO 0]

def serFailFields : List Field := PFB.STAT_SPEED_VALID 0 :: PFB.SERSTAT_FAILS 0 :: PFB.CNT_ERR_CNT 0 :: faultFields

theorem State.serFail_effect (s : State) (p : Nat) : s.UnitBut p serFailFields (s.serFail p true)
    ∧ (s.serFail p true).on (PFB.STAT_SPEED_VALID p) = false
    ∧ (s.serFail p true).f (PFB.CNT_ERR_CNT p) = min (s.f (PFB.CNT_ERR_CNT p) + 1) 65535 := by
  generalize hv : s.setF (PFB.STAT_SPEED_VALID p) 0 = v
  generalize hc : (v.bump (PFB.SERSTAT_FAILS p)) = c
  have hfail : s.serFail p true = if ((c.bump (PFB.CNT_ERR_CNT p)).setPfb p { (c.bump (PFB.CNT_ERR_CNT p)).pfbU p with good := 0 }).f
        (PFB.SERSTAT_FAILS p) = ((c.bump (PFB.CNT_ERR_CNT p)).setPfb p { (c.bump (PFB.CNT_ERR_CNT p)).pfbU p with good := 0 }).f
        (PFB.SERCFG_SERFAIL_N p)
      then ((c.bump (PFB.CNT_ERR_CNT p)).setPfb p { (c.bump (PFB.CNT_ERR_CNT p)).pfbU p with good := 0 }).pfbFault p 3
      else (c.bump (PFB.CNT_ERR_CNT p)).setPfb p { (c.bump (PFB.CNT_ERR_CNT p)).pfbU p with good := 0 } := by
    rw [← hc, ← hv]
    rfl
  have hsv : s.UnitBut p [PFB.STAT_SPEED_VALID 0] v := hv ▸ .setF (.refl s) (PFB.STAT_SPEED_VALID 0) 0
  have hvc : v.UnitBut p [PFB.SERSTAT_FAILS 0] c := hc ▸ .bump (.refl v) (PFB.SERSTAT_FAILS 0) 1
  have hlast : (c.bump (PFB.CNT_ERR_CNT p)).UnitBut p faultFields (s.serFail p true) :=
    hfail ▸ .ite (.trans (.setPfb (.refl _) p _) (State.pfbFault_unitBut _ p 3)) (.setPfb (.refl _) p _)
  have hcount : c.UnitBut p (PFB.CNT_ERR_CNT 0 :: faultFields) (s.serFail p true) :=
    .trans (.bump (.refl c) (PFB.CNT_ERR_CNT 0) 1) hlast
  have hvalid : v.UnitBut p (PFB.SERSTAT_FAILS 0 :: PFB.CNT_ERR_CNT 0 :: faultFields) (s.serFail p true) :=
    .trans (.trans (.refl v) hvc) hcount
  have hcnt : c.f (PFB.CNT_ERR_CNT p) = s.f (PFB.CNT_ERR_CNT p) := (hvc.f (PFB.CNT_ERR_CNT 0)).trans (hsv.f (PFB.CNT_ERR_CNT 0))
  refine ⟨.trans (.trans (.refl s) hsv) hvalid, (hvalid.on (PFB.STAT_SPEED_VALID 0)).trans ?_, (hlast.f (PFB.CNT_ERR_CNT 0)).trans ?_⟩
  · rw [← hv]
    exact State.setF_zero_on _ _ rfl
  · exact hcnt ▸ c.bump_f (PFB.CNT_ERR_CNT p) rfl

/-- What a transfer that ends leaves in its registers before its reading or failure. -/
def endFields : List Field := [PFB.SERSTAT_BUSY 0, PFB.SERSTAT_LINE_DLY 0]

/-- A failed transfer with the flag `G`. -/
structure State.TransferFailed (s t : State) (p : Nat) (G : Field) : Prop where
  pos : t.rd (PFB.POS p) = s.rd (PFB.POS p)
  ovr : t.rd (PFB.OVR p) = s.rd (PFB.OVR p)
  edgeNs : t.rd (PFB.EDGENS p) = s.rd (PFB.EDGENS p)
  speedValid : t.on (PFB.STAT_SPEED_VALID p) = false
  busy : t.on (PFB.SERSTAT_BUSY p) = false
  errors : t.f (PFB.CNT_ERR_CNT p) = min (s.f (PFB.CNT_ERR_CNT p) + 1) 65535
  flag : t.on (G.inUnit p) = true

theorem State.serFail_failed (h : s.UnitBut p endFields t) (hbusy : t.on (PFB.SERSTAT_BUSY p) = false) {G : Field}
    (hG : G ∈ serFlags) : s.TransferFailed ((t.raise (G.inUnit p)).serFail p true) p G := by
  have hok : G.ok = true := List.all_eq_true.mp (by decide : serFlags.all Field.ok = true) G hG
  have hspared : serFailFields.all (Field.spares · G) = true :=
    List.all_eq_true.mp (by decide : serFlags.all (fun G => serFailFields.all (Field.spares · G)) = true) G hG
  have hflag : t.UnitBut p serFlags (t.raise (G.inUnit p)) := .raise (.refl t) G hG
  have hraised : (t.raise (G.inUnit p)).on (G.inUnit p) = true := State.raise_on _ _ hok
  generalize t.raise (G.inUnit p) = a at hflag hraised ⊢
  obtain ⟨hbut, hvalid, herrors⟩ := a.serFail_effect p
  have hsa : s.UnitBut p (endFields ++ serFlags) a := .trans (.trans (.refl s) h) hflag
  have hcnt : a.f (PFB.CNT_ERR_CNT p) = s.f (PFB.CNT_ERR_CNT p) := hsa.f (PFB.CNT_ERR_CNT 0)
  exact ⟨(hbut.rd (PFB.POS 0)).trans (hsa.rd (PFB.POS 0)), (hbut.rd (PFB.OVR 0)).trans (hsa.rd (PFB.OVR 0)),
    (hbut.rd (PFB.EDGENS 0)).trans (hsa.rd (PFB.EDGENS 0)), hvalid,
    (hbut.on (PFB.SERSTAT_BUSY 0)).trans ((hflag.on (PFB.SERSTAT_BUSY 0)).trans hbusy), hcnt ▸ herrors,
    (hbut.on G hspared).trans hraised⟩

/-! ## Valid readings (R121) -/

/-- What a valid reading writes first: the raw value, the counter of failures, validity. -/
def State.readingNoted (s : State) (p r : Nat) : State :=
  let t := (s.wrN (PFB.SERRAW p) r).setF (PFB.SERSTAT_FAILS p) 0
  if t.on (PFB.STAT_FAULT p) then t else t.raise (PFB.STAT_VALID p)

theorem State.readingNoted_unitBut (s : State) (p r : Nat) :
    s.UnitBut p [wholeReg (PFB.SERRAW 0), PFB.SERSTAT_FAILS 0, PFB.STAT_VALID 0] (s.readingNoted p r) :=
  .ite (.setF (.wr (.refl s) (PFB.SERRAW 0) _) (PFB.SERSTAT_FAILS 0) _)
    (.raise (.setF (.wr (.refl s) (PFB.SERRAW 0) _) (PFB.SERSTAT_FAILS 0) _) (PFB.STAT_VALID 0))

theorem State.readingNoted_effect (s : State) (p r : Nat) : (s.readingNoted p r).rd (PFB.SERRAW p) = BitVec.ofNat 32 r
    ∧ (s.readingNoted p r).f (PFB.SERSTAT_FAILS p) = 0 := by
  generalize hw : s.wrN (PFB.SERRAW p) r = w
  have hnoted : s.readingNoted p r = if (w.setF (PFB.SERSTAT_FAILS p) 0).on (PFB.STAT_FAULT p) then w.setF (PFB.SERSTAT_FAILS p) 0
      else (w.setF (PFB.SERSTAT_FAILS p) 0).raise (PFB.STAT_VALID p) := by
    rw [← hw]
    rfl
  have hraw : w.UnitBut p [PFB.SERSTAT_FAILS 0, PFB.STAT_VALID 0] (s.readingNoted p r) :=
    hnoted ▸ .ite (.setF (.refl w) (PFB.SERSTAT_FAILS 0) _) (.raise (.setF (.refl w) (PFB.SERSTAT_FAILS 0) _) (PFB.STAT_VALID 0))
  have hfails : (w.setF (PFB.SERSTAT_FAILS p) 0).UnitBut p [PFB.STAT_VALID 0] (s.readingNoted p r) :=
    hnoted ▸ .ite (.refl _) (.raise (.refl _) (PFB.STAT_VALID 0))
  refine ⟨(hraw.rd (PFB.SERRAW 0)).trans ?_, (hfails.f (PFB.SERSTAT_FAILS 0)).trans (State.setF_f _ _ _ rfl)⟩
  rw [← hw]
  exact State.rd_wr_same _ _ _

def stampFields : List Field := [wholeReg (PFB.EDGENS 0), PFB.EDGEFR_FRAC 0, PFB.EDGEFR_WC 0]

/-- What a later reading writes after its step: the time stamp, SPEED, standstill and direction. -/
def laterFields : List Field :=
  stampFields ++ [wholeReg (PFB.SPEED 0), PFB.STAT_SPEED_VALID 0, PFB.STAT_STILL 0, PFB.STAT_DIR 0]

/-- The step between two readings of `bits` bits, which DIRINV turns round (R104, R121). -/
def readingStep (bits : Nat) (inv : Bool) (prev r : Nat) : Int :=
  let raw := signedOf bits ((r + 2 ^ bits - prev) % 2 ^ bits)
  if inv then -raw else raw

/-- The first valid reading after a restart places POS. -/
theorem State.serReading_first (s : State) (p r : Nat) (h : (s.pfbU p).rPrev = none) :
    ((s.readingNoted p r).place p r).UnitBut p stampFields (s.serReading p r) := by
  obtain ⟨ns, wc, frac, x, heq⟩ : ∃ ns wc frac x,
      s.serReading p r = (((s.readingNoted p r).place p r).edgeLatch p ns wc frac).setPfb p x := by
    unfold State.serReading
    simp only [h]
    exact ⟨_, _, _, _, rfl⟩
  rw [heq]
  exact .setPfb (State.edgeLatch_unitBut _ p _ _ _) p x

/-- A later valid reading is a step. -/
theorem State.serReading_later (s : State) (p r : Nat) {q : Nat} (h : (s.pfbU p).rPrev = some q) :
    ((s.readingNoted p r).addStep p (readingStep (s.f (PFB.SERCFG_BITS p)) ((s.readingNoted p r).on (PFB.CFG_DIRINV p)) q r)).UnitBut p
      laterFields (s.serReading p r) := by
  generalize hstep : (s.readingNoted p r).addStep p
    (readingStep (s.f (PFB.SERCFG_BITS p)) ((s.readingNoted p r).on (PFB.CFG_DIRINV p)) q r) = t
  obtain ⟨ns, wc, frac, x, fast, hfast, v, still, neg, dt, heq⟩ :
      ∃ ns wc frac x, ∃ fast : Prop, ∃ _ : Decidable fast, ∃ v, ∃ still : Bool, ∃ neg dt,
      let a := (t.edgeLatch p ns wc frac).setPfb p x
      let b := if fast then (a.wrI (PFB.SPEED p) v).raise (PFB.STAT_SPEED_VALID p) else a
      s.serReading p r = if still then b else ((b.setF (PFB.STAT_STILL p) 0).flag (PFB.STAT_DIR p) neg).restartStill p dt := by
    rw [← hstep]
    unfold State.serReading
    simp only [h]
    exact ⟨_, _, _, _, _, _, _, _, _, _, rfl⟩
  have hstamp : t.UnitBut p laterFields ((t.edgeLatch p ns wc frac).setPfb p x) :=
    .setPfb (.trans (.refl t) (t.edgeLatch_unitBut p ns wc frac)) p x
  have hspeed : t.UnitBut p laterFields (if fast then
      (((t.edgeLatch p ns wc frac).setPfb p x).wrI (PFB.SPEED p) v).raise (PFB.STAT_SPEED_VALID p)
      else (t.edgeLatch p ns wc frac).setPfb p x) :=
    .ite (.raise (.wr hstamp (PFB.SPEED 0) _) (PFB.STAT_SPEED_VALID 0)) hstamp
  rw [heq]
  exact .ite hspeed (.resched (.flag (.setF hspeed (PFB.STAT_STILL 0) 0) (PFB.STAT_DIR 0) neg) dt _)

/-- A valid reading `r` of `bits` bits (R121). -/
structure State.ReadingTaken (s t : State) (p bits r : Nat) : Prop where
  raw : t.rd (PFB.SERRAW p) = BitVec.ofNat 32 r
  fails : t.f (PFB.SERSTAT_FAILS p) = 0
  busy : t.on (PFB.SERSTAT_BUSY p) = false
  first : (s.pfbU p).rPrev = none → s.PlacedAt t p r
  later : ∀ q, (s.pfbU p).rPrev = some q →
    t.rdI (PFB.POS p) = s.softClamp p (s.rdI (PFB.POS p) + readingStep bits (s.on (PFB.CFG_DIRINV p)) q r)

theorem State.PlacedAt.before {u : State} {x : Int} {l : List Field} (h : t.PlacedAt u p x) (hs : s.UnitBut p l t)
    (hl : [wholeReg (PFB.SL_LO 0), wholeReg (PFB.SL_HI 0)].all (fun G => l.all (Field.spares · G)) = true := by decide) :
    s.PlacedAt u p x := by
  rw [List.all_eq_true] at hl
  have hclamp : t.softClamp p x = s.softClamp p x :=
    congrArg₂ (clampInt · · x) (hs.rdI (PFB.SL_LO 0) (hl _ (by decide))) (hs.rdI (PFB.SL_HI 0) (hl _ (by decide)))
  exact ⟨hclamp ▸ h.1, hclamp ▸ h.2⟩

theorem State.serReading_taken (s : State) (p r : Nat) (hbusy : s.on (PFB.SERSTAT_BUSY p) = false) :
    s.ReadingTaken (s.serReading p r) p (s.f (PFB.SERCFG_BITS p)) r := by
  have hnoted := s.readingNoted_unitBut p r
  obtain ⟨hraw, hfails⟩ := s.readingNoted_effect p r
  have hbusy' := (hnoted.on (PFB.SERSTAT_BUSY 0)).trans hbusy
  have hinv : (s.readingNoted p r).on (PFB.CFG_DIRINV p) = s.on (PFB.CFG_DIRINV p) := hnoted.on (PFB.CFG_DIRINV 0)
  have hpos : (s.readingNoted p r).rdI (PFB.POS p) = s.rdI (PFB.POS p) := hnoted.rdI (PFB.POS 0)
  cases hprev : (s.pfbU p).rPrev with
  | none =>
    have hlast := s.serReading_first p r hprev
    have hplace := (s.readingNoted p r).place_unitBut p r
    have hplaced : (s.readingNoted p r).PlacedAt ((s.readingNoted p r).place p r) p r := State.place_pos _ p r
    generalize s.readingNoted p r = b at *
    have hmid : b.UnitBut p (posFields ++ stampFields) (s.serReading p r) := .trans (.trans (.refl b) hplace) hlast
    exact ⟨(hmid.rd (PFB.SERRAW 0)).trans hraw, (hmid.f (PFB.SERSTAT_FAILS 0)).trans hfails,
      (hmid.on (PFB.SERSTAT_BUSY 0)).trans hbusy', fun _ => (hplaced.after hlast).before hnoted, fun q hq => by simp [hprev] at hq⟩
  | some q =>
    have hlast := s.serReading_later p r hprev
    rw [hinv] at hlast
    have hstep := (s.readingNoted p r).addStep_unitBut p (readingStep (s.f (PFB.SERCFG_BITS p)) (s.on (PFB.CFG_DIRINV p)) q r)
    have hmoved := (s.readingNoted p r).addStep_moved p (readingStep (s.f (PFB.SERCFG_BITS p)) (s.on (PFB.CFG_DIRINV p)) q r)
    rw [hpos] at hmoved
    generalize s.readingNoted p r = b at *
    have hmid : b.UnitBut p (posFields ++ laterFields) (s.serReading p r) := .trans (.trans (.refl b) hstep) hlast
    refine ⟨(hmid.rd (PFB.SERRAW 0)).trans hraw, (hmid.f (PFB.SERSTAT_FAILS 0)).trans hfails,
      (hmid.on (PFB.SERSTAT_BUSY 0)).trans hbusy', fun hq => by simp [hprev] at hq, fun q' hq => ?_⟩
    obtain rfl : q = q' := Option.some.inj (hprev.symm.trans hq)
    exact ((hmoved.after hlast).before hnoted).pos

/-! ## The end of a transfer (R120) -/

/-- A transfer ended whose last bit was sampled at `last`; its result is still open. -/
def State.transferEnded (s : State) (p last : Nat) : State :=
  let t := (s.setF (PFB.SERSTAT_BUSY p) 0).cancel (.serialAckTimeout (Fin.ofNat 96 p))
  t.setPfb p { t.pfbU p with lastBit := some last, before := t.pfbSet p }

theorem State.transferEnded_unitBut (s : State) (p last : Nat) : s.UnitBut p [PFB.SERSTAT_BUSY 0] (s.transferEnded p last) :=
  .setPfb (.cancel (.setF (.refl s) (PFB.SERSTAT_BUSY 0) 0) _) p _

theorem State.transferEnded_busy (s : State) (p last : Nat) : (s.transferEnded p last).on (PFB.SERSTAT_BUSY p) = false := by
  have hlast : (s.setF (PFB.SERSTAT_BUSY p) 0).UnitBut p [] (s.transferEnded p last) := .setPfb (.cancel (.refl _) _) p _
  exact (hlast.on (PFB.SERSTAT_BUSY 0)).trans (s.setF_zero_on _ rfl)

theorem State.transferEnded_pfbU (s : State) (p last : Nat) :
    ∃ x y, (s.transferEnded p last).pfbU p = { s.pfbU p with lastBit := x, before := y } := by
  refine ⟨some last, ((s.setF (PFB.SERSTAT_BUSY p) 0).cancel (.serialAckTimeout (Fin.ofNat 96 p))).pfbSet p, ?_⟩
  rw [State.transferEnded, State.pfbU_setPfb_same, State.cancel_pfbU, State.setF_pfbU]

/-- In SSI a transfer that began with FZ low fails. -/
theorem State.serEnd_line {r : SerFrame} {last : Nat} (hmode : s.f (PFB.CFG_MODE p) = 3) (hline : (s.pfbU p).fzStart = false) :
    s.TransferFailed (s.serEnd p r last) p (PFB.SERSTAT_LINE_ERR 0) := by
  have hbut := s.transferEnded_unitBut p last
  obtain ⟨x, y, hunit⟩ := s.transferEnded_pfbU p last
  have hend : s.serEnd p r last = ((s.transferEnded p last).raise (PFB.SERSTAT_LINE_ERR p)).serFail p true :=
    (if_pos ((hbut.f (PFB.CFG_MODE 0)).trans hmode)).trans (if_pos (by
      show (!((s.transferEnded p last).pfbU p).fzStart) = true
      rw [hunit]
      exact congrArg (!·) hline))
  rw [hend]
  exact State.serFail_failed (G := PFB.SERSTAT_LINE_ERR 0) (.trans (.refl s) hbut) (s.transferEnded_busy p last) (by decide)

/-- In BiSS the transfer has ended and LINE_DLY is measured; its result is still open. -/
def State.bissEnded (s : State) (p last : Nat) : State :=
  let t := s.transferEnded p last
  t.setF (PFB.SERSTAT_LINE_DLY p) (satU 8 ((t.pfbU p).ackAt.getD 0 - t.fckRise p 2))

theorem State.bissEnded_unitBut (s : State) (p last : Nat) : s.UnitBut p endFields (s.bissEnded p last) :=
  .setF (.trans (.refl s) (s.transferEnded_unitBut p last)) (PFB.SERSTAT_LINE_DLY 0) _

theorem State.bissEnded_busy (s : State) (p last : Nat) : (s.bissEnded p last).on (PFB.SERSTAT_BUSY p) = false := by
  have hdly : (s.transferEnded p last).UnitBut p [PFB.SERSTAT_LINE_DLY 0] (s.bissEnded p last) :=
    .setF (.refl _) (PFB.SERSTAT_LINE_DLY 0) _
  exact (hdly.on (PFB.SERSTAT_BUSY 0)).trans (s.transferEnded_busy p last)

theorem State.serEnd_biss {r : SerFrame} {last : Nat} (hmode : s.f (PFB.CFG_MODE p) = 4) :
    let raw := r.raw.toNat % 2 ^ s.f (PFB.SERCFG_BITS p)
    let t := s.bissEnded p last
    s.serEnd p r last = if r.crc.toNat ≠ bissCrc (s.f (PFB.SERCFG_BITS p)) raw r.nE r.nW then
        (t.raise (PFB.SERSTAT_CRC_ERR p)).serFail p true
      else if !r.nE then (t.raise (PFB.SERSTAT_NE p)).serFail p true
      else (t.raiseIf (!r.nW) (PFB.SERSTAT_NW p)).serReading p raw := by
  have hbut := s.transferEnded_unitBut p last
  have hmode' : (s.transferEnded p last).f (PFB.CFG_MODE p) ≠ 3 := by
    have hsame : (s.transferEnded p last).f (PFB.CFG_MODE p) = s.f (PFB.CFG_MODE p) := hbut.f (PFB.CFG_MODE 0)
    omega
  have hbits : (s.transferEnded p last).f (PFB.SERCFG_BITS p) = s.f (PFB.SERCFG_BITS p) := hbut.f (PFB.SERCFG_BITS 0)
  rw [← hbits]
  exact if_neg hmode'

theorem State.serEnd_crc {r : SerFrame} {last : Nat} (hmode : s.f (PFB.CFG_MODE p) = 4)
    (hcrc : r.crc.toNat ≠ bissCrc (s.f (PFB.SERCFG_BITS p)) (r.raw.toNat % 2 ^ s.f (PFB.SERCFG_BITS p)) r.nE r.nW) :
    s.TransferFailed (s.serEnd p r last) p (PFB.SERSTAT_CRC_ERR 0) := by
  rw [State.serEnd_biss hmode, if_pos hcrc]
  exact State.serFail_failed (G := PFB.SERSTAT_CRC_ERR 0) (s.bissEnded_unitBut p last) (s.bissEnded_busy p last) (by decide)

theorem State.serEnd_error {r : SerFrame} {last : Nat} (hmode : s.f (PFB.CFG_MODE p) = 4)
    (hcrc : r.crc.toNat = bissCrc (s.f (PFB.SERCFG_BITS p)) (r.raw.toNat % 2 ^ s.f (PFB.SERCFG_BITS p)) r.nE r.nW)
    (hne : r.nE = false) : s.TransferFailed (s.serEnd p r last) p (PFB.SERSTAT_NE 0) := by
  rw [State.serEnd_biss hmode, if_neg (not_not.mpr hcrc), if_pos (by simp [hne])]
  exact State.serFail_failed (G := PFB.SERSTAT_NE 0) (s.bissEnded_unitBut p last) (s.bissEnded_busy p last) (by decide)

/-- What precedes a reading and leaves the position, its limits and the last reading. -/
theorem State.ReadingTaken.before {u : State} {bits r : Nat} {l : List Field} (h : t.ReadingTaken u p bits r) (hs : s.UnitBut p l t)
    (hprev : (t.pfbU p).rPrev = (s.pfbU p).rPrev)
    (hl : [wholeReg (PFB.POS 0), wholeReg (PFB.SL_LO 0), wholeReg (PFB.SL_HI 0), PFB.CFG_DIRINV 0].all
      (fun G => l.all (Field.spares · G)) = true := by decide) :
    s.ReadingTaken u p bits r := by
  rw [List.all_eq_true] at hl
  have hpos : t.rdI (PFB.POS p) = s.rdI (PFB.POS p) := hs.rdI (PFB.POS 0) (hl _ (by decide))
  have hinv : t.on (PFB.CFG_DIRINV p) = s.on (PFB.CFG_DIRINV p) := hs.on (PFB.CFG_DIRINV 0) (hl _ (by decide))
  have hclamp (x : Int) : t.softClamp p x = s.softClamp p x :=
    congrArg₂ (clampInt · · x) (hs.rdI (PFB.SL_LO 0) (hl _ (by decide))) (hs.rdI (PFB.SL_HI 0) (hl _ (by decide)))
  refine ⟨h.raw, h.fails, h.busy, fun hnone => (h.first (hprev.trans hnone)).before hs
    (List.all_eq_true.mpr fun G hG => hl G ((by decide : [wholeReg (PFB.SL_LO 0), wholeReg (PFB.SL_HI 0)] ⊆ _) hG)), fun q hq => ?_⟩
  have hmoved := h.later q (hprev.trans hq)
  rwa [hpos, hinv, hclamp] at hmoved

theorem State.serEnd_reading {r : SerFrame} {last : Nat} (hmode : s.f (PFB.CFG_MODE p) = 4)
    (hcrc : r.crc.toNat = bissCrc (s.f (PFB.SERCFG_BITS p)) (r.raw.toNat % 2 ^ s.f (PFB.SERCFG_BITS p)) r.nE r.nW)
    (hne : r.nE = true) : s.ReadingTaken (s.serEnd p r last) p (s.f (PFB.SERCFG_BITS p)) (r.raw.toNat % 2 ^ s.f (PFB.SERCFG_BITS p)) := by
  obtain ⟨x, y, hunit⟩ := s.transferEnded_pfbU p last
  have hprev : (((s.bissEnded p last).raiseIf (!r.nW) (PFB.SERSTAT_NW p)).pfbU p).rPrev = (s.pfbU p).rPrev := by
    rw [State.raiseIf_pfbU, State.bissEnded, State.setF_pfbU, hunit]
  have hwarn : (s.bissEnded p last).UnitBut p [PFB.SERSTAT_NW 0] ((s.bissEnded p last).raiseIf (!r.nW) (PFB.SERSTAT_NW p)) :=
    .raiseIf (.refl _) (PFB.SERSTAT_NW 0) _
  have hbusy := (hwarn.on (PFB.SERSTAT_BUSY 0)).trans (s.bissEnded_busy p last)
  rw [State.serEnd_biss hmode, if_neg (not_not.mpr hcrc), if_neg (by simp [hne])]
  generalize (s.bissEnded p last).raiseIf (!r.nW) (PFB.SERSTAT_NW p) = a at hwarn hbusy hprev ⊢
  have hbefore : s.UnitBut p (PFB.SERSTAT_NW 0 :: endFields) a := .trans (.trans (.refl s) (s.bissEnded_unitBut p last)) hwarn
  have hbits : a.f (PFB.SERCFG_BITS p) = s.f (PFB.SERCFG_BITS p) := hbefore.f (PFB.SERCFG_BITS 0)
  exact (hbits ▸ a.serReading_taken p _ hbusy).before hbefore hprev

/-! ## The commands -/

/-- The last bit of the transfer in progress is sampled (R120). -/
def State.lastBitIn (s : State) (p : Nat) : Prop :=
  let ck := s.f (PFB.SERCFG_CKDIV p)
  if s.f (PFB.CFG_MODE p) = 3 then
    (s.pfbU p).xferAt + 1 + (ck - ck / 2) + s.f (PFB.SERCFG_BITS p) * ck + s.f (PFB.SERTM_SDLY p) ≤ s.now
  else ∃ a, (s.pfbU p).startAt = some a ∧ a + (s.f (PFB.SERCFG_BITS p) + 9) * ck ≤ s.now

theorem State.lastBitIn_iff : s.lastBitIn p ↔ ∃ last, s.serLast p = some last ∧ last ≤ s.now := by
  unfold State.lastBitIn State.serLast
  split
  case isTrue => simp [State.fckRise, State.fckLow]
  case isFalse => simp

theorem exec_serialTransferEnd_idle (p : Fin 96) (r : SerFrame) (h : ¬(s.on (PFB.SERSTAT_BUSY p.val) = true ∧ s.lastBitIn p.val)) :
    exec (.serialTransferEnd p r) s = .next s := by
  show execSerialTransferEnd p r s = .next s
  unfold execSerialTransferEnd
  split
  case h_1 last hlast =>
    refine if_neg fun hguard => h ?_
    obtain ⟨hbusy, hle⟩ := Bool.and_eq_true_iff.mp hguard
    exact ⟨hbusy, State.lastBitIn_iff.mpr ⟨last, hlast, of_decide_eq_true hle⟩⟩
  case h_2 => rfl

theorem exec_serialTransferEnd_ended (p : Fin 96) (r : SerFrame) (hbusy : s.on (PFB.SERSTAT_BUSY p.val) = true)
    (hlast : s.lastBitIn p.val) : ∃ last, exec (.serialTransferEnd p r) s = .next (s.serEnd p.val r last) := by
  obtain ⟨last, hlast, hle⟩ := State.lastBitIn_iff.mp hlast
  refine ⟨last, ?_⟩
  show execSerialTransferEnd p r s = _
  unfold execSerialTransferEnd
  rw [hlast]
  exact if_pos (Bool.and_eq_true_iff.mpr ⟨hbusy, decide_eq_true hle⟩)

/-- A BiSS transfer without a start bit fails (R120). -/
theorem exec_serialAckTimeout_failed (p : Fin 96) (hbusy : s.on (PFB.SERSTAT_BUSY p.val) = true) (hmode : s.f (PFB.CFG_MODE p.val) = 4)
    (hstart : (s.pfbU p.val).startAt = none) :
    ∃ t, exec (.serialAckTimeout p) s = .next t ∧ s.TransferFailed t p.val (PFB.SERSTAT_ACK_TO 0) := by
  generalize hx : { s.pfbU p.val with lastBit := some s.now, before := s.pfbSet p.val } = x
  generalize ha : ((s.setF (PFB.SERSTAT_BUSY p.val) 0).setPfb p.val x).cancel (.serialAckTimeout p) = a
  have hexec : exec (.serialAckTimeout p) s = .next ((a.raise (PFB.SERSTAT_ACK_TO p.val)).serFail p.val true) := by
    rw [← ha, ← hx]
    exact if_pos (by simp [hbusy, hmode, hstart])
  have hended : (s.setF (PFB.SERSTAT_BUSY p.val) 0).UnitBut p.val [] a := ha ▸ .cancel (.setPfb (.refl _) _ x) _
  have hbefore : s.UnitBut p.val endFields a := .trans (.setF (.refl s) (PFB.SERSTAT_BUSY 0) 0) hended
  exact ⟨_, hexec, State.serFail_failed (G := PFB.SERSTAT_ACK_TO 0) hbefore
    ((hended.on (PFB.SERSTAT_BUSY 0)).trans (s.setF_zero_on _ rfl)) (by decide)⟩

theorem exec_serialAckTimeout_idle (p : Fin 96) (h : s.on (PFB.SERSTAT_BUSY p.val) = false ∨ s.f (PFB.CFG_MODE p.val) ≠ 4
    ∨ (s.pfbU p.val).startAt ≠ none) : exec (.serialAckTimeout p) s = .next s := by
  refine if_neg fun hguard => ?_
  simp only [Bool.and_eq_true, decide_eq_true_eq, Option.isNone_iff_eq_none] at hguard
  obtain ⟨⟨hbusy, hmode⟩, hstart⟩ := hguard
  rcases h with h | h | h
  · rw [hbusy] at h
    exact Bool.noConfusion h
  · exact h hmode
  · exact h hstart

/-! ## The statement -/

/-- Settles O36: each command is one of the operations above on the state that the bus has answered. -/
theorem feedbackCommands : Obligations.FeedbackCommands := by
  intro s m p ser v r lo hi clamp pos ovr placed mayPlace keeps failed turned mode bits raw ck lastIn cfg bad
  have hfailed (G : Field) {t : State} (h : s.TransferFailed t p.val G) : failed t ∧ t.on (G.inUnit p.val) = true :=
    ⟨⟨⟨h.pos, h.ovr, h.edgeNs⟩, h.speedValid, h.busy, h.errors⟩, h.flag⟩
  refine ⟨?position, ?config, fun h => ⟨_, rfl, State.busRead_snapshot h (pfbPos_plain p) (pfbPos_takes p)⟩,
    fun h => ⟨_, rfl, State.busRead_snapshot h (pfbLat0_plain p) (pfbLat0_takes p)⟩, ?standstill, ?transfer, ?timeout⟩
  case position =>
    intro h
    exact ⟨⟨_, congrArg ok (h.busW_eq _), fun hno => (State.posCmds_refused hno .done).1, fun hmay => State.pfbLoadCmd_effect hmay .done⟩,
      ⟨_, congrArg ok (h.busW_eq _), fun hno => (State.posCmds_refused hno .done).2, fun hmay => State.pfbAbsorbCmd_effect hmay .done⟩,
      ⟨_, congrArg ok (h.busW_eq _), State.raise_on _ _ rfl, s.wrote_answer_raise (PFB.CTRL_HOME p.val) .done⟩⟩
  case config =>
    intro h
    refine ⟨_, congrArg ok (h.busW_eq _), fun hbad => ?_, fun hgood hmode => ?_, fun hgood hoff => ?_⟩
    · have hraise : (s.answer .done).pfbCfgStore p.val ser v = (s.answer .done).raise (PFB.STAT_ERR_ARG p.val) := if_pos hbad
      rw [hraise]
      exact ⟨State.raise_on _ _ rfl, s.wrote_answer_raise (PFB.STAT_ERR_ARG p.val) .done⟩
    · have haway : (s.answer .done).pfbCfgStore p.val ser v = (s.answer .done).sysIllegal :=
        (if_neg (Bool.eq_false_iff.mp hgood)).trans (if_pos (decide_eq_true hmode))
      rw [haway]
      exact rfl
    · obtain ⟨hrestart, hstored⟩ := State.pfbCfgStore_restarted (s := s.answer .done) hgood hoff
      exact ⟨hrestart.pos, hrestart.ovr, hrestart.speed, hrestart.homed, hrestart.still, hrestart.dir, hstored⟩
  case standstill =>
    by_cases hmode : mode = 0
    · exact ⟨s, if_pos hmode, fun _ => rfl, fun h => absurd hmode h⟩
    · have hbut := s.standstill_unitBut p.val
      exact ⟨_, if_neg hmode, fun h => absurd h hmode,
        fun _ => ⟨⟨hbut.rd (PFB.POS 0), hbut.rd (PFB.OVR 0), hbut.rd (PFB.EDGENS 0)⟩, s.standstill_effect p.val⟩⟩
  case transfer =>
    by_cases hin : s.on (PFB.SERSTAT_BUSY p.val) = true ∧ s.lastBitIn p.val
    · obtain ⟨hbusy, hlast⟩ := hin
      obtain ⟨last, hexec⟩ := exec_serialTransferEnd_ended p r hbusy hlast
      refine ⟨_, hexec, fun h => ?_, fun _ _ hmode hline => hfailed (PFB.SERSTAT_LINE_ERR 0) (State.serEnd_line hmode hline),
        fun _ _ hmode hcrc => hfailed (PFB.SERSTAT_CRC_ERR 0) (State.serEnd_crc hmode hcrc),
        fun _ _ hmode hcrc hne => hfailed (PFB.SERSTAT_NE 0) (State.serEnd_error hmode hcrc hne), fun _ _ hmode hcrc hne => ?_⟩
      · rcases h with h | h
        · rw [hbusy] at h
          exact Bool.noConfusion h
        · exact absurd hlast h
      · obtain ⟨hraw, hfails, hbusy, hfirst, hlater⟩ := State.serEnd_reading (last := last) hmode hcrc hne
        exact ⟨hraw, hfails, hbusy, hfirst, hlater⟩
    · have hno {P : Prop} (hbusy : s.on (PFB.SERSTAT_BUSY p.val) = true) (hlast : lastIn) : P := absurd ⟨hbusy, hlast⟩ hin
      exact ⟨s, exec_serialTransferEnd_idle p r hin, fun _ => rfl, fun hbusy hlast => hno hbusy hlast,
        fun hbusy hlast => hno hbusy hlast, fun hbusy hlast => hno hbusy hlast, fun hbusy hlast => hno hbusy hlast⟩
  case timeout =>
    by_cases hin : s.on (PFB.SERSTAT_BUSY p.val) = true ∧ mode = 4 ∧ (s.pfbU p.val).startAt = none
    · obtain ⟨hbusy, hmode, hstart⟩ := hin
      obtain ⟨t, ht, hfail⟩ := exec_serialAckTimeout_failed p hbusy hmode hstart
      refine ⟨t, ht, fun h => ?_, fun _ _ _ => hfailed (PFB.SERSTAT_ACK_TO 0) hfail⟩
      exact next_unique ht (exec_serialAckTimeout_idle p h)
    · refine ⟨s, exec_serialAckTimeout_idle p ?_, fun _ => rfl, fun hbusy hmode hstart => absurd ⟨hbusy, hmode, hstart⟩ hin⟩
      rwa [not_and_or, not_and_or, Bool.not_eq_true] at hin

end Sys2Proof.Machine
end

section
/-! SUPPORT. Which registers and which fields a sequence of updates changes at most, where some of the registers lie in
another unit than the fields; and the state that the Loop Engine keeps of a slot. -/

namespace Sys2Proof.Machine

/-- A write of a register beside it leaves a field. -/
theorem Field.spares_apart {F G : Field} (hF : F.ok = true) (h : G.off ≠ F.off) : F.spares G = true := by
  simp [Field.spares, hF, h]

/-- `t` is `s` but for the registers at `r` and the fields of `l`. -/
def State.But (r : List Nat) (l : List Field) (s t : State) : Prop :=
  ∀ G : Field, G.off ∉ r → (∀ F ∈ l, F.spares G = true) → t.f G = s.f G

namespace State.But
variable {r r' : List Nat} {l l' : List Field} {s t u : State}

theorem refl (s : State) : s.But r l s := fun _ _ _ => rfl

/-- What leaves the register file alone. -/
theorem same (h : s.But r l t) (hregs : u.regs = t.regs) : s.But r l u :=
  fun G hr hl => (State.f_of_rd G (congrArg (fun x : FMap Word => x.get regReset _) hregs)).trans (h G hr hl)

theorem setF (h : s.But r l t) (F : Field) (v : Nat) (hF : F ∈ l := by simp) : s.But r l (t.setF F v) :=
  fun G hr hl => (t.setF_f_spared (hl F hF) 0 v).trans (h G hr hl)

theorem raise (h : s.But r l t) (F : Field) (hF : F ∈ l := by simp) : s.But r l (t.raise F) := h.setF F 1 hF

theorem wr (h : s.But r l t) (o : Nat) (v : Word) (ho : o ∈ r := by simp) : s.But r l (t.wr o v) :=
  fun G hr hl => (t.f_wr_ne o v G fun e => hr (e ▸ ho)).trans (h G hr hl)

/-- Any field of a register that may change. -/
theorem reg (h : s.But r l t) (F : Field) (v : Nat) (ho : F.off ∈ r := by simp) : s.But r l (t.setF F v) := h.wr F.off _ ho

theorem setSlot (h : s.But r l t) (k : Nat) (x : LpeSlot) : s.But r l (t.setSlot k x) := h.same rfl

theorem recordStat (h : s.But r l t) (cls code unit sev stat : Nat) : s.But r l (t.recordStat cls code unit sev stat) := h.same rfl

theorem record (h : s.But r l t) (cls code unit sev : Nat) (p : BitVec 128) : s.But r l (t.record cls code unit sev p) := h.same rfl

theorem ite {c : Prop} [Decidable c] {a b : State} (ha : s.But r l a) (hb : s.But r l b) : s.But r l (if c then a else b) := by
  split
  · exact ha
  · exact hb

theorem raiseIf (h : s.But r l t) (F : Field) (b : Bool) (hF : F ∈ l := by simp) : s.But r l (t.raiseIf b F) :=
  .ite (h.raise F hF) h

theorem mono (h : s.But r l t) (hr : r ⊆ r') (hl : l ⊆ l') : s.But r' l' t :=
  fun G hGr hGl => h G (fun e => hGr (hr e)) fun F hF => hGl F (hl hF)

/-- What follows changes no further field. -/
theorem trans (h : s.But r l t) (h' : t.But r' l' u) (hr : r' ⊆ r := by simp) (hl : l' ⊆ l := by simp) : s.But r l u :=
  fun G hGr hGl => ((h'.mono hr hl) G hGr hGl).trans (h G hGr hGl)

/-- One step after the other over a list. -/
theorem foldl {α : Type} {op : State → α → State} {xs : List α} (h : s.But r l t)
    (hop : ∀ (u : State) (x : α), u.But r l (op u x)) : s.But r l (xs.foldl op t) :=
  List.foldlRecOn (motive := fun u : State => s.But r l u) xs op h fun u hu x _ => hu.trans (hop u x)
    (List.Subset.refl r) (List.Subset.refl l)

theorem f (h : s.But r l t) (G : Field) (hr : G.off ∉ r) (hl : ∀ F ∈ l, F.spares G = true) : t.f G = s.f G := h G hr hl

theorem on (h : s.But r l t) (G : Field) (hr : G.off ∉ r) (hl : ∀ F ∈ l, F.spares G = true) : t.on G = s.on G :=
  congrArg (fun n : Nat => decide (n ≠ 0)) (h G hr hl)

/-- The registers beside those. -/
theorem keeps {P : Nat → Prop} (h : s.But r l t) (hr : ∀ o ∈ r, ¬P o) (hl : ∀ F ∈ l, F.ok = true ∧ ¬P F.off) :
    s.Keeps P t :=
  fun o ho => State.rd_of_f (h (wholeReg o) (fun hmem => hr o hmem ho) fun F hF =>
    Field.spares_apart (hl F hF).1 fun e => (hl F hF).2 (Eq.subst (motive := P) e ho))

end State.But

/-! ## Trips -/

/-- What a trip of port `p` writes. -/
def tripRegs (p : Nat) : List Nat := [DPW.STAT p, TRF.LATCH p, TRF.FIRST p, TRF.FTIME p, TRF.CNT p]

theorem State.But.swLatch {r : List Nat} {l : List Field} {s t : State} {p : Nat} (h : s.But r l t) (hr : tripRegs p ⊆ r) :
    s.But r l (t.swLatch p) := by
  intro G hGr hGl
  have hout {o : Nat} (ho : o ∈ tripRegs p) : o ≠ G.off := fun e => hGr (hr (e ▸ ho))
  have hbeside : tripBeside (· = G.off) p :=
    ⟨hout (by simp [tripRegs]), hout (by simp [tripRegs]), hout (by simp [tripRegs]), hout (by simp [tripRegs])⟩
  have hrd : (t.swLatch p).rd G.off = t.rd G.off :=
    (t.latchSet_keeps hbeside (by decide) 32 G.off rfl).trans
      (t.rd_wr_ne _ _ _ (Ne.symm (hout (by simp [tripRegs]))))
  exact (State.f_of_rd G hrd).trans (h G hGr hGl)

/-! ## The state of a slot -/

@[simp] theorem State.setSlot_slotU (s : State) (k : Nat) (u : LpeSlot) : (s.setSlot k u).slotU k = u := FMap.get_set_same _ _ _ _

theorem State.setSlot_slotU_ne (s : State) {j k : Nat} (h : j ≠ k) (u : LpeSlot) : (s.setSlot k u).slotU j = s.slotU j :=
  FMap.get_set_ne _ _ _ _ _ h

@[simp] theorem State.setSlot_f (s : State) (k : Nat) (u : LpeSlot) (G : Field) : (s.setSlot k u).f G = s.f G := rfl
@[simp] theorem State.setSlot_on (s : State) (k : Nat) (u : LpeSlot) (G : Field) : (s.setSlot k u).on G = s.on G := rfl

@[simp] theorem State.setSlot_ecc (s : State) (k : Nat) (u : LpeSlot) : (s.setSlot k u).ecc = s.ecc := rfl
@[simp] theorem State.setSlot_lpe (s : State) (k : Nat) (u : LpeSlot) : (s.setSlot k u).lpe = s.lpe := rfl

@[simp] theorem State.raise_slotU (s : State) (F : Field) (k : Nat) : (s.raise F).slotU k = s.slotU k := rfl
@[simp] theorem State.raiseIf_slotU (s : State) (b : Bool) (F : Field) (k : Nat) : (s.raiseIf b F).slotU k = s.slotU k := by
  cases b <;> rfl
@[simp] theorem State.recordStat_slotU (s : State) (cls code unit sev stat k : Nat) :
    (s.recordStat cls code unit sev stat).slotU k = s.slotU k := rfl

end Sys2Proof.Machine
end

section
/-! PROOF of the statement LoopEngine: the start of a slot (R125, R126, R138, R139, R142, R143, R145). A pending swap and
RESET_INT come first; then the slot is idle, or shows its mismatch, or reads its stored errors, takes the first hold
cause and schedules the rest of its frame. -/

namespace Sys2Proof.Machine

variable {s t : State} {k : Nat}

/-! ## The tick of a start: swap, RESET_INT (R138, R139) -/

theorem State.doSwap_eq_self (h : s.on (LPE.CTRL_SWAP k) = false) : s.doSwap k = s := if_pos (by simp [h])

/-- A requested swap writes ACT_BANK and takes the request back. -/
theorem State.doSwap_requested (h : s.on (LPE.CTRL_SWAP k) = true) : ∃ sat x, s.doSwap k
    = (((s.raiseIf sat (LPE.STAT_SAT_AT_SWAP k)).setF (LPE.STAT_ACT_BANK k) (1 - s.actBank k)).setF (LPE.CTRL_SWAP k) 0).setSlot k x :=
  ⟨_, _, if_neg (by simp [h])⟩

theorem State.doSwap_effect (s : State) (k : Nat) :
    (s.doSwap k).f (LPE.STAT_ACT_BANK k) = (if s.on (LPE.CTRL_SWAP k) then 1 - s.actBank k else s.actBank k)
      ∧ (s.doSwap k).on (LPE.CTRL_SWAP k) = false
      ∧ s.But [] [LPE.STAT_SAT_AT_SWAP k, LPE.STAT_ACT_BANK k, LPE.CTRL_SWAP k] (s.doSwap k) := by
  cases hswap : s.on (LPE.CTRL_SWAP k)
  · rw [State.doSwap_eq_self hswap]
    exact ⟨rfl, hswap, .refl s⟩
  · obtain ⟨sat, x, heq⟩ := State.doSwap_requested hswap
    have hctrl : (LPE.STAT_ACT_BANK k).off ≠ (LPE.CTRL_SWAP k).off := by simp [LPE.STAT_ACT_BANK, LPE.CTRL_SWAP, LPE.STAT, LPE.CTRL]
    have hbank : (1 - s.actBank k) % 2 ^ 1 = 1 - s.actBank k := Nat.mod_eq_of_lt (by omega)
    rw [heq, State.setSlot_f, State.setSlot_on, State.setF_f_apart _ _ _ _ hctrl, State.setF_f _ _ _ rfl]
    exact ⟨hbank, State.setF_zero_on _ _ rfl, ((((State.But.refl s).raiseIf _ _).setF _ _).setF _ _).setSlot _ _⟩

theorem State.doResetInt_eq_self (h : s.on (LPE.CTRL_RESET_INT k) = false) : s.doResetInt k = s := if_pos (by simp [h])

theorem State.doResetInt_requested (h : s.on (LPE.CTRL_RESET_INT k) = true) :
    ∃ x, s.doResetInt k = (s.setF (LPE.CTRL_RESET_INT k) 0).setSlot k x :=
  ⟨_, if_neg (by simp [h])⟩

theorem State.doResetInt_effect (s : State) (k : Nat) :
    (s.doResetInt k).on (LPE.CTRL_RESET_INT k) = false ∧ s.But [] [LPE.CTRL_RESET_INT k] (s.doResetInt k) := by
  cases hreset : s.on (LPE.CTRL_RESET_INT k)
  · rw [State.doResetInt_eq_self hreset]
    exact ⟨hreset, .refl s⟩
  · obtain ⟨x, heq⟩ := State.doResetInt_requested hreset
    rw [heq, State.setSlot_on]
    exact ⟨State.setF_zero_on _ _ rfl, ((State.But.refl s).setF _ _).setSlot _ _⟩

/-- The state in which slot `k` decides whether it runs. -/
def State.slotEntered (s : State) (k : Nat) : State :=
  let t := (s.doSwap k).doResetInt k
  t.setSlot k { t.slotU k with issued := true, ended := false }

theorem State.slotEntered_but (s : State) (k : Nat) :
    s.But [] [LPE.STAT_SAT_AT_SWAP k, LPE.STAT_ACT_BANK k, LPE.CTRL_SWAP k, LPE.CTRL_RESET_INT k] (s.slotEntered k) :=
  (((s.doSwap_effect k).2.2.mono (List.Subset.refl _) (by simp)).trans ((s.doSwap k).doResetInt_effect k).2).setSlot _ _

theorem State.slotEntered_requests (s : State) (k : Nat) :
    (s.slotEntered k).f (LPE.STAT_ACT_BANK k) = (if s.on (LPE.CTRL_SWAP k) then 1 - s.actBank k else s.actBank k)
      ∧ (s.slotEntered k).on (LPE.CTRL_SWAP k) = false ∧ (s.slotEntered k).on (LPE.CTRL_RESET_INT k) = false := by
  obtain ⟨hbank, hswap, -⟩ := s.doSwap_effect k
  obtain ⟨hreset, hbut⟩ := (s.doSwap k).doResetInt_effect k
  refine ⟨(hbut.f (LPE.STAT_ACT_BANK k) (by simp) ?bank).trans hbank,
    (hbut.on (LPE.CTRL_SWAP k) (by simp) ?swap).trans hswap, hreset⟩
  case bank =>
    simp [Field.spares, Field.ok, LPE.CTRL_RESET_INT, LPE.STAT_ACT_BANK, LPE.CTRL, LPE.STAT]
  case swap =>
    simp [Field.spares, Field.ok, Field.beside, LPE.CTRL_RESET_INT, LPE.CTRL_SWAP]

theorem State.slotEntered_eq (hswap : s.on (LPE.CTRL_SWAP k) = false) (hreset : s.on (LPE.CTRL_RESET_INT k) = false) :
    s.slotEntered k = s.setSlot k { s.slotU k with issued := true, ended := false } := by
  unfold State.slotEntered
  rw [State.doSwap_eq_self hswap, State.doResetInt_eq_self hreset]

/-! ## What a start reads -/

/-- A register that the start of slot `k` reads and does not write before it holds. -/
def slotReads (k o : Nat) : Prop := o < 0x00C00000 ∨ 0x00D00000 ≤ o ∨ o = LPE.CFG k ∨ o = LPE.HOOK k

theorem slotReads_stat (hk : k < 96) : ¬slotReads k (LPE.STAT k) := by
  simp only [slotReads, LPE.STAT, LPE.CFG, LPE.HOOK]
  omega

theorem slotReads_ctrl (hk : k < 96) : ¬slotReads k (LPE.CTRL k) := by
  simp only [slotReads, LPE.CTRL, LPE.CFG, LPE.HOOK]
  omega

theorem slotReads_cnt (hk : k < 96) : ¬slotReads k (LPE.CNT k) := by
  simp only [slotReads, LPE.CNT, LPE.CFG, LPE.HOOK]
  omega

theorem slotReads_gstat (hk : k < 96) : ¬slotReads k LPEG.GSTAT := by
  simp only [slotReads, LPEG.GSTAT, LPE.CFG, LPE.HOOK]
  omega

theorem slotReads_cfg : slotReads k (LPE.CFG k) := Or.inr (Or.inr (Or.inl rfl))

theorem slotReads_hook : slotReads k (LPE.HOOK k) := Or.inr (Or.inr (Or.inr rfl))

theorem slotReads_modState : slotReads k PWS.MODSTATE := Or.inr (Or.inl (by decide))

theorem slotReads_dpw (hk : k < 96) : slotReads k (DPW.CFG k) ∧ slotReads k (DPW.STAT k) := by
  simp only [slotReads, DPW.CFG, DPW.STAT]
  omega

theorem slotReads_latch (hk : k < 96) : slotReads k (TRF.LATCH k) := by
  simp only [slotReads, TRF.LATCH]
  omega

theorem slotReads_caq (hk : k < 96) : slotReads k (CAQ.CFG k) ∧ slotReads k (CAQ.LAT3 k) := by
  simp only [slotReads, CAQ.CFG, CAQ.LAT3]
  omega

theorem slotReads_pfb (hk : k < 96) : slotReads k (PFB.LAT1 k) := by
  simp only [slotReads, PFB.LAT1]
  omega

theorem State.Keeps.foc3 (h : s.Keeps (slotReads k) t) (hk : k < 96) : t.foc3 k = s.foc3 k := by
  rw [State.foc3, h.f (DPW.CFG_MODE k) (slotReads_dpw hk).1, State.foc3]

theorem State.Keeps.slotRuns (h : s.Keeps (slotReads k) t) (hk : k < 96) : t.slotRuns k = s.slotRuns k := by
  have hdpw := (slotReads_dpw hk).1
  have hmode := h.f (DPW.CFG_MODE k) hdpw
  have hstate : t.mstate = s.mstate := h.f PWS.MODSTATE_STATE slotReads_modState
  unfold State.slotRuns State.isIn
  rw [hstate, hmode, h.on (LPE.CFG_EN k) slotReads_cfg, h.on (DPW.CFG_SYNC k) hdpw, h.f (DPW.CFG_OWNER k) hdpw]

theorem State.slotEntered_keeps (s : State) (hk : k < 96) : s.Keeps (slotReads k) (s.slotEntered k) := by
  refine (s.slotEntered_but k).keeps (by simp) fun F hF => ?_
  have hstat := slotReads_stat hk
  have hctrl := slotReads_ctrl hk
  simp only [List.mem_cons, List.not_mem_nil, or_false] at hF
  rcases hF with rfl | rfl | rfl | rfl
  · exact ⟨rfl, hstat⟩
  · exact ⟨rfl, hstat⟩
  · exact ⟨rfl, hctrl⟩
  · exact ⟨rfl, hctrl⟩

/-! ## A slot that runs -/

/-- The state of a slot that runs, before it looks at its topology: where it starts running all that it keeps is 0. -/
def State.slotBegun (s : State) (k : Nat) : State :=
  State.raise (if !((s.slotEntered k).slotU k).running then (s.slotEntered k).slotFresh k else s.slotEntered k) (LPE.STAT_RUNNING k)

theorem State.slotBegun_regs (s : State) (k : Nat) : (s.slotBegun k).regs = ((s.slotEntered k).raise (LPE.STAT_RUNNING k)).regs := by
  unfold State.slotBegun
  split <;> rfl

theorem State.slotBegun_but (s : State) (k : Nat) : (s.slotEntered k).But [] [LPE.STAT_RUNNING k] (s.slotBegun k) :=
  ((State.But.refl (s.slotEntered k)).raise _).same (s.slotBegun_regs k)

theorem State.slotBegun_running (s : State) (k : Nat) : (s.slotBegun k).on (LPE.STAT_RUNNING k) = true :=
  (State.on_of_rd _ (congrArg (fun x : FMap Word => x.get regReset _) (s.slotBegun_regs k))).trans (State.raise_on _ _ rfl)

theorem State.slotBegun_keeps (s : State) (hk : k < 96) : s.Keeps (slotReads k) (s.slotBegun k) :=
  (s.slotEntered_keeps hk).trans ((s.slotBegun_but k).keeps (by simp) fun F hF => by
    rw [List.mem_singleton.mp hF]
    exact ⟨rfl, slotReads_stat hk⟩)

/-- Where nothing was requested the stored errors stand as before. -/
theorem State.slotBegun_errors (hswap : s.on (LPE.CTRL_SWAP k) = false) (hreset : s.on (LPE.CTRL_RESET_INT k) = false) :
    ((s.slotBegun k).slotU k).ecc = (s.slotU k).ecc ∧ ((s.slotBegun k).slotU k).badWords = (s.slotU k).badWords
      ∧ (s.slotBegun k).ecc = s.ecc ∧ (s.slotBegun k).lpe = s.lpe ∧ (s.slotBegun k).actBank k = s.actBank k := by
  have hbank : (s.slotBegun k).actBank k = s.actBank k := by
    have hentered : (s.slotEntered k).f (LPE.STAT_ACT_BANK k) = s.actBank k := by
      rw [(s.slotEntered_requests k).1, hswap]
      rfl
    refine Eq.trans ((s.slotBegun_but k).f (LPE.STAT_ACT_BANK k) (by simp) ?_) hentered
    simp [Field.spares, Field.ok, Field.beside, LPE.STAT_RUNNING, LPE.STAT_ACT_BANK]
  have hslot : ((s.slotBegun k).slotU k).ecc = (s.slotU k).ecc ∧ ((s.slotBegun k).slotU k).badWords = (s.slotU k).badWords := by
    unfold State.slotBegun State.slotFresh
    rw [State.slotEntered_eq hswap hreset, State.raise_slotU]
    split <;> simp
  have hrest : (s.slotBegun k).ecc = s.ecc ∧ (s.slotBegun k).lpe = s.lpe := by
    unfold State.slotBegun State.slotFresh
    rw [State.slotEntered_eq hswap hreset]
    split <;> simp
  exact ⟨hslot.1, hslot.2, hrest.1, hrest.2, hbank⟩

/-! ## Errors that ECC cannot correct (R143, R145) -/

/-- A stored error that the slot meets when it reads its active bank and its own state. -/
def State.slotMeets (s : State) (k : Nat) (e : Config.EccErr) : Prop :=
  e.double = true ∧ ((e.place = 1 ∧ e.addr / 64 = 2 * k + s.actBank k) ∨ (e.place = 2 ∧ e.addr = k))

/-- The slot's state or its active bank holds an error that ECC cannot correct. -/
def State.slotSpoilt (s : State) (k : Nat) : Prop :=
  (s.slotU k).ecc = true ∨ (∃ w ∈ (s.slotU k).badWords, w / 32 = s.actBank k) ∨ ∃ e ∈ s.ecc, s.slotMeets k e

theorem State.bankBad_iff : s.bankBad k = true ↔ ∃ w ∈ (s.slotU k).badWords, w / 32 = s.actBank k := by
  simp [State.bankBad]

/-- Where nothing was requested the errors are those from before the start. -/
theorem State.slotBegun_spoilt (hswap : s.on (LPE.CTRL_SWAP k) = false) (hreset : s.on (LPE.CTRL_RESET_INT k) = false) :
    (s.slotBegun k).slotSpoilt k ↔ s.slotSpoilt k := by
  obtain ⟨hecc, hwords, herrs, -, hbank⟩ := State.slotBegun_errors hswap hreset
  unfold State.slotSpoilt State.slotMeets
  rw [hecc, hwords, herrs, hbank]

/-- The corrected errors are counted in STAT and CNT. -/
def State.slotCounts (s : State) (k : Nat) (l : List Config.EccErr) : State :=
  l.foldl (fun t _ => (t.raise (LPE.STAT_ECC_CORR k)).bump (LPE.CNT_ECC_CNT k)) s

theorem State.slotCounts_eq (s : State) (k : Nat) (l : List Config.EccErr) :
    s.slotCounts k l = { s with regs := (s.slotCounts k l).regs } := by
  refine List.foldlRecOn (motive := fun t : State => t = { s with regs := t.regs }) _ _ rfl fun t ht e _ => ?_
  rw [ht]
  rfl

theorem State.slotCounts_but (s : State) (k : Nat) (l : List Config.EccErr) :
    s.But [LPE.CNT k] [LPE.STAT_ECC_CORR k] (s.slotCounts k l) :=
  (State.But.refl s).foldl fun u _ => ((State.But.refl u).raise _).reg (LPE.CNT_ECC_CNT k) _ (by simp [LPE.CNT_ECC_CNT])

theorem State.slotCounts_slotU (s : State) (k : Nat) (l : List Config.EccErr) (j : Nat) : (s.slotCounts k l).slotU j = s.slotU j := by
  rw [State.slotCounts_eq]
  rfl

/-- The words of the bank that a slot found spoilt, noted in its state. -/
def State.slotNotes (s : State) (k : Nat) (words : List Nat) : State :=
  s.setSlot k { s.slotU k with badWords := (s.slotU k).badWords ++ words }

/-- The slot's state counts as spoilt from now on. -/
def State.slotMarked (s : State) (k : Nat) : State :=
  ((s.setSlot k { s.slotU k with ecc := true }).raise LPEG.GSTAT_ECC_UNC).recordStat 0x04 0x04 k 4 (LPE.STAT k)

theorem State.slotNotes_lpe (s : State) (k : Nat) (words : List Nat) : (s.slotNotes k words).lpe = s.lpe := rfl

theorem State.slotNotes_but (s : State) (k : Nat) (words : List Nat) : s.But [] [] (s.slotNotes k words) :=
  (State.But.refl s).setSlot _ _

theorem State.slotMarked_lpe (s : State) (k : Nat) : (s.slotMarked k).lpe = s.lpe := by
  unfold State.slotMarked
  rw [State.recordStat_lpe, State.raise_lpe, State.setSlot_lpe]

theorem State.slotMarked_but (s : State) (k : Nat) : s.But [LPEG.GSTAT] [] (s.slotMarked k) :=
  (((State.But.refl s).setSlot _ _).reg LPEG.GSTAT_ECC_UNC 1 (by simp [LPEG.GSTAT_ECC_UNC])).recordStat _ _ _ _ _

/-- A slot counts the errors that are corrected, notes the words it finds spoilt, and marks its state unless it met no
such error and its mark stands or its bank is good. -/
theorem State.slotEcc_eq (s : State) (k : Nat) : ∃ (bad corrected rest : List Config.EccErr) (words : List Nat),
    (bad.isEmpty = true ↔ ¬∃ e ∈ s.ecc, s.slotMeets k e) ∧ (bad.isEmpty = true → words = [])
      ∧ s.slotEcc k = if bad.isEmpty && (((State.slotCounts { s with ecc := rest } k corrected).slotU k).ecc
            || !((State.slotCounts { s with ecc := rest } k corrected).slotNotes k words).bankBad k)
          then (State.slotCounts { s with ecc := rest } k corrected).slotNotes k words
          else ((State.slotCounts { s with ecc := rest } k corrected).slotNotes k words).slotMarked k := by
  refine ⟨_, _, _, _, ?met, ?words, rfl⟩
  case met =>
    simp only [List.isEmpty_iff, List.filter_eq_nil_iff, List.mem_filter, State.slotMeets]
    simp only [Bool.not_eq_true, decide_eq_true_eq, Bool.and_eq_true, Bool.or_eq_true, not_exists, not_and, and_imp]
    refine forall_congr' fun e => forall_congr' fun _ => ?_
    cases e.double
    · simp
    · simp
  case words =>
    intro h
    rw [List.isEmpty_iff.mp h]
    rfl

/-- Whether a slot is spoilt once it has read: it was, or it met an error that marks it. -/
theorem State.slotEcc_effect (s : State) (k : Nat) :
    (s.slotEcc k).lpe = s.lpe ∧ s.But [LPE.CNT k, LPEG.GSTAT] [LPE.STAT_ECC_CORR k] (s.slotEcc k)
      ∧ (((s.slotEcc k).slotU k).ecc = true ∨ (s.slotEcc k).bankBad k = true ↔ s.slotSpoilt k) := by
  obtain ⟨bad, corrected, rest, words, hmet, hwords, heq⟩ := s.slotEcc_eq k
  have hcounted : s.But [LPE.CNT k, LPEG.GSTAT] [LPE.STAT_ECC_CORR k] (State.slotCounts { s with ecc := rest } k corrected) :=
    ((State.But.refl s).same rfl).trans (State.slotCounts_but { s with ecc := rest } k corrected)
  have hlpe : (State.slotCounts { s with ecc := rest } k corrected).lpe = s.lpe := by rw [State.slotCounts_eq]
  have hslot : (State.slotCounts { s with ecc := rest } k corrected).slotU k = s.slotU k := State.slotCounts_slotU _ _ _ _
  generalize State.slotCounts { s with ecc := rest } k corrected = c at heq hcounted hlpe hslot
  have hbank : c.actBank k = s.actBank k := hcounted.f (LPE.STAT_ACT_BANK k)
    (by simp [LPE.STAT_ACT_BANK, LPE.STAT, LPE.CNT, LPEG.GSTAT]; omega)
    (by simp [Field.spares, Field.ok, Field.beside, LPE.STAT_ACT_BANK, LPE.STAT_ECC_CORR])
  have hnoted : (c.slotNotes k words).bankBad k = true ↔ ∃ w ∈ (s.slotU k).badWords ++ words, w / 32 = s.actBank k := by
    rw [State.bankBad_iff, State.slotNotes, State.setSlot_slotU, hslot, ← hbank]
    exact Iff.rfl
  rw [heq]
  split
  case isTrue h =>
    rw [Bool.and_eq_true, hslot] at h
    obtain ⟨hnone, hclean⟩ := h
    rw [hwords hnone, List.append_nil] at hnoted
    refine ⟨(State.slotNotes_lpe _ _ _).trans hlpe, hcounted.trans (c.slotNotes_but k words), ?_⟩
    rw [hwords hnone, hnoted, State.slotNotes, State.setSlot_slotU, hslot, State.slotSpoilt, or_iff_left (hmet.mp hnone)]
  case isFalse h =>
    have hmarked : (((c.slotNotes k words).slotMarked k).slotU k).ecc = true := by
      rw [State.slotMarked, State.recordStat_slotU, State.raise_slotU, State.setSlot_slotU]
    have hshown := (State.slotMarked_lpe (c.slotNotes k words) k).trans ((c.slotNotes_lpe k words).trans hlpe)
    have hbut := (hcounted.trans (c.slotNotes_but k words)).trans (State.slotMarked_but _ k)
    refine ⟨hshown, hbut, iff_of_true (Or.inl hmarked) ?_⟩
    by_cases hmeets : ∃ e ∈ s.ecc, s.slotMeets k e
    · exact Or.inr (Or.inr hmeets)
    · have hnone := hmet.mpr hmeets
      rw [hwords hnone, List.append_nil] at hnoted
      refine Or.inr (Or.inl (hnoted.mp ?_))
      rw [hwords hnone] at h
      by_contra hgood
      exact h (by simp [hnone, hgood])

end Sys2Proof.Machine
end

section
/-! PROOF of the statement LoopEngine: hold causes and the outcome of a slot start (R126, R141, R142). -/

namespace Sys2Proof.Machine

variable {s t : State} {k : Nat}

/-! ## Hold causes (R142) -/

/-- `c` is the first cause of R142 that stands, 0 where none does. -/
structure FirstCause (frame : Bool) (ecc pos current : Prop) (trip : Prop) [Decidable trip] (c : Nat) : Prop where
  ofFrame : frame = true → c = 5
  ofEcc : frame = false → ecc → c = 4
  ofPos : frame = false → ¬ecc → pos → c = 2
  ofCurrent : frame = false → ¬ecc → ¬pos → current → c = 3
  ofTrip : frame = false → ¬ecc → ¬pos → ¬current → c = if trip then 1 else 0

/-- Stage inputs that the position gives, and the position does not serve. -/
def State.slotBlind (s : State) (k : Nat) : Prop :=
  (s.f (LPE.CFG_CASC k) ≠ 0 ∨ (s.foc3 k = true ∧ s.on (LPE.HOOK_ANG k) = false))
    ∧ (s.on (PFB.LAT1_VALID k) = false ∨ s.on (PFB.LAT1_FAULT k) = true)

/-- A current that the topology takes is not valid. -/
def State.slotUnsensed (s : State) (k : Nat) : Prop :=
  s.on (CAQ.LAT3_VA k) = false ∨ s.on (CAQ.LAT3_VB k) = false ∨ (s.foc3 k = true ∧ s.on (CAQ.LAT3_VC k) = false)

theorem State.holdCause_first (s : State) (k : Nat) :
    FirstCause s.lpe.frameBad ((s.slotU k).ecc = true ∨ s.bankBad k = true) (s.slotBlind k) (s.slotUnsensed k)
      (s.on (DPW.STAT_FORCED k) = true ∨ s.latches k ≠ 0) (s.holdCause k) := by
  have hecc : ((s.slotU k).ecc || s.bankBad k) = true ↔ ((s.slotU k).ecc = true ∨ s.bankBad k = true) := Bool.or_eq_true_iff
  have hpos : ((decide (s.f (LPE.CFG_CASC k) ≠ 0) || (s.foc3 k && !s.on (LPE.HOOK_ANG k)))
      && (!s.on (PFB.LAT1_VALID k) || s.on (PFB.LAT1_FAULT k))) = true ↔ s.slotBlind k := by
    simp [State.slotBlind]
  have hcurrent : (!s.on (CAQ.LAT3_VA k) || !s.on (CAQ.LAT3_VB k) || (s.foc3 k && !s.on (CAQ.LAT3_VC k))) = true
      ↔ s.slotUnsensed k := by
    simp [State.slotUnsensed, or_assoc]
  have htrip : (s.on (DPW.STAT_FORCED k) || decide (s.latches k ≠ 0)) = true
      ↔ (s.on (DPW.STAT_FORCED k) = true ∨ s.latches k ≠ 0) := by
    simp
  unfold State.holdCause
  dsimp only
  constructor
  · intro h
    rw [if_pos h]
  · intro h h4
    rw [if_neg (by simp [h]), if_pos (hecc.mpr h4)]
  · intro h h4 h2
    rw [if_neg (by simp [h]), if_neg (mt hecc.mp h4), if_pos (hpos.mpr h2)]
  · intro h h4 h2 h3
    rw [if_neg (by simp [h]), if_neg (mt hecc.mp h4), if_neg (mt hpos.mp h2), if_pos (hcurrent.mpr h3)]
  · intro h h4 h2 h3
    rw [if_neg (by simp [h]), if_neg (mt hecc.mp h4), if_neg (mt hpos.mp h2), if_neg (mt hcurrent.mp h3)]
    simp only [htrip]

theorem State.holdCause_lt (s : State) (k : Nat) : s.holdCause k < 8 := by
  unfold State.holdCause
  dsimp only
  split_ifs <;> decide

/-- The causes that stand in other registers and in the stored errors are those of the state before. -/
theorem FirstCause.of_keeps {frame : Bool} {ecc ecc' : Prop} {c : Nat} (hecc : ecc ↔ ecc') (h : s.Keeps (slotReads k) t)
    (hk : k < 96)
    (hc : FirstCause frame ecc (t.slotBlind k) (t.slotUnsensed k) (t.on (DPW.STAT_FORCED k) = true ∨ t.latches k ≠ 0) c) :
    FirstCause frame ecc' (s.slotBlind k) (s.slotUnsensed k) (s.on (DPW.STAT_FORCED k) = true ∨ s.latches k ≠ 0) c := by
  have hpfb := slotReads_pfb hk
  have hcaq := (slotReads_caq hk).2
  have hblind : t.slotBlind k ↔ s.slotBlind k := by
    unfold State.slotBlind
    rw [h.f (LPE.CFG_CASC k) slotReads_cfg, h.foc3 hk, h.on (LPE.HOOK_ANG k) slotReads_hook, h.on (PFB.LAT1_VALID k) hpfb,
      h.on (PFB.LAT1_FAULT k) hpfb]
  have hunsensed : t.slotUnsensed k ↔ s.slotUnsensed k := by
    unfold State.slotUnsensed
    rw [h.foc3 hk, h.on (CAQ.LAT3_VA k) hcaq, h.on (CAQ.LAT3_VB k) hcaq, h.on (CAQ.LAT3_VC k) hcaq]
  simpa only [hecc, hblind, hunsensed, h.on (DPW.STAT_FORCED k) (slotReads_dpw hk).2,
    State.latches_of_rd (h (TRF.LATCH k) (slotReads_latch hk))] using hc

/-! ## Entering and leaving the hold -/

/-- A slot that is free of causes shows no hold. -/
theorem State.slotHold_free (s : State) (k : Nat) :
    (s.slotHold k 0).regs = (((s.setF (LPE.STAT_HOLD_SRC k) 0).flag (LPE.STAT_HELD k) false).setF (heldBit k) 0).regs := by
  unfold State.slotHold
  dsimp only
  rw [if_pos rfl]
  split <;> rfl

/-- A slot with a cause shows it, makes its record where it enters the hold, and sets SW for every cause but TRIP. -/
theorem State.slotHold_held (s : State) (k : Nat) {c : Nat} (hc : c ≠ 0) : ∃ p,
    let u := ((s.setF (LPE.STAT_HOLD_SRC k) c).flag (LPE.STAT_HELD k) true).raise (heldBit k)
    let v := if s.on (LPE.STAT_HELD k) then u else u.record 0x04 0x02 k 4 p
    s.slotHold k c = if c = 1 then v else v.swLatch k :=
  ⟨_, if_neg hc⟩

/-- HOLD_SRC and HELD show the cause; besides only the summary bit and the trip fabric change. -/
theorem State.slotHold_shows (s : State) (k c : Nat) :
    ((s.setF (LPE.STAT_HOLD_SRC k) c).flag (LPE.STAT_HELD k) (decide (c ≠ 0))).But (LPEG.GHELD (k / 32) :: tripRegs k) []
      (s.slotHold k c) := by
  by_cases hc : c = 0
  · subst hc
    exact ((State.But.refl _).reg (heldBit k) 0 (by simp [heldBit])).same (s.slotHold_free k)
  · obtain ⟨p, heq⟩ := s.slotHold_held k hc
    have hshown : ((s.setF (LPE.STAT_HOLD_SRC k) c).flag (LPE.STAT_HELD k) true).But (LPEG.GHELD (k / 32) :: tripRegs k) []
        (((s.setF (LPE.STAT_HOLD_SRC k) c).flag (LPE.STAT_HELD k) true).raise (heldBit k)) :=
      (State.But.refl _).reg (heldBit k) 1 (by simp [heldBit])
    have htold := State.But.ite (c := s.on (LPE.STAT_HELD k) = true) hshown (hshown.record 0x04 0x02 k 4 p)
    rw [decide_eq_true hc, heq]
    exact .ite htold (htold.swLatch (by simp))

/-- Every cause but TRIP sets the port's SW latch. -/
theorem State.slotHold_latch (s : State) {c : Nat} (hk : k < 96) (hc : 2 ≤ c) : ((s.slotHold k c).latches k).testBit 3 = true := by
  obtain ⟨p, heq⟩ := s.slotHold_held k (by omega : c ≠ 0)
  rw [heq, if_neg (by omega), State.swLatch, State.latchSet_latch _ hk 8 32 (by decide)]
  exact Bool.or_true _

/-! ## The outcome of a start -/

theorem State.slotEntered_runs (s : State) (hk : k < 96) : (s.slotEntered k).slotRuns k = s.slotRuns k :=
  (s.slotEntered_keeps hk).slotRuns hk

/-- A slot that does not run is idle. -/
theorem State.slotStart_idle (hk : k < 96) (h : s.slotRuns k = false) : s.slotStart k = (s.slotEntered k).slotIdle k := by
  have hidle : (!(s.slotEntered k).slotRuns k) = true := by simp [s.slotEntered_runs hk, h]
  exact if_pos hidle

/-- The topology of a slot, judged when it runs. -/
theorem State.slotBegun_fits (s : State) (hk : k < 96) :
    decide ((s.slotBegun k).foc3 k = decide ((s.slotBegun k).f (CAQ.CFG_PAIR k) = 3))
      = decide (¬s.foc3 k = decide (s.f (CAQ.CFG_PAIR k) ≠ 3)) := by
  have hkeeps := s.slotBegun_keeps hk
  rw [hkeeps.foc3 hk, hkeeps.f (CAQ.CFG_PAIR k) (slotReads_caq hk).1]
  cases s.foc3 k <;> by_cases hpair : s.f (CAQ.CFG_PAIR k) = 3 <;> simp [hpair]

/-- A running slot with a mismatch sets CFG_ERR and shows no hold. -/
theorem State.slotStart_mism (hk : k < 96) (hruns : s.slotRuns k = true) (h : ¬s.foc3 k = decide (s.f (CAQ.CFG_PAIR k) ≠ 3)) :
    (s.slotStart k).regs = (((s.slotBegun k).raise (LPE.STAT_CFG_ERR k)).slotUnheld k).regs := by
  have hruns' : ¬(!(s.slotEntered k).slotRuns k) = true := by simp [s.slotEntered_runs hk, hruns]
  have hmism := (s.slotBegun_fits hk).trans (decide_eq_true h)
  have hstart : ∃ (b : Bool) (x : LpeSlot) (p : Nat), s.slotStart k = (if b
      then ((s.slotBegun k).raise (LPE.STAT_CFG_ERR k)).slotUnheld k
      else (((s.slotBegun k).raise (LPE.STAT_CFG_ERR k)).slotUnheld k).recordStat 0x04 0x01 k 2 p : State).setSlot k x :=
    ⟨_, _, _, (if_neg hruns').trans (if_pos hmism)⟩
  obtain ⟨b, x, p, heq⟩ := hstart
  rw [heq]
  cases b <;> rfl

/-- A running slot reads its stored errors, takes the first cause and schedules its frame. -/
theorem State.slotStart_runs (hk : k < 96) (hruns : s.slotRuns k = true) (h : s.foc3 k = decide (s.f (CAQ.CFG_PAIR k) ≠ 3)) :
    ∃ b x held velDue, s.slotStart k = (((((s.slotBegun k).slotEcc k).slotHold k (((s.slotBegun k).slotEcc k).holdCause k)).raiseIf b
      (LPE.STAT_IN_SAT k)).setSlot k x).slotSchedule k held velDue := by
  have hruns' : ¬(!(s.slotEntered k).slotRuns k) = true := by simp [s.slotEntered_runs hk, hruns]
  have hmism := (s.slotBegun_fits hk).trans (decide_eq_false (not_not.mpr h))
  exact ⟨_, _, _, _, (if_neg hruns').trans (if_neg (Bool.eq_false_iff.mp hmism))⟩

theorem State.slotSchedule_regs (s : State) (k : Nat) (held velDue : Bool) : (s.slotSchedule k held velDue).regs = s.regs := by
  unfold State.slotSchedule
  extract_lets fk hk1 hk2 hk3 early late
  have h1 : hk1.regs = s.regs := by
    simp only [hk1]
    split <;> rfl
  have h2 : hk2.regs = s.regs := by
    simp only [hk2]
    split <;> exact h1
  have h3 : hk3.regs = s.regs := by
    simp only [hk3]
    split <;> exact h2
  have hlate : late.regs = s.regs := by
    simp only [late]
    split <;> exact h3
  exact hlate

/-! ## What a start leaves in STAT and CTRL -/

/-- The registers that a start of slot `k` may write beside STAT and CTRL. -/
def slotWrites (k : Nat) : List Nat := LPE.CNT k :: LPEG.GSTAT :: LPEG.GHELD (k / 32) :: tripRegs k

theorem slotWrites_stat (hk : k < 96) : LPE.STAT k ∉ slotWrites k := by
  simp only [slotWrites, tripRegs, List.mem_cons, List.not_mem_nil, LPE.STAT, LPE.CNT, LPEG.GSTAT, LPEG.GHELD, DPW.STAT, TRF.LATCH,
    TRF.FIRST, TRF.FTIME, TRF.CNT, or_false]
  omega

theorem slotWrites_ctrl (hk : k < 96) : LPE.CTRL k ∉ slotWrites k := by
  simp only [slotWrites, tripRegs, List.mem_cons, List.not_mem_nil, LPE.CTRL, LPE.CNT, LPEG.GSTAT, LPEG.GHELD, DPW.STAT, TRF.LATCH,
    TRF.FIRST, TRF.FTIME, TRF.CNT, or_false]
  omega

/-- The fields of STAT that show what a start finds. -/
def slotFlags (k : Nat) : List Field :=
  [LPE.STAT_HELD k, LPE.STAT_HOLD_SRC k, LPE.STAT_CFG_ERR k, LPE.STAT_ECC_CORR k, LPE.STAT_IN_SAT k]

/-- They lie beside RUNNING, ACT_BANK and the requests. -/
theorem slotFlags_spare {G : Field}
    (hG : G ∈ [LPE.STAT_RUNNING k, LPE.STAT_ACT_BANK k, LPE.CTRL_SWAP k, LPE.CTRL_RESET_INT k]) :
    ∀ F ∈ slotFlags k, F.spares G = true := by
  simp only [List.mem_cons, List.not_mem_nil, or_false] at hG
  rcases hG with rfl | rfl | rfl | rfl
  · simp [slotFlags, Field.spares, Field.ok, Field.beside, LPE.STAT_HELD, LPE.STAT_HOLD_SRC, LPE.STAT_CFG_ERR,
      LPE.STAT_ECC_CORR, LPE.STAT_IN_SAT, LPE.STAT_RUNNING]
  · simp [slotFlags, Field.spares, Field.ok, Field.beside, LPE.STAT_HELD, LPE.STAT_HOLD_SRC, LPE.STAT_CFG_ERR,
      LPE.STAT_ECC_CORR, LPE.STAT_IN_SAT, LPE.STAT_ACT_BANK]
  · simp [slotFlags, Field.spares, Field.ok, LPE.STAT_HELD, LPE.STAT_HOLD_SRC, LPE.STAT_CFG_ERR, LPE.STAT_ECC_CORR,
      LPE.STAT_IN_SAT, LPE.CTRL_SWAP, LPE.STAT, LPE.CTRL]
  · simp [slotFlags, Field.spares, Field.ok, LPE.STAT_HELD, LPE.STAT_HOLD_SRC, LPE.STAT_CFG_ERR, LPE.STAT_ECC_CORR,
      LPE.STAT_IN_SAT, LPE.CTRL_RESET_INT, LPE.STAT, LPE.CTRL]

theorem State.slotUnheld_but (s : State) (k : Nat) :
    s.But [LPEG.GHELD (k / 32)] [LPE.STAT_HELD k, LPE.STAT_HOLD_SRC k] (s.slotUnheld k) :=
  (((State.But.refl s).setF _ _).setF _ _).reg (heldBit k) 0 (by simp [heldBit])

theorem State.slotUnheld_held (s : State) (hk : k < 96) : (s.slotUnheld k).on (LPE.STAT_HELD k) = false := by
  have hbut : (s.setF (LPE.STAT_HELD k) 0).But (slotWrites k) [LPE.STAT_HOLD_SRC k] (s.slotUnheld k) :=
    ((State.But.refl _).setF _ _).reg (heldBit k) 0 (by simp [heldBit, slotWrites])
  refine (hbut.on (LPE.STAT_HELD k) (slotWrites_stat hk) ?_).trans (State.setF_zero_on _ _ rfl)
  simp [Field.spares, Field.ok, Field.beside, LPE.STAT_HOLD_SRC, LPE.STAT_HELD]

theorem State.slotIdle_regs (s : State) (k : Nat) : (s.slotIdle k).regs = ((s.setF (LPE.STAT_RUNNING k) 0).slotUnheld k).regs := rfl

theorem State.slotIdle_effect (s : State) (hk : k < 96) :
    (s.slotIdle k).on (LPE.STAT_RUNNING k) = false ∧ (s.slotIdle k).on (LPE.STAT_HELD k) = false
      ∧ s.But (slotWrites k) [LPE.STAT_RUNNING k, LPE.STAT_HELD k, LPE.STAT_HOLD_SRC k] (s.slotIdle k) := by
  have hregs {G : Field} : (s.slotIdle k).on G = ((s.setF (LPE.STAT_RUNNING k) 0).slotUnheld k).on G :=
    State.on_of_rd G (congrArg (fun x : FMap Word => x.get regReset _) (s.slotIdle_regs k))
  have hunheld := ((s.setF (LPE.STAT_RUNNING k) 0).slotUnheld_but k).mono (r' := slotWrites k)
    (by simp [slotWrites]) (List.Subset.refl _)
  refine ⟨?_, hregs.trans (State.slotUnheld_held _ hk),
    (((State.But.refl s).setF (LPE.STAT_RUNNING k) 0).trans hunheld).same (s.slotIdle_regs k)⟩
  refine hregs.trans ((hunheld.on (LPE.STAT_RUNNING k) (slotWrites_stat hk) ?_).trans (State.setF_zero_on _ _ rfl))
  simp [Field.spares, Field.ok, Field.beside, LPE.STAT_RUNNING, LPE.STAT_HOLD_SRC, LPE.STAT_HELD]

/-- The state of a running slot without a mismatch when it looks for a cause. -/
def State.slotJudged (s : State) (k : Nat) : State := (s.slotBegun k).slotEcc k

theorem State.slotStart_after_hold (hk : k < 96) (hruns : s.slotRuns k = true) (h : s.foc3 k = decide (s.f (CAQ.CFG_PAIR k) ≠ 3)) :
    ((s.slotJudged k).slotHold k ((s.slotJudged k).holdCause k)).But [] [LPE.STAT_IN_SAT k] (s.slotStart k) := by
  obtain ⟨b, x, held, velDue, heq⟩ := State.slotStart_runs hk hruns h
  rw [heq]
  exact (((State.But.refl _).raiseIf (LPE.STAT_IN_SAT k) b).setSlot k x).same (State.slotSchedule_regs _ _ _ _)

theorem State.slotHold_but (s : State) (k c : Nat) :
    s.But (slotWrites k) [LPE.STAT_HELD k, LPE.STAT_HOLD_SRC k] (s.slotHold k c) :=
  (((State.But.refl s).setF (LPE.STAT_HOLD_SRC k) c).setF (LPE.STAT_HELD k) _).trans (s.slotHold_shows k c) (by simp [slotWrites])

/-- A running slot goes on from there. -/
theorem State.slotStart_begun (hk : k < 96) (hruns : s.slotRuns k = true) :
    (s.slotBegun k).But (slotWrites k) (slotFlags k) (s.slotStart k) := by
  by_cases hfits : s.foc3 k = decide (s.f (CAQ.CFG_PAIR k) ≠ 3)
  · have hecc := ((s.slotBegun k).slotEcc_effect k).2.1.mono (r' := slotWrites k) (l' := slotFlags k) (by simp [slotWrites])
      (by simp [slotFlags])
    have hhold := hecc.trans ((s.slotJudged k).slotHold_but k ((s.slotJudged k).holdCause k)) (List.Subset.refl _)
      (by simp [slotFlags])
    exact hhold.trans (State.slotStart_after_hold hk hruns hfits) (by simp) (by simp [slotFlags])
  · have herr : (s.slotBegun k).But (slotWrites k) (slotFlags k) ((s.slotBegun k).raise (LPE.STAT_CFG_ERR k)) :=
      (State.But.refl _).raise _ (by simp [slotFlags])
    exact (herr.trans (State.slotUnheld_but _ k) (by simp [slotWrites]) (by simp [slotFlags])).same
      (State.slotStart_mism hk hruns hfits)

theorem State.slotStart_but (s : State) (hk : k < 96) :
    (s.slotEntered k).But (slotWrites k) (LPE.STAT_RUNNING k :: slotFlags k) (s.slotStart k) := by
  cases hruns : s.slotRuns k
  · rw [State.slotStart_idle hk hruns]
    exact ((s.slotEntered k).slotIdle_effect hk).2.2.mono (List.Subset.refl _) (by simp [slotFlags])
  · exact ((s.slotBegun_but k).mono (by simp) (by simp)).trans (State.slotStart_begun hk hruns) (List.Subset.refl _)

theorem State.slotStart_running (s : State) (hk : k < 96) : (s.slotStart k).on (LPE.STAT_RUNNING k) = s.slotRuns k := by
  cases hruns : s.slotRuns k
  · rw [State.slotStart_idle hk hruns]
    exact ((s.slotEntered k).slotIdle_effect hk).1
  · exact ((State.slotStart_begun hk hruns).on (LPE.STAT_RUNNING k) (slotWrites_stat hk) (slotFlags_spare (by simp))).trans
      (s.slotBegun_running k)

/-- A start takes the requests back, and a requested swap takes place whether the slot runs or not. -/
theorem State.slotStart_requests (s : State) (hk : k < 96) :
    (s.slotStart k).f (LPE.STAT_ACT_BANK k) = (if s.on (LPE.CTRL_SWAP k) then 1 - s.actBank k else s.actBank k)
      ∧ (s.slotStart k).on (LPE.CTRL_SWAP k) = false ∧ (s.slotStart k).on (LPE.CTRL_RESET_INT k) = false := by
  obtain ⟨hbank, hswap, hreset⟩ := s.slotEntered_requests k
  have hbut := s.slotStart_but hk
  have hctrl : LPE.CTRL k ≠ LPE.STAT k := by simp [LPE.CTRL, LPE.STAT]
  have hspare {G : Field} (hrun : (LPE.STAT_RUNNING k).spares G = true)
      (hG : G ∈ [LPE.STAT_RUNNING k, LPE.STAT_ACT_BANK k, LPE.CTRL_SWAP k, LPE.CTRL_RESET_INT k]) :
      ∀ F ∈ LPE.STAT_RUNNING k :: slotFlags k, F.spares G = true :=
    List.forall_mem_cons.mpr ⟨hrun, slotFlags_spare hG⟩
  refine ⟨(hbut.f (LPE.STAT_ACT_BANK k) (slotWrites_stat hk) (hspare ?bank (by simp))).trans hbank,
    (hbut.on (LPE.CTRL_SWAP k) (slotWrites_ctrl hk) (hspare ?swap (by simp))).trans hswap,
    (hbut.on (LPE.CTRL_RESET_INT k) (slotWrites_ctrl hk) (hspare ?reset (by simp))).trans hreset⟩
  case bank =>
    simp [Field.spares, Field.ok, Field.beside, LPE.STAT_RUNNING, LPE.STAT_ACT_BANK]
  case swap =>
    exact Field.spares_apart rfl hctrl
  case reset =>
    exact Field.spares_apart rfl hctrl

theorem State.slotStart_notHeld (hk : k < 96) (hruns : s.slotRuns k = false) : (s.slotStart k).on (LPE.STAT_HELD k) = false := by
  rw [State.slotStart_idle hk hruns]
  exact ((s.slotEntered k).slotIdle_effect hk).2.1

theorem State.slotStart_cfgErr (hk : k < 96) (hruns : s.slotRuns k = true) (h : ¬s.foc3 k = decide (s.f (CAQ.CFG_PAIR k) ≠ 3)) :
    (s.slotStart k).on (LPE.STAT_CFG_ERR k) = true := by
  have hbut : ((s.slotBegun k).raise (LPE.STAT_CFG_ERR k)).But [LPEG.GHELD (k / 32)]
      [LPE.STAT_HELD k, LPE.STAT_HOLD_SRC k] (s.slotStart k) :=
    (State.slotUnheld_but _ k).same (State.slotStart_mism hk hruns h)
  refine (hbut.on (LPE.STAT_CFG_ERR k) ?stat ?fields).trans (State.raise_on _ _ rfl)
  case stat =>
    have hsub : [LPEG.GHELD (k / 32)] ⊆ slotWrites k := by simp [slotWrites]
    exact fun hmem => slotWrites_stat hk (hsub hmem)
  case fields =>
    simp [Field.spares, Field.ok, Field.beside, LPE.STAT_CFG_ERR, LPE.STAT_HELD, LPE.STAT_HOLD_SRC]

/-! ## The cause that a start shows -/

/-- What a start of a running slot shows of its hold when nothing was requested. -/
structure State.SlotCause (s t : State) (k : Nat) : Prop where
  held : t.on (LPE.STAT_HELD k) = decide (t.f (LPE.STAT_HOLD_SRC k) ≠ 0)
  first : FirstCause s.lpe.frameBad (s.slotSpoilt k) (s.slotBlind k) (s.slotUnsensed k)
    (s.on (DPW.STAT_FORCED k) = true ∨ s.latches k ≠ 0) (t.f (LPE.STAT_HOLD_SRC k))
  latch : 2 ≤ t.f (LPE.STAT_HOLD_SRC k) → (t.latches k).testBit 3 = true

theorem State.slotJudged_keeps (s : State) (hk : k < 96) : s.Keeps (slotReads k) (s.slotJudged k) := by
  refine (s.slotBegun_keeps hk).trans (((s.slotBegun k).slotEcc_effect k).2.1.keeps (fun o ho => ?_) fun F hF => ?_)
  · rcases List.mem_pair.mp ho with rfl | rfl
    · exact slotReads_cnt hk
    · exact slotReads_gstat hk
  · rw [List.mem_singleton.mp hF]
    exact ⟨rfl, slotReads_stat hk⟩

theorem State.slotJudged_first (hk : k < 96) (hswap : s.on (LPE.CTRL_SWAP k) = false) (hreset : s.on (LPE.CTRL_RESET_INT k) = false) :
    FirstCause s.lpe.frameBad (s.slotSpoilt k) (s.slotBlind k) (s.slotUnsensed k)
      (s.on (DPW.STAT_FORCED k) = true ∨ s.latches k ≠ 0) ((s.slotJudged k).holdCause k) := by
  obtain ⟨hlpe, -, hecc⟩ := (s.slotBegun k).slotEcc_effect k
  have hlpe' : (s.slotJudged k).lpe = s.lpe := hlpe.trans (State.slotBegun_errors hswap hreset).2.2.2.1
  have hfirst := (s.slotJudged k).holdCause_first k
  rw [hlpe'] at hfirst
  exact hfirst.of_keeps (hecc.trans (State.slotBegun_spoilt hswap hreset)) (s.slotJudged_keeps hk) hk

theorem State.slotStart_cause (hk : k < 96) (hruns : s.slotRuns k = true) (h : s.foc3 k = decide (s.f (CAQ.CFG_PAIR k) ≠ 3))
    (hswap : s.on (LPE.CTRL_SWAP k) = false) (hreset : s.on (LPE.CTRL_RESET_INT k) = false) :
    s.SlotCause (s.slotStart k) k := by
  have hafter := State.slotStart_after_hold hk hruns h
  have hfirst := State.slotJudged_first hk hswap hreset
  have hlt := (s.slotJudged k).holdCause_lt k
  generalize (s.slotJudged k).holdCause k = c at hafter hfirst hlt
  have hshows := ((s.slotJudged k).slotHold_shows k c).mono (r' := slotWrites k) (by simp [slotWrites]) (List.Subset.refl _)
  have hstart := hshows.mono (l' := [LPE.STAT_IN_SAT k]) (List.Subset.refl _) (by simp) |>.trans hafter
  have hstat := slotWrites_stat hk
  have hsrc : (s.slotStart k).f (LPE.STAT_HOLD_SRC k) = c := by
    refine (hstart.f (LPE.STAT_HOLD_SRC k) hstat ?_).trans ((State.setF_f_beside _ _ _ _ rfl rfl).trans ?_)
    · simp [Field.spares, Field.ok, Field.beside, LPE.STAT_HOLD_SRC, LPE.STAT_IN_SAT]
    · exact (State.setF_f _ _ _ rfl).trans (Nat.mod_eq_of_lt hlt)
  have hheld : (s.slotStart k).on (LPE.STAT_HELD k) = decide (c ≠ 0) := by
    refine (hstart.on (LPE.STAT_HELD k) hstat ?_).trans (State.flag_on _ _ _ rfl)
    simp [Field.spares, Field.ok, Field.beside, LPE.STAT_HELD, LPE.STAT_IN_SAT]
  have hlatches : (s.slotStart k).latches k = ((s.slotJudged k).slotHold k c).latches k := by
    rw [State.latches_eq_f, State.latches_eq_f]
    have hne : TRF.LATCH k ≠ LPE.STAT k := by
      simp only [TRF.LATCH, LPE.STAT]
      omega
    refine hafter.f ⟨TRF.LATCH k, 0, 7⟩ (by simp) fun F hF => ?_
    rw [List.mem_singleton.mp hF]
    exact Field.spares_apart rfl hne
  rw [← hsrc] at hfirst hheld
  refine ⟨hheld, hfirst, fun hc => ?_⟩
  rw [hlatches]
  exact State.slotHold_latch _ hk (hsrc ▸ hc)

end Sys2Proof.Machine
end

section
/-! PROOF of the statement LoopEngine: hook reads (R141) and the end of a slot (R127, R136, R142). -/

namespace Sys2Proof.Machine

variable {s t : State} {k : Nat}

/-! ## Hooks (R141) -/

/-- What hook `n` (0 to 2) gave. -/
def LpeSlot.hookGot (u : LpeSlot) (n : Nat) : HookRes := if n = 0 then u.h1 else if n = 1 then u.h2 else u.h3

/-- The value committed for hook `n`. -/
def LpeSlot.hookCommitted (u : LpeSlot) (n : Nat) : Word := if n = 0 then u.com1 else if n = 1 then u.com2 else u.com3

/-- The value that hook `n` used last. -/
def LpeSlot.hookLast (u : LpeSlot) (n : Nat) : Option Word := if n = 0 then u.last1 else if n = 1 then u.last2 else u.last3

/-- A read leaves what it gave and the value it used last. -/
theorem State.hookRead_slotU (s : State) (k : Nat) {n : Nat} (hn : n < 3) :
    let u := s.slotU k
    let v := (s.hookRead k n).slotU k
    let fresh := decide (s.f (LPE.HKIN_TAG_V k n) = u.fc % 256)
    v.hookGot n = hookResult fresh (u.hookCommitted n) (getBits (6 + 2 * n) 2 u.inp.hook) (u.hookLast n)
      ∧ v.hookLast n = if fresh then some (u.hookCommitted n) else u.hookLast n := by
  intro u v fresh
  have hslot {x : LpeSlot} (h : s.hookRead k n
      = State.setSlot (if fresh then s else (s.raise (LPE.STAT_HK_STALE k)).bump (LPE.CNT_STALE_CNT k)) k x) : v = x :=
    (congrArg (fun t : State => t.slotU k) h).trans (State.setSlot_slotU _ _ _)
  rcases n with _ | _ | _ | n
  · rw [hslot rfl]
    exact ⟨rfl, rfl⟩
  · rw [hslot rfl]
    exact ⟨rfl, rfl⟩
  · rw [hslot rfl]
    exact ⟨rfl, rfl⟩
  · omega

theorem State.hookRead_fresh_regs (s : State) (k n : Nat) (h : s.f (LPE.HKIN_TAG_V k n) = (s.slotU k).fc % 256) :
    (s.hookRead k n).regs = s.regs := by
  unfold State.hookRead
  simp only [h, decide_true, if_true]
  rfl

theorem State.hookRead_stale (s : State) (k n : Nat) (h : s.f (LPE.HKIN_TAG_V k n) ≠ (s.slotU k).fc % 256) :
    (s.hookRead k n).on (LPE.STAT_HK_STALE k) = true := by
  have hcnt : (LPE.STAT_HK_STALE k).off ≠ (LPE.CNT_STALE_CNT k).off := by
    simp [LPE.STAT_HK_STALE, LPE.CNT_STALE_CNT, LPE.STAT, LPE.CNT]
  unfold State.hookRead
  simp only [h, decide_false, Bool.false_eq_true, if_false]
  rw [State.setSlot_on, State.bump, State.setF_on_apart _ _ _ _ hcnt]
  exact State.raise_on _ _ rfl

/-- A stale hook follows its policy. -/
theorem hookResult_stale (v : Word) (sp : Nat) (last : Option Word) :
    (sp = 1 → hookResult false v sp last = .zero) ∧ (2 ≤ sp → hookResult false v sp last = .bypass)
      ∧ (sp = 0 → hookResult false v sp last = (match last with | some w => .val w | none => .zero)) := by
  refine ⟨?_, fun h => ?_, ?_⟩
  · rintro rfl
    rfl
  · obtain ⟨n, rfl⟩ := Nat.exists_eq_add_of_le' h
    rfl
  · rintro rfl
    cases last <;> rfl

theorem exec_lpeHookRead_reads {k : Fin 96} (n : Fin 3) (hrun : (s.slotU k.val).running = true) (hmism : (s.slotU k.val).mism = false)
    (hheld : s.on (LPE.STAT_HELD k.val) = false) : exec (.lpeHookRead k n) s = .next (s.hookRead k.val n.val) :=
  if_neg (by simp [hrun, hmism, hheld])

theorem exec_lpeHookRead_idle {k : Fin 96} (n : Fin 3)
    (h : ¬((s.slotU k.val).running = true ∧ (s.slotU k.val).mism = false ∧ s.on (LPE.STAT_HELD k.val) = false)) :
    exec (.lpeHookRead k n) s = .next s := by
  refine if_pos ?_
  simp only [not_and_or, Bool.not_eq_true, Bool.not_eq_false] at h
  simpa [or_assoc] using h

/-! ## The duty set (R62, R127) -/

/-- On-times that are written under different indices. -/
theorem State.setTons_f (k : Nat) {x : Nat × Nat} : ∀ (l : List (Nat × Nat)) (s : State), (l.map Prod.snd).Nodup → x ∈ l →
    (l.foldl (fun t x => t.setF (DPW.CMP_TON k x.2) x.1) s).f (DPW.CMP_TON k x.2) = x.1 % 2 ^ 25
  | [], _, _, hx => absurd hx List.not_mem_nil
  | y :: l, s, hnodup, hx => by
    rw [List.map_cons, List.nodup_cons] at hnodup
    rw [List.foldl_cons]
    by_cases hl : x ∈ l
    · exact State.setTons_f k l _ hnodup.2 hl
    · have hxy : x = y := (List.mem_cons.mp hx).resolve_right hl
      subst hxy
      have hkept (u : State) :
          (l.foldl (fun t x => t.setF (DPW.CMP_TON k x.2) x.1) u).f (DPW.CMP_TON k x.2) = u.f (DPW.CMP_TON k x.2) := by
        refine List.foldlRecOn (motive := fun t : State => t.f (DPW.CMP_TON k x.2) = u.f (DPW.CMP_TON k x.2)) l _ rfl
          fun t ht z hz => ?_
        have hne : x.2 ≠ z.2 := fun e => hnodup.1 (e ▸ List.mem_map_of_mem hz)
        refine (State.setF_f_apart _ _ _ _ ?_).trans ht
        simp only [DPW.CMP_TON, DPW.CMP]
        omega
      exact (hkept _).trans (State.setF_f _ _ _ rfl)

/-- The shadows take the on-times of a duty set that fit into them. -/
theorem State.writeDuty_ton (s : State) (k : Nat) {l : List Nat} (hl : l.length ≤ 4) {j : Nat} (hj : j < l.length)
    (hfit : l[j] < 2 ^ 25) :
    (s.writeDuty k l).f (DPW.CMP_TON k j) = l[j] := by
  have hj4 : j < 4 := by omega
  have hindex : [0, 1, 2, 3][j] = j := by
    interval_cases j <;> rfl
  have hmem : (l[j], j) ∈ l.zip [0, 1, 2, 3] := by
    refine List.mem_iff_getElem.mpr ⟨j, by simp; omega, ?_⟩
    rw [List.getElem_zip, hindex]
  have hnodup : ((l.zip [0, 1, 2, 3]).map Prod.snd).Nodup := by
    rw [List.zip_eq_zip_take_min, List.map_snd_zip (by simp)]
    exact (List.take_sublist _ _).nodup (by decide)
  exact (State.setTons_f k _ s hnodup hmem).trans (Nat.mod_eq_of_lt hfit)

theorem State.writeDuty_marked (s : State) (k : Nat) (l : List Nat) : ((s.writeDuty k l).dpwU k).marked = true := by
  unfold State.writeDuty State.mark
  exact congrArg DpwPort.marked (FMap.get_set_same _ _ _ _)

/-! ## On-times (R136) -/

theorem clampInt_toNat_le (x : Int) (per : Nat) : (clampInt 0 per x).toNat ≤ per := by
  unfold clampInt
  split_ifs <;> omega

theorem focTimes_le (ud uq : Int) (theta per e1 e2 e3 : Nat) : ∃ a b c,
    focTimes ud uq theta per e1 e2 e3 = [a, b, c] ∧ a ≤ per ∧ b ≤ per ∧ c ≤ per :=
  ⟨_, _, _, rfl, clampInt_toNat_le _ _, clampInt_toNat_le _ _, clampInt_toNat_le _ _⟩

theorem dc2Times_le (ud uq : Int) (per : Nat) : ∃ a c, dc2Times ud uq per = [a, per - a, c, per - c] ∧ a ≤ per ∧ c ≤ per :=
  ⟨_, _, rfl, clampInt_toNat_le _ _, clampInt_toNat_le _ _⟩

end Sys2Proof.Machine
end

section
/-! PROOF of the statement LoopEngine: the end of a slot (R127, R134 to R136, R142). -/

namespace Sys2Proof.Machine

variable {s t u : State} {k : Nat}

/-! ## What the stages leave -/

/-- The registers that the period of port `k` depends on. -/
def periodReads (k o : Nat) : Prop := o = DPW.CFG k ∨ o = DPW.PERIOD k ∨ o = LPEG.GCFG

/-- The period of the port and the inputs of the slot are kept. -/
structure State.PipeKeeps (k : Nat) (s t : State) : Prop where
  regs : s.Keeps (periodReads k) t
  inp : (t.slotU k).inp = (s.slotU k).inp

namespace State.PipeKeeps

theorem refl (s : State) (k : Nat) : s.PipeKeeps k s := ⟨.refl s, rfl⟩

theorem trans (h : s.PipeKeeps k t) (h' : t.PipeKeeps k u) : s.PipeKeeps k u := ⟨h.regs.trans h'.regs, h'.inp.trans h.inp⟩

theorem setSlot (h : s.PipeKeeps k t) {x : LpeSlot} (hx : x.inp = (t.slotU k).inp) : s.PipeKeeps k (t.setSlot k x) :=
  ⟨h.regs.same rfl, (congrArg LpeSlot.inp (t.setSlot_slotU k x)).trans (hx.trans h.inp)⟩

theorem raiseIf (h : s.PipeKeeps k t) {F : Field} (hF : ¬periodReads k F.off) (b : Bool) : s.PipeKeeps k (t.raiseIf b F) :=
  ⟨h.regs.raiseIf hF b, (congrArg LpeSlot.inp (t.raiseIf_slotU b F k)).trans h.inp⟩

theorem wrN (h : s.PipeKeeps k t) {o : Nat} (ho : ¬periodReads k o) (v : Nat) : s.PipeKeeps k (t.wrN o v) :=
  ⟨h.regs.wr ho _, h.inp⟩

theorem tickFree (h : s.PipeKeeps k t) : s.PipeKeeps k t.tickFree := ⟨h.regs.same rfl, h.inp⟩

theorem token (h : s.PipeKeeps k t) (tag : Nat) (v : Word) (n : Nat) : s.PipeKeeps k (t.token tag v n) := ⟨h.regs.same rfl, h.inp⟩

theorem ite {c : Prop} [Decidable c] {a b : State} (ha : s.PipeKeeps k a) (hb : s.PipeKeeps k b) :
    s.PipeKeeps k (if c then a else b) := by
  split
  · exact ha
  · exact hb

theorem portPeriod (h : s.PipeKeeps k t) : t.portPeriod k = s.portPeriod k := by
  have hcfg : periodReads k (DPW.CFG k) := Or.inl rfl
  unfold State.portPeriod State.frameUnits
  rw [h.regs.on (DPW.CFG_SYNC k) hcfg, h.regs.f (DPW.CFG_K k) hcfg, h.regs.f (DPW.PERIOD_PER k) (Or.inr (Or.inl rfl)),
    h.regs.f LPEG.GCFG_FLE (Or.inr (Or.inr rfl))]

end State.PipeKeeps

theorem periodReads_stat (hk : k < 96) : ¬periodReads k (LPE.STAT k) := by
  simp only [periodReads, LPE.STAT, DPW.CFG, DPW.PERIOD, LPEG.GCFG]
  omega

theorem periodReads_hkout (k : Nat) {i : Nat} (hi : i < 8) : ¬periodReads k (LPE.HKOUT k i) := by
  simp only [periodReads, LPE.HKOUT, DPW.CFG, DPW.PERIOD, LPEG.GCFG]
  omega

theorem State.outerStages_keeps (s : State) (hk : k < 96) : s.PipeKeeps k (s.outerStages k) := by
  unfold State.outerStages
  extract_lets u b cfg casc nv vspq ep ff vRef placed bcfg ulim r
  have hplaced : s.PipeKeeps k placed := (State.PipeKeeps.refl s k).setSlot rfl
  exact .ite hplaced ((hplaced.raiseIf (periodReads_stat hk) _).setSlot rfl)

theorem State.currentStages_keeps (s : State) (hk : k < 96) (theta : Nat) (foc : Bool) (sn cs : Int) :
    s.PipeKeeps k (s.currentStages k theta foc sn cs).1 := by
  have hstat := periodReads_stat hk
  exact (((State.PipeKeeps.refl s k).raiseIf hstat _).raiseIf hstat _).setSlot rfl

theorem State.slotStages_keeps (s : State) (hk : k < 96) : s.PipeKeeps k (s.slotStages k) := by
  unfold State.slotStages
  extract_lets outer foc theta e1 t1 e2 t2 sn cs
  have houter : s.PipeKeeps k outer := s.outerStages_keeps hk
  have h2 : s.PipeKeeps k t2 := .ite (State.PipeKeeps.tickFree (.ite houter.tickFree houter)) (.ite houter.tickFree houter)
  have hcur := h2.trans (t2.currentStages_keeps hk theta foc sn cs)
  generalize t2.currentStages k theta foc sn cs = cur at hcur ⊢
  obtain ⟨t3, r⟩ := cur
  have hout {i : Nat} (hi : i < 8) := periodReads_hkout k hi
  dsimp -zeta only
  extract_lets v stored out5 out6 out7
  have hstored : s.PipeKeeps k stored := State.PipeKeeps.setSlot (t := t3) hcur rfl
  have h5 : s.PipeKeeps k out5 := hstored.wrN (hout (i := 5) (by decide)) _
  have h6 : s.PipeKeeps k out6 := h5.wrN (hout (i := 6) (by decide)) _
  have h7 : s.PipeKeeps k out7 := h6.wrN (hout (i := 7) (by decide)) _
  exact .ite (h7.token _ _ _) h7

/-- Before the end of a slot its voltages are there: computed at cycle 464, at the latest now. -/
theorem State.slotOut_keeps (s : State) (hk : k < 96) : s.PipeKeeps k (s.slotOut k true) := by
  have hself := State.PipeKeeps.refl s k
  unfold State.slotOut
  refine .ite hself ?_
  rw [if_neg (by decide)]
  exact .ite hself (s.slotStages_keeps hk)

/-! ## The outcome of an end -/

theorem State.slotEnded_keeps (s : State) (k : Nat) : s.PipeKeeps k (s.setSlot k { s.slotU k with ended := true }) :=
  (State.PipeKeeps.refl s k).setSlot rfl

theorem State.slotEnd_idle (h : (s.slotU k).running = false ∨ (s.slotU k).mism = true) : (s.slotEnd k).regs = s.regs := by
  have hidle : (!(s.slotU k).running || (s.slotU k).mism) = true := by simpa using h
  have heq : s.slotEnd k = s.setSlot k { s.slotU k with ended := true } := if_pos hidle
  rw [heq]
  rfl

/-- A slot that runs. -/
def State.slotPlays (s : State) (k : Nat) : Prop := (s.slotU k).running = true ∧ (s.slotU k).mism = false

theorem State.slotEnd_held (h : s.slotPlays k) (hheld : s.on (LPE.STAT_HELD k) = true) :
    ∃ v l, s.slotEnd k = State.writeDuty v k l
      ∧ (l = List.replicate 3 (s.portPeriod k / 2) ∨ l = List.replicate 4 (s.portPeriod k / 2)) := by
  have hplays : ¬(!(s.slotU k).running || (s.slotU k).mism) = true := by simp [h.1, h.2]
  refine ⟨_, _, (if_neg hplays).trans (if_pos hheld), ?_⟩
  rw [(s.slotEnded_keeps k).portPeriod]
  split
  · exact Or.inl rfl
  · exact Or.inr rfl

theorem State.slotEnd_computed (hk : k < 96) (h : s.slotPlays k) (hheld : s.on (LPE.STAT_HELD k) = false) :
    ∃ v ud uq theta e1 e2 e3, s.slotEnd k = State.writeDuty v k (if (s.slotU k).inp.foc
      then focTimes ud uq theta (s.portPeriod k) e1 e2 e3 else dc2Times ud uq (s.portPeriod k)) := by
  have hplays : ¬(!(s.slotU k).running || (s.slotU k).mism) = true := by simp [h.1, h.2]
  have hnot : ¬s.on (LPE.STAT_HELD k) = true := Bool.eq_false_iff.mp hheld
  have hkeeps := (s.slotEnded_keeps k).trans (State.slotOut_keeps _ hk)
  rw [← hkeeps.portPeriod, ← hkeeps.inp]
  exact ⟨_, _, _, _, _, _, _, (if_neg hplays).trans (if_neg hnot)⟩

end Sys2Proof.Machine
end

section
/-! PROOF of the statement LoopEngine: the on-times that an end leaves, the writes of software (R137, R138, R141, R145), and
the statement. -/

namespace Sys2Proof.Machine

variable {s t : State} {k : Nat}

/-! ## On-times of an end -/

/-- A held slot marks the set of half the period. -/
theorem State.slotEnd_zeroSet (h : s.slotPlays k) (hheld : s.on (LPE.STAT_HELD k) = true) (hper : s.portPeriod k < 2 ^ 25) :
    ((s.slotEnd k).dpwU k).marked = true ∧ ∀ j < 3, (s.slotEnd k).f (DPW.CMP_TON k j) = s.portPeriod k / 2 := by
  obtain ⟨v, l, heq, hl⟩ := State.slotEnd_held h hheld
  rw [heq]
  refine ⟨v.writeDuty_marked k l, fun j hj => ?_⟩
  have hhalf : s.portPeriod k / 2 < 2 ^ 25 := by omega
  have hlen : 3 ≤ l.length ∧ l.length ≤ 4 := by rcases hl with rfl | rfl <;> simp
  have hget (hjl : j < l.length) : l[j] = s.portPeriod k / 2 := by
    rcases hl with rfl | rfl <;> exact List.getElem_replicate _
  have hjl : j < l.length := by omega
  rw [v.writeDuty_ton k hlen.2 hjl (by rw [hget hjl]; exact hhalf), hget hjl]

/-- The on-times of the others lie within the period, those of DC2 in pairs that sum to it. -/
theorem State.slotEnd_times (hk : k < 96) (h : s.slotPlays k) (hheld : s.on (LPE.STAT_HELD k) = false)
    (hper : s.portPeriod k < 2 ^ 25) :
    ((s.slotEnd k).dpwU k).marked = true ∧ (∀ j < 3, (s.slotEnd k).f (DPW.CMP_TON k j) ≤ s.portPeriod k)
      ∧ ((s.slotU k).inp.foc = false → (s.slotEnd k).f (DPW.CMP_TON k 0) + (s.slotEnd k).f (DPW.CMP_TON k 1) = s.portPeriod k
        ∧ (s.slotEnd k).f (DPW.CMP_TON k 2) + (s.slotEnd k).f (DPW.CMP_TON k 3) = s.portPeriod k) := by
  obtain ⟨v, ud, uq, theta, e1, e2, e3, heq⟩ := State.slotEnd_computed hk h hheld
  rw [heq]
  refine ⟨v.writeDuty_marked k _, ?_⟩
  have hton {l : List Nat} (hlen : l.length ≤ 4) (hl : ∀ x ∈ l, x ≤ s.portPeriod k) {j : Nat} (hj : j < l.length) :
      (v.writeDuty k l).f (DPW.CMP_TON k j) = l[j] :=
    v.writeDuty_ton k hlen hj ((hl _ (List.getElem_mem hj)).trans_lt hper)
  cases hfoc : (s.slotU k).inp.foc
  case true =>
    obtain ⟨a, b, c, htimes, ha, hb, hc⟩ := focTimes_le ud uq theta (s.portPeriod k) e1 e2 e3
    rw [if_pos rfl, htimes]
    have hle : ∀ x ∈ [a, b, c], x ≤ s.portPeriod k := by simp [ha, hb, hc]
    exact ⟨fun j hj => (hton (by simp) hle (by simpa using hj)).trans_le (hle _ (List.getElem_mem _)), fun h => Bool.noConfusion h⟩
  case false =>
    obtain ⟨a, c, htimes, ha, hc⟩ := dc2Times_le ud uq (s.portPeriod k)
    rw [if_neg Bool.false_ne_true, htimes]
    have hle : ∀ x ∈ [a, s.portPeriod k - a, c, s.portPeriod k - c], x ≤ s.portPeriod k := by simp [ha, hc]
    have hread {j : Nat} (hj : j < 4) := hton (by simp) hle (j := j) (by simpa using hj)
    refine ⟨fun j hj => (hread (by omega)).trans_le (hle _ (List.getElem_mem _)), fun _ => ⟨?_, ?_⟩⟩
    · rw [hread (by decide : 0 < 4), hread (by decide : 1 < 4)]
      exact Nat.add_sub_cancel' ha
    · rw [hread (by decide : 2 < 4), hread (by decide : 3 < 4)]
      exact Nat.add_sub_cancel' hc

/-! ## Writes of software (R137, R138, R141, R145) -/

/-- A request stays until the next start. -/
theorem State.wrote_request {m : Sys2Proof.Master} {F : Field} (hF : F.ok = true) (h : s.reaches m F.off) :
    s.flagged (s.busW m F.off (·.raise F)) F := by
  rw [h.busW_eq]
  exact ⟨State.raise_on _ _ hF, s.wrote_answer_raise F .done⟩

/-- A commit stores the value with the tag. -/
theorem State.hookCommit_slotU (s : State) (k : Nat) {n : Nat} (hn : n < 3) (v : Word) :
    (n = 0 → (s.hookCommit k n v).slotU k = { s.slotU k with com1 := s.rd (LPE.HKIN_VAL k 0) })
      ∧ (n = 1 → (s.hookCommit k n v).slotU k = { s.slotU k with com2 := s.rd (LPE.HKIN_VAL k 1) })
      ∧ (n = 2 → (s.hookCommit k n v).slotU k = { s.slotU k with com3 := s.rd (LPE.HKIN_VAL k 2) }) := by
  refine ⟨?_, ?_, ?_⟩
  · rintro rfl
    exact State.setSlot_slotU _ _ _
  · rintro rfl
    exact State.setSlot_slotU _ _ _
  · rintro rfl
    exact State.setSlot_slotU _ _ _

theorem State.store_slotU (s : State) (o : Nat) (v hw : Word) (k : Nat) : (s.store o v hw).slotU k = s.slotU k := by
  rw [(s.store_sameBut o v hw).2]
  rfl

theorem State.hookCommit_other (s : State) {j k : Nat} (h : j ≠ k) (n : Nat) (v : Word) : (s.hookCommit k n v).slotU j = s.slotU j :=
  (State.setSlot_slotU_ne _ h _).trans (s.store_slotU _ v 0#32 j)

theorem State.hookCommit_wrote (s : State) (k n : Nat) (v : Word) (r : Resp) :
    s.wrote { (s.answer r).hookCommit k n v with slot := s.slot } [LPE.HKIN_TAG k n] := by
  obtain ⟨hrd, hrest⟩ := (s.answer r).store_sameBut (LPE.HKIN_TAG k n) v 0#32
  have hcommit : ∃ x, (s.answer r).hookCommit k n v = ((s.answer r).store (LPE.HKIN_TAG k n) v).setSlot k x := ⟨_, rfl⟩
  obtain ⟨x, heq⟩ := hcommit
  rw [heq]
  refine ⟨fun o ho => hrd o ho, ?_⟩
  rw [hrest]
  rfl

/-- A word out of range sets ERR_ARG only. -/
theorem State.bankWrite_bad {b w : Nat} {v : Word} {coin : Bool} (h : bankBadValue w v = true) :
    s.bankWrite k b w v coin = s.raise (LPE.STAT_ERR_ARG k) := if_pos h

/-- A good word for a bank in use, or for the incoming one in the tick of the swap, sets BANK_ERR only. -/
theorem State.bankWrite_locked {b w : Nat} {v : Word} {coin : Bool} (h : bankBadValue w v = false)
    (hlock : s.actBank k = b ∨ coin = true) : s.bankWrite k b w v coin = s.raise (LPE.STAT_BANK_ERR k) :=
  (if_neg (Bool.eq_false_iff.mp h)).trans (if_pos hlock)

/-- Another word ends the stored error and the mark of that word. -/
theorem State.bankWrite_ends {b w : Nat} {v : Word} (h : bankBadValue w v = false) (hfree : s.actBank k ≠ b) :
    (s.bankWrite k b w v false).ecc = s.ecc.filter (fun e => !(decide (e.place = 1) && decide (e.addr = 64 * (2 * k + b) + w)))
      ∧ ((s.bankWrite k b w v false).slotU k).badWords = (s.slotU k).badWords.filter (fun x => decide (x ≠ 32 * b + w)) := by
  let errs := s.ecc.filter (fun e => !(decide (e.place = 1) && decide (e.addr = 64 * (2 * k + b) + w)))
  let words := (s.slotU k).badWords.filter (fun x => decide (x ≠ 32 * b + w))
  have hstored : s.bankWrite k b w v false
      = (State.store { s with ecc := errs } (bankOff k b (4 * w)) v).setSlot k { s.slotU k with badWords := words } :=
    (if_neg (Bool.eq_false_iff.mp h)).trans (if_neg (by simp [hfree]))
  rw [hstored, State.setSlot_slotU, State.setSlot_ecc, (State.store_sameBut _ _ _ _).2]
  exact ⟨rfl, rfl⟩

/-! ## The statement -/

/-- Settles O37: the start of a slot by its three outcomes, a hook read by its policy, the end of a slot by its duty set, and
the writes of software through the bus. -/
theorem loopEngine : Obligations.LoopEngine := by
  refine ⟨?slots, ?writes⟩
  case slots =>
    intro s k n runs fits u usesPos noPos noCurrent ecc tripped
    have hk : k.val < 96 := k.isLt
    refine ⟨⟨_, rfl, ?start⟩, ?hook, ⟨_, rfl, ?ends⟩⟩
    case start =>
      obtain ⟨hbank, hswap, hreset⟩ := s.slotStart_requests hk
      refine ⟨hbank, hswap, hreset, s.slotStart_running hk, State.slotStart_notHeld hk, State.slotStart_cfgErr hk, ?_⟩
      intro hruns hfits hswap hreset c
      obtain ⟨hheld, hfirst, hlatch⟩ := State.slotStart_cause hk hruns hfits hswap hreset
      exact ⟨hheld, hfirst.ofFrame, hfirst.ofEcc, fun hframe hecc huses hno => hfirst.ofPos hframe hecc ⟨huses, hno⟩,
        hfirst.ofCurrent, hfirst.ofTrip, hlatch⟩
    case hook =>
      by_cases hreads : (s.slotU k.val).running = true ∧ (s.slotU k.val).mism = false ∧ s.on (LPE.STAT_HELD k.val) = false
      · obtain ⟨hrun, hmism, hheld⟩ := hreads
        refine ⟨_, exec_lpeHookRead_reads n hrun hmism hheld, ?_⟩
        obtain ⟨hgot, hlast⟩ := s.hookRead_slotU k.val n.isLt
        obtain ⟨hzero, hbypass, hkept⟩ :=
          hookResult_stale (u.hookCommitted n.val) (getBits (6 + 2 * n.val) 2 u.inp.hook) (u.hookLast n.val)
        refine ⟨fun hno => absurd ⟨hrun, hmism, hheld⟩ hno, fun _ hfresh => ?_, fun _ hstale => ?_⟩
        · rw [decide_eq_true hfresh] at hgot hlast
          exact ⟨hgot, hlast, s.hookRead_fresh_regs k.val n.val hfresh⟩
        · rw [decide_eq_false hstale] at hgot
          exact ⟨s.hookRead_stale k.val n.val hstale, fun h => hgot.trans (hzero h), fun h => hgot.trans (hbypass h),
            fun h => hgot.trans (hkept h)⟩
      · exact ⟨s, exec_lpeHookRead_idle n hreads, fun _ => rfl, fun h => absurd h hreads, fun h => absurd h hreads⟩
    case ends =>
      refine ⟨State.slotEnd_idle, fun hrun hmism hper => ?_⟩
      cases hheld : s.on (LPE.STAT_HELD k.val)
      case true =>
        obtain ⟨hmarked, hzero⟩ := State.slotEnd_zeroSet ⟨hrun, hmism⟩ hheld hper
        exact ⟨hmarked, fun _ => ⟨hzero 0 (by decide), hzero 1 (by decide), hzero 2 (by decide)⟩, fun h => Bool.noConfusion h,
          fun h => Bool.noConfusion h⟩
      case false =>
        obtain ⟨hmarked, hle, hpairs⟩ := State.slotEnd_times hk ⟨hrun, hmism⟩ hheld hper
        exact ⟨hmarked, fun h => Bool.noConfusion h, fun _ => ⟨hle 0 (by decide), hle 1 (by decide), hle 2 (by decide)⟩,
          fun _ => hpairs⟩
  case writes =>
    intro s m k n bank w v coin u off
    refine ⟨fun h => ⟨⟨_, rfl, State.wrote_request rfl h⟩, ⟨_, rfl, State.wrote_request rfl h⟩⟩,
      fun h => ?commit, fun h => ?bank⟩
    case commit =>
      obtain ⟨h1, h2, h3⟩ := (s.answer .done).hookCommit_slotU k.val n.isLt v
      exact ⟨_, congrArg ok (h.busW_eq _), State.hookCommit_tag _ k n v, h1, h2, h3,
        fun j hj => (s.answer .done).hookCommit_other hj n.val v, s.hookCommit_wrote k.val n.val v .done⟩
    case bank =>
      refine ⟨_, congrArg ok (h.busW_eq _), fun hbad => ?_, fun hgood hlock => ?_, fun hgood hfree hcoin => ?_⟩
      · rw [State.bankWrite_bad hbad]
        exact ⟨State.raise_on _ _ rfl, s.wrote_answer_raise (LPE.STAT_ERR_ARG k.val) .done⟩
      · rw [State.bankWrite_locked (s := s.answer .done) hgood hlock]
        exact ⟨State.raise_on _ _ rfl, s.wrote_answer_raise (LPE.STAT_BANK_ERR k.val) .done⟩
      · subst hcoin
        obtain ⟨hwrote, hfield⟩ := State.bankWrite_effect (k := k) (b := bank) (w := w) hgood hfree .done
        obtain ⟨herrs, hwords⟩ := State.bankWrite_ends (s := s.answer .done) (k := k.val) hgood hfree
        rw [herrs]
        refine ⟨hwrote, fun e he hplace haddr => ?_, fun e he => (List.mem_filter.mp he).1, hwords, hfield⟩
        have hother := (List.mem_filter.mp he).2
        simp [hplace, haddr] at hother

end Sys2Proof.Machine
end

section
/-! SUPPORT. The memory of the generators (R147) and the judgement of a write (R11): what a generator holds after a change of
one of them, and what an access leaves that is refused, turned away or acts on that memory. -/

namespace Sys2Proof.Machine

variable {s t : State} {n : Nat} {F : Field}

theorem State.pgU_setPg_ne (s : State) {n k : Nat} (h : k ≠ n) (x : PgUnit) : (s.setPg n x).pgU k = s.pgU k :=
  FMap.get_set_ne _ _ _ _ _ h

@[simp] theorem State.setPg_rd (s : State) (n : Nat) (x : PgUnit) (o : Nat) : (s.setPg n x).rd o = s.rd o := rfl
@[simp] theorem State.setPg_f (s : State) (n : Nat) (x : PgUnit) (G : Field) : (s.setPg n x).f G = s.f G := rfl
@[simp] theorem State.setPg_on (s : State) (n : Nat) (x : PgUnit) (G : Field) : (s.setPg n x).on G = s.on G := rfl

theorem State.pgU_of_pg (h : t.pg = s.pg) (k : Nat) : t.pgU k = s.pgU k :=
  congrArg (fun g : FMap PgUnit => g.get (fun _ => PgUnit.reset) k) h

@[simp] theorem State.wrN_pgU (s : State) (o v k : Nat) : (s.wrN o v).pgU k = s.pgU k := rfl
@[simp] theorem State.setF_pgU (s : State) (F : Field) (v k : Nat) : (s.setF F v).pgU k = s.pgU k := rfl
@[simp] theorem State.flag_pgU (s : State) (F : Field) (b : Bool) (k : Nat) : (s.flag F b).pgU k = s.pgU k := rfl
@[simp] theorem State.raise_pgU (s : State) (F : Field) (k : Nat) : (s.raise F).pgU k = s.pgU k := rfl
@[simp] theorem State.cancel_pgU (s : State) (c : Instr) (k : Nat) : (s.cancel c).pgU k = s.pgU k := rfl
@[simp] theorem State.answer_pgU (s : State) (r : Resp) (k : Nat) : (s.answer r).pgU k = s.pgU k := rfl

/-- What changed registers alone after the answer and a change of a generator. -/
theorem State.sameBut.wrotePg {x : PgUnit} {r : Resp} {l : List Nat} (h : ((s.answer r).setPg n x).sameBut t l) :
    s.wrote { t with pg := s.pg } l :=
  ⟨h.1, congrArg (fun u : State => { u with lastResp := s.lastResp, pg := s.pg }) h.2⟩

/-- An access that changes a generator and writes a field. -/
theorem State.wrotePg_setF (s : State) (r : Resp) (n : Nat) (x : PgUnit) (F : Field) (v : Nat) :
    s.wrote { ((s.answer r).setPg n x).setF F v with pg := s.pg } [F.off] :=
  (State.sameBut_setF _ F v).wrotePg

/-- What changed registers alone after the answer. -/
theorem State.sameBut.wroteAnswer {r : Resp} {l : List Nat} (h : (s.answer r).sameBut t l) : s.wrote t l :=
  ⟨h.1, congrArg (fun u : State => { u with lastResp := s.lastResp }) h.2⟩

theorem State.wrote_refl (s : State) (r : Resp) : s.wrote (s.answer r) [] := ⟨fun _ _ => rfl, rfl⟩

theorem State.flagged_raise (s : State) (r : Resp) (hF : F.ok = true) : s.flagged ((s.answer r).raise F) F :=
  ⟨State.raise_on _ F hF, s.wrote_answer_raise F r⟩

theorem State.turnedAway_sysIllegal (s : State) (r : Resp) : s.turnedAway (s.answer r).sysIllegal := rfl

/-- A value that the register refuses sets the flag, whatever the state (R11). -/
theorem State.judge_bad {bad : Bool} (hbad : bad = true) (locked : Bool) (F : Field) (act : State → State) :
    s.judge bad F locked act = s.raise F := if_pos hbad

/-- A good value in a state that locks the register leaves the record (R11). -/
theorem State.judge_locked {bad locked : Bool} (hgood : bad = false) (hlocked : locked = true) (F : Field)
    (act : State → State) : s.judge bad F locked act = s.sysIllegal :=
  (if_neg (Bool.eq_false_iff.mp hgood)).trans (if_pos hlocked)

end Sys2Proof.Machine
end

section
/-! PROOF of the statement Generators: the commands of CTRL (R151, R152, R157, R166, R172, R175). -/

namespace Sys2Proof.Machine

variable {s t : State} {n : Nat} {m : Sys2Proof.Master}

/-! ## RETARGET (R151, R152, R175) -/

/-- The limits of a move leave no motion (R152). -/
theorem moveLimits_zero_iff (s : State) (n : Nat) (mv : Move) : (moveLimits (s.pgLims n) mv).zero = true
    ↔ min (orMax mv.v (s.rd (PRG.VMAX n)).toNat) (s.rd (PRG.VSLS n)).toNat = 0 ∨ orMax mv.a (s.rd (PRG.AMAX n)).toNat = 0
      ∨ orMax mv.d (s.rd (PRG.DMAX n)).toNat = 0 ∨ (s.rd (PRG.JMAX n)).toNat = 0 := by
  have hcount (x : Nat) : (x : Rat) / 16 = 0 ↔ x = 0 := by simp
  have hlims : limAt (s.pgLims n) 0 = (s.rd (PRG.VMAX n)).toNat ∧ limAt (s.pgLims n) 1 = (s.rd (PRG.AMAX n)).toNat
      ∧ limAt (s.pgLims n) 2 = (s.rd (PRG.DMAX n)).toNat ∧ limAt (s.pgLims n) 3 = (s.rd (PRG.JMAX n)).toNat
      ∧ limAt (s.pgLims n) 4 = (s.rd (PRG.VSLS n)).toNat := ⟨rfl, rfl, rfl, rfl, rfl⟩
  simp only [Limits.zero, moveLimits, Bool.or_eq_true, decide_eq_true_eq, hcount, Nat.cast_eq_zero, or_assoc, hlims]

/-- The move that a RETARGET commits: the target and the MOVE registers of this tick (R151). -/
def State.moveNow (s : State) (n : Nat) : Move :=
  ⟨s.now, s.wide (PRG.TGT_L n), (s.rd (PRG.VMOVE n)).toNat, (s.rd (PRG.AMOVE n)).toNat, (s.rd (PRG.DMOVE n)).toNat⟩

theorem State.retarget_foreign (h : s.f (PRG.CFG_OUT n) = 3 ∧ m ≠ .door) : s.retarget m n = s.raise (PRG.STAT_OWN_ERR n) :=
  if_pos h

theorem State.retarget_own (h : ¬(s.f (PRG.CFG_OUT n) = 3 ∧ m ≠ .door)) : s.retarget m n = s.commitMove n (s.moveNow n) :=
  if_neg h

/-- A commit with motion, by a generator in PROFILE outside SS1, waits behind the others. -/
theorem State.commitMove_waits {mv : Move} (hmotion : (moveLimits (s.pgLims n) mv).zero = false)
    (hsrc : s.f (PRG.CFG_SRC n) = 1) (hss1 : (s.pgU n).ss1 = none) :
    s.commitMove n mv = (s.setPg n { s.pgU n with pend := (s.pgU n).pend ++ [mv] }).raise (PRG.CTRL_RETARGET n) :=
  State.judge_good hmotion (by simp [hsrc, hss1]) _ _

theorem State.commitMove_locked {mv : Move} (hmotion : (moveLimits (s.pgLims n) mv).zero = false)
    (h : s.f (PRG.CFG_SRC n) ≠ 1 ∨ (s.pgU n).ss1 ≠ none) : s.commitMove n mv = s.sysIllegal :=
  State.judge_locked hmotion (by simpa [Option.isSome_iff_ne_none] using h) _ _

/-! ## GEAR_ARM (R166) -/

theorem State.gearArm_ramp (h : s.on (PRG.STAT_GEAR_RAMP n) = true) : s.gearArm n = s.sysIllegal := if_pos h

/-- Outside a ramp it replaces the armed change by the new ratio. -/
theorem State.gearArm_arms (h : s.on (PRG.STAT_GEAR_RAMP n) = false) : ∃ g : GearArm,
    s.gearArm n = (s.setPg n { s.pgU n with arm := some g }).flag (PRG.STAT_GEAR_ARMED n) true
      ∧ g.gn = s.rdI (PRG.GN_NEW n) ∧ g.gd = (s.rd (PRG.GD_NEW n)).toNat ∧ g.mchg = s.wide (PRG.MCHG_L n)
      ∧ g.lramp = (s.rd (PRG.LRAMP n)).toNat ∧ g.sigma = none :=
  ⟨_, if_neg (Bool.eq_false_iff.mp h), rfl, rfl, rfl, rfl, rfl⟩

/-! ## LEARN and LEARN_END (R172) -/

theorem State.learn_bins (s : State) (n : Nat) : ((s.learn n).pgU n).bins = List.replicate 8 (0, 0) := by
  rw [State.learn, State.flag_pgU, State.pgU_setPg_same]

/-- CALk, the calibrated load angle of bin `k`. -/
def calField (n k : Nat) : Field := ⟨PRG.CAL n (k / 2), 16 * (k % 2), 16⟩

/-- A bin of 64 samples or more writes its mean, another sets LEARN_INC. -/
def State.binEnd (n : Nat) (bins : List (Nat × Nat)) (t : State) (k : Nat) : State :=
  let b := bins.getD k (0, 0)
  if 64 ≤ b.1 then t.setF (calField n k) (roundHalfAway b.2 b.1).toNat else t.raise (PRG.STAT_LEARN_INC n)

theorem State.learnEnd_idle (h : s.on (PRG.STAT_LEARNING n) = false) : s.learnEnd n = s := if_pos (by simp [h])

theorem State.learnEnd_eq (h : s.on (PRG.STAT_LEARNING n) = true) :
    s.learnEnd n = (((((List.range 8).foldl (State.binEnd n (s.pgU n).bins) s).flag (PRG.STAT_LEARNING n) false).flag
      (PRG.STAT_CAL_STALE n) false).setF (PRG.RESID_RESID n) 0) := if_neg (by simp [h])

/-- The mean of `c` samples, rounded. -/
theorem roundHalfAway_mean (sum c : Nat) : (roundHalfAway sum c).toNat = (2 * sum + c) / (2 * c) := by
  rw [roundHalfAway, if_neg (by omega), Int.toNat_natCast, Int.natAbs_natCast]

theorem calField_ok (n k : Nat) : (calField n k).ok = true := by
  simp [calField, Field.ok]
  omega

theorem calField_spares (n : Nat) {j k : Nat} (h : j ≠ k) : (calField n j).spares (calField n k) = true := by
  rw [Field.spares, calField_ok, Bool.true_and, Bool.or_eq_true, decide_eq_true_eq, Field.beside_iff]
  simp only [calField, PRG.CAL]
  omega

/-- The bins below `i` have been ended, the others stand. -/
structure State.BinsEnded (n : Nat) (bins : List (Nat × Nat)) (i : Nat) (s t : State) : Prop where
  mean : ∀ k < i, 64 ≤ (bins.getD k (0, 0)).1 →
    t.f (calField n k) = (2 * (bins.getD k (0, 0)).2 + (bins.getD k (0, 0)).1) / (2 * (bins.getD k (0, 0)).1) % 65536
  short : ∀ k < i, (bins.getD k (0, 0)).1 < 64 → t.f (calField n k) = s.f (calField n k) ∧ t.on (PRG.STAT_LEARN_INC n) = true
  todo : ∀ k, i ≤ k → t.f (calField n k) = s.f (calField n k)
  pg : t.pg = s.pg

theorem State.BinsEnded.step {bins : List (Nat × Nat)} {i : Nat} (h : s.BinsEnded n bins i t) :
    s.BinsEnded n bins (i + 1) (State.binEnd n bins t i) := by
  by_cases hfull : 64 ≤ (bins.getD i (0, 0)).1
  case pos =>
    have heq : State.binEnd n bins t i = t.setF (calField n i) (roundHalfAway (bins.getD i (0, 0)).2 (bins.getD i (0, 0)).1).toNat :=
      if_pos hfull
    have hother (k : Nat) (hk : k ≠ i) : (State.binEnd n bins t i).f (calField n k) = t.f (calField n k) :=
      heq ▸ t.setF_f_spared (calField_spares n hk.symm) 0 _
    have hinc : (State.binEnd n bins t i).on (PRG.STAT_LEARN_INC n) = t.on (PRG.STAT_LEARN_INC n) := by
      rw [heq]
      refine State.setF_on_apart _ _ _ _ ?_
      simp only [calField, PRG.STAT_LEARN_INC, PRG.STAT, PRG.CAL]
      omega
    refine ⟨fun k hk hc => ?_, fun k hk hc => ?_, fun k hk => ?_, heq ▸ h.pg⟩
    · by_cases hki : k = i
      · rw [hki, heq, State.setF_f _ _ _ (calField_ok n i), roundHalfAway_mean]
        rfl
      · rw [hother k hki, h.mean k (by omega) hc]
    · have hki : k ≠ i := fun e => by rw [e] at hc; omega
      rw [hother k hki, hinc]
      exact h.short k (by omega) hc
    · rw [hother k (by omega), h.todo k (by omega)]
  case neg =>
    have heq : State.binEnd n bins t i = t.raise (PRG.STAT_LEARN_INC n) := if_neg hfull
    have hinc : (State.binEnd n bins t i).on (PRG.STAT_LEARN_INC n) = true := by
      rw [heq]
      exact State.raise_on _ _ rfl
    have hcal (k : Nat) : (State.binEnd n bins t i).f (calField n k) = t.f (calField n k) := by
      rw [heq]
      refine State.setF_f_apart _ _ _ _ ?_
      simp only [calField, PRG.STAT_LEARN_INC, PRG.STAT, PRG.CAL]
      omega
    have hpg : (State.binEnd n bins t i).pg = s.pg := by
      rw [heq, State.raise_pg]
      exact h.pg
    refine ⟨fun k hk hc => ?_, fun k hk hc => ⟨?_, hinc⟩, fun k hk => ?_, hpg⟩
    · have hki : k ≠ i := fun e => hfull (e ▸ hc)
      rw [hcal, h.mean k (by omega) hc]
    · rw [hcal]
      by_cases hki : k = i
      · exact h.todo k hki.ge
      · exact (h.short k (by omega) hc).1
    · rw [hcal, h.todo k (by omega)]

theorem State.binsEnded (s : State) (n : Nat) (bins : List (Nat × Nat)) (i : Nat) :
    s.BinsEnded n bins i ((List.range i).foldl (State.binEnd n bins) s) := by
  induction i with
  | zero => exact ⟨fun k hk => absurd hk (Nat.not_lt_zero k), fun k hk => absurd hk (Nat.not_lt_zero k), fun _ _ => rfl, rfl⟩
  | succ i ih =>
    rw [List.range_succ, List.foldl_append]
    exact ih.step

/-- LEARN_END writes what the bins give, and clears LEARNING, CAL_STALE and RESID. -/
theorem State.learnEnd_effect (h : s.on (PRG.STAT_LEARNING n) = true) :
    (s.learnEnd n).on (PRG.STAT_LEARNING n) = false ∧ (s.learnEnd n).on (PRG.STAT_CAL_STALE n) = false
      ∧ (s.learnEnd n).f (PRG.RESID_RESID n) = 0 ∧ (s.learnEnd n).pg = s.pg
      ∧ ∀ k < 8, let b := (s.pgU n).bins.getD k (0, 0)
        (64 ≤ b.1 → (s.learnEnd n).f (calField n k) = (2 * b.2 + b.1) / (2 * b.1) % 65536)
          ∧ (b.1 < 64 → (s.learnEnd n).f (calField n k) = s.f (calField n k)
            ∧ (s.learnEnd n).on (PRG.STAT_LEARN_INC n) = true) := by
  have hbins := s.binsEnded n (s.pgU n).bins 8
  have heq := State.learnEnd_eq h
  generalize (List.range 8).foldl (State.binEnd n (s.pgU n).bins) s = w at heq hbins
  generalize hstarted : w.flag (PRG.STAT_LEARNING n) false = x at heq
  generalize hcleared : x.flag (PRG.STAT_CAL_STALE n) false = y at heq
  have hresid : y.UnitBut n [PRG.RESID_RESID 0] (s.learnEnd n) := heq ▸ .setF (.refl y) (PRG.RESID_RESID 0) 0
  have hstale : x.UnitBut n [PRG.STAT_CAL_STALE 0, PRG.RESID_RESID 0] (s.learnEnd n) :=
    .trans (hcleared ▸ .flag (.refl x) (PRG.STAT_CAL_STALE 0) false) hresid
  have hends : w.UnitBut n [PRG.STAT_LEARNING 0, PRG.STAT_CAL_STALE 0, PRG.RESID_RESID 0] (s.learnEnd n) :=
    .trans (hstarted ▸ .flag (.refl w) (PRG.STAT_LEARNING 0) false) hstale
  have hcal (k : Nat) (hk : k < 8) : (s.learnEnd n).f (calField n k) = w.f (calField n k) := by
    have hoff : (calField n k).off ≠ PRG.STAT n ∧ (calField n k).off ≠ PRG.RESID n := by
      simp only [calField, PRG.CAL, PRG.STAT, PRG.RESID]
      omega
    rw [heq, State.setF_f_apart _ _ (PRG.RESID_RESID n) _ hoff.2, ← hcleared, ← hstarted, State.flag, State.flag,
      State.setF_f_apart _ _ (PRG.STAT_CAL_STALE n) _ hoff.1, State.setF_f_apart _ _ (PRG.STAT_LEARNING n) _ hoff.1]
  have hinc : (s.learnEnd n).on (PRG.STAT_LEARN_INC n) = w.on (PRG.STAT_LEARN_INC n) := hends.on (PRG.STAT_LEARN_INC 0)
  refine ⟨(hstale.on (PRG.STAT_LEARNING 0)).trans ?_, (hresid.on (PRG.STAT_CAL_STALE 0)).trans ?_, ?_, ?_,
    fun k hk => ⟨fun hc => ?_, fun hc => ?_⟩⟩
  · rw [← hstarted]
    exact State.flag_on _ (PRG.STAT_LEARNING n) _ rfl
  · rw [← hcleared]
    exact State.flag_on _ (PRG.STAT_CAL_STALE n) _ rfl
  · rw [heq]
    exact State.setF_f _ _ _ rfl
  · rw [heq, State.setF_pg, ← hcleared, State.flag_pg, ← hstarted, State.flag_pg]
    exact hbins.pg
  · rw [hcal k hk]
    exact hbins.mean k hk hc
  · rw [hcal k hk, hinc]
    exact hbins.short k hk hc

end Sys2Proof.Machine
end

section
/-! PROOF of the statement Generators: CFG, the 64-bit values and the knots (R148, R156, R157, R175), and the statement. -/

namespace Sys2Proof.Machine

variable {s t : State} {n : Nat} {m : Sys2Proof.Master} {r : PgWide} {v : Word}

/-! ## CFG (R148, R175) -/

/-- With a source in force a change of another field is turned away (R11). -/
theorem State.prgCfgWrite_locked (hgood : prgCfgBad n v = false) (hsrc : s.f (PRG.CFG_SRC n) ≠ 0)
    (hother : getBits 2 18 v ≠ getBits 2 18 (s.rd (PRG.CFG n))) : s.prgCfgWrite n v = s.sysIllegal := by
  have hsrc' : getBits 0 2 (s.rd (PRG.CFG n)) ≠ 0 := hsrc
  unfold State.prgCfgWrite
  exact State.judge_locked hgood (by simp [hother, hsrc']) _ _

/-- A generator that rests in IDLE, outside TRACK and SS1, takes an acceptable value. -/
theorem State.prgCfgWrite_atRest (hgood : prgCfgBad n v = false) (hsrc : s.f (PRG.CFG_SRC n) = 0)
    (htrack : s.on (PRG.STAT_TRACK n) = false) (hss1 : (s.pgU n).ss1 = none) (hv : (s.pgU n).v = 0) (ha : (s.pgU n).a = 0) :
    s.prgCfgWrite n v = s.store (PRG.CFG n) v := by
  have hsrc' : getBits 0 2 (s.rd (PRG.CFG n)) = 0 := hsrc
  unfold State.prgCfgWrite
  exact State.judge_good hgood (by simp [hsrc', htrack, hss1, hv, ha]) _ _

/-! ## Writes of a 64-bit value (R151, R175) -/

/-- At most the note of the limits that stood before this tick differs. -/
structure State.LimNoted (n : Nat) (s t : State) : Prop where
  unit : t.pgU n = { s.pgU n with limOld := (t.pgU n).limOld }
  others : ∀ k, k ≠ n → t.pgU k = s.pgU k
  rest : t = { s with pg := t.pg }

theorem State.LimNoted.refl (s : State) : s.LimNoted n s := ⟨rfl, fun _ _ => rfl, rfl⟩

theorem State.LimNoted.bankRd (h : s.LimNoted n t) (m : Sys2Proof.Master) (o : Nat) : t.bankRd m o = s.bankRd m o := by
  rw [h.rest]
  rfl

theorem State.LimNoted.setPg (s : State) (l : Option (Nat × List Nat)) :
    s.LimNoted n (s.setPg n { s.pgU n with limOld := l }) :=
  ⟨by rw [State.pgU_setPg_same], fun _ hk => s.pgU_setPg_ne hk _, rfl⟩

theorem State.pgLimTouch_noted (s : State) (n : Nat) : s.LimNoted n (s.pgLimTouch n) := by
  unfold State.pgLimTouch
  dsimp only
  split
  · split
    · exact .refl s
    · exact .setPg s _
  · exact .setPg s _

/-- POS and GOFS do not change by a write. -/
theorem State.pgWideWrite_readOnly (h : r = .pos ∨ r = .gofs) (hi : Bool) : s.pgWideWrite m n r hi v = s := if_pos h

theorem State.pgWideWrite_lowEq (h : ¬(r = .pos ∨ r = .gofs)) : s.pgWideWrite m n r false v
    = (s.bankWr m (pgWideOff n r) v).bankWr m (wideMark (pgWideOff n r)) 1#32 :=
  (if_neg h).trans (if_pos rfl)

/-- The lower word that a write of the upper one stores: the master's own where one waits, else the old one. -/
def State.wideLow (s : State) (m : Sys2Proof.Master) (off : Nat) : Word :=
  if s.bankRd m (wideMark off) = 0#32 then s.rd off else s.bankRd m off

/-- The value that a write of the upper word `v` stores. -/
def State.wideNew (s : State) (m : Sys2Proof.Master) (off : Nat) (v : Word) : Int :=
  signedOf 64 (v.toNat * 2 ^ 32 + (s.wideLow m off).toNat)

/-- A new PLO or PHI leaves no room between them. -/
def State.wideCrossed (s : State) (n : Nat) (r : PgWide) (new : Int) : Prop :=
  (r = .plo ∧ s.wide (PRG.PHI_L n) ≤ new) ∨ (r = .phi ∧ new ≤ s.wide (PRG.PLO_L n))

/-- The mark of a waiting lower word goes. -/
def State.markCleared (s : State) (m : Sys2Proof.Master) (off : Nat) : State := s.bankWr m (wideMark off) 0#32

/-- The model's test of that. -/
def State.wideBad (s : State) (n : Nat) (r : PgWide) (new : Int) : Bool :=
  match r with
  | .plo => decide (s.wide (PRG.PHI_L n) ≤ new)
  | .phi => decide (new ≤ s.wide (PRG.PLO_L n))
  | _ => false

theorem State.wideBad_iff {new : Int} : s.wideBad n r new = true ↔ s.wideCrossed n r new := by
  cases r <;> simp [State.wideBad, State.wideCrossed]

theorem State.markCleared_rd (s : State) (m : Sys2Proof.Master) (off o : Nat) : (s.markCleared m off).rd o = s.rd o :=
  State.bankWr_rd _ _ _ _ _

theorem State.markCleared_wide (s : State) (m : Sys2Proof.Master) (off o : Nat) : (s.markCleared m off).wide o = s.wide o := by
  simp only [State.wide, State.markCleared_rd]

theorem State.markCleared_crossed {off : Nat} {new : Int} :
    (s.markCleared m off).wideCrossed n r new ↔ s.wideCrossed n r new := by
  simp only [State.wideCrossed, State.markCleared_wide]

/-- A write of the upper word stores both words, unless PLO and PHI would cross. -/
theorem State.pgWideWrite_highEq (hw : ¬(r = .pos ∨ r = .gofs)) : s.pgWideWrite m n r true v
    = if (s.markCleared m (pgWideOff n r)).wideBad n r (s.wideNew m (pgWideOff n r) v)
      then (s.markCleared m (pgWideOff n r)).raise (PRG.STAT_ERR_ARG n)
      else ((if r = .plo ∨ r = .phi then (s.markCleared m (pgWideOff n r)).pgLimTouch n else s.markCleared m (pgWideOff n r)).wr
        (pgWideOff n r) (s.wideLow m (pgWideOff n r))).wr (pgWideOff n r + 4) v :=
  (if_neg hw).trans (if_neg Bool.false_ne_true)

/-- A refused value takes the mark of a waiting word, too. -/
theorem State.flagged_markCleared (s : State) (r : Resp) (m : Sys2Proof.Master) (off : Nat) {F : Field} (hF : F.ok = true) :
    s.flagged { ((s.answer r).markCleared m off).raise F with bank := s.bank } F := by
  obtain ⟨b, hb⟩ : ∃ b, (s.answer r).markCleared m off = { s.answer r with bank := b } := ⟨_, rfl⟩
  rw [hb]
  exact ⟨State.raise_on _ F hF, s.wrote_answer_raise F r⟩

theorem State.pgWideWrite_crossed (h : s.wideCrossed n r (s.wideNew m (pgWideOff n r) v)) :
    s.pgWideWrite m n r true v = (s.markCleared m (pgWideOff n r)).raise (PRG.STAT_ERR_ARG n) := by
  have hw : ¬(r = .pos ∨ r = .gofs) := by
    rcases h with ⟨rfl, -⟩ | ⟨rfl, -⟩ <;> simp
  rw [State.pgWideWrite_highEq hw, if_pos (State.wideBad_iff.mpr (State.markCleared_crossed.mpr h))]

/-- Another value is stored in both words. -/
theorem State.pgWideWrite_stored (hw : ¬(r = .pos ∨ r = .gofs)) (h : ¬s.wideCrossed n r (s.wideNew m (pgWideOff n r) v)) :
    ∃ w : State, (s.markCleared m (pgWideOff n r)).LimNoted n w
      ∧ (r = .tgt ∨ r = .mchg → w = s.markCleared m (pgWideOff n r))
      ∧ s.pgWideWrite m n r true v = (w.wr (pgWideOff n r) (s.wideLow m (pgWideOff n r))).wr (pgWideOff n r + 4) v := by
  refine ⟨_, ?_, fun htgt => ?_, (State.pgWideWrite_highEq hw).trans
    (if_neg fun hbad => h (State.markCleared_crossed.mp (State.wideBad_iff.mp hbad)))⟩
  · split
    · exact State.pgLimTouch_noted _ n
    · exact .refl _
  · rcases htgt with rfl | rfl <;> simp

/-- What a write of both words leaves. -/
theorem State.LimNoted.bothWords {u w : State} {off : Nat} {lo : Word} (h : u.LimNoted n w) :
    let t := (w.wr off lo).wr (off + 4) v
    t.rd off = lo ∧ t.rd (off + 4) = v ∧ u.sameBut { t with pg := u.pg } [off, off + 4]
      ∧ (∀ k, k ≠ n → t.pgU k = u.pgU k) ∧ t.pgU n = { u.pgU n with limOld := (t.pgU n).limOld } := by
  refine ⟨?_, State.rd_wr_same _ _ _, ⟨fun o ho => ?_, ?_⟩, h.others, h.unit⟩
  · rw [State.rd_wr_ne _ _ _ _ (by omega)]
    exact State.rd_wr_same _ _ _
  · simp only [List.mem_cons, List.not_mem_nil, or_false, not_or] at ho
    refine (State.rd_wr_ne _ _ _ _ ho.2).trans ((State.rd_wr_ne _ _ _ _ ho.1).trans ?_)
    rw [h.rest]
    rfl
  · rw [h.rest]
    rfl

/-! ## Reads of a 64-bit value (R35, R175) -/

/-- A read of POS takes VEL and ACC too. -/
theorem pgPos_takes : ∀ g : Fin 128, [PRG.VEL g.val, PRG.ACC g.val] ⊆ snapOffs (PRG.POS_L g.val) := by decide +kernel

/-! ## Knots (R156, R157) -/

/-- The eight words of a push: seven of the master's copies and the one written. -/
def State.knotWord (s : State) (m : Sys2Proof.Master) (n : Nat) (v : Word) (i : Nat) : Word :=
  if i = 7 then v else s.bankRd m (PRG.KNOT n i)

theorem State.knotPush_eq (s : State) (m : Sys2Proof.Master) (n : Nat) (v : Word) : s.knotPush m n v
    = (s.bankWr m (PRG.KNOT n 7) v).pushKnot n ((List.range 8).map (s.knotWord m n v)) :=
  congrArg ((s.bankWr m (PRG.KNOT n 7) v).pushKnot n) (s.knot_words m n v)

theorem getD_map_range {w : Nat → Word} {i : Nat} (hi : i < 8) : ((List.range 8).map w).getD i 0#32 = w i := by
  simp [List.getD, hi]

variable {w : Nat → Word}

theorem State.pushKnot_ss1 (h : (s.pgU n).ss1 ≠ none) (l : List Word) : s.pushKnot n l = s.sysIllegal :=
  if_pos (Option.isSome_iff_ne_none.mpr h)

theorem State.pushKnot_refused (hss1 : (s.pgU n).ss1 = none)
    (h : ¬((s.pgU n).src = 2 ∧ getBits 1 31 (w 1) = 0 ∧ w 6 = 0#32 ∧ w 7 = 0#32)) :
    s.pushKnot n ((List.range 8).map w) = s.knotRefused n (PRG.STAT_KNOT_ERR n) := by
  unfold State.pushKnot
  simp only [getD_map_range (w := w) (show 1 < 8 by decide), getD_map_range (w := w) (show 6 < 8 by decide),
    getD_map_range (w := w) (show 7 < 8 by decide)]
  rw [if_neg (by simp [hss1]), if_pos]
  simp only [Bool.or_eq_true, decide_eq_true_eq]
  tauto

theorem State.pushKnot_late (hss1 : (s.pgU n).ss1 = none) (hsrc : (s.pgU n).src = 2)
    (hplain : getBits 1 31 (w 1) = 0 ∧ w 6 = 0#32 ∧ w 7 = 0#32) (hqueue : (s.pgU n).queue ≠ [])
    (hlate : knotAhead (w 0).toNat (s.pgU n).tau ≤ 0) :
    s.pushKnot n ((List.range 8).map w) = s.knotRefused n (PRG.STAT_KNOT_LATE n) := by
  obtain ⟨h1, h6, h7⟩ := hplain
  unfold State.pushKnot
  simp only [getD_map_range (w := w) (show 0 < 8 by decide), getD_map_range (w := w) (show 1 < 8 by decide),
    getD_map_range (w := w) (show 6 < 8 by decide), getD_map_range (w := w) (show 7 < 8 by decide)]
  rw [if_neg (by simp [hss1]), if_neg (by simp [hsrc, h1, h6, h7])]
  exact if_pos (by simpa [hqueue] using hlate)

/-- A refused knot is noted and counted, and no generator changes. -/
theorem State.knotRefused_effect (s : State) (n : Nat) {F : Field} (hF : F.ok = true) (hoff : F.off = PRG.STAT n) :
    (s.knotRefused n F).on F = true ∧ (s.knotRefused n F).pg = s.pg
      ∧ (s.knotRefused n F).f (PRG.CNT_KNOT_ERR_CNT n) = min (s.f (PRG.CNT_KNOT_ERR_CNT n) + 1) 65535 := by
  have hcnt : (PRG.CNT_KNOT_ERR_CNT n).off ≠ F.off := by
    rw [hoff]
    simp only [PRG.CNT_KNOT_ERR_CNT, PRG.CNT, PRG.STAT]
    omega
  have hmax : 2 ^ (PRG.CNT_KNOT_ERR_CNT n).w - 1 = 65535 := rfl
  rw [State.knotRefused]
  refine ⟨(State.setF_on_apart F _ _ _ (Ne.symm hcnt)).trans (s.raise_on F hF), by rw [State.bump_pg, State.raise_pg], ?_⟩
  rw [State.bump_f _ _ rfl, hmax, State.raise, State.setF_f_apart _ _ F _ hcnt]

/-- A push that joins a queue changes that and the note of the pushes of this tick. -/
theorem PgUnit.push_eq (x : PgUnit) (hqueue : x.queue ≠ []) (now t : Nat) (k : Knot) : x.push now ⟨t, false, some k⟩
    = { x with pushed := (x.push now ⟨t, false, some k⟩).pushed, queue := x.queue ++ [k] } := by
  have hempty : x.queue.isEmpty = false := by simpa using hqueue
  have henqueue : x.enqueue ⟨t, false, some k⟩ = { x with queue := x.queue ++ [k] } := by
    unfold PgUnit.enqueue PgUnit.keptQueue
    simp [hempty]
  unfold PgUnit.push
  split
  rw [henqueue]

theorem State.starveTimer_regs (s : State) (n : Nat) : (s.starveTimer n).regs = s.regs := by
  unfold State.starveTimer
  split <;> rfl

/-- A knot that fits joins the queue, and no register changes. -/
theorem State.knotFits.joins {q : Knot} (h : s.knotFits n w q) :
    let t := s.pushKnot n ((List.range 8).map w)
    t.regs = s.regs ∧ (∀ k, k ≠ n → t.pgU k = s.pgU k)
      ∧ t.pgU n = { s.pgU n with pushed := (t.pgU n).pushed, queue := (s.pgU n).queue ++ [pushedKnot s.now w] } := by
  have hqueue : (s.pgU n).queue ≠ [] := fun e => by simpa [e] using h.last
  intro t
  have ht : t = _ := h.pushes
  refine ⟨?_, fun k hk => ?_, ?_⟩
  · rw [ht, State.starveTimer_regs]
    rfl
  · rw [ht, State.starveTimer_pgU, State.pgU_setPg_ne _ hk]
  · rw [ht, State.starveTimer_pgU, State.pgU_setPg_same]
    exact PgUnit.push_eq _ hqueue _ _ _

/-! ## The statement -/

/-- Settles O32: each command of CTRL and each register access by the lemma of what it does to the state that the bus has
answered. -/
theorem generators : Obligations.Generators := by
  refine ⟨?commands, ?registers⟩
  case commands =>
    intro s m n h u mv foreign least lim noMotion
    refine ⟨⟨_, congrArg ok (h.busW_eq _), ?retarget⟩, ⟨_, rfl, State.wrote_request rfl h⟩,
      ⟨_, congrArg ok (h.busW_eq _), ?gear⟩,
      ⟨_, congrArg ok (h.busW_eq _), State.flag_on _ _ _ rfl, fun k hk => ?bins,
        s.wrotePg_setF .done n.val _ (PRG.STAT_LEARNING n.val) 1⟩,
      ⟨_, congrArg ok (h.busW_eq _), ?learned⟩⟩
    case retarget =>
      have hzero : (moveLimits ((s.answer .done).pgLims n.val) ((s.answer .done).moveNow n.val)).zero = true ↔ noMotion :=
        moveLimits_zero_iff s n.val mv
      have hfalse (hm : ¬noMotion) : (moveLimits ((s.answer .done).pgLims n.val) ((s.answer .done).moveNow n.val)).zero = false :=
        Bool.eq_false_iff.mpr (mt hzero.mp hm)
      have hown (hf : ¬foreign) := State.retarget_own (s := s.answer .done) (n := n.val) (m := m) hf
      refine ⟨fun hf => ?_, fun hf hm => ?_, fun hf hm hlock => ?_, fun hf hm hsrc hss1 => ?_⟩
      · rw [State.retarget_foreign (s := s.answer .done) hf]
        exact s.flagged_raise .done rfl
      · rw [hown hf, State.commitMove, State.judge_bad (hzero.mpr hm)]
        exact s.flagged_raise .done rfl
      · rw [hown hf, State.commitMove_locked (hfalse hm) hlock]
        exact s.turnedAway_sysIllegal .done
      · rw [hown hf, State.commitMove_waits (hfalse hm) hsrc hss1]
        refine ⟨State.raise_on _ _ rfl, State.pgU_setPg_same _ _ _, fun k hk => ?_,
          s.wrotePg_setF .done n.val _ (PRG.CTRL_RETARGET n.val) 1⟩
        rw [State.raise_pgU, State.pgU_setPg_ne _ hk, State.answer_pgU]
    case gear =>
      refine ⟨fun hramp => ?_, fun hramp => ?_⟩
      · rw [State.gearArm_ramp (s := s.answer .done) hramp]
        exact s.turnedAway_sysIllegal .done
      · obtain ⟨g, heq, hg⟩ := State.gearArm_arms (s := s.answer .done) hramp
        rw [heq]
        refine ⟨State.flag_on _ _ _ rfl, s.wrotePg_setF .done n.val _ (PRG.STAT_GEAR_ARMED n.val) 1, fun k hk => ?_, g, ?_, hg⟩
        · rw [State.flag_pgU, State.pgU_setPg_ne _ hk, State.answer_pgU]
        · rw [State.flag_pgU, State.pgU_setPg_same, State.answer_pgU]
    case bins =>
      rw [State.learn_bins, List.getD_eq_getElem _ _ (by simpa using hk)]
      exact List.getElem_replicate _
    case learned =>
      refine ⟨fun hidle => ?_, fun hlearn => ?_⟩
      · rw [State.learnEnd_idle (s := s.answer .done) hidle]
        exact s.wrote_refl .done
      · obtain ⟨hoff, hstale, hresid, hpg, hbins⟩ := State.learnEnd_effect (s := s.answer .done) hlearn
        exact ⟨hoff, hstale, hresid, hpg, fun k => hbins k.val k.isLt⟩
  case registers =>
    intro s m n v r u off lo new w plain
    refine ⟨fun h => ⟨_, congrArg ok (h.busW_eq _), ?cfg⟩, fun h => ⟨_, congrArg ok (h.busW_eq _), ?low⟩,
      fun h => ⟨_, congrArg ok (h.busW_eq _), ?high⟩, fun h => ⟨_, rfl, ?read⟩,
      fun h => ⟨_, congrArg ok (h.busW_eq _), ?knot⟩⟩
    case cfg =>
      refine ⟨fun hbad => ?_, fun hgood hsrc hother => ?_, fun hgood hsrc htrack hss1 hv ha => ⟨?_, ?_⟩⟩
      · rw [State.prgCfgWrite, State.judge_bad hbad]
        exact s.flagged_raise .done rfl
      · rw [State.prgCfgWrite_locked (s := s.answer .done) hgood hsrc hother]
        exact s.turnedAway_sysIllegal .done
      · exact State.prgCfgWrite_cfg (s := s.answer .done) hgood hsrc htrack hss1 hv ha
      · rw [State.prgCfgWrite_atRest (s := s.answer .done) hgood hsrc htrack hss1 hv ha]
        exact ((s.answer .done).store_sameBut _ v 0#32).wroteAnswer
    case low =>
      by_cases hro : r = .pos ∨ r = .gofs
      · rw [State.pgWideWrite_readOnly hro]
        exact ⟨rfl, fun _ => s.wrote_refl .done, fun hp hg => absurd hro (by simp [hp, hg])⟩
      · refine ⟨?_, fun h => absurd h hro, fun hp hg => ⟨State.pgWideWrite_low hp hg v, ?_⟩⟩
        · rw [State.pgWideWrite_lowEq hro, State.bankWr_regs, State.bankWr_regs]
          rfl
        · rw [State.pgWideWrite_lowEq hro, State.bankRd_bankWr_same]
          decide
    case high =>
      refine ⟨fun hro => ?_, fun hcross => ?_, fun hgood => ?_⟩
      · rw [State.pgWideWrite_readOnly hro]
        exact s.wrote_refl .done
      · rw [State.pgWideWrite_crossed (s := s.answer .done) hcross]
        exact s.flagged_markCleared .done m off rfl
      · have hro : ¬(r = .pos ∨ r = .gofs) := by
          rintro (rfl | rfl) <;> simp at hgood
        have hcross : ¬(s.answer .done).wideCrossed n.val r new := by
          rintro (⟨rfl, hle⟩ | ⟨rfl, hle⟩)
          · have hlt : new < s.wide (PRG.PHI_L n.val) := by simpa using hgood
            exact absurd hle (not_le.mpr hlt)
          · have hlt : s.wide (PRG.PLO_L n.val) < new := by simpa using hgood
            exact absurd hle (not_le.mpr hlt)
        obtain ⟨x, hnoted, hsame, heq⟩ := State.pgWideWrite_stored (s := s.answer .done) hro hcross
        obtain ⟨hlo, hhi, hbut, hothers, hunit⟩ := hnoted.bothWords (off := off) (lo := (s.answer .done).wideLow m off) (v := v)
        rw [heq]
        refine ⟨hlo, hhi, ?_, ?_, hothers, hunit, fun htgt => ?_⟩
        · rw [State.wr_bankRd, State.wr_bankRd, hnoted.bankRd]
          exact State.bankRd_bankWr_same _ _ _ _
        · exact ⟨fun o ho => (hbut.1 o ho).trans (State.markCleared_rd _ _ _ _),
            congrArg (fun y : State => { y with lastResp := s.lastResp, bank := s.bank }) hbut.2⟩
        · rw [hsame htgt]
          rfl
    case read =>
      obtain ⟨hdata, htaken, hwrote⟩ := State.busRead_snapshot h (pgWide_plain n r) (l := [pgWideOff n.val r + 4])
        (by simpa using pgWide_takes n r)
      refine ⟨hdata, htaken _ (List.mem_singleton_self _), hwrote, fun hpos => ?_⟩
      subst hpos
      obtain ⟨-, hspeeds, -⟩ := State.busRead_snapshot h (pgWide_plain n .pos) (pgPos_takes n)
      exact ⟨hspeeds _ (by simp), hspeeds _ (by simp)⟩
    case knot =>
      let x := (s.answer .done).bankWr m (PRG.KNOT n.val 7) v
      have hpg : x.pgU n.val = u := by
        rw [State.pgU, State.bankWr_pg]
        rfl
      have hpush : (s.answer .done).knotPush m n.val v = x.pushKnot n.val ((List.range 8).map w) :=
        (s.answer .done).knotPush_eq m n.val v
      rw [hpush]
      refine ⟨fun hss1 => ?_, fun hss1 hno => ?_, fun hss1 hsrc hplain hqueue hlate => ?_,
        fun l hss1 hsrc hplain hlast hahead hadds hapart hnear hroom => ?_⟩
      · rw [State.pushKnot_ss1 (by rwa [hpg])]
        rfl
      · rw [State.pushKnot_refused (by rwa [hpg]) (by rwa [hpg])]
        obtain ⟨hon, hpgs, hcnt⟩ := x.knotRefused_effect n.val (F := PRG.STAT_KNOT_ERR n.val) rfl rfl
        exact ⟨hon, hpgs.trans (State.bankWr_pg _ _ _ _), hcnt⟩
      · rw [State.pushKnot_late (by rwa [hpg]) (by rwa [hpg]) hplain (by rwa [hpg]) (by rwa [hpg])]
        obtain ⟨hon, hpgs, -⟩ := x.knotRefused_effect n.val (F := PRG.STAT_KNOT_LATE n.val) rfl rfl
        exact ⟨hon, hpgs.trans (State.bankWr_pg _ _ _ _)⟩
      · have hfits : s.knotFits n.val w l := ⟨hss1, hsrc, hplain, hlast, hahead, hadds, hapart, hnear, hroom⟩
        have hframe : x.frameUnits = s.frameUnits := by rw [State.frameUnits, State.bankWr_f, State.answer_f, State.frameUnits]
        obtain ⟨hregs, hothers, hunit⟩ := (hfits.of_same hpg hframe).joins
        rw [hpg] at hunit
        exact ⟨hregs.trans (State.bankWr_regs _ _ _ _),
          fun k hk => (hothers k hk).trans (State.pgU_of_pg ((s.answer .done).bankWr_pg m _ v) k), hunit⟩

end Sys2Proof.Machine
end

section
/-! PROOF of the statement GeneratorUpdateAndStepping: the choppers and standstill (R168, R169). -/

namespace Sys2Proof.Machine

variable {s t : State} {p b : Nat}

/-! ## Choppers as memory -/

theorem State.chop_of_pg (h : t.pg = s.pg) (p b : Nat) : t.chop p b = s.chop p b := by
  rw [State.chop, State.pgU_of_pg h, State.chop]

/-- A change of one chopper of a port leaves the other. -/
theorem State.chop_setChop_other (s : State) (p : Nat) {a b : Nat} (h : b = 0 ↔ a ≠ 0) (c : Chop) :
    (s.setChop p a c).chop p b = s.chop p b := by
  unfold State.chop State.setChop
  rw [State.pgU_setPg_same]
  by_cases hb : b = 0
  · simp [hb, h.mp hb]
  · simp [hb, not_ne_iff.mp (mt h.mpr hb)]

theorem State.legTo_now (s : State) (p k : Nat) (v : Lvl) (x : Nat) : (s.legTo p k v x).now = s.now := by
  unfold State.legTo
  dsimp only
  split
  · rfl
  · cases v <;> dsimp only <;> split_ifs <;> rfl

theorem State.bridgeLeg_now (s : State) (p k : Nat) (v : Lvl) : (s.bridgeLeg p k v).now = s.now := by
  unfold State.bridgeLeg
  dsimp only
  split_ifs
  · rfl
  · rfl
  · exact State.legTo_now _ _ _ _ _

theorem State.bridgeSet_now (s : State) (p b v : Nat) : (s.bridgeSet p b v).now = s.now :=
  (State.bridgeLeg_now _ _ _ _).trans (State.bridgeLeg_now _ _ _ _)

theorem State.bridgeSet_chop (s : State) (p b v q a : Nat) : (s.bridgeSet p b v).chop q a = s.chop q a :=
  State.chop_of_pg ((State.LegKeeps.refl s).bridgeSet p b v).pg q a

theorem State.chopTimer_chop (s : State) (p b dt q a : Nat) : (s.chopTimer p b dt).chop q a = s.chop q a := rfl

theorem State.chopTimer_due (s : State) (p : Fin 96) (b : Fin 2) (dt : Nat) :
    (⟨s.now + dt, .cmd (.chopperTimerEnd p b)⟩ : Due) ∈ (s.chopTimer p.val b.val dt).agenda := by
  have hp : Fin.ofNat 96 p.val = p := Fin.ext (Nat.mod_eq_of_lt p.isLt)
  have hb : Fin.ofNat 2 b.val = b := Fin.ext (Nat.mod_eq_of_lt b.isLt)
  rw [State.chopTimer, State.mem_resched_agenda, hp, hb]
  exact .inl rfl

theorem State.raise_chop (s : State) (F : Field) (q a : Nat) : (s.raise F).chop q a = s.chop q a := rfl

/-! ## The comparison in ON and the end of FAST (R168) -/

/-- A chopper that takes the state `c` with its bridge in state `v` for `dt` ticks. -/
theorem State.chop_timed (s : State) (p : Fin 96) (b : Fin 2) (c : Chop) (v dt : Nat) :
    let t := ((s.setChop p.val b.val c).bridgeSet p.val b.val v).chopTimer p.val b.val dt
    t.chop p.val b.val = c ∧ (⟨s.now + dt, .cmd (.chopperTimerEnd p b)⟩ : Due) ∈ t.agenda := by
  have hdue := ((s.setChop p.val b.val c).bridgeSet p.val b.val v).chopTimer_due p b dt
  rw [State.bridgeSet_now] at hdue
  refine ⟨?_, hdue⟩
  rw [State.chopTimer_chop, State.bridgeSet_chop, State.chop_setChop]

/-- The current along the reference. -/
def alongRef (ref x : Int) : Int := if 0 < ref then x else -x

/-- The comparison turns ON into FAST, or does nothing. -/
theorem State.chopCompare_eq {x : Int} (hx : s.coilValue p b = some x) : s.chopCompare p b
    = if (s.chop p b).st = .on ∧ (s.chop p b).since + s.f (PRG.CHOP_TBLANK p) ≤ s.now
        ∧ ((s.chop p b).ref.natAbs : Int) ≤ alongRef (s.chop p b).ref x
      then ((s.setChop p b { s.chop p b with st := .fast, since := s.now }).bridgeSet p b
        (chopDrive (s.chop p b).ref true)).chopTimer p b (s.f (PRG.CHOP_TOFF p) * s.f (PRG.CHOP_FAST p) / 100)
      else s := by
  unfold State.chopCompare
  simp only [hx]
  rfl

theorem State.chopCompare_noValue (h : s.coilValue p b = none) : s.chopCompare p b = s := by
  unfold State.chopCompare
  simp only [h]

theorem State.chopTimeout_fast (hstep : s.stepping p = true) (hfast : (s.chop p b).st = .fast) : s.chopTimeout p b
    = ((s.setChop p b { s.chop p b with st := .slow }).bridgeSet p b 3).chopTimer p b
      ((s.chop p b).since + s.f (PRG.CHOP_TOFF p) - s.now) := by
  unfold State.chopTimeout
  simp only [hstep, hfast, Bool.not_true, Bool.false_eq_true, if_false]

theorem State.chopTimeout_idle (h : s.stepping p = false ∨ (s.chop p b).st ≠ .fast ∧ (s.chop p b).st ≠ .slow) :
    s.chopTimeout p b = s := by
  unfold State.chopTimeout
  rcases h with h | ⟨hfast, hslow⟩
  · exact if_pos (by simp [h])
  · dsimp only
    split
    · rfl
    · split
      · exact absurd ‹_› hfast
      · exact absurd ‹_› hslow
      · rfl

theorem exec_chopperCompare (s : State) (p : Fin 96) (b : Fin 2) : exec (.chopperCompare p b) s
    = .next (if s.stepping p.val then s.chopCompare p.val b.val else s) := by
  show (if s.stepping p.val then ok (s.chopCompare p.val b.val) else ok s) = _
  split <;> rfl

/-! ## Standstill (R169) -/

/-- One chopper rests, with its bridge in state `v`. -/
def State.restOne (v : Nat) (t : State) (b p : Nat) : State :=
  ((t.setChop p b { t.chop p b with st := .rest }).chopStopTimer p b).bridgeSet p b v

theorem State.chopRest_eq (s : State) (p v : Nat) : s.chopRest p v = (s.restOne v 0 p).restOne v 1 p := by
  unfold State.chopRest State.restOne
  rw [List.foldl_cons, List.foldl_cons, List.foldl_nil]

theorem State.restOne_regs (s : State) (v b p : Nat) : (s.restOne v b p).regs = s.regs :=
  ((State.LegKeeps.refl _).bridgeSet p b v).regs

theorem State.restOne_chop (s : State) (v b p : Nat) : (s.restOne v b p).chop p b = { s.chop p b with st := .rest } :=
  (State.bridgeSet_chop _ _ _ _ _ _).trans (s.chop_setChop p b _)

theorem State.restOne_chop_other (s : State) (v p : Nat) {a b : Nat} (h : b = 0 ↔ a ≠ 0) :
    (s.restOne v a p).chop p b = s.chop p b :=
  (State.bridgeSet_chop _ _ _ _ _ _).trans (s.chop_setChop_other p h _)

/-- Both choppers rest, with their references as they were. -/
theorem State.chopRest_chop (s : State) (p v : Nat) (b : Fin 2) :
    (s.chopRest p v).chop p b.val = { s.chop p b.val with st := .rest } := by
  rw [State.chopRest_eq]
  match b with
  | 0 => exact (State.restOne_chop_other _ v p (by decide)).trans (s.restOne_chop v 0 p)
  | 1 =>
    exact (State.restOne_chop _ v 1 p).trans
      (congrArg (fun c : Chop => { c with st := .rest }) (s.restOne_chop_other v p (by decide)))

theorem State.chopRest_regs (s : State) (p v : Nat) : (s.chopRest p v).regs = s.regs := by
  rw [State.chopRest_eq, State.restOne_regs, State.restOne_regs]

theorem State.stillRest_regs (s : State) (p mode : Nat) : (s.stillRest p mode).regs = s.regs := by
  unfold State.stillRest
  split
  · rfl
  · exact s.chopRest_regs p _

/-- VEL has been 0 for TSTAND. -/
theorem State.stepStill_stands (hstep : s.stepping p = true) (hvel : s.rdI (PRG.VEL p) = 0) :
    s.stepStill p = (s.raise (PRG.STAT_STANDSTILL p)).stillRest p (s.f (PRG.CFG_STANDMODE p)) :=
  if_neg (by simp [hstep, hvel])

theorem State.stepStill_moves (h : s.stepping p = false ∨ s.rdI (PRG.VEL p) ≠ 0) : s.stepStill p = s :=
  if_pos (by simpa using h)

theorem State.stepStill_on (hstep : s.stepping p = true) (hvel : s.rdI (PRG.VEL p) = 0) :
    (s.stepStill p).on (PRG.STAT_STANDSTILL p) = true := by
  have hregs := (s.raise (PRG.STAT_STANDSTILL p)).stillRest_regs p (s.f (PRG.CFG_STANDMODE p))
  rw [State.stepStill_stands hstep hvel,
    State.on_of_rd (PRG.STAT_STANDSTILL p) (congrArg (fun r : FMap Word => r.get regReset _) hregs)]
  exact State.raise_on _ _ rfl

/-- In the standstill modes OFF and SHORT both choppers rest, unless a stall has switched them off. -/
theorem State.stepStill_rests (hstep : s.stepping p = true) (hvel : s.rdI (PRG.VEL p) = 0)
    (hmode : s.f (PRG.CFG_STANDMODE p) = 1 ∨ s.f (PRG.CFG_STANDMODE p) = 2) (hoff : (s.chop p 0).st ≠ .off)
    (hparked : (s.chop p 0).st ≠ .parked) (b : Fin 2) :
    (s.stepStill p).chop p b.val = { s.chop p b.val with st := .rest } := by
  have hrests : ¬(s.f (PRG.CFG_STANDMODE p) = 0 ∨ (s.chop p 0).st = .off ∨ (s.chop p 0).st = .parked) := by
    simp only [hoff, hparked, or_false]
    omega
  rw [State.stepStill_stands hstep hvel, State.stillRest, State.raise_chop, if_neg hrests, State.chopRest_chop,
    State.raise_chop]

end Sys2Proof.Machine
end

section
/-! PROOF of the statement GeneratorUpdateAndStepping: the update in TRACK and at rest (R148, R160), and the statement. -/

namespace Sys2Proof.Machine

variable {s t : State} {n : Nat}

/-! ## What an update reads -/

/-- A register outside the generators. -/
def besidePrg (o : Nat) : Prop := o < 0x00D00000 ∨ 0x00E00000 ≤ o

/-- TRACK depends on the module, the port, and OUT. -/
theorem State.pgTracks_of_keeps (hn : n < 128) (h : s.Keeps besidePrg t) (hout : t.pgOut n = s.pgOut n) :
    t.pgTracks n = s.pgTracks n := by
  have hbeside (o : Nat) (ho : o < 0x00D00000) : t.rd o = s.rd o := h o (.inl ho)
  have hstate : t.mstate = s.mstate := h.f PWS.MODSTATE_STATE (.inr (by decide))
  have hforced : t.forced n = s.forced n := by
    rw [State.forced, State.latches, hbeside _ (by simp only [TRF.LATCH]; omega),
      h.on (DPW.STAT_FORCED n) (.inl (by simp only [DPW.STAT_FORCED, DPW.STAT]; omega)), State.forced, State.latches]
  have hheld : t.on (LPE.STAT_HELD n) = s.on (LPE.STAT_HELD n) := h.on _ (.inl (by simp only [LPE.STAT_HELD, LPE.STAT]; omega))
  have hmode : t.f (DPW.CFG_MODE n) = s.f (DPW.CFG_MODE n) := h.f _ (.inl (by simp only [DPW.CFG_MODE, DPW.CFG]; omega))
  rw [State.pgTracks, hstate, hout, hforced, hheld, hmode, State.pgTracks]

/-- The sampled position depends on the feedback unit. -/
theorem State.sampledPos_of_keeps (hn : n < 128) (h : s.Keeps besidePrg t) : t.sampledPos n = s.sampledPos n := by
  have hbeside (o : Nat) (ho : o < 0x00D00000) : besidePrg o := .inl ho
  unfold State.sampledPos
  rw [h.on (PFB.LAT1_SPEED_VALID n) (hbeside _ (by simp only [PFB.LAT1_SPEED_VALID, PFB.LAT1]; omega)),
    h.on (PFB.LAT1_FAULT n) (hbeside _ (by simp only [PFB.LAT1_FAULT, PFB.LAT1]; omega)),
    h.rdI (PFB.LAT4 n) (hbeside _ (by simp only [PFB.LAT4]; omega)),
    h (PFB.LAT2 n) (hbeside _ (by simp only [PFB.LAT2]; omega)),
    h.f (PFB.LAT3_FRAC n) (hbeside _ (by simp only [PFB.LAT3_FRAC, PFB.LAT3]; omega)),
    h (PFB.LAT5 n) (hbeside _ (by simp only [PFB.LAT5]; omega)),
    h.f (PFB.CFG_MODE n) (hbeside _ (by simp only [PFB.CFG_MODE, PFB.CFG]; omega)),
    h.f (PFB.TCFG_EXTLIM n) (hbeside _ (by simp only [PFB.TCFG_EXTLIM, PFB.TCFG]; omega)),
    h.rdI (PFB.LAT0 n) (hbeside _ (by simp only [PFB.LAT0]; omega))]

/-! ## The parts of an update -/

/-- Before the source computes: the port is checked and the motion followed so far is forgotten. -/
def State.pgStart (s : State) (n : Nat) : State := (s.pgCfgCheck n).setPg n { (s.pgCfgCheck n).pgU n with back := .rest }

/-- After it: the time, the outputs, and what the next update needs. -/
def State.pgFinish (s : State) (n t : Nat) : State :=
  (((s.setPg n { s.pgU n with u := some t }).pgQuantise n).pgKeep n).pgLook n t

/-- The time since the last update. -/
def State.pgSince (s : State) (n : Nat) : Rat :=
  match (s.pgU n).u with
  | some u0 => nsDiff (s.pgTime n) u0
  | none => 0

theorem State.pgUpdate_track (h : (s.pgStart n).pgTracks n = true) :
    s.pgUpdate n = ((s.pgStart n).pgTrack n).pgFinish n (s.pgTime n) :=
  congrArg (fun u : State => u.pgFinish n (s.pgTime n)) (if_pos h)

/-- Outside TRACK: what Saffron discards is gone, and FLUSH is done. -/
def State.pgReady (s : State) (n : Nat) : State := (((s.pgStart n).flag (PRG.STAT_TRACK n) false).pgMeet n).pgFlushRun n

/-- Outside TRACK and SS1 the source computes. -/
theorem State.pgUpdate_source (h : (s.pgStart n).pgTracks n = false) (hss1 : ((s.pgReady n).pgU n).ss1 = none) :
    s.pgUpdate n = ((((((s.pgReady n).pgEnter n (s.pgTime n)).pgDoor n).pgCommits n).pgReplan n).pgSource n (s.pgTime n)
      (s.pgSince n)).pgFinish n (s.pgTime n) := by
  refine congrArg (fun u : State => u.pgFinish n (s.pgTime n)) ((if_neg (Bool.eq_false_iff.mp h)).trans ?_)
  dsimp only
  split
  next hsome => exact absurd (hss1.symm.trans hsome) (by simp)
  next => rfl

/-! ## The start -/

/-- The start of an update writes STAT at most, and `back` of the generator. -/
theorem State.pgStart_effect (s : State) (n : Nat) :
    s.Keeps (· ≠ PRG.STAT n) (s.pgStart n) ∧ (s.pgStart n).pgU n = { s.pgU n with back := .rest } := by
  have hcheck : s.Keeps (· ≠ PRG.STAT n) (s.pgCfgCheck n) ∧ (s.pgCfgCheck n).pgU n = s.pgU n := by
    unfold State.pgCfgCheck
    split
    · exact ⟨.refl s, rfl⟩
    · have hraise := (State.Keeps.refl s).raise (F := PRG.STAT_CFG_ERR n) (P := (· ≠ PRG.STAT n)) (fun h => h rfl)
      exact ⟨hraise.same (State.recordStat_regs _ _ _ _ _ _), rfl⟩
  exact ⟨hcheck.1.same rfl, (State.pgU_setPg_same _ _ _).trans (congrArg (fun u : PgUnit => { u with back := .rest }) hcheck.2)⟩

theorem ne_stat_of_beside (hn : n < 128) {o : Nat} (h : besidePrg o) : o ≠ PRG.STAT n := by
  simp only [besidePrg, PRG.STAT] at *
  omega

theorem State.pgStart_tracks (hn : n < 128) : (s.pgStart n).pgTracks n = s.pgTracks n := by
  have hkeeps := (s.pgStart_effect n).1
  exact State.pgTracks_of_keeps hn (fun o ho => hkeeps o (ne_stat_of_beside hn ho))
    (hkeeps.f (PRG.CFG_OUT n) (by simp only [PRG.CFG_OUT, PRG.CFG, PRG.STAT]; omega))

/-! ## The end -/

/-- At rest the outputs are the state as it is. -/
theorem State.pgQuantise_rest (hplan : (s.pgU n).plan = []) (hv : (s.pgU n).v = 0) (ha : (s.pgU n).a = 0) :
    ∃ x y z, s.pgQuantise n = s.setPg n { s.pgU n with outP := x, outV := y, outA := z } := by
  have hmoving : (!(s.pgU n).plan.isEmpty || decide ((s.pgU n).v ≠ 0) || decide ((s.pgU n).a ≠ 0)) = false := by
    simp [hplan, hv, ha]
  unfold State.pgQuantise
  simp only [hmoving, Bool.false_eq_true, if_false]
  exact ⟨_, _, _, rfl⟩

theorem State.pgKeep_eq (s : State) (n : Nat) : ∃ w, s.pgKeep n = s.setPg n { s.pgU n with prior := w } := ⟨_, rfl⟩

theorem State.pgLook_pgU (s : State) (n t k : Nat) : (s.pgLook n t).pgU k = s.pgU k := by
  rw [State.pgLook, State.wrN_pgU, State.setF_pgU, State.setF_pgU]

theorem State.pgLook_keeps (s : State) (n t : Nat) : s.Keeps (fun o => o ≠ PRG.LOOK n ∧ o ≠ PRG.SPLAG n) (s.pgLook n t) := by
  unfold State.pgLook
  exact (((State.Keeps.refl s).setF (F := PRG.LOOK_LOOK n) (fun h => h.1 rfl) _).setF (F := PRG.LOOK_QLEN n) (fun h => h.1 rfl) _).wr
    (fun h => h.2 rfl) _

/-- What the end of an update at rest leaves of the generator: its motion, its queue and what waits for it. -/
theorem State.pgFinish_rest (hplan : (s.pgU n).plan = []) (hv : (s.pgU n).v = 0) (ha : (s.pgU n).a = 0) (t : Nat) :
    (∃ x y z w, (s.pgFinish n t).pgU n = { s.pgU n with u := some t, outP := x, outV := y, outA := z, prior := w })
      ∧ s.Keeps (fun o => o ≠ PRG.LOOK n ∧ o ≠ PRG.SPLAG n) (s.pgFinish n t) := by
  have htime := State.pgU_setPg_same s n { s.pgU n with u := some t }
  obtain ⟨x, y, z, hout⟩ := State.pgQuantise_rest (s := s.setPg n { s.pgU n with u := some t }) (n := n)
    (by rw [htime]; exact hplan) (by rw [htime]; exact hv) (by rw [htime]; exact ha)
  obtain ⟨w, hkeep⟩ := State.pgKeep_eq ((s.setPg n { s.pgU n with u := some t }).pgQuantise n) n
  unfold State.pgFinish
  rw [hkeep]
  refine ⟨⟨x, y, z, w, ?_⟩, fun o ho => ?_⟩
  · rw [State.pgLook_pgU, State.pgU_setPg_same, hout, State.pgU_setPg_same, htime]
  · rw [State.pgLook_keeps _ n t o ho, hout, State.setPg_rd, State.setPg_rd, State.setPg_rd]

/-! ## TRACK (R160) -/

/-- A generator that TRACK or SS1 takes over: queue, target, commits and arming go, and SRC is IDLE. -/
def PgUnit.dropped (u : PgUnit) : PgUnit :=
  { u with queue := [], knot0 := none, target := none, arm := none, pend := [], pushed := none, src := 0, plan := [],
           doorStop := none, doorNext := none }

theorem State.pgDrop_eq (s : State) (n : Nat) : s.pgDrop n
    = (((((s.setPg n (s.pgU n).dropped).setF (PRG.CFG_SRC n) 0).setF (PRG.CTRL_RETARGET n) 0).flag
      (PRG.STAT_GEAR_ARMED n) false).flag (PRG.STAT_GEAR_RAMP n) false).cancel (.starveSs1Timeout (Fin.ofNat 128 n)) := rfl

theorem State.pgDrop_pgU (s : State) (n : Nat) : (s.pgDrop n).pgU n = (s.pgU n).dropped := by
  rw [State.pgDrop_eq, State.cancel_pgU, State.flag_pgU, State.flag_pgU, State.setF_pgU, State.setF_pgU, State.pgU_setPg_same]

/-- What an update in TRACK leaves of the generator. -/
def PgUnit.tracked (u : PgUnit) (p : Rat) : PgUnit := { u.dropped.hold with p := p, stopping := false, safAt := none }

/-- An update in TRACK before it places the generator. -/
def State.trackFlags (s : State) (n : Nat) : State := ((s.pgDrop n).setF (PRG.CTRL_FLUSH n) 0).flag (PRG.STAT_TRACK n) true

theorem State.trackFlags_pgU (s : State) (n : Nat) : (s.trackFlags n).pgU n = (s.pgU n).dropped := by
  rw [State.trackFlags, State.flag_pgU, State.setF_pgU, State.pgDrop_pgU]

theorem State.trackFlags_keeps (s : State) (n : Nat) :
    s.Keeps (fun o => o ≠ PRG.CFG n ∧ o ≠ PRG.CTRL n ∧ o ≠ PRG.STAT n) (s.trackFlags n) := by
  have hdropped := (State.Keeps.refl s).same (u := s.setPg n (s.pgU n).dropped)
    (P := fun o => o ≠ PRG.CFG n ∧ o ≠ PRG.CTRL n ∧ o ≠ PRG.STAT n) rfl
  have hcommits := (hdropped.setF (F := PRG.CFG_SRC n) (fun h => h.1 rfl) 0).setF (F := PRG.CTRL_RETARGET n) (fun h => h.2.1 rfl) 0
  have harming := (hcommits.flag (F := PRG.STAT_GEAR_ARMED n) (fun h => h.2.2 rfl) false).flag (F := PRG.STAT_GEAR_RAMP n)
    (fun h => h.2.2 rfl) false
  rw [State.trackFlags, State.pgDrop_eq]
  exact ((harming.same (State.cancel_regs _ _)).setF (F := PRG.CTRL_FLUSH n) (fun h => h.2.1 rfl) 0).flag (F := PRG.STAT_TRACK n)
    (fun h => h.2.2 rfl) true

/-- TRACK shows, SRC is IDLE, no commit waits, and OUT stands. -/
theorem State.trackFlags_effect (s : State) (n : Nat) :
    (s.trackFlags n).on (PRG.STAT_TRACK n) = true ∧ (s.trackFlags n).f (PRG.CFG_SRC n) = 0
      ∧ (s.trackFlags n).on (PRG.CTRL_RETARGET n) = false ∧ (s.trackFlags n).pgOut n = s.pgOut n := by
  generalize hw : (s.setPg n (s.pgU n).dropped).setF (PRG.CFG_SRC n) 0 = w
  have hlast : (w.setF (PRG.CTRL_RETARGET n) 0).UnitBut n
      [PRG.STAT_GEAR_ARMED 0, PRG.STAT_GEAR_RAMP 0, PRG.CTRL_FLUSH 0, PRG.STAT_TRACK 0] (s.trackFlags n) :=
    hw ▸ .flag (.setF (.cancel (.flag (.flag (.refl _) (PRG.STAT_GEAR_ARMED 0) _) (PRG.STAT_GEAR_RAMP 0) _) _)
      (PRG.CTRL_FLUSH 0) 0) (PRG.STAT_TRACK 0) true
  have hlater : w.UnitBut n
      [PRG.CTRL_RETARGET 0, PRG.STAT_GEAR_ARMED 0, PRG.STAT_GEAR_RAMP 0, PRG.CTRL_FLUSH 0, PRG.STAT_TRACK 0] (s.trackFlags n) :=
    .trans (.setF (.refl w) (PRG.CTRL_RETARGET 0) 0) hlast
  refine ⟨State.flag_on _ _ _ rfl, (hlater.f (PRG.CFG_SRC 0)).trans ?_,
    (hlast.on (PRG.CTRL_RETARGET 0)).trans (State.setF_zero_on _ (PRG.CTRL_RETARGET n) rfl), (hlater.f (PRG.CFG_OUT 0)).trans ?_⟩
  · rw [← hw]
    exact State.setF_f _ (PRG.CFG_SRC n) 0 rfl
  · rw [← hw]
    exact State.setF_f_beside (PRG.CFG_OUT n) _ (PRG.CFG_SRC n) 0 rfl rfl

/-- The generator takes IDLE and rests, at the sampled position where it drives a loop. -/
theorem State.pgTrack_effect (s : State) (hn : n < 128) :
    (s.pgTrack n).on (PRG.STAT_TRACK n) = true ∧ (s.pgTrack n).f (PRG.CFG_SRC n) = 0
      ∧ (s.pgTrack n).on (PRG.CTRL_RETARGET n) = false ∧ (s.pgTrack n).pgU n
        = (s.pgU n).tracked (if n < 96 ∧ s.pgOut n = 0 then (s.sampledPos n : Rat) / 65536 else (s.pgU n).p) := by
  obtain ⟨htrack, hsrc, hret, hout⟩ := s.trackFlags_effect n
  have hpos : (s.trackFlags n).sampledPos n = s.sampledPos n := by
    refine State.sampledPos_of_keeps hn fun o ho => s.trackFlags_keeps n o ?_
    simp only [besidePrg, PRG.CFG, PRG.CTRL, PRG.STAT] at *
    omega
  have heq : s.pgTrack n = (s.trackFlags n).setPg n { ((s.trackFlags n).pgU n).hold with
      p := if n < 96 ∧ (s.trackFlags n).pgOut n = 0 then ((s.trackFlags n).sampledPos n : Rat) / 65536
        else ((s.trackFlags n).pgU n).p,
      stopping := false, safAt := none } := rfl
  rw [heq, hpos, hout, s.trackFlags_pgU, State.setPg_on, State.setPg_on, State.setPg_f, State.pgU_setPg_same]
  exact ⟨htrack, hsrc, hret, rfl⟩

/-- An update in TRACK. -/
theorem State.pgUpdate_tracked (s : State) (hn : n < 128) (h : s.pgTracks n = true) :
    (s.pgUpdate n).on (PRG.STAT_TRACK n) = true ∧ (s.pgUpdate n).f (PRG.CFG_SRC n) = 0
      ∧ (s.pgUpdate n).on (PRG.CTRL_RETARGET n) = false ∧ ∃ u x y z w b, (s.pgUpdate n).pgU n
        = { (s.pgU n).tracked (if n < 96 ∧ s.pgOut n = 0 then (s.sampledPos n : Rat) / 65536 else (s.pgU n).p) with
            u := u, outP := x, outV := y, outA := z, prior := w, back := b } := by
  obtain ⟨hkeeps, hunit⟩ := s.pgStart_effect n
  have hpos : (s.pgStart n).sampledPos n = s.sampledPos n :=
    State.sampledPos_of_keeps hn fun o ho => hkeeps o (ne_stat_of_beside hn ho)
  have hout : (s.pgStart n).pgOut n = s.pgOut n :=
    hkeeps.f (PRG.CFG_OUT n) (by simp only [PRG.CFG_OUT, PRG.CFG, PRG.STAT]; omega)
  obtain ⟨htrack, hsrc, hret, hplaced⟩ := (s.pgStart n).pgTrack_effect hn
  rw [hpos, hout, hunit] at hplaced
  obtain ⟨⟨x, y, z, w, hlast⟩, hregs⟩ := State.pgFinish_rest (s := (s.pgStart n).pgTrack n) (n := n)
    (by rw [hplaced]; rfl) (by rw [hplaced]; rfl) (by rw [hplaced]; rfl) (s.pgTime n)
  rw [State.pgUpdate_track ((State.pgStart_tracks hn).trans h)]
  have hfield (G : Field) (hG : G.off = PRG.STAT n ∨ G.off = PRG.CFG n ∨ G.off = PRG.CTRL n) :
      G.off ≠ PRG.LOOK n ∧ G.off ≠ PRG.SPLAG n := by
    simp only [PRG.STAT, PRG.CFG, PRG.CTRL, PRG.LOOK, PRG.SPLAG] at *
    omega
  refine ⟨(hregs.on _ (hfield _ (.inl rfl))).trans htrack, (hregs.f _ (hfield _ (.inr (.inl rfl)))).trans hsrc,
    (hregs.on _ (hfield _ (.inr (.inr rfl)))).trans hret, some (s.pgTime n), x, y, z, w, .rest, ?_⟩
  rw [hlast, hplaced]
  rfl

/-! ## PROFILE without a plan (R148, R151) -/

theorem State.pgMeet_eq_self (h : (s.pgU n).safAt = none) : s.pgMeet n = s := by
  unfold State.pgMeet
  split
  next hsaf _ => exact absurd (h.symm.trans hsaf) (by simp)
  next => rfl

/-- FLUSH changes the stream and its own bit. -/
theorem State.pgFlushRun_effect (s : State) (n : Nat) : s.Keeps (· ≠ PRG.CTRL n) (s.pgFlushRun n)
    ∧ ∃ q k x, (s.pgFlushRun n).pgU n = { s.pgU n with queue := q, knot0 := k, pushed := x } := by
  unfold State.pgFlushRun
  split
  · exact ⟨.refl s, _, _, _, rfl⟩
  · exact ⟨((State.Keeps.refl s).same rfl).setF (F := PRG.CTRL_FLUSH n) (fun h => h rfl) 0, _, _, _, State.pgU_setPg_same _ _ _⟩

/-- Outside TRACK, with nothing for Saffron to discard, the source stands and the stream alone may change. -/
theorem State.pgReady_effect (s : State) (n : Nat) (h : (s.pgU n).safAt = none) :
    (s.pgReady n).f (PRG.CFG_SRC n) = s.f (PRG.CFG_SRC n) ∧ (s.pgReady n).on (PRG.STAT_TRACK n) = false
      ∧ ∃ q k x, (s.pgReady n).pgU n = { s.pgU n with back := .rest, queue := q, knot0 := k, pushed := x } := by
  obtain ⟨hkeeps, hunit⟩ := s.pgStart_effect n
  have hready : s.pgReady n = ((s.pgStart n).flag (PRG.STAT_TRACK n) false).pgFlushRun n := by
    rw [State.pgReady, State.pgMeet_eq_self]
    rw [State.flag_pgU, hunit]
    exact h
  obtain ⟨hflush, q, k, x, hstream⟩ := ((s.pgStart n).flag (PRG.STAT_TRACK n) false).pgFlushRun_effect n
  have hcfg : (PRG.CFG_SRC n).off ≠ PRG.CTRL n ∧ (PRG.CFG_SRC n).off ≠ PRG.STAT n ∧ PRG.STAT n ≠ PRG.CTRL n := by
    simp only [PRG.CFG_SRC, PRG.CFG, PRG.CTRL, PRG.STAT]
    omega
  obtain ⟨hctrl, hstat, hbeside⟩ := hcfg
  rw [hready]
  refine ⟨?_, ?_, q, k, x, ?_⟩
  · rw [hflush.f _ hctrl]
    exact (State.setF_f_apart _ _ (PRG.STAT_TRACK n) _ hstat).trans (hkeeps.f _ hstat)
  · rw [hflush.on (PRG.STAT_TRACK n) hbeside]
    exact State.flag_on _ _ _ rfl
  · rw [hstream, State.flag_pgU, hunit]

theorem State.pgEnter_eq_self (h : s.f (PRG.CFG_SRC n) = (s.pgU n).src) (t : Nat) : s.pgEnter n t = s := if_pos h

theorem State.pgDoor_eq_self (hstop : (s.pgU n).doorStop = none) (hnext : (s.pgU n).doorNext = none) : s.pgDoor n = s := by
  unfold State.pgDoor
  simp only [hstop, hnext]

theorem State.pgCommits_eq_self (h : (s.pgU n).pend = []) : s.pgCommits n = s := by
  unfold State.pgCommits
  simp only [h, List.filter_nil, List.getLast?_nil]

/-- Without a target a change of the limits is noted only. -/
theorem State.pgReplan_noTarget (h : (s.pgU n).target = none) :
    (s.pgReplan n).regs = s.regs ∧ ∃ l, (s.pgReplan n).pgU n = { s.pgU n with lims := l } := by
  unfold State.pgReplan
  dsimp only
  split
  · exact ⟨rfl, _, rfl⟩
  · split
    next htarget => exact absurd (h.symm.trans htarget) (by simp)
    next => exact ⟨rfl, _, State.pgU_setPg_same _ _ _⟩

theorem State.pgSource_noPlan (hsrc : (s.pgU n).src = 1) (hplan : (s.pgU n).plan = []) (t : Nat) (dns : Rat) :
    s.pgSource n t dns = s.setPg n (s.pgU n).hold := by
  unfold State.pgSource
  simp only [hsrc, hplan, List.isEmpty_nil, Bool.not_true, Bool.false_and, State.raiseIf, Bool.false_eq_true, if_false]
  unfold State.pgRunPlan
  simp only [hplan, List.isEmpty_nil, if_true]

/-- A generator in PROFILE that has no plan, and that nothing makes move. -/
structure PgUnit.Idle (u : PgUnit) : Prop where
  src : u.src = 1
  plan : u.plan = []
  target : u.target = none
  pend : u.pend = []
  doorStop : u.doorStop = none
  doorNext : u.doorNext = none

/-- It holds where it stands. -/
theorem State.pgSource_idle (h : (s.pgU n).Idle) (hsrc : s.f (PRG.CFG_SRC n) = 1) (t : Nat) (dns : Rat) :
    ∃ (w : State) (l : List Nat), ((((s.pgEnter n t).pgDoor n).pgCommits n).pgReplan n).pgSource n t dns
      = w.setPg n { s.pgU n with lims := l, v := 0, a := 0, plan := [] } ∧ w.regs = s.regs := by
  obtain ⟨hregs, l, hunit⟩ := State.pgReplan_noTarget h.target
  rw [State.pgEnter_eq_self (hsrc.trans h.src.symm), State.pgDoor_eq_self h.doorStop h.doorNext, State.pgCommits_eq_self h.pend,
    State.pgSource_noPlan (by rw [hunit]; exact h.src) (by rw [hunit]; exact h.plan), hunit]
  exact ⟨_, l, rfl, hregs⟩

/-- An update of such a generator. -/
theorem State.pgUpdate_idle (s : State) (hn : n < 128) (h : s.pgTracks n = false) (hss1 : (s.pgU n).ss1 = none)
    (hsrc : s.f (PRG.CFG_SRC n) = 1) (hidle : (s.pgU n).Idle) (hsaf : (s.pgU n).safAt = none) :
    (s.pgUpdate n).on (PRG.STAT_TRACK n) = false ∧ ((s.pgUpdate n).pgU n).p = (s.pgU n).p ∧ ((s.pgUpdate n).pgU n).v = 0
      ∧ ((s.pgUpdate n).pgU n).a = 0 := by
  obtain ⟨hcfg, htrack, q, k, x, hunit⟩ := s.pgReady_effect n hsaf
  have hidle' : ((s.pgReady n).pgU n).Idle := by
    rw [hunit]
    exact ⟨hidle.src, hidle.plan, hidle.target, hidle.pend, hidle.doorStop, hidle.doorNext⟩
  obtain ⟨w, l, hheld, hregs⟩ := State.pgSource_idle hidle' (hcfg.trans hsrc) (s.pgTime n) (s.pgSince n)
  rw [State.pgUpdate_source ((State.pgStart_tracks hn).trans h) (by rw [hunit]; exact hss1), hheld, hunit]
  obtain ⟨⟨a, b, c, d, hlast⟩, hkeeps⟩ := State.pgFinish_rest (n := n)
    (s := w.setPg n { s.pgU n with back := .rest, queue := q, knot0 := k, pushed := x, lims := l, v := 0, a := 0, plan := [] })
    (by rw [State.pgU_setPg_same]) (by rw [State.pgU_setPg_same]) (by rw [State.pgU_setPg_same]) (s.pgTime n)
  have hstat : PRG.STAT n ≠ PRG.LOOK n ∧ PRG.STAT n ≠ PRG.SPLAG n := by
    simp only [PRG.STAT, PRG.LOOK, PRG.SPLAG]
    omega
  rw [hlast, State.pgU_setPg_same]
  refine ⟨(hkeeps.on (PRG.STAT_TRACK n) hstat).trans ?_, rfl, rfl, rfl⟩
  exact (State.on_of_rd _ (congrArg (fun r : FMap Word => r.get regReset _) hregs)).trans htrack

/-! ## The statement -/

theorem State.stallStep_noCoils (h : s.f (PRG.CFG_OUT n) ≠ 1) : s.stallStep n = s := if_pos h

/-- Settles O33: an update by whether the generator tracks, a chopper's event by its state, standstill by the mode. -/
theorem generatorUpdateAndStepping : Obligations.GeneratorUpdateAndStepping := by
  refine ⟨fun s n => ⟨_, rfl, fun hout htracks => ?tracks,
      fun hout htracks hss1 hcfg hsrc hpend hstop hnext htarget hplan hsaf => ?idle⟩,
    fun s p b => ?chopper, fun s n => ⟨_, rfl, State.stepStill_moves, fun hstep hvel => ?stands⟩⟩
  case tracks =>
    obtain ⟨htrack, hsrc, hret, u, x, y, z, w, back, hunit⟩ := s.pgUpdate_tracked n.isLt htracks
    rw [State.stallStep_noCoils hout, hunit]
    exact ⟨htrack, hsrc, hret, rfl, rfl, rfl, rfl, rfl, rfl, rfl⟩
  case idle =>
    rw [State.stallStep_noCoils hout]
    exact s.pgUpdate_idle n.isLt htracks hss1 hcfg ⟨hsrc, hplan, htarget, hpend, hstop, hnext⟩ hsaf
  case chopper =>
    intro c off fast
    refine ⟨⟨_, exec_chopperCompare s p b, fun x hstep hx hon hblank hreached => ?reached, fun hno => ?unready,
        fun x hx hbelow => ?below⟩,
      ⟨_, rfl, fun hstep hfast => ?fast, fun hstep hslow => State.chopTimeout_on hstep hslow, State.chopTimeout_idle⟩⟩
    case reached =>
      rw [if_pos hstep, State.chopCompare_eq hx, if_pos ⟨hon, hblank, hreached⟩]
      exact s.chop_timed p b _ _ _
    case unready =>
      split
      case isFalse => rfl
      case isTrue hstep =>
        cases hx : s.coilValue p.val b.val with
        | none => exact State.chopCompare_noValue hx
        | some x =>
          rw [State.chopCompare_eq hx, if_neg]
          rintro ⟨hon, hblank, -⟩
          rcases hno with h | h | h | h
          · exact absurd (hstep.symm.trans h) (by decide)
          · exact absurd (hx.symm.trans h) (by simp)
          · exact h hon
          · exact absurd hblank (Nat.not_le.mpr h)
    case below =>
      split
      case isFalse => rfl
      case isTrue => rw [State.chopCompare_eq hx, if_neg fun h => absurd h.2.2 (not_le.mpr hbelow)]
    case fast =>
      rw [State.chopTimeout_fast hstep hfast]
      exact s.chop_timed p b _ _ _
  case stands =>
    refine ⟨State.stepStill_on hstep hvel, fun hmode hoff hparked b => ?_⟩
    rw [State.stepStill_rests hstep hvel hmode hoff hparked b]
    exact ⟨rfl, rfl⟩

end Sys2Proof.Machine
end
